-- ==== Sys2Proof/Word.lean ====
section
/-!
DEFINITION. The word types of the chip: the byte, the 16-bit value, the 32-bit register and the 64-bit queue word.
-/
namespace Sys2Proof

/-- A byte of a memory, a frame or an image. -/
abbrev Byte := BitVec 8

/-- A 16-bit value. -/
abbrev Half := BitVec 16

/-- A register of the chip: 32 bits (R5, R8). -/
abbrev Word := BitVec 32

/-- A queue word, a push or pop of a queue window: 64 bits (R197). -/
abbrev Word64 := BitVec 64

end Sys2Proof
end

