-- ==== Sys2Proof/Syntax.lean ====
section
/-!
DEFINITION. The commands of the block: one constructor per row of the spec's table of operations and events, in the order of
the chapters, with the operands the rows' rules give them. An operand that the rules bound by a count is a Fin; words,
identifiers and times are bit vectors; what the outside brings (sampled levels, measured values, frames) is a list.
-/
namespace Sys2Proof

/-- One of the eight clock and power domains (R20). -/
inductive Domain where
  | aon | cfg | time | port | core | hser | nser | ddr
  deriving DecidableEq, Repr

/-- The origin of a change or of an action (R30, R551): the device itself, its host, its calm port, chain device d,
engine e, or a boot source. -/
inductive Origin where
  | device
  | host
  | calm
  | chain (d : Fin 64)
  | engine (e : Fin 48)
  | boot
  deriving DecidableEq, Repr

/-- A master that reads and writes registers and queue windows (R201). -/
inductive Master where
  | host
  | engine (e : Fin 48)
  | supervisor (k : Fin 2)
  | calm
  | chain (d : Fin 64)
  deriving DecidableEq, Repr

/-- A queue word (R197): 32 data bits and the side bits END (fin) and ERR. -/
structure QWord where
  data : Word
  fin : Bool := false
  err : Bool := false
  deriving DecidableEq, Repr

/-- A queue as a window names it: one of Q0 to Q65535, or the event log (R548). -/
inductive QRef where
  | num (q : BitVec 16)
  | log
  deriving DecidableEq, Repr

/-- The three widths of a write to PUSH (R199): the 64-bit write, and the 32-bit writes to offsets 0x00 and 0x04. -/
inductive PushVal where
  | whole (v : Word64)
  | lower (v : Word)
  | upper (v : Word)
  deriving DecidableEq, Repr

/-- The three reads of a 64-bit window register (R201). -/
inductive ReadPart where
  | whole | lower | upper
  deriving DecidableEq, Repr

/-- The write that brings a window's CMD its COUNT (R201, R208): a 64-bit write carries it; a 32-bit write of the lower word
uses the upper word held for the master. -/
inductive CmdCount where
  | whole (count : Word)
  | held
  deriving DecidableEq, Repr

/-- Where a register write goes: a 32-bit word of BAR0, or the upper word of the CMD of queue q's window (R201). -/
inductive RegTarget where
  | bar0 (off : BitVec 24)
  | cmdUpper (q : QRef)
  deriving DecidableEq, Repr

/-- The unit whose power domain is going down (R260). -/
inductive DownUnit where
  | cluster (k : Fin 12)
  | netPort (k : Fin 12)
  | bank (b : Fin 64)
  | chainDevice (d : Fin 64)
  deriving DecidableEq, Repr

/-- The four sources of time corrections (R275). -/
inductive TimeSrc where
  | host | engine | chain | pps
  deriving DecidableEq, Repr


/-- What a cell carries (R314): on VC0 a read, its completion, a posted write, and the report of a failed one; on VC1 a group of
queue words and its status; a host command and its completion (R456), and an abort on VC3 (R459); on VC3 a route table, a request of
CH_REQ, and other management. -/
inductive ChainMsg where
  | read (off : BitVec 24) (wide : Bool)
  | readDone (v : Word64) (status : BitVec 4)
  | write (off : BitVec 24) (wide : Bool) (v : Word64) (origin : BitVec 4)
  | report (status : BitVec 4) (dev : Fin 64) (off : BitVec 24) (wide : Bool) (v : Word64) (origin : BitVec 4)
  | group (from_ dest : BitVec 16) (seq : Word) (ws : List QWord) (resent : Bool)
  | groupDone (queue : BitVec 16) (seq : Word) (status : BitVec 4)
  | time (ws : List Word)
  | routes (rte : List Word) (mask : BitVec 64)
  | request (op : BitVec 2)
  | command (tag : BitVec 12) (ring : BitVec 6) (entry : List Word) (payload : List Byte)
  | done (tag : BitVec 12) (abt : Bool) (status : Byte) (count detail : Word) (stamp : List Word) (stepSeq : Byte) (buffer : List Byte)
  | abort (kind : BitVec 4) (object : BitVec 16) (tag : BitVec 12)
  | manage (ws : List Word)
  deriving DecidableEq, Repr

/-- A cell (R314): its virtual channel, its source and destination devices, and what it carries. -/
structure Cell where
  vc : Fin 4
  src : Fin 64
  dst : Fin 64
  msg : ChainMsg
  deriving DecidableEq, Repr

/-- A HELLO block (R312): serial number, role, link number, device number if it holds one, CH_BUF split, and whether the link came
up at the fallback rate. -/
structure Hello where
  sn : BitVec 128
  role : BitVec 2
  link : Fin 4
  num : Option (Fin 64)
  split : Word
  slow : Bool
  deriving DecidableEq, Repr

/-- The answer of a probed member (R321): its serial number, whether it holds a number, the link on which the probe arrived, and its
links that are UP. -/
structure ProbeAnswer where
  sn : BitVec 128
  numbered : Bool
  arrival : Fin 4
  links : List (Fin 4)
  deriving DecidableEq, Repr

/-- A step of an enumeration (R321): at the root, what the next probe brings, nothing where no answer comes; at a member, the number
that the root assigns on a link, with its hop count. -/
inductive ProbeEvent where
  | answer (a : Option ProbeAnswer)
  | assigned (l : Fin 4) (num : Fin 64) (hops : Fin 17)
  deriving DecidableEq, Repr

/-- What has arrived of a frame on a network port (R406, R415): its first 64 bytes, or all of it from the destination address to the FCS
and whether a code or symbol error lay inside. -/
inductive FramePart where
  | head (bytes : List Byte)
  | whole (bytes : List Byte) (symErr : Bool)
  deriving DecidableEq, Repr

/-- One value of the admin gate list (R408, R418). -/
inductive GclValue where
  | entry (i gates : Byte) (interval : Word)
  | length (n : BitVec 9)
  | base (sec : BitVec 48) (ns : Word)
  | cycle (ns : Word)
  | extension (ns : Word)
  deriving DecidableEq, Repr

/-- The instructions of the test access port (R633). -/
inductive TapIr where
  | bypass | sample | extest | idcode | clamp | highz
  deriving DecidableEq, Repr

/-- A failed access to host memory (R436): of the payload or buffer of command tag, with the bytes that had been moved; of the fetch of
ring n's entry or SGL; or of the write of a completion to ring n. -/
inductive DmaFault where
  | payload (tag : BitVec 12) (got : List Byte)
  | fetch (n : Fin 64)
  | completion (n : Fin 64)
  deriving DecidableEq, Repr

/-- A calm-port transaction (R506): whether its CRC matches, its ADDR and LEN, and how many bytes the host clocks after the ACK byte. -/
structure CalmTx where
  crcOk : Bool
  addr : Word
  len : Half
  after : Half
  deriving DecidableEq, Repr

/-- A step of a chain boot (R525): the member asks the root; the root streams its MEMBER_SLOT to member d; or the stream, a framed image,
arrives at the member. -/
inductive BootEvent where
  | ask
  | stream (d : Fin 64)
  | arrived (bytes : List Byte)
  deriving DecidableEq, Repr

/-- A use of a queue window beside the commands of its registers (R200): a read or a write of a wrong width or alignment; a read of
PUSH, CMD or an unassigned offset; a write to POP, PEEK, STAT, LOST or an unassigned offset; or a read request over n aligned
8-byte offsets from offset 8 × first. -/
inductive WindowUse where
  | badRead | badWrite | zeroRead | deadWrite
  | span (first : Fin 8) (n : BitVec 8)
  deriving DecidableEq, Repr

/-- Such a use of the window of queue q. -/
structure WindowAccess where
  q : QRef
  how : WindowUse
  deriving DecidableEq, Repr

/-- The two copies of a queue's control record, or of the next-block number in the owner entry of the block at a place of its chain, come to
disagree (R251), before the scrubber passes them or, late, after it has. -/
structure Upset where
  queue : BitVec 16
  link : Option Nat := none
  late : Bool := false
  deriving DecidableEq, Repr

/-- A command: what the outside does to the block, or an event inside it that the spec's table lists. -/
inductive Instr where
  -- Registers (R8, R11, R84)
  | registerWrite (m : Master) (a : RegTarget) (v : Word)
  | snapshotRead (m : Master) (off : BitVec 24)
  | counterRead (m : Master) (off : BitVec 24)
  -- Serial line
  | rxStartEdge (p : Fin 16)
  | rxFalseStart (p : Fin 16)
  | rxCharAccept (p : Fin 16) (samples : List (BitVec 3))
  | breakStart (p : Fin 16)
  | breakEnd (p : Fin 16)
  | lineStuck (p : Fin 16)
  | rxMaskEnd (p : Fin 16) (mark : Bool)
  | rxLineMark (p : Fin 16)
  | rxEnWrite (o : Origin) (p : Fin 16) (en mark : Bool)
  | txEnWrite (o : Origin) (p : Fin 16) (en : Bool)
  | baudcfgWrite (o : Origin) (p : Fin 16) (v : Word)
  | baudChangeApply (p : Fin 16)
  | baudSettlingEnd (p : Fin 16)
  | frameFormatApply (p : Fin 16) (tx : Bool)
  | txPrefetchPop (p : Fin 16)
  | txCharStart (p : Fin 16)
  | deRise (p : Fin 16)
  | deFall (p : Fin 16)
  | ctsChange (p : Fin 16) (asserted : Bool)
  | xonXoffSend (p : Fin 16)
  | echoWindowClose (p : Fin 16)
  | collResume (o : Origin) (p : Fin 16)
  | sendBreak (p : Fin 16)
  | deHoldEnd (p : Fin 16)
  | autobaudStart (o : Origin) (p : Fin 16) (apply : Bool)
  | autobaudEdge (p : Fin 16)
  | autobaudCancel (o : Origin) (p : Fin 16)
  -- Serial addressing, packets and timed transmit
  | bindingWrite (o : Origin) (p : Fin 16) (b : Fin 7) (v : Word)
  | strangerSelect (m : Master) (p : Fin 16) (v : Word)
  | gapExpiry (p : Fin 16)
  | launchRegisterLoad (p : Fin 16)
  | farHoldEnd (p : Fin 16) (k : Fin 4)
  | launchOnTime (p : Fin 16) (k : Fin 4)
  | launchLate (p : Fin 16) (k : Fin 4)
  -- The trade-wind bus
  | twRunStart (o : Origin) (p : Fin 16)
  | twRunStop (o : Origin) (p : Fin 16)
  | fnListenTimeout (p : Fin 16)
  | twFirstCycleStart (p : Fin 16)
  | cycleBoundary (p : Fin 16) (flips : List (Fin 777 × Word))
  | twTableCommit (o : Origin) (p : Fin 16) (modes : BitVec 4)
  | slotCommitDeadline (p : Fin 16) (e : Fin 64)
  | slotStart (p : Fin 16) (e : Fin 64) (edge : Bool)
  | slotEnd (p : Fin 16) (e : Fin 64)
  | twFrameReceive (p : Fin 16)
  | syncMiss (p : Fin 16)
  | twSwitch (o : Origin) (p : Fin 16) (v : Word)
  | switchDecision (p : Fin 16)
  -- The bus guardian and schedule faults
  | guardianCopyCheck (p : Fin 16) (m : Fin 4) (upset : Word)
  | guardianPredictedBoundary (p : Fin 16) (flips : List (Fin 777 × Word))
  | muzzle (o : Origin) (p : Fin 16)
  | unmuzzle (o : Origin) (p : Fin 16)
  | clrHist (o : Origin) (p : Fin 16)
  | foreignEnergy (p : Fin 16)
  -- Queue windows and queue commands
  | queuePush (m : Master) (q : QRef) (v : PushVal)
  | queueGroupPush (q : BitVec 16) (ws : List QWord)
  | queuePop (m : Master) (q : QRef) (part : ReadPart)
  | queuePeek (m : Master) (q : QRef) (part : ReadPart)
  | queueStatRead (m : Master) (q : QRef) (part : ReadPart)
  | queueLostRead (m : Master) (q : QRef) (part : ReadPart)
  | badAccess (m : Master) (x : WindowAccess)
  | nop (m : Master) (q : QRef) (c : CmdCount)
  | mark (m : Master) (q : QRef) (c : CmdCount)
  | unmark (m : Master) (q : QRef) (c : CmdCount)
  | rewind (m : Master) (q : QRef) (c : CmdCount)
  | release (m : Master) (q : QRef) (c : CmdCount)
  | releasePkt (m : Master) (q : QRef) (c : CmdCount)
  | queueReset (m : Master) (q : QRef) (c : CmdCount)
  | clrOverrun (m : Master) (q : QRef) (c : CmdCount)
  | clrLost (m : Master) (q : QRef) (c : CmdCount)
  | badCmd (m : Master) (q : QRef) (c : CmdCount)
  | create (o : Origin)
  | modify (o : Origin)
  | delete (o : Origin)
  | read (o : Origin)
  | snap (o : Origin)
  | qcmdIgnored (o : Origin) (op : BitVec 3)
  | pointerScrub (upsets : List Upset)
  -- Eddy store and conservation ledger
  | spillBurst (q : BitVec 16)
  | spillDone (q : BitVec 16)
  | refillRead (q : BitVec 16) (prefetch : Bool)
  | refillDone (q : BitVec 16) (bad : List (Fin 1024))
  | ledgerCheck
  | sweepStart
  | sweepDone
  | recount (o : Origin)
  | ledgerSnap (o : Origin)
  | domainBounce (u : DownUnit) (waiting : BitVec 32)
  | edQsel (m : Master) (q : BitVec 16)
  -- Time base
  | tbSubmitRate (o : Origin)
  | tbSubmitOffset (o : Origin) (add : Bool)
  | tbSubmitSet (o : Origin)
  | tbCancel (o : Origin)
  | timeStep
  | slewDone
  | sourceTimeout (src : TimeSrc)
  | sourceHoldoffExpiry (src : TimeSrc)
  | tbHoExpired
  | moncalWindow (ns : BitVec 32)
  | tsiEdge (i : Fin 8) (rising : Bool)
  | tpoApply (o : Origin) (i : Fin 8)
  | tpoApplyTake (i : Fin 8)
  | tpoPulseStart (i : Fin 8)
  | tpoPulseEnd (i : Fin 8)
  | alarmArm (o : Origin) (k : Fin 4) (v : Word)
  | alarmFire (k : Fin 4)
  | calendarSet (o : Origin) (v : Word)
  | leapSecond
  -- The Sahoz chain
  | linkSignalDetect (l : Fin 4)
  | linkBlockLock (l : Fin 4)
  | linkTrainTimeout (l : Fin 4)
  | helloExchange (l : Fin 4) (h : Option Hello)
  | linkDown (l : Fin 4)
  | forceDown (o : Origin) (l : Fin 4)
  | linkSleep (l : Fin 4)
  | cellReceive (l : Fin 4) (c : Option Cell) (crcOk : Bool) (credits : List (BitVec 16))
  | creditSyncSend (l : Fin 4)
  | creditSyncReceive (l : Fin 4) (counts : List (BitVec 24 × BitVec 24))
  | enumerationStart
  | enumProbeAnswer (e : ProbeEvent)
  | reenum (o : Origin) (written : Bool)
  | forget (o : Origin)
  | bar4Read (m : Master) (d : Fin 64) (off : BitVec 24) (size : BitVec 4)
  | bar4ReadResponse (d : Fin 64) (off : BitVec 24) (v : Word64) (status : BitVec 4)
  | chainRdFail (d : Fin 64) (off : BitVec 24)
  | bar4Write (m : Master) (d : Fin 64) (off : BitVec 24) (size : BitVec 4) (v : Word64)
  | forwardSend (q : BitVec 16)
  | forwardGroupReceive (dev : Fin 64) (from_ dest : BitVec 16) (seq : Word) (ws : List QWord) (resent : Bool)
  | forwardStatus (q : BitVec 16) (seq : Word) (status : BitVec 4)
  | forwardRetry (q : BitVec 16)
  | orphanWrite (status : BitVec 4) (reporter dev : Fin 64) (off : BitVec 24) (wide : Bool) (v : Word64) (origin : BitVec 4)
  | heartbeat (answers : List (Fin 64))
  | memberLost (d : Fin 64)
  | chainReqCoreReset (o : Origin) (dev : Fin 64) (all : Bool)
  | chainReqSystemReset (o : Origin) (dev : Fin 64) (all : Bool)
  | chainReqWake (o : Origin) (dev : Fin 64) (all : Bool)
  | chainReqIgnored (o : Origin) (dev : Fin 64) (all : Bool)
  | delayExchange (l : Fin 4)
  | linkDelaySample (l : Fin 4) (t1 t2 t3 t4 : Nat)
  | chainSyncSend
  | chainSyncReceive (l : Fin 4) (sent arrived : Nat) (quality : BitVec 3) (hops : Fin 17) (stepSeq : Byte)
  | releaseReady (l : Option (Fin 4))
  | releaseAt (l : Option (Fin 4)) (epoch count : Word)
  | releaseCountdownEnd
  | lateRelease
  | chainRoleWrite (o : Origin) (role : BitVec 2)
  | linkEnWrite (o : Origin) (l : Fin 4) (en : Bool)
  -- Engines and protocol images
  | ldBegin (o : Origin) (v : Word)
  | cancel (o : Origin)
  | clearSlot (o : Origin) (slot : Fin 16)
  | ldData (o : Origin) (v : Word)
  | ldDmaDone (bytes : List Byte)
  | imageLoad
  | imageInstall
  | ldSlotsel (slot : Fin 16)
  | start (o : Origin) (e : Fin 48) (v : Word)
  | halt (o : Origin) (e : Fin 48) (v : Word)
  | ceBindWrite (o : Origin) (e : Fin 48) (v : Word)
  | engineStarted (e : Fin 48)
  | abortEntry (e : Fin 48)
  | engineGraceEnd (e : Fin 48)
  | engineStop (e : Fin 48)
  | engineHalted (e : Fin 48)
  | kick (e : Fin 48)
  | abortDone (e : Fin 48)
  | mbxPost (e : Fin 48) (ws : List Word)
  | mbxTake (e : Fin 48)
  | mbiDb (e : Fin 48) (count : BitVec 4)
  | mboAck (e : Fin 48)
  | qpPush (e : Fin 48) (p : Fin 16) (ws : List QWord)
  | qpPop (e : Fin 48) (p : Fin 16) (n : BitVec 5) (untilEnd : Bool)
  | qpPeek (e : Fin 48) (p : Fin 16)
  | qpCmd (e : Fin 48) (p : Fin 16) (op : BitVec 4) (count : Word)
  | qpStat (e : Fin 48) (p : Fin 16)
  | descTake (e : Fin 48)
  | granuleRelease (e : Fin 48) (gs : List (BitVec 11))
  | timerArm (e : Fin 48) (i : Fin 8) (sec : BitVec 48) (ns : Word) (period : Word64)
  | timerExpiry (e : Fin 48) (i : Fin 8) (take : Bool)
  | declareValid (e : Fin 48)
  | declareInvalid (e : Fin 48)
  | engineRate (e : Fin 48) (a : Word)
  | engineOffset (e : Fin 48) (theta : Word64) (add : Bool)
  | engineSet (e : Fin 48) (sec : BitVec 48) (ns : Word)
  | timeQuery (e : Fin 48)
  | engineEvent (e : Fin 48) (payload : BitVec 128)
  | watchdog (e : Fin 48) (addr : BitVec 16)
  | engineFault (e : Fin 48) (cause : BitVec 3) (addr : BitVec 16)
  | clusterPwrOff (o : Origin) (k : Fin 12) (v : Word)
  -- Network ports
  | frameReceive (p : Fin 12) (ago : Word) (part : FramePart)
  | frameTxStart (p : Fin 12)
  | frameTxDone (p : Fin 12)
  | netLinkUp (p : Fin 12) (word : Option (BitVec 16))
  | netLinkDown (p : Fin 12)
  | link (e : Fin 48)
  | txSubmit (e : Fin 48) (d0 d1 d2 : Word) (frame : List Byte)
  | txTake (e : Fin 48)
  | ctSet (e : Fin 48) (mode : BitVec 2) (cls : BitVec 3)
  | ctCommit (e : Fin 48) (seq : Byte)
  | ctDecline (e : Fin 48) (seq : Byte)
  | ctPath (o : Origin) (p : Fin 12) (v : Word)
  | gclWrite (e : Fin 48) (x : GclValue)
  | gclCommit (e : Fin 48)
  | configChange (o : Origin) (p : Fin 12)
  | ccCancel (o : Origin) (p : Fin 12)
  | gateChange (p : Fin 12)
  | gateEntryBoundary (p : Fin 12)
  | mdCmd (m : Fin 2) (v : Word)
  | mdioFrameDone (m : Fin 2) (data : BitVec 16)
  | sgmiiWordChange (p : Fin 12) (word : BitVec 16)
  | npPwrOffWrite (o : Origin) (p : Fin 12) (v : Word)
  -- The host interface
  | sqTailDb (n : Fin 64) (v : Word)
  | cqHeadDb (n : Fin 64) (v : Word)
  | sqFetch (entry : List Word) (sgl : List (Word64 × Word))
  | hostNop (own : Option (Fin 64)) (tag : BitVec 12)
  | push (own : Option (Fin 64)) (tag : BitVec 12) (payload : List Byte)
  | pop (own : Option (Fin 64)) (tag : BitVec 12)
  | qcmd (own : Option (Fin 64)) (tag : BitVec 12)
  | regRead (own : Option (Fin 64)) (tag : BitVec 12)
  | regWrite (own : Option (Fin 64)) (tag : BitVec 12) (payload : List Byte)
  | engineCall (own : Option (Fin 64)) (tag : BitVec 12)
  | engineCallPost (own : Option (Fin 64)) (tag : BitVec 12)
  | engineCallAnswer (e : Fin 48) (ws : List Word)
  | sectionLoad (own : Option (Fin 64)) (tag : BitVec 12) (payload : List Byte)
  | timeRead (own : Option (Fin 64)) (tag : BitVec 12)
  | commandWaitResume (own : Option (Fin 64)) (tag : BitVec 12)
  | commandTimeout (own : Option (Fin 64)) (tag : BitVec 12)
  | completionWrite (cq : Fin 64)
  | coalesceTimeout (cq : Fin 64)
  | abortSerialPort (m : Master) (dev : Fin 64) (object : Half) (tag : BitVec 12) (cq : Fin 64)
  | abortQueue (m : Master) (dev : Fin 64) (object : Half) (tag : BitVec 12) (cq : Fin 64)
  | abortEngine (m : Master) (dev : Fin 64) (object : Half) (tag : BitVec 12) (cq : Fin 64)
  | abortRing (m : Master) (dev : Fin 64) (object : Half) (tag : BitVec 12) (cq : Fin 64)
  | abortTag (m : Master) (dev : Fin 64) (object : Half) (tag : BitVec 12) (cq : Fin 64)
  | abortBadKind (m : Master) (kind : Fin 11) (dev : Fin 64) (object : Half) (tag : BitVec 12) (cq : Fin 64)
  | sqEnable (n : Fin 64) (en : Bool)
  | cqEnable (n : Fin 64) (en : Bool)
  | featCommit (o : Origin)
  | hostLinkReset
  | hostPowerChange (d3 bme : Bool)
  | dmaError (what : DmaFault)
  | hostLinkUp (gen width : BitVec 3)
  | msixUnmask (v : Fin 64)
  -- The configuration image
  | cfBegin (o : Origin) (v : Word)
  | cfCancel (o : Origin)
  | cfData (o : Origin) (v : Word)
  | configLoad
  | commitApply
  | drainEnd (p : Fin 16)
  | portRebind (p : Fin 16)
  | sectionCommit
  | interruptReloadApply (t : Fin 8)
  -- The calm port and booting
  | idRead (tx : CalmTx)
  | planeRead (tx : CalmTx)
  | planeWrite (tx : CalmTx) (data : List Word)
  | bufWrite (tx : CalmTx) (data : List Word)
  | bufRead (tx : CalmTx)
  | pump (tx : CalmTx)
  | storeProg (tx : CalmTx)
  | storeLoad (tx : CalmTx)
  | storeSeal (tx : CalmTx) (data : List Word)
  | storeInval (tx : CalmTx)
  | storeHdr (tx : CalmTx) (data : List Word)
  | opWrite (tx : CalmTx) (data : List Word)
  | opRead (tx : CalmTx)
  | snapRead (tx : CalmTx)
  | fuseProg (tx : CalmTx) (data : List Word)
  | boot (tx : CalmTx)
  | calmTransactionCut (bytes : Half)
  | planeWorkDone
  | workCancel
  | clrErr
  | bufClr
  | postedWriteApply
  | snapshotTake
  | stCmd (o : Origin) (v : Word)
  | fuseProgDone (back : Word)
  | mramBoot
  | bootSlotFail
  | chainBootRequest (e : BootEvent)
  | journalFlush
  -- Interrupts and the event log
  | gatewayRequest (n : BitVec 11)
  | gatewayWithdraw (n : BitVec 11)
  | claim (m : Master) (t : Fin 8) (gust : Bool)
  | complete (m : Master) (t : Fin 8) (gust : Bool) (v : Word)
  | pset (m : Master) (i : Fin 64) (v : Word)
  | pendClear (m : Master) (i : Fin 64) (v : Word)
  | eventRecordWrite (cls : Fin 16) (idx : Byte) (o : Origin) (payload : List Word)
  | logTimerTick
  | elClsCfgWrite (o : Origin) (c : Fin 16) (v : Word)
  | chainIrqReport (d : Fin 64) (lines : BitVec 6)
  | eventCopyReceive (d : Fin 64) (ws : List Word)
  -- Clocks
  | refclkMonitorWindow (count : BitVec 9)
  | refclkEdgeTimeout
  | pllWindow (n : Fin 5) (count : Option (BitVec 24))
  | pllLockDetect (plls : BitVec 5) (on : Bool)
  | pllLocked (n : Fin 5) (forced : Bool)
  | resumeAck (o : Origin)
  | becalmResumeStep (rxd : BitVec 16)
  | pllEnableWrite (o : Origin) (v : Word)
  | dpllRateChange (o : Origin) (v : Word)
  -- Reset, power states and retention
  | resetNFall
  | resetThreshold
  | resetNRise (brief : Bool) (cycles : Word) (strap : BitVec 4)
  | powerOnResetEnd (strap : BitVec 4)
  | supplyFail (x : Fin 7)
  | supplyReturn (x : Fin 7)
  | releaseStep
  | coreResetStep
  | rstCtrlCore (o : Origin)
  | rstCtrlSystem (o : Origin) (core : Bool)
  | reqRun (o : Origin)
  | reqLull (o : Origin)
  | reqStill (o : Origin)
  | reqOff (o : Origin)
  | stillEntryStep
  | wake (causes : BitVec 14)
  | stillExitStep (rxd : BitVec 16)
  | retmemRead (m : Master) (off : BitVec 12) (wide : Bool) (perr : BitVec 2)
  -- Pins and GPIO
  | pinlock (m : Master) (v : PushVal)
  | pinCfgWrite (o : Origin) (p : Option (Fin 64)) (v : Word)
  | gpSet (hi : Bool) (v : Word)
  | gpClr (hi : Bool) (v : Word)
  | bankSupplyChange (b : Fin 5) (level : BitVec 2)
  | tapReset
  | tapInstruction (ir : TapIr) (en level : BitVec 64)
  -- On-chip memory and DRAM
  | ilvWrite (o : Origin) (v : Word)
  | bankStateRequest (o : Origin) (i : Fin 4) (v : Word)
  | bankTransitionDone (b : Fin 64)
  | memScrubPass (errs : List (BitVec 2 × BitVec 25 × Bool))
  | memInj (o : Origin) (v : Word)
  | memWinAddr (v : Word)
  | ddrInit (o : Origin) (c : Fin 2)
  | ddrInitDone (c : Fin 2) (failed : Fin 7)
  | ddrRefresh (c : Fin 2) (hot : Bool)
  | ddrPatrolScrub (c : Fin 2) (errs : List (BitVec 37 × Bool))
  deriving DecidableEq, Repr

end Sys2Proof
end

