-- ==== Sys2Proof/WellFormed.lean ====
section
/-!
DEFINITION. What a command must be to arise: the bounds that the rules put on the lists and words that a command carries. The machine gives
every command an outcome, well formed or not; the bounds say which of them the outside or the block can bring.
-/
namespace Sys2Proof

/-- A group of queue words: 1 to 16 (R217, R377). -/
def groupOk (ws : List QWord) : Bool := decide (1 ≤ ws.length) && decide (ws.length ≤ 16)

/-- A message that fits a cell (R314): its lists have the lengths of what they carry. -/
def ChainMsg.wf : ChainMsg → Bool
  | .group _ _ _ ws _ => groupOk ws
  | .routes rte _ => rte.length == 4
  | .command _ _ entry _ => entry.length == 16
  | _ => true

/-- The data words of a calm-port transaction are the LEN words of its header (R506). -/
def CalmTx.carries (tx : CalmTx) (data : List Word) : Bool := data.length == tx.len.toNat

/-- A register is written at a word offset (R8). -/
def RegTarget.wf : RegTarget → Bool
  | .bar0 off => off.toNat % 4 == 0
  | .cmdUpper _ => true

/-- A command that can arise. -/
def Instr.wf : Instr → Bool
  | .registerWrite _ a _ => a.wf
  | .rxCharAccept _ samples => !samples.isEmpty
  | .queueGroupPush _ ws => groupOk ws
  | .forwardGroupReceive _ _ _ _ ws _ => groupOk ws
  | .cellReceive _ c _ credits => (match c with | some c => c.msg.wf | none => true) && credits.length == 4
  | .creditSyncReceive _ counts => counts.length == 4
  | .frameReceive _ _ (.head bytes) => bytes.length == 64
  | .sqFetch entry _ => entry.length == 16
  | .planeWrite tx data => tx.carries data
  | .bufWrite tx data => tx.carries data
  | .storeSeal tx data => tx.carries data
  | .storeHdr tx data => tx.carries data
  | .opWrite tx data => tx.carries data
  | .fuseProg tx data => tx.carries data
  | .eventRecordWrite _ _ _ payload => decide (payload.length ≤ 4)
  | .eventCopyReceive _ ws => ws.length == 8
  | .engineCallAnswer _ ws => decide (1 ≤ ws.length) && decide (ws.length ≤ 16) && (ws.headD 0).getLsbD 31
  | .memScrubPass errs => errs.all (fun e => decide (e.1.toNat ≤ 2))
  | _ => true

end Sys2Proof
end

