-- ==== Sys2Proof/Decode.lean ====
section
/-!
DEFINITION. The commands that a word spells by the bits of the spec's table. No row of the table has bits: the commands of this block are
operations and events, and the two encoded forms that the spec has (a host command entry, R442, and a calm-port header, R506) arrive as
operands of rows that read them.
-/
namespace Sys2Proof

/-- The command that the table's bits of a word spell: no row has bits. -/
def decodeTableWord (_nbits _w : Nat) : Option Instr := none

end Sys2Proof
end

