-- ==== Sys2Proof/Config.lean ====
section
/-!
DEFINITION. What the spec leaves to no rule: the free values (log entry 4) and the two functions of published standards that
the spec names and does not define (log entry 5). None of them has a body, so no proof can see a value of them.
-/
namespace Sys2Proof

/-- Free value number n, of w bits: what the spec leaves undefined or unstated. -/
opaque Config.freeBits (w : Nat) : Nat → BitVec w

/-- The SHA-256 digest (FIPS 180-4) of a byte list, byte 0 in bits [7:0]. -/
opaque Config.sha256 : List Byte → BitVec 256

/-- Whether a 64-byte Ed25519 signature (RFC 8032) of a message verifies under a 32-byte public key. -/
opaque Config.ed25519 : (key message signature : List Byte) → Bool

end Sys2Proof
end

