-- ==== Sys2Proof/Machine/Tab.lean ====
section
/-!
DEFINITION. Sparse tables in one canonical form. A table lists (key, value) pairs with keys strictly rising, and lists no pair
whose value is what an unlisted key reads as. Registers, byte memories (lists of Host.Cell) and every numbered unit
of the chip are such tables; the lemmas that every operation keeps the form are in Laws/Tab.lean.
-/
namespace Sys2Proof.Machine

/-- A sparse table from numbers to α: its listed pairs. -/
abbrev Tab (α : Type) := List (Nat × α)

/-- What table t holds at key k, where an unlisted key j reads as d j. -/
def tabGet {α : Type} (d : Nat → α) : Tab α → Nat → α
  | [], k => d k
  | (j, v) :: r, k => if j = k then v else tabGet d r k

/-- Table t with v at key k, in canonical form: a value that key k reads as when unlisted removes the pair. -/
def tabPut {α : Type} [DecidableEq α] (d : Nat → α) : Tab α → Nat → α → Tab α
  | [], k, v => if v = d k then [] else [(k, v)]
  | (j, w) :: r, k, v =>
    if k < j then (if v = d k then (j, w) :: r else (k, v) :: (j, w) :: r)
    else if k = j then (if v = d k then r else (k, v) :: r)
    else (j, w) :: tabPut d r k v

/-- Table t with every listed value mapped by f, in canonical form. -/
def tabMap {α : Type} [DecidableEq α] (d : Nat → α) (f : Nat → α → α) (t : Tab α) : Tab α :=
  (t.map (fun e => (e.1, f e.1 e.2))).filter (fun e => decide (e.2 ≠ d e.1))

/-- The canonical form: keys strictly rising from above lo, and no pair that equals the unlisted reading. -/
def tabWfFrom {α : Type} [DecidableEq α] (d : Nat → α) : Nat → Tab α → Bool
  | _, [] => true
  | lo, (j, v) :: r => decide (lo ≤ j) && decide (v ≠ d j) && tabWfFrom d (j + 1) r

/-- The canonical form of a whole table. -/
def tabWf {α : Type} [DecidableEq α] (d : Nat → α) (t : Tab α) : Bool := tabWfFrom d 0 t

/-! ## Byte memories -/

/-- A byte-addressed memory: its listed bytes. -/
abbrev Mem := List Host.Cell

/-- What an unlisted byte of a memory reads as: 0 (DESIGN CHOICE, log entry 3). -/
def memDefault (_ : Nat) : Byte := 0

/-- The byte of m at address a. -/
def memByte (m : Mem) (a : Nat) : Byte := tabGet memDefault m a

/-- m with byte v at address a. -/
def memSetByte (m : Mem) (a : Nat) (v : Byte) : Mem := tabPut memDefault m a v

/-- The little-endian 32-bit word of m at byte address a (R12). -/
def memWord (m : Mem) (a : Nat) : Word :=
  memByte m (a + 3) ++ memByte m (a + 2) ++ memByte m (a + 1) ++ memByte m a

/-- m with the little-endian 32-bit word v at byte address a (R12). -/
def memSetWord (m : Mem) (a : Nat) (v : Word) : Mem :=
  memSetByte (memSetByte (memSetByte (memSetByte m a (v.extractLsb' 0 8)) (a + 1) (v.extractLsb' 8 8))
    (a + 2) (v.extractLsb' 16 8)) (a + 3) (v.extractLsb' 24 8)

/-- m with the bytes bs at addresses a, a + 1, and on. -/
def memSetBytes (m : Mem) (a : Nat) : List Byte → Mem
  | [] => m
  | b :: bs => memSetBytes (memSetByte m a b) (a + 1) bs

/-- The n bytes of m from address a. -/
def memBytes (m : Mem) (a : Nat) : Nat → List Byte
  | 0 => []
  | n + 1 => memByte m a :: memBytes m (a + 1) n

/-- m without any byte at addresses in [lo, hi): they read as unlisted. -/
def memClear (m : Mem) (lo hi : Nat) : Mem := m.filter (fun c => decide (c.1 < lo) || decide (hi ≤ c.1))

/-- The canonical form of a byte memory. -/
def Memory.wf (m : Mem) : Bool := tabWf memDefault m

end Sys2Proof.Machine
end

