-- ==== Sys2Proof/Machine/ChainState.lean ====
section
/-!
DEFINITION. The state of the chain (R309 to R349) that is not a register. Stamps of links are in ps; the delay of a link is in
LK_DELAY, its state in LK_STAT, the live credits in LK_CRED.
-/
namespace Sys2Proof.Machine

/-- A link: since when it is in its state (tick); the rate it trains at (true 5.15625 Gb/s); the partner of its HELLO; per VC the split
of its own receiver, cells sent, credits received, cells received and credits returned since the last reset of the
counts (R317); cells that wait for a credit, cells sent and not yet acknowledged (R318), and cells held in the receive buffer;
the accepted delay samples in ps, newest first, and rejections in a row and whether the next sample is taken raw (R340); what VC0, VC1 and VC3 may still send in this round
(R315); whether the partner has reported READY (R347). -/
structure Link where
  since : Nat := 0
  slow : Bool := false
  partner : Option Hello := none
  split : List Nat := []
  sent : List Nat := [0, 0, 0, 0]
  credIn : List Nat := [0, 0, 0, 0]
  received : List Nat := [0, 0, 0, 0]
  credOut : List Nat := [0, 0, 0, 0]
  waiting : List Cell := []
  replay : List Cell := []
  held : List Cell := []
  samples : List Int := []
  rejects : Nat := 0
  restart : Bool := false
  budget : List Nat := [0, 0, 0]
  ready : Bool := false
  deriving DecidableEq, Repr

/-- An entry of the root's map (R356). -/
structure MapEntry where
  sn : BitVec 128 := 0
  present : Bool := false
  lost : Bool := false
  asleep : Bool := false
  hops : Nat := 0
  parent : Nat := 0
  parentLink : Nat := 0
  deriving DecidableEq, Repr

/-- A read of a member in progress (R327): its issuer, the target, whether 8 bytes, and when it was sent (tick). -/
structure ChainRead where
  m : Master
  dev : Nat
  off : Nat
  wide : Bool
  at_ : Nat
  deriving DecidableEq, Repr

/-- An accepted SYNC (R342): its link, T and r in ps, STEP_SEQ, the slew sum at r, and the step count at r. -/
structure SyncMark where
  link : Nat
  sent : Nat
  arrived : Nat
  seq : Nat
  slew : Int
  own : Nat
  deriving DecidableEq, Repr

/-- The chain: the device's own serial number, the devices with a downstream route, the map, the sticky map and the pinned numbers
(R322), the probes still to make of the enumeration in progress, as (device, link), and the serial numbers it has met; a further
enumeration due; whether it has changed a route; the orphan log and its next sequence number (R333); reads in progress; when each
member last answered (R336); the last accepted SYNC, SYNCs accepted, whether the servo has had a pair, and when the last came
(R342, R343); the last release epoch, the end of the countdown in REFCLK cycles, and READY sent (R347). -/
structure Chain where
  sn : BitVec 128 := 0
  routed : List Nat := []
  map : Tab MapEntry := []
  sticky : List (BitVec 128 × Nat) := []
  pins : List (BitVec 128 × Nat) := []
  probes : List (Nat × Nat) := []
  met : List (BitVec 128) := []
  again : Bool := false
  rerouted : Bool := false
  orphans : Tab (List Word) := []
  orphanSeq : Nat := 0
  orphanUnread : List Nat := []
  reads : List ChainRead := []
  answered : Tab Nat := []
  sync : Option SyncMark := none
  syncs : Nat := 0
  paired : Bool := false
  epoch : Option Nat := none
  countdown : Option Nat := none
  readySent : Bool := false
  deriving DecidableEq, Repr

/-- A link at reset. -/
def Link.reset (_ : Nat) : Link := {}

/-- An entry of the map at reset. -/
def MapEntry.reset (_ : Nat) : MapEntry := {}

end Sys2Proof.Machine
end

