-- ==== Sys2Proof/Machine/EngineState.lean ====
section
/-!
DEFINITION. The state of the engines and the loader (R359 to R400) and of the network ports (R401 to R429) that is not a register.
-/
namespace Sys2Proof.Machine

/-- The statuses of the service contract (R373). -/
inductive OpStatus where
  | ok | empty | wait | refused | busy | unbound | absent | noPort | domainOff | notSource | suppressed | badArg
  deriving DecidableEq, Repr

/-- What follows the abort sequence (R387): HALTED, a restart after a replacement or a rebinding, UNBOUND, or a powered-down cluster. -/
inductive After where
  | halt | replace | rebind | unbind | power
  deriving DecidableEq, Repr

/-- Where an aborting engine stands (R387): not aborting, before its handler, in it, at the end of its grace time, or stopped. -/
inductive AbortPhase where
  | none | doorbell | handler | graceOver | stopped
  deriving DecidableEq, Repr

/-- An engine timer (R383, R384): armed, the next expiry in device time, the period (0 for a single time), an expiry not yet taken with
its grid time, STEPPED flag and grid times passed, and MISSED. -/
structure EngTimer where
  armed : Bool := false
  due : Nat := 0
  period : Nat := 0
  ready : Option (Nat × Bool × Nat) := none
  missed : Nat := 0
  deriving DecidableEq, Repr

/-- An engine beside its registers: the phase of its abort and what follows it; the slot whose image it runs; that START has been
written; that it starts again once its slot's new image is installed; the tick at which its watchdog count began; the ticks of its
restarts (R390) and that it reached their limit; words in the inbound mailbox; queue ports with an open packet, and the queue of each
(R378); timers; transmit statuses (R410); and its RAMs. -/
structure Engine where
  phase : AbortPhase := .none
  after : After := .halt
  slot : Nat := 0
  started : Bool := false
  again : Bool := false
  wdog : Option Nat := none
  restarts : List Nat := []
  limit : Bool := false
  inCount : Nat := 0
  packets : List (Nat × Nat) := []
  timers : Tab EngTimer := []
  statuses : List (List Word) := []
  iram : Mem := []
  dram : Mem := []
  deriving DecidableEq, Repr

/-- The loader (R363 to R367): the origin that owns the load, the origin of the request that its record names (R30), its length, DMA and REPLACE, the staged bytes, and that a verified image
waits for the slot's engines to stop. -/
structure Loader where
  owner : Origin := .device
  org : Origin := .device
  len : Nat := 0
  dma : Bool := false
  replace : Bool := false
  staged : List Byte := []
  installing : Bool := false
  deriving DecidableEq, Repr

/-- A timer that is not armed. -/
def EngTimer.reset (_ : Nat) : EngTimer := {}

/-- An engine at reset. -/
def Engine.reset (_ : Nat) : Engine := {}

/-! ## Network ports -/

/-- What a path or the engine has decided on a received frame (R415): nothing yet, forwarded, or declined. -/
inductive CtChoice where
  | open_ | forwarded | declined
  deriving DecidableEq, Repr

/-- A frame in a receive window (R379, R380): its descriptor words, the engine it went to, whether that engine has taken the descriptor,
the granules still held, its bytes, whether all of it has arrived, whether it had an early descriptor, and what became of it on a mode-1 path. -/
structure RxFrame where
  words : List Word
  engine : Nat
  taken : Bool := false
  grans : List Nat
  bytes : List Byte
  whole : Bool
  early : Bool := false
  choice : CtChoice := .declined
  deriving DecidableEq, Repr

/-- A frame on its way out (R409, R415): its class, the engine that submitted it (none for one forwarded from the partner port), its bytes
without a FCS of its own, the descriptor's flags and offsets, its TAG; of a forwarded frame, the sequence number it arrived under, whether
all of it is here, whether its FCS is to be inverted, and whether it waits store-and-forward. -/
structure TxFrame where
  cls : Nat
  engine : Option Nat
  bytes : List Byte
  stamp : Bool := false
  oneStep : Bool := false
  noFcs : Bool := false
  tag : Nat := 0
  tsOff : Nat := 0
  csumOff : Nat := 0xFFFF
  seq : Nat := 0
  whole : Bool := true
  bad : Bool := false
  stored : Bool := false
  deriving DecidableEq, Repr

/-- The frame on the wire (R411): with the tick of its start, its egress stamp and whether it was taken on a coarse count, and whether its gate has closed on it. -/
structure OnWire where
  frame : TxFrame
  begun : Nat
  stamp : Nat
  coarse : Bool
  late : Bool := false
  deriving DecidableEq, Repr

/-- A gate list (R417): entries as gates and interval, its cycle time, its start CCT, and the extension it was taken with. -/
structure GateList where
  entries : List (Nat × Nat) := []
  cycle : Nat := 0
  cct : Nat := 0
  ext : Nat := 0
  deriving DecidableEq, Repr

/-- A frame being received (R406, R415): its first bytes, its stamp and whether it was coarse, the sequence number of its early
descriptor, and the number under which the path forwards it. -/
structure Incoming where
  bytes : List Byte
  stamp : Nat
  coarse : Bool
  early : Option Nat := none
  ct : Option Nat := none
  deriving DecidableEq, Repr

/-- A network port beside its registers: the frame being received; frames in the receive window, the granule after the last frame's and
the number of the next; the group index that gets the next descriptor; frames that wait, the one on the wire, and the tick at which the gap after the last one ends; statuses for the group;
the admin entries by number; the oper list; a pending change and its origin (R419); that no engine of the group ran (R414);
the number of frames its path has forwarded; and whether drain has ended after PWR_OFF. -/
structure NetPort where
  incoming : Option Incoming := none
  rx : List RxFrame := []
  next : Nat := 0
  seq : Nat := 0
  turn : Nat := 0
  waiting : List TxFrame := []
  wire : Option OnWire := none
  gap : Nat := 0
  statuses : List (List Word) := []
  adminGates : Tab Nat := []
  adminTimes : Tab Nat := []
  oper : GateList := {}
  pend : Option (GateList × Origin) := none
  ctAuto : Bool := false
  ctNo : Nat := 0
  drained : Bool := false
  deriving DecidableEq, Repr

/-- A network port at reset. -/
def NetPort.reset (_ : Nat) : NetPort := {}

end Sys2Proof.Machine
end

