-- ==== Sys2Proof/Machine/QueueState.lean ====
section
/-!
DEFINITION. The state of the queue fabric, the eddy store and the conservation ledger: one queue, one block, the pools, and
what a queue is before it is created.
-/
namespace Sys2Proof.Machine

/-- A write to a queue window that waits in the endpoint while CORE is becalmed (R224): a push, or a command with its COUNT. -/
inductive HeldWrite where
  | push (m : Master) (q : QRef) (w : QWord)
  | cmd (m : Master) (q : QRef) (op : Nat) (count : Nat)
  deriving DecidableEq, Repr

/-- The two pools of blocks (R234). -/
inductive PoolKind where
  | eddy | onChip
  deriving DecidableEq, Repr

/-- Where a copy of an eddy block stands on its way back on chip (R242): none; a read in progress, since req, as a demand or
a prefetch read, into a prefetch buffer or into the head segment, with the time its first word became resident if part of
it is here; or here, its words below hi resident, the first since first and the last since last. -/
inductive BufState where
  | away
  | reading (req : Nat) (first : Option Nat) (prefetch inHead : Bool)
  | here (req first last hi : Nat) (inHead : Bool)
  deriving DecidableEq, Repr

/-- A block of a queue's middle (R234, R235): its pool, its channel (false D0, true D1), the queue and the generation in its owner
entry, whether the two copies of the next-block number there disagree (R251), the words written to it, those of a burst still
on its way into it, those of it already released, and its copy in a prefetch buffer. The number of the next block is the
block's place in its chain. -/
structure Block where
  pool : PoolKind
  ch : Bool := false
  owner : Nat := 0
  gen : Nat := 0
  torn : Bool := false
  fill : Nat := 0
  flight : Nat := 0
  rel : Nat := 0
  buf : BufState := .away
  deriving DecidableEq, Repr

/-- The five configuration words of a queue, in the layout of QF_QCFG0 to QF_QCFG4 (R229). -/
structure QCfg where
  w0 : Word := 0x20
  w1 : Word := 0x400
  w2 : Word := 0
  w3 : Word := 0
  w4 : Word := 0
  deriving DecidableEq, Repr

/-- A group a forwarder has sent and that is not yet accepted (R329, R332): its sequence number, the stream position of its
first word and its words. -/
structure FwdGroup where
  seq : Nat
  pos : Nat
  words : List QWord
  deriving DecidableEq, Repr

/-- What a destination queue keeps of a source (R332): source device and queue, and the last accepted number. -/
structure FwdSource where
  dev : Nat
  queue : Nat
  last : Nat
  deriving DecidableEq, Repr

/-- The forwarder of a queue (R329 to R331): its unaccepted groups, the next number, whether it is paused, whether later groups wait behind a
refused one, whether it forwards to its own queue, and the accepted words not yet released, as stream positions from and to; and the sources
of forwarded groups the queue receives, most recently used first. -/
structure Forwarder where
  groups : List FwdGroup := []
  nextSeq : Nat := 0
  paused : Bool := false
  behind : Bool := false
  spans : List (Nat × Nat) := []
  selfLoop : Bool := false
  sources : List FwdSource := []
  deriving DecidableEq, Repr

/-- One queue (R197 to R224, R233 to R253). words are the held words from the release pointer to the tail; rl, rd and mark
are positions in the stream of words, so HELD = words.length, UNREL = rd − rl and READY = HELD − UNREL. head is how many of
the oldest held words lie in the head segment without a block; chain is the middle; the rest lies in the tail. lossTold tells that
a discard under a full mode has been reported since LOST last read 0 (R215); torn tells that the two copies of the control
record disagree, which the next use finds (R251). hurt lists the words stored with an injected error (R652): stream position,
memory as MEM_INJ names it, and whether two bits are inverted. -/
structure Queue where
  ex : Bool := false
  cfg : QCfg := {}
  edge : Nat := 0
  edgePend : Option Nat := none
  gen : Nat := 0
  words : List QWord := []
  rl : Nat := 0
  rd : Nat := 0
  mark : Option Nat := none
  lastEnd : Bool := true
  cut : Bool := false
  overrun : Bool := false
  markLost : Bool := false
  discarding : Bool := false
  fault : Bool := false
  poolFull : Bool := false
  lost : Nat := 0
  lostPkt : Nat := 0
  lossTold : Bool := false
  torn : Bool := false
  pushed : Nat := 0
  popped : Nat := 0
  hwm : Nat := 0
  refused : Nat := 0
  faults : Nat := 0
  head : Nat := 0
  chain : List Block := []
  lastCh : Bool := true
  grant : Nat := 0
  ledgerE : Nat := 0
  ledgerO : Nat := 0
  depth : Nat := 0
  warming : Bool := true
  samples : List (Nat × Nat) := []
  pinned : Bool := false
  refillEv : Bool := false
  hurt : List (Nat × Nat × Bool) := []
  fwd : Forwarder := {}
  deriving DecidableEq, Repr

/-- A queue before it is created, and a queue number that no commit or CREATE has named (R203). -/
def Queue.absent : Queue := {}

/-- One pool's ledger terms (R254); blocks given by channel D0 and D1, those of them free, and those that leave the pool once they are
freed (R241). The on-chip pool's blocks count as D0's. -/
structure Pool where
  total : Nat := 0
  free : Nat := 0
  held : Nat := 0
  flight : Nat := 0
  reclaim : Nat := 0
  total0 : Nat := 0
  total1 : Nat := 0
  free0 : Nat := 0
  free1 : Nat := 0
  removing0 : Nat := 0
  removing1 : Nat := 0
  deriving DecidableEq, Repr

/-- A group of blocks that await reclaim (R252, R257): the queue and the generation that owned them, how many, and how many of those
lie in D1. -/
structure Reclaim where
  pool : PoolKind
  queue : Nat
  gen : Nat
  n : Nat
  d1 : Nat := 0
  deriving DecidableEq, Repr

/-- A failure the ledger has counted and whose action runs (R256): its class, object and difference. -/
structure LedgerFail where
  cls : Nat
  obj : Nat
  delta : Int
  deriving DecidableEq, Repr

/-- A tag marked outstanding in the tag table (R254, R454), with what its completion names: its completion ring, its submission
ring, its device, and whether it is an abort's. -/
structure TagMark where
  tag : Nat
  cq : Nat
  sq : Nat
  dev : Nat
  abt : Bool := false
  deriving DecidableEq, Repr

/-- The ledger (R254 to R260): both pools, the blocks awaiting reclaim, the sweep in progress (some r: r tells a recount) and
a request for a further one, the failures whose action runs, the tag table with the count of free tags, tags issued and
completed, the units whose power-down has its DOMAIN_BOUNCE event, the CREATEs that wait for a sweep (R252), and the turns of
R247: the queue last served in the list of refills and in that of spills, and whether the list last served was that of
spills. -/
structure Ledger where
  eddy : Pool := {}
  onChip : Pool := {}
  awaiting : List Reclaim := []
  sweep : Option Bool := none
  nextSweep : Option Bool := none
  fails : List LedgerFail := []
  tags : List TagMark := []
  tagsFree : Nat := 4096
  issued : Nat := 0
  completed : Nat := 0
  bounced : List DownUnit := []
  createWait : List (Nat × QCfg × Origin) := []
  lastRefill : Option Nat := none
  lastSpill : Option Nat := none
  lastList : Option Bool := none
  deriving DecidableEq, Repr

end Sys2Proof.Machine
end

