-- ==== Sys2Proof/Machine/EventState.lean ====
section
/-!
DEFINITION. The state of the event log (R547 to R558) and of the event interrupt controller (R533 to R546).
-/
namespace Sys2Proof.Machine

/-- A record set that waits in its producer's buffer for the log (R555): its class, and its records as words. -/
structure HeldSet where
  producer : Nat
  cls : Nat
  words : List Word
  deriving DecidableEq, Repr

/-- What storm control holds for one class (R554, R555): its tokens, the records suppressed since the last tick, the give-way
events among them, the CODE of the first, and the records of the class not forwarded to the root (R557). -/
structure ClassState where
  tokens : Nat := 64
  supp : Nat := 0
  giveWay : Nat := 0
  first : Nat := 0
  fwdSupp : Nat := 0
  deriving DecidableEq, Repr

/-- The event log: its queue, the classes' storm control, whether a record was discarded since LOST was last read or cleared and
whether GAP has shown it (R548), the records of the extension in force (R549), the producers' buffers, the forward
buffer (R557), whether a commit's words are being applied (R497), and the arrival of a write that has waited (R32). -/
structure EventLog where
  q : Queue := { ex := true, lastEnd := true }
  classes : Tab ClassState := []
  discards : Bool := false
  gapShown : Bool := false
  ext : Nat := 0
  held : List HeldSet := []
  forward : List (List Word) := []
  quiet : Bool := false
  arrived : Option Nat := none
  deriving DecidableEq, Repr

/-- Storm control of class c at its reset limit (R553): 64 tokens. The unlimited classes hold none to lose. -/
def ClassState.reset (_ : Nat) : ClassState := {}

/-- The three states of a gateway (R536). -/
inductive GateState where
  | idle | pending | claimed
  deriving DecidableEq, Repr

/-- The gateway of a source (R536): its state, the target and class that hold its claim, REPEND, whether software set it
pending (R543), and the input as last sampled. -/
structure Gateway where
  st : GateState := .idle
  owner : Nat := 0
  gust : Bool := false
  repend : Bool := false
  bySoft : Bool := false
  input : Bool := false
  deriving DecidableEq, Repr

/-- A target (R538, R541): its request line, RAISED of both classes and the claims it holds in both. -/
structure Target where
  line : Bool := false
  raisedB : Bool := false
  raisedG : Bool := false
  bcount : Nat := 0
  gcount : Nat := 0
  deriving DecidableEq, Repr

/-- A change of routing that waits for claims to end (R494, R546): the source, its new word, the targets whose TMASK bits still wait,
whether CLASS and SENSE wait for the end of the source's own claim, and the tick at which the change arrived. -/
structure RouteWait where
  src : Nat
  v : Word
  targets : List Nat
  own : Bool
  since : Nat
  deriving DecidableEq, Repr

/-- The controller: gateways by source number, targets by number, firings of privileged sources latched while CORE stood
(R544), changes of routing that wait for claims to end, and new EIC_TCFG values that wait with them (R494, R546), and the lines that members last reported (R556). -/
structure Eic where
  gates : Tab Gateway := []
  targets : Tab Target := []
  latched : List Nat := []
  waiting : List RouteWait := []
  tcfgs : List (Nat × Word) := []
  members : Tab (BitVec 6) := []
  deriving DecidableEq, Repr

/-- A gateway at reset (R546). -/
def Gateway.reset (_ : Nat) : Gateway := {}

/-- A target at reset (R546). -/
def Target.reset (_ : Nat) : Target := {}

end Sys2Proof.Machine
end

