-- ==== Sys2Proof/Machine/HostState.lean ====
section
/-!
DEFINITION. The state of the host interface (R430 to R472) that is not a register.
-/
namespace Sys2Proof.Machine

/-- A command that has taken its tag and not finished (R443, R454): the chain device whose host it serves (none for this device's own
ring) or, where away, that it runs on another device; its ring and entry; its SGL; whether its opcode has started; since when it waits
(tick); payload bytes still to be taken; bytes for the buffer; COUNT and DETAIL so far; and whether a call has been posted. -/
structure Cmd where
  tag : Nat
  owner : Option Nat := none
  away : Bool := false
  ring : Nat
  entry : List Word
  sgl : List (Word64 × Word) := []
  started : Bool := false
  waits : Option Nat := none
  data : List Byte := []
  out : List Byte := []
  count : Nat := 0
  seen : Nat := 0
  posted : Bool := false
  deriving DecidableEq, Repr

/-- A finished completion that waits for the ring writer (R259, R451): its source and ring, the fields of its entry, what the writer
puts into the command's buffer first, and whether writing it frees a tag. -/
structure Completion where
  source : Nat
  cq : Nat
  tag : Nat
  reject : Bool := false
  status : Nat
  sq : Nat
  abt : Bool := false
  dev : Nat
  count : Nat := 0
  detail : Nat := 0
  stamp : Nat
  stepSeq : Nat
  buffer : List (Word64 × List Byte) := []
  tagged : Bool := true
  deriving DecidableEq, Repr

/-- A completion ring (R439, R457, R458): head, the count of written entries not consumed, RESERVED for completions selected and not yet written, entries written since the last message
with the tick of the first of them, and the source last served (R259). -/
structure CqState where
  head : Nat := 0
  written : Nat := 0
  reserved : Nat := 0
  unsent : Nat := 0
  since : Nat := 0
  last : Nat := 0
  deriving DecidableEq, Repr

/-- An abort in one of the 64 slots (R459): its tag and ring, kind, target device and object, who issued it, what it has stopped and the
count of its kind, the tags, the engine and the port that it still waits for, and whether it runs on another device. A member that
aborts for chain device d keeps d as its owner. -/
structure AbortSlot where
  tag : Nat
  cq : Nat
  kind : Nat
  dev : Nat
  object : Nat
  org : Origin
  owner : Option Nat := none
  stopped : Nat := 0
  extra : Nat := 0
  tags : List Nat := []
  engine : Option Nat := none
  port : Option Nat := none
  away : Bool := false
  deriving DecidableEq, Repr

/-- The entries of the capability lists (R432). -/
inductive PciCap where
  | powerManagement | msix | express | errorReporting | serialNumber | secondary | dataLink | physical16 | margining
  deriving DecidableEq, Repr

/-- The configuration header (R431), with the offset of each capability (R432). -/
structure PciHeader where
  vendor : BitVec 16 := 0x1FA7
  device : BitVec 16 := 0x1648
  revision : BitVec 8 := 0x01
  classCode : BitVec 24 := 0x078000
  subVendor : BitVec 16 := 0x1FA7
  subSystem : BitVec 16 := 0x0000
  intPin : BitVec 8 := 0
  caps : List (Nat × PciCap) := [(0x040, .powerManagement), (0x050, .msix), (0x060, .express), (0x100, .errorReporting),
    (0x140, .serialNumber), (0x150, .secondary), (0x180, .dataLink), (0x190, .physical16), (0x1C0, .margining)]
  deriving DecidableEq, Repr

/-- The host interface: the configuration header, commands in the order of their fetch, completions held in the sources and finished ones that wait for room in
their source, the rings' pointers, the ring whose turn it is with the entries left of its turn (R442), aborts, and the upper words held
for HI_ABT_DB per master. -/
structure HostIf where
  pci : PciHeader := {}
  cmds : List Cmd := []
  held : List Completion := []
  later : List Completion := []
  cqs : Tab CqState := []
  tails : Tab Nat := []
  turn : Nat := 0
  left : Nat := 0
  aborts : List AbortSlot := []
  upper : Tab Word := []
  deriving DecidableEq, Repr

/-- A completion ring at reset. -/
def CqState.reset (_ : Nat) : CqState := {}

end Sys2Proof.Machine
end

