-- ==== Sys2Proof/Machine/MemState.lean ====
section
/-!
DEFINITION. The state of the memories (R640 to R664) that is not a register: the scratchpad, its banks in transition, regions and
shared ranges, resident slots, and injected errors.
-/
namespace Sys2Proof.Machine

/-- A region of the MEMORY section as it is in force (R481): its use, its first byte and its length after clipping. -/
structure Region where
  use : Nat
  base : Nat
  size : Nat
  deriving DecidableEq, Repr

/-- An engine group's shared range (R369): its cluster and slot, and where it lies in the scratchpad. -/
structure Share where
  cluster : Nat
  slot : Nat
  base : Nat
  len : Nat
  deriving DecidableEq, Repr

/-- A resident slot (R362, R394): the bytes of the image that it holds, 0 where it is empty, and SLOT_LOST. -/
structure Slot where
  len : Nat := 0
  lost : Bool := false
  deriving DecidableEq, Repr

/-- The memories: the scratchpad's bytes; banks whose words an interleave change has left undefined (R642); the state that a bank in
transition will have (R645); the REGION records in force and the regions they give; slots that have lost words in STILL; shared ranges; slots; words of the scratchpad stored with an injected error, by address, and
whether two bits are inverted (R652); the repair entries of the fuses that are applied (R650); channels whose initialisation waits for the
DPLL (R655). -/
structure MemSys where
  scratch : Mem := []
  undef : List Nat := []
  changing : List (Nat × Nat) := []
  regions : List Region := []
  shares : List Share := []
  slots : Tab Slot := []
  damaged : List (Nat × Bool) := []
  repairs : List Word := []
  initWait : List Nat := []
  asked : List Region := []
  stillLost : List Nat := []
  deriving DecidableEq, Repr

/-- An empty slot. -/
def Slot.reset (_ : Nat) : Slot := {}

end Sys2Proof.Machine
end

