-- ==== Sys2Proof/Machine/LoadState.lean ====
section
/-!
DEFINITION. The state of the configuration loader (R473 to R502) and of the calm port, the store and boot (R503 to R532) that is not a
register.
-/
namespace Sys2Proof.Machine

/-! ## Configuration images -/

/-- Where a load comes from (R482): words of CF_DATA, a SECTION_LOAD command, a slot that the boot sequencer streams (R523), or the root's
stream (R525). -/
inductive LoadFrom where
  | stream
  | command (owner : Option Nat) (tag : Nat)
  | boot (slot : Nat)
  | chain
  deriving DecidableEq, Repr

/-- A load: its origin and OWNER code, where it comes from, CF_LEN and CHECK_ONLY, the framed bytes so far, and whether it has passed its
checks and waits for the commit in progress (R495). -/
structure CfgLoad where
  org : Origin
  code : Nat
  src : LoadFrom
  len : Nat
  checkOnly : Bool := false
  bytes : List Byte := []
  passed : Bool := false
  deriving DecidableEq, Repr

/-- A record of a section body (R478): KIND and body. -/
structure CfgRec where
  kind : Nat
  body : List Byte
  deriving DecidableEq, Repr

/-- A commit (R486 to R490): its load and logical image, whether it is a first commit, the types still to be applied, and the type whose
objects have not all reached their boundary (0 for none) with its counts: applied, skipped, refused, quiesced, discarded. The words that wait
for network ports and MDIO masters (12 and 13), by number; the IMAGE records that wait; the engines stopped for ENGINES, and whether its words
(of a first commit, its images) have been taken up; the PLLs that CLOCKS changes. For a first commit, what it has replaced (R487): registers,
and the memory regions, resident slots, pins to numbers and pin locks before it. -/
structure Commit where
  load : CfgLoad
  image : List Byte
  first : Bool
  todo : List Nat
  now : Nat := 0
  applied : Nat := 0
  skipped : Nat := 0
  refused : Nat := 0
  quiesced : Nat := 0
  discarded : Nat := 0
  nets : Tab (List (Nat × Word)) := []
  recs : List CfgRec := []
  stops : List Nat := []
  imaged : Bool := false
  plls : List Nat := []
  undo : List (Nat × Word) := []
  regions : List Region := []
  slots : Tab Slot := []
  chainPins : List (BitVec 128 × Nat) := []
  locked : Word64 := 0
  startHold : BitVec 64 := 0
  deriving DecidableEq, Repr

/-- A write that waits for the reload of its subsystem (R32), or for room for its record (R555): its master, origin, address and value,
when it arrived, and whether it waits for room. -/
structure LateWrite where
  m : Master
  org : Origin
  addr : Nat
  v : Word
  at_ : Nat
  room : Bool := false
  deriving DecidableEq, Repr

/-- The loader: the load it serves, whole loads in line for it (R482), the commit in progress, and writes that wait for it. -/
structure CfgSys where
  load : Option CfgLoad := none
  line : List CfgLoad := []
  commit : Option Commit := none
  late : List LateWrite := []
  deriving DecidableEq, Repr

/-! ## The calm port, the store and boot -/

/-- Work of the plane (R510): its opcode, ADDR, and LEN or data word; the cycles left, and of how many; whether it first makes its slot
WRITING (R517); its origin; and whether the supervisors drive it (R521) and since when. -/
structure PlaneWork where
  opc : Nat
  addr : Nat
  arg : Nat
  left : Nat
  total : Nat
  first : Bool := false
  org : Origin
  mail : Bool := false
  since : Nat := 0
  deriving DecidableEq, Repr

/-- An MRAM store write that waits to be recorded (R520): opcode, ADDR, argument, the time when it was made, and its origin. -/
structure StoreNote where
  opc : Nat
  addr : Nat
  arg : Nat
  at_ : Nat
  org : Origin
  deriving DecidableEq, Repr

/-- The boot sequencer (R523, R526): the slots still to be tried, all that it had to try, the slot that it streams, the origin of the BOOT that started it (none
for a boot at release), the result of a load that has failed, and the tick up to which a stream holds the plane. -/
structure BootSeq where
  slots : List Nat
  all : List Nat
  slot : Option Nat := none
  asked : Option Origin := none
  failed : Option Nat := none
  heldTo : Nat := 0
  deriving DecidableEq, Repr

/-- The calm port (R503 to R532): the sector buffer and BUF_VALID; the pending work; posted words, as ADDR of the word and its value;
the snapshot's words, a request that waits, as ADDR, LEN and the posted words ahead of it, and of one that reads another device how many words
are still to come and whether one has failed; the store's 8 MiB; the slot being written and
the sectors programmed in the pass; records that wait; the fuse operation in progress; OP_ERR and STORE_ERR; the boot sequencer; and that a member waits for the root's stream. -/
structure CalmSys where
  buf : Mem := []
  bufValid : Bool := false
  work : Option PlaneWork := none
  posted : List (Word × Word) := []
  snap : List Word := []
  want : Option (Word × Nat × Nat) := none
  taking : Option (Nat × Bool) := none
  store : Mem := []
  pass : Option (Nat × List Nat) := none
  notes : List StoreNote := []
  fuse : Option (Nat × Word × Origin) := none
  opErr : Bool := false
  storeErr : Bool := false
  boot : Option BootSeq := none
  deriving DecidableEq, Repr

end Sys2Proof.Machine
end

