-- ==== Sys2Proof/Machine/PowerState.lean ====
section
/-!
DEFINITION. The state of the clocks (R566 to R586), of reset and the power states (R587 to R615) and of the pins (R616 to R639) that is
not a register.
-/
namespace Sys2Proof.Machine

/-- A part of the CORE domain that is held on its own (R579, R591, R598): the event interrupt controller, the engines with the
supervisors, and the host command logic. -/
inductive Part where
  | eic | engines | host
  deriving DecidableEq, Repr

/-- What stands still, and why: becalm (R577, R579), a power state (R605, R606), reset (R591, R598), or a PLL that is off or settling
(R568, R573). -/
structure Stopped where
  becalm : List Domain := []
  power : List Domain := []
  reset : List Domain := []
  pll : List Domain := []
  partBecalm : List Part := []
  partPower : List Part := []
  partReset : List Part := []
  deriving DecidableEq, Repr

/-- The clocks: the PLLs whose analog lock detector is asserted, and since when those in GATED are there (R571); the tick of the last
entry to LOCKED; when the level-1 failure and the becalm in progress began; the last step taken of a resumption in progress (R579); the
serial ports whose outputs are forced; that the time base stays on REFCLK until its step (R273); that NSER is being taken out of use, and
DDR, before its PLL stops or settles anew (R568, R574); and that the controllers retrain when the DPLL is LOCKED. -/
structure ClockSys where
  detects : List Nat := []
  gatedAt : Tab Nat := []
  lockedAt : Nat := 0
  level1At : Nat := 0
  becalmAt : Nat := 0
  resume : Option Nat := none
  resumeAt : Nat := 0
  forced : Bool := false
  timeHold : Bool := false
  nserStop : Bool := false
  dpllStop : Bool := false
  retrain : Bool := false
  deriving DecidableEq, Repr

/-- Reset and power. RESET_N: whether it is low, TB_MONCAL at its fall, and the level the pulse has reached, 1 core, 2 system, 3 cold
(R587, R588). por tells that the power-on reset holds, supplies which monitored supplies have failed, porAt when its 1 ms count
began (R589, R670). The reset in progress (R591, R595): its level, 0 for none, the cause it will record, whether it is still to be
released, and the ticks of its assertion or request, of its release and of the last step, and the end of the count of R599. A core reset
in progress: the row of R591 it has reached, 0 for none; the engines that start again after it or after STILL; the cause of one that waits
for the CORE step of a resumption (R580). committed tells that the device has committed since power-on (R602). Power (R604): OFF after
STILL entry, the request that waits (R609), a reset request that waits to be taken, true for system (R594), the tick of the last step of
an entry or exit, how many steps the entry has taken, and the exit's next step. -/
structure ResetSys where
  low : Bool := false
  monAt : Nat := 0
  level : Nat := 0
  por : Bool := true
  supplies : List Nat := []
  porAt : Nat := 0
  bring : Nat := 3
  cause : Nat := 1
  toRelease : Bool := true
  askedAt : Nat := 0
  releasedAt : Nat := 0
  stepAt : Nat := 0
  releaseTick : Option Nat := none
  core : Nat := 0
  restart : List Nat := []
  coreWaits : Option Nat := none
  committed : Bool := false
  offAfter : Bool := false
  asked : Option (Nat × Origin) := none
  request : Option (Bool × Origin) := none
  powerAt : Nat := 0
  entered : Nat := 0
  exitStep : Nat := 0
  deriving DecidableEq, Repr

/-- What a pad does: whether it drives, the level it drives or, where loose, that it drives a clock or a frame whose level at a tick no
rule gives; its pull (0 none, 1 up, 2 down, 3 keeper), its drive strength and its slew (R624). -/
structure Pad where
  en : Bool := false
  high : Bool := false
  loose : Bool := false
  pull : Nat := 0
  drv : Nat := 0
  slew : Bool := false
  deriving DecidableEq, Repr

/-- A pad that does nothing. -/
def Pad.reset (_ : Nat) : Pad := {}

/-- The pins: where each origin stands in the sequence of PINLOCK, and the upper words held per master (R629); the pads
that the board drives and their levels, and the levels last seen at all pads; the pins that a start-up hold keeps, the pads of held pins as they stood (R602, R628);
the test access port's instruction, with the enables and levels of its boundary cells; and the levels of IRQ_N2 to IRQ_N5 at STILL
entry (R632). -/
structure PinSys where
  seqs : Tab Nat := []
  upper : Tab Word := []
  boardEn : BitVec 64 := 0
  board : BitVec 64 := 0
  seen : BitVec 64 := 0
  startHold : BitVec 64 := 0
  frozen : Tab Pad := []
  ir : TapIr := .idcode
  cellEn : BitVec 64 := 0
  cellLevel : BitVec 64 := 0
  irqHeld : BitVec 4 := 0
  deriving DecidableEq, Repr

end Sys2Proof.Machine
end

