-- ==== Sys2Proof/Machine/Regs.lean ====
section
/-!
DEFINITION. The register map of the spec: one row per register (block, offset, copies, field types, reset value, reset
level), and the address and the fields of every register by name. The rows follow the register tables of the chapters
(R72 to R84, R112 to R122, R162 to R171, R190 to R196, R225 to R232, R261 to R270, R300 to R308, R350 to R358, R395 to R400,
R424 to R429, R464 to R472, R499 to R502, R531, R532, R559 to R565, R582 to R586, R611 to R615, R634 to R639, R659 to R664).
-/
namespace Sys2Proof.Machine

/-- The reset level that returns a register to its reset value (R9): @C, @S, @P, or none at all. -/
inductive RegLevel where
  | core | system | power | never
  deriving DecidableEq, Repr

/-- One register of a block: its offset in the block, how many copies it has and their distance, its reset value (copy k
resets to reset + k × rstep), and the bits of each access type of R8. cfg is the bits that are configuration-class (R71, R30). -/
structure RegRow where
  name : String
  off : Nat
  count : Nat := 1
  stride : Nat := 4
  reset : Nat := 0
  rstep : Nat := 0
  rw : Nat := 0
  w1c : Nat := 0
  w1s : Nat := 0
  wo : Nat := 0
  rc : Nat := 0
  rwl : Nat := 0
  cfg : Nat := 0
  lvl : RegLevel := .system
  deriving DecidableEq, Repr

/-- A block of registers: its BAR0 base, the distance and the number of its copies, and its rows. -/
structure RegBlock where
  base : Nat
  stride : Nat
  count : Nat
  rows : List RegRow
  deriving DecidableEq, Repr

/-- A field of a register: the register's BAR0 address, the field's lowest bit and its width. -/
structure Fld where
  reg : Nat
  lo : Nat
  w : Nat
  deriving DecidableEq, Repr

/-- Identity and features (BAR0 0x0000_0000). -/
def rowsID : List RegRow :=
  [ { name := "DEVICE_ID", off := 0x0, reset := 0x16480001, lvl := .never },
    { name := "ID_SN", off := 0x10, count := 4, lvl := .never },
    { name := "ID_RCFG", off := 0x20, lvl := .never },
    { name := "FEAT_OFFER", off := 0x40, reset := 0xF, lvl := .never },
    { name := "FEAT_OFFER", off := 0x44, count := 3, lvl := .never },
    { name := "FEAT_ACCEPT", off := 0x50, reset := 0x1, rw := 0xFFFFFFFF },
    { name := "FEAT_ACCEPT", off := 0x54, count := 3, rw := 0xFFFFFFFF },
    { name := "FEAT_COMMIT", off := 0x60, wo := 0x1 },
    { name := "FEAT_STAT", off := 0x64 } ]

/-- Clocks (0x0001_0000). -/
def rowsCK : List RegRow :=
  [ { name := "CK_STAT", off := 0x0, reset := 0x8 },
    { name := "CK_CFG", off := 0x4, reset := 0x62, rw := 0x77, cfg := 0x77 },
    { name := "CK_CTRL", off := 0x8, wo := 0x1 },
    { name := "CK_EVT", off := 0xC, w1c := 0x3FF },
    { name := "CK_EVT_EN", off := 0x10, rw := 0x3FF },
    { name := "CK_MON", off := 0x14 },
    { name := "CK_PLL", off := 0x20, count := 5 },
    { name := "CK_BECALM", off := 0x34 },
    { name := "CK_BECALM_US", off := 0x38 },
    { name := "CK_CLKOUT", off := 0x40, rw := 0x1FFFF, cfg := 0x1FFFF },
    { name := "CK_CNT_LEVEL1", off := 0x50, rc := 0xFFFFFFFF },
    { name := "CK_CNT_BECALM", off := 0x54, rc := 0xFFFFFFFF },
    { name := "CK_CNT_LOCKLOST", off := 0x58, rc := 0xFFFFFFFF },
    { name := "CK_CNT_FORCESW", off := 0x5C, rc := 0xFFFFFFFF },
    { name := "CK_CNT_BADWIN", off := 0x60, rc := 0xFFFFFFFF } ]

/-- Reset and power (0x0001_0100, BKP). -/
def rowsRS : List RegRow :=
  [ { name := "RST_CAUSE", off := 0x100, reset := 0x101, lvl := .power },
    { name := "RST_WIDTH", off := 0x104, lvl := .power },
    { name := "RST_CTRL", off := 0x108, wo := 0xFFFF0003 },
    { name := "RST_STAT", off := 0x10C, reset := 0x20 },
    { name := "PW_CTRL", off := 0x120, rw := 0x3 },
    { name := "PW_STAT", off := 0x124 },
    { name := "PW_CFG", off := 0x128, rw := 0x1, cfg := 0x1 },
    { name := "PW_WAKE_EN", off := 0x12C, reset := 0x3000, rw := 0x3FFF, cfg := 0x3FFF },
    { name := "PW_WAKE_CAUSE", off := 0x130 },
    { name := "PW_EVT", off := 0x134, w1c := 0x7F },
    { name := "PW_EVT_EN", off := 0x138, rw := 0x7F },
    { name := "PW_RETERR", off := 0x13C },
    { name := "PW_WAKEPIN", off := 0x140, count := 8, rw := 0xFF, cfg := 0xFF },
    { name := "RST_CNT_CORE", off := 0x160, rc := 0xFFFFFFFF },
    { name := "RST_CNT_SYS", off := 0x164, rc := 0xFFFFFFFF, lvl := .power },
    { name := "RST_CNT_GLITCH", off := 0x168, rc := 0xFFFFFFFF },
    { name := "PW_CNT_WAKE", off := 0x16C, rc := 0xFFFFFFFF },
    { name := "PW_CNT_ABORT", off := 0x170, rc := 0xFFFFFFFF },
    { name := "BKP", off := 0x200, count := 32, rw := 0xFFFFFFFF, lvl := .power },
    { name := "RETMEM", off := 0x4000, count := 4096, rw := 0xFFFFFFFF, lvl := .power } ]

/-- Pins (0x0002_0000). -/
def rowsPN : List RegRow :=
  [ { name := "PINLOCK_LO", off := 0x0, wo := 0xFFFFFFFF },
    { name := "PINLOCK_HI", off := 0x4, wo := 0xFFFFFFFF },
    { name := "GP_LOCKED_LO", off := 0x8 },
    { name := "GP_LOCKED_HI", off := 0xC },
    { name := "GP_HOLD_LO", off := 0x10 },
    { name := "GP_HOLD_HI", off := 0x14 },
    { name := "GP_BANK", off := 0x18 },
    { name := "GP_EXTL_SEL", off := 0x1C, rwl := 0xFFFFFFFF, cfg := 0xFFFFFFFF },
    { name := "GP_IN_LO", off := 0x20 },
    { name := "GP_IN_HI", off := 0x24 },
    { name := "GP_OUT_LO", off := 0x28, rw := 0xFFFFFFFF },
    { name := "GP_OUT_HI", off := 0x2C, rw := 0xFFFFFFFF },
    { name := "GP_SET_LO", off := 0x30, w1s := 0xFFFFFFFF },
    { name := "GP_SET_HI", off := 0x34, w1s := 0xFFFFFFFF },
    { name := "GP_CLR_LO", off := 0x38, w1c := 0xFFFFFFFF },
    { name := "GP_CLR_HI", off := 0x3C, w1c := 0xFFFFFFFF },
    { name := "GP_EVT", off := 0x40, w1c := 0xF },
    { name := "GP_CNT_LOCKWR", off := 0x48, rc := 0xFFFFFFFF },
    { name := "GP_CNT_LOCKSEQ", off := 0x4C, rc := 0xFFFFFFFF },
    { name := "PIN_CFG", off := 0x100, count := 64, reset := 0x9000, rwl := 0xFFF7, cfg := 0xFFF7 } ]

/-- External interrupt controller (0x0003_0000). -/
def rowsEI : List RegRow :=
  [ { name := "EIC_STAT", off := 0x0 },
    { name := "EIC_CNT_SPUR", off := 0x10, rc := 0xFFFFFFFF },
    { name := "EIC_CNT_BADCMP", off := 0x14, rc := 0xFFFFFFFF },
    { name := "EIC_CNT_RSTDROP", off := 0x18, rc := 0xFFFFFFFF },
    { name := "EIC_TCFG", off := 0x100, count := 8, stride := 0x20, reset := 0x30001, rstep := 0x100, rw := 0x33F03, cfg := 0x33F03 },
    { name := "EIC_TSTAT", off := 0x104, count := 8, stride := 0x20 },
    { name := "EIC_BCLAIM", off := 0x108, count := 8, stride := 0x20, lvl := .core },
    { name := "EIC_BCOMP", off := 0x10C, count := 8, stride := 0x20, wo := 0x7FF, lvl := .core },
    { name := "EIC_GCLAIM", off := 0x110, count := 8, stride := 0x20, lvl := .core },
    { name := "EIC_GCOMP", off := 0x114, count := 8, stride := 0x20, wo := 0x7FF, lvl := .core },
    { name := "EIC_PEND", off := 0x200, count := 64, w1c := 0xFFFFFFFF, lvl := .core },
    { name := "EIC_PSET", off := 0x300, count := 64, w1s := 0xFFFFFFFF, lvl := .core },
    { name := "EIC_CLAIMED", off := 0x400, count := 64, lvl := .core },
    { name := "EIC_SRC_CFG", off := 0x1004, count := 2025, reset := 0x1, rw := 0x1FFF, cfg := 0x1FFF },
    { name := "EIC_SRC_CFG", off := 0x2FA8, count := 20, reset := 0x1541, rw := 0x10FF, cfg := 0x10FF },
    { name := "EIC_SRC_CFG", off := 0x2FF8, reset := 0x1541, rw := 0xFF, cfg := 0xFF } ]

/-- Time base (0x0004_0000). -/
def rowsTB : List RegRow :=
  [ { name := "TB_STAT", off := 0x0 },
    { name := "TB_EVT", off := 0x4, w1c := 0xF1FFF },
    { name := "TB_EVT_EN", off := 0x8, rw := 0xF1FFF },
    { name := "TB_TIME_NS", off := 0x10 },
    { name := "TB_TIME_SL", off := 0x14 },
    { name := "TB_TIME_SH", off := 0x18 },
    { name := "TB_ADDEND", off := 0x1C },
    { name := "TB_SLEW", off := 0x20, reset := 0x186A0, rw := 0x1FFFF, cfg := 0x1FFFF },
    { name := "TB_SLEW_REM", off := 0x24 },
    { name := "TB_STEP_NS", off := 0x28 },
    { name := "TB_STEP_SL", off := 0x2C },
    { name := "TB_STEP_SH", off := 0x30 },
    { name := "TB_SRCCFG", off := 0x40, reset := 0x40000000, rw := 0xF73FFFFF, cfg := 0xF73FFFFF },
    { name := "TB_SRCTMO", off := 0x44, reset := 0xBB80BB8, rw := 0xFFFFFFFF, cfg := 0xFFFFFFFF },
    { name := "TB_SRCSTAT", off := 0x48 },
    { name := "TB_HOLDOVER", off := 0x4C, reset := 0x3E8, rw := 0xFFFFFF, cfg := 0xFFFFFF },
    { name := "TB_HO_ADDEND", off := 0x50 },
    { name := "TB_HO_AGE", off := 0x54 },
    { name := "TB_MONCAL", off := 0x58, reset := 0x14D55555 },
    { name := "TB_PPS", off := 0x5C, reset := 0x30D40, rw := 0xFFFFFF, cfg := 0xFFFFFF },
    { name := "TB_HADJ_RATE", off := 0x60, rw := 0xFFFFFFFF },
    { name := "TB_HADJ_OFF_LO", off := 0x64, rw := 0xFFFFFFFF },
    { name := "TB_HADJ_OFF_HI", off := 0x68, rw := 0xFFFFFFFF },
    { name := "TB_HADJ_CMD", off := 0x6C, wo := 0x1F },
    { name := "TB_SET_NS", off := 0x70, rw := 0xFFFFFFFF },
    { name := "TB_SET_SL", off := 0x74, rw := 0xFFFFFFFF },
    { name := "TB_SET_SH", off := 0x78, rw := 0xFFFF },
    { name := "TB_PPS_OFF", off := 0x80 },
    { name := "TB_PPS_ERR", off := 0x84 },
    { name := "TB_UTC", off := 0x90, reset := 0x25, rw := 0x3FFFF, cfg := 0x3FFFF },
    { name := "CAL_DATE", off := 0xA0 },
    { name := "CAL_TIME", off := 0xA4 },
    { name := "CAL_WDATE", off := 0xA8, rw := 0xFFF7F1F },
    { name := "CAL_WTIME", off := 0xAC, rw := 0x1F3F3F },
    { name := "CAL_STAT", off := 0xB0 },
    { name := "ALM_NS", off := 0xC0, count := 4, stride := 0x10, rw := 0xFFFFFFFF },
    { name := "ALM_SL", off := 0xC4, count := 4, stride := 0x10, rw := 0xFFFFFFFF },
    { name := "ALM_SH", off := 0xC8, count := 4, stride := 0x10, rw := 0x8000FFFF },
    { name := "TB_CNT_STEP", off := 0x100, rc := 0xFFFFFFFF },
    { name := "TB_CNT_SRCSW", off := 0x104, rc := 0xFFFFFFFF } ] ++
  [ { name := "TB_CNT_ADJIGN", off := 0x108, rc := 0xFFFFFFFF },
    { name := "TB_CNT_PPSREJ", off := 0x10C, rc := 0xFFFFFFFF },
    { name := "TB_CNT_TPOSUP", off := 0x110, rc := 0xFFFFFFFF },
    { name := "TB_CNT_TPOCUT", off := 0x114, rc := 0xFFFFFFFF },
    { name := "TB_CNT_TPOMISS", off := 0x118, rc := 0xFFFFFFFF },
    { name := "TSI_CFG", off := 0x200, count := 8, stride := 0x20, rw := 0xFFFF00F7, cfg := 0xFFFF00F7 },
    { name := "TSI_Q", off := 0x204, count := 8, stride := 0x20, rw := 0x8000FFFF, cfg := 0x8000FFFF },
    { name := "TSI_NS", off := 0x208, count := 8, stride := 0x20 },
    { name := "TSI_SL", off := 0x20C, count := 8, stride := 0x20 },
    { name := "TSI_SH", off := 0x210, count := 8, stride := 0x20 },
    { name := "TSI_CNT_STAMP", off := 0x214, count := 8, stride := 0x20 },
    { name := "TSI_CNT_MISS", off := 0x218, count := 8, stride := 0x20, rc := 0xFFFFFFFF },
    { name := "TSI_CNT_DROP", off := 0x21C, count := 8, stride := 0x20, rc := 0xFFFFFFFF },
    { name := "TPO_CFG", off := 0x300, count := 8, stride := 0x20, rw := 0xFF1F, cfg := 0xFF1F },
    { name := "TPO_START_NS", off := 0x304, count := 8, stride := 0x20, rw := 0xFFFFFFFF, cfg := 0xFFFFFFFF },
    { name := "TPO_START_SL", off := 0x308, count := 8, stride := 0x20, rw := 0xFFFFFFFF, cfg := 0xFFFFFFFF },
    { name := "TPO_START_SH", off := 0x30C, count := 8, stride := 0x20, rw := 0xFFFF, cfg := 0xFFFF },
    { name := "TPO_PERIOD", off := 0x310, count := 8, stride := 0x20, reset := 0x3B9ACA00, rw := 0xFFFFFFFF, cfg := 0xFFFFFFFF },
    { name := "TPO_WIDTH", off := 0x314, count := 8, stride := 0x20, reset := 0x5F5E100, rw := 0xFFFFFFFF, cfg := 0xFFFFFFFF },
    { name := "TPO_STAT", off := 0x318, count := 8, stride := 0x20 },
    { name := "TPO_CTRL", off := 0x31C, count := 8, stride := 0x20, wo := 0x1 } ]

/-- Memory (0x0005_0000). -/
def rowsME : List RegRow :=
  [ { name := "MEM_CFG", off := 0x0, reset := 0x3E80000, rw := 0xFFFF0003, cfg := 0xFFFF0003 },
    { name := "MEM_STAT", off := 0x4 },
    { name := "MEM_EVT", off := 0x8, w1c := 0x1F },
    { name := "MEM_EVT_EN", off := 0xC, rw := 0x1F },
    { name := "MEM_BANK", off := 0x10, count := 4, rw := 0xFFFFFFFF, cfg := 0xFFFFFFFF },
    { name := "MEM_BSTAT", off := 0x20, count := 4 },
    { name := "MEM_STILL_LO", off := 0x30, rw := 0xFFFFFFFF, cfg := 0xFFFFFFFF },
    { name := "MEM_STILL_HI", off := 0x34, rw := 0xFFFFFFFF, cfg := 0xFFFFFFFF },
    { name := "MEM_BUSY_LO", off := 0x38 },
    { name := "MEM_BUSY_HI", off := 0x3C },
    { name := "MEM_UE_INFO", off := 0x40 },
    { name := "MEM_UE_ADDR", off := 0x44 },
    { name := "MEM_INJ", off := 0x48, rw := 0xF },
    { name := "MEM_WIN_ADDR", off := 0x50, rw := 0x1FFFFFC },
    { name := "MEM_WIN_DATA", off := 0x54 },
    { name := "MEM_CNT_CE", off := 0x60, rc := 0xFFFFFFFF },
    { name := "MEM_CNT_UE", off := 0x64, rc := 0xFFFFFFFF },
    { name := "MEM_CNT_BUSY", off := 0x68, rc := 0xFFFFFFFF },
    { name := "MEM_CONF", off := 0x80, count := 16, rc := 0xFFFFFFFF },
    { name := "DDR_CFG", off := 0x100, count := 2, stride := 0x80, reset := 0x20, rw := 0x3F, cfg := 0x3F },
    { name := "DDR_CTRL", off := 0x104, count := 2, stride := 0x80, wo := 0x1 },
    { name := "DDR_STAT", off := 0x108, count := 2, stride := 0x80 },
    { name := "DDR_SCRUB", off := 0x10C, count := 2, stride := 0x80, reset := 0x1801, rw := 0xFF01, cfg := 0xFF01 },
    { name := "DDR_SIZE_LO", off := 0x110, count := 2, stride := 0x80 },
    { name := "DDR_SIZE_HI", off := 0x114, count := 2, stride := 0x80 },
    { name := "DDR_UE_ADDR_LO", off := 0x118, count := 2, stride := 0x80 },
    { name := "DDR_UE_ADDR_HI", off := 0x11C, count := 2, stride := 0x80 },
    { name := "DDR_CNT_CE", off := 0x120, count := 2, stride := 0x80, rc := 0xFFFFFFFF },
    { name := "DDR_CNT_UE", off := 0x124, count := 2, stride := 0x80, rc := 0xFFFFFFFF },
    { name := "DDR_CNT_TRAINFAIL", off := 0x128, count := 2, stride := 0x80, rc := 0xFFFFFFFF } ]

/-- Event log (0x0006_0000). -/
def rowsEL : List RegRow :=
  [ { name := "EL_CFG", off := 0x40, reset := 0x5, rw := 0x7, cfg := 0x7 },
    { name := "EL_STAT", off := 0x44 },
    { name := "EL_EVT", off := 0x48, w1c := 0x1F },
    { name := "EL_EVT_EN", off := 0x4C, rw := 0x1F },
    { name := "EL_WMARK", off := 0x50, rw := 0x1FFFFF, cfg := 0x1FFFFF },
    { name := "EL_XCFG", off := 0x54, rw := 0x3, cfg := 0x3 },
    { name := "EL_XBASE_LO", off := 0x58, rw := 0xFFFFFFFF, cfg := 0xFFFFFFFF },
    { name := "EL_XBASE_HI", off := 0x5C, rw := 0xFFFFFFFF, cfg := 0xFFFFFFFF },
    { name := "EL_XRECS", off := 0x60, rw := 0x1FFFFF, cfg := 0x1FFFFF },
    { name := "EL_CNT_REC", off := 0x80, rc := 0xFFFFFFFF },
    { name := "EL_CNT_SUMM", off := 0x84, rc := 0xFFFFFFFF },
    { name := "EL_CNT_FWD", off := 0x88, rc := 0xFFFFFFFF },
    { name := "EL_CNT_FWDSUP", off := 0x8C, rc := 0xFFFFFFFF },
    { name := "EL_CNT_RXFWD", off := 0x90, rc := 0xFFFFFFFF },
    { name := "EL_CLS_CFG", off := 0x100, count := 2, reset := 0xFFFFFFFF },
    { name := "EL_CLS_CFG", off := 0x108, count := 14, reset := 0x400010, rw := 0xFFFFFFFF, cfg := 0xFFFFFFFF },
    { name := "EL_CLS_SUP", off := 0x140, count := 16, rc := 0xFFFFFFFF } ]

/-- Conservation ledger (0x0007_0000). -/
def rowsLG : List RegRow :=
  [ { name := "LG_CTRL", off := 0x0, wo := 0x3 },
    { name := "LG_STAT", off := 0x4 },
    { name := "LG_EVT", off := 0x8, w1c := 0x3FF },
    { name := "LG_EVT_EN", off := 0xC, rw := 0x3FF },
    { name := "LG_FAULT0", off := 0x10 },
    { name := "LG_FAULT1", off := 0x14 },
    { name := "LG_E_TOTAL", off := 0x20 },
    { name := "LG_E_FREE", off := 0x24 },
    { name := "LG_E_HELD", off := 0x28 },
    { name := "LG_E_FLIGHT", off := 0x2C },
    { name := "LG_E_RECLAIM", off := 0x30 },
    { name := "LG_E_RESFREE", off := 0x34 },
    { name := "LG_O_TOTAL", off := 0x40 },
    { name := "LG_O_FREE", off := 0x44 },
    { name := "LG_O_HELD", off := 0x48 },
    { name := "LG_O_FLIGHT", off := 0x4C },
    { name := "LG_O_RECLAIM", off := 0x50 },
    { name := "LG_O_RESFREE", off := 0x54 },
    { name := "LG_TAG_OUT", off := 0x60 },
    { name := "LG_TAG_ISS_LO", off := 0x68 },
    { name := "LG_TAG_ISS_HI", off := 0x6C },
    { name := "LG_TAG_CMP_LO", off := 0x70 },
    { name := "LG_TAG_CMP_HI", off := 0x74 },
    { name := "LG_CNT_FAULT", off := 0x80, rc := 0xFFFFFFFF },
    { name := "LG_CNT_RECLAIM", off := 0x84, rc := 0xFFFFFFFF },
    { name := "LG_CNT_BOUNCE", off := 0x88, rc := 0xFFFFFFFF },
    { name := "LG_CNT_STALL", off := 0x8C, rc := 0xFFFFFFFF } ]

/-- Serial line (0x0008_0000 + n × 0x1000). -/
def rowsSPLine : List RegRow :=
  [ { name := "SP_CTRL", off := 0x0, rw := 0xF, wo := 0x100, cfg := 0x3 },
    { name := "SP_FRAME", off := 0x4, reset := 0x8, rw := 0x77F, cfg := 0x77F },
    { name := "SP_LINE", off := 0x8, rw := 0xFFFF3FF, cfg := 0xFFFF3FF },
    { name := "SP_BAUD", off := 0xC, reset := 0x196E6AAB, rw := 0xFFFFFFFF, cfg := 0xFFFFFFFF },
    { name := "SP_BAUDCFG", off := 0x10, rw := 0x33, cfg := 0x33 },
    { name := "SP_BAUD_ACT", off := 0x14, reset := 0x196E6AAB },
    { name := "SP_AUTOBAUD", off := 0x18, rw := 0x3, cfg := 0x2 },
    { name := "SP_BAUD_MEAS", off := 0x1C },
    { name := "SP_DE_PRE", off := 0x20, rw := 0xFFFFFF, cfg := 0xFFFFFF },
    { name := "SP_DE_POST", off := 0x24, rw := 0xFFFFFF, cfg := 0xFFFFFF },
    { name := "SP_FLOW", off := 0x28, reset := 0x13110000, rw := 0xFFFF007F, cfg := 0xFFFF007F },
    { name := "SP_FC_HI", off := 0x2C, reset := 0xFFFFFFFF, rw := 0xFFFFFFFF, cfg := 0xFFFFFFFF },
    { name := "SP_FC_LO", off := 0x30, rw := 0xFFFFFFFF, cfg := 0xFFFFFFFF },
    { name := "SP_ECHO", off := 0x34, reset := 0xC800, rw := 0xFFF03, cfg := 0xFFF03 },
    { name := "SP_BREAK", off := 0x38, reset := 0x6400, rw := 0xFFFFFF, cfg := 0xFFFFFF },
    { name := "SP_STAT", off := 0x3C, reset := 0x20 },
    { name := "SP_EVT", off := 0x40, w1c := 0x3FFF },
    { name := "SP_EVT_EN", off := 0x44, rw := 0x3FFF },
    { name := "SP_TXSTAMP_NS", off := 0x48 },
    { name := "SP_TXSTAMP_SL", off := 0x4C },
    { name := "SP_TXSTAMP_SH", off := 0x50 },
    { name := "SP_CNT_RXCHAR", off := 0x60, rc := 0xFFFFFFFF },
    { name := "SP_CNT_TXCHAR", off := 0x64, rc := 0xFFFFFFFF },
    { name := "SP_CNT_NOISE", off := 0x68, rc := 0xFFFFFFFF },
    { name := "SP_CNT_PERR", off := 0x6C, rc := 0xFFFFFFFF },
    { name := "SP_CNT_FERR", off := 0x70, rc := 0xFFFFFFFF },
    { name := "SP_CNT_FALSESTART", off := 0x74, rc := 0xFFFFFFFF },
    { name := "SP_CNT_BREAK", off := 0x78, rc := 0xFFFFFFFF },
    { name := "SP_CNT_COLL", off := 0x7C, rc := 0xFFFFFFFF },
    { name := "SP_CNT_COLLDISC", off := 0x80, rc := 0xFFFFFFFF },
    { name := "SP_CNT_RXDROP", off := 0x84, rc := 0xFFFFFFFF },
    { name := "SP_CNT_SETTLE_MISS", off := 0x88, rc := 0xFFFFFFFF },
    { name := "SP_CNT_TXBAD", off := 0x8C, rc := 0xFFFFFFFF },
    { name := "SP_CNT_TXCUT", off := 0x90, rc := 0xFFFFFFFF } ]

/-- Serial addressing. -/
def rowsSPAddr : List RegRow :=
  [ { name := "SP_ADDR", off := 0x100, reset := 0xFF08, rw := 0xFFFF1F, cfg := 0xFFFF1F },
    { name := "SP_AMATCH", off := 0x104, count := 4, reset := 0xFF00, rw := 0x1FFFF, cfg := 0x1FFFF },
    { name := "SP_ASTAT", off := 0x114, reset := 0x1C0 },
    { name := "SP_PKT", off := 0x118, rw := 0xFFFFFFFF, cfg := 0xFFFFFFFF },
    { name := "SP_PKT_TERM", off := 0x11C, rw := 0x3FF, cfg := 0x3FF },
    { name := "SP_RXSTAMP_CFG", off := 0x120, rw := 0x3, cfg := 0x3 },
    { name := "SP_RXSTAMP_NS", off := 0x124 },
    { name := "SP_RXSTAMP_SL", off := 0x128 },
    { name := "SP_RXSTAMP_SH", off := 0x12C },
    { name := "SP_RX_SEQ", off := 0x130 },
    { name := "SP_TX_SEQ", off := 0x134 },
    { name := "SP_QRX", off := 0x140, rw := 0x8000FFFF, cfg := 0x8000FFFF },
    { name := "SP_QTX", off := 0x144, count := 4, rw := 0x8000FFFF, cfg := 0x8000FFFF },
    { name := "SP_QSTAMP_RX", off := 0x154, rw := 0x8000FFFF, cfg := 0x8000FFFF },
    { name := "SP_QSTAMP_TX", off := 0x158, rw := 0x8000FFFF, cfg := 0x8000FFFF },
    { name := "SP_TXARB", off := 0x15C, reset := 0x2, rw := 0x3, cfg := 0x3 },
    { name := "SP_TTX_STAT", off := 0x160 },
    { name := "SP_TEVT", off := 0x164, w1c := 0x1FF },
    { name := "SP_TEVT_EN", off := 0x168, rw := 0x1FF },
    { name := "SP_TTX_LATEBY", off := 0x16C },
    { name := "SP_STR_SEL", off := 0x170, rw := 0xFF, wo := 0xC0000000 },
    { name := "SP_STR_FRAMES", off := 0x174 },
    { name := "SP_STR_CHARS", off := 0x178 },
    { name := "SP_STR_LAST", off := 0x17C },
    { name := "SP_CNT_ADDRERR", off := 0x180, rc := 0xFFFFFFFF },
    { name := "SP_CNT_UNADDR", off := 0x184, rc := 0xFFFFFFFF },
    { name := "SP_CNT_FOREIGN", off := 0x188, rc := 0xFFFFFFFF },
    { name := "SP_CNT_GAP", off := 0x18C, rc := 0xFFFFFFFF },
    { name := "SP_CNT_LATE", off := 0x190, rc := 0xFFFFFFFF },
    { name := "SP_CNT_FAR", off := 0x194, rc := 0xFFFFFFFF },
    { name := "SP_CNT_TXSPLIT", off := 0x198, rc := 0xFFFFFFFF },
    { name := "SP_CNT_STAMPDROP", off := 0x19C, rc := 0xFFFFFFFF },
    { name := "SP_CNT_UNBOUND", off := 0x1A0, rc := 0xFFFFFFFF },
    { name := "SP_CNT_LAUNCH_TW", off := 0x1A4, rc := 0xFFFFFFFF } ]

/-- Trade-wind registers. -/
def rowsSPTw : List RegRow :=
  [ { name := "TW_CTRL", off := 0x200, reset := 0x68, rw := 0x7F, cfg := 0x7F },
    { name := "TW_NODE", off := 0x204, rw := 0x3FF, cfg := 0x3FF },
    { name := "TW_STAT", off := 0x208 },
    { name := "TW_CYCNT", off := 0x20C },
    { name := "TW_BASE_NS", off := 0x210, rw := 0xFFFFFFFF, cfg := 0xFFFFFFFF },
    { name := "TW_BASE_SL", off := 0x214, rw := 0xFFFFFFFF, cfg := 0xFFFFFFFF },
    { name := "TW_BASE_SH", off := 0x218, rw := 0xFFFF, cfg := 0xFFFF },
    { name := "TW_COMMIT", off := 0x21C, reset := 0x7D0, rw := 0xFFFFFF, cfg := 0xFFFFFF },
    { name := "TW_CYCLE", off := 0x220, count := 4, reset := 0xF4240, rw := 0xFFFFFFFF, cfg := 0xFFFFFFFF },
    { name := "TW_GUARD", off := 0x230, count := 4, reset := 0x3E8, rw := 0xFFFFFF, cfg := 0xFFFFFF },
    { name := "TW_SWITCH", off := 0x240, reset := 0x200, rw := 0xFF03, cfg := 0xFF03 },
    { name := "TW_OPEN", off := 0x244, reset := 0x64, rw := 0xFFFF, cfg := 0xFFFF },
    { name := "TW_TSEL", off := 0x248, rw := 0x33F },
    { name := "TW_TDATA0", off := 0x24C, rw := 0xFFFFFFFF },
    { name := "TW_TDATA1", off := 0x250, rw := 0xFFFFFFFF },
    { name := "TW_TDATA2", off := 0x254, rw := 0xFFFF97FF },
    { name := "TW_TDATA3", off := 0x258 },
    { name := "TW_TCOMMIT", off := 0x25C, wo := 0xF },
    { name := "TW_TCRC", off := 0x260, count := 4 },
    { name := "TW_TCLIP", off := 0x270, count := 8 },
    { name := "TW_DLY", off := 0x290, rw := 0xFFFFFF, cfg := 0xFFFFFF },
    { name := "TW_TURN", off := 0x294 },
    { name := "TW_DRIFT", off := 0x298 },
    { name := "TW_OFFSET", off := 0x29C },
    { name := "TW_CYC_NS", off := 0x2A0 },
    { name := "TW_CYC_SL", off := 0x2A4 },
    { name := "TW_CYC_SH", off := 0x2A8 },
    { name := "TW_EVT", off := 0x2AC, w1c := 0x3FFF },
    { name := "TW_EVT_EN", off := 0x2B0, rw := 0x3FFF },
    { name := "TW_ACK_EXCL", off := 0x2B4, count := 8, rw := 0xFFFFFFFF, cfg := 0xFFFFFFFF },
    { name := "TW_ACK_SEEN", off := 0x2D4, count := 8 },
    { name := "TW_DSEL", off := 0x2F4, rw := 0xFF },
    { name := "TW_DTAB", off := 0x2F8 } ]

/-- Trade-wind counters. -/
def rowsSPTwCnt : List RegRow :=
  [ { name := "TW_CNT_CYCLES", off := 0x300, rc := 0xFFFFFFFF },
    { name := "TW_CNT_SYNC_TX", off := 0x304, rc := 0xFFFFFFFF },
    { name := "TW_CNT_SYNC_RX", off := 0x308, rc := 0xFFFFFFFF },
    { name := "TW_CNT_FRAME_TX", off := 0x30C, rc := 0xFFFFFFFF },
    { name := "TW_CNT_FRAME_RX", off := 0x310, rc := 0xFFFFFFFF },
    { name := "TW_CNT_CRC", off := 0x314, rc := 0xFFFFFFFF },
    { name := "TW_CNT_TRUNC", off := 0x318, rc := 0xFFFFFFFF },
    { name := "TW_CNT_WINDOW", off := 0x31C, rc := 0xFFFFFFFF },
    { name := "TW_CNT_FRAG", off := 0x320, rc := 0xFFFFFFFF },
    { name := "TW_CNT_EMPTY", off := 0x324, rc := 0xFFFFFFFF },
    { name := "TW_CNT_SHORT", off := 0x328, rc := 0xFFFFFFFF },
    { name := "TW_CNT_NOBUF", off := 0x32C, rc := 0xFFFFFFFF },
    { name := "TW_CNT_NODLY", off := 0x330, rc := 0xFFFFFFFF },
    { name := "TW_CNT_SW_DONE", off := 0x334, rc := 0xFFFFFFFF },
    { name := "TW_CNT_SW_WDRAW", off := 0x338, rc := 0xFFFFFFFF },
    { name := "TW_CNT_DLY_MEAS", off := 0x33C, rc := 0xFFFFFFFF },
    { name := "TW_CNT_DLY_BAD", off := 0x340, rc := 0xFFFFFFFF },
    { name := "TW_CNT_FOREIGN", off := 0x344, rc := 0xFFFFFFFF },
    { name := "TW_CNT_OPEN_DEFER", off := 0x348, rc := 0xFFFFFFFF },
    { name := "TW_CNT_SETTLE", off := 0x34C, rc := 0xFFFFFFFF },
    { name := "TW_CNT_STOPDISC", off := 0x350, rc := 0xFFFFFFFF } ]

/-- Bus guardian. -/
def rowsSPGd : List RegRow :=
  [ { name := "GD_CTRL", off := 0x400, reset := 0x100300, rw := 0xFFFF00, wo := 0x7, cfg := 0xFFFF00 },
    { name := "GD_STAT", off := 0x404 },
    { name := "GD_CYCNT", off := 0x408 },
    { name := "GD_PHASE", off := 0x40C },
    { name := "GD_CRC", off := 0x410, count := 4 },
    { name := "GD_BLK_NS", off := 0x420 },
    { name := "GD_BLK_INFO", off := 0x424 },
    { name := "SF_STAT", off := 0x428 },
    { name := "SF_EVT", off := 0x42C, w1c := 0xFFFF },
    { name := "SF_EVT_EN", off := 0x430, rw := 0xFFFF },
    { name := "SF_BABBLE", off := 0x434, reset := 0x8, rw := 0x1F, cfg := 0x1F },
    { name := "SF_SILENT", off := 0x438, reset := 0x3, rw := 0xFF, cfg := 0xFF },
    { name := "SF_ABSENT", off := 0x440, count := 8 },
    { name := "SF_CNT_BLOCKED", off := 0x460, rc := 0xFFFFFFFF },
    { name := "SF_CNT_MUZZLE", off := 0x464, rc := 0xFFFFFFFF },
    { name := "SF_CNT_ANCHOR", off := 0x468, rc := 0xFFFFFFFF },
    { name := "SF_CNT_SYNC_MISS", off := 0x46C, rc := 0xFFFFFFFF },
    { name := "SF_CNT_WITHHELD", off := 0x470, rc := 0xFFFFFFFF },
    { name := "SF_CNT_INTRUDE", off := 0x478, rc := 0xFFFFFFFF },
    { name := "SF_CNT_BABBLE", off := 0x47C, rc := 0xFFFFFFFF },
    { name := "SF_CNT_BUS_DEAD", off := 0x480, rc := 0xFFFFFFFF },
    { name := "SF_CNT_CYC_JUMP", off := 0x484, rc := 0xFFFFFFFF },
    { name := "SF_CNT_SKEW", off := 0x488, rc := 0xFFFFFFFF } ]

/-- Queue fabric (0x0010_0000). -/
def rowsQF : List RegRow :=
  [ { name := "QF_STAT", off := 0x0 },
    { name := "QF_EDGE_USED", off := 0x4 },
    { name := "QF_EVT", off := 0x8, w1c := 0x1FF },
    { name := "QF_EVT_EN", off := 0xC, rw := 0x1FF },
    { name := "QF_QSEL", off := 0x40, rw := 0xFFFF },
    { name := "QF_QCMD", off := 0x44, wo := 0x7 },
    { name := "QF_QCFG0", off := 0x48, reset := 0x20, rw := 0xF1F7F, cfg := 0xF1F7F },
    { name := "QF_QCFG1", off := 0x4C, reset := 0x400, rw := 0xFFFFFFFF, cfg := 0xFFFFFFFF },
    { name := "QF_QCFG2", off := 0x50, rw := 0xFFFF0001, cfg := 0xFFFF0001 },
    { name := "QF_QCFG3", off := 0x54, rw := 0xFFFFFFFF, cfg := 0xFFFFFFFF },
    { name := "QF_QCFG4", off := 0x58, rw := 0x803FFFFF, cfg := 0x803FFFFF },
    { name := "QI_HELD_LO", off := 0x60 },
    { name := "QI_HELD_HI", off := 0x64 },
    { name := "QI_READY_LO", off := 0x68 },
    { name := "QI_READY_HI", off := 0x6C },
    { name := "QI_UNREL_LO", off := 0x70 },
    { name := "QI_UNREL_HI", off := 0x74 },
    { name := "QI_PKTS_LO", off := 0x78 },
    { name := "QI_PKTS_HI", off := 0x7C },
    { name := "QI_PUSHED_LO", off := 0x80 },
    { name := "QI_PUSHED_HI", off := 0x84 },
    { name := "QI_POPPED_LO", off := 0x88 },
    { name := "QI_POPPED_HI", off := 0x8C },
    { name := "QI_HWM_LO", off := 0x90 },
    { name := "QI_HWM_HI", off := 0x94 },
    { name := "QI_REFUSED", off := 0x98 },
    { name := "QI_LOST", off := 0x9C },
    { name := "QI_LOST_PKT", off := 0xA0 },
    { name := "QI_FAULTS", off := 0xA4 },
    { name := "QI_BLOCKS", off := 0xA8 },
    { name := "QI_FLAGS", off := 0xAC },
    { name := "QF_CNT_ABSENT", off := 0xC0, rc := 0xFFFFFFFF },
    { name := "QF_CNT_BADACC", off := 0xC4, rc := 0xFFFFFFFF },
    { name := "QF_CNT_DELWORDS", off := 0xC8, rc := 0xFFFFFFFF },
    { name := "QF_QSTAT", off := 0xCC },
    { name := "QF_NOTIFY_SUM", off := 0x1000, count := 64 },
    { name := "QF_NOTIFY", off := 0x2000, count := 2048 } ]

/-- Eddy store (0x0011_0000). -/
def rowsED : List RegRow :=
  [ { name := "ED_STAT", off := 0x0 },
    { name := "ED_CFG", off := 0x4, reset := 0x408, rw := 0xF0F, cfg := 0xF0F },
    { name := "ED_EBLOCKS", off := 0x8 },
    { name := "ED_OBLOCKS", off := 0xC },
    { name := "ED_EVT", off := 0x10, w1c := 0x1F },
    { name := "ED_EVT_EN", off := 0x14, rw := 0x1F },
    { name := "ED_QSEL", off := 0x20, rw := 0xFFFF },
    { name := "ED_QCAP_LO", off := 0x24 },
    { name := "ED_QCAP_HI", off := 0x28 },
    { name := "ED_QINFO", off := 0x2C },
    { name := "ED_QBLK_E", off := 0x30 },
    { name := "ED_QBLK_O", off := 0x34 },
    { name := "ED_QRES", off := 0x38 },
    { name := "ED_CNT_SPILL", off := 0x40, rc := 0xFFFFFFFF },
    { name := "ED_CNT_REFILL", off := 0x44, rc := 0xFFFFFFFF },
    { name := "ED_CNT_PREFETCH", off := 0x48, rc := 0xFFFFFFFF },
    { name := "ED_CNT_WAITRD", off := 0x4C, rc := 0xFFFFFFFF },
    { name := "ED_CNT_ECCW", off := 0x50, rc := 0xFFFFFFFF } ]

/-- Network ports (0x0020_0000 + n × 0x4000). -/
def rowsNP : List RegRow :=
  [ { name := "NP_CTRL", off := 0x0, reset := 0x50, rw := 0x1FF, cfg := 0x1FF },
    { name := "NP_STAT", off := 0x4, reset := 0x200 },
    { name := "NP_EVT", off := 0x8, w1c := 0x3FF },
    { name := "NP_EVT_EN", off := 0xC, rw := 0x3FF },
    { name := "NP_RXCFG", off := 0x10, reset := 0x5F2, rw := 0x3FFF, cfg := 0x3FFF },
    { name := "NP_TSCOMP", off := 0x14, rw := 0xFFFFFFFF, cfg := 0xFFFFFFFF },
    { name := "NP_AN_LP", off := 0x18 },
    { name := "NP_CT", off := 0x20, reset := 0x1C, rw := 0x1F },
    { name := "NP_GCL_CTRL", off := 0x40, rw := 0x1, wo := 0x6 },
    { name := "NP_GCL_ALEN", off := 0x44, rw := 0x1FF },
    { name := "NP_GCL_ABASE_NS", off := 0x48, rw := 0xFFFFFFFF },
    { name := "NP_GCL_ABASE_SL", off := 0x4C, rw := 0xFFFFFFFF },
    { name := "NP_GCL_ABASE_SH", off := 0x50, rw := 0xFFFF },
    { name := "NP_GCL_ACYCLE", off := 0x54, rw := 0xFFFFFFFF },
    { name := "NP_GCL_AEXT", off := 0x58, rw := 0xFFFFFFFF },
    { name := "NP_GCL_SEL", off := 0x5C, rw := 0x1FF },
    { name := "NP_GCL_GATES", off := 0x60, rw := 0xFF },
    { name := "NP_GCL_INTERVAL", off := 0x64, rw := 0xFFFFFFFF },
    { name := "NP_GCL_OLEN", off := 0x68 },
    { name := "NP_GCL_CCT_NS", off := 0x6C },
    { name := "NP_GCL_CCT_SL", off := 0x70 },
    { name := "NP_GCL_CCT_SH", off := 0x74 },
    { name := "NP_GCL_OCYCLE", off := 0x78 },
    { name := "NP_GCL_OSTAT", off := 0x7C },
    { name := "NP_CNT_RXFRM", off := 0x100, rc := 0xFFFFFFFF },
    { name := "NP_CNT_RXOCT", off := 0x104, rc := 0xFFFFFFFF },
    { name := "NP_CNT_FCS", off := 0x108, rc := 0xFFFFFFFF },
    { name := "NP_CNT_RUNT", off := 0x10C, rc := 0xFFFFFFFF },
    { name := "NP_CNT_LONG", off := 0x110, rc := 0xFFFFFFFF },
    { name := "NP_CNT_SYMERR", off := 0x114, rc := 0xFFFFFFFF },
    { name := "NP_CNT_WINDROP", off := 0x118, rc := 0xFFFFFFFF },
    { name := "NP_CNT_NOSERV", off := 0x11C, rc := 0xFFFFFFFF },
    { name := "NP_CNT_TXFRM", off := 0x120, rc := 0xFFFFFFFF },
    { name := "NP_CNT_TXOCT", off := 0x124, rc := 0xFFFFFFFF },
    { name := "NP_CNT_TOOLONG", off := 0x128, rc := 0xFFFFFFFF },
    { name := "NP_CNT_GATEOVR", off := 0x12C, rc := 0xFFFFFFFF },
    { name := "NP_CNT_TXDOWN", off := 0x130, rc := 0xFFFFFFFF },
    { name := "NP_CNT_CTFWD", off := 0x134, rc := 0xFFFFFFFF },
    { name := "NP_CNT_CTSTOMP", off := 0x138, rc := 0xFFFFFFFF },
    { name := "NP_CNT_CTBUF", off := 0x13C, rc := 0xFFFFFFFF } ] ++
  [ { name := "NP_CNT_CTDROP", off := 0x140, rc := 0xFFFFFFFF },
    { name := "NP_CNT_CUT", off := 0x144, rc := 0xFFFFFFFF } ]

/-- MDIO masters. -/
def rowsMD : List RegRow :=
  [ { name := "MD_CFG", off := 0x0, reset := 0x4, rw := 0x1FF, cfg := 0x1FF },
    { name := "MD_CMD", off := 0x4, wo := 0xFFFF1FFF },
    { name := "MD_DATA", off := 0x8 },
    { name := "MD_STAT", off := 0xC, w1c := 0x6 } ]

/-- Communication engines (0x0030_0000 + n × 0x2000). -/
def rowsCE : List RegRow :=
  [ { name := "CE_CTRL", off := 0x0, reset := 0x300, rw := 0xF10, wo := 0x3, cfg := 0xF10 },
    { name := "CE_STAT", off := 0x4 },
    { name := "CE_BIND", off := 0x8, rw := 0x18F, cfg := 0x18F },
    { name := "CE_FAULT", off := 0xC },
    { name := "CE_FAULT_ADDR", off := 0x10 },
    { name := "CE_EVT", off := 0x14, w1c := 0x1F },
    { name := "CE_EVT_EN", off := 0x18, rw := 0x1F },
    { name := "CE_MBI_DB", off := 0x20, wo := 0xF, lvl := .core },
    { name := "CE_MBO_STAT", off := 0x24, lvl := .core },
    { name := "CE_MBO_ACK", off := 0x28, wo := 0x1, lvl := .core },
    { name := "CE_MBI", off := 0x40, count := 16, rw := 0xFFFFFFFF, lvl := .core },
    { name := "CE_MBO", off := 0x80, count := 16, lvl := .core },
    { name := "CE_QPORT", off := 0xC0, count := 16, rw := 0x8000FFFF, cfg := 0x8000FFFF },
    { name := "CE_CNT_FAULT", off := 0x100, rc := 0xFFFFFFFF },
    { name := "CE_CNT_FORCED", off := 0x104, rc := 0xFFFFFFFF },
    { name := "CE_CNT_MBXOVR", off := 0x108, rc := 0xFFFFFFFF },
    { name := "CE_CNT_STOPREF", off := 0x10C, rc := 0xFFFFFFFF },
    { name := "CE_CNT_WINDROP", off := 0x110, rc := 0xFFFFFFFF },
    { name := "CE_CNT_BADOP", off := 0x114, rc := 0xFFFFFFFF } ]

/-- Protocol loader and clusters. -/
def rowsLD : List RegRow :=
  [ { name := "LD_CTRL", off := 0x0, wo := 0x3F7 },
    { name := "LD_STAT", off := 0x4 },
    { name := "LD_LEN", off := 0x8, rw := 0x3FFFF },
    { name := "LD_HADDR_LO", off := 0xC, rw := 0xFFFFFFFF },
    { name := "LD_HADDR_HI", off := 0x10, rw := 0xFFFFFFFF },
    { name := "LD_DATA", off := 0x14, wo := 0xFFFFFFFF },
    { name := "LD_PROGRESS", off := 0x18 },
    { name := "LD_SLOTSEL", off := 0x20, rw := 0xF },
    { name := "LD_SI_PROTO", off := 0x24 },
    { name := "LD_SI_VER", off := 0x28 },
    { name := "LD_SI_LEN", off := 0x2C },
    { name := "LD_SI_INFO", off := 0x30 },
    { name := "LD_KEYSTAT", off := 0x40 },
    { name := "LD_CNT_FOREIGN", off := 0x44, rc := 0xFFFFFFFF },
    { name := "SV_STAT", off := 0x80 },
    { name := "CL_CTRL", off := 0x100, count := 12, reset := 0x2, rw := 0x1, cfg := 0x1 } ]

/-- Sahoz links (0x0040_0000 + n × 0x4000). -/
def rowsLK : List RegRow :=
  [ { name := "LK_CTRL", off := 0x0, reset := 0x31, rw := 0x77, wo := 0x8, cfg := 0x77 },
    { name := "LK_STAT", off := 0x4 },
    { name := "LK_EVT", off := 0x8, w1c := 0xFF },
    { name := "LK_EVT_EN", off := 0xC, rw := 0xFF },
    { name := "LK_PSN", off := 0x10, count := 4 },
    { name := "LK_DELAY", off := 0x20 },
    { name := "LK_ASYM", off := 0x24, rw := 0xFFFFFFFF, cfg := 0xFFFFFFFF },
    { name := "LK_DLYCFG", off := 0x28, reset := 0xA, rw := 0xFFFF, cfg := 0xFFFF },
    { name := "LK_DLY_LAST", off := 0x2C },
    { name := "LK_CRED_VC", off := 0x30, count := 4 },
    { name := "LK_CNT_CRC", off := 0x40, rc := 0xFFFFFFFF },
    { name := "LK_CNT_REPLAY", off := 0x44, rc := 0xFFFFFFFF },
    { name := "LK_CNT_DOWN", off := 0x48, rc := 0xFFFFFFFF },
    { name := "LK_CNT_RESYNC", off := 0x4C, rc := 0xFFFFFFFF },
    { name := "LK_CNT_DLYREJ", off := 0x50, rc := 0xFFFFFFFF },
    { name := "LK_CNT_HELLOERR", off := 0x54, rc := 0xFFFFFFFF },
    { name := "LK_CNT_TXCELL", off := 0x58, rc := 0xFFFFFFFF },
    { name := "LK_CNT_RXCELL", off := 0x5C, rc := 0xFFFFFFFF } ]

/-- Sahoz chain (0x0041_0000). -/
def rowsCH : List RegRow :=
  [ { name := "CH_CTRL", off := 0x0, reset := 0x4, rw := 0x7, wo := 0x18, cfg := 0x7 },
    { name := "CH_STAT", off := 0x4 },
    { name := "CH_EVT", off := 0x8, w1c := 0x7FF },
    { name := "CH_EVT_EN", off := 0xC, rw := 0x7FF },
    { name := "CH_CFG", off := 0x10, reset := 0x1007D, rw := 0xFFFFFF, cfg := 0xFFFFFF },
    { name := "CH_BUF", off := 0x14, reset := 0x7012810, rw := 0xFFFFFFFF, cfg := 0xFFFFFFFF },
    { name := "CH_VCW", off := 0x18, reset := 0x1B4, rw := 0xFFF, cfg := 0xFFF },
    { name := "CH_RDTMO", off := 0x1C, reset := 0x3E8, rw := 0xFFFFF, cfg := 0xFFFFF },
    { name := "CH_LOSTTMO", off := 0x20, reset := 0x3E8, rw := 0xFFFF, cfg := 0xFFFF },
    { name := "CH_SERVO", off := 0x24, reset := 0x4, rw := 0xF, cfg := 0xF },
    { name := "CH_TSTAT", off := 0x28 },
    { name := "CH_OFFSET", off := 0x2C },
    { name := "CH_REQ", off := 0x30, rw := 0x37F, wo := 0x80000000 },
    { name := "CH_FWDCFG", off := 0x34, reset := 0xA, rw := 0xFFFF, cfg := 0xFFFF },
    { name := "CH_RTE", off := 0x40, count := 4 },
    { name := "CH_MAPSEL", off := 0x50, rw := 0x3F },
    { name := "CH_MAP_SN", off := 0x54, count := 4 },
    { name := "CH_MAP_INFO", off := 0x68 },
    { name := "CH_ORPH_STAT", off := 0x80 },
    { name := "CH_ORPH_LOST", off := 0x84, rc := 0xFFFFFFFF },
    { name := "CH_CNT_RDFAIL", off := 0x100, rc := 0xFFFFFFFF },
    { name := "CH_CNT_ORPHAN", off := 0x104, rc := 0xFFFFFFFF },
    { name := "CH_CNT_NODEV", off := 0x108, rc := 0xFFFFFFFF },
    { name := "CH_CNT_REROUTE", off := 0x10C, rc := 0xFFFFFFFF },
    { name := "CH_CNT_LOST", off := 0x110, rc := 0xFFFFFFFF },
    { name := "CH_CNT_SYNCRX", off := 0x114, rc := 0xFFFFFFFF },
    { name := "CH_CNT_FWDRET", off := 0x118, rc := 0xFFFFFFFF },
    { name := "CH_CNT_DUP", off := 0x11C, rc := 0xFFFFFFFF },
    { name := "CH_CNT_DUPUNK", off := 0x120, rc := 0xFFFFFFFF } ]

/-- Host interface (0x0050_0000). -/
def rowsHI : List RegRow :=
  [ { name := "HI_STAT", off := 0x0 },
    { name := "HI_LINKCFG", off := 0x4, reset := 0x64, rw := 0x7F, cfg := 0x7F },
    { name := "HI_EVT", off := 0x8, w1c := 0xFF },
    { name := "HI_EVT_EN", off := 0xC, rw := 0xFF },
    { name := "HI_ABT_DB_LO", off := 0x10, wo := 0xFFFFFFFF },
    { name := "HI_ABT_DB_HI", off := 0x14, wo := 0xFFFFFFFF },
    { name := "HI_ABT_STAT", off := 0x18 },
    { name := "HI_CNT_CMD", off := 0x80, rc := 0xFFFFFFFF },
    { name := "HI_CNT_REJECT", off := 0x84, rc := 0xFFFFFFFF },
    { name := "HI_CNT_DMAERR", off := 0x88, rc := 0xFFFFFFFF },
    { name := "HI_CNT_LINKDROP", off := 0x8C, rc := 0xFFFFFFFF },
    { name := "HI_CNT_STALE", off := 0x90, rc := 0xFFFFFFFF },
    { name := "HI_CNT_BADDB", off := 0x94, rc := 0xFFFFFFFF },
    { name := "SQ_BASE_LO", off := 0x1000, count := 64, stride := 0x20, rw := 0xFFFFF000, lvl := .core },
    { name := "SQ_BASE_HI", off := 0x1004, count := 64, stride := 0x20, rw := 0xFFFFFFFF, lvl := .core },
    { name := "SQ_CFG", off := 0x1008, count := 64, stride := 0x20, reset := 0x10004, rw := 0xF3F1F, lvl := .core },
    { name := "SQ_CTRL", off := 0x100C, count := 64, stride := 0x20, rw := 0x1, lvl := .core },
    { name := "SQ_STAT", off := 0x1010, count := 64, stride := 0x20, lvl := .core },
    { name := "CQ_BASE_LO", off := 0x2000, count := 64, stride := 0x20, rw := 0xFFFFF000, lvl := .core },
    { name := "CQ_BASE_HI", off := 0x2004, count := 64, stride := 0x20, rw := 0xFFFFFFFF, lvl := .core },
    { name := "CQ_CFG", off := 0x2008, count := 64, stride := 0x20, reset := 0x4, rw := 0x13F1F, lvl := .core },
    { name := "CQ_CTRL", off := 0x200C, count := 64, stride := 0x20, rw := 0x1, lvl := .core },
    { name := "CQ_STAT", off := 0x2010, count := 64, stride := 0x20, lvl := .core },
    { name := "CQ_COAL", off := 0x2014, count := 64, stride := 0x20, rw := 0xFFFFFF, lvl := .core },
    { name := "SQ_TAIL_DB", off := 0x3000, count := 64, stride := 0x8, wo := 0xFFFF, lvl := .core },
    { name := "CQ_HEAD_DB", off := 0x3004, count := 64, stride := 0x8, wo := 0xFFFF, lvl := .core },
    { name := "MSIX_ADDR_LO", off := 0x4000, count := 64, stride := 0x10, rw := 0xFFFFFFFC },
    { name := "MSIX_ADDR_HI", off := 0x4004, count := 64, stride := 0x10, rw := 0xFFFFFFFF },
    { name := "MSIX_DATA", off := 0x4008, count := 64, stride := 0x10, rw := 0xFFFFFFFF },
    { name := "MSIX_CTRL", off := 0x400C, count := 64, stride := 0x10, reset := 0x1, rw := 0x1 },
    { name := "MSIX_PBA", off := 0x5000, count := 2 } ]

/-- Configuration loader (0x00F0_0000). -/
def rowsCF : List RegRow :=
  [ { name := "CF_CTRL", off := 0x0, wo := 0xF },
    { name := "CF_STAT", off := 0x4 },
    { name := "CF_LEN", off := 0x8, rw := 0x3FFFFF },
    { name := "CF_DATA", off := 0xC, wo := 0xFFFFFFFF },
    { name := "CF_PROGRESS", off := 0x10 },
    { name := "CF_CFG", off := 0x14, reset := 0x3E8, rw := 0xFFFF, cfg := 0xFFFF },
    { name := "CF_PENDING", off := 0x18 },
    { name := "CF_SKIPPED", off := 0x1C },
    { name := "CF_FAIL", off := 0x20 },
    { name := "CF_LAST_ID", off := 0x24 },
    { name := "CF_LAST_VER", off := 0x28 },
    { name := "CF_LAST_CRC", off := 0x2C },
    { name := "CF_EVT", off := 0x30, w1c := 0x1F },
    { name := "CF_EVT_EN", off := 0x34, rw := 0x1F },
    { name := "CF_CNT_COMMIT", off := 0x40, rc := 0xFFFFFFFF },
    { name := "CF_CNT_FAIL", off := 0x44, rc := 0xFFFFFFFF },
    { name := "CF_CNT_QDISC", off := 0x48, rc := 0xFFFFFFFF },
    { name := "CF_CNT_BUSY", off := 0x4C, rc := 0xFFFFFFFF } ]

/-- Store mailbox (0x00F0_0100). -/
def rowsST : List RegRow :=
  [ { name := "ST_CMD", off := 0x100, wo := 0xFF },
    { name := "ST_ADDR", off := 0x104, rw := 0xFFFFFFFF },
    { name := "ST_LEN", off := 0x108, rw := 0x7FF },
    { name := "ST_STAT", off := 0x10C } ]

/-- Calm-port plane mirror (0x00F0_0200). -/
def rowsCP : List RegRow :=
  [ { name := "CP_STAT", off := 0x0 },
    { name := "CP_CTRL", off := 0x4, wo := 0x7 },
    { name := "CP_WORK", off := 0x8 },
    { name := "CP_OPSTAT", off := 0xC },
    { name := "CP_OPFAIL", off := 0x10 },
    { name := "CP_SNAPTAG", off := 0x14 },
    { name := "CP_BOOTSTAT", off := 0x18 },
    { name := "CP_STORESTAT", off := 0x1C },
    { name := "CP_WEAR", off := 0x20 },
    { name := "CP_JOURNAL", off := 0x24 },
    { name := "CP_FUSESTAT", off := 0x28 } ]

/-- Every register block of BAR0 that this model's registers stand in. -/
def regBlocks : List RegBlock :=
  [ { base := 0x0, stride := 0x10000, count := 1, rows := rowsID },
    { base := 0x10000, stride := 0x10000, count := 1, rows := rowsCK },
    { base := 0x10000, stride := 0x10000, count := 1, rows := rowsRS },
    { base := 0x20000, stride := 0x10000, count := 1, rows := rowsPN },
    { base := 0x30000, stride := 0x10000, count := 1, rows := rowsEI },
    { base := 0x40000, stride := 0x10000, count := 1, rows := rowsTB },
    { base := 0x50000, stride := 0x10000, count := 1, rows := rowsME },
    { base := 0x60000, stride := 0x10000, count := 1, rows := rowsEL },
    { base := 0x70000, stride := 0x10000, count := 1, rows := rowsLG },
    { base := 0x80000, stride := 0x1000, count := 16, rows := rowsSPLine ++ rowsSPAddr ++ rowsSPTw ++ rowsSPTwCnt ++ rowsSPGd },
    { base := 0x100000, stride := 0x10000, count := 1, rows := rowsQF },
    { base := 0x110000, stride := 0x10000, count := 1, rows := rowsED },
    { base := 0x200000, stride := 0x4000, count := 12, rows := rowsNP },
    { base := 0x230000, stride := 0x100, count := 2, rows := rowsMD },
    { base := 0x300000, stride := 0x2000, count := 48, rows := rowsCE },
    { base := 0x360000, stride := 0x10000, count := 1, rows := rowsLD },
    { base := 0x400000, stride := 0x4000, count := 4, rows := rowsLK },
    { base := 0x410000, stride := 0x10000, count := 1, rows := rowsCH },
    { base := 0x500000, stride := 0x10000, count := 1, rows := rowsHI },
    { base := 0xF00000, stride := 0x10000, count := 1, rows := rowsCF },
    { base := 0xF00000, stride := 0x10000, count := 1, rows := rowsST },
    { base := 0xF00200, stride := 0x10000, count := 1, rows := rowsCP } ]

/-- The copy of row r at offset o of its block, if o is one. -/
def RegRow.copyAt (r : RegRow) (o : Nat) : Option Nat :=
  if r.off ≤ o then
    if (o - r.off) % r.stride = 0 then
      if (o - r.off) / r.stride < r.count then some ((o - r.off) / r.stride) else none
    else none
  else none

/-- The row among rs that offset o is a copy of, with the copy's number. -/
def findRow : List RegRow → Nat → Option (RegRow × Nat)
  | [], _ => none
  | r :: rs, o =>
    match r.copyAt o with
    | some k => some (r, k)
    | none => findRow rs o

/-- The register at BAR0 address a among blocks bs: its row and which copy of the row it is. -/
def findReg : List RegBlock → Nat → Option (RegRow × Nat)
  | [], _ => none
  | b :: bs, a =>
    if b.base ≤ a ∧ (a - b.base) / b.stride < b.count then
      match findRow b.rows ((a - b.base) % b.stride) with
      | some x => some x
      | none => findReg bs a
    else findReg bs a

/-- The row of the register at BAR0 address a (R10: none where no register stands). -/
def regRow? (a : Nat) : Option RegRow := (findReg regBlocks a).map (·.1)

/-- The reset value of the register at BAR0 address a: its row's; 0 where no register stands (R10). -/
def regReset (a : Nat) : Word :=
  match findReg regBlocks a with
  | some (r, k) => BitVec.ofNat 32 (r.reset + k * r.rstep)
  | none => 0

/-! ### Identity and features (BAR0 0x0000_0000) -/
/-- DEVICE_ID: R2. -/
def DEVICE_ID : Nat := 0x0
def DEVICE_ID.ID : Fld := ⟨DEVICE_ID, 0, 32⟩
/-- ID_SN: R530. -/
def ID_SN (i : Nat) : Nat := 0x10 + 4 * i
def ID_SN.SN (i : Nat) : Fld := ⟨ID_SN i, 0, 32⟩
/-- ID_RCFG: R530. -/
def ID_RCFG : Nat := 0x20
def ID_RCFG.RCFG : Fld := ⟨ID_RCFG, 0, 32⟩
/-- FEAT_OFFER: R465. -/
def FEAT_OFFER (i : Nat) : Nat := 0x40 + 4 * i
def FEAT_OFFER.OFFER (i : Nat) : Fld := ⟨FEAT_OFFER i, 0, 32⟩
/-- FEAT_ACCEPT: R465. -/
def FEAT_ACCEPT (i : Nat) : Nat := 0x50 + 4 * i
def FEAT_ACCEPT.ACCEPT (i : Nat) : Fld := ⟨FEAT_ACCEPT i, 0, 32⟩
/-- FEAT_COMMIT: R465. -/
def FEAT_COMMIT : Nat := 0x60
def FEAT_COMMIT.COMMIT : Fld := ⟨FEAT_COMMIT, 0, 1⟩
/-- FEAT_STAT: R465. -/
def FEAT_STAT : Nat := 0x64
def FEAT_STAT.COMMITTED : Fld := ⟨FEAT_STAT, 0, 1⟩

/-! ### Clocks (0x0001_0000) -/
/-- CK_STAT: R583. -/
def CK_STAT : Nat := 0x10000
def CK_STAT.REFCLK_OK : Fld := ⟨CK_STAT, 0, 1⟩
def CK_STAT.LEVEL1 : Fld := ⟨CK_STAT, 1, 1⟩
def CK_STAT.MON_WARMING : Fld := ⟨CK_STAT, 2, 1⟩
def CK_STAT.AON_MONOSC : Fld := ⟨CK_STAT, 3, 1⟩
def CK_STAT.BECALM : Fld := ⟨CK_STAT, 4, 1⟩
def CK_STAT.BECALM_READY : Fld := ⟨CK_STAT, 5, 1⟩
def CK_STAT.ACK_WAIT : Fld := ⟨CK_STAT, 6, 1⟩
def CK_STAT.LOCKED : Fld := ⟨CK_STAT, 8, 5⟩
def CK_STAT.BYPASS : Fld := ⟨CK_STAT, 16, 5⟩
/-- CK_CFG: R583. -/
def CK_CFG : Nat := 0x10004
def CK_CFG.RESUME : Fld := ⟨CK_CFG, 0, 1⟩
def CK_CFG.SPLL1_EN : Fld := ⟨CK_CFG, 1, 1⟩
def CK_CFG.DPLL_EN : Fld := ⟨CK_CFG, 2, 1⟩
def CK_CFG.DPLL_RATE : Fld := ⟨CK_CFG, 4, 3⟩
/-- CK_CTRL: R583. -/
def CK_CTRL : Nat := 0x10008
def CK_CTRL.RESUME_ACK : Fld := ⟨CK_CTRL, 0, 1⟩
/-- CK_EVT: R584. -/
def CK_EVT : Nat := 0x1000C
def CK_EVT.LEVEL1 : Fld := ⟨CK_EVT, 0, 1⟩
def CK_EVT.RESTORED : Fld := ⟨CK_EVT, 1, 1⟩
def CK_EVT.BECALM : Fld := ⟨CK_EVT, 2, 1⟩
def CK_EVT.BECALM_READY : Fld := ⟨CK_EVT, 3, 1⟩
def CK_EVT.BECALM_END : Fld := ⟨CK_EVT, 4, 1⟩
def CK_EVT.LOCK_LOST : Fld := ⟨CK_EVT, 5, 1⟩
def CK_EVT.FORCED_SW : Fld := ⟨CK_EVT, 6, 1⟩
def CK_EVT.ACK_EARLY : Fld := ⟨CK_EVT, 7, 1⟩
def CK_EVT.RELOCKED : Fld := ⟨CK_EVT, 8, 1⟩
def CK_EVT.CLKOUT_CLAMP : Fld := ⟨CK_EVT, 9, 1⟩
/-- CK_EVT_EN: R584. -/
def CK_EVT_EN : Nat := 0x10010
def CK_EVT_EN.LEVEL1 : Fld := ⟨CK_EVT_EN, 0, 1⟩
def CK_EVT_EN.RESTORED : Fld := ⟨CK_EVT_EN, 1, 1⟩
def CK_EVT_EN.BECALM : Fld := ⟨CK_EVT_EN, 2, 1⟩
def CK_EVT_EN.BECALM_READY : Fld := ⟨CK_EVT_EN, 3, 1⟩
def CK_EVT_EN.BECALM_END : Fld := ⟨CK_EVT_EN, 4, 1⟩
def CK_EVT_EN.LOCK_LOST : Fld := ⟨CK_EVT_EN, 5, 1⟩
def CK_EVT_EN.FORCED_SW : Fld := ⟨CK_EVT_EN, 6, 1⟩
def CK_EVT_EN.ACK_EARLY : Fld := ⟨CK_EVT_EN, 7, 1⟩
def CK_EVT_EN.RELOCKED : Fld := ⟨CK_EVT_EN, 8, 1⟩
def CK_EVT_EN.CLKOUT_CLAMP : Fld := ⟨CK_EVT_EN, 9, 1⟩
/-- CK_MON: R583. -/
def CK_MON : Nat := 0x10014
def CK_MON.COUNT : Fld := ⟨CK_MON, 0, 9⟩
def CK_MON.WINDOW : Fld := ⟨CK_MON, 16, 10⟩
def CK_MON.GOOD : Fld := ⟨CK_MON, 28, 4⟩
/-- CK_PLL: R585. -/
def CK_PLL (i : Nat) : Nat := 0x10020 + 4 * i
def CK_PLL.STATE (i : Nat) : Fld := ⟨CK_PLL i, 0, 3⟩
def CK_PLL.GOOD (i : Nat) : Fld := ⟨CK_PLL i, 3, 3⟩
def CK_PLL.COUNT (i : Nat) : Fld := ⟨CK_PLL i, 8, 24⟩
/-- CK_BECALM: R585. -/
def CK_BECALM : Nat := 0x10034
def CK_BECALM.CAUSE : Fld := ⟨CK_BECALM, 0, 5⟩
def CK_BECALM.REFCLK : Fld := ⟨CK_BECALM, 5, 1⟩
/-- CK_BECALM_US: R585. -/
def CK_BECALM_US : Nat := 0x10038
def CK_BECALM_US.US : Fld := ⟨CK_BECALM_US, 0, 32⟩
/-- CK_CLKOUT: R585. -/
def CK_CLKOUT : Nat := 0x10040
def CK_CLKOUT.SEL : Fld := ⟨CK_CLKOUT, 0, 4⟩
def CK_CLKOUT.DIV : Fld := ⟨CK_CLKOUT, 4, 12⟩
def CK_CLKOUT.EN : Fld := ⟨CK_CLKOUT, 16, 1⟩
def CK_CLKOUT.CLAMP : Fld := ⟨CK_CLKOUT, 17, 1⟩
/-- CK_CNT_LEVEL1: R586. -/
def CK_CNT_LEVEL1 : Nat := 0x10050
/-- CK_CNT_BECALM: R586. -/
def CK_CNT_BECALM : Nat := 0x10054
/-- CK_CNT_LOCKLOST: R586. -/
def CK_CNT_LOCKLOST : Nat := 0x10058
/-- CK_CNT_FORCESW: R586. -/
def CK_CNT_FORCESW : Nat := 0x1005C
/-- CK_CNT_BADWIN: R586. -/
def CK_CNT_BADWIN : Nat := 0x10060

/-! ### Reset and power (0x0001_0100, BKP) -/
/-- RST_CAUSE: R612. -/
def RST_CAUSE : Nat := 0x10100
def RST_CAUSE.LAST : Fld := ⟨RST_CAUSE, 0, 4⟩
def RST_CAUSE.HIST : Fld := ⟨RST_CAUSE, 8, 6⟩
def RST_CAUSE.REQ_DEV : Fld := ⟨RST_CAUSE, 16, 6⟩
def RST_CAUSE.REQ_ORIGIN : Fld := ⟨RST_CAUSE, 22, 3⟩
def RST_CAUSE.DEEPENED : Fld := ⟨RST_CAUSE, 25, 1⟩
/-- RST_WIDTH: R612. -/
def RST_WIDTH : Nat := 0x10104
def RST_WIDTH.US : Fld := ⟨RST_WIDTH, 0, 32⟩
/-- RST_CTRL: R612. -/
def RST_CTRL : Nat := 0x10108
def RST_CTRL.CORE : Fld := ⟨RST_CTRL, 0, 1⟩
def RST_CTRL.SYSTEM : Fld := ⟨RST_CTRL, 1, 1⟩
def RST_CTRL.KEY : Fld := ⟨RST_CTRL, 16, 16⟩
/-- RST_STAT: R612. -/
def RST_STAT : Nat := 0x1010C
def RST_STAT.PHASE : Fld := ⟨RST_STAT, 0, 4⟩
def RST_STAT.FORM : Fld := ⟨RST_STAT, 4, 1⟩
def RST_STAT.STARTUP : Fld := ⟨RST_STAT, 5, 1⟩
def RST_STAT.HOLD : Fld := ⟨RST_STAT, 6, 1⟩
def RST_STAT.RECOVERY : Fld := ⟨RST_STAT, 7, 1⟩
def RST_STAT.TEST : Fld := ⟨RST_STAT, 8, 1⟩
def RST_STAT.WAIT_COUNT : Fld := ⟨RST_STAT, 9, 1⟩
/-- PW_CTRL: R613. -/
def PW_CTRL : Nat := 0x10120
def PW_CTRL.REQ : Fld := ⟨PW_CTRL, 0, 2⟩
/-- PW_STAT: R613. -/
def PW_STAT : Nat := 0x10124
def PW_STAT.STATE : Fld := ⟨PW_STAT, 0, 3⟩
def PW_STAT.WAIT : Fld := ⟨PW_STAT, 4, 5⟩
def PW_STAT.STEP : Fld := ⟨PW_STAT, 9, 3⟩
/-- PW_CFG: R613. -/
def PW_CFG : Nat := 0x10128
def PW_CFG.WAKE_TO : Fld := ⟨PW_CFG, 0, 1⟩
/-- PW_WAKE_EN: R613. -/
def PW_WAKE_EN : Nat := 0x1012C
def PW_WAKE_EN.PINS : Fld := ⟨PW_WAKE_EN, 0, 8⟩
def PW_WAKE_EN.ALARMS : Fld := ⟨PW_WAKE_EN, 8, 4⟩
def PW_WAKE_EN.CHAIN : Fld := ⟨PW_WAKE_EN, 12, 1⟩
def PW_WAKE_EN.CALM : Fld := ⟨PW_WAKE_EN, 13, 1⟩
/-- PW_WAKE_CAUSE: R613. -/
def PW_WAKE_CAUSE : Nat := 0x10130
def PW_WAKE_CAUSE.CAUSE : Fld := ⟨PW_WAKE_CAUSE, 0, 14⟩
/-- PW_EVT: R614. -/
def PW_EVT : Nat := 0x10134
def PW_EVT.RESET_DONE : Fld := ⟨PW_EVT, 0, 1⟩
def PW_EVT.DEEPENED : Fld := ⟨PW_EVT, 1, 1⟩
def PW_EVT.LULL_CHANGE : Fld := ⟨PW_EVT, 2, 1⟩
def PW_EVT.WAKE : Fld := ⟨PW_EVT, 3, 1⟩
def PW_EVT.STILL_ABORTED : Fld := ⟨PW_EVT, 4, 1⟩
def PW_EVT.RET_PERR : Fld := ⟨PW_EVT, 5, 1⟩
def PW_EVT.GLITCH : Fld := ⟨PW_EVT, 6, 1⟩
/-- PW_EVT_EN: R614. -/
def PW_EVT_EN : Nat := 0x10138
def PW_EVT_EN.RESET_DONE : Fld := ⟨PW_EVT_EN, 0, 1⟩
def PW_EVT_EN.DEEPENED : Fld := ⟨PW_EVT_EN, 1, 1⟩
def PW_EVT_EN.LULL_CHANGE : Fld := ⟨PW_EVT_EN, 2, 1⟩
def PW_EVT_EN.WAKE : Fld := ⟨PW_EVT_EN, 3, 1⟩
def PW_EVT_EN.STILL_ABORTED : Fld := ⟨PW_EVT_EN, 4, 1⟩
def PW_EVT_EN.RET_PERR : Fld := ⟨PW_EVT_EN, 5, 1⟩
def PW_EVT_EN.GLITCH : Fld := ⟨PW_EVT_EN, 6, 1⟩
/-- PW_RETERR: R613. -/
def PW_RETERR : Nat := 0x1013C
def PW_RETERR.OFFSET : Fld := ⟨PW_RETERR, 0, 14⟩
/-- PW_WAKEPIN: R613. -/
def PW_WAKEPIN (i : Nat) : Nat := 0x10140 + 4 * i
def PW_WAKEPIN.PIN (i : Nat) : Fld := ⟨PW_WAKEPIN i, 0, 6⟩
def PW_WAKEPIN.SENSE (i : Nat) : Fld := ⟨PW_WAKEPIN i, 6, 2⟩
/-- RST_CNT_CORE: R615. -/
def RST_CNT_CORE : Nat := 0x10160
/-- RST_CNT_SYS: R615. -/
def RST_CNT_SYS : Nat := 0x10164
/-- RST_CNT_GLITCH: R615. -/
def RST_CNT_GLITCH : Nat := 0x10168
/-- PW_CNT_WAKE: R615. -/
def PW_CNT_WAKE : Nat := 0x1016C
/-- PW_CNT_ABORT: R615. -/
def PW_CNT_ABORT : Nat := 0x10170
/-- BKP: R613. -/
def BKP (i : Nat) : Nat := 0x10200 + 4 * i
def BKP.DATA (i : Nat) : Fld := ⟨BKP i, 0, 32⟩
/-- RETMEM word i: R603. -/
def RETMEM (i : Nat) : Nat := 0x14000 + 4 * i

/-! ### Pins (0x0002_0000) -/
/-- PINLOCK_LO: R636. -/
def PINLOCK_LO : Nat := 0x20000
def PINLOCK_LO.KEY_MASK : Fld := ⟨PINLOCK_LO, 0, 32⟩
/-- PINLOCK_HI: R636. -/
def PINLOCK_HI : Nat := 0x20004
def PINLOCK_HI.KEY_MASK : Fld := ⟨PINLOCK_HI, 0, 32⟩
/-- GP_LOCKED_LO: R636. -/
def GP_LOCKED_LO : Nat := 0x20008
def GP_LOCKED_LO.LOCKED : Fld := ⟨GP_LOCKED_LO, 0, 32⟩
/-- GP_LOCKED_HI: R636. -/
def GP_LOCKED_HI : Nat := 0x2000C
def GP_LOCKED_HI.LOCKED : Fld := ⟨GP_LOCKED_HI, 0, 32⟩
/-- GP_HOLD_LO: R636. -/
def GP_HOLD_LO : Nat := 0x20010
def GP_HOLD_LO.HOLD : Fld := ⟨GP_HOLD_LO, 0, 32⟩
/-- GP_HOLD_HI: R636. -/
def GP_HOLD_HI : Nat := 0x20014
def GP_HOLD_HI.HOLD : Fld := ⟨GP_HOLD_HI, 0, 32⟩
/-- GP_BANK: R636. -/
def GP_BANK : Nat := 0x20018
def GP_BANK.ABCD : Fld := ⟨GP_BANK, 0, 8⟩
def GP_BANK.S : Fld := ⟨GP_BANK, 8, 2⟩
/-- GP_EXTL_SEL: R636. -/
def GP_EXTL_SEL : Nat := 0x2001C
def GP_EXTL_SEL.SEL : Fld := ⟨GP_EXTL_SEL, 0, 32⟩
/-- GP_IN_LO: R637. -/
def GP_IN_LO : Nat := 0x20020
def GP_IN_LO.IN : Fld := ⟨GP_IN_LO, 0, 32⟩
/-- GP_IN_HI: R637. -/
def GP_IN_HI : Nat := 0x20024
def GP_IN_HI.IN : Fld := ⟨GP_IN_HI, 0, 32⟩
/-- GP_OUT_LO: R637. -/
def GP_OUT_LO : Nat := 0x20028
def GP_OUT_LO.OUT : Fld := ⟨GP_OUT_LO, 0, 32⟩
/-- GP_OUT_HI: R637. -/
def GP_OUT_HI : Nat := 0x2002C
def GP_OUT_HI.OUT : Fld := ⟨GP_OUT_HI, 0, 32⟩
/-- GP_SET_LO: R637. -/
def GP_SET_LO : Nat := 0x20030
def GP_SET_LO.SET : Fld := ⟨GP_SET_LO, 0, 32⟩
/-- GP_SET_HI: R637. -/
def GP_SET_HI : Nat := 0x20034
def GP_SET_HI.SET : Fld := ⟨GP_SET_HI, 0, 32⟩
/-- GP_CLR_LO: R637. -/
def GP_CLR_LO : Nat := 0x20038
def GP_CLR_LO.CLR : Fld := ⟨GP_CLR_LO, 0, 32⟩
/-- GP_CLR_HI: R637. -/
def GP_CLR_HI : Nat := 0x2003C
def GP_CLR_HI.CLR : Fld := ⟨GP_CLR_HI, 0, 32⟩
/-- GP_EVT: R638. -/
def GP_EVT : Nat := 0x20040
def GP_EVT.SEQ_ERR : Fld := ⟨GP_EVT, 0, 1⟩
def GP_EVT.LOCKED_WR : Fld := ⟨GP_EVT, 1, 1⟩
def GP_EVT.BANK : Fld := ⟨GP_EVT, 2, 1⟩
def GP_EVT.MULTI : Fld := ⟨GP_EVT, 3, 1⟩
/-- GP_CNT_LOCKWR: R639. -/
def GP_CNT_LOCKWR : Nat := 0x20048
/-- GP_CNT_LOCKSEQ: R639. -/
def GP_CNT_LOCKSEQ : Nat := 0x2004C
/-- PIN_CFG: R635. -/
def PIN_CFG (i : Nat) : Nat := 0x20100 + 4 * i
def PIN_CFG.FSEL (i : Nat) : Fld := ⟨PIN_CFG i, 0, 3⟩
def PIN_CFG.OSEL (i : Nat) : Fld := ⟨PIN_CFG i, 4, 3⟩
def PIN_CFG.OSEL_EN (i : Nat) : Fld := ⟨PIN_CFG i, 7, 1⟩
def PIN_CFG.GDIR (i : Nat) : Fld := ⟨PIN_CFG i, 8, 1⟩
def PIN_CFG.ODRAIN (i : Nat) : Fld := ⟨PIN_CFG i, 9, 1⟩
def PIN_CFG.PULL (i : Nat) : Fld := ⟨PIN_CFG i, 10, 2⟩
def PIN_CFG.DRV (i : Nat) : Fld := ⟨PIN_CFG i, 12, 2⟩
def PIN_CFG.SLEW (i : Nat) : Fld := ⟨PIN_CFG i, 14, 1⟩
def PIN_CFG.FUSE (i : Nat) : Fld := ⟨PIN_CFG i, 15, 1⟩

/-! ### External interrupt controller (0x0003_0000) -/
/-- EIC_STAT: R561. -/
def EIC_STAT : Nat := 0x30000
def EIC_STAT.NPEND : Fld := ⟨EIC_STAT, 0, 12⟩
/-- EIC_CNT_SPUR: R561. -/
def EIC_CNT_SPUR : Nat := 0x30010
/-- EIC_CNT_BADCMP: R561. -/
def EIC_CNT_BADCMP : Nat := 0x30014
/-- EIC_CNT_RSTDROP: R561. -/
def EIC_CNT_RSTDROP : Nat := 0x30018
/-- EIC_TCFG: R561. -/
def EIC_TCFG (i : Nat) : Nat := 0x30100 + 32 * i
def EIC_TCFG.DELIV (i : Nat) : Fld := ⟨EIC_TCFG i, 0, 2⟩
def EIC_TCFG.VEC (i : Nat) : Fld := ⟨EIC_TCFG i, 8, 6⟩
def EIC_TCFG.BREEZE_EN (i : Nat) : Fld := ⟨EIC_TCFG i, 16, 1⟩
def EIC_TCFG.GUST_EN (i : Nat) : Fld := ⟨EIC_TCFG i, 17, 1⟩
/-- EIC_TSTAT: R561. -/
def EIC_TSTAT (i : Nat) : Nat := 0x30104 + 32 * i
def EIC_TSTAT.LINE (i : Nat) : Fld := ⟨EIC_TSTAT i, 0, 1⟩
def EIC_TSTAT.RAISED_B (i : Nat) : Fld := ⟨EIC_TSTAT i, 1, 1⟩
def EIC_TSTAT.RAISED_G (i : Nat) : Fld := ⟨EIC_TSTAT i, 2, 1⟩
def EIC_TSTAT.BCOUNT (i : Nat) : Fld := ⟨EIC_TSTAT i, 4, 12⟩
def EIC_TSTAT.GCOUNT (i : Nat) : Fld := ⟨EIC_TSTAT i, 16, 12⟩
/-- EIC_BCLAIM: R561. -/
def EIC_BCLAIM (i : Nat) : Nat := 0x30108 + 32 * i
def EIC_BCLAIM.SRC (i : Nat) : Fld := ⟨EIC_BCLAIM i, 0, 11⟩
/-- EIC_BCOMP: R561. -/
def EIC_BCOMP (i : Nat) : Nat := 0x3010C + 32 * i
def EIC_BCOMP.SRC (i : Nat) : Fld := ⟨EIC_BCOMP i, 0, 11⟩
/-- EIC_GCLAIM: R561. -/
def EIC_GCLAIM (i : Nat) : Nat := 0x30110 + 32 * i
def EIC_GCLAIM.SRC (i : Nat) : Fld := ⟨EIC_GCLAIM i, 0, 11⟩
/-- EIC_GCOMP: R561. -/
def EIC_GCOMP (i : Nat) : Nat := 0x30114 + 32 * i
def EIC_GCOMP.SRC (i : Nat) : Fld := ⟨EIC_GCOMP i, 0, 11⟩
/-- EIC_PEND: R561. -/
def EIC_PEND (i : Nat) : Nat := 0x30200 + 4 * i
def EIC_PEND.PEND (i : Nat) : Fld := ⟨EIC_PEND i, 0, 32⟩
/-- EIC_PSET: R561. -/
def EIC_PSET (i : Nat) : Nat := 0x30300 + 4 * i
def EIC_PSET.SET (i : Nat) : Fld := ⟨EIC_PSET i, 0, 32⟩
/-- EIC_CLAIMED: R561. -/
def EIC_CLAIMED (i : Nat) : Nat := 0x30400 + 4 * i
def EIC_CLAIMED.CLAIMED (i : Nat) : Fld := ⟨EIC_CLAIMED i, 0, 32⟩
/-- EIC_SRC_CFG: R560. -/
def EIC_SRC_CFG (i : Nat) : Nat := 0x31000 + 4 * i
def EIC_SRC_CFG.TMASK (i : Nat) : Fld := ⟨EIC_SRC_CFG i, 0, 8⟩
def EIC_SRC_CFG.CLASS (i : Nat) : Fld := ⟨EIC_SRC_CFG i, 8, 1⟩
def EIC_SRC_CFG.SENSE (i : Nat) : Fld := ⟨EIC_SRC_CFG i, 9, 3⟩
def EIC_SRC_CFG.EN (i : Nat) : Fld := ⟨EIC_SRC_CFG i, 12, 1⟩
def EIC_SRC_CFG.INPUT (i : Nat) : Fld := ⟨EIC_SRC_CFG i, 16, 1⟩
def EIC_SRC_CFG.STATE (i : Nat) : Fld := ⟨EIC_SRC_CFG i, 17, 2⟩
def EIC_SRC_CFG.REPEND (i : Nat) : Fld := ⟨EIC_SRC_CFG i, 19, 1⟩
def EIC_SRC_CFG.OWNER (i : Nat) : Fld := ⟨EIC_SRC_CFG i, 20, 3⟩
def EIC_SRC_CFG.CLAIM_CLASS (i : Nat) : Fld := ⟨EIC_SRC_CFG i, 23, 1⟩

/-! ### Time base (0x0004_0000) -/
/-- TB_STAT: R301. -/
def TB_STAT : Nat := 0x40000
def TB_STAT.QUALITY : Fld := ⟨TB_STAT, 0, 3⟩
def TB_STAT.HOLDOVER : Fld := ⟨TB_STAT, 3, 1⟩
def TB_STAT.COARSE : Fld := ⟨TB_STAT, 4, 1⟩
def TB_STAT.SLEWING : Fld := ⟨TB_STAT, 5, 1⟩
def TB_STAT.STEP_PEND : Fld := ⟨TB_STAT, 6, 1⟩
def TB_STAT.WARMING : Fld := ⟨TB_STAT, 7, 1⟩
def TB_STAT.SRC_SEL : Fld := ⟨TB_STAT, 8, 3⟩
/-- TB_EVT: R302. -/
def TB_EVT : Nat := 0x40004
def TB_EVT.STEP : Fld := ⟨TB_EVT, 0, 1⟩
def TB_EVT.SLEW_DONE : Fld := ⟨TB_EVT, 1, 1⟩
def TB_EVT.HOLDOVER : Fld := ⟨TB_EVT, 2, 1⟩
def TB_EVT.HO_EXPIRED : Fld := ⟨TB_EVT, 3, 1⟩
def TB_EVT.SRC_CHANGE : Fld := ⟨TB_EVT, 4, 1⟩
def TB_EVT.COARSE : Fld := ⟨TB_EVT, 5, 1⟩
def TB_EVT.ADJ_IGN : Fld := ⟨TB_EVT, 6, 1⟩
def TB_EVT.PPS_REJ : Fld := ⟨TB_EVT, 7, 1⟩
def TB_EVT.CAL_ERR : Fld := ⟨TB_EVT, 8, 1⟩
def TB_EVT.LEAP_DONE : Fld := ⟨TB_EVT, 9, 1⟩
def TB_EVT.TSI_DROP : Fld := ⟨TB_EVT, 10, 1⟩
def TB_EVT.TPO_MISSED : Fld := ⟨TB_EVT, 11, 1⟩
def TB_EVT.TPO_CUT : Fld := ⟨TB_EVT, 12, 1⟩
def TB_EVT.ALARM : Fld := ⟨TB_EVT, 16, 4⟩
/-- TB_EVT_EN: R302. -/
def TB_EVT_EN : Nat := 0x40008
def TB_EVT_EN.STEP : Fld := ⟨TB_EVT_EN, 0, 1⟩
def TB_EVT_EN.SLEW_DONE : Fld := ⟨TB_EVT_EN, 1, 1⟩
def TB_EVT_EN.HOLDOVER : Fld := ⟨TB_EVT_EN, 2, 1⟩
def TB_EVT_EN.HO_EXPIRED : Fld := ⟨TB_EVT_EN, 3, 1⟩
def TB_EVT_EN.SRC_CHANGE : Fld := ⟨TB_EVT_EN, 4, 1⟩
def TB_EVT_EN.COARSE : Fld := ⟨TB_EVT_EN, 5, 1⟩
def TB_EVT_EN.ADJ_IGN : Fld := ⟨TB_EVT_EN, 6, 1⟩
def TB_EVT_EN.PPS_REJ : Fld := ⟨TB_EVT_EN, 7, 1⟩
def TB_EVT_EN.CAL_ERR : Fld := ⟨TB_EVT_EN, 8, 1⟩
def TB_EVT_EN.LEAP_DONE : Fld := ⟨TB_EVT_EN, 9, 1⟩
def TB_EVT_EN.TSI_DROP : Fld := ⟨TB_EVT_EN, 10, 1⟩
def TB_EVT_EN.TPO_MISSED : Fld := ⟨TB_EVT_EN, 11, 1⟩
def TB_EVT_EN.TPO_CUT : Fld := ⟨TB_EVT_EN, 12, 1⟩
def TB_EVT_EN.ALARM : Fld := ⟨TB_EVT_EN, 16, 4⟩
/-- TB_TIME_NS: R301. -/
def TB_TIME_NS : Nat := 0x40010
def TB_TIME_NS.NS : Fld := ⟨TB_TIME_NS, 0, 32⟩
/-- TB_TIME_SL: R301. -/
def TB_TIME_SL : Nat := 0x40014
def TB_TIME_SL.SEC_LO : Fld := ⟨TB_TIME_SL, 0, 32⟩
/-- TB_TIME_SH: R301. -/
def TB_TIME_SH : Nat := 0x40018
def TB_TIME_SH.SEC_HI : Fld := ⟨TB_TIME_SH, 0, 16⟩
def TB_TIME_SH.STEP_SEQ : Fld := ⟨TB_TIME_SH, 16, 8⟩
/-- TB_ADDEND: R301. -/
def TB_ADDEND : Nat := 0x4001C
def TB_ADDEND.A : Fld := ⟨TB_ADDEND, 0, 32⟩
/-- TB_SLEW: R301. -/
def TB_SLEW : Nat := 0x40020
def TB_SLEW.RATE_PPB : Fld := ⟨TB_SLEW, 0, 17⟩
/-- TB_SLEW_REM: R301. -/
def TB_SLEW_REM : Nat := 0x40024
def TB_SLEW_REM.REM_NS : Fld := ⟨TB_SLEW_REM, 0, 32⟩
/-- TB_STEP_NS: R301. -/
def TB_STEP_NS : Nat := 0x40028
def TB_STEP_NS.NS : Fld := ⟨TB_STEP_NS, 0, 32⟩
/-- TB_STEP_SL: R301. -/
def TB_STEP_SL : Nat := 0x4002C
def TB_STEP_SL.SEC_LO : Fld := ⟨TB_STEP_SL, 0, 32⟩
/-- TB_STEP_SH: R301. -/
def TB_STEP_SH : Nat := 0x40030
def TB_STEP_SH.SEC_HI : Fld := ⟨TB_STEP_SH, 0, 16⟩
def TB_STEP_SH.PEND : Fld := ⟨TB_STEP_SH, 31, 1⟩
/-- TB_SRCCFG: R303. -/
def TB_SRCCFG : Nat := 0x40040
def TB_SRCCFG.PRIO : Fld := ⟨TB_SRCCFG, 0, 16⟩
def TB_SRCCFG.ENG : Fld := ⟨TB_SRCCFG, 16, 6⟩
def TB_SRCCFG.PPS_TSI : Fld := ⟨TB_SRCCFG, 24, 3⟩
def TB_SRCCFG.HOLDOFF_S : Fld := ⟨TB_SRCCFG, 28, 4⟩
/-- TB_SRCTMO: R303. -/
def TB_SRCTMO : Nat := 0x40044
def TB_SRCTMO.HOST_MS : Fld := ⟨TB_SRCTMO, 0, 16⟩
def TB_SRCTMO.ENG_MS : Fld := ⟨TB_SRCTMO, 16, 16⟩
/-- TB_SRCSTAT: R303. -/
def TB_SRCSTAT : Nat := 0x40048
def TB_SRCSTAT.VALID : Fld := ⟨TB_SRCSTAT, 0, 4⟩
def TB_SRCSTAT.PPS_SAMPLES : Fld := ⟨TB_SRCSTAT, 4, 4⟩
/-- TB_HOLDOVER: R303. -/
def TB_HOLDOVER : Nat := 0x4004C
def TB_HOLDOVER.LIMIT_S : Fld := ⟨TB_HOLDOVER, 0, 24⟩
/-- TB_HO_ADDEND: R303. -/
def TB_HO_ADDEND : Nat := 0x40050
def TB_HO_ADDEND.A_HO : Fld := ⟨TB_HO_ADDEND, 0, 32⟩
/-- TB_HO_AGE: R303. -/
def TB_HO_AGE : Nat := 0x40054
def TB_HO_AGE.AGE_S : Fld := ⟨TB_HO_AGE, 0, 32⟩
/-- TB_MONCAL: R303. -/
def TB_MONCAL : Nat := 0x40058
def TB_MONCAL.PERIOD : Fld := ⟨TB_MONCAL, 0, 32⟩
/-- TB_PPS: R303. -/
def TB_PPS : Nat := 0x4005C
def TB_PPS.TOL_NS : Fld := ⟨TB_PPS, 0, 24⟩
/-- TB_HADJ_RATE: R304. -/
def TB_HADJ_RATE : Nat := 0x40060
def TB_HADJ_RATE.A : Fld := ⟨TB_HADJ_RATE, 0, 32⟩
/-- TB_HADJ_OFF_LO: R304. -/
def TB_HADJ_OFF_LO : Nat := 0x40064
def TB_HADJ_OFF_LO.OFF_LO : Fld := ⟨TB_HADJ_OFF_LO, 0, 32⟩
/-- TB_HADJ_OFF_HI: R304. -/
def TB_HADJ_OFF_HI : Nat := 0x40068
def TB_HADJ_OFF_HI.OFF_HI : Fld := ⟨TB_HADJ_OFF_HI, 0, 32⟩
/-- TB_HADJ_CMD: R304. -/
def TB_HADJ_CMD : Nat := 0x4006C
def TB_HADJ_CMD.RATE : Fld := ⟨TB_HADJ_CMD, 0, 1⟩
def TB_HADJ_CMD.OFFSET : Fld := ⟨TB_HADJ_CMD, 1, 1⟩
def TB_HADJ_CMD.ADD : Fld := ⟨TB_HADJ_CMD, 2, 1⟩
def TB_HADJ_CMD.SET : Fld := ⟨TB_HADJ_CMD, 3, 1⟩
def TB_HADJ_CMD.CANCEL : Fld := ⟨TB_HADJ_CMD, 4, 1⟩
/-- TB_SET_NS: R304. -/
def TB_SET_NS : Nat := 0x40070
def TB_SET_NS.NS : Fld := ⟨TB_SET_NS, 0, 32⟩
/-- TB_SET_SL: R304. -/
def TB_SET_SL : Nat := 0x40074
def TB_SET_SL.SEC_LO : Fld := ⟨TB_SET_SL, 0, 32⟩
/-- TB_SET_SH: R304. -/
def TB_SET_SH : Nat := 0x40078
def TB_SET_SH.SEC_HI : Fld := ⟨TB_SET_SH, 0, 16⟩
/-- TB_PPS_OFF: R303. -/
def TB_PPS_OFF : Nat := 0x40080
def TB_PPS_OFF.OFF_NS : Fld := ⟨TB_PPS_OFF, 0, 32⟩
/-- TB_PPS_ERR: R303. -/
def TB_PPS_ERR : Nat := 0x40084
def TB_PPS_ERR.ERR_PPB : Fld := ⟨TB_PPS_ERR, 0, 32⟩
/-- TB_UTC: R304. -/
def TB_UTC : Nat := 0x40090
def TB_UTC.UTC_OFFSET : Fld := ⟨TB_UTC, 0, 16⟩
def TB_UTC.LEAP_INS : Fld := ⟨TB_UTC, 16, 1⟩
def TB_UTC.LEAP_DEL : Fld := ⟨TB_UTC, 17, 1⟩
/-- CAL_DATE: R305. -/
def CAL_DATE : Nat := 0x400A0
def CAL_DATE.DAY : Fld := ⟨CAL_DATE, 0, 5⟩
def CAL_DATE.MONTH : Fld := ⟨CAL_DATE, 8, 4⟩
def CAL_DATE.WDAY : Fld := ⟨CAL_DATE, 12, 3⟩
def CAL_DATE.YEAR : Fld := ⟨CAL_DATE, 16, 12⟩
/-- CAL_TIME: R305. -/
def CAL_TIME : Nat := 0x400A4
def CAL_TIME.SECOND : Fld := ⟨CAL_TIME, 0, 6⟩
def CAL_TIME.MINUTE : Fld := ⟨CAL_TIME, 8, 6⟩
def CAL_TIME.HOUR : Fld := ⟨CAL_TIME, 16, 5⟩
/-- CAL_WDATE: R305. -/
def CAL_WDATE : Nat := 0x400A8
def CAL_WDATE.DAY : Fld := ⟨CAL_WDATE, 0, 5⟩
def CAL_WDATE.MONTH : Fld := ⟨CAL_WDATE, 8, 4⟩
def CAL_WDATE.WDAY : Fld := ⟨CAL_WDATE, 12, 3⟩
def CAL_WDATE.YEAR : Fld := ⟨CAL_WDATE, 16, 12⟩
/-- CAL_WTIME: R305. -/
def CAL_WTIME : Nat := 0x400AC
def CAL_WTIME.SECOND : Fld := ⟨CAL_WTIME, 0, 6⟩
def CAL_WTIME.MINUTE : Fld := ⟨CAL_WTIME, 8, 6⟩
def CAL_WTIME.HOUR : Fld := ⟨CAL_WTIME, 16, 5⟩
/-- CAL_STAT: R305. -/
def CAL_STAT : Nat := 0x400B0
def CAL_STAT.RANGE : Fld := ⟨CAL_STAT, 0, 1⟩
def CAL_STAT.ERR_FIELD : Fld := ⟨CAL_STAT, 4, 3⟩
/-- ALM_NS: R305. -/
def ALM_NS (i : Nat) : Nat := 0x400C0 + 16 * i
def ALM_NS.NS (i : Nat) : Fld := ⟨ALM_NS i, 0, 32⟩
/-- ALM_SL: R305. -/
def ALM_SL (i : Nat) : Nat := 0x400C4 + 16 * i
def ALM_SL.SEC_LO (i : Nat) : Fld := ⟨ALM_SL i, 0, 32⟩
/-- ALM_SH: R305. -/
def ALM_SH (i : Nat) : Nat := 0x400C8 + 16 * i
def ALM_SH.SEC_HI (i : Nat) : Fld := ⟨ALM_SH i, 0, 16⟩
def ALM_SH.FIRED (i : Nat) : Fld := ⟨ALM_SH i, 30, 1⟩
def ALM_SH.ARM (i : Nat) : Fld := ⟨ALM_SH i, 31, 1⟩
/-- TB_CNT_STEP: R308. -/
def TB_CNT_STEP : Nat := 0x40100
/-- TB_CNT_SRCSW: R308. -/
def TB_CNT_SRCSW : Nat := 0x40104
/-- TB_CNT_ADJIGN: R308. -/
def TB_CNT_ADJIGN : Nat := 0x40108
/-- TB_CNT_PPSREJ: R308. -/
def TB_CNT_PPSREJ : Nat := 0x4010C
/-- TB_CNT_TPOSUP: R308. -/
def TB_CNT_TPOSUP : Nat := 0x40110
/-- TB_CNT_TPOCUT: R308. -/
def TB_CNT_TPOCUT : Nat := 0x40114
/-- TB_CNT_TPOMISS: R308. -/
def TB_CNT_TPOMISS : Nat := 0x40118
/-- TSI_CFG: R306. -/
def TSI_CFG (i : Nat) : Nat := 0x40200 + 32 * i
def TSI_CFG.EN (i : Nat) : Fld := ⟨TSI_CFG i, 0, 1⟩
def TSI_CFG.EDGE (i : Nat) : Fld := ⟨TSI_CFG i, 1, 2⟩
def TSI_CFG.FILT (i : Nat) : Fld := ⟨TSI_CFG i, 4, 4⟩
def TSI_CFG.DCOMP (i : Nat) : Fld := ⟨TSI_CFG i, 16, 16⟩
/-- TSI_Q: R306. -/
def TSI_Q (i : Nat) : Nat := 0x40204 + 32 * i
def TSI_Q.QID (i : Nat) : Fld := ⟨TSI_Q i, 0, 16⟩
def TSI_Q.ABSENT (i : Nat) : Fld := ⟨TSI_Q i, 30, 1⟩
def TSI_Q.BIND_EN (i : Nat) : Fld := ⟨TSI_Q i, 31, 1⟩
/-- TSI_NS: R306. -/
def TSI_NS (i : Nat) : Nat := 0x40208 + 32 * i
def TSI_NS.NS (i : Nat) : Fld := ⟨TSI_NS i, 0, 32⟩
/-- TSI_SL: R306. -/
def TSI_SL (i : Nat) : Nat := 0x4020C + 32 * i
def TSI_SL.SEC_LO (i : Nat) : Fld := ⟨TSI_SL i, 0, 32⟩
/-- TSI_SH: R306. -/
def TSI_SH (i : Nat) : Nat := 0x40210 + 32 * i
def TSI_SH.SEC_HI (i : Nat) : Fld := ⟨TSI_SH i, 0, 16⟩
def TSI_SH.FALL (i : Nat) : Fld := ⟨TSI_SH i, 16, 1⟩
def TSI_SH.SEQ (i : Nat) : Fld := ⟨TSI_SH i, 24, 8⟩
/-- TSI_CNT_STAMP: R306. -/
def TSI_CNT_STAMP (i : Nat) : Nat := 0x40214 + 32 * i
/-- TSI_CNT_MISS: R306. -/
def TSI_CNT_MISS (i : Nat) : Nat := 0x40218 + 32 * i
/-- TSI_CNT_DROP: R306. -/
def TSI_CNT_DROP (i : Nat) : Nat := 0x4021C + 32 * i
/-- TPO_CFG: R307. -/
def TPO_CFG (i : Nat) : Nat := 0x40300 + 32 * i
def TPO_CFG.MODE (i : Nat) : Fld := ⟨TPO_CFG i, 0, 3⟩
def TPO_CFG.POL (i : Nat) : Fld := ⟨TPO_CFG i, 3, 1⟩
def TPO_CFG.LEVEL (i : Nat) : Fld := ⟨TPO_CFG i, 4, 1⟩
def TPO_CFG.COMP (i : Nat) : Fld := ⟨TPO_CFG i, 8, 8⟩
/-- TPO_START_NS: R307. -/
def TPO_START_NS (i : Nat) : Nat := 0x40304 + 32 * i
def TPO_START_NS.NS (i : Nat) : Fld := ⟨TPO_START_NS i, 0, 32⟩
/-- TPO_START_SL: R307. -/
def TPO_START_SL (i : Nat) : Nat := 0x40308 + 32 * i
def TPO_START_SL.SEC_LO (i : Nat) : Fld := ⟨TPO_START_SL i, 0, 32⟩
/-- TPO_START_SH: R307. -/
def TPO_START_SH (i : Nat) : Nat := 0x4030C + 32 * i
def TPO_START_SH.SEC_HI (i : Nat) : Fld := ⟨TPO_START_SH i, 0, 16⟩
/-- TPO_PERIOD: R307. -/
def TPO_PERIOD (i : Nat) : Nat := 0x40310 + 32 * i
def TPO_PERIOD.PERIOD (i : Nat) : Fld := ⟨TPO_PERIOD i, 0, 32⟩
/-- TPO_WIDTH: R307. -/
def TPO_WIDTH (i : Nat) : Nat := 0x40314 + 32 * i
def TPO_WIDTH.WIDTH (i : Nat) : Fld := ⟨TPO_WIDTH i, 0, 32⟩
/-- TPO_STAT: R307. -/
def TPO_STAT (i : Nat) : Nat := 0x40318 + 32 * i
def TPO_STAT.RUNNING (i : Nat) : Fld := ⟨TPO_STAT i, 0, 1⟩
def TPO_STAT.APPLY_PEND (i : Nat) : Fld := ⟨TPO_STAT i, 1, 1⟩
def TPO_STAT.OUT (i : Nat) : Fld := ⟨TPO_STAT i, 2, 1⟩
/-- TPO_CTRL: R307. -/
def TPO_CTRL (i : Nat) : Nat := 0x4031C + 32 * i
def TPO_CTRL.APPLY (i : Nat) : Fld := ⟨TPO_CTRL i, 0, 1⟩

/-! ### Memory (0x0005_0000) -/
/-- MEM_CFG: R660. -/
def MEM_CFG : Nat := 0x50000
def MEM_CFG.ILV : Fld := ⟨MEM_CFG, 0, 2⟩
def MEM_CFG.SCRUB_MS : Fld := ⟨MEM_CFG, 16, 16⟩
/-- MEM_STAT: R660. -/
def MEM_STAT : Nat := 0x50004
def MEM_STAT.ILV_ACT : Fld := ⟨MEM_STAT, 0, 2⟩
def MEM_STAT.REPAIRS : Fld := ⟨MEM_STAT, 8, 6⟩
def MEM_STAT.REP_DUP : Fld := ⟨MEM_STAT, 14, 1⟩
def MEM_STAT.SCRUBBING : Fld := ⟨MEM_STAT, 15, 1⟩
/-- MEM_EVT: R661. -/
def MEM_EVT : Nat := 0x50008
def MEM_EVT.CE : Fld := ⟨MEM_EVT, 0, 1⟩
def MEM_EVT.UE : Fld := ⟨MEM_EVT, 1, 1⟩
def MEM_EVT.BANK_BUSY : Fld := ⟨MEM_EVT, 2, 1⟩
def MEM_EVT.ILV_REFUSED : Fld := ⟨MEM_EVT, 3, 1⟩
def MEM_EVT.DDR_FAIL : Fld := ⟨MEM_EVT, 4, 1⟩
/-- MEM_EVT_EN: R661. -/
def MEM_EVT_EN : Nat := 0x5000C
def MEM_EVT_EN.CE : Fld := ⟨MEM_EVT_EN, 0, 1⟩
def MEM_EVT_EN.UE : Fld := ⟨MEM_EVT_EN, 1, 1⟩
def MEM_EVT_EN.BANK_BUSY : Fld := ⟨MEM_EVT_EN, 2, 1⟩
def MEM_EVT_EN.ILV_REFUSED : Fld := ⟨MEM_EVT_EN, 3, 1⟩
def MEM_EVT_EN.DDR_FAIL : Fld := ⟨MEM_EVT_EN, 4, 1⟩
/-- MEM_BANK: R660. -/
def MEM_BANK (i : Nat) : Nat := 0x50010 + 4 * i
def MEM_BANK.STATE (i : Nat) : Fld := ⟨MEM_BANK i, 0, 32⟩
/-- MEM_BSTAT: R660. -/
def MEM_BSTAT (i : Nat) : Nat := 0x50020 + 4 * i
def MEM_BSTAT.STATE (i : Nat) : Fld := ⟨MEM_BSTAT i, 0, 32⟩
/-- MEM_STILL_LO: R660. -/
def MEM_STILL_LO : Nat := 0x50030
def MEM_STILL_LO.OFF : Fld := ⟨MEM_STILL_LO, 0, 32⟩
/-- MEM_STILL_HI: R660. -/
def MEM_STILL_HI : Nat := 0x50034
def MEM_STILL_HI.OFF : Fld := ⟨MEM_STILL_HI, 0, 32⟩
/-- MEM_BUSY_LO: R660. -/
def MEM_BUSY_LO : Nat := 0x50038
def MEM_BUSY_LO.BUSY : Fld := ⟨MEM_BUSY_LO, 0, 32⟩
/-- MEM_BUSY_HI: R660. -/
def MEM_BUSY_HI : Nat := 0x5003C
def MEM_BUSY_HI.BUSY : Fld := ⟨MEM_BUSY_HI, 0, 32⟩
/-- MEM_UE_INFO: R662. -/
def MEM_UE_INFO : Nat := 0x50040
def MEM_UE_INFO.MEM : Fld := ⟨MEM_UE_INFO, 0, 3⟩
def MEM_UE_INFO.BANK : Fld := ⟨MEM_UE_INFO, 8, 6⟩
def MEM_UE_INFO.MASTER : Fld := ⟨MEM_UE_INFO, 16, 4⟩
/-- MEM_UE_ADDR: R662. -/
def MEM_UE_ADDR : Nat := 0x50044
def MEM_UE_ADDR.ADDR : Fld := ⟨MEM_UE_ADDR, 0, 32⟩
/-- MEM_INJ: R662. -/
def MEM_INJ : Nat := 0x50048
def MEM_INJ.TARGET : Fld := ⟨MEM_INJ, 0, 2⟩
def MEM_INJ.DOUBLE : Fld := ⟨MEM_INJ, 2, 1⟩
def MEM_INJ.ARM : Fld := ⟨MEM_INJ, 3, 1⟩
/-- MEM_WIN_ADDR: R662. -/
def MEM_WIN_ADDR : Nat := 0x50050
def MEM_WIN_ADDR.ADDR : Fld := ⟨MEM_WIN_ADDR, 2, 23⟩
def MEM_WIN_ADDR.NOT_ON : Fld := ⟨MEM_WIN_ADDR, 29, 1⟩
def MEM_WIN_ADDR.CE : Fld := ⟨MEM_WIN_ADDR, 30, 1⟩
def MEM_WIN_ADDR.UE : Fld := ⟨MEM_WIN_ADDR, 31, 1⟩
/-- MEM_WIN_DATA: R662. -/
def MEM_WIN_DATA : Nat := 0x50054
def MEM_WIN_DATA.DATA : Fld := ⟨MEM_WIN_DATA, 0, 32⟩
/-- MEM_CNT_CE: R663. -/
def MEM_CNT_CE : Nat := 0x50060
/-- MEM_CNT_UE: R663. -/
def MEM_CNT_UE : Nat := 0x50064
/-- MEM_CNT_BUSY: R663. -/
def MEM_CNT_BUSY : Nat := 0x50068
/-- MEM_CONF: R663. -/
def MEM_CONF (i : Nat) : Nat := 0x50080 + 4 * i
def MEM_CONF.COUNT (i : Nat) : Fld := ⟨MEM_CONF i, 0, 32⟩
/-- DDR_CFG: R664. -/
def DDR_CFG (i : Nat) : Nat := 0x50100 + 128 * i
def DDR_CFG.EN (i : Nat) : Fld := ⟨DDR_CFG i, 0, 1⟩
def DDR_CFG.WIDTH (i : Nat) : Fld := ⟨DDR_CFG i, 1, 1⟩
def DDR_CFG.DENSITY (i : Nat) : Fld := ⟨DDR_CFG i, 2, 2⟩
def DDR_CFG.RANKS (i : Nat) : Fld := ⟨DDR_CFG i, 4, 1⟩
def DDR_CFG.ZERO (i : Nat) : Fld := ⟨DDR_CFG i, 5, 1⟩
/-- DDR_CTRL: R664. -/
def DDR_CTRL (i : Nat) : Nat := 0x50104 + 128 * i
def DDR_CTRL.INIT (i : Nat) : Fld := ⟨DDR_CTRL i, 0, 1⟩
/-- DDR_STAT: R664. -/
def DDR_STAT (i : Nat) : Nat := 0x50108 + 128 * i
def DDR_STAT.STATE (i : Nat) : Fld := ⟨DDR_STAT i, 0, 3⟩
def DDR_STAT.ZEROED (i : Nat) : Fld := ⟨DDR_STAT i, 3, 1⟩
def DDR_STAT.HOT (i : Nat) : Fld := ⟨DDR_STAT i, 4, 1⟩
def DDR_STAT.FAIL_STEP (i : Nat) : Fld := ⟨DDR_STAT i, 8, 4⟩
/-- DDR_SCRUB: R664. -/
def DDR_SCRUB (i : Nat) : Nat := 0x5010C + 128 * i
def DDR_SCRUB.EN (i : Nat) : Fld := ⟨DDR_SCRUB i, 0, 1⟩
def DDR_SCRUB.PERIOD_H (i : Nat) : Fld := ⟨DDR_SCRUB i, 8, 8⟩
/-- DDR_SIZE_LO: R664. -/
def DDR_SIZE_LO (i : Nat) : Nat := 0x50110 + 128 * i
def DDR_SIZE_LO.BYTES (i : Nat) : Fld := ⟨DDR_SIZE_LO i, 0, 32⟩
/-- DDR_SIZE_HI: R664. -/
def DDR_SIZE_HI (i : Nat) : Nat := 0x50114 + 128 * i
def DDR_SIZE_HI.BYTES (i : Nat) : Fld := ⟨DDR_SIZE_HI i, 0, 32⟩
/-- DDR_UE_ADDR_LO: R664. -/
def DDR_UE_ADDR_LO (i : Nat) : Nat := 0x50118 + 128 * i
def DDR_UE_ADDR_LO.ADDR (i : Nat) : Fld := ⟨DDR_UE_ADDR_LO i, 0, 32⟩
/-- DDR_UE_ADDR_HI: R664. -/
def DDR_UE_ADDR_HI (i : Nat) : Nat := 0x5011C + 128 * i
def DDR_UE_ADDR_HI.ADDR (i : Nat) : Fld := ⟨DDR_UE_ADDR_HI i, 0, 32⟩
/-- DDR_CNT_CE: R664. -/
def DDR_CNT_CE (i : Nat) : Nat := 0x50120 + 128 * i
/-- DDR_CNT_UE: R664. -/
def DDR_CNT_UE (i : Nat) : Nat := 0x50124 + 128 * i
/-- DDR_CNT_TRAINFAIL: R664. -/
def DDR_CNT_TRAINFAIL (i : Nat) : Nat := 0x50128 + 128 * i

/-! ### Event log (0x0006_0000) -/
/-- EL_CFG: R563. -/
def EL_CFG : Nat := 0x60040
def EL_CFG.FWD : Fld := ⟨EL_CFG, 0, 1⟩
def EL_CFG.AUTO_REL : Fld := ⟨EL_CFG, 1, 2⟩
/-- EL_STAT: R563. -/
def EL_STAT : Nat := 0x60044
def EL_STAT.CAP : Fld := ⟨EL_STAT, 0, 21⟩
def EL_STAT.XACT : Fld := ⟨EL_STAT, 21, 1⟩
def EL_STAT.FWD_LVL : Fld := ⟨EL_STAT, 22, 9⟩
/-- EL_EVT: R564. -/
def EL_EVT : Nat := 0x60048
def EL_EVT.LOST : Fld := ⟨EL_EVT, 0, 1⟩
def EL_EVT.STORM : Fld := ⟨EL_EVT, 1, 1⟩
def EL_EVT.FWD_SUPP : Fld := ⟨EL_EVT, 2, 1⟩
def EL_EVT.RESET : Fld := ⟨EL_EVT, 3, 1⟩
def EL_EVT.XCLIP : Fld := ⟨EL_EVT, 4, 1⟩
/-- EL_EVT_EN: R564. -/
def EL_EVT_EN : Nat := 0x6004C
def EL_EVT_EN.LOST : Fld := ⟨EL_EVT_EN, 0, 1⟩
def EL_EVT_EN.STORM : Fld := ⟨EL_EVT_EN, 1, 1⟩
def EL_EVT_EN.FWD_SUPP : Fld := ⟨EL_EVT_EN, 2, 1⟩
def EL_EVT_EN.RESET : Fld := ⟨EL_EVT_EN, 3, 1⟩
def EL_EVT_EN.XCLIP : Fld := ⟨EL_EVT_EN, 4, 1⟩
/-- EL_WMARK: R563. -/
def EL_WMARK : Nat := 0x60050
def EL_WMARK.RECS : Fld := ⟨EL_WMARK, 0, 21⟩
/-- EL_XCFG: R563. -/
def EL_XCFG : Nat := 0x60054
def EL_XCFG.EN : Fld := ⟨EL_XCFG, 0, 1⟩
def EL_XCFG.CH : Fld := ⟨EL_XCFG, 1, 1⟩
/-- EL_XBASE_LO: R563. -/
def EL_XBASE_LO : Nat := 0x60058
def EL_XBASE_LO.BASE : Fld := ⟨EL_XBASE_LO, 0, 32⟩
/-- EL_XBASE_HI: R563. -/
def EL_XBASE_HI : Nat := 0x6005C
def EL_XBASE_HI.BASE : Fld := ⟨EL_XBASE_HI, 0, 32⟩
/-- EL_XRECS: R563. -/
def EL_XRECS : Nat := 0x60060
def EL_XRECS.RECS : Fld := ⟨EL_XRECS, 0, 21⟩
/-- EL_CNT_REC: R565. -/
def EL_CNT_REC : Nat := 0x60080
/-- EL_CNT_SUMM: R565. -/
def EL_CNT_SUMM : Nat := 0x60084
/-- EL_CNT_FWD: R565. -/
def EL_CNT_FWD : Nat := 0x60088
/-- EL_CNT_FWDSUP: R565. -/
def EL_CNT_FWDSUP : Nat := 0x6008C
/-- EL_CNT_RXFWD: R565. -/
def EL_CNT_RXFWD : Nat := 0x60090
/-- EL_CLS_CFG: R563. -/
def EL_CLS_CFG (i : Nat) : Nat := 0x60100 + 4 * i
def EL_CLS_CFG.RATE (i : Nat) : Fld := ⟨EL_CLS_CFG i, 0, 16⟩
def EL_CLS_CFG.BURST (i : Nat) : Fld := ⟨EL_CLS_CFG i, 16, 16⟩
/-- EL_CLS_SUP: R563. -/
def EL_CLS_SUP (i : Nat) : Nat := 0x60140 + 4 * i
def EL_CLS_SUP.COUNT (i : Nat) : Fld := ⟨EL_CLS_SUP i, 0, 32⟩

/-! ### Conservation ledger (0x0007_0000) -/
/-- LG_CTRL: R267. -/
def LG_CTRL : Nat := 0x70000
def LG_CTRL.SNAP : Fld := ⟨LG_CTRL, 0, 1⟩
def LG_CTRL.RECOUNT : Fld := ⟨LG_CTRL, 1, 1⟩
/-- LG_STAT: R267. -/
def LG_STAT : Nat := 0x70004
def LG_STAT.SWEEPING : Fld := ⟨LG_STAT, 0, 1⟩
def LG_STAT.RECLAIMING : Fld := ⟨LG_STAT, 1, 1⟩
/-- LG_EVT: R268. -/
def LG_EVT : Nat := 0x70008
def LG_EVT.FAULT : Fld := ⟨LG_EVT, 0, 7⟩
def LG_EVT.RECOUNT_DONE : Fld := ⟨LG_EVT, 7, 1⟩
def LG_EVT.BOUNCE : Fld := ⟨LG_EVT, 8, 1⟩
def LG_EVT.STALL : Fld := ⟨LG_EVT, 9, 1⟩
/-- LG_EVT_EN: R268. -/
def LG_EVT_EN : Nat := 0x7000C
def LG_EVT_EN.FAULT : Fld := ⟨LG_EVT_EN, 0, 7⟩
def LG_EVT_EN.RECOUNT_DONE : Fld := ⟨LG_EVT_EN, 7, 1⟩
def LG_EVT_EN.BOUNCE : Fld := ⟨LG_EVT_EN, 8, 1⟩
def LG_EVT_EN.STALL : Fld := ⟨LG_EVT_EN, 9, 1⟩
/-- LG_FAULT0: R267. -/
def LG_FAULT0 : Nat := 0x70010
def LG_FAULT0.CLASS : Fld := ⟨LG_FAULT0, 0, 4⟩
def LG_FAULT0.OBJECT : Fld := ⟨LG_FAULT0, 16, 16⟩
/-- LG_FAULT1: R267. -/
def LG_FAULT1 : Nat := 0x70014
def LG_FAULT1.DELTA : Fld := ⟨LG_FAULT1, 0, 32⟩
/-- LG_E_TOTAL: R269. -/
def LG_E_TOTAL : Nat := 0x70020
/-- LG_E_FREE: R269. -/
def LG_E_FREE : Nat := 0x70024
/-- LG_E_HELD: R269. -/
def LG_E_HELD : Nat := 0x70028
/-- LG_E_FLIGHT: R269. -/
def LG_E_FLIGHT : Nat := 0x7002C
/-- LG_E_RECLAIM: R269. -/
def LG_E_RECLAIM : Nat := 0x70030
/-- LG_E_RESFREE: R269. -/
def LG_E_RESFREE : Nat := 0x70034
/-- LG_O_TOTAL: R269. -/
def LG_O_TOTAL : Nat := 0x70040
/-- LG_O_FREE: R269. -/
def LG_O_FREE : Nat := 0x70044
/-- LG_O_HELD: R269. -/
def LG_O_HELD : Nat := 0x70048
/-- LG_O_FLIGHT: R269. -/
def LG_O_FLIGHT : Nat := 0x7004C
/-- LG_O_RECLAIM: R269. -/
def LG_O_RECLAIM : Nat := 0x70050
/-- LG_O_RESFREE: R269. -/
def LG_O_RESFREE : Nat := 0x70054
/-- LG_TAG_OUT: R269. -/
def LG_TAG_OUT : Nat := 0x70060
/-- LG_TAG_ISS_LO: R269. -/
def LG_TAG_ISS_LO : Nat := 0x70068
/-- LG_TAG_ISS_HI: R269. -/
def LG_TAG_ISS_HI : Nat := 0x7006C
/-- LG_TAG_CMP_LO: R269. -/
def LG_TAG_CMP_LO : Nat := 0x70070
/-- LG_TAG_CMP_HI: R269. -/
def LG_TAG_CMP_HI : Nat := 0x70074
/-- LG_CNT_FAULT: R270. -/
def LG_CNT_FAULT : Nat := 0x70080
/-- LG_CNT_RECLAIM: R270. -/
def LG_CNT_RECLAIM : Nat := 0x70084
/-- LG_CNT_BOUNCE: R270. -/
def LG_CNT_BOUNCE : Nat := 0x70088
/-- LG_CNT_STALL: R270. -/
def LG_CNT_STALL : Nat := 0x7008C

/-! ### Serial line (0x0008_0000 + n × 0x1000) -/
/-- SP_CTRL: R73. -/
def SP_CTRL (n : Nat) : Nat := 0x80000 + 0x1000 * n
def SP_CTRL.RX_EN (n : Nat) : Fld := ⟨SP_CTRL n, 0, 1⟩
def SP_CTRL.TX_EN (n : Nat) : Fld := ⟨SP_CTRL n, 1, 1⟩
def SP_CTRL.TX_PAUSE (n : Nat) : Fld := ⟨SP_CTRL n, 2, 1⟩
def SP_CTRL.LOOPBACK (n : Nat) : Fld := ⟨SP_CTRL n, 3, 1⟩
def SP_CTRL.COLL_RESUME (n : Nat) : Fld := ⟨SP_CTRL n, 8, 1⟩
/-- SP_FRAME: R74. -/
def SP_FRAME (n : Nat) : Nat := 0x80004 + 0x1000 * n
def SP_FRAME.DATA_BITS (n : Nat) : Fld := ⟨SP_FRAME n, 0, 4⟩
def SP_FRAME.PARITY (n : Nat) : Fld := ⟨SP_FRAME n, 4, 3⟩
def SP_FRAME.STOP (n : Nat) : Fld := ⟨SP_FRAME n, 8, 2⟩
def SP_FRAME.MSB_FIRST (n : Nat) : Fld := ⟨SP_FRAME n, 10, 1⟩
/-- SP_LINE: R75. -/
def SP_LINE (n : Nat) : Nat := 0x80008 + 0x1000 * n
def SP_LINE.LINE_MODE (n : Nat) : Fld := ⟨SP_LINE n, 0, 2⟩
def SP_LINE.RE_MODE (n : Nat) : Fld := ⟨SP_LINE n, 2, 2⟩
def SP_LINE.INV_RXD (n : Nat) : Fld := ⟨SP_LINE n, 4, 1⟩
def SP_LINE.INV_TXD (n : Nat) : Fld := ⟨SP_LINE n, 5, 1⟩
def SP_LINE.INV_RTS (n : Nat) : Fld := ⟨SP_LINE n, 6, 1⟩
def SP_LINE.INV_CTS (n : Nat) : Fld := ⟨SP_LINE n, 7, 1⟩
def SP_LINE.INV_DE (n : Nat) : Fld := ⟨SP_LINE n, 8, 1⟩
def SP_LINE.INV_RE (n : Nat) : Fld := ⟨SP_LINE n, 9, 1⟩
def SP_LINE.RX_FILT (n : Nat) : Fld := ⟨SP_LINE n, 12, 4⟩
def SP_LINE.RXMASK (n : Nat) : Fld := ⟨SP_LINE n, 16, 12⟩
/-- SP_BAUD: R76. -/
def SP_BAUD (n : Nat) : Nat := 0x8000C + 0x1000 * n
def SP_BAUD.DIV (n : Nat) : Fld := ⟨SP_BAUD n, 0, 32⟩
/-- SP_BAUDCFG: R76. -/
def SP_BAUDCFG (n : Nat) : Nat := 0x80010 + 0x1000 * n
def SP_BAUDCFG.OSR (n : Nat) : Fld := ⟨SP_BAUDCFG n, 0, 2⟩
def SP_BAUDCFG.PRE (n : Nat) : Fld := ⟨SP_BAUDCFG n, 4, 2⟩
/-- SP_BAUD_ACT: R76. -/
def SP_BAUD_ACT (n : Nat) : Nat := 0x80014 + 0x1000 * n
def SP_BAUD_ACT.DIV_ACT (n : Nat) : Fld := ⟨SP_BAUD_ACT n, 0, 32⟩
/-- SP_AUTOBAUD: R77. -/
def SP_AUTOBAUD (n : Nat) : Nat := 0x80018 + 0x1000 * n
def SP_AUTOBAUD.AB_EN (n : Nat) : Fld := ⟨SP_AUTOBAUD n, 0, 1⟩
def SP_AUTOBAUD.AB_APPLY (n : Nat) : Fld := ⟨SP_AUTOBAUD n, 1, 1⟩
def SP_AUTOBAUD.PRE_MEAS (n : Nat) : Fld := ⟨SP_AUTOBAUD n, 4, 2⟩
/-- SP_BAUD_MEAS: R77. -/
def SP_BAUD_MEAS (n : Nat) : Nat := 0x8001C + 0x1000 * n
def SP_BAUD_MEAS.DIV_MEAS (n : Nat) : Fld := ⟨SP_BAUD_MEAS n, 0, 32⟩
/-- SP_DE_PRE: R78. -/
def SP_DE_PRE (n : Nat) : Nat := 0x80020 + 0x1000 * n
def SP_DE_PRE.DE_PRE (n : Nat) : Fld := ⟨SP_DE_PRE n, 0, 24⟩
/-- SP_DE_POST: R78. -/
def SP_DE_POST (n : Nat) : Nat := 0x80024 + 0x1000 * n
def SP_DE_POST.DE_POST (n : Nat) : Fld := ⟨SP_DE_POST n, 0, 24⟩
/-- SP_FLOW: R79. -/
def SP_FLOW (n : Nat) : Nat := 0x80028 + 0x1000 * n
def SP_FLOW.CTS_EN (n : Nat) : Fld := ⟨SP_FLOW n, 0, 1⟩
def SP_FLOW.RTS_EN (n : Nat) : Fld := ⟨SP_FLOW n, 1, 1⟩
def SP_FLOW.XTX_EN (n : Nat) : Fld := ⟨SP_FLOW n, 2, 1⟩
def SP_FLOW.XRX_EN (n : Nat) : Fld := ⟨SP_FLOW n, 3, 1⟩
def SP_FLOW.XFILT (n : Nat) : Fld := ⟨SP_FLOW n, 4, 1⟩
def SP_FLOW.FC_BASIS (n : Nat) : Fld := ⟨SP_FLOW n, 5, 2⟩
def SP_FLOW.XON_CHAR (n : Nat) : Fld := ⟨SP_FLOW n, 16, 8⟩
def SP_FLOW.XOFF_CHAR (n : Nat) : Fld := ⟨SP_FLOW n, 24, 8⟩
/-- SP_FC_HI: R78. -/
def SP_FC_HI (n : Nat) : Nat := 0x8002C + 0x1000 * n
def SP_FC_HI.FC_HI (n : Nat) : Fld := ⟨SP_FC_HI n, 0, 32⟩
/-- SP_FC_LO: R78. -/
def SP_FC_LO (n : Nat) : Nat := 0x80030 + 0x1000 * n
def SP_FC_LO.FC_LO (n : Nat) : Fld := ⟨SP_FC_LO n, 0, 32⟩
/-- SP_ECHO: R80. -/
def SP_ECHO (n : Nat) : Nat := 0x80034 + 0x1000 * n
def SP_ECHO.ECHO_EN (n : Nat) : Fld := ⟨SP_ECHO n, 0, 1⟩
def SP_ECHO.COLL_ACTION (n : Nat) : Fld := ⟨SP_ECHO n, 1, 1⟩
def SP_ECHO.ECHO_WIN (n : Nat) : Fld := ⟨SP_ECHO n, 8, 12⟩
/-- SP_BREAK: R80. -/
def SP_BREAK (n : Nat) : Nat := 0x80038 + 0x1000 * n
def SP_BREAK.BRK_BITS (n : Nat) : Fld := ⟨SP_BREAK n, 0, 8⟩
def SP_BREAK.STUCK_MS (n : Nat) : Fld := ⟨SP_BREAK n, 8, 16⟩
/-- SP_STAT: R81. -/
def SP_STAT (n : Nat) : Nat := 0x8003C + 0x1000 * n
def SP_STAT.BAUD_SETTLING (n : Nat) : Fld := ⟨SP_STAT n, 0, 1⟩
def SP_STAT.WARMING (n : Nat) : Fld := ⟨SP_STAT n, 1, 1⟩
def SP_STAT.BAUD_CLAMP (n : Nat) : Fld := ⟨SP_STAT n, 2, 1⟩
def SP_STAT.LINE_STUCK (n : Nat) : Fld := ⟨SP_STAT n, 3, 1⟩
def SP_STAT.IN_BREAK (n : Nat) : Fld := ⟨SP_STAT n, 4, 1⟩
def SP_STAT.TX_IDLE (n : Nat) : Fld := ⟨SP_STAT n, 5, 1⟩
def SP_STAT.RX_IDLE (n : Nat) : Fld := ⟨SP_STAT n, 6, 1⟩
def SP_STAT.CTS_HOLD (n : Nat) : Fld := ⟨SP_STAT n, 7, 1⟩
def SP_STAT.XOFF_HOLD (n : Nat) : Fld := ⟨SP_STAT n, 8, 1⟩
def SP_STAT.XOFF_SENT (n : Nat) : Fld := ⟨SP_STAT n, 9, 1⟩
def SP_STAT.RTS_OFF (n : Nat) : Fld := ⟨SP_STAT n, 10, 1⟩
def SP_STAT.COLL_HELD (n : Nat) : Fld := ⟨SP_STAT n, 11, 1⟩
def SP_STAT.ECHO_BLIND (n : Nat) : Fld := ⟨SP_STAT n, 12, 1⟩
def SP_STAT.FC_IGNORED (n : Nat) : Fld := ⟨SP_STAT n, 13, 1⟩
def SP_STAT.HOLD_FULL (n : Nat) : Fld := ⟨SP_STAT n, 14, 1⟩
def SP_STAT.RX_HOLD_LVL (n : Nat) : Fld := ⟨SP_STAT n, 16, 4⟩
def SP_STAT.TX_PRE_LVL (n : Nat) : Fld := ⟨SP_STAT n, 20, 3⟩
def SP_STAT.OSR_ACT (n : Nat) : Fld := ⟨SP_STAT n, 28, 2⟩
def SP_STAT.PRE_ACT (n : Nat) : Fld := ⟨SP_STAT n, 30, 2⟩
/-- SP_EVT: R82. -/
def SP_EVT (n : Nat) : Nat := 0x80040 + 0x1000 * n
def SP_EVT.NOISE_SEEN (n : Nat) : Fld := ⟨SP_EVT n, 0, 1⟩
def SP_EVT.PERR_SEEN (n : Nat) : Fld := ⟨SP_EVT n, 1, 1⟩
def SP_EVT.FERR_SEEN (n : Nat) : Fld := ⟨SP_EVT n, 2, 1⟩
def SP_EVT.FALSE_START (n : Nat) : Fld := ⟨SP_EVT n, 3, 1⟩
def SP_EVT.BREAK_SEEN (n : Nat) : Fld := ⟨SP_EVT n, 4, 1⟩
def SP_EVT.STUCK (n : Nat) : Fld := ⟨SP_EVT n, 5, 1⟩
def SP_EVT.COLLISION (n : Nat) : Fld := ⟨SP_EVT n, 6, 1⟩
def SP_EVT.RX_DROP (n : Nat) : Fld := ⟨SP_EVT n, 7, 1⟩
def SP_EVT.SETTLE_MISS (n : Nat) : Fld := ⟨SP_EVT n, 8, 1⟩
def SP_EVT.AB_DONE (n : Nat) : Fld := ⟨SP_EVT n, 9, 1⟩
def SP_EVT.AB_FAIL (n : Nat) : Fld := ⟨SP_EVT n, 10, 1⟩
def SP_EVT.CLAMPED (n : Nat) : Fld := ⟨SP_EVT n, 11, 1⟩
def SP_EVT.TXBAD (n : Nat) : Fld := ⟨SP_EVT n, 12, 1⟩
def SP_EVT.TXCUT (n : Nat) : Fld := ⟨SP_EVT n, 13, 1⟩
/-- SP_EVT_EN: R82. -/
def SP_EVT_EN (n : Nat) : Nat := 0x80044 + 0x1000 * n
def SP_EVT_EN.NOISE_SEEN (n : Nat) : Fld := ⟨SP_EVT_EN n, 0, 1⟩
def SP_EVT_EN.PERR_SEEN (n : Nat) : Fld := ⟨SP_EVT_EN n, 1, 1⟩
def SP_EVT_EN.FERR_SEEN (n : Nat) : Fld := ⟨SP_EVT_EN n, 2, 1⟩
def SP_EVT_EN.FALSE_START (n : Nat) : Fld := ⟨SP_EVT_EN n, 3, 1⟩
def SP_EVT_EN.BREAK_SEEN (n : Nat) : Fld := ⟨SP_EVT_EN n, 4, 1⟩
def SP_EVT_EN.STUCK (n : Nat) : Fld := ⟨SP_EVT_EN n, 5, 1⟩
def SP_EVT_EN.COLLISION (n : Nat) : Fld := ⟨SP_EVT_EN n, 6, 1⟩
def SP_EVT_EN.RX_DROP (n : Nat) : Fld := ⟨SP_EVT_EN n, 7, 1⟩
def SP_EVT_EN.SETTLE_MISS (n : Nat) : Fld := ⟨SP_EVT_EN n, 8, 1⟩
def SP_EVT_EN.AB_DONE (n : Nat) : Fld := ⟨SP_EVT_EN n, 9, 1⟩
def SP_EVT_EN.AB_FAIL (n : Nat) : Fld := ⟨SP_EVT_EN n, 10, 1⟩
def SP_EVT_EN.CLAMPED (n : Nat) : Fld := ⟨SP_EVT_EN n, 11, 1⟩
def SP_EVT_EN.TXBAD (n : Nat) : Fld := ⟨SP_EVT_EN n, 12, 1⟩
def SP_EVT_EN.TXCUT (n : Nat) : Fld := ⟨SP_EVT_EN n, 13, 1⟩
/-- SP_TXSTAMP_NS: R83. -/
def SP_TXSTAMP_NS (n : Nat) : Nat := 0x80048 + 0x1000 * n
def SP_TXSTAMP_NS.NS (n : Nat) : Fld := ⟨SP_TXSTAMP_NS n, 0, 32⟩
/-- SP_TXSTAMP_SL: R83. -/
def SP_TXSTAMP_SL (n : Nat) : Nat := 0x8004C + 0x1000 * n
def SP_TXSTAMP_SL.SEC_LO (n : Nat) : Fld := ⟨SP_TXSTAMP_SL n, 0, 32⟩
/-- SP_TXSTAMP_SH: R83. -/
def SP_TXSTAMP_SH (n : Nat) : Nat := 0x80050 + 0x1000 * n
def SP_TXSTAMP_SH.SEC_HI (n : Nat) : Fld := ⟨SP_TXSTAMP_SH n, 0, 16⟩
def SP_TXSTAMP_SH.SEQ (n : Nat) : Fld := ⟨SP_TXSTAMP_SH n, 16, 8⟩
/-- SP_CNT_RXCHAR: R84. -/
def SP_CNT_RXCHAR (n : Nat) : Nat := 0x80060 + 0x1000 * n
/-- SP_CNT_TXCHAR: R84. -/
def SP_CNT_TXCHAR (n : Nat) : Nat := 0x80064 + 0x1000 * n
/-- SP_CNT_NOISE: R84. -/
def SP_CNT_NOISE (n : Nat) : Nat := 0x80068 + 0x1000 * n
/-- SP_CNT_PERR: R84. -/
def SP_CNT_PERR (n : Nat) : Nat := 0x8006C + 0x1000 * n
/-- SP_CNT_FERR: R84. -/
def SP_CNT_FERR (n : Nat) : Nat := 0x80070 + 0x1000 * n
/-- SP_CNT_FALSESTART: R84. -/
def SP_CNT_FALSESTART (n : Nat) : Nat := 0x80074 + 0x1000 * n
/-- SP_CNT_BREAK: R84. -/
def SP_CNT_BREAK (n : Nat) : Nat := 0x80078 + 0x1000 * n
/-- SP_CNT_COLL: R84. -/
def SP_CNT_COLL (n : Nat) : Nat := 0x8007C + 0x1000 * n
/-- SP_CNT_COLLDISC: R84. -/
def SP_CNT_COLLDISC (n : Nat) : Nat := 0x80080 + 0x1000 * n
/-- SP_CNT_RXDROP: R84. -/
def SP_CNT_RXDROP (n : Nat) : Nat := 0x80084 + 0x1000 * n
/-- SP_CNT_SETTLE_MISS: R84. -/
def SP_CNT_SETTLE_MISS (n : Nat) : Nat := 0x80088 + 0x1000 * n
/-- SP_CNT_TXBAD: R84. -/
def SP_CNT_TXBAD (n : Nat) : Nat := 0x8008C + 0x1000 * n
/-- SP_CNT_TXCUT: R84. -/
def SP_CNT_TXCUT (n : Nat) : Nat := 0x80090 + 0x1000 * n

/-! ### Serial addressing -/
/-- SP_ADDR: R113. -/
def SP_ADDR (n : Nat) : Nat := 0x80100 + 0x1000 * n
def SP_ADDR.ADDR_MODE (n : Nat) : Fld := ⟨SP_ADDR n, 0, 2⟩
def SP_ADDR.FILTER (n : Nat) : Fld := ⟨SP_ADDR n, 2, 1⟩
def SP_ADDR.KEEP_ADDR (n : Nat) : Fld := ⟨SP_ADDR n, 3, 1⟩
def SP_ADDR.BCAST_EN (n : Nat) : Fld := ⟨SP_ADDR n, 4, 1⟩
def SP_ADDR.BCAST (n : Nat) : Fld := ⟨SP_ADDR n, 8, 8⟩
def SP_ADDR.IDLE_BITS (n : Nat) : Fld := ⟨SP_ADDR n, 16, 8⟩
/-- SP_AMATCH: R114. -/
def SP_AMATCH (n i : Nat) : Nat := 0x80104 + 0x1000 * n + 4 * i
def SP_AMATCH.ADDR (n i : Nat) : Fld := ⟨SP_AMATCH n i, 0, 8⟩
def SP_AMATCH.MASK (n i : Nat) : Fld := ⟨SP_AMATCH n i, 8, 8⟩
def SP_AMATCH.EN (n i : Nat) : Fld := ⟨SP_AMATCH n i, 16, 1⟩
/-- SP_ASTAT: R115. -/
def SP_ASTAT (n : Nat) : Nat := 0x80114 + 0x1000 * n
def SP_ASTAT.IN_FRAME (n : Nat) : Fld := ⟨SP_ASTAT n, 0, 1⟩
def SP_ASTAT.FOR_US (n : Nat) : Fld := ⟨SP_ASTAT n, 1, 1⟩
def SP_ASTAT.ERR_FRAME (n : Nat) : Fld := ⟨SP_ASTAT n, 2, 1⟩
def SP_ASTAT.HELD (n : Nat) : Fld := ⟨SP_ASTAT n, 3, 1⟩
def SP_ASTAT.GAP_DEFAULT (n : Nat) : Fld := ⟨SP_ASTAT n, 4, 1⟩
def SP_ASTAT.ADDR_NOMARK (n : Nat) : Fld := ⟨SP_ASTAT n, 5, 1⟩
def SP_ASTAT.LAST_MATCH (n : Nat) : Fld := ⟨SP_ASTAT n, 6, 3⟩
def SP_ASTAT.CUR_ADDR (n : Nat) : Fld := ⟨SP_ASTAT n, 16, 8⟩
/-- SP_PKT: R116. -/
def SP_PKT (n : Nat) : Nat := 0x80118 + 0x1000 * n
def SP_PKT.GAP16 (n : Nat) : Fld := ⟨SP_PKT n, 0, 16⟩
def SP_PKT.PKT_LEN (n : Nat) : Fld := ⟨SP_PKT n, 16, 16⟩
/-- SP_PKT_TERM: R116. -/
def SP_PKT_TERM (n : Nat) : Nat := 0x8011C + 0x1000 * n
def SP_PKT_TERM.TERM_CHAR (n : Nat) : Fld := ⟨SP_PKT_TERM n, 0, 9⟩
def SP_PKT_TERM.TERM_EN (n : Nat) : Fld := ⟨SP_PKT_TERM n, 9, 1⟩
/-- SP_RXSTAMP_CFG: R117. -/
def SP_RXSTAMP_CFG (n : Nat) : Nat := 0x80120 + 0x1000 * n
def SP_RXSTAMP_CFG.MODE (n : Nat) : Fld := ⟨SP_RXSTAMP_CFG n, 0, 2⟩
/-- SP_RXSTAMP_NS: R117. -/
def SP_RXSTAMP_NS (n : Nat) : Nat := 0x80124 + 0x1000 * n
def SP_RXSTAMP_NS.NS (n : Nat) : Fld := ⟨SP_RXSTAMP_NS n, 0, 32⟩
/-- SP_RXSTAMP_SL: R117. -/
def SP_RXSTAMP_SL (n : Nat) : Nat := 0x80128 + 0x1000 * n
def SP_RXSTAMP_SL.SEC_LO (n : Nat) : Fld := ⟨SP_RXSTAMP_SL n, 0, 32⟩
/-- SP_RXSTAMP_SH: R117. -/
def SP_RXSTAMP_SH (n : Nat) : Nat := 0x8012C + 0x1000 * n
def SP_RXSTAMP_SH.SEC_HI (n : Nat) : Fld := ⟨SP_RXSTAMP_SH n, 0, 16⟩
def SP_RXSTAMP_SH.SEQ (n : Nat) : Fld := ⟨SP_RXSTAMP_SH n, 16, 8⟩
/-- SP_RX_SEQ: R117. -/
def SP_RX_SEQ (n : Nat) : Nat := 0x80130 + 0x1000 * n
def SP_RX_SEQ.RX_SEQ (n : Nat) : Fld := ⟨SP_RX_SEQ n, 0, 32⟩
/-- SP_TX_SEQ: R117. -/
def SP_TX_SEQ (n : Nat) : Nat := 0x80134 + 0x1000 * n
def SP_TX_SEQ.TX_SEQ (n : Nat) : Fld := ⟨SP_TX_SEQ n, 0, 32⟩
/-- SP_QRX: R118. -/
def SP_QRX (n : Nat) : Nat := 0x80140 + 0x1000 * n
def SP_QRX.QID (n : Nat) : Fld := ⟨SP_QRX n, 0, 16⟩
def SP_QRX.ABSENT (n : Nat) : Fld := ⟨SP_QRX n, 30, 1⟩
def SP_QRX.BIND_EN (n : Nat) : Fld := ⟨SP_QRX n, 31, 1⟩
/-- SP_QTX: R118. -/
def SP_QTX (n i : Nat) : Nat := 0x80144 + 0x1000 * n + 4 * i
def SP_QTX.QID (n i : Nat) : Fld := ⟨SP_QTX n i, 0, 16⟩
def SP_QTX.ABSENT (n i : Nat) : Fld := ⟨SP_QTX n i, 30, 1⟩
def SP_QTX.BIND_EN (n i : Nat) : Fld := ⟨SP_QTX n i, 31, 1⟩
/-- SP_QSTAMP_RX: R118. -/
def SP_QSTAMP_RX (n : Nat) : Nat := 0x80154 + 0x1000 * n
def SP_QSTAMP_RX.QID (n : Nat) : Fld := ⟨SP_QSTAMP_RX n, 0, 16⟩
def SP_QSTAMP_RX.ABSENT (n : Nat) : Fld := ⟨SP_QSTAMP_RX n, 30, 1⟩
def SP_QSTAMP_RX.BIND_EN (n : Nat) : Fld := ⟨SP_QSTAMP_RX n, 31, 1⟩
/-- SP_QSTAMP_TX: R118. -/
def SP_QSTAMP_TX (n : Nat) : Nat := 0x80158 + 0x1000 * n
def SP_QSTAMP_TX.QID (n : Nat) : Fld := ⟨SP_QSTAMP_TX n, 0, 16⟩
def SP_QSTAMP_TX.ABSENT (n : Nat) : Fld := ⟨SP_QSTAMP_TX n, 30, 1⟩
def SP_QSTAMP_TX.BIND_EN (n : Nat) : Fld := ⟨SP_QSTAMP_TX n, 31, 1⟩
/-- SP_TXARB: R119. -/
def SP_TXARB (n : Nat) : Nat := 0x8015C + 0x1000 * n
def SP_TXARB.PREEMPT (n : Nat) : Fld := ⟨SP_TXARB n, 0, 1⟩
def SP_TXARB.LAUNCH_GUARD (n : Nat) : Fld := ⟨SP_TXARB n, 1, 1⟩
/-- SP_TTX_STAT: R119. -/
def SP_TTX_STAT (n : Nat) : Nat := 0x80160 + 0x1000 * n
def SP_TTX_STAT.LAUNCH_WAIT (n : Nat) : Fld := ⟨SP_TTX_STAT n, 0, 4⟩
def SP_TTX_STAT.FAR_HOLD (n : Nat) : Fld := ⟨SP_TTX_STAT n, 4, 4⟩
/-- SP_TEVT: R120. -/
def SP_TEVT (n : Nat) : Nat := 0x80164 + 0x1000 * n
def SP_TEVT.LATE (n : Nat) : Fld := ⟨SP_TEVT n, 0, 1⟩
def SP_TEVT.FAR (n : Nat) : Fld := ⟨SP_TEVT n, 1, 1⟩
def SP_TEVT.TXSPLIT (n : Nat) : Fld := ⟨SP_TEVT n, 2, 1⟩
def SP_TEVT.ADDR_ERR (n : Nat) : Fld := ⟨SP_TEVT n, 3, 1⟩
def SP_TEVT.UNADDR (n : Nat) : Fld := ⟨SP_TEVT n, 4, 1⟩
def SP_TEVT.STAMP_DROP (n : Nat) : Fld := ⟨SP_TEVT n, 5, 1⟩
def SP_TEVT.UNBOUND (n : Nat) : Fld := ⟨SP_TEVT n, 6, 1⟩
def SP_TEVT.LAUNCH_TW (n : Nat) : Fld := ⟨SP_TEVT n, 7, 1⟩
def SP_TEVT.ABSENT_Q (n : Nat) : Fld := ⟨SP_TEVT n, 8, 1⟩
/-- SP_TEVT_EN: R120. -/
def SP_TEVT_EN (n : Nat) : Nat := 0x80168 + 0x1000 * n
def SP_TEVT_EN.LATE (n : Nat) : Fld := ⟨SP_TEVT_EN n, 0, 1⟩
def SP_TEVT_EN.FAR (n : Nat) : Fld := ⟨SP_TEVT_EN n, 1, 1⟩
def SP_TEVT_EN.TXSPLIT (n : Nat) : Fld := ⟨SP_TEVT_EN n, 2, 1⟩
def SP_TEVT_EN.ADDR_ERR (n : Nat) : Fld := ⟨SP_TEVT_EN n, 3, 1⟩
def SP_TEVT_EN.UNADDR (n : Nat) : Fld := ⟨SP_TEVT_EN n, 4, 1⟩
def SP_TEVT_EN.STAMP_DROP (n : Nat) : Fld := ⟨SP_TEVT_EN n, 5, 1⟩
def SP_TEVT_EN.UNBOUND (n : Nat) : Fld := ⟨SP_TEVT_EN n, 6, 1⟩
def SP_TEVT_EN.LAUNCH_TW (n : Nat) : Fld := ⟨SP_TEVT_EN n, 7, 1⟩
def SP_TEVT_EN.ABSENT_Q (n : Nat) : Fld := ⟨SP_TEVT_EN n, 8, 1⟩
/-- SP_TTX_LATEBY: R121. -/
def SP_TTX_LATEBY (n : Nat) : Nat := 0x8016C + 0x1000 * n
def SP_TTX_LATEBY.LATE_NS (n : Nat) : Fld := ⟨SP_TTX_LATEBY n, 0, 32⟩
/-- SP_STR_SEL: R121. -/
def SP_STR_SEL (n : Nat) : Nat := 0x80170 + 0x1000 * n
def SP_STR_SEL.SEL (n : Nat) : Fld := ⟨SP_STR_SEL n, 0, 8⟩
def SP_STR_SEL.CLR_SEL (n : Nat) : Fld := ⟨SP_STR_SEL n, 30, 1⟩
def SP_STR_SEL.CLR_ALL (n : Nat) : Fld := ⟨SP_STR_SEL n, 31, 1⟩
/-- SP_STR_FRAMES: R121. -/
def SP_STR_FRAMES (n : Nat) : Nat := 0x80174 + 0x1000 * n
def SP_STR_FRAMES.FRAMES (n : Nat) : Fld := ⟨SP_STR_FRAMES n, 0, 32⟩
/-- SP_STR_CHARS: R121. -/
def SP_STR_CHARS (n : Nat) : Nat := 0x80178 + 0x1000 * n
def SP_STR_CHARS.CHARS (n : Nat) : Fld := ⟨SP_STR_CHARS n, 0, 32⟩
/-- SP_STR_LAST: R121. -/
def SP_STR_LAST (n : Nat) : Nat := 0x8017C + 0x1000 * n
def SP_STR_LAST.ADDR (n : Nat) : Fld := ⟨SP_STR_LAST n, 0, 8⟩
def SP_STR_LAST.VALID (n : Nat) : Fld := ⟨SP_STR_LAST n, 31, 1⟩
/-- SP_CNT_ADDRERR: R122. -/
def SP_CNT_ADDRERR (n : Nat) : Nat := 0x80180 + 0x1000 * n
/-- SP_CNT_UNADDR: R122. -/
def SP_CNT_UNADDR (n : Nat) : Nat := 0x80184 + 0x1000 * n
/-- SP_CNT_FOREIGN: R122. -/
def SP_CNT_FOREIGN (n : Nat) : Nat := 0x80188 + 0x1000 * n
/-- SP_CNT_GAP: R122. -/
def SP_CNT_GAP (n : Nat) : Nat := 0x8018C + 0x1000 * n
/-- SP_CNT_LATE: R122. -/
def SP_CNT_LATE (n : Nat) : Nat := 0x80190 + 0x1000 * n
/-- SP_CNT_FAR: R122. -/
def SP_CNT_FAR (n : Nat) : Nat := 0x80194 + 0x1000 * n
/-- SP_CNT_TXSPLIT: R122. -/
def SP_CNT_TXSPLIT (n : Nat) : Nat := 0x80198 + 0x1000 * n
/-- SP_CNT_STAMPDROP: R122. -/
def SP_CNT_STAMPDROP (n : Nat) : Nat := 0x8019C + 0x1000 * n
/-- SP_CNT_UNBOUND: R122. -/
def SP_CNT_UNBOUND (n : Nat) : Nat := 0x801A0 + 0x1000 * n
/-- SP_CNT_LAUNCH_TW: R122. -/
def SP_CNT_LAUNCH_TW (n : Nat) : Nat := 0x801A4 + 0x1000 * n

/-! ### Trade-wind registers -/
/-- TW_CTRL: R163. -/
def TW_CTRL (n : Nat) : Nat := 0x80200 + 0x1000 * n
def TW_CTRL.RUN (n : Nat) : Fld := ⟨TW_CTRL n, 0, 1⟩
def TW_CTRL.ROLE (n : Nat) : Fld := ⟨TW_CTRL n, 1, 1⟩
def TW_CTRL.ALIGN (n : Nat) : Fld := ⟨TW_CTRL n, 2, 1⟩
def TW_CTRL.EMPTY_FRAME (n : Nat) : Fld := ⟨TW_CTRL n, 3, 1⟩
def TW_CTRL.MONITOR (n : Nat) : Fld := ⟨TW_CTRL n, 4, 1⟩
def TW_CTRL.DLY_REQ (n : Nat) : Fld := ⟨TW_CTRL n, 5, 1⟩
def TW_CTRL.FN_LISTEN (n : Nat) : Fld := ⟨TW_CTRL n, 6, 1⟩
/-- TW_NODE: R163. -/
def TW_NODE (n : Nat) : Nat := 0x80204 + 0x1000 * n
def TW_NODE.ADDR (n : Nat) : Fld := ⟨TW_NODE n, 0, 8⟩
def TW_NODE.INIT_MODE (n : Nat) : Fld := ⟨TW_NODE n, 8, 2⟩
/-- TW_STAT: R164. -/
def TW_STAT (n : Nat) : Nat := 0x80208 + 0x1000 * n
def TW_STAT.STATE (n : Nat) : Fld := ⟨TW_STAT n, 0, 3⟩
def TW_STAT.CUR_MODE (n : Nat) : Fld := ⟨TW_STAT n, 4, 2⟩
def TW_STAT.NEXT_MODE (n : Nat) : Fld := ⟨TW_STAT n, 6, 2⟩
def TW_STAT.SWITCH_PEND (n : Nat) : Fld := ⟨TW_STAT n, 8, 1⟩
def TW_STAT.WARMING (n : Nat) : Fld := ⟨TW_STAT n, 9, 1⟩
def TW_STAT.DLY_UNSET (n : Nat) : Fld := ⟨TW_STAT n, 10, 1⟩
def TW_STAT.PRE_CLIPPED (n : Nat) : Fld := ⟨TW_STAT n, 11, 1⟩
def TW_STAT.CYC_CLAMP (n : Nat) : Fld := ⟨TW_STAT n, 12, 1⟩
def TW_STAT.NO_SYNC_ENTRY (n : Nat) : Fld := ⟨TW_STAT n, 13, 1⟩
def TW_STAT.LISTEN_ONLY (n : Nat) : Fld := ⟨TW_STAT n, 14, 1⟩
/-- TW_CYCNT: R164. -/
def TW_CYCNT (n : Nat) : Nat := 0x8020C + 0x1000 * n
def TW_CYCNT.CYCLE (n : Nat) : Fld := ⟨TW_CYCNT n, 0, 16⟩
def TW_CYCNT.SWITCH_CYCLE (n : Nat) : Fld := ⟨TW_CYCNT n, 16, 16⟩
/-- TW_BASE_NS: R165. -/
def TW_BASE_NS (n : Nat) : Nat := 0x80210 + 0x1000 * n
def TW_BASE_NS.NS (n : Nat) : Fld := ⟨TW_BASE_NS n, 0, 32⟩
/-- TW_BASE_SL: R165. -/
def TW_BASE_SL (n : Nat) : Nat := 0x80214 + 0x1000 * n
def TW_BASE_SL.SEC_LO (n : Nat) : Fld := ⟨TW_BASE_SL n, 0, 32⟩
/-- TW_BASE_SH: R165. -/
def TW_BASE_SH (n : Nat) : Nat := 0x80218 + 0x1000 * n
def TW_BASE_SH.SEC_HI (n : Nat) : Fld := ⟨TW_BASE_SH n, 0, 16⟩
/-- TW_COMMIT: R165. -/
def TW_COMMIT (n : Nat) : Nat := 0x8021C + 0x1000 * n
def TW_COMMIT.COMMIT_NS (n : Nat) : Fld := ⟨TW_COMMIT n, 0, 24⟩
/-- TW_CYCLE: R165. -/
def TW_CYCLE (n i : Nat) : Nat := 0x80220 + 0x1000 * n + 4 * i
def TW_CYCLE.CYCLE_NS (n i : Nat) : Fld := ⟨TW_CYCLE n i, 0, 32⟩
/-- TW_GUARD: R165. -/
def TW_GUARD (n i : Nat) : Nat := 0x80230 + 0x1000 * n + 4 * i
def TW_GUARD.GUARD_NS (n i : Nat) : Fld := ⟨TW_GUARD n i, 0, 24⟩
/-- TW_SWITCH: R166. -/
def TW_SWITCH (n : Nat) : Nat := 0x80240 + 0x1000 * n
def TW_SWITCH.NEXT_MODE (n : Nat) : Fld := ⟨TW_SWITCH n, 0, 2⟩
def TW_SWITCH.LEAD (n : Nat) : Fld := ⟨TW_SWITCH n, 8, 8⟩
/-- TW_OPEN: R166. -/
def TW_OPEN (n : Nat) : Nat := 0x80244 + 0x1000 * n
def TW_OPEN.OPEN_STEP_NS (n : Nat) : Fld := ⟨TW_OPEN n, 0, 16⟩
/-- TW_TSEL: R166. -/
def TW_TSEL (n : Nat) : Nat := 0x80248 + 0x1000 * n
def TW_TSEL.ENTRY (n : Nat) : Fld := ⟨TW_TSEL n, 0, 6⟩
def TW_TSEL.MODE (n : Nat) : Fld := ⟨TW_TSEL n, 8, 2⟩
/-- TW_TDATA0: R167. -/
def TW_TDATA0 (n : Nat) : Nat := 0x8024C + 0x1000 * n
def TW_TDATA0.START_NS (n : Nat) : Fld := ⟨TW_TDATA0 n, 0, 32⟩
/-- TW_TDATA1: R167. -/
def TW_TDATA1 (n : Nat) : Nat := 0x80250 + 0x1000 * n
def TW_TDATA1.LEN_NS (n : Nat) : Fld := ⟨TW_TDATA1 n, 0, 32⟩
/-- TW_TDATA2: R167. -/
def TW_TDATA2 (n : Nat) : Nat := 0x80254 + 0x1000 * n
def TW_TDATA2.OWNER (n : Nat) : Fld := ⟨TW_TDATA2 n, 0, 8⟩
def TW_TDATA2.KIND (n : Nat) : Fld := ⟨TW_TDATA2 n, 8, 3⟩
def TW_TDATA2.QSEL (n : Nat) : Fld := ⟨TW_TDATA2 n, 12, 1⟩
def TW_TDATA2.EN (n : Nat) : Fld := ⟨TW_TDATA2 n, 15, 1⟩
def TW_TDATA2.QID (n : Nat) : Fld := ⟨TW_TDATA2 n, 16, 16⟩
/-- TW_TDATA3. -/
def TW_TDATA3 (n : Nat) : Nat := 0x80258 + 0x1000 * n
/-- TW_TCOMMIT: R166. -/
def TW_TCOMMIT (n : Nat) : Nat := 0x8025C + 0x1000 * n
def TW_TCOMMIT.COMMIT (n : Nat) : Fld := ⟨TW_TCOMMIT n, 0, 4⟩
def TW_TCOMMIT.PENDING (n : Nat) : Fld := ⟨TW_TCOMMIT n, 8, 4⟩
/-- TW_TCRC: R168. -/
def TW_TCRC (n i : Nat) : Nat := 0x80260 + 0x1000 * n + 4 * i
def TW_TCRC.CRC (n i : Nat) : Fld := ⟨TW_TCRC n i, 0, 32⟩
/-- TW_TCLIP: R168. -/
def TW_TCLIP (n i : Nat) : Nat := 0x80270 + 0x1000 * n + 4 * i
def TW_TCLIP.CLIP (n i : Nat) : Fld := ⟨TW_TCLIP n i, 0, 32⟩
/-- TW_DLY: R168. -/
def TW_DLY (n : Nat) : Nat := 0x80290 + 0x1000 * n
def TW_DLY.DELAY_NS (n : Nat) : Fld := ⟨TW_DLY n, 0, 24⟩
/-- TW_TURN: R168. -/
def TW_TURN (n : Nat) : Nat := 0x80294 + 0x1000 * n
def TW_TURN.TURN (n : Nat) : Fld := ⟨TW_TURN n, 0, 32⟩
/-- TW_DRIFT: R168. -/
def TW_DRIFT (n : Nat) : Nat := 0x80298 + 0x1000 * n
def TW_DRIFT.DRIFT_PPB (n : Nat) : Fld := ⟨TW_DRIFT n, 0, 32⟩
/-- TW_OFFSET: R168. -/
def TW_OFFSET (n : Nat) : Nat := 0x8029C + 0x1000 * n
def TW_OFFSET.OFFSET_NS (n : Nat) : Fld := ⟨TW_OFFSET n, 0, 32⟩
/-- TW_CYC_NS: R168. -/
def TW_CYC_NS (n : Nat) : Nat := 0x802A0 + 0x1000 * n
def TW_CYC_NS.NS (n : Nat) : Fld := ⟨TW_CYC_NS n, 0, 32⟩
/-- TW_CYC_SL: R168. -/
def TW_CYC_SL (n : Nat) : Nat := 0x802A4 + 0x1000 * n
def TW_CYC_SL.SEC_LO (n : Nat) : Fld := ⟨TW_CYC_SL n, 0, 32⟩
/-- TW_CYC_SH: R168. -/
def TW_CYC_SH (n : Nat) : Nat := 0x802A8 + 0x1000 * n
def TW_CYC_SH.SEC_HI (n : Nat) : Fld := ⟨TW_CYC_SH n, 0, 16⟩
def TW_CYC_SH.CYCLE (n : Nat) : Fld := ⟨TW_CYC_SH n, 16, 16⟩
/-- TW_EVT: R169. -/
def TW_EVT (n : Nat) : Nat := 0x802AC + 0x1000 * n
def TW_EVT.JOINED (n : Nat) : Fld := ⟨TW_EVT n, 0, 1⟩
def TW_EVT.LEFT (n : Nat) : Fld := ⟨TW_EVT n, 1, 1⟩
def TW_EVT.RIVAL (n : Nat) : Fld := ⟨TW_EVT n, 2, 1⟩
def TW_EVT.SWITCH_DONE (n : Nat) : Fld := ⟨TW_EVT n, 3, 1⟩
def TW_EVT.SWITCH_WDRAW (n : Nat) : Fld := ⟨TW_EVT n, 4, 1⟩
def TW_EVT.SWITCH_IGN (n : Nat) : Fld := ⟨TW_EVT n, 5, 1⟩
def TW_EVT.NO_MODE (n : Nat) : Fld := ⟨TW_EVT n, 6, 1⟩
def TW_EVT.DLY_SET (n : Nat) : Fld := ⟨TW_EVT n, 7, 1⟩
def TW_EVT.DLY_BAD (n : Nat) : Fld := ⟨TW_EVT n, 8, 1⟩
def TW_EVT.DRIFT_BAD (n : Nat) : Fld := ⟨TW_EVT n, 9, 1⟩
def TW_EVT.TABLE_CLIPPED (n : Nat) : Fld := ⟨TW_EVT n, 10, 1⟩
def TW_EVT.SHORT (n : Nat) : Fld := ⟨TW_EVT n, 11, 1⟩
def TW_EVT.NOBUF (n : Nat) : Fld := ⟨TW_EVT n, 12, 1⟩
def TW_EVT.REPHASE (n : Nat) : Fld := ⟨TW_EVT n, 13, 1⟩
/-- TW_EVT_EN: R169. -/
def TW_EVT_EN (n : Nat) : Nat := 0x802B0 + 0x1000 * n
def TW_EVT_EN.JOINED (n : Nat) : Fld := ⟨TW_EVT_EN n, 0, 1⟩
def TW_EVT_EN.LEFT (n : Nat) : Fld := ⟨TW_EVT_EN n, 1, 1⟩
def TW_EVT_EN.RIVAL (n : Nat) : Fld := ⟨TW_EVT_EN n, 2, 1⟩
def TW_EVT_EN.SWITCH_DONE (n : Nat) : Fld := ⟨TW_EVT_EN n, 3, 1⟩
def TW_EVT_EN.SWITCH_WDRAW (n : Nat) : Fld := ⟨TW_EVT_EN n, 4, 1⟩
def TW_EVT_EN.SWITCH_IGN (n : Nat) : Fld := ⟨TW_EVT_EN n, 5, 1⟩
def TW_EVT_EN.NO_MODE (n : Nat) : Fld := ⟨TW_EVT_EN n, 6, 1⟩
def TW_EVT_EN.DLY_SET (n : Nat) : Fld := ⟨TW_EVT_EN n, 7, 1⟩
def TW_EVT_EN.DLY_BAD (n : Nat) : Fld := ⟨TW_EVT_EN n, 8, 1⟩
def TW_EVT_EN.DRIFT_BAD (n : Nat) : Fld := ⟨TW_EVT_EN n, 9, 1⟩
def TW_EVT_EN.TABLE_CLIPPED (n : Nat) : Fld := ⟨TW_EVT_EN n, 10, 1⟩
def TW_EVT_EN.SHORT (n : Nat) : Fld := ⟨TW_EVT_EN n, 11, 1⟩
def TW_EVT_EN.NOBUF (n : Nat) : Fld := ⟨TW_EVT_EN n, 12, 1⟩
def TW_EVT_EN.REPHASE (n : Nat) : Fld := ⟨TW_EVT_EN n, 13, 1⟩
/-- TW_ACK_EXCL: R170. -/
def TW_ACK_EXCL (n i : Nat) : Nat := 0x802B4 + 0x1000 * n + 4 * i
def TW_ACK_EXCL.EXCL (n i : Nat) : Fld := ⟨TW_ACK_EXCL n i, 0, 32⟩
/-- TW_ACK_SEEN: R170. -/
def TW_ACK_SEEN (n i : Nat) : Nat := 0x802D4 + 0x1000 * n + 4 * i
def TW_ACK_SEEN.SEEN (n i : Nat) : Fld := ⟨TW_ACK_SEEN n i, 0, 32⟩
/-- TW_DSEL: R170. -/
def TW_DSEL (n : Nat) : Nat := 0x802F4 + 0x1000 * n
def TW_DSEL.ADDR (n : Nat) : Fld := ⟨TW_DSEL n, 0, 8⟩
/-- TW_DTAB: R170. -/
def TW_DTAB (n : Nat) : Nat := 0x802F8 + 0x1000 * n
def TW_DTAB.DELAY_NS (n : Nat) : Fld := ⟨TW_DTAB n, 0, 24⟩
def TW_DTAB.SAMPLES (n : Nat) : Fld := ⟨TW_DTAB n, 24, 4⟩
def TW_DTAB.VALID (n : Nat) : Fld := ⟨TW_DTAB n, 31, 1⟩

/-! ### Trade-wind counters -/
/-- TW_CNT_CYCLES: R171. -/
def TW_CNT_CYCLES (n : Nat) : Nat := 0x80300 + 0x1000 * n
/-- TW_CNT_SYNC_TX: R171. -/
def TW_CNT_SYNC_TX (n : Nat) : Nat := 0x80304 + 0x1000 * n
/-- TW_CNT_SYNC_RX: R171. -/
def TW_CNT_SYNC_RX (n : Nat) : Nat := 0x80308 + 0x1000 * n
/-- TW_CNT_FRAME_TX: R171. -/
def TW_CNT_FRAME_TX (n : Nat) : Nat := 0x8030C + 0x1000 * n
/-- TW_CNT_FRAME_RX: R171. -/
def TW_CNT_FRAME_RX (n : Nat) : Nat := 0x80310 + 0x1000 * n
/-- TW_CNT_CRC: R171. -/
def TW_CNT_CRC (n : Nat) : Nat := 0x80314 + 0x1000 * n
/-- TW_CNT_TRUNC: R171. -/
def TW_CNT_TRUNC (n : Nat) : Nat := 0x80318 + 0x1000 * n
/-- TW_CNT_WINDOW: R171. -/
def TW_CNT_WINDOW (n : Nat) : Nat := 0x8031C + 0x1000 * n
/-- TW_CNT_FRAG: R171. -/
def TW_CNT_FRAG (n : Nat) : Nat := 0x80320 + 0x1000 * n
/-- TW_CNT_EMPTY: R171. -/
def TW_CNT_EMPTY (n : Nat) : Nat := 0x80324 + 0x1000 * n
/-- TW_CNT_SHORT: R171. -/
def TW_CNT_SHORT (n : Nat) : Nat := 0x80328 + 0x1000 * n
/-- TW_CNT_NOBUF: R171. -/
def TW_CNT_NOBUF (n : Nat) : Nat := 0x8032C + 0x1000 * n
/-- TW_CNT_NODLY: R171. -/
def TW_CNT_NODLY (n : Nat) : Nat := 0x80330 + 0x1000 * n
/-- TW_CNT_SW_DONE: R171. -/
def TW_CNT_SW_DONE (n : Nat) : Nat := 0x80334 + 0x1000 * n
/-- TW_CNT_SW_WDRAW: R171. -/
def TW_CNT_SW_WDRAW (n : Nat) : Nat := 0x80338 + 0x1000 * n
/-- TW_CNT_DLY_MEAS: R171. -/
def TW_CNT_DLY_MEAS (n : Nat) : Nat := 0x8033C + 0x1000 * n
/-- TW_CNT_DLY_BAD: R171. -/
def TW_CNT_DLY_BAD (n : Nat) : Nat := 0x80340 + 0x1000 * n
/-- TW_CNT_FOREIGN: R171. -/
def TW_CNT_FOREIGN (n : Nat) : Nat := 0x80344 + 0x1000 * n
/-- TW_CNT_OPEN_DEFER: R171. -/
def TW_CNT_OPEN_DEFER (n : Nat) : Nat := 0x80348 + 0x1000 * n
/-- TW_CNT_SETTLE: R171. -/
def TW_CNT_SETTLE (n : Nat) : Nat := 0x8034C + 0x1000 * n
/-- TW_CNT_STOPDISC: R171. -/
def TW_CNT_STOPDISC (n : Nat) : Nat := 0x80350 + 0x1000 * n

/-! ### Bus guardian -/
/-- GD_CTRL: R191. -/
def GD_CTRL (n : Nat) : Nat := 0x80400 + 0x1000 * n
def GD_CTRL.UNMUZZLE (n : Nat) : Fld := ⟨GD_CTRL n, 0, 1⟩
def GD_CTRL.MUZZLE (n : Nat) : Fld := ⟨GD_CTRL n, 1, 1⟩
def GD_CTRL.CLR_HIST (n : Nat) : Fld := ⟨GD_CTRL n, 2, 1⟩
def GD_CTRL.BLOCK_LIM (n : Nat) : Fld := ⟨GD_CTRL n, 8, 8⟩
def GD_CTRL.BLOCK_WIN (n : Nat) : Fld := ⟨GD_CTRL n, 16, 8⟩
/-- GD_STAT: R191. -/
def GD_STAT (n : Nat) : Nat := 0x80404 + 0x1000 * n
def GD_STAT.MUZZLED (n : Nat) : Fld := ⟨GD_STAT n, 0, 1⟩
def GD_STAT.ANCHORED (n : Nat) : Fld := ⟨GD_STAT n, 1, 1⟩
def GD_STAT.LOADING (n : Nat) : Fld := ⟨GD_STAT n, 2, 1⟩
def GD_STAT.OPEN (n : Nat) : Fld := ⟨GD_STAT n, 3, 1⟩
def GD_STAT.VALID (n : Nat) : Fld := ⟨GD_STAT n, 4, 4⟩
def GD_STAT.MODE (n : Nat) : Fld := ⟨GD_STAT n, 8, 2⟩
def GD_STAT.MUZZLE_CAUSE (n : Nat) : Fld := ⟨GD_STAT n, 12, 4⟩
def GD_STAT.HIST (n : Nat) : Fld := ⟨GD_STAT n, 16, 8⟩
/-- GD_CYCNT: R192. -/
def GD_CYCNT (n : Nat) : Nat := 0x80408 + 0x1000 * n
def GD_CYCNT.CYCLE (n : Nat) : Fld := ⟨GD_CYCNT n, 0, 16⟩
/-- GD_PHASE: R192. -/
def GD_PHASE (n : Nat) : Nat := 0x8040C + 0x1000 * n
def GD_PHASE.PHASE_NS (n : Nat) : Fld := ⟨GD_PHASE n, 0, 32⟩
/-- GD_CRC: R192. -/
def GD_CRC (n i : Nat) : Nat := 0x80410 + 0x1000 * n + 4 * i
def GD_CRC.CRC (n i : Nat) : Fld := ⟨GD_CRC n i, 0, 32⟩
/-- GD_BLK_NS: R192. -/
def GD_BLK_NS (n : Nat) : Nat := 0x80420 + 0x1000 * n
def GD_BLK_NS.PHASE_NS (n : Nat) : Fld := ⟨GD_BLK_NS n, 0, 32⟩
/-- GD_BLK_INFO: R192. -/
def GD_BLK_INFO (n : Nat) : Nat := 0x80424 + 0x1000 * n
def GD_BLK_INFO.CYCLE (n : Nat) : Fld := ⟨GD_BLK_INFO n, 0, 16⟩
def GD_BLK_INFO.ENTRY (n : Nat) : Fld := ⟨GD_BLK_INFO n, 16, 6⟩
def GD_BLK_INFO.UNCOVERED (n : Nat) : Fld := ⟨GD_BLK_INFO n, 22, 1⟩
/-- SF_STAT: R193. -/
def SF_STAT (n : Nat) : Nat := 0x80428 + 0x1000 * n
def SF_STAT.MISS (n : Nat) : Fld := ⟨SF_STAT n, 0, 2⟩
def SF_STAT.WITHHOLD (n : Nat) : Fld := ⟨SF_STAT n, 2, 1⟩
def SF_STAT.BUS_DEAD (n : Nat) : Fld := ⟨SF_STAT n, 3, 1⟩
def SF_STAT.TIME_SKEW (n : Nat) : Fld := ⟨SF_STAT n, 4, 1⟩
def SF_STAT.LEAVE_CAUSE (n : Nat) : Fld := ⟨SF_STAT n, 8, 4⟩
/-- SF_EVT: R194. -/
def SF_EVT (n : Nat) : Nat := 0x8042C + 0x1000 * n
def SF_EVT.BLOCKED (n : Nat) : Fld := ⟨SF_EVT n, 0, 1⟩
def SF_EVT.MUZZLED (n : Nat) : Fld := ⟨SF_EVT n, 1, 1⟩
def SF_EVT.UNMUZZLED (n : Nat) : Fld := ⟨SF_EVT n, 2, 1⟩
def SF_EVT.ANCHOR_REJ (n : Nat) : Fld := ⟨SF_EVT n, 3, 1⟩
def SF_EVT.COPY_FAIL (n : Nat) : Fld := ⟨SF_EVT n, 4, 1⟩
def SF_EVT.SYNC_MISS (n : Nat) : Fld := ⟨SF_EVT n, 5, 1⟩
def SF_EVT.SYNC_LOST (n : Nat) : Fld := ⟨SF_EVT n, 6, 1⟩
def SF_EVT.CYC_JUMP (n : Nat) : Fld := ⟨SF_EVT n, 7, 1⟩
def SF_EVT.MODE_MISMATCH (n : Nat) : Fld := ⟨SF_EVT n, 8, 1⟩
def SF_EVT.TIME_SKEW (n : Nat) : Fld := ⟨SF_EVT n, 9, 1⟩
def SF_EVT.STEP_ANCHOR (n : Nat) : Fld := ⟨SF_EVT n, 10, 1⟩
def SF_EVT.BUS_DEAD (n : Nat) : Fld := ⟨SF_EVT n, 11, 1⟩
def SF_EVT.BUS_ALIVE (n : Nat) : Fld := ⟨SF_EVT n, 12, 1⟩
def SF_EVT.BABBLE (n : Nat) : Fld := ⟨SF_EVT n, 13, 1⟩
def SF_EVT.INTRUDE (n : Nat) : Fld := ⟨SF_EVT n, 14, 1⟩
def SF_EVT.ABSENT (n : Nat) : Fld := ⟨SF_EVT n, 15, 1⟩
/-- SF_EVT_EN: R194. -/
def SF_EVT_EN (n : Nat) : Nat := 0x80430 + 0x1000 * n
def SF_EVT_EN.BLOCKED (n : Nat) : Fld := ⟨SF_EVT_EN n, 0, 1⟩
def SF_EVT_EN.MUZZLED (n : Nat) : Fld := ⟨SF_EVT_EN n, 1, 1⟩
def SF_EVT_EN.UNMUZZLED (n : Nat) : Fld := ⟨SF_EVT_EN n, 2, 1⟩
def SF_EVT_EN.ANCHOR_REJ (n : Nat) : Fld := ⟨SF_EVT_EN n, 3, 1⟩
def SF_EVT_EN.COPY_FAIL (n : Nat) : Fld := ⟨SF_EVT_EN n, 4, 1⟩
def SF_EVT_EN.SYNC_MISS (n : Nat) : Fld := ⟨SF_EVT_EN n, 5, 1⟩
def SF_EVT_EN.SYNC_LOST (n : Nat) : Fld := ⟨SF_EVT_EN n, 6, 1⟩
def SF_EVT_EN.CYC_JUMP (n : Nat) : Fld := ⟨SF_EVT_EN n, 7, 1⟩
def SF_EVT_EN.MODE_MISMATCH (n : Nat) : Fld := ⟨SF_EVT_EN n, 8, 1⟩
def SF_EVT_EN.TIME_SKEW (n : Nat) : Fld := ⟨SF_EVT_EN n, 9, 1⟩
def SF_EVT_EN.STEP_ANCHOR (n : Nat) : Fld := ⟨SF_EVT_EN n, 10, 1⟩
def SF_EVT_EN.BUS_DEAD (n : Nat) : Fld := ⟨SF_EVT_EN n, 11, 1⟩
def SF_EVT_EN.BUS_ALIVE (n : Nat) : Fld := ⟨SF_EVT_EN n, 12, 1⟩
def SF_EVT_EN.BABBLE (n : Nat) : Fld := ⟨SF_EVT_EN n, 13, 1⟩
def SF_EVT_EN.INTRUDE (n : Nat) : Fld := ⟨SF_EVT_EN n, 14, 1⟩
def SF_EVT_EN.ABSENT (n : Nat) : Fld := ⟨SF_EVT_EN n, 15, 1⟩
/-- SF_BABBLE: R195. -/
def SF_BABBLE (n : Nat) : Nat := 0x80434 + 0x1000 * n
def SF_BABBLE.LIMIT (n : Nat) : Fld := ⟨SF_BABBLE n, 0, 5⟩
def SF_BABBLE.LAST_ENTRY (n : Nat) : Fld := ⟨SF_BABBLE n, 8, 7⟩
def SF_BABBLE.LAST_MODE (n : Nat) : Fld := ⟨SF_BABBLE n, 16, 2⟩
/-- SF_SILENT: R195. -/
def SF_SILENT (n : Nat) : Nat := 0x80438 + 0x1000 * n
def SF_SILENT.SILENT_CYC (n : Nat) : Fld := ⟨SF_SILENT n, 0, 8⟩
/-- SF_ABSENT: R195. -/
def SF_ABSENT (n i : Nat) : Nat := 0x80440 + 0x1000 * n + 4 * i
def SF_ABSENT.ABSENT (n i : Nat) : Fld := ⟨SF_ABSENT n i, 0, 32⟩
/-- SF_CNT_BLOCKED: R196. -/
def SF_CNT_BLOCKED (n : Nat) : Nat := 0x80460 + 0x1000 * n
/-- SF_CNT_MUZZLE: R196. -/
def SF_CNT_MUZZLE (n : Nat) : Nat := 0x80464 + 0x1000 * n
/-- SF_CNT_ANCHOR: R196. -/
def SF_CNT_ANCHOR (n : Nat) : Nat := 0x80468 + 0x1000 * n
/-- SF_CNT_SYNC_MISS: R196. -/
def SF_CNT_SYNC_MISS (n : Nat) : Nat := 0x8046C + 0x1000 * n
/-- SF_CNT_WITHHELD: R196. -/
def SF_CNT_WITHHELD (n : Nat) : Nat := 0x80470 + 0x1000 * n
/-- SF_CNT_INTRUDE: R196. -/
def SF_CNT_INTRUDE (n : Nat) : Nat := 0x80478 + 0x1000 * n
/-- SF_CNT_BABBLE: R196. -/
def SF_CNT_BABBLE (n : Nat) : Nat := 0x8047C + 0x1000 * n
/-- SF_CNT_BUS_DEAD: R196. -/
def SF_CNT_BUS_DEAD (n : Nat) : Nat := 0x80480 + 0x1000 * n
/-- SF_CNT_CYC_JUMP: R196. -/
def SF_CNT_CYC_JUMP (n : Nat) : Nat := 0x80484 + 0x1000 * n
/-- SF_CNT_SKEW: R196. -/
def SF_CNT_SKEW (n : Nat) : Nat := 0x80488 + 0x1000 * n

/-! ### Queue fabric (0x0010_0000) -/
/-- QF_STAT: R226. -/
def QF_STAT : Nat := 0x100000
def QF_STAT.QUEUES : Fld := ⟨QF_STAT, 0, 17⟩
def QF_STAT.COMMITTED : Fld := ⟨QF_STAT, 31, 1⟩
/-- QF_EDGE_USED: R226. -/
def QF_EDGE_USED : Nat := 0x100004
def QF_EDGE_USED.BYTES : Fld := ⟨QF_EDGE_USED, 0, 24⟩
/-- QF_EVT: R227. -/
def QF_EVT : Nat := 0x100008
def QF_EVT.OVERRUN : Fld := ⟨QF_EVT, 0, 1⟩
def QF_EVT.LOST : Fld := ⟨QF_EVT, 1, 1⟩
def QF_EVT.FAULT : Fld := ⟨QF_EVT, 2, 1⟩
def QF_EVT.ABSENT_PUSH : Fld := ⟨QF_EVT, 3, 1⟩
def QF_EVT.BAD_ACCESS : Fld := ⟨QF_EVT, 4, 1⟩
def QF_EVT.BAD_CMD : Fld := ⟨QF_EVT, 5, 1⟩
def QF_EVT.REL_CLIP : Fld := ⟨QF_EVT, 6, 1⟩
def QF_EVT.EDGE_REDUCED : Fld := ⟨QF_EVT, 7, 1⟩
def QF_EVT.NOROOM : Fld := ⟨QF_EVT, 8, 1⟩
/-- QF_EVT_EN: R227. -/
def QF_EVT_EN : Nat := 0x10000C
def QF_EVT_EN.OVERRUN : Fld := ⟨QF_EVT_EN, 0, 1⟩
def QF_EVT_EN.LOST : Fld := ⟨QF_EVT_EN, 1, 1⟩
def QF_EVT_EN.FAULT : Fld := ⟨QF_EVT_EN, 2, 1⟩
def QF_EVT_EN.ABSENT_PUSH : Fld := ⟨QF_EVT_EN, 3, 1⟩
def QF_EVT_EN.BAD_ACCESS : Fld := ⟨QF_EVT_EN, 4, 1⟩
def QF_EVT_EN.BAD_CMD : Fld := ⟨QF_EVT_EN, 5, 1⟩
def QF_EVT_EN.REL_CLIP : Fld := ⟨QF_EVT_EN, 6, 1⟩
def QF_EVT_EN.EDGE_REDUCED : Fld := ⟨QF_EVT_EN, 7, 1⟩
def QF_EVT_EN.NOROOM : Fld := ⟨QF_EVT_EN, 8, 1⟩
/-- QF_QSEL: R228. -/
def QF_QSEL : Nat := 0x100040
def QF_QSEL.QID : Fld := ⟨QF_QSEL, 0, 16⟩
/-- QF_QCMD: R228. -/
def QF_QCMD : Nat := 0x100044
def QF_QCMD.OP : Fld := ⟨QF_QCMD, 0, 3⟩
/-- QF_QCFG0: R229. -/
def QF_QCFG0 : Nat := 0x100048
def QF_QCFG0.MODE : Fld := ⟨QF_QCFG0, 0, 2⟩
def QF_QCFG0.AUTO_REL : Fld := ⟨QF_QCFG0, 2, 2⟩
def QF_QCFG0.EDGE : Fld := ⟨QF_QCFG0, 4, 3⟩
def QF_QCFG0.NOTIFY : Fld := ⟨QF_QCFG0, 8, 2⟩
def QF_QCFG0.NGRP : Fld := ⟨QF_QCFG0, 10, 3⟩
def QF_QCFG0.SPILL : Fld := ⟨QF_QCFG0, 16, 4⟩
/-- QF_QCFG1: R229. -/
def QF_QCFG1 : Nat := 0x10004C
def QF_QCFG1.CAP_LO : Fld := ⟨QF_QCFG1, 0, 32⟩
/-- QF_QCFG2: R229. -/
def QF_QCFG2 : Nat := 0x100050
def QF_QCFG2.CAP_HI : Fld := ⟨QF_QCFG2, 0, 1⟩
def QF_QCFG2.RES_BLOCKS : Fld := ⟨QF_QCFG2, 16, 16⟩
/-- QF_QCFG3: R229. -/
def QF_QCFG3 : Nat := 0x100054
def QF_QCFG3.WMARK : Fld := ⟨QF_QCFG3, 0, 32⟩
/-- QF_QCFG4: R229. -/
def QF_QCFG4 : Nat := 0x100058
def QF_QCFG4.FWD_QID : Fld := ⟨QF_QCFG4, 0, 16⟩
def QF_QCFG4.FWD_DEV : Fld := ⟨QF_QCFG4, 16, 6⟩
def QF_QCFG4.FWD_EN : Fld := ⟨QF_QCFG4, 31, 1⟩
/-- QI_HELD_LO: R230. -/
def QI_HELD_LO : Nat := 0x100060
/-- QI_HELD_HI: R230. -/
def QI_HELD_HI : Nat := 0x100064
/-- QI_READY_LO: R230. -/
def QI_READY_LO : Nat := 0x100068
/-- QI_READY_HI: R230. -/
def QI_READY_HI : Nat := 0x10006C
/-- QI_UNREL_LO: R230. -/
def QI_UNREL_LO : Nat := 0x100070
/-- QI_UNREL_HI: R230. -/
def QI_UNREL_HI : Nat := 0x100074
/-- QI_PKTS_LO: R230. -/
def QI_PKTS_LO : Nat := 0x100078
/-- QI_PKTS_HI: R230. -/
def QI_PKTS_HI : Nat := 0x10007C
/-- QI_PUSHED_LO: R230. -/
def QI_PUSHED_LO : Nat := 0x100080
/-- QI_PUSHED_HI: R230. -/
def QI_PUSHED_HI : Nat := 0x100084
/-- QI_POPPED_LO: R230. -/
def QI_POPPED_LO : Nat := 0x100088
/-- QI_POPPED_HI: R230. -/
def QI_POPPED_HI : Nat := 0x10008C
/-- QI_HWM_LO: R230. -/
def QI_HWM_LO : Nat := 0x100090
/-- QI_HWM_HI: R230. -/
def QI_HWM_HI : Nat := 0x100094
/-- QI_REFUSED: R230. -/
def QI_REFUSED : Nat := 0x100098
/-- QI_LOST: R230. -/
def QI_LOST : Nat := 0x10009C
/-- QI_LOST_PKT: R230. -/
def QI_LOST_PKT : Nat := 0x1000A0
/-- QI_FAULTS: R230. -/
def QI_FAULTS : Nat := 0x1000A4
/-- QI_BLOCKS: R230. -/
def QI_BLOCKS : Nat := 0x1000A8
/-- QI_FLAGS: R230. -/
def QI_FLAGS : Nat := 0x1000AC
/-- QF_CNT_ABSENT: R231. -/
def QF_CNT_ABSENT : Nat := 0x1000C0
/-- QF_CNT_BADACC: R231. -/
def QF_CNT_BADACC : Nat := 0x1000C4
/-- QF_CNT_DELWORDS: R231. -/
def QF_CNT_DELWORDS : Nat := 0x1000C8
/-- QF_QSTAT: R226. -/
def QF_QSTAT : Nat := 0x1000CC
def QF_QSTAT.BUSY : Fld := ⟨QF_QSTAT, 0, 1⟩
/-- QF_NOTIFY_SUM: R232. -/
def QF_NOTIFY_SUM (i : Nat) : Nat := 0x101000 + 4 * i
def QF_NOTIFY_SUM.SUM (i : Nat) : Fld := ⟨QF_NOTIFY_SUM i, 0, 32⟩
/-- QF_NOTIFY: R232. -/
def QF_NOTIFY (i : Nat) : Nat := 0x102000 + 4 * i
def QF_NOTIFY.COND (i : Nat) : Fld := ⟨QF_NOTIFY i, 0, 32⟩

/-! ### Eddy store (0x0011_0000) -/
/-- ED_STAT: R262. -/
def ED_STAT : Nat := 0x110000
def ED_STAT.D0_POOL : Fld := ⟨ED_STAT, 0, 1⟩
def ED_STAT.D1_POOL : Fld := ⟨ED_STAT, 1, 1⟩
def ED_STAT.OC_POOL : Fld := ⟨ED_STAT, 2, 1⟩
/-- ED_CFG: R262. -/
def ED_CFG : Nat := 0x110004
def ED_CFG.SHARE : Fld := ⟨ED_CFG, 0, 4⟩
def ED_CFG.PF_MAX : Fld := ⟨ED_CFG, 8, 4⟩
/-- ED_EBLOCKS: R262. -/
def ED_EBLOCKS : Nat := 0x110008
def ED_EBLOCKS.BLOCKS : Fld := ⟨ED_EBLOCKS, 0, 26⟩
/-- ED_OBLOCKS: R262. -/
def ED_OBLOCKS : Nat := 0x11000C
def ED_OBLOCKS.BLOCKS : Fld := ⟨ED_OBLOCKS, 0, 13⟩
/-- ED_EVT: R263. -/
def ED_EVT : Nat := 0x110010
def ED_EVT.RES_CUT : Fld := ⟨ED_EVT, 0, 1⟩
def ED_EVT.POOL_EMPTY : Fld := ⟨ED_EVT, 1, 1⟩
def ED_EVT.REFILL_WAIT : Fld := ⟨ED_EVT, 2, 1⟩
def ED_EVT.ECC_DATA : Fld := ⟨ED_EVT, 3, 1⟩
def ED_EVT.PINNED : Fld := ⟨ED_EVT, 4, 1⟩
/-- ED_EVT_EN: R263. -/
def ED_EVT_EN : Nat := 0x110014
def ED_EVT_EN.RES_CUT : Fld := ⟨ED_EVT_EN, 0, 1⟩
def ED_EVT_EN.POOL_EMPTY : Fld := ⟨ED_EVT_EN, 1, 1⟩
def ED_EVT_EN.REFILL_WAIT : Fld := ⟨ED_EVT_EN, 2, 1⟩
def ED_EVT_EN.ECC_DATA : Fld := ⟨ED_EVT_EN, 3, 1⟩
def ED_EVT_EN.PINNED : Fld := ⟨ED_EVT_EN, 4, 1⟩
/-- ED_QSEL: R264. -/
def ED_QSEL : Nat := 0x110020
def ED_QSEL.QID : Fld := ⟨ED_QSEL, 0, 16⟩
/-- ED_QCAP_LO: R264. -/
def ED_QCAP_LO : Nat := 0x110024
def ED_QCAP_LO.CTOT_LO : Fld := ⟨ED_QCAP_LO, 0, 32⟩
/-- ED_QCAP_HI: R264. -/
def ED_QCAP_HI : Nat := 0x110028
def ED_QCAP_HI.CTOT_HI : Fld := ⟨ED_QCAP_HI, 0, 1⟩
/-- ED_QINFO: R264. -/
def ED_QINFO : Nat := 0x11002C
def ED_QINFO.PF_DEPTH : Fld := ⟨ED_QINFO, 0, 4⟩
def ED_QINFO.WARMING : Fld := ⟨ED_QINFO, 4, 1⟩
def ED_QINFO.SAMPLES : Fld := ⟨ED_QINFO, 5, 3⟩
def ED_QINFO.SPILL_ACT : Fld := ⟨ED_QINFO, 8, 4⟩
def ED_QINFO.PINNED : Fld := ⟨ED_QINFO, 12, 1⟩
/-- ED_QBLK_E: R264. -/
def ED_QBLK_E : Nat := 0x110030
def ED_QBLK_E.BLOCKS : Fld := ⟨ED_QBLK_E, 0, 32⟩
/-- ED_QBLK_O: R264. -/
def ED_QBLK_O : Nat := 0x110034
def ED_QBLK_O.BLOCKS : Fld := ⟨ED_QBLK_O, 0, 32⟩
/-- ED_QRES: R264. -/
def ED_QRES : Nat := 0x110038
def ED_QRES.GRANTED : Fld := ⟨ED_QRES, 0, 16⟩
/-- ED_CNT_SPILL: R265. -/
def ED_CNT_SPILL : Nat := 0x110040
/-- ED_CNT_REFILL: R265. -/
def ED_CNT_REFILL : Nat := 0x110044
/-- ED_CNT_PREFETCH: R265. -/
def ED_CNT_PREFETCH : Nat := 0x110048
/-- ED_CNT_WAITRD: R265. -/
def ED_CNT_WAITRD : Nat := 0x11004C
/-- ED_CNT_ECCW: R265. -/
def ED_CNT_ECCW : Nat := 0x110050

/-! ### Network ports (0x0020_0000 + n × 0x4000) -/
/-- NP_CTRL: R425. -/
def NP_CTRL (n : Nat) : Nat := 0x200000 + 0x4000 * n
def NP_CTRL.EN (n : Nat) : Fld := ⟨NP_CTRL n, 0, 1⟩
def NP_CTRL.PWR_OFF (n : Nat) : Fld := ⟨NP_CTRL n, 1, 1⟩
def NP_CTRL.IF_MODE (n : Nat) : Fld := ⟨NP_CTRL n, 2, 2⟩
def NP_CTRL.AN_EN (n : Nat) : Fld := ⟨NP_CTRL n, 4, 1⟩
def NP_CTRL.FORCE_SPEED (n : Nat) : Fld := ⟨NP_CTRL n, 5, 2⟩
def NP_CTRL.LOOPBACK (n : Nat) : Fld := ⟨NP_CTRL n, 7, 1⟩
def NP_CTRL.KEEP_BAD (n : Nat) : Fld := ⟨NP_CTRL n, 8, 1⟩
/-- NP_STAT: R425. -/
def NP_STAT (n : Nat) : Nat := 0x200004 + 0x4000 * n
def NP_STAT.LINK_UP (n : Nat) : Fld := ⟨NP_STAT n, 0, 1⟩
def NP_STAT.SPEED (n : Nat) : Fld := ⟨NP_STAT n, 1, 2⟩
def NP_STAT.AN_DONE (n : Nat) : Fld := ⟨NP_STAT n, 3, 1⟩
def NP_STAT.HD_PARTNER (n : Nat) : Fld := ⟨NP_STAT n, 4, 1⟩
def NP_STAT.FORCED_DOWN (n : Nat) : Fld := ⟨NP_STAT n, 5, 1⟩
def NP_STAT.SIG_DET (n : Nat) : Fld := ⟨NP_STAT n, 6, 1⟩
def NP_STAT.SERVED (n : Nat) : Fld := ⟨NP_STAT n, 7, 1⟩
def NP_STAT.CT_AUTO (n : Nat) : Fld := ⟨NP_STAT n, 8, 1⟩
def NP_STAT.PWR_ON (n : Nat) : Fld := ⟨NP_STAT n, 9, 1⟩
/-- NP_EVT: R426. -/
def NP_EVT (n : Nat) : Nat := 0x200008 + 0x4000 * n
def NP_EVT.LINK_UP (n : Nat) : Fld := ⟨NP_EVT n, 0, 1⟩
def NP_EVT.LINK_DOWN (n : Nat) : Fld := ⟨NP_EVT n, 1, 1⟩
def NP_EVT.HD_REFUSED (n : Nat) : Fld := ⟨NP_EVT n, 2, 1⟩
def NP_EVT.RX_DROP (n : Nat) : Fld := ⟨NP_EVT n, 3, 1⟩
def NP_EVT.TOO_LONG (n : Nat) : Fld := ⟨NP_EVT n, 4, 1⟩
def NP_EVT.CC_DONE (n : Nat) : Fld := ⟨NP_EVT n, 5, 1⟩
def NP_EVT.GATE_OVR (n : Nat) : Fld := ⟨NP_EVT n, 6, 1⟩
def NP_EVT.CT_STOMP (n : Nat) : Fld := ⟨NP_EVT n, 7, 1⟩
def NP_EVT.CT_FALLBACK (n : Nat) : Fld := ⟨NP_EVT n, 8, 1⟩
def NP_EVT.PHY_EVT (n : Nat) : Fld := ⟨NP_EVT n, 9, 1⟩
/-- NP_EVT_EN: R426. -/
def NP_EVT_EN (n : Nat) : Nat := 0x20000C + 0x4000 * n
def NP_EVT_EN.LINK_UP (n : Nat) : Fld := ⟨NP_EVT_EN n, 0, 1⟩
def NP_EVT_EN.LINK_DOWN (n : Nat) : Fld := ⟨NP_EVT_EN n, 1, 1⟩
def NP_EVT_EN.HD_REFUSED (n : Nat) : Fld := ⟨NP_EVT_EN n, 2, 1⟩
def NP_EVT_EN.RX_DROP (n : Nat) : Fld := ⟨NP_EVT_EN n, 3, 1⟩
def NP_EVT_EN.TOO_LONG (n : Nat) : Fld := ⟨NP_EVT_EN n, 4, 1⟩
def NP_EVT_EN.CC_DONE (n : Nat) : Fld := ⟨NP_EVT_EN n, 5, 1⟩
def NP_EVT_EN.GATE_OVR (n : Nat) : Fld := ⟨NP_EVT_EN n, 6, 1⟩
def NP_EVT_EN.CT_STOMP (n : Nat) : Fld := ⟨NP_EVT_EN n, 7, 1⟩
def NP_EVT_EN.CT_FALLBACK (n : Nat) : Fld := ⟨NP_EVT_EN n, 8, 1⟩
def NP_EVT_EN.PHY_EVT (n : Nat) : Fld := ⟨NP_EVT_EN n, 9, 1⟩
/-- NP_RXCFG: R425. -/
def NP_RXCFG (n : Nat) : Nat := 0x200010 + 0x4000 * n
def NP_RXCFG.MAX_LEN (n : Nat) : Fld := ⟨NP_RXCFG n, 0, 14⟩
/-- NP_TSCOMP: R425. -/
def NP_TSCOMP (n : Nat) : Nat := 0x200014 + 0x4000 * n
def NP_TSCOMP.RX_COMP (n : Nat) : Fld := ⟨NP_TSCOMP n, 0, 16⟩
def NP_TSCOMP.TX_COMP (n : Nat) : Fld := ⟨NP_TSCOMP n, 16, 16⟩
/-- NP_AN_LP: R425. -/
def NP_AN_LP (n : Nat) : Nat := 0x200018 + 0x4000 * n
def NP_AN_LP.ABILITY (n : Nat) : Fld := ⟨NP_AN_LP n, 0, 16⟩
/-- NP_CT: R425. -/
def NP_CT (n : Nat) : Nat := 0x200020 + 0x4000 * n
def NP_CT.MODE (n : Nat) : Fld := ⟨NP_CT n, 0, 2⟩
def NP_CT.CLASS (n : Nat) : Fld := ⟨NP_CT n, 2, 3⟩
/-- NP_GCL_CTRL: R427. -/
def NP_GCL_CTRL (n : Nat) : Nat := 0x200040 + 0x4000 * n
def NP_GCL_CTRL.GATE_EN (n : Nat) : Fld := ⟨NP_GCL_CTRL n, 0, 1⟩
def NP_GCL_CTRL.CONFIG_CHANGE (n : Nat) : Fld := ⟨NP_GCL_CTRL n, 1, 1⟩
def NP_GCL_CTRL.CC_CANCEL (n : Nat) : Fld := ⟨NP_GCL_CTRL n, 2, 1⟩
def NP_GCL_CTRL.CC_PENDING (n : Nat) : Fld := ⟨NP_GCL_CTRL n, 3, 1⟩
/-- NP_GCL_ALEN: R427. -/
def NP_GCL_ALEN (n : Nat) : Nat := 0x200044 + 0x4000 * n
def NP_GCL_ALEN.LEN (n : Nat) : Fld := ⟨NP_GCL_ALEN n, 0, 9⟩
/-- NP_GCL_ABASE_NS: R427. -/
def NP_GCL_ABASE_NS (n : Nat) : Nat := 0x200048 + 0x4000 * n
def NP_GCL_ABASE_NS.NS (n : Nat) : Fld := ⟨NP_GCL_ABASE_NS n, 0, 32⟩
/-- NP_GCL_ABASE_SL: R427. -/
def NP_GCL_ABASE_SL (n : Nat) : Nat := 0x20004C + 0x4000 * n
def NP_GCL_ABASE_SL.SEC_LO (n : Nat) : Fld := ⟨NP_GCL_ABASE_SL n, 0, 32⟩
/-- NP_GCL_ABASE_SH: R427. -/
def NP_GCL_ABASE_SH (n : Nat) : Nat := 0x200050 + 0x4000 * n
def NP_GCL_ABASE_SH.SEC_HI (n : Nat) : Fld := ⟨NP_GCL_ABASE_SH n, 0, 16⟩
/-- NP_GCL_ACYCLE: R427. -/
def NP_GCL_ACYCLE (n : Nat) : Nat := 0x200054 + 0x4000 * n
def NP_GCL_ACYCLE.CYCLE_NS (n : Nat) : Fld := ⟨NP_GCL_ACYCLE n, 0, 32⟩
/-- NP_GCL_AEXT: R427. -/
def NP_GCL_AEXT (n : Nat) : Nat := 0x200058 + 0x4000 * n
def NP_GCL_AEXT.EXT_NS (n : Nat) : Fld := ⟨NP_GCL_AEXT n, 0, 32⟩
/-- NP_GCL_SEL: R427. -/
def NP_GCL_SEL (n : Nat) : Nat := 0x20005C + 0x4000 * n
def NP_GCL_SEL.ENTRY (n : Nat) : Fld := ⟨NP_GCL_SEL n, 0, 8⟩
def NP_GCL_SEL.OPER (n : Nat) : Fld := ⟨NP_GCL_SEL n, 8, 1⟩
/-- NP_GCL_GATES: R427. -/
def NP_GCL_GATES (n : Nat) : Nat := 0x200060 + 0x4000 * n
def NP_GCL_GATES.STATE (n : Nat) : Fld := ⟨NP_GCL_GATES n, 0, 8⟩
/-- NP_GCL_INTERVAL: R427. -/
def NP_GCL_INTERVAL (n : Nat) : Nat := 0x200064 + 0x4000 * n
def NP_GCL_INTERVAL.NS (n : Nat) : Fld := ⟨NP_GCL_INTERVAL n, 0, 32⟩
/-- NP_GCL_OLEN: R427. -/
def NP_GCL_OLEN (n : Nat) : Nat := 0x200068 + 0x4000 * n
def NP_GCL_OLEN.LEN (n : Nat) : Fld := ⟨NP_GCL_OLEN n, 0, 9⟩
/-- NP_GCL_CCT_NS: R427. -/
def NP_GCL_CCT_NS (n : Nat) : Nat := 0x20006C + 0x4000 * n
def NP_GCL_CCT_NS.NS (n : Nat) : Fld := ⟨NP_GCL_CCT_NS n, 0, 32⟩
/-- NP_GCL_CCT_SL: R427. -/
def NP_GCL_CCT_SL (n : Nat) : Nat := 0x200070 + 0x4000 * n
def NP_GCL_CCT_SL.SEC_LO (n : Nat) : Fld := ⟨NP_GCL_CCT_SL n, 0, 32⟩
/-- NP_GCL_CCT_SH: R427. -/
def NP_GCL_CCT_SH (n : Nat) : Nat := 0x200074 + 0x4000 * n
def NP_GCL_CCT_SH.SEC_HI (n : Nat) : Fld := ⟨NP_GCL_CCT_SH n, 0, 16⟩
/-- NP_GCL_OCYCLE: R427. -/
def NP_GCL_OCYCLE (n : Nat) : Nat := 0x200078 + 0x4000 * n
def NP_GCL_OCYCLE.CYCLE_NS (n : Nat) : Fld := ⟨NP_GCL_OCYCLE n, 0, 32⟩
/-- NP_GCL_OSTAT: R427. -/
def NP_GCL_OSTAT (n : Nat) : Nat := 0x20007C + 0x4000 * n
def NP_GCL_OSTAT.GATES (n : Nat) : Fld := ⟨NP_GCL_OSTAT n, 0, 8⟩
def NP_GCL_OSTAT.ENTRY (n : Nat) : Fld := ⟨NP_GCL_OSTAT n, 8, 8⟩
/-- NP_CNT_RXFRM: R428. -/
def NP_CNT_RXFRM (n : Nat) : Nat := 0x200100 + 0x4000 * n
/-- NP_CNT_RXOCT: R428. -/
def NP_CNT_RXOCT (n : Nat) : Nat := 0x200104 + 0x4000 * n
/-- NP_CNT_FCS: R428. -/
def NP_CNT_FCS (n : Nat) : Nat := 0x200108 + 0x4000 * n
/-- NP_CNT_RUNT: R428. -/
def NP_CNT_RUNT (n : Nat) : Nat := 0x20010C + 0x4000 * n
/-- NP_CNT_LONG: R428. -/
def NP_CNT_LONG (n : Nat) : Nat := 0x200110 + 0x4000 * n
/-- NP_CNT_SYMERR: R428. -/
def NP_CNT_SYMERR (n : Nat) : Nat := 0x200114 + 0x4000 * n
/-- NP_CNT_WINDROP: R428. -/
def NP_CNT_WINDROP (n : Nat) : Nat := 0x200118 + 0x4000 * n
/-- NP_CNT_NOSERV: R428. -/
def NP_CNT_NOSERV (n : Nat) : Nat := 0x20011C + 0x4000 * n
/-- NP_CNT_TXFRM: R428. -/
def NP_CNT_TXFRM (n : Nat) : Nat := 0x200120 + 0x4000 * n
/-- NP_CNT_TXOCT: R428. -/
def NP_CNT_TXOCT (n : Nat) : Nat := 0x200124 + 0x4000 * n
/-- NP_CNT_TOOLONG: R428. -/
def NP_CNT_TOOLONG (n : Nat) : Nat := 0x200128 + 0x4000 * n
/-- NP_CNT_GATEOVR: R428. -/
def NP_CNT_GATEOVR (n : Nat) : Nat := 0x20012C + 0x4000 * n
/-- NP_CNT_TXDOWN: R428. -/
def NP_CNT_TXDOWN (n : Nat) : Nat := 0x200130 + 0x4000 * n
/-- NP_CNT_CTFWD: R428. -/
def NP_CNT_CTFWD (n : Nat) : Nat := 0x200134 + 0x4000 * n
/-- NP_CNT_CTSTOMP: R428. -/
def NP_CNT_CTSTOMP (n : Nat) : Nat := 0x200138 + 0x4000 * n
/-- NP_CNT_CTBUF: R428. -/
def NP_CNT_CTBUF (n : Nat) : Nat := 0x20013C + 0x4000 * n
/-- NP_CNT_CTDROP: R428. -/
def NP_CNT_CTDROP (n : Nat) : Nat := 0x200140 + 0x4000 * n
/-- NP_CNT_CUT: R428. -/
def NP_CNT_CUT (n : Nat) : Nat := 0x200144 + 0x4000 * n

/-! ### MDIO masters -/
/-- MD_CFG: R429. -/
def MD_CFG (n : Nat) : Nat := 0x230000 + 0x100 * n
def MD_CFG.DIV (n : Nat) : Fld := ⟨MD_CFG n, 0, 8⟩
def MD_CFG.NO_PRE (n : Nat) : Fld := ⟨MD_CFG n, 8, 1⟩
/-- MD_CMD: R429. -/
def MD_CMD (n : Nat) : Nat := 0x230004 + 0x100 * n
def MD_CMD.PHYAD (n : Nat) : Fld := ⟨MD_CMD n, 0, 5⟩
def MD_CMD.REGAD (n : Nat) : Fld := ⟨MD_CMD n, 5, 5⟩
def MD_CMD.C45 (n : Nat) : Fld := ⟨MD_CMD n, 10, 1⟩
def MD_CMD.OP (n : Nat) : Fld := ⟨MD_CMD n, 11, 2⟩
def MD_CMD.WDATA (n : Nat) : Fld := ⟨MD_CMD n, 16, 16⟩
/-- MD_DATA: R429. -/
def MD_DATA (n : Nat) : Nat := 0x230008 + 0x100 * n
def MD_DATA.RDATA (n : Nat) : Fld := ⟨MD_DATA n, 0, 16⟩
/-- MD_STAT: R429. -/
def MD_STAT (n : Nat) : Nat := 0x23000C + 0x100 * n
def MD_STAT.BUSY (n : Nat) : Fld := ⟨MD_STAT n, 0, 1⟩
def MD_STAT.DONE (n : Nat) : Fld := ⟨MD_STAT n, 1, 1⟩
def MD_STAT.OVR (n : Nat) : Fld := ⟨MD_STAT n, 2, 1⟩

/-! ### Communication engines (0x0030_0000 + n × 0x2000) -/
/-- CE_CTRL: R396. -/
def CE_CTRL (n : Nat) : Nat := 0x300000 + 0x2000 * n
def CE_CTRL.START (n : Nat) : Fld := ⟨CE_CTRL n, 0, 1⟩
def CE_CTRL.HALT (n : Nat) : Fld := ⟨CE_CTRL n, 1, 1⟩
def CE_CTRL.ON_FAULT (n : Nat) : Fld := ⟨CE_CTRL n, 4, 1⟩
def CE_CTRL.RESTART_LIM (n : Nat) : Fld := ⟨CE_CTRL n, 8, 4⟩
/-- CE_STAT: R396. -/
def CE_STAT (n : Nat) : Nat := 0x300004 + 0x2000 * n
def CE_STAT.STATE (n : Nat) : Fld := ⟨CE_STAT n, 0, 3⟩
def CE_STAT.WHY (n : Nat) : Fld := ⟨CE_STAT n, 4, 3⟩
def CE_STAT.GROUP_IDX (n : Nat) : Fld := ⟨CE_STAT n, 8, 2⟩
def CE_STAT.GROUP_SIZE (n : Nat) : Fld := ⟨CE_STAT n, 10, 3⟩
def CE_STAT.IN_FULL (n : Nat) : Fld := ⟨CE_STAT n, 13, 1⟩
def CE_STAT.OUT_FULL (n : Nat) : Fld := ⟨CE_STAT n, 14, 1⟩
def CE_STAT.TB_VALID (n : Nat) : Fld := ⟨CE_STAT n, 15, 1⟩
def CE_STAT.RESTARTS (n : Nat) : Fld := ⟨CE_STAT n, 16, 4⟩
/-- CE_BIND: R396. -/
def CE_BIND (n : Nat) : Nat := 0x300008 + 0x2000 * n
def CE_BIND.SLOT (n : Nat) : Fld := ⟨CE_BIND n, 0, 4⟩
def CE_BIND.BIND_EN (n : Nat) : Fld := ⟨CE_BIND n, 7, 1⟩
def CE_BIND.NP_EN (n : Nat) : Fld := ⟨CE_BIND n, 8, 1⟩
/-- CE_FAULT: R397. -/
def CE_FAULT (n : Nat) : Nat := 0x30000C + 0x2000 * n
def CE_FAULT.CAUSE (n : Nat) : Fld := ⟨CE_FAULT n, 0, 3⟩
/-- CE_FAULT_ADDR: R397. -/
def CE_FAULT_ADDR (n : Nat) : Nat := 0x300010 + 0x2000 * n
def CE_FAULT_ADDR.ADDR (n : Nat) : Fld := ⟨CE_FAULT_ADDR n, 0, 16⟩
/-- CE_EVT: R398. -/
def CE_EVT (n : Nat) : Nat := 0x300014 + 0x2000 * n
def CE_EVT.MBX_OUT (n : Nat) : Fld := ⟨CE_EVT n, 0, 1⟩
def CE_EVT.MBX_OVR (n : Nat) : Fld := ⟨CE_EVT n, 1, 1⟩
def CE_EVT.FAULT (n : Nat) : Fld := ⟨CE_EVT n, 2, 1⟩
def CE_EVT.HALTED (n : Nat) : Fld := ⟨CE_EVT n, 3, 1⟩
def CE_EVT.FORCED (n : Nat) : Fld := ⟨CE_EVT n, 4, 1⟩
/-- CE_EVT_EN: R398. -/
def CE_EVT_EN (n : Nat) : Nat := 0x300018 + 0x2000 * n
def CE_EVT_EN.MBX_OUT (n : Nat) : Fld := ⟨CE_EVT_EN n, 0, 1⟩
def CE_EVT_EN.MBX_OVR (n : Nat) : Fld := ⟨CE_EVT_EN n, 1, 1⟩
def CE_EVT_EN.FAULT (n : Nat) : Fld := ⟨CE_EVT_EN n, 2, 1⟩
def CE_EVT_EN.HALTED (n : Nat) : Fld := ⟨CE_EVT_EN n, 3, 1⟩
def CE_EVT_EN.FORCED (n : Nat) : Fld := ⟨CE_EVT_EN n, 4, 1⟩
/-- CE_MBI_DB: R397. -/
def CE_MBI_DB (n : Nat) : Nat := 0x300020 + 0x2000 * n
def CE_MBI_DB.COUNT (n : Nat) : Fld := ⟨CE_MBI_DB n, 0, 4⟩
/-- CE_MBO_STAT: R397. -/
def CE_MBO_STAT (n : Nat) : Nat := 0x300024 + 0x2000 * n
def CE_MBO_STAT.COUNT (n : Nat) : Fld := ⟨CE_MBO_STAT n, 0, 5⟩
/-- CE_MBO_ACK: R397. -/
def CE_MBO_ACK (n : Nat) : Nat := 0x300028 + 0x2000 * n
def CE_MBO_ACK.ACK (n : Nat) : Fld := ⟨CE_MBO_ACK n, 0, 1⟩
/-- CE_MBI: R397. -/
def CE_MBI (n i : Nat) : Nat := 0x300040 + 0x2000 * n + 4 * i
def CE_MBI.DATA (n i : Nat) : Fld := ⟨CE_MBI n i, 0, 32⟩
/-- CE_MBO: R397. -/
def CE_MBO (n i : Nat) : Nat := 0x300080 + 0x2000 * n + 4 * i
def CE_MBO.DATA (n i : Nat) : Fld := ⟨CE_MBO n i, 0, 32⟩
/-- CE_QPORT: R397. -/
def CE_QPORT (n i : Nat) : Nat := 0x3000C0 + 0x2000 * n + 4 * i
def CE_QPORT.QID (n i : Nat) : Fld := ⟨CE_QPORT n i, 0, 16⟩
def CE_QPORT.ABSENT (n i : Nat) : Fld := ⟨CE_QPORT n i, 30, 1⟩
def CE_QPORT.BIND_EN (n i : Nat) : Fld := ⟨CE_QPORT n i, 31, 1⟩
/-- CE_CNT_FAULT: R400. -/
def CE_CNT_FAULT (n : Nat) : Nat := 0x300100 + 0x2000 * n
/-- CE_CNT_FORCED: R400. -/
def CE_CNT_FORCED (n : Nat) : Nat := 0x300104 + 0x2000 * n
/-- CE_CNT_MBXOVR: R400. -/
def CE_CNT_MBXOVR (n : Nat) : Nat := 0x300108 + 0x2000 * n
/-- CE_CNT_STOPREF: R400. -/
def CE_CNT_STOPREF (n : Nat) : Nat := 0x30010C + 0x2000 * n
/-- CE_CNT_WINDROP: R400. -/
def CE_CNT_WINDROP (n : Nat) : Nat := 0x300110 + 0x2000 * n
/-- CE_CNT_BADOP: R400. -/
def CE_CNT_BADOP (n : Nat) : Nat := 0x300114 + 0x2000 * n

/-! ### Protocol loader and clusters -/
/-- LD_CTRL: R399. -/
def LD_CTRL : Nat := 0x360000
def LD_CTRL.OP : Fld := ⟨LD_CTRL, 0, 3⟩
def LD_CTRL.SLOT : Fld := ⟨LD_CTRL, 4, 4⟩
def LD_CTRL.DMA : Fld := ⟨LD_CTRL, 8, 1⟩
def LD_CTRL.REPLACE : Fld := ⟨LD_CTRL, 9, 1⟩
/-- LD_STAT: R399. -/
def LD_STAT : Nat := 0x360004
def LD_STAT.STATE : Fld := ⟨LD_STAT, 0, 3⟩
def LD_STAT.RESULT : Fld := ⟨LD_STAT, 8, 4⟩
def LD_STAT.SLOT : Fld := ⟨LD_STAT, 12, 4⟩
def LD_STAT.OWNER : Fld := ⟨LD_STAT, 16, 3⟩
/-- LD_LEN: R399. -/
def LD_LEN : Nat := 0x360008
def LD_LEN.LEN : Fld := ⟨LD_LEN, 0, 18⟩
/-- LD_HADDR_LO: R399. -/
def LD_HADDR_LO : Nat := 0x36000C
def LD_HADDR_LO.ADDR : Fld := ⟨LD_HADDR_LO, 0, 32⟩
/-- LD_HADDR_HI: R399. -/
def LD_HADDR_HI : Nat := 0x360010
def LD_HADDR_HI.ADDR : Fld := ⟨LD_HADDR_HI, 0, 32⟩
/-- LD_DATA: R399. -/
def LD_DATA : Nat := 0x360014
def LD_DATA.DATA : Fld := ⟨LD_DATA, 0, 32⟩
/-- LD_PROGRESS: R399. -/
def LD_PROGRESS : Nat := 0x360018
def LD_PROGRESS.BYTES : Fld := ⟨LD_PROGRESS, 0, 18⟩
/-- LD_SLOTSEL: R399. -/
def LD_SLOTSEL : Nat := 0x360020
def LD_SLOTSEL.SLOT : Fld := ⟨LD_SLOTSEL, 0, 4⟩
/-- LD_SI_PROTO: R399. -/
def LD_SI_PROTO : Nat := 0x360024
def LD_SI_PROTO.PROTO_ID : Fld := ⟨LD_SI_PROTO, 0, 32⟩
/-- LD_SI_VER: R399. -/
def LD_SI_VER : Nat := 0x360028
def LD_SI_VER.IMG_VER : Fld := ⟨LD_SI_VER, 0, 32⟩
/-- LD_SI_LEN: R399. -/
def LD_SI_LEN : Nat := 0x36002C
def LD_SI_LEN.TOTAL_LEN : Fld := ⟨LD_SI_LEN, 0, 32⟩
/-- LD_SI_INFO: R399. -/
def LD_SI_INFO : Nat := 0x360030
def LD_SI_INFO.OCCUPIED : Fld := ⟨LD_SI_INFO, 0, 1⟩
def LD_SI_INFO.LOST : Fld := ⟨LD_SI_INFO, 1, 1⟩
def LD_SI_INFO.KEY_SEL : Fld := ⟨LD_SI_INFO, 2, 1⟩
def LD_SI_INFO.BOUND : Fld := ⟨LD_SI_INFO, 16, 16⟩
/-- LD_KEYSTAT: R399. -/
def LD_KEYSTAT : Nat := 0x360040
def LD_KEYSTAT.ROOT_SET : Fld := ⟨LD_KEYSTAT, 0, 1⟩
def LD_KEYSTAT.CUST_SET : Fld := ⟨LD_KEYSTAT, 1, 1⟩
/-- LD_CNT_FOREIGN: R399. -/
def LD_CNT_FOREIGN : Nat := 0x360044
/-- SV_STAT: R399. -/
def SV_STAT : Nat := 0x360080
def SV_STAT.FW_VER : Fld := ⟨SV_STAT, 0, 16⟩
def SV_STAT.SV0_BUSY : Fld := ⟨SV_STAT, 16, 1⟩
def SV_STAT.SV1_BUSY : Fld := ⟨SV_STAT, 17, 1⟩
/-- CL_CTRL: R399. -/
def CL_CTRL (i : Nat) : Nat := 0x360100 + 4 * i
def CL_CTRL.PWR_OFF (i : Nat) : Fld := ⟨CL_CTRL i, 0, 1⟩
def CL_CTRL.ON (i : Nat) : Fld := ⟨CL_CTRL i, 1, 1⟩

/-! ### Sahoz links (0x0040_0000 + n × 0x4000) -/
/-- LK_CTRL: R351. -/
def LK_CTRL (n : Nat) : Nat := 0x400000 + 0x4000 * n
def LK_CTRL.EN (n : Nat) : Fld := ⟨LK_CTRL n, 0, 1⟩
def LK_CTRL.RATE (n : Nat) : Fld := ⟨LK_CTRL n, 1, 2⟩
def LK_CTRL.FORCE_DOWN (n : Nat) : Fld := ⟨LK_CTRL n, 3, 1⟩
def LK_CTRL.TX_EQ (n : Nat) : Fld := ⟨LK_CTRL n, 4, 3⟩
/-- LK_STAT: R351. -/
def LK_STAT (n : Nat) : Nat := 0x400004 + 0x4000 * n
def LK_STAT.STATE (n : Nat) : Fld := ⟨LK_STAT n, 0, 3⟩
def LK_STAT.RATE_5G (n : Nat) : Fld := ⟨LK_STAT n, 3, 1⟩
def LK_STAT.UPSTREAM (n : Nat) : Fld := ⟨LK_STAT n, 4, 1⟩
def LK_STAT.HOLD_CAUSE (n : Nat) : Fld := ⟨LK_STAT n, 5, 3⟩
def LK_STAT.DLY_WARMING (n : Nat) : Fld := ⟨LK_STAT n, 8, 1⟩
def LK_STAT.DLY_SAMPLES (n : Nat) : Fld := ⟨LK_STAT n, 9, 4⟩
def LK_STAT.PARTNER_LINK (n : Nat) : Fld := ⟨LK_STAT n, 13, 2⟩
def LK_STAT.PARTNER_DEV (n : Nat) : Fld := ⟨LK_STAT n, 15, 6⟩
def LK_STAT.PARTNER_NUM (n : Nat) : Fld := ⟨LK_STAT n, 21, 1⟩
/-- LK_EVT: R352. -/
def LK_EVT (n : Nat) : Nat := 0x400008 + 0x4000 * n
def LK_EVT.UP (n : Nat) : Fld := ⟨LK_EVT n, 0, 1⟩
def LK_EVT.DOWN (n : Nat) : Fld := ⟨LK_EVT n, 1, 1⟩
def LK_EVT.HELD (n : Nat) : Fld := ⟨LK_EVT n, 2, 1⟩
def LK_EVT.FALLBACK (n : Nat) : Fld := ⟨LK_EVT n, 3, 1⟩
def LK_EVT.DLY_REJ (n : Nat) : Fld := ⟨LK_EVT n, 4, 1⟩
def LK_EVT.DLY_RESTART (n : Nat) : Fld := ⟨LK_EVT n, 5, 1⟩
def LK_EVT.RESYNC (n : Nat) : Fld := ⟨LK_EVT n, 6, 1⟩
def LK_EVT.SLEEP (n : Nat) : Fld := ⟨LK_EVT n, 7, 1⟩
/-- LK_EVT_EN: R352. -/
def LK_EVT_EN (n : Nat) : Nat := 0x40000C + 0x4000 * n
def LK_EVT_EN.UP (n : Nat) : Fld := ⟨LK_EVT_EN n, 0, 1⟩
def LK_EVT_EN.DOWN (n : Nat) : Fld := ⟨LK_EVT_EN n, 1, 1⟩
def LK_EVT_EN.HELD (n : Nat) : Fld := ⟨LK_EVT_EN n, 2, 1⟩
def LK_EVT_EN.FALLBACK (n : Nat) : Fld := ⟨LK_EVT_EN n, 3, 1⟩
def LK_EVT_EN.DLY_REJ (n : Nat) : Fld := ⟨LK_EVT_EN n, 4, 1⟩
def LK_EVT_EN.DLY_RESTART (n : Nat) : Fld := ⟨LK_EVT_EN n, 5, 1⟩
def LK_EVT_EN.RESYNC (n : Nat) : Fld := ⟨LK_EVT_EN n, 6, 1⟩
def LK_EVT_EN.SLEEP (n : Nat) : Fld := ⟨LK_EVT_EN n, 7, 1⟩
/-- LK_PSN: R351. -/
def LK_PSN (n i : Nat) : Nat := 0x400010 + 0x4000 * n + 4 * i
def LK_PSN.SN (n i : Nat) : Fld := ⟨LK_PSN n i, 0, 32⟩
/-- LK_DELAY: R351. -/
def LK_DELAY (n : Nat) : Nat := 0x400020 + 0x4000 * n
def LK_DELAY.DELAY_PS (n : Nat) : Fld := ⟨LK_DELAY n, 0, 32⟩
/-- LK_ASYM: R351. -/
def LK_ASYM (n : Nat) : Nat := 0x400024 + 0x4000 * n
def LK_ASYM.ASYM_PS (n : Nat) : Fld := ⟨LK_ASYM n, 0, 32⟩
/-- LK_DLYCFG: R351. -/
def LK_DLYCFG (n : Nat) : Nat := 0x400028 + 0x4000 * n
def LK_DLYCFG.REJ_NS (n : Nat) : Fld := ⟨LK_DLYCFG n, 0, 16⟩
/-- LK_DLY_LAST: R351. -/
def LK_DLY_LAST (n : Nat) : Nat := 0x40002C + 0x4000 * n
def LK_DLY_LAST.SAMPLE_PS (n : Nat) : Fld := ⟨LK_DLY_LAST n, 0, 32⟩
/-- LK_CRED_VC: R351. -/
def LK_CRED_VC (n i : Nat) : Nat := 0x400030 + 0x4000 * n + 4 * i
def LK_CRED_VC.INIT (n i : Nat) : Fld := ⟨LK_CRED_VC n i, 0, 16⟩
def LK_CRED_VC.AVAIL (n i : Nat) : Fld := ⟨LK_CRED_VC n i, 16, 16⟩
/-- LK_CNT_CRC: R353. -/
def LK_CNT_CRC (n : Nat) : Nat := 0x400040 + 0x4000 * n
/-- LK_CNT_REPLAY: R353. -/
def LK_CNT_REPLAY (n : Nat) : Nat := 0x400044 + 0x4000 * n
/-- LK_CNT_DOWN: R353. -/
def LK_CNT_DOWN (n : Nat) : Nat := 0x400048 + 0x4000 * n
/-- LK_CNT_RESYNC: R353. -/
def LK_CNT_RESYNC (n : Nat) : Nat := 0x40004C + 0x4000 * n
/-- LK_CNT_DLYREJ: R353. -/
def LK_CNT_DLYREJ (n : Nat) : Nat := 0x400050 + 0x4000 * n
/-- LK_CNT_HELLOERR: R353. -/
def LK_CNT_HELLOERR (n : Nat) : Nat := 0x400054 + 0x4000 * n
/-- LK_CNT_TXCELL: R353. -/
def LK_CNT_TXCELL (n : Nat) : Nat := 0x400058 + 0x4000 * n
/-- LK_CNT_RXCELL: R353. -/
def LK_CNT_RXCELL (n : Nat) : Nat := 0x40005C + 0x4000 * n

/-! ### Sahoz chain (0x0041_0000) -/
/-- CH_CTRL: R354. -/
def CH_CTRL : Nat := 0x410000
def CH_CTRL.ROLE : Fld := ⟨CH_CTRL, 0, 2⟩
def CH_CTRL.TIME_FOLLOW : Fld := ⟨CH_CTRL, 2, 1⟩
def CH_CTRL.FORGET : Fld := ⟨CH_CTRL, 3, 1⟩
def CH_CTRL.REENUM : Fld := ⟨CH_CTRL, 4, 1⟩
/-- CH_STAT: R354. -/
def CH_STAT : Nat := 0x410004
def CH_STAT.DEVNUM : Fld := ⟨CH_STAT, 0, 6⟩
def CH_STAT.NUMBERED : Fld := ⟨CH_STAT, 6, 1⟩
def CH_STAT.ENUM_BUSY : Fld := ⟨CH_STAT, 7, 1⟩
def CH_STAT.ENUM_DONE : Fld := ⟨CH_STAT, 8, 1⟩
def CH_STAT.UPLINK : Fld := ⟨CH_STAT, 9, 2⟩
def CH_STAT.ISOLATED : Fld := ⟨CH_STAT, 11, 1⟩
def CH_STAT.HOPS : Fld := ⟨CH_STAT, 12, 5⟩
def CH_STAT.SYNC_REL : Fld := ⟨CH_STAT, 17, 1⟩
def CH_STAT.SYNC_MISSED : Fld := ⟨CH_STAT, 18, 1⟩
def CH_STAT.MEMBERS : Fld := ⟨CH_STAT, 19, 6⟩
/-- CH_EVT: R357. -/
def CH_EVT : Nat := 0x410008
def CH_EVT.ENUM_DONE : Fld := ⟨CH_EVT, 0, 1⟩
def CH_EVT.MEMBER_NEW : Fld := ⟨CH_EVT, 1, 1⟩
def CH_EVT.MEMBER_LOST : Fld := ⟨CH_EVT, 2, 1⟩
def CH_EVT.REROUTE : Fld := ⟨CH_EVT, 3, 1⟩
def CH_EVT.ISOLATED : Fld := ⟨CH_EVT, 4, 1⟩
def CH_EVT.RD_FAIL : Fld := ⟨CH_EVT, 5, 1⟩
def CH_EVT.ORPHAN : Fld := ⟨CH_EVT, 6, 1⟩
def CH_EVT.FWD_PAUSE : Fld := ⟨CH_EVT, 7, 1⟩
def CH_EVT.DUP_UNKNOWN : Fld := ⟨CH_EVT, 8, 1⟩
def CH_EVT.SYNC_MISSED : Fld := ⟨CH_EVT, 9, 1⟩
def CH_EVT.HELD : Fld := ⟨CH_EVT, 10, 1⟩
/-- CH_EVT_EN: R357. -/
def CH_EVT_EN : Nat := 0x41000C
def CH_EVT_EN.ENUM_DONE : Fld := ⟨CH_EVT_EN, 0, 1⟩
def CH_EVT_EN.MEMBER_NEW : Fld := ⟨CH_EVT_EN, 1, 1⟩
def CH_EVT_EN.MEMBER_LOST : Fld := ⟨CH_EVT_EN, 2, 1⟩
def CH_EVT_EN.REROUTE : Fld := ⟨CH_EVT_EN, 3, 1⟩
def CH_EVT_EN.ISOLATED : Fld := ⟨CH_EVT_EN, 4, 1⟩
def CH_EVT_EN.RD_FAIL : Fld := ⟨CH_EVT_EN, 5, 1⟩
def CH_EVT_EN.ORPHAN : Fld := ⟨CH_EVT_EN, 6, 1⟩
def CH_EVT_EN.FWD_PAUSE : Fld := ⟨CH_EVT_EN, 7, 1⟩
def CH_EVT_EN.DUP_UNKNOWN : Fld := ⟨CH_EVT_EN, 8, 1⟩
def CH_EVT_EN.SYNC_MISSED : Fld := ⟨CH_EVT_EN, 9, 1⟩
def CH_EVT_EN.HELD : Fld := ⟨CH_EVT_EN, 10, 1⟩
/-- CH_CFG: R355. -/
def CH_CFG : Nat := 0x410010
def CH_CFG.SYNC_US : Fld := ⟨CH_CFG, 0, 16⟩
def CH_CFG.DLY_MS : Fld := ⟨CH_CFG, 16, 8⟩
/-- CH_BUF: R355. -/
def CH_BUF : Nat := 0x410014
def CH_BUF.VCU : Fld := ⟨CH_BUF, 0, 32⟩
/-- CH_VCW: R355. -/
def CH_VCW : Nat := 0x410018
def CH_VCW.W0 : Fld := ⟨CH_VCW, 0, 4⟩
def CH_VCW.W1 : Fld := ⟨CH_VCW, 4, 4⟩
def CH_VCW.W3 : Fld := ⟨CH_VCW, 8, 4⟩
/-- CH_RDTMO: R355. -/
def CH_RDTMO : Nat := 0x41001C
def CH_RDTMO.TMO_US : Fld := ⟨CH_RDTMO, 0, 20⟩
/-- CH_LOSTTMO: R355. -/
def CH_LOSTTMO : Nat := 0x410020
def CH_LOSTTMO.TMO_US : Fld := ⟨CH_LOSTTMO, 0, 16⟩
/-- CH_SERVO: R355. -/
def CH_SERVO : Nat := 0x410024
def CH_SERVO.G_SHIFT : Fld := ⟨CH_SERVO, 0, 4⟩
/-- CH_TSTAT: R354. -/
def CH_TSTAT : Nat := 0x410028
def CH_TSTAT.ROOT_QUALITY : Fld := ⟨CH_TSTAT, 0, 3⟩
def CH_TSTAT.SERVO_WARM : Fld := ⟨CH_TSTAT, 3, 1⟩
def CH_TSTAT.CHAIN_VALID : Fld := ⟨CH_TSTAT, 4, 1⟩
def CH_TSTAT.SYNC_HOPS : Fld := ⟨CH_TSTAT, 5, 5⟩
/-- CH_OFFSET: R355. -/
def CH_OFFSET : Nat := 0x41002C
def CH_OFFSET.OFFSET_PS : Fld := ⟨CH_OFFSET, 0, 32⟩
/-- CH_REQ: R355. -/
def CH_REQ : Nat := 0x410030
def CH_REQ.DEV : Fld := ⟨CH_REQ, 0, 6⟩
def CH_REQ.ALL : Fld := ⟨CH_REQ, 6, 1⟩
def CH_REQ.OP : Fld := ⟨CH_REQ, 8, 2⟩
def CH_REQ.GO : Fld := ⟨CH_REQ, 31, 1⟩
/-- CH_FWDCFG: R355. -/
def CH_FWDCFG : Nat := 0x410034
def CH_FWDCFG.RETRY_US : Fld := ⟨CH_FWDCFG, 0, 16⟩
/-- CH_RTE: R356. -/
def CH_RTE (i : Nat) : Nat := 0x410040 + 4 * i
def CH_RTE.LINK (i : Nat) : Fld := ⟨CH_RTE i, 0, 32⟩
/-- CH_MAPSEL: R356. -/
def CH_MAPSEL : Nat := 0x410050
def CH_MAPSEL.DEV : Fld := ⟨CH_MAPSEL, 0, 6⟩
/-- CH_MAP_SN: R356. -/
def CH_MAP_SN (i : Nat) : Nat := 0x410054 + 4 * i
def CH_MAP_SN.SN (i : Nat) : Fld := ⟨CH_MAP_SN i, 0, 32⟩
/-- CH_MAP_INFO: R356. -/
def CH_MAP_INFO : Nat := 0x410068
def CH_MAP_INFO.PRESENT : Fld := ⟨CH_MAP_INFO, 0, 1⟩
def CH_MAP_INFO.LOST : Fld := ⟨CH_MAP_INFO, 1, 1⟩
def CH_MAP_INFO.ASLEEP : Fld := ⟨CH_MAP_INFO, 2, 1⟩
def CH_MAP_INFO.PINNED : Fld := ⟨CH_MAP_INFO, 3, 1⟩
def CH_MAP_INFO.ROUTED : Fld := ⟨CH_MAP_INFO, 4, 1⟩
def CH_MAP_INFO.HOPS : Fld := ⟨CH_MAP_INFO, 5, 5⟩
def CH_MAP_INFO.PARENT : Fld := ⟨CH_MAP_INFO, 10, 6⟩
def CH_MAP_INFO.PARENT_LINK : Fld := ⟨CH_MAP_INFO, 16, 2⟩
/-- CH_ORPH_STAT: R356. -/
def CH_ORPH_STAT : Nat := 0x410080
def CH_ORPH_STAT.NEXT : Fld := ⟨CH_ORPH_STAT, 0, 6⟩
def CH_ORPH_STAT.WRAPPED : Fld := ⟨CH_ORPH_STAT, 6, 1⟩
/-- CH_ORPH_LOST: R356. -/
def CH_ORPH_LOST : Nat := 0x410084
def CH_ORPH_LOST.COUNT : Fld := ⟨CH_ORPH_LOST, 0, 32⟩
/-- CH_CNT_RDFAIL: R358. -/
def CH_CNT_RDFAIL : Nat := 0x410100
/-- CH_CNT_ORPHAN: R358. -/
def CH_CNT_ORPHAN : Nat := 0x410104
/-- CH_CNT_NODEV: R358. -/
def CH_CNT_NODEV : Nat := 0x410108
/-- CH_CNT_REROUTE: R358. -/
def CH_CNT_REROUTE : Nat := 0x41010C
/-- CH_CNT_LOST: R358. -/
def CH_CNT_LOST : Nat := 0x410110
/-- CH_CNT_SYNCRX: R358. -/
def CH_CNT_SYNCRX : Nat := 0x410114
/-- CH_CNT_FWDRET: R358. -/
def CH_CNT_FWDRET : Nat := 0x410118
/-- CH_CNT_DUP: R358. -/
def CH_CNT_DUP : Nat := 0x41011C
/-- CH_CNT_DUPUNK: R358. -/
def CH_CNT_DUPUNK : Nat := 0x410120

/-! ### Host interface (0x0050_0000) -/
/-- HI_STAT: R466. -/
def HI_STAT : Nat := 0x500000
def HI_STAT.LINK_UP : Fld := ⟨HI_STAT, 0, 1⟩
def HI_STAT.GEN : Fld := ⟨HI_STAT, 1, 3⟩
def HI_STAT.WIDTH : Fld := ⟨HI_STAT, 4, 3⟩
def HI_STAT.DSTATE : Fld := ⟨HI_STAT, 7, 2⟩
def HI_STAT.BME : Fld := ⟨HI_STAT, 9, 1⟩
/-- HI_LINKCFG: R466. -/
def HI_LINKCFG : Nat := 0x500004
def HI_LINKCFG.MAX_GEN : Fld := ⟨HI_LINKCFG, 0, 3⟩
def HI_LINKCFG.MAX_WIDTH : Fld := ⟨HI_LINKCFG, 3, 3⟩
def HI_LINKCFG.SRIS : Fld := ⟨HI_LINKCFG, 6, 1⟩
/-- HI_EVT: R467. -/
def HI_EVT : Nat := 0x500008
def HI_EVT.LINK_UP : Fld := ⟨HI_EVT, 0, 1⟩
def HI_EVT.LINK_RESET : Fld := ⟨HI_EVT, 1, 1⟩
def HI_EVT.BAD_DB : Fld := ⟨HI_EVT, 2, 1⟩
def HI_EVT.BAD_CFG : Fld := ⟨HI_EVT, 3, 1⟩
def HI_EVT.DMA_ERR : Fld := ⟨HI_EVT, 4, 1⟩
def HI_EVT.FEAT_REPEAT : Fld := ⟨HI_EVT, 5, 1⟩
def HI_EVT.ABT_BUSY : Fld := ⟨HI_EVT, 6, 1⟩
def HI_EVT.TAG_BUSY : Fld := ⟨HI_EVT, 7, 1⟩
/-- HI_EVT_EN: R467. -/
def HI_EVT_EN : Nat := 0x50000C
def HI_EVT_EN.LINK_UP : Fld := ⟨HI_EVT_EN, 0, 1⟩
def HI_EVT_EN.LINK_RESET : Fld := ⟨HI_EVT_EN, 1, 1⟩
def HI_EVT_EN.BAD_DB : Fld := ⟨HI_EVT_EN, 2, 1⟩
def HI_EVT_EN.BAD_CFG : Fld := ⟨HI_EVT_EN, 3, 1⟩
def HI_EVT_EN.DMA_ERR : Fld := ⟨HI_EVT_EN, 4, 1⟩
def HI_EVT_EN.FEAT_REPEAT : Fld := ⟨HI_EVT_EN, 5, 1⟩
def HI_EVT_EN.ABT_BUSY : Fld := ⟨HI_EVT_EN, 6, 1⟩
def HI_EVT_EN.TAG_BUSY : Fld := ⟨HI_EVT_EN, 7, 1⟩
/-- HI_ABT_DB_LO: R459. -/
def HI_ABT_DB_LO : Nat := 0x500010
def HI_ABT_DB_LO.DB : Fld := ⟨HI_ABT_DB_LO, 0, 32⟩
/-- HI_ABT_DB_HI: R459. -/
def HI_ABT_DB_HI : Nat := 0x500014
def HI_ABT_DB_HI.DB : Fld := ⟨HI_ABT_DB_HI, 0, 32⟩
/-- HI_ABT_STAT: R466. -/
def HI_ABT_STAT : Nat := 0x500018
def HI_ABT_STAT.IN_USE : Fld := ⟨HI_ABT_STAT, 0, 7⟩
/-- HI_CNT_CMD: R472. -/
def HI_CNT_CMD : Nat := 0x500080
/-- HI_CNT_REJECT: R472. -/
def HI_CNT_REJECT : Nat := 0x500084
/-- HI_CNT_DMAERR: R472. -/
def HI_CNT_DMAERR : Nat := 0x500088
/-- HI_CNT_LINKDROP: R472. -/
def HI_CNT_LINKDROP : Nat := 0x50008C
/-- HI_CNT_STALE: R472. -/
def HI_CNT_STALE : Nat := 0x500090
/-- HI_CNT_BADDB: R472. -/
def HI_CNT_BADDB : Nat := 0x500094
/-- SQ_BASE_LO: R468. -/
def SQ_BASE_LO (i : Nat) : Nat := 0x501000 + 32 * i
def SQ_BASE_LO.BASE (i : Nat) : Fld := ⟨SQ_BASE_LO i, 12, 20⟩
/-- SQ_BASE_HI: R468. -/
def SQ_BASE_HI (i : Nat) : Nat := 0x501004 + 32 * i
def SQ_BASE_HI.BASE (i : Nat) : Fld := ⟨SQ_BASE_HI i, 0, 32⟩
/-- SQ_CFG: R468. -/
def SQ_CFG (i : Nat) : Nat := 0x501008 + 32 * i
def SQ_CFG.SIZE (i : Nat) : Fld := ⟨SQ_CFG i, 0, 5⟩
def SQ_CFG.CQ (i : Nat) : Fld := ⟨SQ_CFG i, 8, 6⟩
def SQ_CFG.WEIGHT (i : Nat) : Fld := ⟨SQ_CFG i, 16, 4⟩
/-- SQ_CTRL: R468. -/
def SQ_CTRL (i : Nat) : Nat := 0x50100C + 32 * i
def SQ_CTRL.EN (i : Nat) : Fld := ⟨SQ_CTRL i, 0, 1⟩
/-- SQ_STAT: R468. -/
def SQ_STAT (i : Nat) : Nat := 0x501010 + 32 * i
def SQ_STAT.HEAD (i : Nat) : Fld := ⟨SQ_STAT i, 0, 16⟩
def SQ_STAT.ENABLED (i : Nat) : Fld := ⟨SQ_STAT i, 16, 1⟩
def SQ_STAT.IDLE (i : Nat) : Fld := ⟨SQ_STAT i, 17, 1⟩
def SQ_STAT.ERR (i : Nat) : Fld := ⟨SQ_STAT i, 18, 3⟩
/-- CQ_BASE_LO: R469. -/
def CQ_BASE_LO (i : Nat) : Nat := 0x502000 + 32 * i
def CQ_BASE_LO.BASE (i : Nat) : Fld := ⟨CQ_BASE_LO i, 12, 20⟩
/-- CQ_BASE_HI: R469. -/
def CQ_BASE_HI (i : Nat) : Nat := 0x502004 + 32 * i
def CQ_BASE_HI.BASE (i : Nat) : Fld := ⟨CQ_BASE_HI i, 0, 32⟩
/-- CQ_CFG: R469. -/
def CQ_CFG (i : Nat) : Nat := 0x502008 + 32 * i
def CQ_CFG.SIZE (i : Nat) : Fld := ⟨CQ_CFG i, 0, 5⟩
def CQ_CFG.VEC (i : Nat) : Fld := ⟨CQ_CFG i, 8, 6⟩
def CQ_CFG.IEN (i : Nat) : Fld := ⟨CQ_CFG i, 16, 1⟩
/-- CQ_CTRL: R469. -/
def CQ_CTRL (i : Nat) : Nat := 0x50200C + 32 * i
def CQ_CTRL.EN (i : Nat) : Fld := ⟨CQ_CTRL i, 0, 1⟩
/-- CQ_STAT: R469. -/
def CQ_STAT (i : Nat) : Nat := 0x502010 + 32 * i
def CQ_STAT.TAIL (i : Nat) : Fld := ⟨CQ_STAT i, 0, 16⟩
def CQ_STAT.PHASE (i : Nat) : Fld := ⟨CQ_STAT i, 16, 1⟩
def CQ_STAT.ENABLED (i : Nat) : Fld := ⟨CQ_STAT i, 17, 1⟩
def CQ_STAT.BUSY (i : Nat) : Fld := ⟨CQ_STAT i, 18, 1⟩
def CQ_STAT.ERR (i : Nat) : Fld := ⟨CQ_STAT i, 19, 2⟩
/-- CQ_COAL: R469. -/
def CQ_COAL (i : Nat) : Nat := 0x502014 + 32 * i
def CQ_COAL.COUNT (i : Nat) : Fld := ⟨CQ_COAL i, 0, 8⟩
def CQ_COAL.TIME_US (i : Nat) : Fld := ⟨CQ_COAL i, 8, 16⟩
/-- SQ_TAIL_DB: R470. -/
def SQ_TAIL_DB (i : Nat) : Nat := 0x503000 + 8 * i
def SQ_TAIL_DB.TAIL (i : Nat) : Fld := ⟨SQ_TAIL_DB i, 0, 16⟩
/-- CQ_HEAD_DB: R470. -/
def CQ_HEAD_DB (i : Nat) : Nat := 0x503004 + 8 * i
def CQ_HEAD_DB.HEAD (i : Nat) : Fld := ⟨CQ_HEAD_DB i, 0, 16⟩
/-- MSIX_ADDR_LO: R471. -/
def MSIX_ADDR_LO (i : Nat) : Nat := 0x504000 + 16 * i
def MSIX_ADDR_LO.ADDR (i : Nat) : Fld := ⟨MSIX_ADDR_LO i, 2, 30⟩
/-- MSIX_ADDR_HI: R471. -/
def MSIX_ADDR_HI (i : Nat) : Nat := 0x504004 + 16 * i
def MSIX_ADDR_HI.ADDR (i : Nat) : Fld := ⟨MSIX_ADDR_HI i, 0, 32⟩
/-- MSIX_DATA: R471. -/
def MSIX_DATA (i : Nat) : Nat := 0x504008 + 16 * i
def MSIX_DATA.DATA (i : Nat) : Fld := ⟨MSIX_DATA i, 0, 32⟩
/-- MSIX_CTRL: R471. -/
def MSIX_CTRL (i : Nat) : Nat := 0x50400C + 16 * i
def MSIX_CTRL.MASK (i : Nat) : Fld := ⟨MSIX_CTRL i, 0, 1⟩
/-- MSIX_PBA: R471. -/
def MSIX_PBA (i : Nat) : Nat := 0x505000 + 4 * i
def MSIX_PBA.PEND (i : Nat) : Fld := ⟨MSIX_PBA i, 0, 32⟩

/-! ### Configuration loader (0x00F0_0000) -/
/-- CF_CTRL: R500. -/
def CF_CTRL : Nat := 0xF00000
def CF_CTRL.OP : Fld := ⟨CF_CTRL, 0, 3⟩
def CF_CTRL.CHECK_ONLY : Fld := ⟨CF_CTRL, 3, 1⟩
/-- CF_STAT: R500. -/
def CF_STAT : Nat := 0xF00004
def CF_STAT.STATE : Fld := ⟨CF_STAT, 0, 3⟩
def CF_STAT.RESULT : Fld := ⟨CF_STAT, 8, 5⟩
def CF_STAT.FAIL_TYPE : Fld := ⟨CF_STAT, 16, 8⟩
def CF_STAT.OWNER : Fld := ⟨CF_STAT, 24, 3⟩
def CF_STAT.CHECK_ONLY : Fld := ⟨CF_STAT, 30, 1⟩
def CF_STAT.COMMITTED : Fld := ⟨CF_STAT, 31, 1⟩
/-- CF_LEN: R500. -/
def CF_LEN : Nat := 0xF00008
def CF_LEN.LEN : Fld := ⟨CF_LEN, 0, 22⟩
/-- CF_DATA: R500. -/
def CF_DATA : Nat := 0xF0000C
def CF_DATA.DATA : Fld := ⟨CF_DATA, 0, 32⟩
/-- CF_PROGRESS: R500. -/
def CF_PROGRESS : Nat := 0xF00010
def CF_PROGRESS.BYTES : Fld := ⟨CF_PROGRESS, 0, 22⟩
/-- CF_CFG: R500. -/
def CF_CFG : Nat := 0xF00014
def CF_CFG.DRAIN_US : Fld := ⟨CF_CFG, 0, 16⟩
/-- CF_PENDING: R500. -/
def CF_PENDING : Nat := 0xF00018
def CF_PENDING.TYPES : Fld := ⟨CF_PENDING, 1, 12⟩
/-- CF_SKIPPED: R500. -/
def CF_SKIPPED : Nat := 0xF0001C
def CF_SKIPPED.COUNT : Fld := ⟨CF_SKIPPED, 0, 32⟩
/-- CF_FAIL: R500. -/
def CF_FAIL : Nat := 0xF00020
def CF_FAIL.ENTRY : Fld := ⟨CF_FAIL, 0, 8⟩
def CF_FAIL.LDCODE : Fld := ⟨CF_FAIL, 8, 8⟩
def CF_FAIL.RECORD : Fld := ⟨CF_FAIL, 16, 16⟩
/-- CF_LAST_ID: R500. -/
def CF_LAST_ID : Nat := 0xF00024
def CF_LAST_ID.IMG_ID : Fld := ⟨CF_LAST_ID, 0, 32⟩
/-- CF_LAST_VER: R500. -/
def CF_LAST_VER : Nat := 0xF00028
def CF_LAST_VER.IMG_VER : Fld := ⟨CF_LAST_VER, 0, 32⟩
/-- CF_LAST_CRC: R500. -/
def CF_LAST_CRC : Nat := 0xF0002C
def CF_LAST_CRC.IMG_CRC : Fld := ⟨CF_LAST_CRC, 0, 32⟩
/-- CF_EVT: R501. -/
def CF_EVT : Nat := 0xF00030
def CF_EVT.DONE : Fld := ⟨CF_EVT, 0, 1⟩
def CF_EVT.FAILED : Fld := ⟨CF_EVT, 1, 1⟩
def CF_EVT.BUSY : Fld := ⟨CF_EVT, 2, 1⟩
def CF_EVT.SKIPPED : Fld := ⟨CF_EVT, 3, 1⟩
def CF_EVT.QDISC : Fld := ⟨CF_EVT, 4, 1⟩
/-- CF_EVT_EN: R501. -/
def CF_EVT_EN : Nat := 0xF00034
def CF_EVT_EN.DONE : Fld := ⟨CF_EVT_EN, 0, 1⟩
def CF_EVT_EN.FAILED : Fld := ⟨CF_EVT_EN, 1, 1⟩
def CF_EVT_EN.BUSY : Fld := ⟨CF_EVT_EN, 2, 1⟩
def CF_EVT_EN.SKIPPED : Fld := ⟨CF_EVT_EN, 3, 1⟩
def CF_EVT_EN.QDISC : Fld := ⟨CF_EVT_EN, 4, 1⟩
/-- CF_CNT_COMMIT: R502. -/
def CF_CNT_COMMIT : Nat := 0xF00040
/-- CF_CNT_FAIL: R502. -/
def CF_CNT_FAIL : Nat := 0xF00044
/-- CF_CNT_QDISC: R502. -/
def CF_CNT_QDISC : Nat := 0xF00048
/-- CF_CNT_BUSY: R502. -/
def CF_CNT_BUSY : Nat := 0xF0004C

/-! ### Store mailbox (0x00F0_0100) -/
/-- ST_CMD: R532. -/
def ST_CMD : Nat := 0xF00100
def ST_CMD.OPC : Fld := ⟨ST_CMD, 0, 8⟩
/-- ST_ADDR: R532. -/
def ST_ADDR : Nat := 0xF00104
def ST_ADDR.ADDR : Fld := ⟨ST_ADDR, 0, 32⟩
/-- ST_LEN: R532. -/
def ST_LEN : Nat := 0xF00108
def ST_LEN.LEN : Fld := ⟨ST_LEN, 0, 11⟩
/-- ST_STAT: R532. -/
def ST_STAT : Nat := 0xF0010C
def ST_STAT.BUSY : Fld := ⟨ST_STAT, 0, 1⟩
def ST_STAT.ACK : Fld := ⟨ST_STAT, 8, 8⟩

/-! ### Calm-port plane mirror (0x00F0_0200) -/
/-- CP_STAT: R531. -/
def CP_STAT : Nat := 0xF00200
def CP_STAT.STAT8 : Fld := ⟨CP_STAT, 0, 8⟩
def CP_STAT.LAST_ACK : Fld := ⟨CP_STAT, 8, 8⟩
/-- CP_CTRL: R531. -/
def CP_CTRL : Nat := 0xF00204
def CP_CTRL.CLR_ERR : Fld := ⟨CP_CTRL, 0, 1⟩
def CP_CTRL.BUF_CLR : Fld := ⟨CP_CTRL, 1, 1⟩
def CP_CTRL.WORK_CANCEL : Fld := ⟨CP_CTRL, 2, 1⟩
/-- CP_WORK: R531. -/
def CP_WORK : Nat := 0xF00208
def CP_WORK.CYCLES : Fld := ⟨CP_WORK, 0, 24⟩
def CP_WORK.OPC : Fld := ⟨CP_WORK, 24, 8⟩
/-- CP_OPSTAT: R531. -/
def CP_OPSTAT : Nat := 0xF0020C
def CP_OPSTAT.QUEUED : Fld := ⟨CP_OPSTAT, 0, 7⟩
def CP_OPSTAT.FAILS : Fld := ⟨CP_OPSTAT, 8, 8⟩
/-- CP_OPFAIL: R531. -/
def CP_OPFAIL : Nat := 0xF00210
def CP_OPFAIL.ADDR : Fld := ⟨CP_OPFAIL, 0, 32⟩
/-- CP_SNAPTAG: R531. -/
def CP_SNAPTAG : Nat := 0xF00214
def CP_SNAPTAG.TAG_word : Fld := ⟨CP_SNAPTAG, 0, 32⟩
/-- CP_BOOTSTAT: R531. -/
def CP_BOOTSTAT : Nat := 0xF00218
def CP_BOOTSTAT.STATE : Fld := ⟨CP_BOOTSTAT, 0, 3⟩
def CP_BOOTSTAT.SRC : Fld := ⟨CP_BOOTSTAT, 3, 3⟩
def CP_BOOTSTAT.LAST_SLOT : Fld := ⟨CP_BOOTSTAT, 6, 2⟩
def CP_BOOTSTAT.LAST_RESULT : Fld := ⟨CP_BOOTSTAT, 8, 5⟩
def CP_BOOTSTAT.TRIED : Fld := ⟨CP_BOOTSTAT, 13, 4⟩
/-- CP_STORESTAT: R531. -/
def CP_STORESTAT : Nat := 0xF0021C
def CP_STORESTAT.RESULT : Fld := ⟨CP_STORESTAT, 0, 5⟩
def CP_STORESTAT.SLOT : Fld := ⟨CP_STORESTAT, 5, 2⟩
def CP_STORESTAT.HDR_COPY : Fld := ⟨CP_STORESTAT, 7, 1⟩
/-- CP_WEAR: R531. -/
def CP_WEAR : Nat := 0xF00220
def CP_WEAR.BOUND : Fld := ⟨CP_WEAR, 0, 20⟩
def CP_WEAR.WARN : Fld := ⟨CP_WEAR, 31, 1⟩
/-- CP_JOURNAL: R531. -/
def CP_JOURNAL : Nat := 0xF00224
def CP_JOURNAL.PENDING : Fld := ⟨CP_JOURNAL, 0, 5⟩
def CP_JOURNAL.LOST : Fld := ⟨CP_JOURNAL, 8, 8⟩
/-- CP_FUSESTAT: R531. -/
def CP_FUSESTAT : Nat := 0xF00228
def CP_FUSESTAT.BUSY : Fld := ⟨CP_FUSESTAT, 0, 1⟩
def CP_FUSESTAT.RESULT : Fld := ⟨CP_FUSESTAT, 1, 2⟩

end Sys2Proof.Machine
end

