-- ==== Sys2Proof/Machine/TimeState.lean ====
section
/-!
DEFINITION. The state of the time base (R271 to R299) that is not a register: the count and its fraction, corrections in
progress, sources, the PPS servo, the timestamp inputs and the time-pulse outputs.
-/
namespace Sys2Proof.Machine

/-- A pending step (R279): its boundary B in ns since the epoch, its offset, its source and the origin of the submission. -/
structure PendStep where
  b : Nat
  theta : Int
  src : Nat
  org : Origin
  deriving DecidableEq, Repr

/-- The PPS servo (R283, R284): whether it runs, its accepted pulses (up to 8), the stamp of the last one, the offsets of
steps and the slew in 2^−32 ns added since, and rejections in a row. -/
structure PpsServo where
  started : Bool := false
  count : Nat := 0
  last : Nat := 0
  steps : Int := 0
  slew : Int := 0
  rejects : Nat := 0
  deriving DecidableEq, Repr

/-- A time-pulse output (R289 to R294): the staging registers as applied, a waiting APPLY, the time of the next action, the end
of the pulse in progress in device time, and the logical output. -/
structure Tpo where
  cfg : Word := 0
  startNs : Word := 0
  startSl : Word := 0
  startSh : Word := 0
  period : Word := 0x3B9ACA00
  width : Word := 0x05F5E100
  pend : Bool := false
  due : Option Nat := none
  active : Option Nat := none
  out : Bool := false
  deriving DecidableEq, Repr

/-- The time base. cyc and frac are the count at the last clock cycle, in ns since the epoch and 2^−32 ns; phase is the
interpolator's, or the ns since the last REFCLK cycle while the count is coarse; tick counts elapsed port-clock ns since
reset; mon is the MONOSC phase in units of 1/48 ns. slew is the remaining slew in 2^−32 ns, slewing that a slew has not
ended. first tells that the selected source's first correction has been applied (R280), ever that a source has been
selected, timeSet that a step or slew has set the time, samples A at the last locked seconds (R281), hoSince the tick of
entry to holdover and hoFired its expiry, windows the MONOSC windows that TB_MONCAL is the mean of, dirty that the window in
progress is to be discarded (R274), tsiLast the last stamped edge of each input, tpoCut that becalm holds the outputs low, cutTold that
this becalm has recorded its cut pulses (R293), leapDay
the UTC day at whose end an announced leap second applies (R297), engFresh that the engine port has submitted within its limit (R275), and slewSum all that slews have added, in 2^−32 ns. -/
structure TimeBase where
  cyc : Nat := 0
  frac : Nat := 0
  phase : Nat := 0
  tick : Nat := 0
  mon : Nat := 0
  slew : Int := 0
  slewing : Bool := false
  step : Option PendStep := none
  first : Bool := false
  ever : Bool := false
  timeSet : Bool := false
  samples : List Int := []
  hoSince : Nat := 0
  hoFired : Bool := false
  windows : List Nat := []
  dirty : Bool := false
  pps : PpsServo := {}
  tsiLast : Tab Nat := []
  tpos : Tab Tpo := []
  tpoCut : Bool := false
  cutTold : Bool := false
  leapDay : Nat := 0
  engFresh : Bool := false
  slewSum : Int := 0
  deriving DecidableEq, Repr

/-- A time-pulse output at reset: OFF (R307). -/
def Tpo.reset (_ : Nat) : Tpo := {}

/-- The edge time of an input that has stamped nothing. -/
def noEdge (_ : Nat) : Nat := 0

end Sys2Proof.Machine
end

