-- ==== Sys2Proof/Machine/SerialState.lean ====
section
/-!
DEFINITION. The state of a serial port (R33 to R122) that is not a register. Line times are in ns of the port clock since
reset, or in units of 2^−16 ns of it where they lie between ticks; stamps are in device time.
-/
namespace Sys2Proof.Machine

/-- SP_FRAME and SP_LINE as a direction has them in force (R45). -/
structure LineFmt where
  frame : Word := 0x8
  line : Word := 0
  deriving DecidableEq, Repr

/-- A character being received (R35): its stamp in device time and on the port clock, its rate and its format; gone tells that the
schedule whose frame it belongs to has stopped (R160). -/
structure RxChar where
  stamp : Nat
  tick : Nat
  osr : Nat
  d : Nat
  fmt : LineFmt
  gone : Bool := false
  deriving DecidableEq, Repr

/-- A character voted and accepted: its value and flags, its stamp, its bit time in 2^−16 ns and its frame length in bits. -/
structure RxItem where
  chr : Nat
  perr : Bool
  ferr : Bool
  noise : Bool
  stamp : Nat
  tick : Nat
  bit : Nat
  n : Nat
  deriving DecidableEq, Repr

/-- The three kinds of receive item (R69). -/
inductive ItemKind where
  | chr | breakStart | breakEnd
  deriving DecidableEq, Repr

/-- An item on its way to the receive queue: its words, its kind, its stamp, whether it is an address item, whether it is the
first of a packet (R101), and the queue that a trade-wind slot selects for it (R138). -/
structure PortItem where
  words : List QWord
  kind : ItemKind := .chr
  stamp : Nat := 0
  addr : Bool := false
  first : Bool := false
  queue : Option Nat := none
  deriving DecidableEq, Repr

/-- A transmit item in the prefetch (R69): its word, its transmit queue, the time words of a LAUNCH_AT that have arrived, whether they
make it invalid (R105), and whether its packet's END is among them. -/
structure PreItem where
  word : QWord
  q : Nat
  times : List Word := []
  bad : Bool := false
  ended : Bool := false
  deriving DecidableEq, Repr

/-- A launch register (R106): the LAUNCH_AT word, its launch time, whether it is in far hold, the tick of its loading, and the queue
whose packet it waits for, a character of it being on TXD at the DE-rise time (R108). -/
structure Launch where
  word : QWord
  at_ : Nat
  far : Bool
  loaded : Nat
  behind : Option Nat := none
  deriving DecidableEq, Repr

/-- A reload of a port on its way to its boundary (R490 to R492): whether it is structural, the tick at which the commit reached the
port, whether the drain has ended, and when, and the words to be applied. -/
structure PortReload where
  structural : Bool
  since : Nat
  drained : Option Nat := none
  words : List (Nat × Word)
  deriving DecidableEq, Repr

/-- What TXD sends from one start edge (R41): the edge, in 2^−16 ns of the port clock, the time of a bit, and the levels bit by bit,
with mark after them. -/
structure Wave where
  start : Nat
  bit : Nat
  levels : List Bool
  deriving DecidableEq, Repr

/-- The echo window of a sent character (R54): its start edge in device time and on the port clock, the character, its queue
and whether nothing of its packet remains to be sent, and whether its echo has matched. -/
structure Echo where
  stamp : Nat
  tick : Nat
  chr : Nat
  q : Option Nat
  fin : Bool
  matched : Bool
  deriving DecidableEq, Repr

/-- A port. Receive: the character in progress; an all-space character that may yet be a break (R57); the start of break
detection; the break in progress (device time, tick); a wait for mark after a framing error; since when RXD shows mark; the
mark a start edge still needs (from, for how long); the last delivered item's tick (R63); the end of the last character's
first stop bit; the gap deadline and whether GAP is due (R99); items since END, and whether the next item is a packet's
first; the held item (R100); the holding buffer (R69); the receive mask (R48); detection to start after the character, and
its edges (R60), and whether receiving waits for the rate that it found; the stranger table (R96). Rate: a change that waits (R42).
Transmit: the prefetch, the queue that holds the port (R89), the queues that it took the port from mid-packet, the queue that a
launch goes on with (R109), the packet being discarded after a collision (R55), the launch registers, the launch that DE rose for,
the end of the stop time of the last character on its grid, echo
windows, XOFF and XON due (R52), CTS_N asserted, DE and its rise, the end of a DE hold, since when a hold keeps a raised DE
waiting (R47), the wait for mark after a collision, the queue whose
packet is partly sent, a packet that the launch guard has cut, characters cut by becalm, what TXD last sent, newest first, and the
tick from which the receiver looks at TXD in LOOPBACK (R73), and that from which the transmitter serves the bindings of a reload (R491).
fcStop and stop are the stop conditions of R50; reload is a reload that waits for its boundary. -/
structure Port where
  rxFmt : LineFmt := {}
  txFmt : LineFmt := {}
  rxChar : Option RxChar := none
  cand : Option RxItem := none
  watch : Option (Nat × Nat) := none
  brk : Option (Nat × Nat) := none
  waitMark : Bool := false
  markSince : Option Nat := some 0
  needMark : Option (Nat × Nat) := none
  lastItem : Option Nat := none
  lineEnd : Nat := 0
  gapAt : Option Nat := none
  gapDue : Bool := true
  sinceEnd : Nat := 0
  newPacket : Bool := true
  held : Option PortItem := none
  hold : List PortItem := []
  masked : Bool := false
  maskEnd : Option Nat := none
  abAfter : Bool := false
  abEdges : List Nat := []
  abWait : Bool := false
  strangers : Tab (Nat × Nat) := []
  rate : Option (Word × Word) := none
  prefetch : List PreItem := []
  openq : Option Nat := none
  cutq : List Nat := []
  after : Option Nat := none
  discardq : Option Nat := none
  launches : Tab (Option Launch) := []
  txEnd : Nat := 0
  echoes : List Echo := []
  xpend : List Bool := []
  cts : Bool := true
  de : Bool := false
  deRise : Nat := 0
  deFor : Option Nat := none
  deHold : Option Nat := none
  heldAt : Option Nat := none
  collMark : Bool := false
  mid : Option Nat := none
  split : Bool := false
  cut : Bool := false
  waves : List Wave := []
  loopFrom : Nat := 0
  serveFrom : Nat := 0
  fcStop : Bool := false
  stop : Bool := false
  reload : Option PortReload := none
  deriving DecidableEq, Repr

/-- A port at reset. -/
def Port.reset (_ : Nat) : Port := {}

end Sys2Proof.Machine
end

