-- ==== Sys2Proof/Machine/TwState.lean ====
section
/-!
DEFINITION. The state of a port's trade-wind schedule (R123 to R161) and of its bus guardian (R172 to R188) that is not a
register. Times of the schedule are in device time; the guardian counts ticks of the port clock.
-/
namespace Sys2Proof.Machine

/-- An entry of the slot table in the layout of TW_TDATA0 to TW_TDATA2 (R128, R167). -/
structure TwEntry where
  d0 : Word := 0
  d1 : Word := 0
  d2 : Word := 0
  deriving DecidableEq, Repr

/-- A table that runs or is to run (R130, R173): its entries by entry number, L and GUARD_NS of its mode. -/
structure TwTable where
  entries : Tab TwEntry := []
  len : Nat := 1000000
  guard : Nat := 1000
  deriving DecidableEq, Repr

/-- One mode of a port: the edit copy, the run copy, and a commit that waits for a boundary (R131, R174): its run copy, its
clipped entries as a bit map, and the tick of the write. -/
structure TwMode where
  edit : Tab TwEntry := []
  run : TwTable := {}
  pend : Option (TwTable × Nat × Nat) := none
  deriving DecidableEq, Repr

/-- The states of R151 and R152. -/
inductive TwPhase where
  | off | listen | observe | joined | starting | running | rival
  deriving DecidableEq, Repr

/-- A cycle as it runs (R125): its counter, mode, table, start, the rate ratio that places its slots (R148), whether a valid SYNC
came, whether the rest of it is passed (R183), whether a DELAY_REQ to the port came, its SEQ and stamp t2 (R158), the
entries whose commit deadline has passed, here and in the next cycle, the entries with foreign energy (R171) or an
intrusion (R187; 64 more for an entry of the next cycle), the addresses heard (R185), and slots that ended while a frame was still
arriving, to be settled after it. -/
structure TwCycle where
  k : Nat := 0
  mode : Nat := 0
  table : TwTable := {}
  start : Nat := 0
  num : Nat := 1
  den : Nat := 1
  syncOk : Bool := false
  jump : Bool := false
  req : Option (Nat × Nat) := none
  done : List Nat := []
  doneNext : List Nat := []
  foreign : List Nat := []
  intruded : List Nat := []
  heard : List Nat := []
  ended : List Nat := []
  deriving DecidableEq, Repr

/-- A frame built for a slot (R140, R144): the entry and whether it lies in the next cycle, its kind, the frame before its CRC up to
the payload, the payload characters with their STAMP and ERR bits, its queue, whether it carries END, its FRAG, whether it is one of
several fragments of its packet (R142), the target and SEQ of a DELAY_REQ; whether its attempt was blocked (R178), whether a collision
keeps its payload (R146), whether the payload waits for the queue's next own slot, and whether DE is up for a frame whose start edge is
still to come (R143). Payloads that wait stand in the order of their words. -/
structure SlotBuf where
  entry : Nat
  next : Bool
  kind : Nat
  head : List Nat
  payload : List QWord := []
  queue : Option Nat := none
  fin : Bool := true
  frag : Nat := 0
  part : Bool := false
  meas : Option (Nat × Nat) := none
  blocked : Bool := false
  again : Bool := false
  kept : Bool := false
  up : Bool := false
  deriving DecidableEq, Repr

/-- The open receive packet of a port (R139): its sender, its queue, the next FRAG, the held item, and the stamp of its last
frame. -/
structure TwOpen where
  sender : Nat
  queue : Option Nat
  frag : Nat
  item : Option PortItem
  stamp : Nat
  deriving DecidableEq, Repr

/-- A requested switch at a first node (R153): the mode, the first cycle that announces it, the switch cycle. -/
structure TwSwitch where
  mode : Nat
  from_ : Nat
  at_ : Nat
  deriving DecidableEq, Repr

/-- An announced switch at a member (R154): the mode, the switch cycle, whether the member acknowledges it, whether a frame has
carried the acknowledgement. -/
structure TwAnnounced where
  mode : Nat
  at_ : Nat
  valid : Bool
  sent : Bool
  deriving DecidableEq, Repr

/-- The history of foreign energy of a slot entry (R186): its last 16 cycles as bits, newest lowest; cycles in a row without
energy; whether it has been reported. -/
structure Babble where
  bits : Nat := 0
  clean : Nat := 0
  reported : Bool := false
  deriving DecidableEq, Repr

/-- An entry of the first node's delay table (R158): its samples, newest first, at most 8, and whether one is new since the last
DELAY_SET. -/
structure DelayEntry where
  samples : List Nat := []
  fresh : Bool := false
  deriving DecidableEq, Repr

/-- The guardian of a port (R172 to R181): its copies and which are valid; the shadows being checked and the tick by which they
are; ADDR and ROLE; the reference CRC; G_k and its cycle's counter and mode; whether it is anchored, whether its own
prediction began this cycle, whether the next strobe is unchecked after a step; the rotating window of this cycle; the
end of a window kept open over a move of G_k; blocked attempts per cycle, newest first; the muzzle, its cause and an
UNMUZZLE that waits. -/
structure Guardian where
  copies : Tab TwTable := []
  valid : List Nat := []
  loads : Tab (Option (TwTable × Nat)) := []
  addr : Nat := 0
  role : Bool := false
  ref : Word := 0
  g : Nat := 0
  k : Nat := 0
  mode : Nat := 0
  anchored : Bool := false
  predicted : Bool := false
  stepped : Bool := false
  rot : Bool := false
  keep : Nat := 0
  hist : List Nat := []
  muzzled : Bool := false
  cause : Nat := 0
  unmuzzle : Bool := false
  deriving DecidableEq, Repr

/-- The schedule of a port. modes holds A to D; phase its state, with role, ALIGN, ADDR and INIT_MODE as of the last start; from_
is when listening began or when the first cycle starts; j the counter of the first cycle (R126). stop and restart are
requests for the next cycle boundary. num, den and lastSync serve R149: the ratio, and the last valid SYNC with its counter, stamp,
the Σ of cycle lengths then, while the cycles run on without a gap, and the length of its cycle; total is that sum now.
joining, badSync, withholdNext, good and lastGood serve R151 and R182. bufs are the slot buffers
and built frames, waiting the commits that wait for a buffer (R144), sending the frame on the line, chars its characters
still to start, sent the frame before it (R146), openTx and frags the open transmit packets (R142), skips time words to discard
(R111). gate is DE at the pad for the port's request, and the tick up to which the guardian's window has been applied to it (R177).
asm is the frame being received and frames those that ended, each with whether it was broken off; pkt the open packet; monOpen the
bytes of the open frame of monitor delivery (R138). lastEdge and lastAddr are the last start edge and address character. meas holds the
last DELAY_REQ to each target: its cycle, SEQ, target and t1 (R158). -/
structure Tw where
  modes : Tab TwMode := []
  phase : TwPhase := .off
  role : Bool := false
  align : Bool := false
  addr : Nat := 0
  init : Nat := 0
  from_ : Nat := 0
  j : Nat := 0
  cyc : TwCycle := {}
  prev : Option TwCycle := none
  stop : Bool := false
  restart : Bool := false
  num : Nat := 1
  den : Nat := 1
  warming : Bool := true
  lastSync : Option (Nat × Nat × Option Nat × Nat) := none
  total : Nat := 0
  obsK : Nat := 0
  joining : Bool := false
  badSync : Bool := false
  withholdNext : Bool := false
  good : Nat := 0
  lastGood : Nat := 0
  dlyUnset : Bool := false
  dlyPend : Option Nat := none
  request : Option TwSwitch := none
  heldSwitch : Option Nat := none
  decided : Option (Nat × Nat) := none
  announced : Option TwAnnounced := none
  awaitSync : Bool := false
  checkedAt : Nat := 0
  bufs : List SlotBuf := []
  waiting : List (Nat × Bool) := []
  sending : Option SlotBuf := none
  sent : Option SlotBuf := none
  gate : Nat × Bool := (0, false)
  chars : List QWord := []
  frags : Tab Nat := []
  openTx : List Nat := []
  skips : Tab Nat := []
  asm : List RxItem := []
  frames : List (List RxItem × Bool) := []
  pkt : Option TwOpen := none
  monOpen : Option (List Nat) := none
  lastEdge : Option Nat := none
  lastAddr : Option (Nat × Nat) := none
  meas : List (Nat × Nat × Nat × Nat) := []
  delays : Tab DelayEntry := []
  results : List (Nat × Nat) := []
  silent : Tab Nat := []
  babble : Tab Babble := []
  brkPrev : Option Nat := none
  forfeit : Bool := false
  guard : Guardian := {}
  deriving DecidableEq, Repr

/-- The schedule of a port at reset. -/
def Tw.reset (_ : Nat) : Tw := {}

end Sys2Proof.Machine
end

