-- ==== Sys2Proof/Machine/State.lean ====
section
/-!
DEFINITION. The state of the block as plain data, the state after reset, and the reasons a command can stop.
-/
namespace Sys2Proof.Machine

/-- What the block sends out, in order of sending (log entry 2: the model's own record of outputs). -/
inductive Out where
  /-- A value read goes to the master that asked (R8, R11). -/
  | answer (m : Master) (v : Word64)
  /-- An MSI-X message of a vector to the host (R458). -/
  | msix (vec : Nat)
  /-- The line of a supervisor target rises (R538). -/
  | supervisorIrq (core : Nat)
  /-- A member reports the lines of its host targets to the root (R556). -/
  | irqReport (lines : BitVec 6)
  /-- A member sends a copy of a record to the root (R557). -/
  | eventCopy (record : List Word)
  /-- The transmitter of a port sends: from a port-clock tick on, the levels of bits, one per bit time (R41). LOOPBACK and the
  inversion bits act after this, at the pad (R33, R73). -/
  | txd (port tick : Nat) (bits : List Bool)
  /-- DE of a port, behind the guardian's window, rises or falls at a port-clock tick (R47, R49); LOOPBACK and the inversion bit act
  after this, at the pad (R46). A request that the window blocks raises nothing, and its end is told like any other. -/
  | de (port tick : Nat) (on : Bool)
  /-- A HELLO block leaves on a link (R312). -/
  | hello (link : Nat) (h : Hello)
  /-- A cell leaves on a link (R314). -/
  | cell (link : Nat) (c : Cell)
  /-- A credit of a virtual channel is returned on a link (R316). -/
  | credit (link vc : Nat)
  /-- The absolute credit counts leave on a link (R317). -/
  | creditSync (link : Nat) (counts : List (Nat × Nat))
  /-- The credits of a virtual channel of a link are taken anew (R317). -/
  | resync (link vc : Nat)
  /-- The root probes a link of a device (R321). -/
  | probe (dev link : Nat)
  /-- The root gives a member its number (R321). -/
  | assign (dev : Nat) (sn : BitVec 128) (num : Nat)
  /-- The root holds the far end of a link of a device, with a cause (R323). -/
  | hold (dev link cause : Nat)
  /-- The root asks a member whether it lives (R336). -/
  | heartbeat (dev : Nat)
  /-- A delay exchange begins on a link (R339). -/
  | delayRequest (link : Nat)
  /-- A SYNC leaves on a link (R341). -/
  | sync (link time quality hops seq : Nat)
  /-- READY leaves towards the root (R347). -/
  | ready
  /-- RELEASE_AT leaves on a link (R347). -/
  | releaseAt (link epoch count : Nat)
  /-- A LATE_RELEASE leaves on a link (R348). -/
  | lateRelease (link : Nat)
  /-- A wake leaves on a link (R337). -/
  | wakeUp (link : Nat)
  /-- A link is put to sleep (R337). -/
  | sleep (link : Nat)
  /-- Bytes are written to host memory at an address (R436, R451). -/
  | hostWrite (addr : Nat) (bytes : List Byte)
  /-- An operation of an engine answers with a status and values (R373). -/
  | op (engine : Nat) (status : OpStatus) (values : List Word)
  /-- A pop of an engine answers with its words, each with its CUT bit (R377). -/
  | popped (engine : Nat) (status : OpStatus) (words : List (QWord × Bool))
  /-- A timer entry of an engine: grid time, stepped, passed and missed expiries (R384). -/
  | timer (engine timer grid : Nat) (stepped : Bool) (passed missed : Nat)
  /-- A frame leaves a network port, with its FCS inverted or not (R409, R415). -/
  | frame (port : Nat) (bytes : List Byte) (invert : Bool)
  /-- An MDIO frame leaves (R423). -/
  | mdio (master : Nat) (cmd : Word)
  /-- The calm port answers: STAT byte, ACK code and data words (R506). -/
  | calm (stat : Byte) (ack : Nat) (words : List Word)
  /-- The calm port answers nothing (R521, R523). -/
  | calmSilent
  deriving DecidableEq, Repr

/-- The state of the block. Every table of it is sparse and canonical: an unlisted key reads as its reset value. -/
structure State where
  /-- The commands that wait, first in first out. -/
  pending : List Instr
  /-- The registers of BAR0 by offset (R8); an unlisted one holds its reset value. -/
  regs : Tab Word
  /-- The number of free values taken: the model's own field (log entry 4). -/
  freeNo : Nat
  /-- The domains and parts that stand still (R20, R577, R591, R605). -/
  stopped : Stopped
  /-- The time base (R271). -/
  time : TimeBase
  /-- The event log (R547). -/
  log : EventLog
  /-- The event interrupt controller (R533). -/
  eic : Eic
  /-- Snapshots of wide values of registers, by master and register (R11). -/
  snaps : Tab Word
  /-- Snapshots of 64-bit window registers, by master (R201). -/
  windowSnaps : Tab Word64
  /-- The upper word of CMD held for each master (R201). -/
  cmdHeld : Tab Word
  /-- The staging registers of the queue commands, by origin and register (R225). -/
  staged : Tab Word
  /-- The queues Q0 to Q65535 (R197). -/
  queues : Tab Queue
  /-- The conservation ledger (R254). -/
  ledger : Ledger
  /-- Writes to windows that wait in the endpoint during a becalm (R224). -/
  endpoint : List HeldWrite
  /-- The serial ports (R33). -/
  ports : Tab Port
  /-- The schedules and guardians of the serial ports (R123, R172). -/
  tws : Tab Tw
  /-- The chain links (R309). -/
  links : Tab Link
  /-- The chain (R319). -/
  chain : Chain
  /-- The memories (R640). -/
  mem : MemSys
  /-- The host interface (R430). -/
  host : HostIf
  /-- The 48 engines (R359). -/
  engines : Tab Engine
  /-- The engine clusters that have no power (R394). -/
  clustersOff : List Nat
  /-- The image loader (R363). -/
  loader : Loader
  /-- The network ports (R401). -/
  nets : Tab NetPort
  /-- The command of the MDIO frame in progress, by master (R423). -/
  mdio : Tab Word
  /-- The clocks (R566). -/
  clk : ClockSys
  /-- Reset and the power states (R587). -/
  rst : ResetSys
  /-- The pins (R616). -/
  pins : PinSys
  /-- The 128 fuse words (R527). -/
  fuses : Tab Word
  /-- The fuse words as read at the last cold reset or power-on (R529). -/
  shadow : Tab Word
  /-- The configuration loader (R473). -/
  cfg : CfgSys
  /-- The calm port, the store and boot (R503). -/
  calm : CalmSys
  /-- What the block has sent, oldest first: the model's own record (log entry 2). -/
  out : List Out
  deriving DecidableEq, Repr

/-- The faults of the machine. The rules give the block no stop: what goes wrong in it sets a flag, counts, or writes an event. -/
inductive Fault where
  /-- Raised by nobody; no command of the table stops the block (safe). -/
  | never
  deriving DecidableEq, Repr

/-- The refusals of the machine. -/
inductive Refusal where
  /-- Raised by nobody: every row of the table has its meaning (safe). -/
  | notModelled (mnemonic : String)
  deriving DecidableEq, Repr

/-- The outcome of a command. -/
abbrev Res := Host.Outcome State Fault Refusal

/-- The block as power-on leaves it (R589, R591): the power-on reset holds, every domain but AON and CFG stands still, nothing is committed,
and every register holds its reset value. -/
def State.reset : State where
  pending := []
  regs := []
  freeNo := 0
  stopped := { reset := [.time, .port, .core, .hser, .nser, .ddr], partReset := [.eic, .engines, .host], pll := [.ddr] }
  time := {}
  log := {}
  eic := {}
  snaps := []
  windowSnaps := []
  cmdHeld := []
  staged := []
  queues := []
  ledger := {}
  endpoint := []
  ports := []
  tws := []
  links := []
  chain := {}
  mem := {}
  host := {}
  engines := []
  clustersOff := []
  loader := {}
  nets := []
  mdio := []
  clk := {}
  rst := {}
  pins := {}
  fuses := []
  shadow := []
  cfg := {}
  calm := {}
  out := []

end Sys2Proof.Machine
end

