-- ==== Sys2Proof/Machine/Ops.lean ====
section
/-!
DEFINITION. The named operations that the meanings share: registers and their fields, saturating counters, free values,
device time, the existence of blocks before the first commit, and the outputs.
-/
namespace Sys2Proof

/-! ## Masters and origins -/

/-- The number of a master among all masters. -/
def Master.num : Master → Nat
  | .host => 0
  | .calm => 1
  | .supervisor k => 2 + k.val
  | .engine e => 4 + e.val
  | .chain d => 64 + d.val

/-- The origin of what a master does (R30). A supervisor core acts for the device. -/
def Master.origin : Master → Origin
  | .host => .host
  | .calm => .calm
  | .supervisor _ => .device
  | .engine e => .engine e
  | .chain d => .chain d

/-- The ORIGIN code of an event record (R551). -/
def Origin.code : Origin → Nat
  | .device => 0
  | .host => 1
  | .calm => 2
  | .chain _ => 3
  | .engine _ => 4
  | .boot => 5

/-- The ORIGIN_NUM of an event record (R551). -/
def Origin.sub : Origin → Nat
  | .chain d => d.val
  | .engine e => e.val
  | _ => 0

/-- The number of an origin among all origins. -/
def Origin.num : Origin → Nat
  | .device => 0
  | .host => 1
  | .calm => 2
  | .boot => 3
  | .engine e => 4 + e.val
  | .chain d => 64 + d.val

end Sys2Proof

namespace Sys2Proof.Machine

/-! ## Registers -/

/-- The register at BAR0 address a: its stored value, or its reset value (R9), or 0 where none stands (R10). -/
def State.reg (s : State) (a : Nat) : Word := tabGet regReset s.regs a

/-- The state with v in the register at BAR0 address a. -/
def State.setReg (s : State) (a : Nat) (v : Word) : State := { s with regs := tabPut regReset s.regs a v }

/-- The value of field f of word v. -/
def fldOf (f : Fld) (v : Word) : Nat := v.toNat >>> f.lo % 2 ^ f.w

/-- Word v with x in field f. -/
def fldPut (f : Fld) (v : Word) (x : Nat) : Word :=
  BitVec.ofNat 32 (v.toNat - fldOf f v * 2 ^ f.lo + x % 2 ^ f.w * 2 ^ f.lo)

/-- The value of field f. -/
def State.rd (s : State) (f : Fld) : Nat := fldOf f (s.reg f.reg)

/-- Whether field f is not 0. -/
def State.bit (s : State) (f : Fld) : Bool := s.rd f != 0

/-- The state with x in field f. -/
def State.wr (s : State) (f : Fld) (x : Nat) : State := s.setReg f.reg (fldPut f (s.reg f.reg) x)

/-- The state with the one-bit field f set. -/
def State.on (s : State) (f : Fld) : State := s.wr f 1

/-- The state with field f at 0. -/
def State.off (s : State) (f : Fld) : State := s.wr f 0

/-- The state with the one-bit field f at b. -/
def State.put (s : State) (f : Fld) (b : Bool) : State := s.wr f b.toNat

/-- The signed value of the register at a. -/
def State.rdInt (s : State) (a : Nat) : Int := (s.reg a).toInt

/-- x as a saturating 32-bit counter value (R84). -/
def sat32 (x : Nat) : Nat := min x 0xFFFFFFFF

/-- An integer as a signed 32-bit register value, saturating. -/
def satInt32 (x : Int) : Word :=
  if x < -0x80000000 then 0x80000000 else if 0x7FFFFFFF < x then 0x7FFFFFFF else BitVec.ofInt 32 x

/-- The counter at a raised by n, saturating (R84). -/
def State.incBy (s : State) (a n : Nat) : State := s.setReg a (BitVec.ofNat 32 (sat32 ((s.reg a).toNat + n)))

/-- The counter at a raised by one, saturating (R84). -/
def State.inc (s : State) (a : Nat) : State := s.incBy a 1

/-- A value over two registers, low word at lo and high word at hi. -/
def State.pair (s : State) (lo hi : Nat) : Nat := (s.reg hi).toNat * 0x100000000 + (s.reg lo).toNat

/-- The state with the 64-bit value x in the registers lo and hi. -/
def State.setPair (s : State) (lo hi x : Nat) : State :=
  (s.setReg lo (BitVec.ofNat 32 x)).setReg hi (BitVec.ofNat 32 (x / 0x100000000))

/-! ## Outputs and free values -/

/-- The state that has sent o. -/
def State.emit (s : State) (o : Out) : State := { s with out := s.out ++ [o] }

/-- The next free value of w bits (log entry 4). -/
def State.freeVal (s : State) (w : Nat) : BitVec w := Config.freeBits w s.freeNo

/-- The state that has taken a free value. -/
def State.usedFree (s : State) : State := { s with freeNo := s.freeNo + 1 }

/-- Bit b of the register at a. -/
def State.regBit (s : State) (a b : Nat) : Bool := (s.reg a).getLsbD b

/-- The register at a with bit b at x. -/
def State.setRegBit (s : State) (a b : Nat) (x : Bool) : State := s.put ⟨a, b, 1⟩ x

/-- An MSI-X message on vector v (R458, R471): a masked vector sets its pending bit; nothing leaves while the host link is
down or in D3hot (R435). -/
def State.sendMsix (s : State) (v : Nat) : State :=
  if s.bit (MSIX_CTRL.MASK v) then s.setRegBit (MSIX_PBA (v / 32)) (v % 32) true
  else if s.bit HI_STAT.LINK_UP && s.rd HI_STAT.DSTATE == 0 && s.bit HI_STAT.BME then s.emit (.msix v)
  else s

/-! ## Domains and the first commit -/

/-- Whether domain d is clocked and out of reset. -/
def State.runs (s : State) (d : Domain) : Bool :=
  !(s.stopped.becalm.contains d || s.stopped.power.contains d || s.stopped.reset.contains d || s.stopped.pll.contains d)

/-- Whether part p of CORE is clocked and out of reset. -/
def State.partRuns (s : State) (p : Part) : Bool :=
  s.runs .core && !(s.stopped.partBecalm.contains p || s.stopped.partPower.contains p || s.stopped.partReset.contains p)

/-- Whether the first commit has taken place (R22, R500). -/
def State.committed (s : State) : Bool := s.bit CF_STAT.COMMITTED

/-- Whether the block at BAR0 address a exists before the first commit (R22). DEDUCED (log entry 16): the image loader of R22 is both
that of protocol images (R363) and that of configuration images (R482). -/
def existsEarly (a : Nat) : Bool :=
  decide (a < 0x70000) || decide (a = ED_CFG) || (decide (0x360000 ≤ a) && decide (a < 0x360100))
    || (decide (0x400000 ≤ a) && decide (a < 0x1000000))

/-- Whether the register at a exists now (R22). -/
def State.regExists (s : State) (a : Nat) : Bool := s.committed || existsEarly a

/-! ## Device time -/

/-- Nanoseconds in a second. -/
def second : Nat := 1000000000

/-- Whether the time base counts coarsely (R273). -/
def State.coarse (s : State) : Bool := s.bit TB_STAT.COARSE

/-- Device time at this tick, in ns since the epoch (R272). -/
def State.now (s : State) : Nat := if s.coarse then s.time.cyc else s.time.cyc + s.time.phase

/-- A count of ns as the three words of a stamp: NS, SEC [31:0], SEC [47:32] (R14, R552). -/
def timeWords (t : Nat) : List Word :=
  [BitVec.ofNat 32 (t % second), BitVec.ofNat 32 (t / second), BitVec.ofNat 32 (t / second / 0x100000000 % 0x10000)]

/-- The ns that three time registers name; a NS of 10^9 or more acts as 999,999,999. -/
def timeOf (ns sl sh : Nat) : Nat := (sh % 0x10000 * 0x100000000 + sl) * second + min ns 999999999

/-- The largest value of device time. -/
def timeMax : Nat := (2 ^ 48 - 1) * second + 999999999

/-- The state with a time stamp in three registers, keeping the upper half of the third. -/
def State.setStamp (s : State) (ns sl sh t : Nat) : State :=
  let s := (s.setReg ns (BitVec.ofNat 32 (t % second))).setReg sl (BitVec.ofNat 32 (t / second))
  s.wr ⟨sh, 0, 16⟩ (t / second / 0x100000000)

/-- The division of integers rounded to nearest, ties away from zero. -/
def divRound (a b : Int) : Int :=
  if b = 0 then 0
  else if 0 ≤ a then (2 * a + b) / (2 * b) else -((2 * (-a) + b) / (2 * b))

/-- ⌈a / b⌉ of naturals. -/
def divUp (a b : Nat) : Nat := if b = 0 then 0 else (a + b - 1) / b

end Sys2Proof.Machine
end

