-- ==== Sys2Proof/Machine/QueueOps.lean ====
section
/-!
DEFINITION. What one queue does by itself: the counts of R206, packets (R210), release and marks (R207 to R209), discards
(R212 to R214), where its words lie (R233 to R237), and the answers of its window (R198, R204, R205).
-/
namespace Sys2Proof.Machine

/-! ## Configuration (R229) -/

/-- The full mode: 0 STOP, 1 OVERWRITE, 2 OVERWRITE_PACKET; 3 acts as 0 (R216). -/
def QCfg.mode (c : QCfg) : Nat := if c.w0.toNat % 4 = 3 then 0 else c.w0.toNat % 4

/-- AUTO_REL; 3 acts as 0 (R207). -/
def QCfg.autoRel (c : QCfg) : Nat := if c.w0.toNat / 4 % 4 = 3 then 0 else c.w0.toNat / 4 % 4

/-- EDGE; 7 acts as 6 (R229). -/
def QCfg.edge (c : QCfg) : Nat := min (c.w0.toNat / 16 % 8) 6

/-- NOTIFY (R223). -/
def QCfg.notify (c : QCfg) : Nat := c.w0.toNat / 256 % 4

/-- NGRP (R223). -/
def QCfg.ngrp (c : QCfg) : Nat := c.w0.toNat / 1024 % 8

/-- SPILL; 5 to 15 act as 0 (R238). -/
def QCfg.spill (c : QCfg) : Nat := if 4 < c.w0.toNat / 65536 % 16 then 0 else c.w0.toNat / 65536 % 16

/-- CAP in words: 0 acts as 1, and values above 2^32 as 2^32 (R221). -/
def QCfg.cap (c : QCfg) : Nat :=
  let x := c.w2.toNat % 2 * 0x100000000 + c.w1.toNat
  if x = 0 then 1 else min x 0x100000000

/-- RES_BLOCKS (R239). -/
def QCfg.resBlocks (c : QCfg) : Nat := c.w2.toNat / 65536

/-- WMARK; 0 acts as 1 (R223). -/
def QCfg.wmark (c : QCfg) : Nat := max c.w3.toNat 1

/-- FWD_EN, FWD_DEV and FWD_QID (R329). -/
def QCfg.fwdEn (c : QCfg) : Bool := c.w4.toNat / 0x80000000 != 0
def QCfg.fwdDev (c : QCfg) : Nat := c.w4.toNat / 65536 % 64
def QCfg.fwdQid (c : QCfg) : Nat := c.w4.toNat % 65536

/-- The words of one segment at EDGE code e: 64 B × 2^e (R229). -/
def edgeWords (e : Nat) : Nat := 16 * 2 ^ e

/-- The bytes of queue edge memory that a queue at EDGE code e takes: two segments (R221). -/
def edgeBytes (e : Nat) : Nat := 128 * 2 ^ e

/-! ## Counts (R206, R210) -/

/-- HELD: the words that hold space. -/
def Queue.held (q : Queue) : Nat := q.words.length

/-- UNREL: the words popped and not released. -/
def Queue.unrel (q : Queue) : Nat := q.rd - q.rl

/-- READY: the words that can be popped. -/
def Queue.ready (q : Queue) : Nat := q.words.length - (q.rd - q.rl)

/-- How many of ws carry END. -/
def countEnd (ws : List QWord) : Nat := (ws.filter (·.fin)).length

/-- PKTS: the words between the read pointer and the tail that carry END (R210). -/
def Queue.pkts (q : Queue) : Nat := countEnd (q.words.drop (q.rd - q.rl))

/-- The words that block b holds unreleased. -/
def Block.held (b : Block) : Nat := b.fill + b.flight - b.rel

/-- The held words that lie in the middle. -/
def Queue.middle (q : Queue) : Nat := (q.chain.map Block.held).sum

/-- The held words that lie in the tail segment (R233). -/
def Queue.tail (q : Queue) : Nat := q.words.length - q.head - q.middle

/-- The blocks that q holds in pool k. -/
def Queue.blocks (q : Queue) (k : PoolKind) : Nat := (q.chain.filter (fun b => decide (b.pool = k))).length

/-- Whether some word is in the eddy store or in transit to it (R236). -/
def Queue.spilled (q : Queue) : Bool := q.chain.any (fun b => decide (b.pool = .eddy) && decide (b.rel < b.fill + b.flight))

/-- Whether q is full: by its capacity, or for want of a block (R206). -/
def Queue.full (q : Queue) : Bool := decide (q.cfg.cap ≤ q.held) || q.poolFull

/-! ## Where words lie (R233 to R237) -/

/-- Words pass from the tail to the head while the middle is empty and the head has room (R235 rule 2). -/
def Queue.settle (q : Queue) : Queue :=
  if q.chain.isEmpty then { q with head := min q.held (max q.head (edgeWords q.edge)) } else q

/-- The block of chain bs that holds the word n places behind the head, with the word's place in the block. -/
def blockAt : List Block → Nat → Option (Block × Nat)
  | [], _ => none
  | b :: bs, n => if n < b.held then some (b, b.rel + n) else blockAt bs (n - b.held)

/-- Whether the word at the read pointer is resident on chip (R236). -/
def Queue.resident (q : Queue) : Bool :=
  if q.unrel < q.head then true
  else match blockAt q.chain (q.unrel - q.head) with
    | none => true
    | some (b, k) =>
      match b.pool with
      | .onChip => true
      | .eddy => match b.buf with | .here _ _ _ hi _ => decide (k < hi) | _ => false

/-- Release of n words from block chain bs: the chain left, and the blocks freed (R237). A block into which a burst is still on its way
stays until that has landed. -/
def chainRelease : List Block → Nat → List Block × List Block
  | [], _ => ([], [])
  | b :: bs, n =>
    if b.held ≤ n then
      let (c, f) := chainRelease bs (n - b.held)
      if b.flight = 0 then (c, b :: f) else ({ b with rel := b.rel + b.held } :: c, f)
    else ({ b with rel := b.rel + n } :: bs, [])

/-- A pending EDGE takes effect when HELD reaches 0 (R222). -/
def Queue.applyEdge (q : Queue) : Queue :=
  match q.edgePend with
  | some e => if q.held = 0 then { q with edge := e, edgePend := none } else q
  | none => q

/-- The n oldest words leave: the queue left, and the blocks freed. Release unpins the head (R237); a link that disagrees is found where
the chain goes on past the freed block (R251). -/
def Queue.dropOldest (q : Queue) (n : Nat) : Queue × List Block :=
  let h := min n q.head
  let (c, f) := chainRelease q.chain (n - h)
  let q' : Queue := { q with
    words := q.words.drop n, rl := q.rl + n, head := q.head - h, chain := c
    pinned := q.pinned && decide (n = 0), torn := q.torn || (f.any (·.torn) && !c.isEmpty) }
  (q'.settle.applyEdge, f)

/-- Release of the n oldest words, which have been popped. A release past the mark clears it (R208). -/
def Queue.release (q : Queue) (n : Nat) : Queue × List Block :=
  let n := min n q.unrel
  let (q', f) := q.dropOldest n
  ({ q' with mark := match q'.mark with
      | some m => if m < q'.rl then none else some m
      | none => none }, f)

/-- The oldest stream position that a mark or an unaccepted forwarded word keeps from automatic release (R207, R329). -/
def Queue.keepFrom (q : Queue) : Nat :=
  let m := match q.mark with | some m => min m q.rd | none => q.rd
  match q.fwd.groups with
  | g :: _ => min m g.pos
  | [] => m

/-- How many words of ws lead up to and include the last that carries END. -/
def throughLastEnd (ws : List QWord) : Nat := ws.length - (ws.reverse.takeWhile (fun w => !w.fin)).length

/-- The popped words that the queue's AUTO_REL has no more use for (R207). -/
def Queue.autoCount (q : Queue) : Nat :=
  let due := match q.cfg.autoRel with
    | 1 => q.unrel
    | 2 => throughLastEnd (q.words.take q.unrel)
    | _ => 0
  min due (q.keepFrom - q.rl)

/-- The automatic release that q's mode makes now (R207). -/
def Queue.autoRelease (q : Queue) : Queue × List Block := q.release q.autoCount

/-! ## Pops, commands and discards -/

/-- The sample of λ and τ that a fully popped eddy block gives at time t (R245). -/
def Block.sample (b : Block) (t : Nat) : Option (Nat × Nat) :=
  match b.pool, b.buf with
  | .eddy, .here req first last _ _ => some (last - req, t - first)
  | _, _ => none

/-- The prefetch depth after a sample (R245). -/
def depthOf (pfMax : Nat) (samples : List (Nat × Nat)) : Nat :=
  let l := (samples.map Prod.fst).sum
  let t := (samples.map Prod.snd).sum
  if t < samples.length then pfMax else min pfMax (divUp l t + 1)

/-- Queue q with the sample of a block fully popped at time t. -/
def Queue.addSample (q : Queue) (pfMax t : Nat) (b : Block) : Queue :=
  match b.sample t with
  | none => q
  | some x =>
    let ss := (x :: q.samples).take 4
    if ss.length < 4 then { q with samples := ss }
    else { q with samples := ss, warming := false, depth := depthOf (min pfMax 8) ss }

/-- The chain once the last word of the copy of the block with the word n places behind the head has been popped: that block gives its
prefetch buffer back (R244). -/
def dropBuf : List Block → Nat → List Block
  | [], _ => []
  | b :: bs, n => if n < b.held then { b with buf := .away } :: bs else b :: dropBuf bs (n - b.held)

/-- Whether the copy of block b in a prefetch buffer ends before word n. -/
def Block.copyEnds (b : Block) (n : Nat) : Bool :=
  match b.buf with
  | .here _ _ _ hi false => decide (hi ≤ n)
  | _ => false

/-- Queue q once word k of block b, n places behind the head, has been popped (R244, R245): the block's last word gives a sample,
and the last word of its copy gives the buffer back. -/
def Queue.blockPopped (q : Queue) (pfMax t n : Nat) (b : Block) (k : Nat) : Queue :=
  let last := decide (k + 1 = b.fill) && decide (b.flight = 0)
  let q := if last then q.addSample pfMax t b else q
  if last || b.copyEnds (k + 1) then { q with chain := dropBuf q.chain n } else q

/-- The pop of the word at the read pointer (R198, R207): the word with its CUT flag, the queue left and the blocks freed. The
caller has seen that a word is ready and resident. In AUTO_REL 2 a word without END releases nothing. -/
def Queue.pop (q : Queue) (pfMax t : Nat) : QWord × Bool × Queue × List Block :=
  let w := (q.words.drop q.unrel).headD { data := 0 }
  let n := q.unrel - q.head
  let q1 := match (if q.head ≤ q.unrel then blockAt q.chain n else none) with
    | some (b, k) => q.blockPopped pfMax t n b k
    | none => q
  let q2 := { q1 with rd := q.rd + 1, popped := q.popped + 1, cut := false, lastEnd := w.fin }
  let (q3, f) := if q.cfg.autoRel = 2 ∧ w.fin = false then (q2, []) else q2.autoRelease
  (w, q.cut, q3, f)

/-- The discard of the n oldest held words under a full mode (R212 to R214): how many of them carried END, the queue left
and the blocks freed. -/
def Queue.discard (q : Queue) (n : Nat) : Queue × List Block :=
  let n := min n q.held
  let passed := decide (q.unrel < n)
  let (q1, f) := q.dropOldest n
  let q1 := { q1 with lossTold := q1.lossTold || decide (0 < n) }
  let q2 := if passed then { q1 with rd := q1.rl, cut := q.cut || !q.lastEnd } else q1
  let q3 := match q2.mark with
    | some m => if m < q2.rl then { q2 with mark := none, markLost := true } else q2
    | none => q2
  ({ q3 with lost := sat32 (q.lost + n) }, f)

/-- The words of the oldest packet that q holds whole, if it holds one (R213). -/
def Queue.oldestPacket (q : Queue) : Option Nat :=
  if q.words.any (·.fin) then some ((q.words.takeWhile (fun w => !w.fin)).length + 1) else none

/-- The discard of every held word, as RESET and a queue fault do it (R220): words and packets lost. -/
def Queue.wipe (q : Queue) : Nat × Nat × Queue :=
  let n := q.held
  let p := countEnd q.words + (match q.words.getLast? with | some w => if w.fin then 0 else 1 | none => 0)
  let unpopped := decide (0 < q.ready)
  (n, p, ({ q with
    words := [], rl := q.rl + n, rd := q.rl + n, mark := none, markLost := false, overrun := false, discarding := false
    cut := q.cut || (unpopped && !q.lastEnd), lost := sat32 (q.lost + n), lostPkt := sat32 (q.lostPkt + p)
    head := 0, chain := [], torn := false, poolFull := false, hwm := 0, depth := 0, warming := true, samples := [], pinned := false
    refillEv := false, fwd := { q.fwd with groups := [], spans := [], behind := false } } : Queue).applyEdge)

/-- REWIND (R208, R214, R246): the read pointer goes to the mark, or to the release pointer; prefetch copies are dropped, and
a rewind after a lost mark cuts. -/
def Queue.rewind (q : Queue) : Queue :=
  let c := q.chain.map (fun b => { b with buf := .away })
  match q.mark with
  | some m => { q with rd := m, chain := c }
  | none => { q with rd := q.rl, chain := c, cut := q.cut || q.markLost }

/-! ## Copies of blocks (R242 to R244) -/

/-- Whether block b holds a prefetch buffer. -/
def Block.buffered (b : Block) : Bool :=
  match b.buf with
  | .away => false
  | .reading _ _ _ inHead => !inHead
  | .here _ _ _ _ inHead => !inHead

/-- The prefetch buffers queue q holds. -/
def Queue.buffers (q : Queue) : Nat := (q.chain.filter Block.buffered).length

/-- The place in chain bs of the block that holds the word n places behind the head. -/
def blockIndex : List Block → Nat → Nat
  | [], _ => 0
  | b :: bs, n => if n < b.held then 0 else blockIndex bs (n - b.held) + 1

/-- The words of the head segment that are taken: words that passed straight, and unpopped copies of block words. -/
def Queue.headTaken (q : Queue) : Nat :=
  q.head + (match blockAt q.chain (q.unrel - q.head) with
    | some (b, k) => (match b.buf with | .here _ _ _ hi true => hi - k | _ => 0)
    | none => 0)

/-- The block of q that a demand read takes (R242): the one with the word at the read pointer, if that word is written, not
resident, and no read of it runs. Its place in the chain. -/
def Queue.demand (q : Queue) : Option Nat :=
  if q.ready = 0 ∨ q.resident then none
  else match blockAt q.chain (q.unrel - q.head) with
    | some (b, k) =>
      (match b.buf with
        | .reading _ _ _ _ => none
        | _ => if k < b.fill then some (blockIndex q.chain (q.unrel - q.head)) else none)
    | none => none

/-- The block of q that the next prefetch read takes: the first, of as many behind the one at the read pointer as depth tells,
that is in the eddy store with words in it and without a copy. -/
def Queue.prefetchNext (q : Queue) (depth : Nat) : Option Nat :=
  let i := blockIndex q.chain (q.unrel - q.head)
  ((List.range' (i + 1) depth).find? (fun j =>
    match q.chain[j]? with
    | some b => decide (b.pool = .eddy) && decide (0 < b.fill) && decide (b.buf = .away)
    | none => false))

/-! ## Answers of the window -/

/-- The 64-bit answer of POP or PEEK for word w (R198). -/
def popWord (w : QWord) (cut : Bool) : Word64 :=
  BitVec.ofNat 64 (0x8000000000000000 + cut.toNat * 0x400000000 + w.err.toNat * 0x200000000 + w.fin.toNat * 0x100000000
    + w.data.toNat)

/-- The 64-bit answer of POP or PEEK with VALID = 0 and the WAIT bit given (R202). -/
def noWord (wait : Bool) : Word64 := BitVec.ofNat 64 (wait.toNat * 0x800000000)

/-- Bits [63:56] of STAT (R204), without EXISTS. -/
def Queue.flags (q : Queue) : Nat :=
  q.full.toNat + 2 * q.overrun.toNat + 4 * q.mark.isSome.toNat + 8 * q.markLost.toNat + 16 * q.spilled.toNat
    + 32 * q.discarding.toNat + 64 * q.fault.toNat

/-- STAT (R204); an absent queue reads 0. -/
def Queue.stat (q : Queue) : Word64 :=
  if q.ex then
    BitVec.ofNat 64 ((128 + q.flags) * 2 ^ 56 + min q.pkts 0xFFFFFF * 2 ^ 32 + sat32 q.ready)
  else 0

/-- LOST (R205); an absent queue reads 0. -/
def Queue.lostWord (q : Queue) : Word64 :=
  if q.ex then BitVec.ofNat 64 (q.lostPkt * 2 ^ 32 + q.lost) else 0

/-- The notify condition (R223). -/
def Queue.notifies (q : Queue) : Bool :=
  q.ex && (match q.cfg.notify with
    | 1 => decide (1 ≤ q.pkts)
    | 2 => decide (1 ≤ q.ready)
    | 3 => decide (q.cfg.wmark ≤ q.ready)
    | _ => false)

/-- The arriving words ws discarded with a packet of which the queue holds no END (R213): they count as accepted and lost, and cut the stream
if it was left within a packet (R214, R230). DISCARDING tells that the packet's END is still to come. -/
def Queue.discardNew (q : Queue) (ws : List QWord) : Queue :=
  { q with pushed := q.pushed + ws.length, lost := sat32 (q.lost + ws.length), cut := q.cut || !q.lastEnd
           lossTold := true, discarding := !ws.any (·.fin) }

/-- The store of word w at the tail, which the full mode has allowed. -/
def Queue.store (q : Queue) (w : QWord) : Queue :=
  let q1 := { q with words := q.words ++ [w], pushed := q.pushed + 1 }
  { q1.settle with hwm := max q.hwm (q.held + 1) }

end Sys2Proof.Machine
end

