-- ==== Sys2Proof/Machine/Eic.lean ====
section
/-!
DEFINITION. The event interrupt controller (R533 to R546): the inputs of its sources, the gateways, eligibility, the
targets' lines and their delivery, and the meanings of its commands.
-/
namespace Sys2Proof.Machine

/-- The gateway of source n. -/
def State.gate (s : State) (n : Nat) : Gateway := tabGet Gateway.reset s.eic.gates n

/-- The state with gateway g for source n. -/
def State.setGate (s : State) (n : Nat) (g : Gateway) : State :=
  { s with eic := { s.eic with gates := tabPut Gateway.reset s.eic.gates n g } }

/-- Target t. -/
def State.target (s : State) (t : Nat) : Target := tabGet Target.reset s.eic.targets t

/-- The state with x for target t. -/
def State.setTarget (s : State) (t : Nat) (x : Target) : State :=
  { s with eic := { s.eic with targets := tabPut Target.reset s.eic.targets t x } }

/-- The non-maskable source CLK_FAIL (R545). -/
def clkFail : Nat := 2046

/-- Whether n is a privileged source (R533). -/
def privileged (n : Nat) : Bool := decide (2026 ≤ n) && decide (n ≤ 2046)

/-- Whether an enabled event bit of a block is set: (EVT AND EVT_EN) is not 0. -/
def State.evtActive (s : State) (evt en : Nat) : Bool := (s.reg evt &&& s.reg en) != 0

/-- The pin that GP_EXTL_SEL selects for pin-interrupt line n (R631). -/
def State.extlPin (s : State) (n : Nat) : Nat := s.rd ⟨GP_EXTL_SEL, 2 * n, 2⟩ * 16 + n

/-- The level of pin-interrupt line n: that last seen at its pin's pad (R631). -/
def State.extl (s : State) (n : Nat) : Bool := s.pins.seen.getLsbD (s.extlPin n)

/-- Bit p of x at v. -/
def setBit64 (x : BitVec 64) (p : Nat) (v : Bool) : BitVec 64 := if v then x ||| 1#64 <<< p else x &&& ~~~(1#64 <<< p)

/-- The board drives pin p's pad to level v. -/
def State.boardLevel (s : State) (p : Nat) (v : Bool) : State :=
  { s with pins := { s.pins with
    boardEn := s.pins.boardEn ||| 1#64 <<< p, board := setBit64 s.pins.board p v, seen := setBit64 s.pins.seen p v } }

/-- The input of EVLOG (R550): an enabled event bit, or as many ready records as EL_WMARK. -/
def State.evlogInput (s : State) : Bool :=
  s.evtActive EL_EVT EL_EVT_EN ||
    (s.rd EL_WMARK.RECS != 0 && decide (s.rd EL_WMARK.RECS * 8 ≤ s.log.q.ready))

/-- The live input of source n (R533); a privileged source and a software source have none. -/
def State.srcInput (s : State) (n : Nat) : Bool :=
  if n = 0 then false
  else if n ≤ 16 then s.extl (n - 1)
  else if n ≤ 32 then s.evtActive (SP_EVT (n - 17)) (SP_EVT_EN (n - 17))
  else if n ≤ 48 then s.evtActive (SP_TEVT (n - 33)) (SP_TEVT_EN (n - 33))
  else if n ≤ 64 then s.evtActive (TW_EVT (n - 49)) (TW_EVT_EN (n - 49))
  else if n ≤ 80 then s.evtActive (SF_EVT (n - 65)) (SF_EVT_EN (n - 65))
  else if n ≤ 88 then s.queues.any (fun q => q.2.notifies && decide (q.2.cfg.ngrp = n - 81))
  else if n = 89 then s.evtActive QF_EVT QF_EVT_EN
  else if n = 90 then s.evtActive ED_EVT ED_EVT_EN
  else if n = 91 then s.evtActive LG_EVT LG_EVT_EN
  else if n = 92 then s.evtActive TB_EVT TB_EVT_EN
  else if n ≤ 96 then s.evtActive (LK_EVT (n - 93)) (LK_EVT_EN (n - 93))
  else if n = 97 then s.evtActive CH_EVT CH_EVT_EN
  else if n ≤ 145 then s.evtActive (CE_EVT (n - 98)) (CE_EVT_EN (n - 98))
  else if n ≤ 157 then s.evtActive (NP_EVT (n - 146)) (NP_EVT_EN (n - 146))
  else if n ≤ 159 then s.bit (MD_STAT.DONE (n - 158))
  else if n = 160 then s.evtActive HI_EVT HI_EVT_EN
  else if n = 161 then s.evtActive CF_EVT CF_EVT_EN
  else if n = 162 then s.evtActive CK_EVT CK_EVT_EN
  else if n = 163 then s.evtActive PW_EVT PW_EVT_EN
  else if n = 164 then s.evtActive MEM_EVT MEM_EVT_EN
  else if n = 165 then s.evlogInput
  else if n ≤ 228 then tabGet (fun _ => 0) s.eic.members (n - 165) != 0
  else false

/-- SENSE of source n; 5 to 7 act as 0 (R535). -/
def State.sense (s : State) (n : Nat) : Nat :=
  let x := s.rd (EIC_SRC_CFG.SENSE n)
  if 5 ≤ x then 0 else x

/-- Whether the input level x is active for a level sense (R535). -/
def levelActive (sense : Nat) (x : Bool) : Bool := if sense = 0 then x else if sense = 1 then !x else false

/-- The routing of source n: CLK_FAIL with TMASK 0 acts as 0x41 (R545). -/
def State.tmask (s : State) (n : Nat) : Nat :=
  let x := s.rd (EIC_SRC_CFG.TMASK n)
  if n = clkFail ∧ x = 0 then 0x41 else x

/-- Whether source n is eligible at target t in class c (R537, R545). -/
def State.eligible (s : State) (n t : Nat) (gust : Bool) : Bool :=
  decide ((s.gate n).st = .pending) && s.bit (EIC_SRC_CFG.EN n) && (s.tmask n).testBit t
    && (s.bit (EIC_SRC_CFG.CLASS n) == gust)
    && (if gust then s.bit (EIC_TCFG.GUST_EN t) || decide (n = clkFail) else s.bit (EIC_TCFG.BREEZE_EN t))

/-- The highest-numbered source eligible at t in a class, 0 for none (R538). -/
def State.topEligible (s : State) (t : Nat) (gust : Bool) : Nat :=
  s.eic.gates.foldl (fun a g => if s.eligible g.1 t gust then max a g.1 else a) 0

/-- LINE of target t (R538). -/
def State.lineNow (s : State) (t : Nat) : Bool :=
  let x := s.target t
  (s.topEligible t true != 0 && x.gcount == 0) || (s.topEligible t false != 0 && x.bcount == 0 && x.gcount == 0)

/-- Whether the device is a numbered member of a chain, whose host targets report to the root (R556). -/
def State.isMember (s : State) : Bool := s.bit CH_STAT.NUMBERED && s.rd CH_STAT.DEVNUM != 0

/-- The lines of T0 to T5 with DELIV = MSIX, as a member reports them (R556). -/
def State.hostLines (s : State) : Nat :=
  ([0, 1, 2, 3, 4, 5].map (fun t =>
    if (s.target t).line && s.rd (EIC_TCFG.DELIV t) % 2 == 1 then 2 ^ t else 0)).sum

/-- The delivery of a rise of LINE at target t (R539): an MSI-X message for a host target; a member reports instead (R556),
and T6 and T7 interrupt their supervisor core. -/
def State.deliver (s : State) (t : Nat) : State :=
  if t < 6 then
    if s.rd (EIC_TCFG.DELIV t) % 2 == 1 && !s.isMember then s.sendMsix (s.rd (EIC_TCFG.VEC t)) else s
  else s.emit (.supervisorIrq (t - 6))

/-- Target t's LINE brought up to date (R538): a rise sets RAISED of the classes eligible and delivers. -/
def State.refreshLine (s : State) (t : Nat) : State :=
  let x := s.target t
  let l := s.lineNow t
  if l && !x.line then
    (s.setTarget t { x with
      line := true
      raisedB := x.raisedB || s.topEligible t false != 0
      raisedG := x.raisedG || s.topEligible t true != 0 }).deliver t
  else if x.line && !l then s.setTarget t { x with line := false }
  else s

/-- Every target's LINE brought up to date; a member reports a change of its host lines (R556). -/
def State.refreshLines (s : State) : State :=
  let s' := [0, 1, 2, 3, 4, 5, 6, 7].foldl State.refreshLine s
  if s'.isMember && s'.hostLines != s.hostLines then s'.emit (.irqReport (BitVec.ofNat 6 s'.hostLines)) else s'

/-- A request at the gateway of n, as an edge or a firing makes it (R536, R543). -/
def Gateway.request (g : Gateway) : Gateway :=
  match g.st with
  | .idle => { g with st := .pending }
  | .pending => g
  | .claimed => { g with repend := true }

/-- A firing of privileged source n (R544): kept in the AON domain while CORE stands still. -/
def State.fire (s : State) (n : Nat) : State :=
  if s.partRuns .eic then (s.setGate n (s.gate n).request).refreshLines
  else if s.eic.latched.contains n then s
  else { s with eic := { s.eic with latched := s.eic.latched ++ [n] } }

/-- The firings latched while CORE stood still reach their gateways (R544). -/
def State.unlatch (s : State) : State :=
  s.eic.latched.foldl State.fire { s with eic := { s.eic with latched := [] } }

/-- The gateway of n samples its input (R535, R536), which a software source and a privileged one do not have (R534): an active level requests, an inactive one withdraws a request that
software did not make; an edge its sense selects requests. -/
def State.sampleInput (s : State) (n : Nat) : State :=
  let g := s.gate n
  let x := s.srcInput n
  let k := s.sense n
  let g1 := { g with input := x }
  if n = 0 ∨ 229 ≤ n then s
  else if k ≤ 1 then
    if levelActive k x then
      (if g.st = .idle then s.setGate n { g1 with st := .pending, bySoft := false } else s.setGate n g1)
    else if g.st = .pending ∧ g.bySoft = false then s.setGate n { g1 with st := .idle }
    else s.setGate n g1
  else if (x && !g.input && (k == 2 || k == 4)) || (!x && g.input && (k == 3 || k == 4)) then s.setGate n g1.request
  else s.setGate n g1

/-- The EIC samples every input, as on each CORE cycle (R535). -/
def State.sampleInputs (s : State) : State := ((List.range' 1 228).foldl State.sampleInput s).refreshLines

/-- Whether IRQ_N0 or IRQ_N1 is low, of target t delivered there (R539): while its LINE is 1, and at once for a firing that the AON domain
keeps while CORE stands still (R544). -/
def State.irqLow (s : State) (t : Nat) : Bool :=
  s.rd (EIC_TCFG.DELIV t) == 2
    && ((s.target t).line || ((s.target t).gcount == 0 && s.eic.latched.any (fun n =>
      s.bit (EIC_SRC_CFG.EN n) && (s.tmask n).testBit t && (s.bit (EIC_TCFG.GUST_EN t) || decide (n = clkFail)))))

/-- The lines that member d shows, as the root knows them (R556). -/
def State.memberLines (s : State) (d : Nat) (lines : BitVec 6) : State :=
  let s := { s with eic := { s.eic with members := tabPut (fun _ => 0) s.eic.members d lines } }
  if s.partRuns .eic then (s.sampleInput (165 + d)).refreshLines else s

/-- The pad of pin-interrupt source n becomes active for its sense, or inactive (R631); other sources have no pad. An edge that both
senses select inverts the pad. -/
def State.lineTakes (s : State) (n : Nat) (active : Bool) : State :=
  if n = 0 ∨ 16 < n then s
  else
    let v := match s.sense n with
      | 1 | 3 => !active
      | 4 => !s.extl (n - 1)
      | _ => active
    s.boardLevel (s.extlPin (n - 1)) v

/-! ## Meanings -/

/-- GATEWAY_REQUEST (R536): source n's gateway sees its input become active, or its selected edge. A privileged source has no
level to sample: its conditions fire it. On a pin-interrupt line it is the pad that takes the level, which the board drives. -/
def execGatewayRequest (n : BitVec 11) (s : State) : Res :=
  let s := s.lineTakes n.toNat true
  if privileged n.toNat ∨ n.toNat = 0 ∨ s.partRuns .eic = false then .next s
  else .next (s.sampleInput n.toNat).refreshLines

/-- GATEWAY_WITHDRAW (R536): a level source's input becomes inactive. -/
def execGatewayWithdraw (n : BitVec 11) (s : State) : Res :=
  let s := s.lineTakes n.toNat false
  if privileged n.toNat ∨ n.toNat = 0 ∨ s.partRuns .eic = false then .next s
  else .next (s.sampleInput n.toNat).refreshLines

/-- The claim of target t in a class (R541): the value returned and the state. -/
def State.claim (s : State) (t : Nat) (gust : Bool) : Nat × State :=
  let n := s.topEligible t gust
  let x := s.target t
  if n ≠ 0 then
    let g := s.gate n
    let s1 := s.setGate n { g with st := .claimed, owner := t, gust := gust, bySoft := false }
    let x1 := if gust then { x with gcount := x.gcount + 1, raisedG := false }
      else { x with bcount := x.bcount + 1, raisedB := false }
    (n, (s1.setTarget t x1).refreshLines)
  else if (if gust then x.raisedG else x.raisedB) then
    (2047, (s.setTarget t (if gust then { x with raisedG := false } else { x with raisedB := false })).inc EIC_CNT_SPUR)
  else (0, s)

/-- CLAIM (R541): a read of a claim register. Claims wait until CORE runs (R544): a read then returns 0. -/
def execClaim (m : Master) (t : Fin 8) (gust : Bool) (s : State) : Res :=
  if s.partRuns .eic then
    let (v, s') := s.claim t.val gust
    .next (s'.emit (.answer m (BitVec.ofNat 64 v)))
  else .next (s.emit (.answer m 0))

/-! ## Changes of routing (R494, R546) -/

/-- Word v with the TMASK bits of the targets ts, and where own its CLASS and SENSE, as in old. -/
def routeKeep (old v : Word) (ts : List Nat) (own : Bool) : Word :=
  let m : Word := BitVec.ofNat 32 ((ts.map (fun t => 2 ^ t)).sum + (if own then 0xF00 else 0))
  (v &&& ~~~m) ||| (old &&& m)

/-- Whether target t still waits: it holds a claim of a source whose routing changes. -/
def State.targetWaits (s : State) (t : Nat) : Bool :=
  s.eic.waiting.any (fun w => decide ((s.gate w.src).st = .claimed) && (s.gate w.src).owner == t)

/-- The source n samples its input after a change of its sense (R537): a level at once, an edge from the input as it is now. -/
def State.senseChanged (s : State) (n : Nat) : State :=
  if privileged n ∨ 229 ≤ n ∨ s.partRuns .eic = false then s
  else if s.sense n ≤ 1 then s.sampleInput n
  else s.setGate n { s.gate n with input := s.srcInput n }

/-- What still waits of a change, in the register of its source: target t's part is applied, and where own the source's part. -/
def State.routePart (s : State) (w : RouteWait) (ts : List Nat) (own : Bool) : State :=
  let s1 := s.setReg (EIC_SRC_CFG w.src) (routeKeep (s.reg (EIC_SRC_CFG w.src)) w.v ts own)
  let rest := s.eic.waiting.filter (fun x => x.src != w.src)
  let more := if ts.isEmpty && !own then [] else [{ w with targets := ts, own := own }]
  { s1 with eic := { s1.eic with waiting := rest ++ more } }

/-- The changes that wait take effect at target t. -/
def State.routeTarget (s : State) (t : Nat) : State :=
  let s := s.eic.waiting.foldl (fun s w => s.routePart w (w.targets.filter (· != t)) w.own) s
  match s.eic.tcfgs.find? (fun x => x.1 == t) with
  | some x => ({ s with eic := { s.eic with tcfgs := s.eic.tcfgs.filter (fun y => y.1 != t) } } : State).setReg (EIC_TCFG t) x.2
  | none => s

/-- CLASS and SENSE of source n that waited for the end of its claim take effect. -/
def State.routeSource (s : State) (n : Nat) : State :=
  match s.eic.waiting.find? (fun w => w.src == n) with
  | some w => s.routePart w w.targets false
  | none => s

/-- The claim of source n by target t has ended: what waited for it takes effect. -/
def State.claimEnded (s : State) (n t : Nat) : State :=
  let s := s.routeSource n
  if s.targetWaits t then s else s.routeTarget t

/-- Changes of the routing registers of sources, and of EIC_TCFG of targets, that arrive together (R494, R546). A target that holds a
claim of a source whose routing changes waits; a claimed source's CLASS and SENSE wait; the rest takes effect at once. -/
def State.routeWrite (s : State) (srcs tcfgs : List (Nat × Word)) : State :=
  let moved := srcs.filter (fun x => (s.reg (EIC_SRC_CFG x.1) ^^^ x.2) &&& 0xFFF != 0)
  let held (n : Nat) : Bool := decide ((s.gate n).st = .claimed)
  let ts := (List.range 8).filter (fun t => moved.any (fun x => held x.1 && (s.gate x.1).owner == t))
  let s := srcs.foldl (fun s x =>
    let n := x.1
    let sense := s.sense n
    let w : RouteWait := { src := n, v := x.2, targets := ts, own := held n, since := s.time.tick }
    let old := s.reg (EIC_SRC_CFG n)
    let s := if routeKeep old x.2 ts w.own = x.2 then s.routePart w [] false else s.routePart w ts w.own
    if s.sense n = sense then s else s.senseChanged n) s
  let s := tcfgs.foldl (fun s x =>
    if ts.contains x.1 then { s with eic := { s.eic with tcfgs := s.eic.tcfgs.filter (fun y => y.1 != x.1) ++ [x] } }
    else s.setReg (EIC_TCFG x.1) x.2) s
  if s.partRuns .eic then s.refreshLines else s

/-- The completion of source n by its owner (R536, R542): the claim ends, and the gateway re-samples. At a level sense it is software that has
set REPEND, and no inactive input withdraws that (R543). -/
def State.completeSource (s : State) (n : Nat) : State :=
  let g := s.gate n
  let x := s.target g.owner
  let s := s.setTarget g.owner (if g.gust then { x with gcount := x.gcount - 1 } else { x with bcount := x.bcount - 1 })
  let idle : Gateway := { g with st := .idle, owner := 0, gust := false, repend := false }
  let s := (s.setGate n idle).claimEnded n g.owner
  let k := s.sense n
  let level := decide (k ≤ 1)
  let again := g.repend || (decide (k ≤ 1) && !privileged n && decide (n < 229) && levelActive k (s.srcInput n))
  (s.setGate n { s.gate n with st := if again then .pending else .idle, bySoft := level && g.repend }).refreshLines

/-- COMPLETE (R542): a write to a complete register; 0 and 2,047 are ignored, any other number that is no claim of this target
and class is ignored and counted. -/
def execComplete (_ : Master) (t : Fin 8) (gust : Bool) (v : Word) (s : State) : Res :=
  let n := v.toNat % 2048
  let g := s.gate n
  if n = 0 ∨ n = 2047 then .next s
  else if g.st = .claimed ∧ g.owner = t.val ∧ g.gust = gust then .next (s.completeSource n)
  else .next (s.inc EIC_CNT_BADCMP)

/-- The source numbers of the bits set in word i of a source map; 0 and 2,047 are reserved (R543). -/
def sourcesIn (i : Nat) (v : Word) : List Nat :=
  (List.range 32).filterMap (fun b => if v.getLsbD b && (32 * i + b != 0) && (32 * i + b != 2047) then some (32 * i + b) else none)

/-- The set of source n's pending state by software (R543). -/
def State.softSet (s : State) (n : Nat) : State :=
  let g := s.gate n
  s.setGate n (if g.st = .idle then { g.request with bySoft := true } else g.request)

/-- PSET (R543). -/
def execPset (_ : Master) (i : Fin 64) (v : Word) (s : State) : Res :=
  .next ((sourcesIn i.val v).foldl State.softSet s).refreshLines

/-- The clear of source n's request by software (R543); an active level makes it pending again in the next cycle. -/
def State.softClear (s : State) (n : Nat) : State :=
  let g := s.gate n
  if n = clkFail then s
  else
    let s := s.setGate n { g with st := if g.st = .pending then .idle else g.st, repend := false, bySoft := false }
    if s.sense n ≤ 1 ∧ privileged n = false ∧ n < 229 then s.sampleInput n else s

/-- PEND_CLEAR (R543): a write of 1 to bits of EIC_PEND. The clear of CLK_FAIL is ignored (R545). -/
def execPendClear (_ : Master) (i : Fin 64) (v : Word) (s : State) : Res :=
  .next ((sourcesIn i.val v).foldl State.softClear s).refreshLines

/-- CHAIN_IRQ_REPORT (R556): the root takes device d's report of its host lines. -/
def execChainIrqReport (d : Fin 64) (lines : BitVec 6) (s : State) : Res :=
  if d.val = 0 then .next s else .next (s.memberLines d.val lines)

/-! ## Reads -/

/-- The word of source states that a map shows: bit b for source 32 × i + b. -/
def State.sourceMap (s : State) (i : Nat) (st : GateState) : Word :=
  BitVec.ofNat 32 ((List.range 32).map (fun b => if (s.gate (32 * i + b)).st = st then 2 ^ b else 0)).sum

/-- EIC_SRC_CFGn as read: the stored fields and the live state of the gateway (R560). -/
def State.srcCfgRead (s : State) (n : Nat) : Word :=
  let g := s.gate n
  let st := match g.st with | .idle => 0 | .pending => 1 | .claimed => 2
  BitVec.ofNat 32 ((s.reg (EIC_SRC_CFG n)).toNat + (s.srcInput n).toNat * 0x10000 + st * 0x20000 + g.repend.toNat * 0x80000
    + g.owner * 0x100000 + g.gust.toNat * 0x800000)

/-- EIC_TSTAT as read (R561). -/
def State.tstatRead (s : State) (t : Nat) : Word :=
  let x := s.target t
  BitVec.ofNat 32 (x.line.toNat + 2 * x.raisedB.toNat + 4 * x.raisedG.toNat + x.bcount * 16 + x.gcount * 0x10000)

end Sys2Proof.Machine
end

