-- ==== Sys2Proof/Machine/Log.lean ====
section
/-!
DEFINITION. The event log (R547 to R558): the codes of the events, records and record sets, storm control, the push of a set,
the forward buffer of a member, give-way events (R27), and the meanings of the log's own commands.
-/
namespace Sys2Proof.Machine

/-! ## Codes (R551, R553): class in [15:8], index in the class's list in [7:0] -/

def Ev.STORM_SUMMARY : Nat := 0x0001
def Ev.LOG_RESET : Nat := 0x0002
def Ev.LOG_LOST_CLR : Nat := 0x0003
def Ev.CONFIG_WRITE : Nat := 0x0101
def Ev.CONFIG_LOAD : Nat := 0x0102
def Ev.SECTION_COMMIT : Nat := 0x0103
def Ev.IMAGE_LOAD : Nat := 0x0104
def Ev.IMAGE_CLEAR : Nat := 0x0105
def Ev.QUEUE_CHANGE : Nat := 0x0106
def Ev.QUEUE_DELETED : Nat := 0x0107
def Ev.STORE_WRITE : Nat := 0x0108
def Ev.FUSE_PROG : Nat := 0x0109
def Ev.CLK_FAIL : Nat := 0x0201
def Ev.CLK_RESTORED : Nat := 0x0202
def Ev.BECALM : Nat := 0x0203
def Ev.BECALM_END : Nat := 0x0204
def Ev.PLL_LOCK_LOST : Nat := 0x0205
def Ev.RESET_DONE : Nat := 0x0206
def Ev.POWER_STATE : Nat := 0x0207
def Ev.WAKE : Nat := 0x0208
def Ev.TIME_STEP : Nat := 0x0301
def Ev.TB_SRC_CHANGE : Nat := 0x0302
def Ev.TB_HOLDOVER : Nat := 0x0303
def Ev.TB_HO_EXPIRED : Nat := 0x0304
def Ev.LEAP_SECOND : Nat := 0x0305
def Ev.TPO_CUT : Nat := 0x0306
def Ev.COLLISION : Nat := 0x0401
def Ev.LINE_STUCK : Nat := 0x0402
def Ev.TW_JOIN : Nat := 0x0501
def Ev.TW_LEAVE : Nat := 0x0502
def Ev.TW_RIVAL : Nat := 0x0503
def Ev.SWITCH_DONE : Nat := 0x0504
def Ev.SWITCH_WITHDRAWN : Nat := 0x0505
def Ev.TW_REPHASE : Nat := 0x0506
def Ev.SLOT_WITHHELD : Nat := 0x0507
def Ev.SLOT_FORFEIT : Nat := 0x0508
def Ev.TW_BLOCKED : Nat := 0x0601
def Ev.TW_MUZZLED : Nat := 0x0602
def Ev.TW_UNMUZZLED : Nat := 0x0603
def Ev.TW_TIME_SKEW : Nat := 0x0604
def Ev.TW_ABSENT : Nat := 0x0605
def Ev.TW_PRESENT : Nat := 0x0606
def Ev.TW_BABBLE : Nat := 0x0607
def Ev.TW_BUS_DEAD : Nat := 0x0608
def Ev.TW_BUS_ALIVE : Nat := 0x0609
def Ev.QUEUE_OVERRUN : Nat := 0x0701
def Ev.QUEUE_OVERWRITE : Nat := 0x0702
def Ev.QUEUE_RESET : Nat := 0x0703
def Ev.QUEUE_FAULT : Nat := 0x0704
def Ev.QUEUE_LOST_CLR : Nat := 0x0705
def Ev.QUEUE_NOROOM : Nat := 0x0706
def Ev.QUEUE_ABSENT_PUSH : Nat := 0x0707
def Ev.QUEUE_RESERVE_CUT : Nat := 0x0708
def Ev.REFILL_WAIT : Nat := 0x0709
def Ev.LEDGER_FAULT : Nat := 0x0801
def Ev.LEDGER_RECOUNT : Nat := 0x0802
def Ev.COMPLETION_STALL : Nat := 0x0803
def Ev.DOMAIN_BOUNCE : Nat := 0x0804
def Ev.LINK_DOWN : Nat := 0x0901
def Ev.CHAIN_ENUM : Nat := 0x0902
def Ev.MEMBER_NEW : Nat := 0x0903
def Ev.MEMBER_LOST : Nat := 0x0904
def Ev.CHAIN_PIN_CONFLICT : Nat := 0x0905
def Ev.ROOT_CONFLICT : Nat := 0x0906
def Ev.CHAIN_DEPTH : Nat := 0x0907
def Ev.CHAIN_FULL : Nat := 0x0908
def Ev.LINK_LOOPBACK : Nat := 0x0909
def Ev.CHAIN_RD_FAIL : Nat := 0x090A
def Ev.ORPHAN_WRITE : Nat := 0x090B
def Ev.FWD_PAUSE : Nat := 0x090C
def Ev.ENGINE_EVENT : Nat := 0x0A01
def Ev.ENGINE_FAULT : Nat := 0x0B01
def Ev.SLOT_LOST : Nat := 0x0B02
def Ev.NET_LINK : Nat := 0x0C01
def Ev.CT_PATH : Nat := 0x0C02
def Ev.GATE_CHANGE : Nat := 0x0C03
def Ev.ABORT : Nat := 0x0D01
def Ev.ABORT_LATE : Nat := 0x0D02
def Ev.HOST_LINK_RESET : Nat := 0x0D03
def Ev.ECC_FATAL : Nat := 0x0E01
def Ev.ECC_CORRECTED : Nat := 0x0E02
def Ev.BANK_BUSY : Nat := 0x0E03
def Ev.BOOT_SLOT_FAIL : Nat := 0x0F01
def Ev.BOOT_FAILED : Nat := 0x0F02
def Ev.BOOT_WAIT : Nat := 0x0F03
def Ev.STORE_WEAR : Nat := 0x0F04

/-! ## Storm control (R554, R555) -/

/-- Storm control of class c. -/
def State.cls (s : State) (c : Nat) : ClassState := tabGet ClassState.reset s.log.classes c

/-- The state with x as storm control of class c. -/
def State.setCls (s : State) (c : Nat) (x : ClassState) : State :=
  { s with log := { s.log with classes := tabPut ClassState.reset s.log.classes c x } }

/-- Whether class c is unlimited: LOG, CONFIG, or a RATE of 0xFFFF. -/
def State.unlimited (s : State) (c : Nat) : Bool := decide (c < 2) || s.rd (EL_CLS_CFG.RATE c) == 0xFFFF

/-- BURST of class c; 0 acts as 1. -/
def State.burst (s : State) (c : Nat) : Nat := max 1 (s.rd (EL_CLS_CFG.BURST c))

/-- The events of R28, each of which tells that a guarantee gave way. -/
def giveWayCodes : List Nat :=
  [Ev.SLOT_WITHHELD, Ev.SLOT_FORFEIT, Ev.ABORT_LATE, Ev.QUEUE_FAULT, Ev.COMPLETION_STALL, Ev.REFILL_WAIT]

/-- The suppression of n records of class c, the first with the code given (R554, R555). -/
def State.suppress (s : State) (c code n : Nat) : State :=
  let x := s.cls c
  (s.setCls c { x with
    supp := x.supp + n
    giveWay := if giveWayCodes.contains code then x.giveWay + n else x.giveWay
    first := if x.supp = 0 then code else x.first }).incBy (EL_CLS_SUP c) n

/-! ## Records (R551, R552) -/

/-- The device number that a record carries: its number on a chain, 0 otherwise. -/
def State.devField (s : State) : Nat := if s.bit CH_STAT.NUMBERED then s.rd CH_STAT.DEVNUM else 0

/-- One record: the stamp t, the continuation and DEFERRED bits, the code, the origin and four payload words. -/
def State.record (s : State) (t : Nat) (cont deferred : Bool) (code : Nat) (o : Origin) (pay : List Word) : List Word :=
  [BitVec.ofNat 32 (t % second),
   BitVec.ofNat 32 (t / second),
   BitVec.ofNat 32 (t / second / 0x100000000 % 0x10000 + s.rd TB_TIME_SH.STEP_SEQ * 0x10000 + s.devField * 0x1000000
     + cont.toNat * 0x40000000 + deferred.toNat * 0x80000000),
   BitVec.ofNat 32 (code + o.code * 0x10000 + o.sub * 0x100000),
   pay.getD 0 0, pay.getD 1 0, pay.getD 2 0, pay.getD 3 0]

/-- The records of an event: one for each four payload words, at least one and at most four (R552). -/
def State.recordSet (s : State) (t : Nat) (deferred : Bool) (code : Nat) (o : Origin) (pay : List Word) : List (List Word) :=
  (List.range (min 4 (max 1 (divUp pay.length 4)))).map
    (fun k => s.record t (k != 0) deferred code o ((pay.drop (4 * k)).take 4))

/-- A record with GAP set (R548, R551). -/
def withGap : List Word → List Word
  | [a, b, c, d, e, f, g, h] => [a, b, c, d ||| 0x80000, e, f, g, h]
  | r => r

/-- The capacity of the log in records (R547, R549). -/
def State.logCap (s : State) : Nat := 4096 + s.log.ext

/-- The oldest whole record is discarded: 8 words and one packet lost (R547). -/
def State.logDiscard (s : State) : State :=
  let q := (s.log.q.discard 8).1
  { s with log := { s.log with q := { q with lostPkt := sat32 (q.lostPkt + 1) }, discards := true } }

/-- One record enters the log, after the oldest has made room where the log is full (R547, R548). -/
def State.logRecord (s : State) (r : List Word) : State :=
  let s := if s.logCap * 8 ≤ s.log.q.held then s.logDiscard else s
  let gap := s.log.discards && !s.log.gapShown
  let r := if gap then withGap r else r
  let ws := (r.take 7).map (fun w => ({ data := w } : QWord)) ++ [{ data := r.getD 7 0, fin := true }]
  let q := ws.foldl Queue.store s.log.q
  let s := { s with log := { s.log with q := { q with head := q.held }, gapShown := s.log.gapShown || gap } }
  let s := if gap then s.on EL_EVT.LOST else s
  s.inc EL_CNT_REC

/-- A member's copy of record r for the root (R557): into the forward buffer, or counted as not forwarded. -/
def State.forwardCopy (s : State) (c : Nat) (r : List Word) : State :=
  if s.bit EL_CFG.FWD && s.isMember then
    if decide (256 ≤ s.log.forward.length) || s.bit CH_STAT.ISOLATED then
      let x := s.cls c
      ((s.setCls c { x with fwdSupp := x.fwdSupp + 1 }).inc EL_CNT_FWDSUP).on EL_EVT.FWD_SUPP
    else { s with log := { s.log with forward := s.log.forward ++ [r] } }
  else s

/-- A set of records that storm control has let through. -/
def State.logSet (s : State) (c : Nat) (rs : List (List Word)) : State :=
  rs.foldl (fun s r => (s.logRecord r).forwardCopy c r) s

/-- A set of class c reaches the log: written if the class is unlimited, or has a RATE and tokens for all of it, otherwise suppressed
whole (R554). -/
def State.pushSet (s : State) (c code : Nat) (rs : List (List Word)) : State :=
  let x := s.cls c
  if s.unlimited c then s.logSet c rs
  else if s.rd (EL_CLS_CFG.RATE c) ≠ 0 ∧ rs.length ≤ x.tokens then (s.setCls c { x with tokens := x.tokens - rs.length }).logSet c rs
  else s.suppress c code rs.length

/-- The records of class c's producers that wait for the log. -/
def State.heldRecords (s : State) (c : Nat) : Nat :=
  ((s.log.held.filter (fun h => h.producer == c)).map (fun h => h.words.length / 8)).sum

/-- The records of a word list, eight words each. -/
def recordsOf (n : Nat) (ws : List Word) : List (List Word) :=
  (List.range n).map (fun k => (ws.drop (8 * k)).take 8)

/-- An event of the device (R27, R547, R552): its set is written at the stamp's time, or waits in its producer's buffer of four
records while CORE stands still (R555); there a set of a limited class without room is suppressed. The producer is taken
as the block that writes the class (log entry 8). -/
def State.eventAt (s : State) (t : Nat) (deferred : Bool) (code : Nat) (o : Origin) (pay : List Word) : State :=
  let c := code / 256
  let rs := s.recordSet t deferred code o pay
  if s.runs .core then s.pushSet c code rs
  else if 2 ≤ c ∧ 4 < s.heldRecords c + rs.length then s.suppress c code rs.length
  else { s with log := { s.log with held := s.log.held ++ [{ producer := c, cls := c, words := rs.flatten }] } }

/-- An event at this tick, with payload fields as numbers. -/
def State.event (s : State) (code : Nat) (pay : List Nat) (o : Origin := .device) : State :=
  s.eventAt s.now false code o (pay.map (BitVec.ofNat 32))

/-- The records that waited while CORE stood still are written when it runs (R555). -/
def State.flushHeld (s : State) : State :=
  s.log.held.foldl
    (fun s h => s.pushSet h.cls ((h.words.getD 3 0).toNat % 0x10000) (recordsOf (h.words.length / 8) h.words))
    { s with log := { s.log with held := [] } }

/-- A give-way event (R27, R28, R552): the rank that gave way, the rank that held, the object's kind and number, and two further
fields. -/
def State.giveWay (s : State) (code gave holds kind obj : Nat) (more : List Nat := []) : State :=
  s.event code ([gave + 16 * holds + 256 * kind, obj] ++ more)

/-- A write to a configuration-class register is recorded with its offset, new and old value (R30, R553), and one that has waited with
its arrival (R32). The words of a commit are recorded by its SECTION_COMMIT event instead (R497). -/
def State.configWrite (s : State) (o : Origin) (off : Nat) (new old : Word) : State :=
  if s.log.quiet then s
  else
    let late := match s.log.arrived with | some t => (timeWords t).map BitVec.toNat | none => []
    s.event Ev.CONFIG_WRITE ([off, new.toNat, old.toNat] ++ late) o

/-! ## Changes that wait (R32, R555) -/

/-- The section whose WRITE and MODIFY records reach BAR0 address a (R477), 0 for none. -/
def sectionOf (a : Nat) : Nat :=
  let inside (lo hi : Nat) : Bool := decide (lo ≤ a) && decide (a ≤ hi)
  let o := (a - 0x80000) % 0x1000
  if inside 0x10000 0x1FFFF then 2
  else if inside 0x20000 0x2FFFF then 1
  else if inside 0x30000 0x3FFFF || inside 0x60000 0x6FFFF then 11
  else if inside 0x40000 0x4FFFF then 9
  else if inside 0x50000 0x5FFFF || inside 0x110000 0x11FFFF then 3
  else if inside 0x80000 0x8FFFF && decide (o < 0x200) then 5
  else if inside 0x80000 0x8FFFF && decide (o < 0x500) then 6
  else if inside 0x200000 0x22FFFF || inside 0x230000 0x2301FF then 8
  else if inside 0x300000 0x35FFFF || inside 0x360100 0x36012F then 7
  else if inside 0x400000 0x410FFF then 10
  else if inside 0x500004 0x500007 then 12
  else 0

/-- The section that reloads the subsystem of BAR0 address a: QUEUES records create and change the queues of the fabric (R221). -/
def reloadOf (a : Nat) : Nat := if 0x100000 ≤ a ∧ a < 0x110000 then 4 else sectionOf a

/-- Whether the commit in progress still has the section to bring to its boundary that reloads the subsystem of address a (R32). -/
def State.reloading (s : State) (a : Nat) : Bool :=
  match s.cfg.commit with
  | some c => reloadOf a != 0 && (c.now == reloadOf a || c.todo.contains (reloadOf a))
  | none => false

/-- The master as which an origin writes. -/
def originMaster : Origin → Master
  | .host => .host
  | .calm => .calm
  | .chain d => .chain d
  | .engine e => .engine e
  | _ => .supervisor 0

/-- A write of v to address a by origin o waits for the reload of its subsystem (R32). -/
def State.lateWrite (s : State) (o : Origin) (a : Nat) (v : Word) : State :=
  { s with cfg := { s.cfg with late := s.cfg.late ++ [{ m := originMaster o, org := o, addr := a, v := v, at_ := s.now }] } }

/-- Whether the buffer of the producer of configuration records is full (R555): CORE stands still, and four records wait. -/
def State.configFull (s : State) : Bool := !s.runs .core && decide (4 ≤ s.heldRecords 1)

/-! ## Meanings -/

/-- EVENT_RECORD_WRITE (R547): a producer's record set reaches the log, behind what waits in the producers' buffers. -/
def execEventRecordWrite (cls : Fin 16) (idx : Byte) (o : Origin) (payload : List Word) (s : State) : Res :=
  let s := if s.runs .core then s.flushHeld else s
  .next (s.eventAt s.now false (cls.val * 256 + idx.toNat) o payload)

/-- The STORM_SUMMARY of class c, if records of it were suppressed since the last tick (R555). -/
def State.stormSummary (s : State) (c : Nat) : State :=
  let x := s.cls c
  if x.supp = 0 then s
  else
    let s := s.setCls c { x with supp := 0, giveWay := 0, first := 0 }
    let s := s.logSet 0 (s.recordSet s.now false Ev.STORM_SUMMARY .device
      ([0x767, c, x.supp, min x.giveWay 0xFFFF + x.first * 0x10000].map (BitVec.ofNat 32)))
    (s.inc EL_CNT_SUMM).on EL_EVT.STORM

/-- The summary with FWD = 1 of class c, whose records a member failed to forward (R557). -/
def State.forwardSummary (s : State) (c : Nat) : State :=
  let x := s.cls c
  if x.fwdSupp = 0 ∨ s.bit CH_STAT.ISOLATED then s
  else
    let s := s.setCls c { x with fwdSupp := 0 }
    s.emit (.eventCopy (s.record s.now false false Ev.STORM_SUMMARY .device
      ([0x10767, c, x.fwdSupp, 0].map (BitVec.ofNat 32))))

/-- Tokens are added to class c, up to BURST (R554). -/
def State.refill (s : State) (c : Nat) : State :=
  let x := s.cls c
  s.setCls c { x with tokens := min (s.burst c) (x.tokens + s.rd (EL_CLS_CFG.RATE c)) }

/-- The copies in the forward buffer leave for the root (R557). -/
def State.sendForward (s : State) : State :=
  if s.bit CH_STAT.ISOLATED then s
  else
    s.log.forward.foldl (fun s r => (s.emit (.eventCopy r)).inc EL_CNT_FWD) { s with log := { s.log with forward := [] } }

/-- LOG_TIMER_TICK (R554, R555, R557): summaries, then tokens; a member's copies leave. While CORE stands still no tick
comes. -/
def execLogTimerTick (s : State) : Res :=
  if s.runs .core then
    let s := s.flushHeld
    let s := (List.range 16).foldl State.stormSummary s
    let s := if s.isMember then (List.range 16).foldl State.forwardSummary s else s
    .next (((List.range' 2 14).foldl State.refill s).sendForward)
  else .next s

/-- EL_CLS_CFG_WRITE (R554): a class's RATE and BURST are set, and its bucket is filled. The classes LOG and CONFIG cannot be
limited. -/
def execElClsCfgWrite (o : Origin) (c : Fin 16) (v : Word) (s : State) : Res :=
  if c.val < 2 then .next s
  else
    let old := s.reg (EL_CLS_CFG c.val)
    let s := s.setReg (EL_CLS_CFG c.val) v
    let s := s.setCls c.val { s.cls c.val with tokens := s.burst c.val }
    .next (s.configWrite o (EL_CLS_CFG c.val) v old)

/-- EVENT_COPY_RECEIVE (R557): the root pushes member d's record into its own log unchanged, past its buckets. -/
def execEventCopyReceive (_ : Fin 64) (ws : List Word) (s : State) : Res :=
  .next ((s.logRecord (ws.take 8 ++ List.replicate (8 - ws.length) 0)).inc EL_CNT_RXFWD)

end Sys2Proof.Machine
end

