-- ==== Sys2Proof/Machine/Queues.lean ====
section
/-!
DEFINITION. The queue fabric (R197 to R232): queues in the state, blocks and pools (R234 to R241), flow control of the ports
a queue serves (R50), full modes (R211 to R217), windows (R198 to R208), creation and change (R221, R222), and the meanings of
the fabric's commands.
-/
namespace Sys2Proof.Machine

/-- Queue number n. -/
def State.queue (s : State) (n : Nat) : Queue := tabGet (fun _ => Queue.absent) s.queues n

/-- The state with queue q as number n. -/
def State.setQueue (s : State) (n : Nat) (q : Queue) : State :=
  { s with queues := tabPut (fun _ => Queue.absent) s.queues n q }

/-- Port n. -/
def State.port (s : State) (n : Nat) : Port := tabGet Port.reset s.ports n

/-- The state with port p as number n. -/
def State.setPort (s : State) (n : Nat) (p : Port) : State := { s with ports := tabPut Port.reset s.ports n p }

/-! ## Uncorrectable and correctable errors (R649) -/

/-- An uncorrectable error in an on-chip memory: counted, its place recorded, ECC_FATAL fired and written. -/
def State.memFatal (s : State) (mem bank addr master : Nat) : State :=
  let s := (s.inc MEM_CNT_UE).setReg MEM_UE_INFO (BitVec.ofNat 32 (mem + bank * 0x100 + master * 0x10000))
  let s := ((s.setReg MEM_UE_ADDR (BitVec.ofNat 32 addr)).on MEM_EVT.UE).fire 2044
  s.event Ev.ECC_FATAL [mem, addr, master]

/-- An uncorrectable error in DRAM channel c at a channel address. -/
def State.dramFatal (s : State) (c addr master : Nat) : State :=
  let s := (s.inc (DDR_CNT_UE c)).setPair (DDR_UE_ADDR_LO c) (DDR_UE_ADDR_HI c) addr
  ((s.on MEM_EVT.UE).fire 2044).event Ev.ECC_FATAL [4 + c, addr, master]

/-- A correctable error: corrected, counted and written; none is the on-chip memories, some c DRAM channel c. -/
def State.memCorrected (s : State) (c : Option Nat) (mem addr : Nat) : State :=
  let s := match c with | some c => s.inc (DDR_CNT_CE c) | none => s.inc MEM_CNT_CE
  (s.on MEM_EVT.CE).event Ev.ECC_CORRECTED [mem, addr]

/-- The next write to the memory that TARGET names, of the word at stream position p of queue q, takes an armed injection (R652). -/
def State.inject (s : State) (q : Queue) (t p : Nat) : State × Queue :=
  if s.bit MEM_INJ.ARM && s.rd MEM_INJ.TARGET == t then
    (s.off MEM_INJ.ARM, { q with hurt := (p, t, s.bit MEM_INJ.DOUBLE) :: q.hurt })
  else (s, q)

/-- Held word j of queue k delivered with ERR set, its data free (R253, R649, log entry 4). -/
def State.markErr (s : State) (k j : Nat) : State :=
  let q := s.queue k
  let w := (q.words.drop j).headD { data := 0 }
  (s.setQueue k { q with words := q.words.set j { w with data := s.freeVal 32, err := true } }).usedFree

/-- A read of the word at stream position p of queue k (R649): an injected error in it is corrected, or the word gets ERR, which a
refill counts (R253). Its address is free. -/
def State.readHurt (s : State) (k p : Nat) : State :=
  let q := s.queue k
  match q.hurt.find? (fun x => x.1 == p) with
  | none => s
  | some (_, m, double) =>
    let a := (s.freeVal 32).toNat
    let s := s.usedFree.setQueue k { q with hurt := q.hurt.filter (fun x => x.1 != p) }
    if double then
      let s := s.markErr k (p - q.rl)
      if m < 2 then s.memFatal m 0 a 0 else (((s.inc ED_CNT_ECCW).on ED_EVT.ECC_DATA).dramFatal (m - 2) a 0)
    else s.memCorrected (if m < 2 then none else some (m - 2)) (if m < 2 then m else m + 2) a

/-! ## Scratchpad banks and the on-chip pool (R641, R645, R647) -/

/-- The banks of one interleave group (R641). -/
def State.ilvWidth (s : State) : Nat := match s.rd MEM_CFG.ILV with | 0 => 64 | 1 => 16 | 2 => 4 | _ => 1

/-- The bank that holds scratchpad address a (R641). -/
def State.bankOf (s : State) (a : Nat) : Nat :=
  let w := s.ilvWidth
  a / (w * 524288) * w + a / 4 % w

/-- Whether bank b holds a byte of the scratchpad addresses from lo up to hi (R641). -/
def State.bankIn (s : State) (b lo hi : Nat) : Bool :=
  let w := s.ilvWidth
  let l := max lo (b / w * (w * 524288))
  let h := min hi ((b / w + 1) * (w * 524288))
  let f := l / 4
  decide (l < h) && decide (f + (b % w + w - f % w) % w ≤ (h - 1) / 4)

/-- The state of bank b as MEM_BSTAT shows it (R645): 0 ON, 1 RET, 2 OFF, 3 changing. -/
def State.bankState (s : State) (b : Nat) : Nat := s.rd ⟨MEM_BSTAT (b / 16), 2 * (b % 16), 2⟩

/-- The region of a use, of length 0 where the use has no memory (R481). -/
def State.region (s : State) (use : Nat) : Region :=
  (s.mem.regions.find? (fun r => r.use == use)).getD { use := use, base := 0, size := 0 }

/-- Whether some bank of the on-chip pool's range is not ON: its words are then not resident (R260, log entry 12). -/
def State.poolAsleep (s : State) : Bool :=
  let r := s.region 3
  (List.range 64).any (fun b => s.bankState b != 0 && s.bankIn b r.base (r.base + r.size))

/-- The free on-chip blocks that R240 may take: those of banks that are not ON are left (R647, log entry 12). -/
def State.onChipFree (s : State) : Nat := if s.poolAsleep then 0 else s.ledger.onChip.free

/-! ## Flow control (R50, R86) -/

/-- Whether queue q in state s makes a stop condition for port n by its occupancy; was tells that one held before. -/
def State.occupancyStop (s : State) (n : Nat) (q : Queue) (was : Bool) : Bool :=
  let hi := s.rd (SP_FC_HI.FC_HI n)
  let lo := s.rd (SP_FC_LO.FC_LO n)
  if s.rd (SP_FLOW.FC_BASIS n) = 1 then q.spilled
  else if was then (if hi ≤ lo then decide (hi ≤ q.held) else decide (lo < q.held))
  else decide (hi ≤ q.held) && hi != 0xFFFFFFFF

/-- The receive queue bound to port n, if it is bound and exists (R85). -/
def State.rxQueue (s : State) (n : Nat) : Option Nat :=
  let q := s.rd (SP_QRX.QID n)
  if s.bit (SP_QRX.BIND_EN n) && (s.queue q).ex then some q else none

/-- Port n's stop condition brought up to date: RTS_OFF follows it, and XOFF or XON becomes due (R50, R52). -/
def State.updateFlow (s : State) (n : Nat) : State :=
  let p := s.port n
  let q := match s.rxQueue n with | some k => s.queue k | none => Queue.absent
  let f := s.occupancyStop n q p.fcStop
  let stop := f || (q.ex && q.cfg.mode == 0 && q.full) || s.bit (SP_STAT.HOLD_FULL n)
  let xp := if stop != p.stop && s.bit (SP_FLOW.XRX_EN n) && !s.bit (SP_STAT.FC_IGNORED n) then p.xpend ++ [stop] else p.xpend
  let s := s.setPort n { p with fcStop := f, stop := stop, xpend := xp }
  s.put (SP_STAT.RTS_OFF n) (stop && s.bit (SP_FLOW.RTS_EN n) && s.bit (SP_CTRL.RX_EN n))

/-- The flow control of every port whose receive queue is number k. -/
def State.updateFlows (s : State) (k : Nat) : State :=
  (List.range 16).foldl
    (fun s n => if s.bit (SP_QRX.BIND_EN n) && s.rd (SP_QRX.QID n) == k then s.updateFlow n else s) s

/-! ## Pools and blocks (R234, R238 to R241) -/

/-- A pool of the ledger. -/
def Ledger.pool (l : Ledger) : PoolKind → Pool
  | .eddy => l.eddy
  | .onChip => l.onChip

/-- The ledger with x as pool k. -/
def Ledger.setPool (l : Ledger) (k : PoolKind) (x : Pool) : Ledger :=
  match k with
  | .eddy => { l with eddy := x }
  | .onChip => { l with onChip := x }

/-- Whether blocks of queue n in generation g await reclaim (R252). -/
def Ledger.awaits (l : Ledger) (n g : Nat) : Bool := l.awaiting.any (fun r => r.queue == n && r.gen == g)

/-- The pools of a spill policy, in order (R238). -/
def State.policy (s : State) (spill : Nat) : List PoolKind :=
  match spill with
  | 0 => if 0 < s.ledger.eddy.total then [.eddy] else [.onChip]
  | 1 => [.onChip, .eddy]
  | 2 => [.onChip]
  | 3 => [.eddy]
  | _ => []

/-- The home pool of a queue: the first of its policy (R238). -/
def State.home (s : State) (q : Queue) : Option PoolKind := (s.policy q.cfg.spill).head?

/-- The free blocks of pool k that other queues' grants keep (R239); queue n is left out. -/
def State.reservedFor (s : State) (k : PoolKind) (n : Nat) : Nat :=
  (s.queues.map (fun e => if e.1 ≠ n ∧ e.2.ex = true ∧ s.home e.2 = some k then e.2.grant - e.2.blocks k else 0)).sum

/-- The free blocks of pool k kept for grants (R239): LG_E_RESFREE and LG_O_RESFREE. -/
def State.reserved (s : State) (k : PoolKind) : Nat := s.reservedFor k 0x10000

/-- A pool with one block fewer free and one more in FLIGHT (R254); an eddy block comes from channel ch. -/
def Pool.take (p : Pool) (ch : Bool) : Pool :=
  { p with free := p.free - 1, flight := p.flight + 1, free0 := if ch then p.free0 else p.free0 - 1,
           free1 := if ch then p.free1 - 1 else p.free1 }

/-- A pool with a block in FLIGHT linked into a chain (R254). -/
def Pool.link (p : Pool) : Pool := { p with flight := p.flight - 1, held := p.held + 1 }

/-- Pool p with n blocks of channel ch free again; those whose memory is being removed leave the pool (R241). -/
def Pool.back (p : Pool) (ch : Bool) (n : Nat) : Pool :=
  if ch then
    let r := min n p.removing1
    { p with total := p.total - r, total1 := p.total1 - r, removing1 := p.removing1 - r, free := p.free + (n - r), free1 := p.free1 + (n - r) }
  else
    let r := min n p.removing0
    { p with total := p.total - r, total0 := p.total0 - r, removing0 := p.removing0 - r, free := p.free + (n - r), free0 := p.free0 + (n - r) }

/-- A pool with a held block unlinked from its chain: it is in FLIGHT (R254). -/
def Pool.unlink (p : Pool) : Pool := { p with held := p.held - 1, flight := p.flight + 1 }

/-- A pool with a block in FLIGHT freed. -/
def Pool.give (p : Pool) (ch : Bool) : Pool := { p with flight := p.flight - 1 }.back ch 1

/-- Pool p once channel ch gives it t blocks (R234, R241): blocks to be removed go at once where they are free, else when they are
freed. -/
def Pool.resize (p : Pool) (ch : Bool) (t : Nat) : Pool :=
  let rem := if ch then p.removing1 else p.removing0
  let cur := (if ch then p.total1 else p.total0) - rem
  let fr := if ch then p.free1 else p.free0
  let kept := min rem (t - cur)
  let gone := min (cur - t) fr
  let grow := t - cur - kept
  let p := { p with total := p.total + grow - gone, free := p.free + grow - gone }
  if ch then { p with total1 := p.total1 + grow - gone, free1 := p.free1 + grow - gone, removing1 := rem - kept + (cur - t - gone) }
  else { p with total0 := p.total0 + grow - gone, free0 := p.free0 + grow - gone, removing0 := rem - kept + (cur - t - gone) }

/-- The channel that queue q takes its next eddy block from: the other one, unless it has none (R241). -/
def nextChannel (p : Pool) (q : Queue) : Bool :=
  if q.lastCh then decide (p.free0 = 0) else decide (0 < p.free1)

/-- The free blocks of pool k that a queue may take now (R240, R647). -/
def State.poolFree (s : State) (k : PoolKind) : Nat := if k = .onChip then s.onChipFree else (s.ledger.pool k).free

/-- The unreserved free count of pool k, with q as queue n (R239, R240). -/
def State.spare (s : State) (k : PoolKind) (n : Nat) (q : Queue) : Nat := (s.ledger.pool k).free - (s.setQueue n q).reserved k

/-- The state s with ED_EVT.POOL_EMPTY, if the unreserved free count of a pool, above 0 in state was, is 0 in it (R240). -/
def State.poolWatch (s was : State) : State :=
  if [PoolKind.eddy, .onChip].any (fun k => decide (was.reserved k < (was.ledger.pool k).free ∧ (s.ledger.pool k).free ≤ s.reserved k)) then
    s.on ED_EVT.POOL_EMPTY
  else s

/-- The chain bs with block b as its new end: the link of the block before it is written (R251). -/
def linkBlock (bs : List Block) (b : Block) : List Block :=
  match bs.reverse with
  | [] => [b]
  | x :: r => ({ x with torn := false } :: r).reverse ++ [b]

/-- Queue q, number n, takes a block (R240): reserved, else free and unreserved in the first pool that has one; it leaves FREE, and is
linked into the chain. The ledger's own counts of the queue move with it, and POOL_EMPTY tells the last unreserved one. -/
def State.takeBlock (s : State) (n : Nat) (q : Queue) : Option (State × Queue) :=
  let own := match s.home q with
    | some k => if q.blocks k < q.grant ∧ 0 < s.poolFree k then some k else none
    | none => none
  let k? := match own with
    | some k => some k
    | none => (s.policy q.cfg.spill).find? (fun k => decide (s.reserved k < s.poolFree k))
  match k? with
  | none => none
  | some k =>
    let p := s.ledger.pool k
    let ch := decide (k = .eddy) && nextChannel p q
    let q' := { q with
      chain := linkBlock q.chain { pool := k, ch := ch, owner := n, gen := q.gen }, lastCh := if k = .eddy then ch else q.lastCh
      ledgerE := if k = .eddy then q.ledgerE + 1 else q.ledgerE
      ledgerO := if k = .eddy then q.ledgerO else q.ledgerO + 1 }
    let s1 := { s with ledger := s.ledger.setPool k (p.take ch).link }
    let empty := decide (0 < s.spare k n q) && decide (s1.spare k n q' = 0)
    some (if empty then s1.on ED_EVT.POOL_EMPTY else s1, q')

/-- The blocks bs of queue q go back to their pools (R237). -/
def State.giveBlocks (s : State) (q : Queue) (bs : List Block) : State × Queue :=
  bs.foldl (fun x b =>
    ({ x.1 with ledger := x.1.ledger.setPool b.pool ((x.1.ledger.pool b.pool).unlink.give b.ch) },
      { x.2 with
        ledgerE := if b.pool = .eddy then x.2.ledgerE - 1 else x.2.ledgerE
        ledgerO := if b.pool = .eddy then x.2.ledgerO else x.2.ledgerO - 1 })) (s, q)

/-- Whether eddy transfers move: CORE and the DRAM both run (R224, R258). -/
def State.eddyRuns (s : State) : Bool := s.runs .core && s.runs .ddr

/-- Whether DRAM takes new transfers: it runs, and no stop of the DPLL waits for the last of them (R568, R574). -/
def State.ddrTakes (s : State) : Bool := s.runs .ddr && !s.clk.dpllStop

/-- Whether a new eddy transfer may begin. -/
def State.eddyStarts (s : State) : Bool := s.runs .core && s.ddrTakes

/-- A burst of 16 tail words moves into the open block of q, which takes a new block if the open one is full or absent (R235):
none where no block is given, where an eddy transfer may not begin (R258), or where the queue never spills (R221). A burst into an
eddy block is on its way until SPILL_DONE. -/
def State.moveBurst (s : State) (n : Nat) (q : Queue) : Option (State × Queue) :=
  let into (q : Queue) : Queue :=
    match q.chain.reverse with
    | [] => q
    | b :: r => { q with chain := (({ b with
        flight := if b.pool = .eddy then b.flight + 16 else b.flight
        fill := if b.pool = .eddy then b.fill else b.fill + 16 } : Block) :: r).reverse }
  let moved (x : State × Queue) : Option (State × Queue) :=
    match x.2.chain.getLast? with
    | some b =>
      if b.pool = .eddy ∧ s.ddrTakes = false then none
      else some (x.1.inject (into x.2) (match b.pool with | .onChip => 0 | .eddy => 2 + b.ch.toNat) (q.rl + q.head + q.middle))
    | none => none
  let open_ := match q.chain.getLast? with | some b => decide (b.fill + b.flight + 16 ≤ 1024) | none => false
  if q.cfg.cap ≤ 2 * edgeWords q.edge then none
  else if open_ then moved (s, q)
  else match s.takeBlock n q with
    | some x => moved x
    | none => none

/-- The words of q in bursts on their way to eddy blocks. -/
def Queue.landing (q : Queue) : Nat := (q.chain.map Block.flight).sum

/-- Room for one more word in q's tail (R235, R206): at once, by a burst, or none for want of a block or while blocks of an
older life of the same generation await reclaim (R252). While eddy transfers stand still, a burst on its way keeps its
places in the tail (R258). -/
def State.roomFor (s : State) (n : Nat) (q : Queue) : Option (State × Queue) :=
  let q := q.settle
  if s.ledger.awaits n q.gen then none
  else if q.tail + (if s.runs .ddr then 0 else q.landing) < edgeWords q.edge then some (s, q)
  else s.moveBurst n q

/-- Whether queue q, number n, has CAP left and yet no room for its next word: it needs a block and gets none (R206, R235 rule 5), or blocks
of an older life of the same generation await reclaim (R252). -/
def State.starved (s : State) (n : Nat) (q : Queue) : Bool :=
  q.ex && (s.ledger.awaits n q.gen || (decide (q.held < q.cfg.cap) && (s.roomFor n q).isNone))

/-- Every queue that has come to be full for want of a block, or is so no longer (R206, R240). -/
def State.refreshFull (s : State) : State :=
  s.queues.foldl (fun s e =>
    let q := s.queue e.1
    let full := s.starved e.1 q
    if q.poolFull = full then s else (s.setQueue e.1 { q with poolFull := full }).updateFlows e.1) s

/-! ## Queue faults (R251, R252) -/

/-- The pool k once n held blocks of a faulted queue await reclaim. -/
def Pool.toReclaim (p : Pool) (n : Nat) : Pool := { p with held := p.held - n, reclaim := p.reclaim + n }

/-- The ledger with queue n's e eddy blocks, d1 of them in D1, and o on-chip blocks of generation g moved from HELD to RECLAIM; a sweep is
asked for (R252, R257). -/
def Ledger.reclaimFrom (l : Ledger) (n g e d1 o : Nat) : Ledger :=
  let add (k : PoolKind) (c : Nat) (rs : List Reclaim) : List Reclaim :=
    if c = 0 then rs else rs ++ [{ pool := k, queue := n, gen := g, n := c, d1 := if k = .eddy then min c d1 else 0 }]
  { l with
    eddy := l.eddy.toReclaim e
    onChip := l.onChip.toReclaim o
    awaiting := add .onChip o (add .eddy e l.awaiting)
    nextSweep := if e + o = 0 then l.nextSweep else some (l.nextSweep.getD false) }

/-- A queue fault (R220, R252): the queue is reset, its generation rises, and its blocks go to RECLAIM. -/
def State.queueFault (s : State) (n : Nat) : State :=
  let q := s.queue n
  let (w, p, q1) := q.wipe
  let g := (q.gen + 1) % 0x10000
  let stuck := s.ledger.awaits n g
  let q2 := { q1 with fault := true, faults := sat32 (q.faults + 1), gen := g, ledgerE := 0, ledgerO := 0, poolFull := stuck }
  let s1 := { s with ledger := s.ledger.reclaimFrom n q.gen q.ledgerE (q.chain.filter Block.ch).length q.ledgerO }
  let s2 := (s1.setQueue n q2).updateFlows n
  (s2.on QF_EVT.FAULT).giveWay Ev.QUEUE_FAULT 5 1 2 n [w, p]

/-- Queue n is used: a control record whose copies disagree is a queue fault (R251). -/
def State.used (s : State) (n : Nat) : State := if (s.queue n).torn then s.queueFault n else s

/-- Queue q put back as number n after an operation that freed the blocks bs: which queues are full for want of a block is found anew, and the
ports they serve follow (R50, R206). A disagreement that the operation met is a queue fault (R251). -/
def State.putQueue (s : State) (n : Nat) (q : Queue) (bs : List Block := []) : State :=
  let (s, q) := s.giveBlocks q bs
  (((s.setQueue n { q with poolFull := s.starved n q }).updateFlows n).used n).refreshFull

/-! ## Full modes (R211 to R217) -/

/-- What became of a push. -/
inductive PushRes where
  | accepted | refused | absent
  deriving DecidableEq, Repr

/-- The words ws stored one after another, if there is room for every one. -/
def State.storeAll (s : State) (n : Nat) (q : Queue) : List QWord → Option (State × Queue)
  | [] => some (s, q)
  | w :: ws =>
    if q.cfg.cap ≤ q.held then none
    else match s.roomFor n q with
      | none => none
      | some (s', q') =>
        let (s', q') := s'.inject q' 1 (q'.rl + q'.held)
        s'.storeAll n (q'.store w) ws

/-- n words refused (R211): the first refusal after OVERRUN was clear is reported. -/
def State.refuse (s : State) (k : Nat) (q : Queue) (n : Nat) : State :=
  let q' := { q with overrun := true, refused := sat32 (q.refused + n) }
  let s := s.putQueue k q'
  if q.overrun then s else (s.on QF_EVT.OVERRUN).event Ev.QUEUE_OVERRUN [k]

/-- The report of a first discard under a full mode after LOST read 0 (R215). -/
def State.reportLoss (s : State) (k : Nat) (was now : Queue) : State :=
  if !was.lossTold && now.lossTold then (s.on QF_EVT.LOST).event Ev.QUEUE_OVERWRITE [k] else s

/-- The store of ws in OVERWRITE mode: the oldest words are discarded until all fit (R212, R217). f bounds the discards. -/
def State.overwrite (s : State) (k : Nat) (q : Queue) (ws : List QWord) : Nat → Option (State × Queue)
  | 0 => s.storeAll k q ws
  | f + 1 =>
    match s.storeAll k q ws with
    | some x => some x
    | none =>
      if q.held = 0 then none
      else
        let last := match q.words.head? with | some w => w.fin || decide (q.held = 1) | none => false
        let (q1, bs) := q.discard 1
        let (s1, q2) := s.giveBlocks { q1 with lostPkt := sat32 (q1.lostPkt + last.toNat) } bs
        s1.overwrite k q2 ws f

/-- The words of ws up to and including the first END, and the rest (R213). -/
def splitEnd (ws : List QWord) : List QWord × List QWord :=
  let n := (ws.takeWhile (fun w => !w.fin)).length + 1
  (ws.take n, ws.drop n)

/-- The store of ws in OVERWRITE_PACKET mode (R213, R217): whole packets are discarded until all fit; an incomplete one goes with
the arriving words of the same packet, and DISCARDING tells that its rest is still to come. -/
def State.overwritePacket (s : State) (k : Nat) (q : Queue) (ws : List QWord) : Nat → Option (State × Queue)
  | 0 => s.storeAll k q ws
  | f + 1 =>
    if ws.isEmpty then some (s, q)
    else if q.discarding then
      let (a, b) := splitEnd ws
      s.overwritePacket k (q.discardNew a) b f
    else match s.storeAll k q ws with
      | some x => some x
      | none =>
        match q.oldestPacket with
        | some n =>
          let (q1, bs) := q.discard n
          let (s1, q2) := s.giveBlocks { q1 with lostPkt := sat32 (q1.lostPkt + 1) } bs
          s1.overwritePacket k q2 ws f
        | none =>
          let (a, b) := splitEnd ws
          let (q1, bs) := q.discard q.held
          let (s1, q2) := s.giveBlocks { q1.discardNew a with lostPkt := sat32 (q1.lostPkt + 1) } bs
          s1.overwritePacket k q2 b f

/-- The push of ws as one operation under the queue's full mode: at most CAP words (R217). -/
def State.pushWhole (s : State) (k : Nat) (ws : List QWord) : PushRes × State :=
  let q := s.queue k
  match q.cfg.mode with
  | 0 =>
    match s.storeAll k q ws with
    | some (s', q') => (.accepted, s'.putQueue k q')
    | none => (.refused, s.refuse k q ws.length)
  | 1 =>
    match s.overwrite k q ws q.held with
    | some (s', q') => (.accepted, (s'.putQueue k q').reportLoss k q q')
    | none => (.refused, s.refuse k q ws.length)
  | _ =>
    match s.overwritePacket k q ws (q.held + ws.length + 2) with
    | some (s', q') => (.accepted, (s'.putQueue k q').reportLoss k q q')
    | none => (.refused, s.refuse k q ws.length)

/-- The push of group ws to queue k by a producer of origin o (R203, R217): a group larger than CAP goes word by word, and is
refused if any word of it is. While CORE stands still nothing moves and no queue takes a word (R224). -/
def State.push (s : State) (k : Nat) (ws : List QWord) (o : Origin := .device) : PushRes × State :=
  let u := s.used k
  let q := u.queue k
  if s.runs .core = false then (.refused, s)
  else if q.ex = false then
    (.absent, ((s.inc QF_CNT_ABSENT).on QF_EVT.ABSENT_PUSH).event Ev.QUEUE_ABSENT_PUSH [k] o)
  else if ws.isEmpty then (.accepted, s)
  else if q.cfg.cap < ws.length then
    ws.foldl (fun x w =>
      let (r, s') := x.2.pushWhole k [w]
      (if r = .accepted then x.1 else r, s')) (.accepted, u)
  else u.pushWhole k ws

/-- Whether queue k would take one more word without a refusal, a discard or a wait (R250). -/
def State.takesWord (s : State) (k : Nat) : Bool :=
  let s := s.used k
  let q := s.queue k
  q.ex && !q.discarding && decide (q.held < q.cfg.cap) && (s.roomFor k q).isSome

/-! ## Pops (R198, R202, R243) -/

/-- PF_MAX; values above 8 act as 8 (R262). -/
def State.pfMax (s : State) : Nat := min 8 (s.rd ED_CFG.PF_MAX)

/-- The queue edge memory that queue q holds: for the larger of its active and its pending EDGE (R221, R222). -/
def Queue.edgeHeld (q : Queue) : Nat :=
  if q.ex then edgeBytes (match q.edgePend with | some e => max e q.edge | none => q.edge) else 0

/-- Queue edge memory taken by queues, in bytes (R226). -/
def State.edgeUsed (s : State) : Nat := (s.queues.map (fun e => e.2.edgeHeld)).sum

/-- The prefetch buffers of the device (R244). -/
def State.bufferPool (s : State) : Nat := (8388608 - s.edgeUsed) / 4096

/-- The prefetch buffers in use. -/
def State.buffersUsed (s : State) : Nat := (s.queues.map (fun e => e.2.buffers)).sum

/-- The prefetch depth of queue q in force; a PF_MAX of 0 keeps it at 0 (R245). -/
def State.depth (s : State) (q : Queue) : Nat := if s.pfMax = 0 then 0 else q.depth

/-- Whether a prefetch buffer is free for queue q (R244): one of the pool, of which it holds at most 1 plus its depth. -/
def State.bufferFor (s : State) (q : Queue) : Bool :=
  decide (s.buffersUsed < s.bufferPool) && decide (q.buffers < 1 + s.depth q)

/-- Whether queue q is pinned (R237): the word at its read pointer lies in an eddy block, and neither a prefetch buffer is free for it nor a
place in its head. -/
def State.headStuck (s : State) (q : Queue) : Bool := q.demand.isSome && !s.bufferFor q && decide (edgeWords q.edge ≤ q.headTaken)

/-- Queue k becomes pinned, if it is and was not (R237, R263). -/
def State.pinIf (s : State) (k : Nat) : State :=
  let q := s.queue k
  if s.headStuck q && !q.pinned then (s.on ED_EVT.PINNED).setQueue k { q with pinned := true } else s

/-- What a pop or peek of queue k finds: a word, nothing ready, or a word not resident yet (R202, R236). -/
inductive Popped where
  | word (w : QWord) (cut : Bool)
  | empty
  | wait
  deriving DecidableEq, Repr

/-- A read that returns WAIT = 1 (R243): counted, and REFILL_WAIT written once for a demand read while newer words wait. -/
def State.waitRead (s : State) (k : Nat) : State :=
  let s := s.pinIf k
  let q := s.queue k
  let s := (s.inc ED_CNT_WAITRD).on ED_EVT.REFILL_WAIT
  if 0 < q.tail ∧ q.refillEv = false then
    (s.setQueue k { q with refillEv := true }).giveWay Ev.REFILL_WAIT 6 5 2 k
  else s

/-- Whether the word at the read pointer of q lies in an on-chip block. -/
def Queue.atPool (q : Queue) : Bool :=
  decide (q.head ≤ q.unrel) && (match blockAt q.chain (q.unrel - q.head) with
    | some (b, _) => decide (b.pool = .onChip)
    | none => false)

/-- Whether the word at the read pointer of q can be read now (R236, R260). -/
def State.readable (s : State) (q : Queue) : Bool := q.resident && !(q.atPool && s.poolAsleep)

/-- The word at the read pointer of queue k. -/
def State.look (s : State) (k : Nat) : Popped :=
  let q := s.queue k
  if q.ex = false ∨ q.ready = 0 then .empty
  else if s.readable q then .word ((q.words.drop q.unrel).headD { data := 0 }) q.cut
  else .wait

/-- The pop of queue k by a consumer (R198, R251). -/
def State.pop (s : State) (k : Nat) : Popped × State :=
  let s := s.used k
  match s.look k with
  | .empty => (.empty, s)
  | .wait => (.wait, s.waitRead k)
  | .word _ _ =>
    let s := s.readHurt k (s.queue k).rd
    let (w, c, q, bs) := (s.queue k).pop s.pfMax s.now
    (.word w c, s.putQueue k q bs)

/-- Up to n pops of queue k, ending after an END word: the words popped, oldest first. -/
def State.popGroup (s : State) (k : Nat) : Nat → List QWord × State
  | 0 => ([], s)
  | n + 1 =>
    match s.pop k with
    | (.word w _, s') => if w.fin then ([w], s') else (w :: (s'.popGroup k n).1, (s'.popGroup k n).2)
    | (_, s') => ([], s')

/-! ## The log as a queue (R548) -/

/-- The log's queue, with the AUTO_REL of EL_CFG and the capacity in force: 0 explicit, anything else per packet (R547). -/
def State.logQueue (s : State) : Queue :=
  { s.log.q with
    ex := true
    cfg := { w0 := if s.rd EL_CFG.AUTO_REL = 0 then 1 else 9, w1 := BitVec.ofNat 32 (s.logCap * 8) } }

/-- The state with q as the log's queue. -/
def State.setLogQueue (s : State) (q : Queue) : State := { s with log := { s.log with q := q } }

/-- The queue that r names. -/
def State.qref (s : State) : QRef → Queue
  | .num k => s.queue k.toNat
  | .log => s.logQueue

/-- The state with q as the queue r names, after an operation that freed the blocks bs. -/
def State.putRef (s : State) (r : QRef) (q : Queue) (bs : List Block := []) : State :=
  match r with
  | .num k => s.putQueue k.toNat q bs
  | .log => s.setLogQueue q

/-! ## Windows -/

/-- The value that a read of a part of a 64-bit window register returns (R201), where the register now has value v: a read of the whole or
of the lower word captures the master's snapshot, and the upper word reads it. -/
def State.windowPart (s : State) (m : Master) (p : ReadPart) (v : Word64) : Word64 × State :=
  let t := { s with windowSnaps := tabPut (fun _ => 0) s.windowSnaps m.num v }
  match p with
  | .whole => (v, t)
  | .lower => (v &&& 0xFFFFFFFF, t)
  | .upper => (tabGet (fun _ => 0) s.windowSnaps m.num >>> 32, s)

/-- A pop through a window (R198, R202, R224): while CORE is becalmed it returns VALID = 0 and WAIT = 1. -/
def State.popValue (s : State) (q : QRef) : Word64 × State :=
  if s.runs .core = false then (noWord true, s)
  else match q with
    | .num k =>
      match s.pop k.toNat with
      | (.word w c, s') => (popWord w c, s')
      | (.empty, s') => (noWord false, s')
      | (.wait, s') => (noWord true, s')
    | .log =>
      if s.logQueue.ready = 0 then (noWord false, s)
      else
        let (w, c, l, _) := s.logQueue.pop 0 s.now
        (popWord w c, s.setLogQueue l)

/-- A peek through a window (R200, R202): the word at the read pointer, not popped. -/
def State.peekValue (s : State) (q : QRef) : Word64 × State :=
  if s.runs .core = false then (noWord true, s)
  else match q with
    | .num k =>
      let s := s.used k.toNat
      let s := if (s.look k.toNat) = .wait then s else s.readHurt k.toNat (s.queue k.toNat).rd
      match s.look k.toNat with
      | .word w c => (popWord w c, s)
      | .empty => (noWord false, s)
      | .wait => (noWord true, s.waitRead k.toNat)
    | .log =>
      let l := s.logQueue
      if l.ready = 0 then (noWord false, s) else (popWord ((l.words.drop l.unrel).headD { data := 0 }) l.cut, s)

/-- The queue that r names is used: its control record's copies are compared (R251). -/
def State.usedRef (s : State) : QRef → State
  | .num k => s.used k.toNat
  | .log => s

/-- STAT and LOST through a window (R204, R205); a read of the log's LOST ends what GAP has to show (R548). -/
def State.statValue (s : State) (q : QRef) : Word64 × State :=
  if s.runs .core = false then (0, s) else (((s.usedRef q).qref q).stat, s.usedRef q)
def State.lostValue (s : State) (q : QRef) : Word64 × State :=
  if s.runs .core = false then (0, s)
  else ((s.qref q).lostWord, if q = .log then { s with log := { s.log with discards := false, gapShown := false } } else s)

/-- A read of part p of a window register by master m, whose value and effect f gives: a read of the upper word has no effect (R201). -/
def State.windowRead (s : State) (m : Master) (p : ReadPart) (f : State → Word64 × State) : Word64 × State :=
  if p = .upper then s.windowPart m p 0 else (f s).2.windowPart m p (f s).1

/-- The answer of a window read. -/
def State.windowAnswer (s : State) (m : Master) (p : ReadPart) (f : State → Word64 × State) : State :=
  let r := s.windowRead m p f
  r.2.emit (.answer m r.1)

/-- QUEUE_POP (R198, R201, R202, R224). -/
def execQueuePop (m : Master) (q : QRef) (p : ReadPart) (s : State) : Res := .next (s.windowAnswer m p (fun s => s.popValue q))

/-- QUEUE_PEEK (R200, R202). -/
def execQueuePeek (m : Master) (q : QRef) (p : ReadPart) (s : State) : Res := .next (s.windowAnswer m p (fun s => s.peekValue q))

/-- QUEUE_STAT_READ (R204). -/
def execQueueStatRead (m : Master) (q : QRef) (p : ReadPart) (s : State) : Res := .next (s.windowAnswer m p (fun s => s.statValue q))

/-- QUEUE_LOST_READ (R205). -/
def execQueueLostRead (m : Master) (q : QRef) (p : ReadPart) (s : State) : Res := .next (s.windowAnswer m p (fun s => s.lostValue q))

/-- The word that a write to PUSH pushes (R199). -/
def pushWord : PushVal → QWord
  | .whole v => { data := v.truncate 32, fin := v.getLsbD 32, err := v.getLsbD 33 }
  | .lower v => { data := v }
  | .upper v => { data := v, fin := true }

/-- A push through a window: a write to the log's PUSH is ignored (R548); while CORE is becalmed it waits in the endpoint. -/
def State.windowPush (s : State) (m : Master) (q : QRef) (w : QWord) : State :=
  if s.runs .core = false then { s with endpoint := s.endpoint ++ [.push m q w] }
  else match q with
    | .num k => (s.push k.toNat [w] m.origin).2
    | .log => s

/-- QUEUE_PUSH (R199). -/
def execQueuePush (m : Master) (q : QRef) (v : PushVal) (s : State) : Res := .next (s.windowPush m q (pushWord v))

/-- QUEUE_GROUP_PUSH (R217): up to 16 words of an internal producer as one operation. While CORE stands still nothing moves. -/
def execQueueGroupPush (q : BitVec 16) (ws : List QWord) (s : State) : Res :=
  if s.runs .core = false then .next s else .next (s.push q.toNat (ws.take 16)).2

/-- An aligned 8-byte read of the window register at offset 8 × i (R200): PUSH, CMD and unassigned offsets read 0. -/
def State.windowOffset (s : State) (m : Master) (q : QRef) (i : Nat) : State :=
  match i with
  | 1 => s.windowAnswer m .whole (fun s => s.popValue q)
  | 2 => s.windowAnswer m .whole (fun s => s.peekValue q)
  | 3 => s.windowAnswer m .whole (fun s => s.statValue q)
  | 5 => s.windowAnswer m .whole (fun s => s.lostValue q)
  | _ => s.emit (.answer m 0)

/-- The window i windows behind that of r: those of Q0 to Q65535 follow one another (R200); the log has one. -/
def windowAfter (r : QRef) (i : Nat) : Option QRef :=
  match r with
  | .num k => if k.toNat + i < 65536 then some (.num (BitVec.ofNat 16 (k.toNat + i))) else none
  | .log => if i = 0 then some .log else none

/-- BAD_ACCESS (R200): a window access of a wrong width or alignment does nothing but count, and a read of that kind returns 0; a
read of an offset without a value returns 0, and a write to one without an effect is ignored; a read request over several offsets is
one access per offset, in ascending order. -/
def execBadAccess (m : Master) (x : WindowAccess) (s : State) : Res :=
  match x.how with
  | .badRead => .next (((s.inc QF_CNT_BADACC).on QF_EVT.BAD_ACCESS).emit (.answer m 0))
  | .badWrite => .next ((s.inc QF_CNT_BADACC).on QF_EVT.BAD_ACCESS)
  | .zeroRead => .next (s.emit (.answer m 0))
  | .deadWrite => .next s
  | .span first n =>
    .next ((List.range n.toNat).foldl (fun s j =>
      match windowAfter x.q ((first.val + j) / 8) with
      | some r => s.windowOffset m r ((first.val + j) % 8)
      | none => s) s)

/-! ## CMD (R208) -/

/-- RESET of queue k (R220), by origin o: every word is discarded and counted, and its blocks go back. -/
def State.resetQueue (s : State) (k : Nat) (o : Origin) : State :=
  let q := s.queue k
  let (n, p, q') := q.wipe
  (s.putQueue k q' q.chain).event Ev.QUEUE_RESET [n, p] o

/-- RESET of the log (R548): every record is discarded, which is a loss; LOG_RESET is the first after it. -/
def State.resetLog (s : State) (o : Origin) : State :=
  let (n, _, q') := s.logQueue.wipe
  let s := s.setLogQueue q'
  let s := { s with log := { s.log with discards := s.log.discards || n != 0 } }
  (s.on EL_EVT.RESET).event Ev.LOG_RESET [n] o

/-- The release that a queue's mode makes, with the blocks it frees. -/
def State.autoRef (s : State) (r : QRef) (q : Queue) : State :=
  let (q', bs) := q.autoRelease
  s.putRef r q' bs

/-- CMD operation op with its COUNT on the queue r names, by master m (R208); an absent queue ignores it (R203). -/
def State.queueCmd (s : State) (m : Master) (r : QRef) (op count : Nat) : State :=
  let s := s.usedRef r
  let q := s.qref r
  if q.ex = false then s
  else match op with
    | 0 => s
    | 1 => s.putRef r { q with mark := some q.rd }
    | 2 => s.autoRef r { q with mark := none }
    | 3 => s.putRef r q.rewind
    | 4 =>
      let want := if count = 0 then q.unrel else if r = .log then count / 8 * 8 else count
      let s := if q.unrel < want then s.on QF_EVT.REL_CLIP else s
      let (q', bs) := q.release (if r = .log then min want (q.unrel / 8 * 8) else want)
      s.putRef r q' bs
    | 5 =>
      let (q', bs) := q.release (throughLastEnd (q.words.take q.unrel))
      s.putRef r q' bs
    | 6 =>
      match r with
      | .num k => s.resetQueue k.toNat m.origin
      | .log => s.resetLog m.origin
    | 7 => s.putRef r { q with overrun := false }
    | 8 =>
      match r with
      | .num k =>
        (s.setQueue k.toNat { q with lost := 0, lostPkt := 0, lossTold := false }).event Ev.QUEUE_LOST_CLR [q.lost, q.lostPkt] m.origin
      | .log =>
        ({ s with log := { s.log with q := { s.log.q with lost := 0, lostPkt := 0 }, discards := false, gapShown := false } }
          ).event Ev.LOG_LOST_CLR [q.lost, q.lostPkt] m.origin
    | _ => s.on QF_EVT.BAD_CMD

/-- A write of CMD's lower word (R201, R208): its COUNT is the one written, or the upper word held for the master, which it uses
up. While CORE is becalmed the command waits in the endpoint (R224). -/
def State.windowCmd (s : State) (m : Master) (r : QRef) (op : Nat) (c : CmdCount) : State :=
  let (n, s) := match c with
    | .whole v => (v.toNat, s)
    | .held =>
      ((tabGet (fun _ => 0) s.cmdHeld m.num).toNat, { s with cmdHeld := tabPut (fun _ => (0 : Word)) s.cmdHeld m.num 0 })
  if s.runs .core then s.queueCmd m r op n else { s with endpoint := s.endpoint ++ [.cmd m r op n] }

/-- The writes that waited in the endpoint are applied in order (R224). -/
def State.flushEndpoint (s : State) : State :=
  s.endpoint.foldl (fun s w => match w with
    | .push m q x => s.windowPush m q x
    | .cmd m q op n => s.queueCmd m q op n) { s with endpoint := [] }

/-- NOP (R208). -/
def execNop (m : Master) (q : QRef) (c : CmdCount) (s : State) : Res := .next (s.windowCmd m q 0 c)
/-- MARK (R208). -/
def execMark (m : Master) (q : QRef) (c : CmdCount) (s : State) : Res := .next (s.windowCmd m q 1 c)
/-- UNMARK (R208). -/
def execUnmark (m : Master) (q : QRef) (c : CmdCount) (s : State) : Res := .next (s.windowCmd m q 2 c)
/-- REWIND (R208). -/
def execRewind (m : Master) (q : QRef) (c : CmdCount) (s : State) : Res := .next (s.windowCmd m q 3 c)
/-- RELEASE (R208). -/
def execRelease (m : Master) (q : QRef) (c : CmdCount) (s : State) : Res := .next (s.windowCmd m q 4 c)
/-- RELEASE_PKT (R208). -/
def execReleasePkt (m : Master) (q : QRef) (c : CmdCount) (s : State) : Res := .next (s.windowCmd m q 5 c)
/-- QUEUE_RESET (R220). -/
def execQueueReset (m : Master) (q : QRef) (c : CmdCount) (s : State) : Res := .next (s.windowCmd m q 6 c)
/-- CLR_OVERRUN (R208). -/
def execClrOverrun (m : Master) (q : QRef) (c : CmdCount) (s : State) : Res := .next (s.windowCmd m q 7 c)
/-- CLR_LOST (R208). -/
def execClrLost (m : Master) (q : QRef) (c : CmdCount) (s : State) : Res := .next (s.windowCmd m q 8 c)
/-- BAD_CMD (R208): an undefined operation sets BAD_CMD and does nothing else. -/
def execBadCmd (m : Master) (q : QRef) (c : CmdCount) (s : State) : Res := .next (s.windowCmd m q 9 c)

/-! ## Creating and changing queues (R221, R222) -/

/-- The staged words of an origin before it has staged anything: the reset values of QF_QSEL and QF_QCFG0 to QF_QCFG4 (R229). -/
def stagedDefault (k : Nat) : Word := match k % 8 with | 1 => 0x20 | 2 => 0x400 | _ => 0

/-- Staged word k of origin o: 0 is QF_QSEL, 1 to 5 are QF_QCFG0 to QF_QCFG4. -/
def State.stage (s : State) (o : Origin) (k : Nat) : Word := tabGet stagedDefault s.staged (o.num * 8 + k)

/-- The state with v staged as word k of origin o. -/
def State.setStage (s : State) (o : Origin) (k : Nat) (v : Word) : State :=
  { s with staged := tabPut stagedDefault s.staged (o.num * 8 + k) v }

/-- The configuration that origin o has staged. -/
def State.stagedCfg (s : State) (o : Origin) : QCfg :=
  { w0 := s.stage o 1, w1 := s.stage o 2, w2 := s.stage o 3, w3 := s.stage o 4, w4 := s.stage o 5 }

/-- The largest EDGE code of at most e, and at least lo, whose edges fit in room bytes (R221). -/
def fitEdge (room lo : Nat) : Nat → Option Nat
  | 0 => if edgeBytes 0 ≤ room then some 0 else none
  | e + 1 =>
    if edgeBytes (e + 1) ≤ room then some (e + 1)
    else if e + 1 ≤ lo then none else fitEdge room lo e

/-- The reservation that queue q, number n, gets for RES_BLOCKS (R239), reported where it falls short. -/
def State.grantTo (s : State) (n : Nat) (q : Queue) (o : Origin) : State × Queue :=
  match s.home q with
  | none => (s, { q with grant := 0 })
  | some k =>
    let g := min q.cfg.resBlocks (q.blocks k + ((s.ledger.pool k).free - s.reservedFor k n))
    let s := if g < q.cfg.resBlocks then (s.on ED_EVT.RES_CUT).event Ev.QUEUE_RESERVE_CUT [n, g] o else s
    (s, { q with grant := g })

/-- A forwarder to the queue itself on this device pops nothing; it is checked at each CREATE and MODIFY (R331). -/
def State.selfCheck (s : State) (n : Nat) (q : Queue) (o : Origin) : State × Queue :=
  let self := q.cfg.fwdEn && q.cfg.fwdDev == s.devField && q.cfg.fwdQid == n
  let s := if self then (s.on CH_EVT.FWD_PAUSE).event Ev.FWD_PAUSE [n, 4] o else s
  (s, { q with fwd := { q.fwd with selfLoop := self, paused := false } })

/-- The change of queue n to configuration c (R222): MODE and CAP from the next push, AUTO_REL with its release at once, EDGE when
HELD is 0, the prefetcher cold after a change of EDGE or SPILL. -/
def State.modifyQueue (s : State) (n : Nat) (c : QCfg) (o : Origin) : State :=
  let s := s.used n
  let was := s
  let q := s.queue n
  let room := 8388608 - (s.edgeUsed - q.edgeHeld)
  let want := c.edge
  let e := if want ≤ q.edge then want else (fitEdge room q.edge want).getD q.edge
  let s := if e < want then s.on QF_EVT.EDGE_REDUCED else s
  let cold := decide (e ≠ q.edge) || decide (c.spill ≠ q.cfg.spill)
  let q1 := { q with cfg := c, edgePend := if e = q.edge then none else some e }
  let q2 := if cold then { q1 with depth := 0, warming := true, samples := [] } else q1
  let (s, q3) := s.grantTo n q2 o
  let (s, q4) := s.selfCheck n q3 o
  let (q5, bs) := q4.autoRelease
  (s.putQueue n q5.applyEdge bs).poolWatch was

/-- What a queue number keeps while its queue does not exist: its generation (R252), and what LOST and LOST_PKT have counted, which a
DELETE does not clear (R205). -/
def Queue.afterlife (q : Queue) : Queue :=
  { Queue.absent with gen := q.gen, lost := q.lost, lostPkt := q.lostPkt, lossTold := q.lossTold }

/-- The creation of queue n with configuration c (R221): its edges halve until they fit, or it is not created. -/
def State.createQueue (s : State) (n : Nat) (c : QCfg) (o : Origin) : State :=
  let old := s.queue n
  match fitEdge (8388608 - s.edgeUsed) 0 c.edge with
  | none => (s.on QF_EVT.NOROOM).event Ev.QUEUE_NOROOM [n] o
  | some e =>
    let s := if e < c.edge then s.on QF_EVT.EDGE_REDUCED else s
    let was := s
    let q : Queue := { old.afterlife with ex := true, cfg := c, edge := e }
    let (s, q) := s.grantTo n q o
    let (s, q) := s.selfCheck n q o
    (s.putQueue n q).poolWatch was

/-- CREATE or MODIFY of queue n: an existing queue is modified; a CREATE whose generation collides with blocks
that await reclaim waits for the sweep (R252). -/
def State.applyQueue (s : State) (n : Nat) (c : QCfg) (o : Origin) : State :=
  if (s.queue n).ex then s.modifyQueue n c o
  else if s.ledger.awaits n (s.queue n).gen then
    { s with ledger := { s.ledger with createWait := s.ledger.createWait ++ [(n, c, o)] } }
  else s.createQueue n c o

/-- The record of a change of queue n: the queue with the operation, and QCFG0 to QCFG2 (R30, R225, log entry 9). -/
def State.queueChange (s : State) (n op : Nat) (c : QCfg) (o : Origin) : State :=
  s.event Ev.QUEUE_CHANGE [n + op * 0x10000, c.w0.toNat, c.w1.toNat, c.w2.toNat] o

/-- Whether the fabric's control block exists and runs (R22, R224). -/
def State.fabricUp (s : State) : Bool := s.committed && s.runs .core

/-- A write of op to QF_QCMD by origin o (R222): on the record (R225), and then what f makes of the queue selected; during a reload of QUEUES it
waits (R32). -/
def State.qcmd (s : State) (o : Origin) (op : Nat) (f : State → Nat → State) : State :=
  if s.fabricUp = false then s
  else if s.reloading QF_QCMD then s.lateWrite o QF_QCMD (BitVec.ofNat 32 op)
  else f (s.configWrite o QF_QCMD (BitVec.ofNat 32 op) 0) ((s.stage o 0).toNat % 0x10000)

/-- CREATE (R222). -/
def execCreate (o : Origin) (s : State) : Res :=
  .next (s.qcmd o 1 (fun s n => (s.applyQueue n (s.stagedCfg o) o).queueChange n 1 (s.stagedCfg o) o))

/-- MODIFY (R222): of an absent queue it does nothing and sets BAD_CMD. -/
def execModify (o : Origin) (s : State) : Res :=
  .next (s.qcmd o 2 (fun s n =>
    if (s.queue n).ex then (s.modifyQueue n (s.stagedCfg o) o).queueChange n 2 (s.stagedCfg o) o else s.on QF_EVT.BAD_CMD))

/-- Whether a binding register of port p names queue n (R85). -/
def State.bindsQueue (s : State) (p n : Nat) : Bool :=
  ([SP_QRX p, SP_QSTAMP_RX p, SP_QSTAMP_TX p] ++ (List.range 4).map (fun k => SP_QTX p k)).any
    (fun a => decide ((s.reg a).toNat = 0x80000000 + n))

/-- The walk along the chain bs that a DELETE makes (R252): the blocks it reaches, and those behind a link that disagrees. -/
def chainWalk : List Block → List Block × List Block
  | [] => ([], [])
  | b :: bs => if b.torn then ([b], bs) else (b :: (chainWalk bs).1, (chainWalk bs).2)

/-- The deletion of queue n (R205, R222, R252): its words are discarded and counted, the blocks that a walk along its chain reaches go back and
the others to RECLAIM, its generation rises, and it is absent. -/
def State.deleteQueue (s : State) (n : Nat) (o : Origin) : State :=
  let s := s.used n
  let q := s.queue n
  let s := (List.range 16).foldl (fun s p => if s.bindsQueue p n then s.on (SP_TEVT.ABSENT_Q p) else s) s
  let w := chainWalk q.chain
  let (s1, _) := s.giveBlocks q w.1
  let left (k : PoolKind) : Nat := (w.2.filter (fun b => decide (b.pool = k))).length
  let s1 := { s1 with ledger := s1.ledger.reclaimFrom n q.gen (left .eddy) (w.2.filter Block.ch).length (left .onChip) }
  let gone := { q.wipe.2.2.afterlife with gen := (q.gen + 1) % 0x10000 }
  let s2 := (((s1.setQueue n gone).incBy QF_CNT_DELWORDS q.held).updateFlows n).refreshFull
  s2.event Ev.QUEUE_DELETED [q.held] o

/-- DELETE (R222). -/
def execDelete (o : Origin) (s : State) : Res :=
  .next (s.qcmd o 3 (fun s n => if (s.queue n).ex then s.deleteQueue n o else s.on QF_EVT.BAD_CMD))

/-- The live QF_QCFG0 of queue q: its EDGE is the active one (R222, R229). -/
def Queue.liveCfg0 (q : Queue) : Word := BitVec.ofNat 32 (q.cfg.w0.toNat / 128 * 128 + q.edge * 16 + q.cfg.w0.toNat % 16)

/-- READ (R222): the live configuration into the origin's staged copies; nothing for an absent queue. -/
def execRead (o : Origin) (s : State) : Res :=
  .next (s.qcmd o 4 (fun s n =>
    let q := s.queue n
    if q.ex then
      ((((s.setStage o 1 q.liveCfg0).setStage o 2 q.cfg.w1).setStage o 3 q.cfg.w2).setStage o 4 q.cfg.w3).setStage o 5 q.cfg.w4
    else s.on QF_EVT.BAD_CMD))

/-- The queue information registers with the counts of queue q (R230); an absent queue captures 0. -/
def State.captureInfo (s : State) (q : Queue) : State :=
  let x (n : Nat) : Nat := if q.ex then n else 0
  let s := s.setPair QI_HELD_LO QI_HELD_HI (x q.held)
  let s := s.setPair QI_READY_LO QI_READY_HI (x q.ready)
  let s := s.setPair QI_UNREL_LO QI_UNREL_HI (x q.unrel)
  let s := s.setPair QI_PKTS_LO QI_PKTS_HI (x q.pkts)
  let s := s.setPair QI_PUSHED_LO QI_PUSHED_HI (x q.pushed)
  let s := s.setPair QI_POPPED_LO QI_POPPED_HI (x q.popped)
  let s := s.setPair QI_HWM_LO QI_HWM_HI (x q.hwm)
  let s := s.setReg QI_REFUSED (BitVec.ofNat 32 (x q.refused))
  let s := s.setReg QI_LOST (BitVec.ofNat 32 (x q.lost))
  let s := s.setReg QI_LOST_PKT (BitVec.ofNat 32 (x q.lostPkt))
  let s := s.setReg QI_FAULTS (BitVec.ofNat 32 (x q.faults))
  let s := s.setReg QI_BLOCKS (BitVec.ofNat 32 (x q.chain.length))
  let wait := decide (0 < q.ready) && !s.readable q
  s.setReg QI_FLAGS (BitVec.ofNat 32 (x (q.flags + 128 + wait.toNat * 0x100 + q.poolFull.toNat * 0x200
    + q.edgePend.isSome.toNat * 0x400 + q.edge * 0x800)))

/-- SNAP (R222, R230). -/
def execSnap (o : Origin) (s : State) : Res := .next (s.qcmd o 5 (fun s n => (s.used n).captureInfo ((s.used n).queue n)))

/-- QCMD_IGNORED (R225, R228): an undefined operation of QF_QCMD; the write is on the record. -/
def execQcmdIgnored (o : Origin) (op : BitVec 3) (s : State) : Res := .next (s.qcmd o op.toNat (fun s _ => s.on QF_EVT.BAD_CMD))

/-! ## The scrubber (R251) -/

/-- Whether the two copies of queue q's control record, or of a link of its chain, disagree (R251). -/
def Queue.anyTorn (q : Queue) : Bool := q.torn || q.chain.any (·.torn)

/-- The state once the copies that u names have come to disagree. -/
def State.upset (s : State) (u : Upset) : State :=
  let k := u.queue.toNat
  let q := s.queue k
  if q.ex = false then s
  else s.setQueue k (match u.link with
    | none => { q with torn := true }
    | some i => { q with chain := q.chain.modify i (fun b => { b with torn := true }) })

/-- POINTER_SCRUB (R251): the scrubber compares both copies of every control record and of every link, and resets the queues with one
that disagrees (R252). The upsets given have come before it passed; a late one comes behind it and waits for a use, or for the next
scrub. -/
def execPointerScrub (upsets : List Upset) (s : State) : Res :=
  if s.runs .core = false then .next s
  else
    let early := (upsets.filter (fun u => !u.late)).foldl State.upset s
    let s := early.queues.foldl (fun s e => if (s.queue e.1).anyTorn then s.queueFault e.1 else s) early
    .next ((upsets.filter (·.late)).foldl State.upset s.refreshFull)

end Sys2Proof.Machine
end

