-- ==== Sys2Proof/Machine/Eddy.lean ====
section
/-!
DEFINITION. The eddy store (R233 to R250): spill bursts, demand and prefetch refills, the total capacity of a queue, the sweep
and the recount of the pools (R257), the ledger's snapshot, bounced transfers (R260) and the snapshot of a queue.
-/
namespace Sys2Proof.Machine

/-! ## DRAM and its PLL (R568, R574, R656) -/

/-- The states of a channel (R664). -/
def ddrOff : Nat := 0
def ddrInitState : Nat := 1
def ddrTraining : Nat := 2
def ddrReady : Nat := 4
def ddrSelfRefresh : Nat := 5
def ddrFailed : Nat := 6

/-- DRAM enters self-refresh (R656): every channel that is READY. -/
def State.ddrSleep (s : State) : State :=
  (List.range 2).foldl (fun s c => if s.rd (DDR_STAT.STATE c) = ddrReady then s.wr (DDR_STAT.STATE c) ddrSelfRefresh else s) s

/-- DRAM leaves self-refresh when its case ends (R656). -/
def State.ddrAwake (s : State) : State :=
  (List.range 2).foldl (fun s c => if s.rd (DDR_STAT.STATE c) = ddrSelfRefresh then s.wr (DDR_STAT.STATE c) ddrReady else s) s

/-- Whether b takes part in a transfer in flight. -/
def Block.moving (b : Block) : Bool :=
  decide (0 < b.flight) || (match b.buf with | .reading _ _ _ _ => true | _ => false)

/-- Whether an eddy transfer is in flight (R258, R606). -/
def State.eddyBusy (s : State) : Bool := s.queues.any (fun e => e.2.chain.any Block.moving)

/-- A stop or a new rate of the DPLL that waits takes place once no eddy transfer is in flight (R568, R574): DRAM enters self-refresh, and
the DPLL is off or acquires anew. -/
def State.dpllSettle (s : State) : State :=
  if s.clk.dpllStop && !s.eddyBusy then
    let s := s.ddrSleep
    let on := s.bit CK_CFG.DPLL_EN
    let s := s.setReg (CK_PLL 4) (if on then 1 else 0)
    ({ s with
      clk := { s.clk with dpllStop := false, gatedAt := tabPut (fun _ => 0) s.clk.gatedAt 4 0 }
      stopped := { s.stopped with pll := s.stopped.pll.filter (fun d => d != Domain.ddr) ++ [.ddr] } } : State).refreshFull
  else s

/-! ## Turns (R247) -/

/-- Whether a demand read of queue q can begin (R242): the word at its read pointer asks for one, and a prefetch buffer or its head has
room for it. -/
def State.demandReady (s : State) (q : Queue) : Bool := q.ex && q.demand.isSome && !s.headStuck q

/-- Whether a prefetch read of queue q can begin (R242, R244). -/
def State.prefetchReady (s : State) (q : Queue) : Bool := q.ex && s.bufferFor q && (q.prefetchNext (s.depth q)).isSome

/-- Whether a burst of queue q, number n, into an eddy block can begin (R235 rule 3). -/
def State.spillReady (s : State) (n : Nat) (q : Queue) : Bool :=
  let q := q.settle
  q.ex && decide (16 ≤ q.tail) && (match s.moveBurst n q with
    | some (_, q') => (match q'.chain.getLast? with | some b => decide (b.pool = .eddy) | none => false)
    | none => false)

/-- The list of refills (R247): the queues that can begin a demand read, or, where there is none, a prefetch read (true). -/
def State.refillList (s : State) : List Nat × Bool :=
  let d := (s.queues.filter (fun e => s.demandReady e.2)).map Prod.fst
  if d.isEmpty then ((s.queues.filter (fun e => s.prefetchReady e.2)).map Prod.fst, true) else (d, false)

/-- The list of spills (R247). -/
def State.spillList (s : State) : List Nat := (s.queues.filter (fun e => s.spillReady e.1 e.2)).map Prod.fst

/-- The queue of a list whose turn follows that of the queue last served, in ascending order and round again (R247). -/
def turnAfter (last : Option Nat) (l : List Nat) : Option Nat :=
  match last with
  | some n => (l.find? (fun k => decide (n < k))).or l.head?
  | none => l.head?

/-- The refill whose turn it is, and whether it is a prefetch: none while the list of spills has the turn (R247). -/
def State.refillTurn (s : State) : Option (Nat × Bool) :=
  if s.eddyStarts = false ∨ (s.ledger.lastList = some false ∧ s.spillList ≠ []) then none
  else (turnAfter s.ledger.lastRefill s.refillList.1).map (fun k => (k, s.refillList.2))

/-- The queue whose burst into an eddy block has the turn: none while the list of refills has it (R247). -/
def State.spillTurn (s : State) : Option Nat :=
  if s.eddyStarts = false ∨ (s.ledger.lastList = some true ∧ s.refillList.1 ≠ []) then none
  else turnAfter s.ledger.lastSpill s.spillList

/-! ## Spill (R235) -/

/-- SPILL_BURST (R235 rule 3, R247): 16 words of queue n's tail move into its open block, which takes a block where it is full or
absent; none moves where the tail holds fewer, or where the burst goes to an eddy block out of its turn. -/
def execSpillBurst (n : BitVec 16) (s : State) : Res :=
  let k := n.toNat
  if s.runs .core = false then .next s
  else
    let s := s.used k
    let q := (s.queue k).settle
    if q.ex = false ∨ q.tail < 16 then .next s
    else match s.moveBurst k q with
      | none => .next (s.putQueue k q)
      | some (s', q') =>
        if s.spillReady k q = false then .next (s'.putQueue k q')
        else if s.spillTurn = some k then
          .next ({ s' with ledger := { s'.ledger with lastSpill := some k, lastList := some true } }.putQueue k q')
        else .next s

/-- The oldest burst on its way lands in its block. -/
def landBurst : List Block → Option (List Block)
  | [] => none
  | b :: bs =>
    if 0 < b.flight then some ({ b with fill := b.fill + 16, flight := b.flight - 16 } :: bs)
    else (landBurst bs).map (fun r => b :: r)

/-- Whether every word of block b has been released, and no burst is on its way into it. -/
def Block.spent (b : Block) : Bool := decide (b.held = 0) && decide (b.flight = 0)

/-- SPILL_DONE: the oldest burst of queue n on its way to an eddy block is in it. A block whose words have all been released meanwhile
is free (R237). -/
def execSpillDone (n : BitVec 16) (s : State) : Res :=
  let k := n.toNat
  let q := s.queue k
  if s.eddyRuns then
    .next (match landBurst q.chain with
      | some c =>
        let gone := c.filter Block.spent
        ((s.inc ED_CNT_SPILL).putQueue k { q with
            chain := c.filter (fun b => !b.spent), torn := q.torn || gone.any (·.torn) } gone).dpllSettle
      | none => s)
  else .next s

/-! ## Refill and prefetch (R242 to R246) -/

/-- Queue q with a read of its block i begun at time t. -/
def Queue.startRead (q : Queue) (i t : Nat) (prefetch inHead : Bool) : Queue :=
  { q with chain := q.chain.modify i (fun b =>
      match b.buf with
      | .here req first _ _ h => { b with buf := .reading req (some first) prefetch h }
      | _ => { b with buf := .reading t none prefetch inHead }) }

/-- REFILL_READ (R242, R244, R247): a demand read of the block at queue n's read pointer, or a prefetch read behind it, in its turn. It
lands in a free prefetch buffer; without one a demand read lands in the head, and where the head has no room either the queue is
pinned (R237). The links on the way to the block are compared (R251). -/
def execRefillRead (n : BitVec 16) (prefetch : Bool) (s : State) : Res :=
  let k := n.toNat
  if s.eddyStarts = false then .next s
  else
    let s := s.used k
    let q := s.queue k
    let buf := s.bufferFor q
    if prefetch = false ∧ s.headStuck q then .next (s.pinIf k)
    else if s.refillTurn ≠ some (k, prefetch) then .next s
    else match (if prefetch then q.prefetchNext (s.depth q) else q.demand) with
      | none => .next s
      | some i =>
        if (q.chain.take i).any (·.torn) then .next (s.queueFault k).refreshFull
        else
          let s := if prefetch then s.inc ED_CNT_PREFETCH else s
          let s := { s with ledger := { s.ledger with lastRefill := some k, lastList := some false } }
          .next (s.setQueue k (q.startRead i s.now prefetch (!buf)))

/-- The first block of a chain that is being read, with the position behind the head of its first unreleased word and its
place. -/
def readingAt : List Block → Nat → Nat → Option (Block × Nat × Nat)
  | [], _, _ => none
  | b :: bs, pos, i =>
    match b.buf with
    | .reading _ _ _ _ => some (b, pos, i)
    | _ => readingAt bs (pos + b.held) (i + 1)

/-- Word j of the held words marked with ERR, its data free (R253, log entry 4). -/
def State.spoilWord (s : State) (k j : Nat) : State :=
  (s.markErr k j).inc ED_CNT_ECCW

/-- REFILL_DONE (R242, R253): the oldest read of queue n is on chip, the whole block in its buffer, or as many of its words in the
head as that has room for. A word with an uncorrectable error is delivered in its place with ERR set. -/
def execRefillDone (n : BitVec 16) (bad : List (Fin 1024)) (s : State) : Res :=
  let k := n.toNat
  let q := s.queue k
  if s.eddyRuns = false then .next s
  else match readingAt q.chain q.head 0 with
    | none => .next s
    | some (b, pos, i) =>
      match b.buf with
      | .reading req first prefetch inHead =>
        let at_ := max b.rel (b.rel + q.unrel - pos)
        let hi := if inHead then min b.fill (at_ + (edgeWords q.edge - q.head)) else b.fill
        let hit := bad.filter (fun j => decide (b.rel ≤ j.val) && decide (j.val < hi))
        let b' : Block := { b with buf := .here req (first.getD s.now) s.now hi inHead }
        let q' := { q with chain := q.chain.set i b', refillEv := q.refillEv && prefetch, pinned := false }
        let s1 := (if first.isNone then s.inc ED_CNT_REFILL else s).setQueue k q'
        let s2 := hit.foldl (fun s j => s.spoilWord k (pos + j.val - b.rel)) s1
        let s3 := if hit.isEmpty then s2 else
          ((s2.on ED_EVT.ECC_DATA).usedFree).dramFatal b.ch.toNat (s2.freeVal 38).toNat 0
        let here := (q.hurt.filter (fun x => 2 ≤ x.2.1 && q.rl + pos ≤ x.1 && x.1 < q.rl + pos + (hi - b.rel))).map (·.1)
        .next ((here.foldl (fun s p => s.readHurt k p) s3).updateFlows k).dpllSettle
      | _ => .next s

/-! ## Total capacity and the snapshot of a queue (R249, R264) -/

/-- The grants that queues other than n hold in pool k. -/
def State.grantsOf (s : State) (k : PoolKind) (n : Nat) : Nat :=
  (s.queues.map (fun e => if e.1 ≠ n ∧ e.2.ex = true ∧ s.home e.2 = some k then e.2.grant else 0)).sum

/-- C_tot of queue n (R249). -/
def State.totalCap (s : State) (n : Nat) : Nat :=
  let q := s.queue n
  let lim := ((s.policy q.cfg.spill).map (fun k => (s.ledger.pool k).total - s.grantsOf k n)).sum
  min q.cfg.cap (2 * edgeWords q.edge + 1024 * lim)

/-- The snapshot of queue q, number n, that a write of ED_QSEL captures; an absent queue captures 0. -/
def State.captureEddy (s : State) (n : Nat) : State :=
  let q := s.queue n
  let x (v : Nat) : Nat := if q.ex then v else 0
  let s := s.setPair ED_QCAP_LO ED_QCAP_HI (x (s.totalCap n))
  let info := min 8 (s.depth q) + q.warming.toNat * 0x10 + q.samples.length * 0x20 + q.cfg.spill * 0x100 + q.pinned.toNat * 0x1000
  let s := s.setReg ED_QINFO (BitVec.ofNat 32 (x info))
  let s := s.setReg ED_QBLK_E (BitVec.ofNat 32 (x q.ledgerE))
  let s := s.setReg ED_QBLK_O (BitVec.ofNat 32 (x q.ledgerO))
  s.setReg ED_QRES (BitVec.ofNat 32 (x q.grant))

/-- ED_QSEL (R264). -/
def execEdQsel (_ : Master) (q : BitVec 16) (s : State) : Res :=
  if s.fabricUp = false then .next s
  else .next ((s.setReg ED_QSEL (BitVec.ofNat 32 q.toNat)).captureEddy q.toNat)

/-! ## The sweep (R257) -/

/-- SWEEP_START (R257): a requested sweep starts where none runs. -/
def execSweepStart (s : State) : Res :=
  if s.runs .core = false then .next s
  else match s.ledger.sweep, s.ledger.nextSweep with
  | none, some r => .next { s with ledger := { s.ledger with sweep := some r, nextSweep := none } }
  | _, _ => .next s

/-- The blocks that queues hold in pool k, from the entries of their chains. -/
def State.chained (s : State) (k : PoolKind) : Nat := (s.queues.map (fun e => e.2.blocks k)).sum

/-- Pool k as the sweep leaves it: blocks that awaited reclaim are free; after a recount its counts are those of the
entries. -/
def State.sweptPool (s : State) (k : PoolKind) (recount : Bool) : Pool :=
  let p := s.ledger.pool k
  if recount then
    let h := s.chained k
    let h1 := (s.queues.map (fun e => (e.2.chain.filter (fun b => b.pool == k && b.ch)).length)).sum
    let p0 := { p with held := h, flight := 0, reclaim := 0, free := 0, free0 := 0, free1 := 0 }
    (p0.back false (p.total0 - (h - h1))).back true (p.total1 - h1)
  else
    let d1 := ((s.ledger.awaiting.filter (fun r => r.pool == k)).map (fun r => r.d1)).sum
    ({ p with reclaim := 0 }.back false (p.reclaim - d1)).back true (min d1 p.reclaim)

/-- The state after the sweep has passed both pools. Blocks that a recount finds on no chain join RECLAIM and are freed with it (R257). -/
def State.swept (s : State) (recount : Bool) : State :=
  let lost (k : PoolKind) : Nat :=
    let p := s.ledger.pool k
    if recount then p.total - s.chained k - p.free - p.reclaim else 0
  let n := s.ledger.eddy.reclaim + s.ledger.onChip.reclaim + lost .eddy + lost .onChip
  let l := { s.ledger with
    eddy := s.sweptPool .eddy recount, onChip := s.sweptPool .onChip recount, awaiting := []
    sweep := s.ledger.nextSweep, nextSweep := none, createWait := []
    fails := if recount then s.ledger.fails.filter (fun f => decide (3 < f.cls)) else s.ledger.fails }
  let qs := if recount then
      tabMap (fun _ => Queue.absent)
        (fun _ q => { q with ledgerE := q.blocks .eddy, ledgerO := q.blocks .onChip }) s.queues
    else s.queues
  { s with ledger := l, queues := qs }.incBy LG_CNT_RECLAIM n

/-- SWEEP_DONE (R257): the sweep has passed every owner entry. Blocks that awaited reclaim are free, a recount's counts replace
the live ones with an event of the old and the new counts, queues kept full by old blocks take words again, and CREATEs
that waited are carried out (R252). A requested further sweep starts. -/
def execSweepDone (s : State) : Res :=
  match (if s.runs .core then s.ledger.sweep else none) with
  | none => .next s
  | some recount =>
    let waits := s.ledger.createWait
    let e := s.ledger.eddy
    let o := s.ledger.onChip
    let s1 := s.swept recount
    let e' := s1.ledger.eddy
    let o' := s1.ledger.onChip
    let s2 := if recount then
        (s1.on LG_EVT.RECOUNT_DONE).event Ev.LEDGER_RECOUNT
          [e.free, e.held, e.flight, e.reclaim, e'.free, e'.held, e'.flight, e'.reclaim,
           o.free, o.held, o.flight, o.reclaim, o'.free, o'.held, o'.flight, o'.reclaim]
      else s1
    let s3 := s2.refreshFull
    .next (waits.foldl (fun s w => s.applyQueue w.1 w.2.1 w.2.2) s3)

/-! ## The ledger's snapshot (R266, R269) -/

/-- One pool's terms in their six registers. -/
def State.snapPool (s : State) (base : Nat) (k : PoolKind) : State :=
  let p := s.ledger.pool k
  let put (i v : Nat) (s : State) : State := s.setReg (base + 4 * i) (BitVec.ofNat 32 v)
  put 5 (s.reserved k) (put 4 p.reclaim (put 3 p.flight (put 2 p.held (put 1 p.free (put 0 p.total s)))))

/-- Every term of the ledger captured at once (R266). -/
def State.snapTerms (s : State) : State :=
  let s1 := (s.snapPool LG_E_TOTAL .eddy).snapPool LG_O_TOTAL .onChip
  let s2 := s1.setReg LG_TAG_OUT (BitVec.ofNat 32 s.ledger.tags.length)
  let s3 := s2.setPair LG_TAG_ISS_LO LG_TAG_ISS_HI s.ledger.issued
  s3.setPair LG_TAG_CMP_LO LG_TAG_CMP_HI s.ledger.completed

/-- What a write of v to LG_CTRL does beside its record (R266, R267): SNAP and RECOUNT. The ledger stands still with CORE (R258). -/
def State.ledgerCtrl (s : State) (v : Word) : State :=
  if s.runs .core = false then s
  else
    let s := if v.getLsbD 0 then s.snapTerms else s
    if v.getLsbD 1 then { s with ledger := { s.ledger with nextSweep := some true } } else s

/-- LEDGER_SNAP (R266): LG_CTRL.SNAP captures every term. -/
def execLedgerSnap (o : Origin) (s : State) : Res := .next ((s.ledgerCtrl 1).configWrite o LG_CTRL 1 0)

/-- RECOUNT (R257): LG_CTRL.RECOUNT asks for a recount. -/
def execRecount (o : Origin) (s : State) : Res := .next ((s.ledgerCtrl 2).configWrite o LG_CTRL 2 0)

/-! ## Failures of the ledger (R255, R256) -/

/-- An equation of class cls fails for object obj by delta (R255, R256): a failure whose action already runs with the same delta is the
same failure; with another delta it is counted and recorded but starts nothing. The answer tells whether an action
starts. -/
def State.ledgerFault (s : State) (cls obj : Nat) (delta : Int) (terms : List Nat) (action : Nat) : Bool × State :=
  let running := s.ledger.fails.find? (fun f => f.cls == cls && f.obj == obj)
  match running with
  | some f =>
    if f.delta = delta then (false, s)
    else
      let fs := s.ledger.fails.map (fun g => if g = f then { g with delta := delta } else g)
      (false, note 0 { s with ledger := { s.ledger with fails := fs } })
  | none =>
    let s := { s with ledger := { s.ledger with fails := s.ledger.fails ++ [{ cls := cls, obj := obj, delta := delta }] } }
    (true, (note action s).fire 2043)
where
  note (act : Nat) (s : State) : State :=
    let s := s.setReg LG_FAULT0 (BitVec.ofNat 32 (cls + obj % 0x10000 * 0x10000))
    let s := (s.setReg LG_FAULT1 (satInt32 delta)).inc LG_CNT_FAULT
    let s := s.setRegBit LG_EVT (cls - 1) true
    s.event Ev.LEDGER_FAULT ([cls, obj] ++ terms ++ [act])

/-- The action for class cls and object obj has ended (R256). -/
def State.ledgerDone (s : State) (cls obj : Nat) : State :=
  { s with ledger := { s.ledger with fails := s.ledger.fails.filter (fun f => !(f.cls == cls && f.obj == obj)) } }

/-! ## Bounced transfers (R260) -/

/-- n transfers to a unit that powers down go back to their senders; the power-down has one event. -/
def State.bounce (s : State) (u : DownUnit) (n : Nat) : State :=
  let s1 := (s.incBy LG_CNT_BOUNCE n).on LG_EVT.BOUNCE
  if s.ledger.bounced.contains u then s1
  else
    let code := match u with
      | .cluster k => [1, k.val] | .netPort k => [2, k.val] | .bank b => [3, b.val] | .chainDevice d => [4, d.val]
    { s1 with ledger := { s1.ledger with bounced := s1.ledger.bounced ++ [u] } }.event Ev.DOMAIN_BOUNCE code

end Sys2Proof.Machine
end

