-- ==== Sys2Proof/Machine/TimeBase.lean ====
section
/-!
DEFINITION. The time base (R271 to R299): the count and its clocks, corrections, sources and their selection, holdover, the PPS
servo, timestamp inputs, time-pulse outputs, alarms and the calendar, and the meanings of its commands. What a step of
device time does elsewhere (R279) is in TimeStep.
-/
namespace Sys2Proof.Machine

/-- The signed value of word v. -/
def Word.int (v : Word) : Int := v.toInt

/-- An integer within the signed 32-bit range. -/
def clip32 (x : Int) : Int := max (-0x80000000) (min 0x7FFFFFFF x)

/-- 2^32, the units of the fraction in one ns. -/
def unit32 : Nat := 0x100000000

/-- RATE_PPB in force (R278). -/
def State.slewRate (s : State) : Nat := min 100000 (max 1 (s.rd TB_SLEW.RATE_PPB))

/-- The slew term's size, in 2^−32 ns per cycle (R278). -/
def State.slewTerm (s : State) : Nat := (2 * s.slewRate * 34359738368 + 1000000000) / 2000000000

/-- QUALITY of device time (R280). -/
def State.quality (s : State) : Nat :=
  if s.coarse then 6
  else if s.rd TB_STAT.SRC_SEL != 0 then (if s.time.first && !s.bit TB_STAT.WARMING then 0 else 1)
  else if s.bit TB_STAT.HOLDOVER then
    (if decide (s.rd TB_HOLDOVER.LIMIT_S * second ≤ s.time.tick - s.time.hoSince) then 3 else 2)
  else if s.time.timeSet then 4 else 5

/-- The whole seconds in holdover (R281). -/
def State.hoAge (s : State) : Nat :=
  if s.bit TB_STAT.HOLDOVER then sat32 ((s.time.tick - s.time.hoSince) / second) else 0

/-! ## The count (R272, R273) -/

/-- The count in 2^−32 ns at the last clock cycle. -/
def TimeBase.fine (t : TimeBase) : Int := t.cyc * unit32 + t.frac

/-- The time base with its count at x, in 2^−32 ns. -/
def TimeBase.setFine (t : TimeBase) (x : Int) : TimeBase :=
  { t with cyc := x.toNat / unit32, frac := x.toNat % unit32 }

/-- What the slew adds to or takes from the rate A in one cycle, in 2^−32 ns: A + S is clipped to the signed 32-bit range (R272). -/
def State.slewStep (s : State) : Nat :=
  let a := clip32 (s.rdInt TB_ADDEND)
  if s.time.slew < 0 then min s.slewTerm (a + 0x80000000).toNat else min s.slewTerm (0x7FFFFFFF - a).toNat

/-- The slew that n cycles use up, in 2^−32 ns: all of it where less remains (R278). -/
def State.slewUse (s : State) (n : Nat) : Int :=
  let m := min s.time.slew.natAbs (n * s.slewStep)
  if s.time.slew < 0 then -(m : Int) else m

/-- Samples of A after k more seconds of elapsed time (R281). -/
def State.sampleA (s : State) (k : Nat) : List Int :=
  if s.quality = 0 then (List.replicate (min k 16) (s.rdInt TB_ADDEND) ++ s.time.samples).take 16 else s.time.samples

/-- n ns pass, and the count runs on the clock it has (R272, R273), once the TIME domain is released (R598). -/
def State.elapse (s : State) (n : Nat) : State :=
  let t := s.time
  let a := s.rdInt TB_ADDEND
  let t := { t with tick := t.tick + n, samples := s.sampleA ((t.tick + n) / second - t.tick / second) }
  if s.runs .time = false then { s with time := t }
  else if s.coarse = false then
    let c := (t.phase + n) / 8
    let u := s.slewUse c
    let t := { t with phase := (t.phase + n) % 8, slew := t.slew - u, slewSum := t.slewSum + u, pps := { t.pps with slew := t.pps.slew + u } }
    { s with time := t.setFine (t.fine + (c : Int) * (8 * unit32 + clip32 a) + u) }
  else if s.bit CK_STAT.REFCLK_OK then
    let c := (t.phase + n) / 40
    let x := t.fine + (c : Int) * (5 * (8 * unit32 + clip32 a))
    { s with time := TimeBase.setFine { t with phase := (t.phase + n) % 40 } x }
  else
    let c := (t.mon + 48 * n) / 1000
    let x := t.fine + (c : Int) * (s.rd TB_MONCAL.PERIOD * 256)
    { s with time := TimeBase.setFine { t with mon := (t.mon + 48 * n) % 1000 } x }

/-- One ns passes: the tick of an idle block (log entry 1). -/
def State.tick1 (s : State) : State := s.elapse 1

/-- Device time brought forward to t, if it has not reached t (log entry 1). -/
def State.advanceTo (s : State) (t : Nat) : State :=
  if s.now < t ∧ s.runs .time then
    let s := s.elapse (t - s.now)
    { s with time := { s.time with cyc := t, frac := 0, phase := 0 } }
  else s

/-- The state with A as its addend; a MONOSC window in which A changes is to be discarded (R274). -/
def State.setAddend (s : State) (a : Int) : State :=
  let v := BitVec.ofInt 32 (clip32 a)
  ({ s with time := { s.time with dirty := s.time.dirty || v != s.reg TB_ADDEND } } : State).setReg TB_ADDEND v

/-! ## Sources (R275, R276) -/

/-- The code of a source (R275). -/
def srcCode : TimeSrc → Nat
  | .host => 1
  | .engine => 2
  | .chain => 3
  | .pps => 4

/-- The sources that TB_SRCCFG lists, highest priority first; a repeated one counts once (R276). -/
def State.srcList (s : State) : List Nat :=
  let p := s.rd TB_SRCCFG.PRIO
  (([p % 16, p / 16 % 16, p / 256 % 16, p / 4096].filter (fun c => decide (1 ≤ c) && decide (c ≤ 4)))).eraseDups

/-- Whether the source with code c is VALID. -/
def State.srcValid (s : State) (c : Nat) : Bool := s.regBit TB_SRCSTAT (c - 1)

/-- The state with the validity of source c. -/
def State.setValid (s : State) (c : Nat) (v : Bool) : State := s.setRegBit TB_SRCSTAT (c - 1) v

/-- The mean of xs rounded to nearest, or d where there is none. -/
def meanOr (d : Int) (xs : List Int) : Int := if xs.isEmpty then d else divRound (xs.foldl (· + ·) 0) xs.length

/-- The expiry of holdover (R281). -/
def State.expireHoldover (s : State) : State :=
  (({ s with time := { s.time with hoFired := true } } : State).on TB_EVT.HO_EXPIRED).event Ev.TB_HO_EXPIRED []

/-- Entry to holdover (R281): A becomes the holdover rate; corrections taken before are completed. -/
def State.enterHoldover (s : State) : State :=
  let a := meanOr (s.rdInt TB_ADDEND) s.time.samples
  let s := (({ s with time := { s.time with hoSince := s.time.tick, hoFired := false } } : State).on TB_STAT.HOLDOVER).on
    TB_EVT.HOLDOVER
  let s := (s.setReg TB_HO_ADDEND (BitVec.ofInt 32 a)).setAddend a
  let s := s.event Ev.TB_HOLDOVER []
  if s.rd TB_HOLDOVER.LIMIT_S = 0 then s.expireHoldover else s

/-- A pending step is cancelled. -/
def State.dropStep (s : State) : State := { s with time := { s.time with step := none } }

/-- A remaining slew is cancelled. -/
def State.dropSlew (s : State) : State := { s with time := { s.time with slew := 0, slewing := false, dirty := s.time.dirty || s.time.slew != 0 } }

/-- The selected source changes to c, 0 for none (R276): corrections are cancelled unless holdover is entered. -/
def State.selectSource (s : State) (c : Nat) : State :=
  let old := s.rd TB_STAT.SRC_SEL
  let s := if c = 0 then s else s.dropStep.dropSlew
  let s := (s.inc TB_CNT_SRCSW).on TB_EVT.SRC_CHANGE
  let s := s.wr TB_STAT.SRC_SEL c
  let s := { s with time := { s.time with first := false, ever := s.time.ever || c != 0 } }
  let s := s.event Ev.TB_SRC_CHANGE [old, c]
  if c ≠ 0 then s.off TB_STAT.HOLDOVER
  else if s.srcList.isEmpty then s else s.enterHoldover

/-- The selection rules of R276, applied to the sources' validity now. A higher-listed source waits HOLDOFF_S to replace the selected
one, which with 0 s is at once. Free mode is no holdover; a list that comes anew, with none VALID on it, is, once a source has been
selected (R280, R281). -/
def State.reselect (s : State) : State :=
  let sel := s.rd TB_STAT.SRC_SEL
  let l := s.srcList
  let stays := decide (sel ≠ 0) && l.contains sel && s.srcValid sel && s.rd TB_SRCCFG.HOLDOFF_S != 0
  let want := if stays then sel else (l.find? s.srcValid).getD 0
  let s := if want = sel then s else s.selectSource want
  if l.isEmpty then s.off TB_STAT.HOLDOVER
  else if want = 0 ∧ s.time.ever ∧ s.bit TB_STAT.HOLDOVER = false then s.enterHoldover
  else s

/-- Whether a submission of source c acts (R276). -/
def State.adjActs (s : State) (c : Nat) : Bool :=
  !s.coarse && (if s.srcList.isEmpty then c == 1 else s.rd TB_STAT.SRC_SEL == c)

/-- A submission ignored (R276). -/
def State.adjIgnored (s : State) : State := (s.inc TB_CNT_ADJIGN).on TB_EVT.ADJ_IGN

/-! ## Corrections (R277 to R279) -/

/-- What an offset submission carries: θ with ADD, or an absolute time. -/
inductive OffReq where
  | off (theta : Int) (add : Bool)
  | set (v : Nat)
  deriving DecidableEq, Repr

/-- The first second boundary at least 1 µs after device time t (R279). -/
def stepBoundary (t : Nat) : Nat := divUp (t + 1000) second * second

/-- The effective offset of a submission (R277). -/
def State.effective (s : State) : OffReq → Int
  | .off th false => th
  | .off th true => th + divRound s.time.slew unit32 + (match s.time.step with | some p => p.theta | none => 0)
  | .set v => (v : Int) - s.now

/-- An effective offset taken from source c by origin o (R277). -/
def State.takeOffset (s : State) (c : Nat) (o : Origin) (th : Int) : State :=
  if th.natAbs ≤ 1000000 then
    { s with time := { s.time with
        slew := th * unit32, slewing := decide (th ≠ 0), step := none, timeSet := true, first := true, dirty := true } }
  else
    let b := stepBoundary s.now
    if (b : Int) + th < 0 ∨ (timeMax : Int) < b + th then s.adjIgnored
    else { s.dropSlew with time := { s.dropSlew.time with step := some { b := b, theta := th, src := c, org := o } } }

/-- A submission of source c by origin o, which makes the source VALID (R276, R277): the selection rules first, then the
rate and the offset it carries, if it acts. -/
def State.submit (s : State) (c : Nat) (o : Origin) (rate : Option Int) (off : Option OffReq) : State :=
  let s := (s.setValid c true).reselect
  if s.adjActs c then
    let s := match rate with
      | some a => let s := s.setAddend a; { s with time := { s.time with first := true } }
      | none => s
    match off with
    | some r => s.takeOffset c o (s.effective r)
    | none => s
  else s.adjIgnored

/-- The offset in TB_HADJ_OFF. -/
def State.hostOffset (s : State) : Int :=
  (s.reg TB_HADJ_OFF_HI).toInt * unit32 + (s.reg TB_HADJ_OFF_LO).toNat

/-- The time in TB_SET. -/
def State.hostSet (s : State) : Nat := timeOf (s.reg TB_SET_NS).toNat (s.reg TB_SET_SL).toNat (s.rd TB_SET_SH.SEC_HI)

/-- TB_SUBMIT_RATE (R277): the host port's rate. -/
def execTbSubmitRate (o : Origin) (s : State) : Res := .next (s.submit 1 o (some (s.rdInt TB_HADJ_RATE)) none)

/-- TB_SUBMIT_OFFSET (R277): the host port's offset. -/
def execTbSubmitOffset (o : Origin) (add : Bool) (s : State) : Res := .next (s.submit 1 o none (some (.off s.hostOffset add)))

/-- TB_SUBMIT_SET (R277): the host port's absolute time. -/
def execTbSubmitSet (o : Origin) (s : State) : Res := .next (s.submit 1 o none (some (.set s.hostSet)))

/-- TB_CANCEL (R277): the pending step and the remaining slew are cancelled. -/
def execTbCancel (_ : Origin) (s : State) : Res := .next s.dropStep.dropSlew

/-- A write of TB_HADJ_CMD (R304): CANCEL first, then one submission of what the other bits select. -/
def State.hadjCmd (s : State) (o : Origin) (v : Word) : State :=
  let s := if v.getLsbD 4 then s.dropStep.dropSlew else s
  let rate := if v.getLsbD 0 then some (s.rdInt TB_HADJ_RATE) else none
  let off := if v.getLsbD 3 then some (OffReq.set s.hostSet)
    else if v.getLsbD 1 then some (.off s.hostOffset (v.getLsbD 2)) else none
  if rate.isNone ∧ off.isNone then s else s.submit 1 o rate off

/-- SLEW_DONE (R278): the time base gains or loses what remains of the slew, and the slew ends. It pauses while the count is
coarse, and while the rate A leaves it no room in the range of R272. -/
def execSlewDone (s : State) : Res :=
  if s.time.slewing ∧ s.coarse = false ∧ (s.time.slew = 0 ∨ s.slewStep ≠ 0) then
    let n := 8 * divUp s.time.slew.natAbs s.slewStep
    let s := if s.time.slew = 0 then s else s.elapse n
    .next (({ s with time := { s.time with slew := 0, slewing := false } } : State).on TB_EVT.SLEW_DONE)
  else .next s

/-- The step of device time (R279) itself; what the step signal does elsewhere follows it. -/
def State.stepCount (s : State) (p : PendStep) : State :=
  let s := s.advanceTo p.b
  let t := s.time
  let t := { t with step := none, timeSet := true, first := true, dirty := true, pps := { t.pps with steps := t.pps.steps + p.theta } }
  let s := { s with time := t.setFine (t.fine + p.theta * unit32) }
  let s := s.wr TB_TIME_SH.STEP_SEQ (s.rd TB_TIME_SH.STEP_SEQ + 1)
  let s := (s.inc TB_CNT_STEP).on TB_EVT.STEP
  let th := (p.theta % (2 ^ 64 : Nat)).toNat
  s.eventAt s.now false Ev.TIME_STEP p.org
    (timeWords p.b ++ timeWords ((p.b : Int) + p.theta).toNat
      ++ [BitVec.ofNat 32 th, BitVec.ofNat 32 (th / unit32), BitVec.ofNat 32 p.src])

/-! ## Timeouts and holdover -/

/-- SOURCE_TIMEOUT (R275, R276): a source stops being VALID. -/
def execSourceTimeout (src : TimeSrc) (s : State) : Res :=
  let s := if src = .engine then { s with time := { s.time with engFresh := false } } else s
  .next ((s.setValid (srcCode src) false).reselect)

/-- Whether a is listed before b. -/
def listedBefore (l : List Nat) (a b : Nat) : Bool := decide (l.idxOf a < l.idxOf b)

/-- SOURCE_HOLDOFF_EXPIRY (R276): a source that has been VALID for HOLDOFF_S replaces a lower-listed selected one. -/
def execSourceHoldoffExpiry (src : TimeSrc) (s : State) : Res :=
  let c := srcCode src
  let sel := s.rd TB_STAT.SRC_SEL
  if sel ≠ 0 ∧ s.srcList.contains c ∧ s.srcValid c ∧ listedBefore s.srcList c sel then .next (s.selectSource c) else .next s

/-- TB_HO_EXPIRED (R281): the holdover age reaches LIMIT_S. -/
def execTbHoExpired (s : State) : Res :=
  if s.bit TB_STAT.HOLDOVER ∧ s.time.hoFired = false then
    let due := s.time.hoSince + s.rd TB_HOLDOVER.LIMIT_S * second
    .next ((s.advanceTo (s.now + (due - s.time.tick))).expireHoldover)
  else .next s

/-- MONCAL_WINDOW (R274): a window of 2^20 MONOSC cycles has taken the given device ns; the mean of the last 16 is TB_MONCAL. A
window with a step, a slew or a change of A in it is discarded, and none is taken in which REFCLK was out of its window. -/
def execMoncalWindow (ns : BitVec 32) (s : State) : Res :=
  let busy := s.time.step.isSome || s.time.slew != 0
  if s.bit CK_STAT.REFCLK_OK = false ∨ busy then .next { s with time := { s.time with dirty := true } }
  else if s.time.dirty then .next { s with time := { s.time with dirty := false } }
  else
    let ws := (ns.toNat :: s.time.windows).take 16
    let s1 := { s with time := { s.time with windows := ws } }
    if ws.length = 16 then .next (s1.setReg TB_MONCAL (BitVec.ofNat 32 ws.sum)) else .next s1

/-! ## The PPS servo (R283, R284) -/

/-- The servo restarted: its next pulse is the first. -/
def State.ppsRestart (s : State) : State :=
  { s with time := { s.time with pps := { s.time.pps with started := true, count := 0, rejects := 0 } } }

/-- TB_PPS.TOL_NS; 0 acts as 1. -/
def State.ppsTol (s : State) : Nat := max 1 (s.rd TB_PPS.TOL_NS)

/-- An accepted pulse with stamp k (R284): its rate from the second on, and its offset, are submitted. -/
def State.ppsAccept (s : State) (k : Nat) : State :=
  let p := s.time.pps
  let off : Int := ((k + second / 2) / second * second : Nat) - (k : Int)
  let num : Int := ((k : Int) - (p.last + p.steps) - second) * unit32 - p.slew
  let g : Int := if p.count = 1 then 8 else 2
  let s1 := { s with time := { s.time with
    pps := { p with count := min 8 (p.count + 1), last := k, steps := 0, slew := 0, rejects := 0 } } }
  let s1 := s1.put TB_STAT.WARMING (decide (p.count + 1 < 8))
  let s1 := s1.setReg TB_PPS_OFF (satInt32 off)
  let s1 := if p.count = 0 then s1.setValid 4 true
    else (s1.setReg TB_PPS_ERR (satInt32 (divRound num unit32))).submit 4 .device
      (some (s1.rdInt TB_ADDEND - divRound (num * g) second)) none
  s1.submit 4 .device none (some (.off off false))

/-- A rising edge of the servo's input with stamp k (R283). -/
def State.ppsPulse (s : State) (k : Nat) : State :=
  let p := s.time.pps
  if p.started = false then s
  else if p.count = 0 ∨ 3 ≤ p.rejects then
    ({ s with time := { s.time with pps := { p with count := 0, rejects := 0 } } } : State).ppsAccept k
  else
    let d : Int := (k : Int) - (p.last + p.steps) - second
    if -(s.ppsTol : Int) ≤ d ∧ d < s.ppsTol then s.ppsAccept k
    else (({ s with time := { s.time with pps := { p with rejects := p.rejects + 1 } } } : State).inc TB_CNT_PPSREJ).on TB_EVT.PPS_REJ

/-- What a write of TB_SRCCFG does beside its store (R275, R276, R283): the servo starts when PPS is first listed and restarts at a
change of its input, another engine has submitted nothing yet, and the selection follows the list. -/
def State.srccfgWritten (s : State) (old : Word) : State :=
  let starts := s.srcList.contains 4 && !s.time.pps.started
  let moved := s.time.pps.started && fldOf TB_SRCCFG.PPS_TSI old != s.rd TB_SRCCFG.PPS_TSI
  let s := if starts || moved then s.ppsRestart else s
  let s := if fldOf TB_SRCCFG.ENG old = s.rd TB_SRCCFG.ENG then s
    else ({ s with time := { s.time with engFresh := false } } : State).setValid 2 false
  s.reselect

/-! ## Timestamp inputs (R285, R286) -/

/-- A stamp record (R102): its time, KIND and sequence word, END on the fourth. -/
def stampRecord (t kind seq : Nat) : List QWord :=
  [{ data := BitVec.ofNat 32 (t % second) }, { data := BitVec.ofNat 32 (t / second) },
   { data := BitVec.ofNat 32 (t / second / unit32 % 0x10000 + kind * 0x10000) }, { data := BitVec.ofNat 32 seq, fin := true }]

/-- Input i stamps an edge at device time k (R286): its registers, its count, its record. -/
def State.tsiStamp (s : State) (i k : Nat) (rising : Bool) : State :=
  let n := (s.reg (TSI_CNT_STAMP i)).toNat
  let s := s.setStamp (TSI_NS i) (TSI_SL i) (TSI_SH i) k
  let s := (s.put (TSI_SH.FALL i) !rising).wr (TSI_SH.SEQ i) (s.rd (TSI_SH.SEQ i) + 1)
  let s := s.setReg (TSI_CNT_STAMP i) (BitVec.ofNat 32 (n + 1))
  let q := s.rd (TSI_Q.QID i)
  if s.bit (TSI_Q.BIND_EN i) && (s.queue q).ex then
    match s.push q (stampRecord k (if rising then 0xC else 0xD) n) with
    | (.refused, s') => (s'.inc (TSI_CNT_DROP i)).on TB_EVT.TSI_DROP
    | (_, s') => s'
  else s

/-- Whether EDGE of input i selects an edge of this direction (R306). -/
def State.tsiSelects (s : State) (i : Nat) (rising : Bool) : Bool :=
  match s.rd (TSI_CFG.EDGE i) with
  | 1 => !rising
  | 2 => true
  | _ => rising

/-- TSI_EDGE (R285): at this tick the filtered, synchronised input i first shows a new level. The stamp is this tick less the
synchroniser's 16 ns, FILT and DCOMP; an edge less than 16 ns after the last stamped one is missed. -/
def execTsiEdge (i : Fin 8) (rising : Bool) (s : State) : Res :=
  if s.bit (TSI_CFG.EN i.val) && s.tsiSelects i.val rising then
    let k := ((s.now : Int) - 16 - s.rd (TSI_CFG.FILT i.val)
      - (BitVec.ofNat 16 (s.rd (TSI_CFG.DCOMP i.val))).toInt).toNat
    let last := tabGet noEdge s.time.tsiLast i.val
    if last ≠ 0 ∧ s.time.tick + 1 < last + 16 then .next (s.inc (TSI_CNT_MISS i.val))
    else
      let s := { s with time := { s.time with tsiLast := tabPut noEdge s.time.tsiLast i.val (s.time.tick + 1) } }
      let s := s.tsiStamp i.val k rising
      .next (if rising && s.rd TB_SRCCFG.PPS_TSI == i.val then s.ppsPulse k else s)
  else .next s

/-! ## Time-pulse outputs (R289 to R294) -/

/-- Output i. -/
def State.tpo (s : State) (i : Nat) : Tpo := tabGet Tpo.reset s.time.tpos i

/-- The state with x as output i. -/
def State.setTpo (s : State) (i : Nat) (x : Tpo) : State :=
  { s with time := { s.time with tpos := tabPut Tpo.reset s.time.tpos i x } }

/-- The applied mode: 0 OFF, 1 TRAIN, 2 SINGLE, 3 LEVEL_AT; 4 to 7 are OFF (R289). -/
def Tpo.mode (x : Tpo) : Nat := if 4 ≤ x.cfg.toNat % 8 then 0 else x.cfg.toNat % 8

/-- START of an applied setting. -/
def Tpo.start (x : Tpo) : Nat := timeOf x.startNs.toNat x.startSl.toNat (x.startSh.toNat % 0x10000)

/-- PERIOD, WIDTH and COMP of an applied setting (R289, R290). -/
def Tpo.per (x : Tpo) : Nat := max 16 x.period.toNat
def Tpo.wid (x : Tpo) : Nat := if x.mode = 1 then min (max 1 x.width.toNat) (x.per - 1) else max 1 x.width.toNat
def Tpo.comp (x : Tpo) : Nat := x.cfg.toNat / 256 % 256

/-- The first train time at or after t. -/
def Tpo.trainFrom (x : Tpo) (t : Nat) : Nat := if t ≤ x.start then x.start else x.start + divUp (t - x.start) x.per * x.per

/-- The logical output that LEVEL_AT gives: the pad shows LEVEL (log entry 10). -/
def Tpo.levelOut (x : Tpo) : Bool := x.cfg.getLsbD 4 != x.cfg.getLsbD 3

/-- A SINGLE or LEVEL_AT start of output i that is missed (R291): LEVEL_AT changes at once. -/
def State.tpoMissed (s : State) (i : Nat) : State :=
  let x := s.tpo i
  ((s.setTpo i { x with due := none, out := if x.mode = 3 then x.levelOut else x.out }).inc TB_CNT_TPOMISS).on TB_EVT.TPO_MISSED

/-- The first action of output i after a setting takes effect at this tick (R291). -/
def State.tpoFirst (s : State) (i : Nat) : State :=
  let x := s.tpo i
  match x.mode with
  | 0 => s.setTpo i { x with due := none }
  | 1 => s.setTpo i { x with due := some (x.trainFrom (s.now + 100)) }
  | _ => if s.now + 100 ≤ x.start then s.setTpo i { x with due := some x.start } else s.tpoMissed i

/-- The staging registers of output i take effect at this tick. -/
def State.tpoTake (s : State) (i : Nat) : State :=
  let x := s.tpo i
  (s.setTpo i { x with
    cfg := s.reg (TPO_CFG i), startNs := s.reg (TPO_START_NS i), startSl := s.reg (TPO_START_SL i)
    startSh := s.reg (TPO_START_SH i), period := s.reg (TPO_PERIOD i), width := s.reg (TPO_WIDTH i)
    pend := false, active := none, out := false }).tpoFirst i

/-- TPO_APPLY (R291): at once where no pulse is active; otherwise it waits for the pulse's end. During a reload of TIME it waits for that (R32). -/
def execTpoApply (o : Origin) (i : Fin 8) (s : State) : Res :=
  if s.reloading (TPO_CTRL i.val) then .next (s.lateWrite o (TPO_CTRL i.val) 1)
  else
  let s := s.configWrite o (TPO_CTRL i.val) 1 0
  if (s.tpo i.val).active.isSome then .next (s.setTpo i.val { s.tpo i.val with pend := true }) else .next (s.tpoTake i.val)

/-- TPO_APPLY_TAKE (R291): the pulse of the old setting has ended, and the waiting setting takes effect. -/
def execTpoApplyTake (i : Fin 8) (s : State) : Res :=
  let x := s.tpo i.val
  if x.pend then
    let s := match x.active with | some e => s.advanceTo e | none => s
    .next (s.tpoTake i.val)
  else .next s

/-- TPO_PULSE_START (R289, R290, R292): the due action of output i, at its time less COMP. A pulse due while the last one is active
is suppressed and counted. Becalm holds the outputs low (R293). -/
def execTpoPulseStart (i : Fin 8) (s : State) : Res :=
  let x := s.tpo i.val
  match x.due with
  | none => .next s
  | some t =>
    if s.time.tpoCut then .next s
    else
      let s := s.advanceTo (t - x.comp)
      let next := if x.mode = 1 then some (t + x.per) else none
      if x.mode = 3 then .next (s.setTpo i.val { x with due := none, out := x.levelOut })
      else if x.active.isSome then .next ((s.setTpo i.val { x with due := next }).inc TB_CNT_TPOSUP)
      else .next (s.setTpo i.val { x with due := next, active := some (t - x.comp + x.wid), out := true })

/-- TPO_PULSE_END (R292): the pulse of output i has lasted its WIDTH. -/
def execTpoPulseEnd (i : Fin 8) (s : State) : Res :=
  let x := s.tpo i.val
  match x.active with
  | some e => .next ((s.advanceTo e).setTpo i.val { x with active := none, out := false })
  | none => .next s

/-- What a step from b to b + θ does to output i (R292): an active pulse keeps its remaining ns, a pulse due at b is suppressed, a
train goes on strictly after the new time, and a start that a forward step passes is missed. An output that becalm holds low has none
of these: it resumes as at APPLY (R293). -/
def State.tpoStep (s : State) (b : Nat) (th : Int) (i : Nat) : State :=
  if s.time.tpoCut then s else
  let x := s.tpo i
  let n := ((b : Int) + th).toNat
  let s := match x.due with | some t => if t = b ∧ x.mode ≠ 3 then s.inc TB_CNT_TPOSUP else s | none => s
  let x := { x with active := x.active.map (fun e => ((e : Int) + th).toNat) }
  match x.mode, x.due with
  | 1, some _ => s.setTpo i { x with due := some (x.trainFrom (n + 1)) }
  | _, some t =>
    if t = b ∧ th < 0 ∧ x.mode ≠ 3 then s.setTpo i { x with due := none }
    else if b ≤ t ∧ t ≤ n then (s.setTpo i x).tpoMissed i
    else s.setTpo i x
  | _, none => s.setTpo i x

/-- Becalm forces every output low (R293): active pulses are cut and counted, with one event per becalm. -/
def State.tpoBecalm (s : State) : State :=
  let cut := (List.range 8).filter (fun i => (s.tpo i).active.isSome)
  let s1 := cut.foldl (fun s i => (s.setTpo i { s.tpo i with active := none, out := false }).inc TB_CNT_TPOCUT) s
  let s2 := { s1 with time := { s1.time with tpoCut := true, cutTold := s1.time.cutTold || !cut.isEmpty } }
  if cut.isEmpty then s2
  else if s.time.cutTold then s2.on TB_EVT.TPO_CUT
  else (s2.on TB_EVT.TPO_CUT).event Ev.TPO_CUT [cut.foldl (fun a i => a + 2 ^ i) 0]

/-- The outputs resume at the end of becalm as if APPLY had been written (R293). -/
def State.tpoResume (s : State) : State :=
  (List.range 8).foldl State.tpoTake { s with time := { s.time with tpoCut := false } }

/-! ## Alarms (R295) -/

/-- T of alarm k. -/
def State.alarmTime (s : State) (k : Nat) : Nat :=
  (s.rd (ALM_SH.SEC_HI k) * unit32 + (s.reg (ALM_SL k)).toNat) * second + (s.reg (ALM_NS k)).toNat

/-- Alarm k fires. -/
def State.alarmGo (s : State) (k : Nat) : State :=
  ((s.off (ALM_SH.ARM k)).on (ALM_SH.FIRED k)).setRegBit TB_EVT (16 + k) true

/-- ALARM_ARM (R295): a write of ALMk_SH; with ARM set the alarm waits for T, and fires at once where T is past. -/
def execAlarmArm (_ : Origin) (k : Fin 4) (v : Word) (s : State) : Res :=
  let s := (s.wr (ALM_SH.SEC_HI k.val) v.toNat).put (ALM_SH.ARM k.val) (v.getLsbD 31)
  if v.getLsbD 31 then
    let s := s.off (ALM_SH.FIRED k.val)
    .next (if s.alarmTime k.val ≤ s.now then s.alarmGo k.val else s)
  else .next s

/-- ALARM_FIRE (R295): device time reaches T of an armed alarm. -/
def execAlarmFire (k : Fin 4) (s : State) : Res :=
  if s.bit (ALM_SH.ARM k.val) then .next ((s.advanceTo (s.alarmTime k.val)).alarmGo k.val) else .next s

/-- The alarms that a step has passed fire (R295). -/
def State.alarmsStep (s : State) : State :=
  (List.range 4).foldl (fun s k => if s.bit (ALM_SH.ARM k) && decide (s.alarmTime k ≤ s.now) then s.alarmGo k else s) s

/-! ## Calendar (R296 to R298) -/

/-- Whether year y is a leap year (R296). -/
def leapYear (y : Nat) : Bool := decide (y % 4 = 0) && (decide (y % 100 ≠ 0) || decide (y % 400 = 0))

/-- The days of month m in year y. -/
def monthDays (y m : Nat) : Nat :=
  match m with
  | 2 => if leapYear y then 29 else 28
  | 4 | 6 | 9 | 11 => 30
  | _ => 31

/-- The days from 1970-01-01 to 1 January of year y, y at least 1970. -/
def yearStart (y : Nat) : Nat := 365 * (y - 1970) + ((y - 1) / 4 - 492) - ((y - 1) / 100 - 19) + ((y - 1) / 400 - 4)

/-- The days from 1970-01-01 to year y, month m, day d. -/
def dayNumber (y m d : Nat) : Nat := yearStart y + ((List.range' 1 (m - 1)).map (monthDays y)).sum + (d - 1)

/-- The year of day n, and the month and day in it: found by trial from the year given. -/
def yearOf (n : Nat) : Nat := (List.range' 2000 400).foldl (fun a y => if yearStart y ≤ n then y else a) 2000

/-- The month of day k of year y, and the day of the month. -/
def monthOf (y : Nat) : Nat → Nat → Nat → Nat × Nat
  | 0, m, k => (m, k + 1)
  | f + 1, m, k => if k < monthDays y m then (m, k + 1) else monthOf y f (m + 1) (k - monthDays y m)

/-- TAI − UTC in seconds. -/
def State.utcOffset (s : State) : Int := (BitVec.ofNat 16 (s.rd TB_UTC.UTC_OFFSET)).toInt

/-- UTC seconds (R296). -/
def State.utc (s : State) : Int := ((s.now / second : Nat) : Int) - s.utcOffset

/-- The UTC day at whose end the announced leap second applies (R297): the current one, whose last second an inserted one still belongs
to, but not before the day that the announcement fixed. -/
def State.leapEnd (s : State) : Nat := max s.time.leapDay ((s.utc - 1) / 86400).toNat

/-- Whether the inserted leap second runs now: the second after the announced day's end, before the offset has risen. -/
def State.inLeap (s : State) : Bool :=
  s.bit TB_UTC.LEAP_INS && !s.bit TB_UTC.LEAP_DEL && s.utc == ((s.leapEnd + 1) * 86400 : Nat)

/-- CAL_DATE and CAL_TIME as they read, and RANGE (R296). -/
def State.calendar (s : State) : Nat × Nat × Bool :=
  let u := (if s.inLeap then s.utc - 1 else s.utc)
  let days := (u / 86400).toNat
  if u < ((10957 * 86400 : Nat) : Int) ∨ yearStart 2400 ≤ days then (0, 0, true)
  else
    let y := yearOf days
    let (m, d) := monthOf y 12 1 (days - yearStart y)
    let r := (u % 86400).toNat
    let sec := if s.inLeap then 60 else r % 60
    (d + m * 0x100 + ((days + 3) % 7 + 1) * 0x1000 + y * 0x10000, sec + r / 60 % 60 * 0x100 + r / 3600 * 0x10000, false)

/-- The UTC day at whose end a leap second announced now applies: the day after in the last two seconds of a day (R297). -/
def State.announceDay (s : State) : Nat :=
  let u := s.utc
  (u / 86400).toNat + (if 86398 ≤ u % 86400 then 1 else 0)

/-- What a write of TB_UTC does beside its store (R297): a bit newly set fixes its day. -/
def State.utcWritten (s : State) (old : Word) : State :=
  if fldOf TB_UTC.LEAP_INS old < s.rd TB_UTC.LEAP_INS ∨ fldOf TB_UTC.LEAP_DEL old < s.rd TB_UTC.LEAP_DEL then { s with time := { s.time with leapDay := s.announceDay } } else s

/-- LEAP_SECOND (R297): the announced leap second is applied at the end of its day; with both bits set neither is. -/
def execLeapSecond (s : State) : Res :=
  let ins := s.bit TB_UTC.LEAP_INS
  let del := s.bit TB_UTC.LEAP_DEL
  let day := s.leapEnd
  let tai (u : Nat) : Nat := ((u : Int) + s.utcOffset).toNat * second
  let done (s : State) (off : Int) : State :=
    let s := s.wr TB_UTC.UTC_OFFSET (off % 0x10000).toNat
    ((s.off TB_UTC.LEAP_INS).off TB_UTC.LEAP_DEL).on TB_EVT.LEAP_DONE
  if ins && del then .next (((s.advanceTo (tai ((day + 1) * 86400))).on TB_EVT.CAL_ERR).wr CAL_STAT.ERR_FIELD 7)
  else if ins then
    .next ((done (s.advanceTo (tai ((day + 1) * 86400 + 1))) (s.utcOffset + 1)).event Ev.LEAP_SECOND [1, day])
  else if del then
    .next ((done (s.advanceTo (tai ((day + 1) * 86400 - 1))) (s.utcOffset - 1)).event Ev.LEAP_SECOND [2, day])
  else .next s

/-- The first field of a calendar pair that fails its check, 0 for none (R298). -/
def calError (y m d h mi se : Nat) : Nat :=
  if y < 2000 ∨ 2399 < y then 1
  else if m = 0 ∨ 12 < m then 2
  else if d = 0 ∨ monthDays y m < d then 3
  else if 23 < h then 4
  else if 59 < mi then 5
  else if 59 < se then 6
  else 0

/-- CALENDAR_SET (R298): a write of CAL_WTIME commits the pair, as a host-port SET submission, or is rejected at its first failing
field. -/
def execCalendarSet (o : Origin) (v : Word) (s : State) : Res :=
  let s := ((s.wr CAL_WTIME.SECOND v.toNat).wr CAL_WTIME.MINUTE (v.toNat / 0x100)).wr CAL_WTIME.HOUR (v.toNat / 0x10000)
  let y := s.rd CAL_WDATE.YEAR
  let m := s.rd CAL_WDATE.MONTH
  let d := s.rd CAL_WDATE.DAY
  let h := s.rd CAL_WTIME.HOUR
  let mi := s.rd CAL_WTIME.MINUTE
  let se := s.rd CAL_WTIME.SECOND
  let e := calError y m d h mi se
  if e = 0 then
    let u : Int := ((dayNumber y m d * 86400 + h * 3600 + mi * 60 + se : Nat) : Int) + s.utcOffset
    .next (s.submit 1 o none (some (.set (u.toNat * second))))
  else .next ((s.on TB_EVT.CAL_ERR).wr CAL_STAT.ERR_FIELD e)

/-! ## Reads -/

/-- TB_SLEW_REM as read: the remaining slew in whole ns. -/
def State.slewRem (s : State) : Word := BitVec.ofInt 32 (s.time.slew.tdiv unit32)

/-- TB_STAT as read (R301); SLEWING is set while TB_SLEW_REM is not 0 (R278). -/
def State.tbStat (s : State) : Word :=
  let v := fldPut TB_STAT.QUALITY (s.reg TB_STAT) s.quality
  let v := fldPut TB_STAT.SLEWING v (s.slewRem != 0).toNat
  fldPut TB_STAT.STEP_PEND v s.time.step.isSome.toNat

/-- The time after a pending step (R279), 0 without one. -/
def State.stepTime (s : State) : Nat := match s.time.step with | some p => ((p.b : Int) + p.theta).toNat | none => 0

end Sys2Proof.Machine
end

