-- ==== Sys2Proof/Machine/RegStore.lean ====
section
/-!
DEFINITION. The plain store of a register write under its field types (R8, R10, R22, R630), with the record of a change to a
configuration-class register (R30), and time counted on the port clock.
-/
namespace Sys2Proof.Machine

/-- The value of a register of row r after a write of v over old (R8): RW bits and unlocked RWL bits take v, W1C bits
written as 1 clear, W1S bits written as 1 set. locked is the bits that a pin lock keeps. -/
def storeValue (r : RegRow) (locked old v : Word) : Word :=
  let w := BitVec.ofNat 32 r.rw ||| (BitVec.ofNat 32 r.rwl &&& ~~~locked)
  let a := (old &&& ~~~w) ||| (v &&& w)
  (a &&& ~~~(v &&& BitVec.ofNat 32 r.w1c)) ||| (v &&& BitVec.ofNat 32 r.w1s)

/-- Whether pin p is locked (R630). -/
def State.pinLocked (s : State) (p : Nat) : Bool := s.regBit (if p < 32 then GP_LOCKED_LO else GP_LOCKED_HI) (p % 32)

/-- The bits of the register at a, now old, that pin locks keep (R630): all of a locked pin's PIN_CFG, and each field of
GP_EXTL_SEL while it selects a locked pin. -/
def State.lockedBits (s : State) (a : Nat) (old : Word) : Word :=
  if PIN_CFG 0 ≤ a ∧ a ≤ PIN_CFG 63 then (if s.pinLocked ((a - PIN_CFG 0) / 4) then 0xFFFFFFFF else 0)
  else if a = GP_EXTL_SEL then
    BitVec.ofNat 32 ((List.range 16).map (fun n =>
      if s.pinLocked (old.toNat / 4 ^ n % 4 * 16 + n) then 3 * 4 ^ n else 0)).sum
  else 0

/-- A write of v to the register at BAR0 address a by origin o under its field types; nothing where no register stands (R10) or
its block does not exist yet (R22). A write to a configuration-class register is recorded (R30), one that a lock keeps
whole is not (R630). -/
def State.regStore (s : State) (o : Origin) (a : Nat) (v : Word) : State :=
  match regRow? a with
  | none => s
  | some r =>
    if s.regExists a then
      let old := s.reg a
      let lock := s.lockedBits a old
      let new := storeValue r lock old v
      let kept := (old ^^^ v) &&& lock &&& BitVec.ofNat 32 r.rwl != 0
      let s := if kept then (s.inc GP_CNT_LOCKWR).on GP_EVT.LOCKED_WR else s
      let s := s.setReg a new
      if r.cfg = 0 ∨ (kept ∧ new = old) then s else s.configWrite o a new old
    else s

/-- The port clock counted forward to tick k, if it has not reached it (log entry 1). -/
def State.runTo (s : State) (k : Nat) : State := if s.time.tick < k then s.elapse (k - s.time.tick) else s

end Sys2Proof.Machine
end

