-- ==== Sys2Proof/Machine/TwOps.lean ====
section
/-!
DEFINITION. Trade-wind tables, slots and cycles (R125 to R131, R148), the two CRCs (R130, R133), and the bus guardian: its
window, blocked attempts, the muzzle (R172 to R181) and what makes a member leave its schedule (R151, R193).
-/
namespace Sys2Proof.Machine

/-! ## Access -/

/-- The schedule of port n. -/
def State.tw (s : State) (n : Nat) : Tw := tabGet Tw.reset s.tws n

/-- The state with x for port n's schedule. -/
def State.setTw (s : State) (n : Nat) (x : Tw) : State := { s with tws := tabPut Tw.reset s.tws n x }

/-- Whether port n runs a trade-wind schedule (R53). -/
def State.twRuns (s : State) (n : Nat) : Bool := s.bit (SP_STAT.FC_IGNORED n)

/-- Mode m of a schedule. -/
def Tw.mode (w : Tw) (m : Nat) : TwMode := tabGet (fun _ => {}) w.modes m

/-- The schedule with x for mode m. -/
def Tw.setMode (w : Tw) (m : Nat) (x : TwMode) : Tw := { w with modes := tabPut (fun _ => {}) w.modes m x }

/-! ## CRCs -/

/-- A running check f taken over bytes from c on, each value found before the next byte. -/
def runBytes {α : Type} (f : Nat → α → Nat) : List α → Nat → Nat
  | [], c => c
  | b :: bs, c => match f c b with | 0 => runBytes f bs 0 | n + 1 => runBytes f bs (n + 1)

/-- One bit of the CRC-16 of R133. -/
def crc16Bit (c : Nat) (b : Bool) : Nat :=
  let x := 2 * c % 0x10000
  if (decide (0x8000 ≤ c)) != b then Nat.xor x 0x1021 else x

/-- The CRC-16 of R133 over bytes. -/
def crc16 (bs : List Nat) : Nat :=
  runBytes (fun c b => [7, 6, 5, 4, 3, 2, 1, 0].foldl (fun c i => crc16Bit c (b.testBit i)) c) bs 0xFFFF

/-- One bit of the reflected CRC-32C. -/
def crc32cBit (c : Nat) : Nat := if c % 2 = 1 then Nat.xor (c / 2) 0x82F63B78 else c / 2

/-- The running CRC-32C c after byte b. -/
def crc32cByte (c b : Nat) : Nat := (List.range 8).foldl (fun c _ => crc32cBit c) (Nat.xor c (b % 256))

/-- CRC-32C over bytes. -/
def crc32c (bs : List Nat) : Nat := Nat.xor (runBytes crc32cByte bs 0xFFFFFFFF) 0xFFFFFFFF

/-- The n bytes of x, least significant first (R12). -/
def leBytes (x : Nat) : Nat → List Nat
  | 0 => []
  | n + 1 => x % 256 :: leBytes (x / 256) n

/-- The n bytes of x, most significant first (R132). -/
def beBytes (x n : Nat) : List Nat := (leBytes x n).reverse

/-! ## Tables (R128 to R130) -/

def TwEntry.start (e : TwEntry) : Nat := e.d0.toNat
def TwEntry.len (e : TwEntry) : Nat := e.d1.toNat
def TwEntry.owner (e : TwEntry) : Nat := e.d2.toNat % 256
def TwEntry.rawKind (e : TwEntry) : Nat := e.d2.toNat / 256 % 8
def TwEntry.qsel (e : TwEntry) : Bool := e.d2.getLsbD 12
def TwEntry.en (e : TwEntry) : Bool := e.d2.getLsbD 15
def TwEntry.qid (e : TwEntry) : Nat := e.d2.toNat / 0x10000

/-- KIND as it acts (R128): 7, and DATA of owner 0xFF, act as GAP. -/
def TwEntry.kind (e : TwEntry) : Nat :=
  if e.rawKind = 7 ∨ (e.rawKind = 2 ∧ e.owner = 0xFF) then 0 else e.rawKind

/-- An entry that is not in use. -/
def noEntry (_ : Nat) : TwEntry := {}

/-- Entry e of a table. -/
def TwTable.entry (t : TwTable) (e : Nat) : TwEntry := tabGet noEntry t.entries e

/-- The entries of a table that run, with their numbers. -/
def TwTable.slots (t : TwTable) : List (Nat × TwEntry) := t.entries.filter (fun e => e.2.en && e.2.len != 0)

/-- The bytes of 64 entries in entry layout (R130). -/
def TwTable.bytes (t : TwTable) : List Nat :=
  (List.range 64).flatMap (fun e =>
    let x := t.entry e
    leBytes x.d0.toNat 4 ++ leBytes x.d1.toNat 4 ++ leBytes x.d2.toNat 4 ++ leBytes 0 4)

/-- TW_TCRC of a table (R130). -/
def TwTable.crc (t : TwTable) : Word := BitVec.ofNat 32 (crc32c t.bytes)

/-- The first SYNC entry of a table. -/
def TwTable.sync (t : TwTable) : Option TwEntry := (t.slots.find? (fun e => decide (e.2.kind = 1))).map (·.2)

/-- The first interval of [a, b) that the intervals cov, sorted by start, leave free (R130). -/
def firstFree (a b : Nat) : List (Nat × Nat) → Option (Nat × Nat)
  | [] => if a < b then some (a, b) else none
  | (x, y) :: r =>
    if b ≤ a then none
    else if y ≤ a then firstFree a b r
    else if b ≤ x then some (a, b)
    else if a < x then some (a, x)
    else firstFree y b r

/-- Interval i put into intervals sorted by start. -/
def insertIv (i : Nat × Nat) : List (Nat × Nat) → List (Nat × Nat)
  | [] => [i]
  | j :: r => if i.1 ≤ j.1 then i :: j :: r else j :: insertIv i r

/-- What the building of a run copy has reached: the run entries, the time covered, whether a SYNC entry is kept, and the clipped
entries as a bit map. -/
structure RunBuild where
  entries : Tab TwEntry := []
  cover : List (Nat × Nat) := []
  sync : Bool := false
  clip : Nat := 0
  deriving DecidableEq, Repr

/-- Entry e, x joins the run copy of a mode of length len (R130). -/
def RunBuild.add (b : RunBuild) (len e : Nat) (x : TwEntry) : RunBuild :=
  if x.en = false then b
  else
    let stop := min (x.start + x.len) len
    let piece := if x.len = 0 ∨ len ≤ x.start then none else firstFree x.start stop b.cover
    match piece with
    | none => { b with clip := b.clip + 2 ^ e }
    | some (p, q) =>
      let demoted := decide (x.rawKind = 1) && b.sync
      let y : TwEntry := {
        d0 := BitVec.ofNat 32 p, d1 := BitVec.ofNat 32 (q - p)
        d2 := if demoted then x.d2 &&& 0xFFFFF8FF else x.d2 }
      let same := p == x.start && q == x.start + x.len && !demoted
      { entries := tabPut noEntry b.entries e y, cover := insertIv (p, q) b.cover
        sync := b.sync || decide (x.rawKind = 1), clip := if same then b.clip else b.clip + 2 ^ e }

/-- The run copy that an edit copy gives, with its clipped entries (R130). -/
def buildRun (edit : Tab TwEntry) (cyc guard : Nat) : TwTable × Nat :=
  let len := max 10000 cyc
  let b := edit.foldl (fun b e => b.add len e.1 e.2) ({} : RunBuild)
  ({ entries := b.entries, len := len, guard := guard }, b.clip)

/-! ## Cycles and slots -/

/-- The time in device time of offset o of a cycle (R126, R148, R150): C_k + round(o × r). -/
def TwCycle.at_ (c : TwCycle) (o : Nat) : Nat := c.start + (2 * o * c.num + c.den) / (2 * max 1 c.den)

/-- The start, the end and the next cycle's start. -/
def TwCycle.slotStart (c : TwCycle) (e : TwEntry) : Nat := c.at_ e.start
def TwCycle.slotEnd (c : TwCycle) (e : TwEntry) : Nat := c.at_ (e.start + e.len)
def TwCycle.fin (c : TwCycle) : Nat := c.at_ c.table.len

/-- COMMIT_NS; below 200 acts as 200 (R140). -/
def State.commitNs (s : State) (n : Nat) : Nat := max 200 (s.rd (TW_COMMIT.COMMIT_NS n))

/-- Whether an entry is an own slot of a node (R129), where rot tells that a DELAY_REQ addressed to it has been accepted in the
cycle. -/
def ownSlot (role : Bool) (addr : Nat) (rot : Bool) (e : TwEntry) : Bool :=
  match e.kind with
  | 1 => role
  | 2 => addr != 0xFF && e.owner == addr
  | 3 => role
  | 4 => !role && addr != 0xFF && (e.owner == addr || (e.owner == 0xFF && rot))
  | 5 => role
  | 6 => addr != 0xFF
  | _ => false

/-- Whether entry e is an own slot of the port in its running cycle. -/
def Tw.owns (w : Tw) (e : TwEntry) : Bool := ownSlot w.role w.addr w.cyc.req.isSome e

/-- The tick of the port clock at device time t, ahead of now or behind. -/
def State.tickOf (s : State) (t : Nat) : Nat := if s.now ≤ t then s.time.tick + (t - s.now) else s.time.tick - (s.now - t)

/-- The device time of tick k. -/
def State.timeOfTick (s : State) (k : Nat) : Nat := if s.time.tick ≤ k then s.now + (k - s.time.tick) else s.now - (s.time.tick - k)

/-- The expected set of a table (R155), in ascending order: owners of DATA and DELAY_RESP entries but 0xFF, the first node and those
that TW_ACK_EXCL excludes. -/
def State.expected (s : State) (n : Nat) (t : TwTable) : List Nat :=
  let owners := (t.slots.filter (fun e => decide (e.2.kind = 2) || decide (e.2.kind = 4))).map (·.2.owner)
  (List.range 255).filter (fun a =>
    owners.contains a && a != (s.tw n).addr && !s.regBit (TW_ACK_EXCL n (a / 32)) (a % 32))

/-- The target of cycle k (R157). -/
def State.cycleTarget (s : State) (n : Nat) (t : TwTable) (k : Nat) : Option Nat :=
  let x := s.expected n t
  if x.isEmpty then none else some (x.getD (k % x.length) 0)

/-! ## The guardian's copies (R173 to R175) -/

/-- Copy m of a guardian. -/
def Guardian.copy (g : Guardian) (m : Nat) : TwTable := tabGet (fun _ => {}) g.copies m

/-- The guardian with x as copy m. -/
def Guardian.setCopy (g : Guardian) (m : Nat) (x : TwTable) : Guardian := { g with copies := tabPut (fun _ => {}) g.copies m x }

/-- The CRC-32C over the whole copy (R175). -/
def Guardian.whole (g : Guardian) : Word :=
  BitVec.ofNat 32 (crc32c ([0, 1, 2, 3].flatMap (fun m =>
    (g.copy m).bytes ++ leBytes (g.copy m).len 4 ++ leBytes (g.copy m).guard 4) ++ [g.addr, g.role.toNat]))

/-- The state with x for port n's guardian. -/
def State.setGuard (s : State) (n : Nat) (x : Guardian) : State := s.setTw n { s.tw n with guard := x }

/-! ## The line mode and DE (R46, R48) -/

/-- LINE_MODE in force for transmission; 3 acts as 2 (R46). -/
def State.lineMode (s : State) (n : Nat) : Nat := min 2 ((s.port n).txFmt.line.toNat % 4)

/-- RE_MODE in force (R46): 3 acts as 2, and outside LINE_MODE 2 1 acts as 0. -/
def State.reMode (s : State) (n : Nat) : Nat :=
  let m := min 2 ((s.port n).txFmt.line.toNat / 4 % 4)
  if m = 1 ∧ s.lineMode n ≠ 2 then 0 else m

/-- What leaves for a pad of port n: nothing in LOOPBACK (R73). -/
def State.toPad (s : State) (n : Nat) (o : Out) : State := if s.bit (SP_CTRL.LOOPBACK n) then s else s.emit o

/-- The port's request for DE falls at this tick, and the pad with it; the receive mask lasts RXMASK longer (R48). -/
def State.dropDe (s : State) (n : Nat) : State :=
  let p := s.port n
  let m := p.rxFmt.line.toNat / 0x10000 % 0x1000
  let shown := !s.twRuns n || (s.tw n).gate.2
  let s := s.setPort n { p with
    de := false, deHold := none, heldAt := none, deFor := none
    maskEnd := if p.masked then some (s.time.tick + m) else p.maskEnd }
  let s := if s.twRuns n then s.setTw n { s.tw n with gate := (s.time.tick, false) } else s
  if shown then s.toPad n (.de n s.time.tick false) else s

/-! ## Run copies that take effect (R130, R131, R173, R174) -/

/-- The run copy t of mode m takes effect, with its clipped entries (R130, R131). -/
def State.applyTable (s : State) (n m : Nat) (t : TwTable) (clip : Nat) : State :=
  let w := s.tw n
  let s := s.setTw n (w.setMode m { w.mode m with run := t, pend := none })
  let s := (s.setReg (TW_TCLIP n (2 * m)) (BitVec.ofNat 32 clip)).setReg (TW_TCLIP n (2 * m + 1)) (BitVec.ofNat 32 (clip / 0x100000000))
  if clip = 0 then s else s.on (TW_EVT.TABLE_CLIPPED n)

/-- A shadow of mode m that has passed its check becomes the guardian's copy (R173). -/
def State.copyTake (s : State) (n m : Nat) (t : TwTable) : State :=
  let g := (s.tw n).guard
  let g := { g with loads := tabPut (fun _ => none) g.loads m none }
  let g := { g.setCopy m t with valid := if g.valid.contains m then g.valid else m :: g.valid }
  (s.setReg (GD_CRC n m) t.crc).setGuard n { g with ref := g.whole }

/-- DEDUCED (log entry 164): a commit that still waits when the cycles of its mode end is copied then, since the mode no longer runs (R131); a
shadow whose check is done is taken with it, and one whose check still runs leaves the mode without a valid copy until it is done. -/
def State.haltCommits (s : State) (n : Nat) : State :=
  (List.range 4).foldl (fun s m =>
    match ((s.tw n).mode m).pend with
    | some (t, clip, _) =>
      let s := s.applyTable n m t clip
      match tabGet (fun _ => none) (s.tw n).guard.loads m with
      | some (t, 0) => s.copyTake n m t
      | _ => s.setGuard n { (s.tw n).guard with valid := (s.tw n).guard.valid.filter (· != m) }
    | none => s) s

/-! ## Leaving (R151, R193) -/

/-- The causes of LEAVE_CAUSE (R193). -/
def leaveSyncLost : Nat := 1
def leaveBusDead : Nat := 2
def leaveMuzzled : Nat := 3
def leaveMode : Nat := 4
def leaveSwitch : Nat := 5
def leaveClock : Nat := 6
def leaveRestart : Nat := 7
def leaveObserve : Nat := 8
def leaveSkew : Nat := 9

/-- Whether DE is up for a frame whose start edge is still to come. -/
def Tw.raised (w : Tw) : Bool := match w.sending with | some b => b.up | none => false

/-- The frame on the line has ended or been cut (R143, R146, R178): a payload that was blocked, that a collision keeps, or that keep tells to
keep, waits for its queue's next own slot, ahead of what waits there already. -/
def Tw.endFrame (w : Tw) (keep : Bool) : Tw :=
  match w.sending with
  | none => { w with chars := [] }
  | some b =>
    let again := b.queue.isSome && (b.blocked || b.again || keep)
    { w with
      chars := [], sending := none, sent := if again then none else some b
      bufs := if again then { b with kept := true, blocked := false, again := false, up := false } :: w.bufs else w.bufs }

/-- Port n's cycle ends for good: nothing of it is pending, and the guardian is unanchored (R176). A request for DE whose start edge has
not left is withdrawn. MISS, WITHHOLD and a DELAY that waits are kept (R159, R182). Buffered payloads wait for a later slot. -/
def State.haltCycle (s : State) (n : Nat) : State :=
  let s := s.haltCommits n
  let s := if (s.tw n).raised then (s.dropDe n).setTw n (((s.dropDe n).tw n).endFrame true) else s
  let w := s.tw n
  let g := w.guard
  s.setTw n { w with
    cyc := { k := w.cyc.k, mode := w.cyc.mode }, prev := none, joining := false, badSync := false, withholdNext := false, good := 0
    lastSync := w.lastSync.map (fun x => (x.1, x.2.1, none, x.2.2.2))
    request := none, heldSwitch := none, decided := none, announced := none, awaitSync := false
    waiting := [], bufs := w.bufs.filterMap (fun b => if b.queue.isSome then some { b with kept := true } else none)
    guard := { g with anchored := false, predicted := false, stepped := false, rot := false, keep := 0 } }

/-- A member in OBSERVE or JOINED leaves for LISTEN (R151), up to what its guardian does about a frame on the line. -/
def State.leavePhase (s : State) (n cause : Nat) : State :=
  let w := s.tw n
  if w.role ∨ (w.phase ≠ .observe ∧ w.phase ≠ .joined) then s
  else
    let s := s.wr (SF_STAT.LEAVE_CAUSE n) cause
    let s := if w.phase = .joined then (s.on (TW_EVT.LEFT n)).event Ev.TW_LEAVE [n, cause] else s
    let s := s.haltCycle n
    s.setTw n { s.tw n with phase := .listen, from_ := s.now }

/-! ## The muzzle (R179 to R181) -/

/-- The source GUARDIAN_TRIP of port n (R533). -/
def guardianTrip (n : Nat) : Nat := 2026 + n

/-- The guardian of port n muzzles it (R179, R180), up to a frame on the line: a second cause replaces the first. A wait for UNMUZZLE goes
on (R181; log entry 139). -/
def State.muzzleSet (s : State) (n cause : Nat) : State :=
  let g := (s.tw n).guard
  let s := s.setGuard n { g with muzzled := true, cause := cause }
  let s := if g.muzzled then s else ((s.inc (SF_CNT_MUZZLE n)).on (SF_EVT.MUZZLED n)).fire (guardianTrip n)
  let s := s.event Ev.TW_MUZZLED [n, cause]
  if (s.tw n).phase = .joined then s.leavePhase n leaveMuzzled else s

/-- The muzzle ends (R181). -/
def State.endMuzzle (s : State) (n : Nat) : State :=
  let s := s.setGuard n { (s.tw n).guard with muzzled := false, cause := 0, unmuzzle := false, hist := [] }
  (s.on (SF_EVT.UNMUZZLED n)).event Ev.TW_UNMUZZLED [n]

/-- BLOCK_LIM and BLOCK_WIN; 0 acts as 3 and as 16 (R191). -/
def State.blockLim (s : State) (n : Nat) : Nat := if s.rd (GD_CTRL.BLOCK_LIM n) = 0 then 3 else s.rd (GD_CTRL.BLOCK_LIM n)
def State.blockWin (s : State) (n : Nat) : Nat := if s.rd (GD_CTRL.BLOCK_WIN n) = 0 then 16 else s.rd (GD_CTRL.BLOCK_WIN n)

/-- Blocked attempts in the current cycle and the BLOCK_WIN − 1 before it. -/
def State.blockHist (s : State) (n : Nat) : Nat := ((s.tw n).guard.hist.take (s.blockWin n)).sum

/-! ## The window (R177) -/

/-- The windows of a guardian in the cycle that starts at tick g, in ticks: [from, to). -/
def Guardian.windowsAt (x : Guardian) (g : Nat) (rot : Bool) : List (Nat × Nat) :=
  let t := x.copy x.mode
  (t.slots.filter (fun e => ownSlot x.role x.addr rot e.2)).map
    (fun e => (g + e.2.start - t.guard, g + e.2.start + e.2.len + t.guard))

/-- The predicted next cycle start (R176). -/
def Guardian.next (x : Guardian) : Nat := x.g + (x.copy x.mode).len

/-- The windows of this cycle and of the predicted next. -/
def Guardian.windows (x : Guardian) : List (Nat × Nat) := x.windowsAt x.g x.rot ++ x.windowsAt x.next false

/-- Whether the window is open at tick k (R177). -/
def Guardian.openAt (x : Guardian) (k : Nat) : Bool :=
  x.anchored && !x.muzzled && x.valid.contains x.mode
    && (decide (k < x.keep) || x.windows.any (fun i => decide (i.1 ≤ k) && decide (k < i.2)))

/-- The tick up to which the window that is open at tick k stays open; windows that overlap merge. -/
def Guardian.openUntil (x : Guardian) (k : Nat) : Nat :=
  let ws := (0, x.keep) :: x.windows
  (List.range (ws.length + 1)).foldl (fun e _ => ws.foldl (fun e i => if i.1 ≤ e ∧ e < i.2 then i.2 else e) e) k

/-- Number a put into a list of rising numbers. -/
def insertNat (a : Nat) : List Nat → List Nat
  | [] => [a]
  | b :: r => if a < b then a :: b :: r else if a = b then b :: r else b :: insertNat a r

/-- The ticks between a and b at which a window begins or ends, rising. -/
def Guardian.edgesIn (x : Guardian) (a b : Nat) : List Nat :=
  ((x.keep :: x.windows.flatMap (fun i => [i.1, i.2])).filter (fun k => decide (a < k) && decide (k < b))).foldr insertNat []

/-- A blocked attempt of port n at tick k (R178). -/
def State.blockedAt (s : State) (n k : Nat) : State :=
  let g := (s.tw n).guard
  let ph := k - g.g
  let t := g.copy g.mode
  let e := t.slots.find? (fun e => decide (e.2.start ≤ ph) && decide (ph < e.2.start + e.2.len))
  let s := (s.inc (SF_CNT_BLOCKED n)).on (SF_EVT.BLOCKED n)
  let s := s.setReg (GD_BLK_NS n) (BitVec.ofNat 32 ph)
  let s := s.setReg (GD_BLK_INFO n) (BitVec.ofNat 32
    (g.k % 0x10000 + (match e with | some x => x.1 * 0x10000 | none => 0x400000)))
  let s := s.event Ev.TW_BLOCKED [n, ph, g.k, match e with | some x => x.1 | none => 64]
  let w := s.tw n
  let h := match w.guard.hist with | [] => [1] | a :: r => (a + 1) :: r
  let s := s.setTw n { w with
    guard := { w.guard with hist := h }, sending := w.sending.map (fun b => { b with blocked := true }) }
  if s.blockLim n ≤ s.blockHist n then s.muzzleSet n 1 else s

/-- DE at the pad follows the guardian's window at tick k (R177); a request that is still high when the window closes is a blocked attempt,
counted once (R178). -/
def State.gateTo (s : State) (n k : Nat) : State :=
  let w := s.tw n
  let op := w.guard.openAt k
  let s := s.setTw n { w with gate := (k, op) }
  let blocked : Bool := match w.sending with | some b => b.blocked | none => false
  if op = w.gate.2 then s
  else
    let s := s.toPad n (.de n k op)
    if op ∨ blocked then s else s.blockedAt n k

/-- The window as it is applies to port n's request up to now (R177). -/
def State.followGate (s : State) (n : Nat) : State :=
  if s.twRuns n ∧ (s.port n).de then
    ((s.tw n).guard.edgesIn (s.tw n).gate.1 s.time.tick).foldl (fun s k => s.gateTo n k) s
  else s

/-- The window may have changed at this tick (R176 to R178). -/
def State.gateNow (s : State) (n : Nat) : State := if s.twRuns n ∧ (s.port n).de then s.gateTo n s.time.tick else s

/-- The guardian of port n muzzles it at this tick (R178 to R180). -/
def State.muzzle (s : State) (n cause : Nat) : State := ((s.followGate n).muzzleSet n cause).gateNow n

/-- A member in OBSERVE or JOINED leaves for LISTEN at this tick (R151, R176, R178). -/
def State.leave (s : State) (n cause : Nat) : State := ((s.followGate n).leavePhase n cause).gateNow n

/-- DE of port n falls at this tick (R47). -/
def State.lowerDe (s : State) (n : Nat) : State := (s.followGate n).dropDe n

/-- The port withdraws its request at this tick: the frame ends, and its payload waits. -/
def State.withdraw (s : State) (n : Nat) : State :=
  let s := s.lowerDe n
  s.setTw n ((s.tw n).endFrame true)

/-- DE of port n rises at this tick; with RE_MODE 1 the receive mask opens (R48). On a running schedule the guardian's window gates the pad,
and a request outside it is a blocked attempt (R177, R178). -/
def State.raiseDe (s : State) (n : Nat) : State :=
  let p := s.port n
  let s := s.setPort n { p with
    de := true, deRise := s.time.tick, heldAt := none, deFor := none
    masked := p.masked || (s.reMode n == 1 && !s.bit (SP_CTRL.LOOPBACK n)) }
  if s.twRuns n then
    let op := (s.tw n).guard.openAt s.time.tick
    let s := s.setTw n { s.tw n with gate := (s.time.tick, op) }
    if op then s.toPad n (.de n s.time.tick true) else s.blockedAt n s.time.tick
  else s.toPad n (.de n s.time.tick true)

/-- Whether the pad of port n may show DE now (R49, R177): a port that runs no schedule is not gated. -/
def State.deGate (s : State) (n : Nat) : Bool := !s.twRuns n || (s.tw n).guard.openAt s.time.tick

/-! ## The slot audit (R28, R254) -/

/-- Whether a table gives no time to two entries. -/
def TwTable.disjoint (t : TwTable) : Bool :=
  let xs := t.slots.map (·.2)
  xs.all (fun a => (xs.filter (fun b => decide (a.start < b.start + b.len) && decide (b.start < a.start + a.len))).length == 1)

/-- The ledger's audit of slot ownership on port n (R28, R254): no slot time has two owners, and the guardian counts the same own
slots as the port. A mode whose guardian copy is not valid has no window and is not compared. -/
def State.slotAudit (s : State) (n : Nat) : Bool :=
  let w := s.tw n
  let m := w.cyc.mode
  let own (role : Bool) (addr : Nat) (t : TwTable) : Nat := (t.slots.filter (fun e => ownSlot role addr true e.2)).length
  w.phase == .off || (w.cyc.table.disjoint && (!w.guard.valid.contains m
    || own w.role w.addr w.cyc.table == own w.guard.role w.guard.addr (w.guard.copy m)))

/-- SLOT_FORFEIT (R28): the port forfeits all its own slots and holds DE low until the audit passes at a cycle boundary; a frame on the line
is cut, and its payload waits. -/
def State.forfeit (s : State) (n : Nat) : State :=
  if (s.tw n).forfeit then s
  else
    let s := if s.twRuns n ∧ (s.port n).de then s.withdraw n else s
    (s.setTw n { s.tw n with forfeit := true }).giveWay Ev.SLOT_FORFEIT 2 1 1 n

/-! ## Slot buffers (R144 to R146, R178) -/

/-- Whether a buffer holds a payload, and so is one of the 4 (R144). -/
def SlotBuf.counts (b : SlotBuf) : Bool := decide (b.kind = 2) || decide (b.kind = 6)

/-- The payload words of a slot buffer. -/
def SlotBuf.words (b : SlotBuf) : Nat := b.payload.length

/-- The occupied slot buffers. -/
def Tw.occupied (w : Tw) : Nat := (w.bufs.filter SlotBuf.counts).length + (match w.sending with | some b => b.counts.toNat | none => 0)

/-- What a collision does with the payload of b (R146): kept with COLL_ACTION 1, otherwise discarded. -/
def State.collided (s : State) (n : Nat) (b : SlotBuf) : SlotBuf :=
  if s.bit (SP_ECHO.COLL_ACTION n) then { b with again := true } else { b with payload := [], queue := none }

/-- A collision on the character of echo window e in an own slot (R146, R178): the frame ends after the current character. A blocked frame
declares none. With COLL_ACTION 0 its payload words are discarded and counted, with 1 they are kept. The window of a last character may
close when DE has fallen; the collision is then that frame's. -/
def State.twCollide (s : State) (n : Nat) (e : Echo) : State :=
  let declared (s : State) (b : SlotBuf) : State :=
    let s := ((s.inc (SP_CNT_COLL n)).on (SP_EVT.COLLISION n)).event Ev.COLLISION [n, e.chr]
    if s.bit (SP_ECHO.COLL_ACTION n) then s else s.incBy (SP_CNT_COLLDISC n) b.words
  let w := s.tw n
  let now : Bool := w.sending.isSome && decide ((s.port n).deRise ≤ e.tick)
  match if now then w.sending else w.sent with
  | none => s
  | some b =>
    if b.blocked then s
    else
      let s := declared s b
      let b' := s.collided n b
      if now then s.setTw n { s.tw n with sending := some b', chars := [] }
      else s.setTw n { s.tw n with
        sent := some { b' with payload := [], queue := none, again := false }
        bufs := if b'.again && b'.queue.isSome then { b' with kept := true, again := false, up := false } :: (s.tw n).bufs
          else (s.tw n).bufs }

/-! ## Open transmit packets (R142) -/

/-- The open packets of port n whose queues satisfy f end: their fragments in slot buffers are discarded and counted, and nothing more of them
is sent. -/
def State.endOpen (s : State) (n : Nat) (f : Nat → Bool) : State :=
  let w := s.tw n
  let gone (b : SlotBuf) : Bool := b.part && (match b.queue with | some q => f q | none => false)
  let lost := ((w.bufs.filter gone).map SlotBuf.words).sum
  (s.setTw n { w with
    bufs := w.bufs.filter (fun b => !gone b), openTx := w.openTx.filter (fun q => !f q)
    frags := w.frags.filter (fun e => !f e.1) }).incBy (TW_CNT_STOPDISC n) lost

/-- Queue q no longer serves port n's slots, or is aborted: its open packet ends (R142). -/
def State.twRebound (s : State) (n : Nat) (q : Option Nat) : State :=
  match q with
  | some q => if (s.tw n).openTx.contains q ∨ (s.tw n).bufs.any (fun b => b.part && b.queue == some q) then s.endOpen n (· == q) else s
  | none => s

/-! ## A start edge before an OPEN frame (R145) -/

/-- A start edge while DE is up for an OPEN frame whose own start edge is still to come: DE falls at once, without DE_POST, and the port
defers. -/
def State.openEdge (s : State) (n : Nat) : State :=
  match (s.tw n).sending with
  | some b =>
    if b.up ∧ b.kind = 6 then (s.withdraw n).inc (TW_CNT_OPEN_DEFER n) else s
  | none => s

end Sys2Proof.Machine
end

