-- ==== Sys2Proof/Machine/Serial.lean ====
section
/-!
DEFINITION. Serial ports, receiving: rate and format (R39 to R45), the vote (R36 to R38), echo checking (R54), flow control
characters (R52), addresses and frames (R90 to R97), packets, the gap and the held item (R98 to R100), items and stamps (R62 to
R64, R101 to R104), breaks (R57, R58), auto-detection (R60, R61) and the meanings of these commands.
-/
namespace Sys2Proof.Machine

/-! ## Rate and format -/

/-- The oversampling ratio of an OSR code (R39, R76). -/
def osrOf (c : Nat) : Nat := match c with | 1 => 8 | 2 => 4 | _ => 16

/-- The divisor of DIV at a PRE code, in 2^−16 ns (R39). -/
def divOf (div pre : Nat) : Nat := div * 4 ^ pre

/-- The effective divisor, in 2^−16 ns (R40). -/
def clampDiv (osr d : Nat) : Nat := max d (max 65536 (655360 / osr))

/-- The oversampling ratio in use at port n. -/
def State.osr (s : State) (n : Nat) : Nat := osrOf (s.rd (SP_STAT.OSR_ACT n))

/-- D of port n's active rate, in 2^−16 ns. -/
def State.div (s : State) (n : Nat) : Nat := divOf (s.reg (SP_BAUD_ACT n)).toNat (s.rd (SP_STAT.PRE_ACT n))

/-- D_eff of port n (R40), in 2^−16 ns. -/
def State.dEff (s : State) (n : Nat) : Nat := clampDiv (s.osr n) (s.div n)

/-- The bit time of port n, in 2^−16 ns. -/
def State.bitTime (s : State) (n : Nat) : Nat := s.osr n * s.dEff n

/-- A character format: data bits, parity code (0 none), stop time in half bits, bit order. -/
structure CharFmt where
  bits : Nat
  parity : Nat
  halves : Nat
  msb : Bool
  deriving DecidableEq, Repr

/-- The format that SP_FRAME value v gives (R44). -/
def frameFmt (v : Word) : CharFmt :=
  let b := v.toNat % 16
  let p := v.toNat / 16 % 8
  { bits := min 9 (max 5 b)
    parity := if 4 < p then 0 else p
    halves := match v.toNat / 256 % 4 with | 0 => 2 | 1 => 3 | _ => 4
    msb := v.getLsbD 10 }

/-- The bits of a frame from the start bit to the first stop bit (R38). -/
def CharFmt.len (f : CharFmt) : Nat := 2 + f.bits + (if f.parity = 0 then 0 else 1)

/-- The parity bit over data value v (R38, R44). -/
def parityBit (parity bits v : Nat) : Bool :=
  let ones := ((List.range bits).filter (fun i => v.testBit i)).length
  match parity with
  | 1 => ones % 2 == 1
  | 2 => ones % 2 == 0
  | 3 => true
  | _ => false

/-- SP_FRAME and SP_LINE as they act: as written, or while a schedule runs 9 data bits, no parity, 1 stop bit, LSB first, and
LINE_MODE 2 (R124). -/
def State.lineRegs (s : State) (n : Nat) : LineFmt :=
  if s.twRuns n then { frame := 9, line := fldPut (SP_LINE.LINE_MODE n) (s.reg (SP_LINE n)) 2 }
  else { frame := s.reg (SP_FRAME n), line := s.reg (SP_LINE n) }

/-- A port's receive frame length (R38). -/
def State.rxLen (s : State) (n : Nat) : Nat := (frameFmt (s.port n).rxFmt.frame).len

/-- The delay from the pin to the line logic: the synchroniser's 3 ns and RX_FILT (R34). -/
def State.lag (s : State) (n : Nat) : Nat := 3 + (s.port n).rxFmt.line.toNat / 4096 % 16

/-- The stamp of an edge seen at this tick, in device time and on the port clock (R34). -/
def State.edgeNow (s : State) (n : Nat) : Nat × Nat := (s.now - s.lag n, s.time.tick - s.lag n)

/-- The first tick at or after k plus x of 2^−16 ns. -/
def tickAfter (k x : Nat) : Nat := k + divUp x 65536

/-- ECHO_BLIND (R56). -/
def State.echoBlind (s : State) (n : Nat) : Bool := s.bit (SP_ECHO.ECHO_EN n) && s.reMode n != 0

/-! ## Bindings and the holding buffer (R69, R85, R86) -/

/-- The queue that a binding register names, if it is bound. -/
def State.boundQueue (s : State) (a : Nat) : Option Nat :=
  let v := s.reg a
  let q := v.toNat % 0x10000
  if v.getLsbD 31 && (s.queue q).ex then some q else none

/-- The items that hold places of the holding buffer: not break items, which have their own, and the held item (R69, R100). -/
def Port.holdLevel (p : Port) : Nat :=
  min 8 ((p.hold.filter (fun i => decide (i.kind = .chr))).length + p.held.isSome.toNat)

/-- Port n put back after a change of what it holds: HOLD_FULL and the stop conditions follow (R50). -/
def State.putHold (s : State) (n : Nat) (p : Port) : State :=
  ((s.setPort n p).put (SP_STAT.HOLD_FULL n) (p.holdLevel == 8)).updateFlow n

/-- The push of ws to queue k as one whole where the queue is in STOP mode (R104), whatever its size. -/
def State.pushTogether (s : State) (k : Nat) (ws : List QWord) : PushRes × State :=
  if s.runs .core ∧ (s.queue k).ex ∧ (s.queue k).cfg.mode = 0 then s.pushWhole k ws else s.push k ws

/-- A stamp record of port n for the queue that binding register a names (R102, R104). DEDUCED (log entry 172): one made while CORE stands
still is dropped and counted. -/
def State.pushRecord (s : State) (n a t kind seq : Nat) : State :=
  match s.boundQueue a with
  | none => s
  | some q =>
    match s.pushTogether q (stampRecord t kind seq) with
    | (.refused, s') => (s'.inc (SP_CNT_STAMPDROP n)).on (SP_TEVT.STAMP_DROP n)
    | (_, s') => s'

/-- KIND of a receive item (R103). -/
def PortItem.code (i : PortItem) : Nat :=
  match i.kind with
  | .breakStart => 3
  | .breakEnd => 4
  | .chr => if i.addr then 1 else if i.first then 0 else 2

/-- Whether SP_RXSTAMP_CFG.MODE m selects item i (R101). -/
def PortItem.stamped (i : PortItem) (m : Nat) : Bool :=
  match m with
  | 0 => false
  | 1 => i.first || decide (i.kind ≠ .chr)
  | 2 => i.addr || decide (i.kind ≠ .chr)
  | _ => true

/-- The stamp of an accepted item: the registers and the record (R101). -/
def State.rxStamp (s : State) (n : Nat) (i : PortItem) (seq : Nat) : State :=
  if i.stamped (s.rd (SP_RXSTAMP_CFG.MODE n)) then
    let s := s.setStamp (SP_RXSTAMP_NS n) (SP_RXSTAMP_SL n) (SP_RXSTAMP_SH n) i.stamp
    let s := s.wr (SP_RXSTAMP_SH.SEQ n) (s.rd (SP_RXSTAMP_SH.SEQ n) + 1)
    s.pushRecord n (SP_QSTAMP_RX n) i.stamp i.code seq
  else s

/-- Item i's first word has been accepted, and c words of it in all: counted and stamped (R84, R101, R102). -/
def State.itemPushed (s : State) (n : Nat) (i : PortItem) (c : Nat) : State :=
  let seq := (s.reg (SP_RX_SEQ n)).toNat
  ((s.inc (SP_CNT_RXCHAR n)).setReg (SP_RX_SEQ n) (BitVec.ofNat 32 (seq + c))).rxStamp n i seq

/-- The words ws pushed to queue k one by one (R217): which of them it accepted. -/
def State.pushEach (s : State) (k : Nat) : List QWord → List Bool × State
  | [] => ([], s)
  | w :: ws =>
    let (r, s) := s.push k [w]
    let (l, s) := s.pushEach k ws
    (decide (r = .accepted) :: l, s)

/-- Item i offered to the receive queue (R86, R101, R102): counted as unbound, refused by the queue, or accepted. One that is larger
than the queue goes word by word, and its first word stands for it (R217, log entry 154). -/
def State.offerItem (s : State) (n : Nat) (i : PortItem) : State :=
  match (if i.queue.isSome then i.queue else s.rxQueue n) with
  | none => (s.inc (SP_CNT_UNBOUND n)).on (SP_TEVT.UNBOUND n)
  | some q =>
    if s.runs .core ∧ (s.queue q).ex ∧ (s.queue q).cfg.cap < i.words.length then
      let (l, s) := s.pushEach q i.words
      let c := l.countP id
      if l.headD false then s.itemPushed n i c
      else s.setReg (SP_RX_SEQ n) (BitVec.ofNat 32 ((s.reg (SP_RX_SEQ n)).toNat + c))
    else match s.push q i.words with
      | (.accepted, s') => s'.itemPushed n i i.words.length
      | (_, s') => s'

/-- Item i leaves the port: to its queue, or to the holding buffer while the fabric takes nothing or older items wait. A break
item that finds an earlier one of its kind still there is dropped (R69). -/
def State.sendItem (s : State) (n : Nat) (i : PortItem) : State :=
  let p := s.port n
  if s.runs .core ∧ p.hold.isEmpty then s.offerItem n i
  else if i.kind ≠ .chr ∧ p.hold.any (fun j => decide (j.kind = i.kind)) then
    (s.inc (SP_CNT_RXDROP n)).on (SP_EVT.RX_DROP n)
  else s.putHold n { p with hold := p.hold ++ [i] }

/-- The holding buffer of port n empties into the fabric. -/
def State.drainHold (s : State) (n : Nat) : State :=
  if s.runs .core then
    let p := s.port n
    p.hold.foldl (fun s i => s.offerItem n i) (s.putHold n { p with hold := [] })
  else s

/-! ## The held item, packets and the gap (R98 to R100) -/

/-- Item i with the END side bit of its last word set. -/
def PortItem.withEnd (i : PortItem) : PortItem :=
  match i.words.reverse with
  | w :: r => { i with words := (({ w with fin := true } : QWord) :: r).reverse }
  | [] => i

/-- The held item of port n is released, with END as given (R100). -/
def State.releaseHeld (s : State) (n : Nat) (fin : Bool) : State :=
  let p := s.port n
  match p.held with
  | none => s
  | some i =>
    let p' := { p with held := none, sinceEnd := if fin then 0 else p.sinceEnd, newPacket := p.newPacket || fin }
    (s.putHold n p').sendItem n (if fin then i.withEnd else i)

/-- ADDR_MODE; 3 acts as 0 (R90). -/
def State.addrMode (s : State) (n : Nat) : Nat := if s.rd (SP_ADDR.ADDR_MODE n) = 3 then 0 else s.rd (SP_ADDR.ADDR_MODE n)

/-- The effective gap of port n in 2^−16 ns, if there is one (R99). -/
def State.gap (s : State) (n : Nat) : Option Nat :=
  let g := s.rd (SP_PKT.GAP16 n)
  if g ≠ 0 then some (g * s.bitTime n / 16)
  else if s.addrMode n ≠ 0 then some (2 * s.rxLen n * s.bitTime n)
  else none

/-- A character has been on the line (R99): its end is E, and the gap runs from it. DEDUCED (log entry 158): its deadline is fixed here, so
that a write of GAP16 acts on the next gap. -/
def State.lineChar (s : State) (n : Nat) (it : RxItem) : State :=
  let e := it.tick * 65536 + it.n * it.bit
  s.setPort n { s.port n with lineEnd := e, gapAt := (s.gap n).map (· + e) }

/-- The gap of port n expires (R99, R100). -/
def State.gapExpire (s : State) (n : Nat) : State :=
  let s := (s.inc (SP_CNT_GAP n)).setPort n { s.port n with gapAt := none, gapDue := true }
  s.releaseHeld n true

/-- TDELTA of an item at tick k (R63). -/
def Port.tdelta (p : Port) (k bit : Nat) : Nat :=
  match p.lastItem with
  | none => 0xFFFF
  | some l => min 0xFFFF ((k - l) * 65536 * 16 / max 1 bit)

/-- An item that carries NOISE, PERR or FERR is counted and shown (R82, R84). DEDUCED (log entry 155): the counters count items as they
are built, so neither characters that are dropped, filtered or discarded nor echoes. -/
def State.countFlags (s : State) (n : Nat) (it : RxItem) : State :=
  let s := if it.noise then (s.inc (SP_CNT_NOISE n)).on (SP_EVT.NOISE_SEEN n) else s
  let s := if it.perr then (s.inc (SP_CNT_PERR n)).on (SP_EVT.PERR_SEEN n) else s
  if it.ferr then (s.inc (SP_CNT_FERR n)).on (SP_EVT.FERR_SEEN n) else s

/-- The delivery of an item with character and flag bits x and address flag a (R62, R98, R100): the held item before it is
released, END is decided, and the item is held or sent. -/
def State.buildItem (s : State) (n : Nat) (it : RxItem) (a : Bool) : State :=
  let s := s.releaseHeld n a
  let p := s.port n
  let len := s.rd (SP_PKT.PKT_LEN n)
  let fin := (len != 0 && len == p.sinceEnd + 1)
    || (s.bit (SP_PKT_TERM.TERM_EN n) && it.chr == s.rd (SP_PKT_TERM.TERM_CHAR n))
  let x := it.chr + a.toNat * 0x200 + it.perr.toNat * 0x400 + it.ferr.toNat * 0x800 + it.noise.toNat * 0x1000
    + p.gapDue.toNat * 0x4000 + p.tdelta it.tick it.bit * 0x10000
  let i : PortItem := {
    words := [{ data := BitVec.ofNat 32 x, fin := fin, err := it.perr || it.ferr }], stamp := it.stamp, addr := a
    first := p.newPacket }
  let p := { p with gapDue := false, lastItem := some it.tick, newPacket := fin, sinceEnd := if fin then 0 else p.sinceEnd + 1 }
  let s := s.countFlags n it
  if fin = false ∧ ((s.gap n).isSome ∨ s.addrMode n ≠ 0) then s.putHold n { p with held := some i }
  else (s.setPort n p).sendItem n i

/-- A character to be delivered: dropped while the holding buffer is full (R69). DEDUCED (log entry 156): one that needs no place is not,
and a dropped address character closes the packet before it. -/
def State.deliverItem (s : State) (n : Nat) (it : RxItem) (a : Bool) : State :=
  if s.bit (SP_STAT.HOLD_FULL n) then
    let s := (s.inc (SP_CNT_RXDROP n)).on (SP_EVT.RX_DROP n)
    if a then s.releaseHeld n true else s
  else s.buildItem n it a

/-! ## Addresses and frames (R90 to R97) -/

/-- The frame of port n ends (R93). -/
def State.endFrame (s : State) (n : Nat) : State :=
  ((s.off (SP_ASTAT.IN_FRAME n)).off (SP_ASTAT.FOR_US n)).off (SP_ASTAT.ERR_FRAME n)

/-- Whether pair k of port n matches address v (R92). -/
def State.pairMatches (s : State) (n k v : Nat) : Bool :=
  s.bit (SP_AMATCH.EN n k) && (Nat.xor v (s.rd (SP_AMATCH.ADDR n k)) &&& s.rd (SP_AMATCH.MASK n k)) == 0

/-- The lowest-numbered matching pair, 4 for a broadcast alone, none for no match (R92). -/
def State.addrMatch (s : State) (n v : Nat) : Option Nat :=
  match [0, 1, 2, 3].find? (fun k => s.pairMatches n k v) with
  | some k => some k
  | none => if s.bit (SP_ADDR.BCAST_EN n) && v == s.rd (SP_ADDR.BCAST n) then some 4 else none

/-- The stranger table entry of address v: FRAMES and CHARS (R96). -/
def Port.stranger (p : Port) (v : Nat) : Nat × Nat := tabGet (fun _ => (0, 0)) p.strangers v

/-- The stranger table with entry x for address v. -/
def State.setStranger (s : State) (n v : Nat) (x : Nat × Nat) : State :=
  s.setPort n { s.port n with strangers := tabPut (fun _ => (0, 0)) (s.port n).strangers v x }

/-- An address character with value v opens a frame (R92, R96). DEDUCED (log entry 157): LAST_MATCH is not recorded for one in error. -/
def State.openFrame (s : State) (n v : Nat) (bad : Bool) : State :=
  let s := (((s.on (SP_ASTAT.IN_FRAME n)).off (SP_ASTAT.FOR_US n)).off (SP_ASTAT.ERR_FRAME n)).wr (SP_ASTAT.CUR_ADDR n) v
  if bad then ((s.on (SP_ASTAT.ERR_FRAME n)).inc (SP_CNT_ADDRERR n)).on (SP_TEVT.ADDR_ERR n)
  else match s.addrMatch n v with
    | some k => (s.on (SP_ASTAT.FOR_US n)).wr (SP_ASTAT.LAST_MATCH n) k
    | none =>
      let s := (s.inc (SP_CNT_FOREIGN n)).setReg (SP_STR_LAST n) (BitVec.ofNat 32 (0x80000000 + v))
      let x := (s.port n).stranger v
      s.setStranger n v (sat32 (x.1 + 1), x.2)

/-- Whether the character is an address (R90). -/
def State.isAddress (s : State) (n : Nat) (it : RxItem) : Bool :=
  match s.addrMode n with
  | 1 => (frameFmt (s.port n).rxFmt.frame).bits == 9 && it.chr.testBit 8
  | 2 =>
    let i := s.rd (SP_ADDR.IDLE_BITS n)
    decide ((s.port n).lineEnd + (if i = 0 then it.n else i) * it.bit ≤ it.tick * 65536)
  | _ => false

/-- A character that is neither echo nor flow control (R90 to R97): classified, counted, filtered, delivered or discarded. -/
def State.classify (s : State) (n : Nat) (it : RxItem) : State :=
  if s.addrMode n = 0 then ((s.endFrame n).deliverItem n it false).lineChar n it
  else
    let a := s.isAddress n it
    let filter := s.bit (SP_ADDR.FILTER n)
    if a then
      let s := s.openFrame n (it.chr % 256) (it.perr || it.ferr)
      let keep := !filter || (s.bit (SP_ASTAT.FOR_US n) && s.bit (SP_ADDR.KEEP_ADDR n))
      (if keep then s.deliverItem n it true else s.releaseHeld n true).lineChar n it
    else
      let framed := s.bit (SP_ASTAT.IN_FRAME n)
      let us := s.bit (SP_ASTAT.FOR_US n)
      let v := s.rd (SP_ASTAT.CUR_ADDR n)
      let x := (s.port n).stranger v
      let s := if framed && !us && !s.bit (SP_ASTAT.ERR_FRAME n) then s.setStranger n v (x.1, sat32 (x.2 + 1)) else s
      if filter && !(framed && us) then
        let s := if framed then s else (s.inc (SP_CNT_UNADDR n)).on (SP_TEVT.UNADDR n)
        s.lineChar n it
      else (s.deliverItem n it false).lineChar n it

/-! ## Echo and flow control characters (R52, R54, R55) -/

/-- The words of an item in the prefetch. -/
def PreItem.size (i : PreItem) : Nat := 1 + i.times.length

/-- The prefetch without the rest of queue q's packet: what stays, the words discarded, and whether its END was among them. -/
def dropPacket (q : Nat) : List PreItem → List PreItem × Nat × Bool
  | [] => ([], 0, false)
  | i :: r =>
    if i.q = q then
      if i.word.fin then (r, i.size, true)
      else
        let (k, c, f) := dropPacket q r
        (k, c + i.size, f)
    else
      let (k, c, f) := dropPacket q r
      (i :: k, c, f)

/-- Queue k's launch register. -/
def Port.launch (p : Port) (k : Nat) : Option Launch := tabGet (fun _ => none) p.launches k

/-- CTRL and ARG of a transmit word (R65). -/
def txCtrl (w : QWord) : Nat := w.data.toNat / 0x1000 % 16
def txArg (w : QWord) : Nat := w.data.toNat / 0x10000

/-- The place in the prefetch of the next item to send: of the queue that a launch goes on with (R109), else the first whose
queue has no launch waiting (R106). A LAUNCH_AT has to be loaded first. -/
def State.txNext (s : State) (n : Nat) : Option PreItem :=
  let p := s.port n
  let i : Option PreItem := match p.after with
    | some k => p.prefetch.find? (fun i => i.q == k)
    | none => p.prefetch.find? (fun i => (p.launch i.q).isNone)
  match i with
  | some i => if txCtrl i.word = 2 then none else some i
  | none => none

/-- Whether something of port n waits to start: an item, XOFF or XON, or a launch that DE rose for. -/
def State.txWaits (s : State) (n : Nat) : Bool :=
  !(s.port n).xpend.isEmpty || (s.txNext n).isSome || (s.port n).deFor.isSome

/-- Whether TXD and RXD have shown mark for a full frame time since a collision, where that is awaited (R55). -/
def State.collWait (s : State) (n : Nat) : Bool :=
  let p := s.port n
  p.collMark && (match p.markSince with
    | none => true
    | some m => decide ((s.time.tick - m) * 65536 < s.rxLen n * s.bitTime n))

/-- Whether CTS_N keeps port n from starting a character (R51). -/
def State.ctsStops (s : State) (n : Nat) : Bool := s.bit (SP_FLOW.CTS_EN n) && !(s.port n).cts && !s.twRuns n

/-- Whether a hold other than that of CTS_N keeps port n from starting a character; flow control characters pass XOFF_HOLD (R43, R47,
R52, R55), nor does one start before a light reload (R490). -/
def State.txBarred (s : State) (n : Nat) (flow : Bool) : Bool :=
  (match (s.port n).reload with | some r => (!r.structural || r.drained.isSome) && !s.twRuns n | none => false)
    || s.bit (SP_STAT.BAUD_SETTLING n) || (s.port n).rate.isSome || s.bit (SP_CTRL.TX_PAUSE n) || s.bit (SP_STAT.COLL_HELD n)
    || (s.bit (SP_STAT.XOFF_HOLD n) && !flow && !s.twRuns n) || s.collWait n

/-- Whether a hold keeps port n from starting a character (R43, R47, R51, R52, R55). -/
def State.txHeld (s : State) (n : Nat) (flow : Bool) : Bool := s.txBarred n flow || s.ctsStops n

/-- The port with x in queue k's launch register. -/
def Port.setLaunch (p : Port) (k : Nat) (x : Option Launch) : Port :=
  { p with launches := tabPut (fun _ => none) p.launches k x }

/-- Nothing of the packet of queue q that port n is sending remains to be sent: what waits for its END goes on (R55, R108, R109). -/
def Port.packetOver (p : Port) (q : Nat) : Port :=
  { p with
    echoes := p.echoes.map (fun e => if e.q = some q then { e with fin := true } else e)
    launches := p.launches.map (fun e => (e.1, e.2.map (fun l => if l.behind = some q then { l with behind := none } else l)))
    mid := if p.mid = some q then none else p.mid
    after := if p.after = some q then none else p.after }

/-- A list of prefetch items, newest first, with the newest of queue q as the last of its packet; a LAUNCH_AT goes on. -/
def closeLast (q : Nat) : List PreItem → List PreItem
  | [] => []
  | i :: r =>
    if i.q = q then (if txCtrl i.word = 2 then i else { i with word := { i.word with fin := true } }) :: r else i :: closeLast q r

/-- No further word of the packet of queue q that port n is sending will come: its newest item in the prefetch ends it. -/
def Port.closePacket (p : Port) (q : Nat) : Port :=
  if p.prefetch.any (fun i => i.q == q) then { p with prefetch := (closeLast q p.prefetch.reverse).reverse } else p.packetOver q

/-- The END word of queue k's packet has been taken: the queue that it took the port from mid-packet holds the port again (R89). -/
def Port.endTaken (p : Port) (k : Nat) : Port :=
  if p.openq = some k then { p with openq := p.cutq.head?, cutq := p.cutq.tail } else { p with cutq := p.cutq.erase k }

/-- COLL_ACTION 0 (R55): the rest of queue q's packet is discarded, in the prefetch and its launch register now and in the queue as
it arrives. -/
def State.abortPacket (s : State) (n q : Nat) : State :=
  let p := s.port n
  let (keep, c, done) := dropPacket q p.prefetch
  let l := if (p.launch q).isSome then 3 else 0
  let p := { (p.setLaunch q none).packetOver q with prefetch := keep }
  let p := if done then p.endTaken q else { p with discardq := some q, openq := some q }
  (s.setPort n p).incBy (SP_CNT_COLLDISC n) (c + l)

/-- A hold that arises while DE is high and an item waits to start is noted, and is forgotten once no hold applies (R47). -/
def State.noteHold (s : State) (n : Nat) : State :=
  let p := s.port n
  if s.txHeld n false then
    (if p.de ∧ p.heldAt.isNone ∧ s.txWaits n then s.setPort n { p with heldAt := some s.time.tick } else s)
  else if p.heldAt.isSome then s.setPort n { p with heldAt := none }
  else s

/-- A collision on the character of echo window e (R55); in a trade-wind slot R146. -/
def State.collide (s : State) (n : Nat) (e : Echo) : State :=
  if s.twRuns n then s.twCollide n e
  else
    let s := ((s.inc (SP_CNT_COLL n)).on (SP_EVT.COLLISION n)).event Ev.COLLISION [n, e.chr]
    if s.bit (SP_ECHO.COLL_ACTION n) then (s.on (SP_STAT.COLL_HELD n)).noteHold n
    else
      let s := match e.q with
        | some q => if e.fin then s else s.abortPacket n q
        | none => s
      s.setPort n { s.port n with collMark := true }

/-- The echo window that a character with this stamp falls in: the oldest unmatched one that is open. -/
def State.echoOf (s : State) (n : Nat) (it : RxItem) : Option Echo :=
  if s.bit (SP_ECHO.ECHO_EN n) && !s.echoBlind n then
    (s.port n).echoes.find? (fun e => !e.matched && decide (e.tick ≤ it.tick)
      && decide (it.tick < e.tick + s.rd (SP_ECHO.ECHO_WIN n)))
  else none

/-- What XON and XOFF received do (R52): whether character it is one that acts, and of which kind. -/
def State.flowChar (s : State) (n : Nat) (it : RxItem) : Option Bool :=
  if s.bit (SP_FLOW.XTX_EN n) && !s.twRuns n && !it.perr && !it.ferr then
    (if it.chr = s.rd (SP_FLOW.XOFF_CHAR n) then some true
     else if it.chr = s.rd (SP_FLOW.XON_CHAR n) then some false else none)
  else none

/-- A character that is no echo: XON and XOFF act and may be filtered (R52), the rest is classified. -/
def State.takeChar (s : State) (n : Nat) (it : RxItem) : State :=
  match s.flowChar n it with
  | some hold =>
    let s := (s.put (SP_STAT.XOFF_HOLD n) hold).noteHold n
    if s.bit (SP_FLOW.XFILT n) then s.lineChar n it else s.classify n it
  | none => s.classify n it

/-! ## Characters of a running schedule (R124, R132, R138) -/

/-- The character count that R134 gives a frame, once its bytes tell it. -/
def frameCount (bs : List Nat) : Option Nat :=
  match bs with
  | _ :: t :: _ =>
    match t % 16 with
    | 1 => some 20
    | 4 => some 5
    | 5 => some 12
    | 6 => some 10
    | 2 => (bs[5]?).map (8 + ·)
    | 3 => (bs[5]?).map (8 + ·)
    | _ => none
  | _ => none

/-- A receive item of character value chr, and flags, from accepted character it (R62). -/
def State.charItem (s : State) (n : Nat) (it : RxItem) (chr : Nat) (a fin err : Bool) : PortItem :=
  let p := s.port n
  let x := chr + a.toNat * 0x200 + it.perr.toNat * 0x400 + it.ferr.toNat * 0x800 + it.noise.toNat * 0x1000
    + p.gapDue.toNat * 0x4000 + p.tdelta it.tick it.bit * 0x10000
  { words := [{ data := BitVec.ofNat 32 x, fin := fin, err := err }], stamp := it.stamp, addr := a, first := p.newPacket }

/-- Item i of a running schedule leaves the port, or is dropped while the holding buffer is full (R69). -/
def State.sendOrDrop (s : State) (n : Nat) (i : PortItem) : State :=
  if s.bit (SP_STAT.HOLD_FULL n) then (s.inc (SP_CNT_RXDROP n)).on (SP_EVT.RX_DROP n) else s.sendItem n i

/-- Item i, made from it, is the port's newest (R63). -/
def State.notedItem (s : State) (n : Nat) (it : RxItem) (fin : Bool) : State :=
  s.setPort n { s.port n with gapDue := false, lastItem := some it.tick, newPacket := fin }

/-- Monitor delivery ends the frame in progress (R138). -/
def State.monEnd (s : State) (n : Nat) : State :=
  (s.setTw n { s.tw n with monOpen := none }).releaseHeld n true

/-- Monitor delivery of a character (R138): a plain item, held until it is known whether it ends its frame. -/
def State.monChar (s : State) (n : Nat) (it : RxItem) : State :=
  let mark := it.chr.testBit 8
  let late : Bool := match (s.port n).lastItem with
    | some l => decide (22 * it.bit < (it.tick - l) * 65536)
    | none => true
  let s := if mark ∨ late then s.monEnd n else s.releaseHeld n false
  let bytes := if mark then [it.chr % 256] else match (s.tw n).monOpen with | some b => b ++ [it.chr % 256] | none => []
  let ends := bytes.isEmpty || it.ferr || frameCount bytes == some bytes.length
  let i := s.charItem n it it.chr false ends (it.perr || it.ferr)
  let s := (s.notedItem n it ends).countFlags n it
  if ends then (s.setTw n { s.tw n with monOpen := none }).sendOrDrop n i
  else (s.setTw n { s.tw n with monOpen := some bytes }).putHold n { s.port n with held := some i }

/-- A character of a running schedule (R132, R138): it joins the frame being received; a mark begins a new one. The port's own
frames are not received. -/
def State.twChar (s : State) (n : Nat) (it : RxItem) : State :=
  let s := if s.bit (TW_CTRL.MONITOR n) then s.monChar n it else s
  if it.tick * 65536 < (s.port n).txEnd then s
  else
    let w := s.tw n
    if it.chr.testBit 8 then
      s.setTw n { w with
        frames := if w.asm.isEmpty then w.frames else w.frames ++ [(w.asm, false)]
        asm := [it], lastAddr := some (it.stamp, it.chr % 256) }
    else s.setTw n { w with asm := w.asm ++ [it] }

/-- A break ends the frame being received (R136, R138). -/
def State.twBreak (s : State) (n : Nat) : State :=
  if s.twRuns n then
    let s := if s.bit (TW_CTRL.MONITOR n) then s.monEnd n else s
    let w := s.tw n
    if w.asm.isEmpty then s else s.setTw n { w with frames := w.frames ++ [(w.asm, true)], asm := [] }
  else s

/-- An accepted character that is no echo, for the port or for its schedule. -/
def State.takeOrFrame (s : State) (n : Nat) (it : RxItem) : State := if s.twRuns n then s.twChar n it else s.takeChar n it

/-- An accepted character (R38, R54): an echo that matches is consumed, another in an echo window is a collision.
A full holding buffer drops a character only after this (DEDUCED, log entry 156). -/
def State.acceptChar (s : State) (n : Nat) (it : RxItem) : State :=
  match s.echoOf n it with
  | some e =>
    let p := s.port n
    let s := s.setPort n { p with echoes := p.echoes.map (fun x => if x = e then { x with matched := true } else x) }
    if it.chr = e.chr ∧ it.perr = false ∧ it.ferr = false then s.lineChar n it else (s.collide n e).takeOrFrame n it
  | none => s.takeOrFrame n it

/-! ## The internal path of LOOPBACK (R33, R73) -/

/-- The level of TXD at tick k (R41): what the newest character begun by then sends, and mark after it. -/
def levelAt : List Wave → Nat → Bool
  | [], _ => true
  | w :: r, k => if w.start ≤ k * 65536 then w.levels.getD ((k * 65536 - w.start) / max 1 w.bit) true else levelAt r k

/-- The ticks at which bits of w begin and the last one ends. -/
def Wave.bounds (w : Wave) : List Nat := (List.range (w.levels.length + 1)).map (fun j => divUp (w.start + j * w.bit) 65536)

/-- TXD's first edge at tick k0 or later, falling or rising. -/
def Port.txdEdge (p : Port) (fall : Bool) (k0 : Nat) : Option Nat :=
  (p.waves.reverse.flatMap Wave.bounds).find? (fun k =>
    decide (k0 ≤ k) && (levelAt p.waves (k - 1) == fall) && (levelAt p.waves k != fall))

/-- RXD's level where a command gives level high at the pad: through INV_RXD (R33), or in LOOPBACK TXD's. -/
def State.rxdLevel (s : State) (n : Nat) (high : Bool) : Bool :=
  if s.bit (SP_CTRL.LOOPBACK n) then levelAt (s.port n).waves s.time.tick else high != (s.port n).rxFmt.line.getLsbD 4

/-- An edge of RXD that a command brings, falling or rising: the state at it, and its stamp in device time and on the port clock. In LOOPBACK
it is TXD's next one, if there is one; the pads give none (R73). -/
def State.rxdEdge (s : State) (n : Nat) (fall : Bool) : Option (State × Nat × Nat) :=
  if s.bit (SP_CTRL.LOOPBACK n) then
    ((s.port n).txdEdge fall (s.port n).loopFrom).map (fun k =>
      let s := s.runTo (k + s.lag n)
      (s.setPort n { s.port n with loopFrom := k + 1 }, s.now - (s.time.tick - k), k))
  else some (s, s.edgeNow n)

/-- The centre samples of a character as the receiver takes them: those given, through INV_RXD as the character began with it (R33, R45), or in
LOOPBACK those of TXD at the ticks of R35. -/
def State.rxSamples (s : State) (n : Nat) (c : RxChar) (given : List (BitVec 3)) : List (BitVec 3) :=
  if s.bit (SP_CTRL.LOOPBACK n) then
    (List.range (frameFmt c.fmt.frame).len).map (fun b =>
      BitVec.ofNat 3 (([0, 1, 2].map (fun i =>
        (levelAt (s.port n).waves (tickAfter c.tick ((b * c.osr + c.osr / 2 + i - 1) * c.d))).toNat * 2 ^ i)).sum))
  else if c.fmt.line.getLsbD 4 then given.map (fun v => ~~~v) else given

/-! ## Characters -/

/-- Whether the receiver hunts for start edges (R35, R38, R43, R48, R57, R60). -/
def State.hunting (s : State) (n : Nat) : Bool :=
  let p := s.port n
  s.runs .port && s.bit (SP_CTRL.RX_EN n) && !s.bit (SP_STAT.WARMING n) && !p.abWait && !p.masked && p.rxChar.isNone && p.watch.isNone
    && p.brk.isNone && !p.waitMark && !(match p.reload with | some r => r.structural && !s.twRuns n | none => false)

/-- Whether the mark that a start edge at tick k needs has been seen (R43, R70). -/
def Port.markSeen (p : Port) (k : Nat) : Bool :=
  match p.needMark with
  | none => true
  | some (from_, dur) =>
    match p.markSince with
    | none => false
    | some m => decide (dur ≤ (k - max m from_) * 65536)

/-- RX_START_EDGE (R35, R43): a mark-to-space edge. During settling it is counted; where the line has not shown mark for long enough
nothing starts; otherwise a character begins at its stamp. A gap whose deadline it finds passed has expired, and another does not
expire (R99). A receiver that does not hunt only sees the level, and in the receive mask nothing (R48). -/
def execRxStartEdge (p : Fin 16) (s : State) : Res :=
  let n := p.val
  if (s.port n).masked then .next s
  else match s.rxdEdge n true with
    | none => .next s
    | some (s, t, k) =>
      let q := s.port n
      let seen := s.setPort n { q with markSince := none }
      if s.hunting n = false then .next seen
      else
        let seen := if s.twRuns n then (seen.setTw n { seen.tw n with lastEdge := some t }).openEdge n else seen
        if s.bit (SP_STAT.BAUD_SETTLING n) then .next ((seen.inc (SP_CNT_SETTLE_MISS n)).on (SP_EVT.SETTLE_MISS n))
        else if q.markSeen k then
          let seen := match q.gapAt with | some g => if g ≤ k * 65536 then seen.gapExpire n else seen | none => seen
          .next (seen.setPort n { seen.port n with
            rxChar := some { stamp := t, tick := k, osr := s.osr n, d := s.dEff n, fmt := q.rxFmt }
            gapAt := none, needMark := none })
        else .next seen

/-- The tick at which the line logic has read the last centre sample of bit b of character c (R35, R36). -/
def State.voteTick (s : State) (n : Nat) (c : RxChar) (b : Nat) : Nat :=
  tickAfter c.tick ((b * c.osr + c.osr / 2 + 1) * c.d) + s.lag n

/-- Auto-detection that waited for the character in progress begins (R60). -/
def State.abBegin (s : State) (n : Nat) : State :=
  if (s.port n).abAfter then
    (s.on (SP_STAT.WARMING n)).setPort n { s.port n with abAfter := false, abEdges := [] }
  else s

/-- The receiver is at a character boundary: a written format takes effect (R45). A change of INV_RXD turns the level that RXD shows. -/
def State.rxBoundary (s : State) (n : Nat) : State :=
  let p := s.port n
  let f := s.lineRegs n
  let turn := f.line.getLsbD 4 != p.rxFmt.line.getLsbD 4 && !s.bit (SP_CTRL.LOOPBACK n)
  s.setPort n { p with
    rxFmt := f, markSince := if turn then (if p.markSince.isSome then none else some s.time.tick) else p.markSince }

/-- The pin tick of the last centre sample of bit b of character c (R35, R36). -/
def RxChar.lastSample (c : RxChar) (b : Nat) : Nat := tickAfter c.tick ((b * c.osr + c.osr / 2 + 1) * c.d)

/-- A false start (R37). The mark is as old as a rising edge shows, or as the sample that shows it. -/
def State.falseStart (s : State) (n : Nat) (c : RxChar) : State :=
  let s := s.runTo (s.voteTick n c 0)
  let s := (s.inc (SP_CNT_FALSESTART n)).on (SP_EVT.FALSE_START n)
  let p := s.port n
  ((s.setPort n { p with
    rxChar := none, markSince := some (p.markSince.getD (c.lastSample 0)), loopFrom := c.lastSample 0 + 1 }).rxBoundary n).abBegin n

/-- The majority of the three centre samples (R36). -/
def vote (v : BitVec 3) : Bool := decide (2 ≤ (v.getLsbD 0).toNat + (v.getLsbD 1).toNat + (v.getLsbD 2).toNat)

/-- Whether the three samples disagree (R36). -/
def noisy (v : BitVec 3) : Bool := v != 0 && v != 7

/-- The item that samples give a character (R36, R38, R44): a bit without samples reads mark. -/
def voteChar (c : RxChar) (samples : List (BitVec 3)) : RxItem :=
  let f := frameFmt c.fmt.frame
  let bit (b : Nat) : BitVec 3 := samples.getD b 7
  let data := ((List.range f.bits).map (fun i =>
    (vote (bit (1 + i))).toNat * 2 ^ (if f.msb then f.bits - 1 - i else i))).sum
  { chr := data
    perr := f.parity != 0 && vote (bit (1 + f.bits)) != parityBit f.parity f.bits data
    ferr := !vote (bit (f.len - 1))
    noise := (List.range f.len).any (fun b => noisy (bit b))
    stamp := c.stamp, tick := c.tick, bit := c.osr * c.d, n := f.len }

/-- RX_FALSE_START (R37): the start bit votes mark. In LOOPBACK TXD tells. -/
def execRxFalseStart (p : Fin 16) (s : State) : Res :=
  let n := p.val
  match (s.port n).rxChar with
  | some c =>
    if s.bit (SP_CTRL.LOOPBACK n) && !vote ((s.rxSamples n c []).getD 0 7) then .next s else .next (s.falseStart n c)
  | none => .next s

/-- Since when the line shows mark at the end of a character: from its last bits that voted mark; after a framing error whose last sample
shows mark, from that sample; none where the last sample shows space. -/
def markFrom (c : RxChar) (samples : List (BitVec 3)) : Option Nat :=
  let n := (frameFmt c.fmt.frame).len
  let m := ((List.range n).reverse.takeWhile (fun b => vote (samples.getD b 7))).length
  if (samples.getD (n - 1) 7).getLsbD 2 = false then none
  else if m = 0 then some (c.lastSample (n - 1))
  else some (tickAfter c.tick ((n - m) * c.osr * c.d))

/-- RX_CHAR_ACCEPT (R36 to R38): the vote of the first stop bit completes; given are the centre samples of each bit from the start
bit on, the first of a bit lowest. A start bit that votes mark is a false start. An all-space character may yet be a break and waits
(R57, log entry 11); any other is accepted. After a framing error the port waits for mark, unless the last sample shows it. -/
def execRxCharAccept (p : Fin 16) (given : List (BitVec 3)) (s : State) : Res :=
  let n := p.val
  match (s.port n).rxChar with
  | none => .next s
  | some c =>
    let samples := s.rxSamples n c given
    if vote (samples.getD 0 7) then .next (s.falseStart n c)
    else
      let it := voteChar c samples
      let s := s.runTo (s.voteTick n c (it.n - 1))
      let still := (List.range it.n).all (fun b => samples.getD b 7 == 0)
      let from_ := c.lastSample (it.n - 1) + 1
      if still && !(s.port n).abAfter then
        let cand := if c.gone then none else some it
        .next ((s.setPort n { s.port n with
          rxChar := none, cand := cand, watch := some (c.stamp, c.tick), loopFrom := from_ }).rxBoundary n)
      else
        let mark := markFrom c samples
        let s := s.setPort n { s.port n with
          rxChar := none, waitMark := it.ferr && mark.isNone, loopFrom := from_
          markSince := if it.ferr && mark.isSome then some ((s.port n).markSince.getD (mark.getD 0)) else mark }
        .next (((if c.gone then s else s.acceptChar n it).rxBoundary n).abBegin n)

/-! ## Breaks (R57, R58) -/

/-- L in bit times for a frame of n bits (R57). -/
def State.breakBits (s : State) (p n : Nat) : Nat := max (s.rd (SP_BREAK.BRK_BITS p)) (n + 1)

/-- A break of port n that began at stamp t, tick k (R57): BREAK_START closes the packet, the frame and the gap. -/
def State.breakBegin (s : State) (n t k bit : Nat) : State :=
  let s := s.twBreak n
  let s := (((s.on (SP_STAT.IN_BREAK n)).inc (SP_CNT_BREAK n)).on (SP_EVT.BREAK_SEEN n)).endFrame n
  let s := s.releaseHeld n false
  let p := s.port n
  let x := 0x2000 + p.gapDue.toNat * 0x4000 + p.tdelta k bit * 0x10000
  let s := s.setPort n { p with
    rxChar := none, cand := none, watch := none, brk := some (t, k), gapAt := none, gapDue := false, lastItem := some k
    newPacket := true, sinceEnd := 0, markSince := none }
  s.sendItem n { words := [{ data := BitVec.ofNat 32 x, fin := true }], kind := .breakStart, stamp := t, first := p.newPacket }

/-- BREAK_START (R57): RXD has stayed at space for L bit times from a start edge, from the end of the receive mask or from the
enable. In LOOPBACK TXD tells whether it has. -/
def execBreakStart (p : Fin 16) (s : State) : Res :=
  let n := p.val
  let q := s.port n
  let start := match q.rxChar, q.watch with
    | some c, _ => some (c.stamp, c.tick)
    | none, some w => some w
    | none, none => none
  match start with
  | none => .next s
  | some (t, k) =>
    let e := tickAfter k (s.breakBits n (s.rxLen n) * s.bitTime n)
    let ended : Bool := match q.txdEdge false (k + 1) with | some x => decide (x < e) | none => levelAt q.waves k
    if s.bit (SP_CTRL.LOOPBACK n) && ended then .next s
    else .next ((s.runTo (e + s.lag n)).breakBegin n t k (s.bitTime n))

/-- RXD returns to mark at stamp t, tick k, in a break that began at tick k0 (R57, R58): BREAK_END with its duration. -/
def State.breakFinish (s : State) (n t k k0 : Nat) : State :=
  let s := (s.off (SP_STAT.IN_BREAK n)).off (SP_STAT.LINE_STUCK n)
  let p := s.port n
  let x := 0x21FF + p.gapDue.toNat * 0x4000 + p.tdelta k (s.bitTime n) * 0x10000
  let dur := k - k0
  let s := s.setPort n { p with
    brk := none, gapDue := false, lastItem := some k, lineEnd := k * 65536, newPacket := true, markSince := some k }
  s.sendItem n {
    words := [{ data := BitVec.ofNat 32 x }, { data := BitVec.ofNat 32 dur }, { data := BitVec.ofNat 32 (dur / unit32), fin := true }]
    kind := .breakEnd, stamp := t, first := p.newPacket }

/-- RXD at mark ends BUS_DEAD (R188). -/
def State.busAlive (s : State) (n : Nat) : State :=
  if s.bit (SF_STAT.BUS_DEAD n) then ((s.off (SF_STAT.BUS_DEAD n)).on (SF_EVT.BUS_ALIVE n)).event Ev.TW_BUS_ALIVE [n] else s

/-- BREAK_END (R57, R188): RXD returns to mark after a break. The receive mask hides the edge (R48). -/
def execBreakEnd (p : Fin 16) (s : State) : Res :=
  let n := p.val
  match (s.port n).brk with
  | some (_, k0) =>
    if (s.port n).masked then .next s
    else match s.rxdEdge n false with
      | some (s, t, k) => .next ((s.breakFinish n t k k0).busAlive n)
      | none => .next s
  | none => .next s

/-- LINE_STUCK (R58): the break lasts STUCK_MS. -/
def execLineStuck (p : Fin 16) (s : State) : Res :=
  let n := p.val
  let ms := s.rd (SP_BREAK.STUCK_MS n)
  match (s.port n).brk with
  | some (_, k) =>
    if ms = 0 ∨ s.bit (SP_STAT.LINE_STUCK n) then .next s
    else
      let s := s.runTo (k + ms * 1000000 + s.lag n)
      .next (((s.on (SP_STAT.LINE_STUCK n)).on (SP_EVT.STUCK n)).event Ev.LINE_STUCK [n])
  | none => .next s

/-- RX_LINE_MARK (R38, R48, R57): RXD returns to mark after a framing error, or before a break length has passed. An all-space
character that waited was a character with FERR and is accepted now; a space without a start edge gives no item. Inside a character
it only moves the level, and the receive mask hides it. -/
def execRxLineMark (p : Fin 16) (s : State) : Res :=
  let n := p.val
  let q := s.port n
  if q.brk.isSome ∨ q.masked then .next s
  else if q.rxChar.isSome then
    .next (if s.bit (SP_CTRL.LOOPBACK n) then s else s.setPort n { q with markSince := some (s.edgeNow n).2 })
  else match s.rxdEdge n false with
    | none => .next s
    | some (s, _, k) =>
      let q := s.port n
      let s := s.setPort n { q with cand := none, watch := none, waitMark := false, markSince := some k }
      .next (match q.cand with | some it => s.acceptChar n it | none => s)

/-- The receiver takes RXD as it stands, without an edge (R48, R57): a space starts break detection only, and a mark ends a break
whose end it did not see (log entry 159). -/
def State.takeLevel (s : State) (n : Nat) (mark : Bool) : State :=
  let p := s.port n
  let s := s.setPort n { p with
    markSince := if mark then some s.time.tick else none, loopFrom := s.time.tick
    waitMark := p.waitMark && !mark
    watch := if mark then none else if p.brk.isSome ∨ p.rxChar.isSome then p.watch else some (s.now, s.time.tick) }
  match p.brk with
  | some (_, k0) => if mark then (s.breakFinish n s.now s.time.tick k0).busAlive n else s
  | none => s

/-- RX_MASK_END (R48): the receive mask ends RXMASK after DE fell; high is RXD's level at the pad. -/
def execRxMaskEnd (p : Fin 16) (high : Bool) (s : State) : Res :=
  let n := p.val
  match (s.port n).maskEnd with
  | some k =>
    let s := s.runTo k
    let s := s.setPort n { s.port n with masked := false, maskEnd := none }
    .next (if s.bit (SP_CTRL.RX_EN n) then s.takeLevel n (s.rxdLevel n high) else s)
  | none => .next s

/-! ## Enables -/

/-- What follows a write of RX_EN over was (R57, R63, R90, R99, R100): the receiver starts at the level given, or closes what is open. -/
def State.rxEnChange (s : State) (n : Nat) (was en mark : Bool) : State :=
  if en && !was then
    let s := (s.setPort n { s.port n with
      lastItem := none, gapDue := true, gapAt := none, waitMark := false
      lineEnd := s.time.tick * 65536 }).wr (SP_ASTAT.LAST_MATCH n) 7
    (s.takeLevel n mark).updateFlow n
  else if !en && was then ((s.releaseHeld n true).endFrame n).updateFlow n
  else s


/-- RX_EN_WRITE (R57, R63, R70, R93, R99, R100): the receiver is enabled, and takes RXD as it stands, with level high at the pad, or is
disabled, which closes the held item's packet and the frame. -/
def execRxEnWrite (o : Origin) (p : Fin 16) (en high : Bool) (s : State) : Res :=
  let n := p.val
  if s.regExists (SP_CTRL n) then
    .next ((s.regStore o (SP_CTRL n) (fldPut (SP_CTRL.RX_EN n) (s.reg (SP_CTRL n)) en.toNat)).rxEnChange n
      (s.bit (SP_CTRL.RX_EN n)) en (s.rxdLevel n high))
  else .next s

/-- GAP_EXPIRY (R99, R100): no start edge in [E, E + G). -/
def execGapExpiry (p : Fin 16) (s : State) : Res :=
  let n := p.val
  match (s.port n).gapAt with
  | some g =>
    if (s.port n).rxChar.isSome ∨ s.runs .port = false then .next s
    else .next ((s.runTo (divUp g 65536)).gapExpire n)
  | none => .next s

/-! ## Rate and format (R42 to R45) -/

/-- A rate change of port n waits for the first tick outside every character (R42), and meanwhile holds the transmitter. -/
def State.stageRate (s : State) (n : Nat) : State :=
  (s.setPort n { s.port n with rate := some (s.reg (SP_BAUD n), s.reg (SP_BAUDCFG n)) }).noteHold n

/-- BAUDCFG_WRITE (R42). -/
def execBaudcfgWrite (o : Origin) (p : Fin 16) (v : Word) (s : State) : Res :=
  if s.regExists (SP_BAUDCFG p.val) then
    .next ((s.regStore o (SP_BAUDCFG p.val) v).stageRate p.val)
  else .next s

/-- The waiting rate of port n is applied and settling begins (R40, R42). -/
def State.applyRate (s : State) (n : Nat) (div cfg : Word) : State :=
  let s := (s.setReg (SP_BAUD_ACT n) div).wr (SP_STAT.OSR_ACT n) (cfg.toNat % 4)
  let s := (s.wr (SP_STAT.PRE_ACT n) (cfg.toNat / 16)).on (SP_STAT.BAUD_SETTLING n)
  let s := if s.dEff n = s.div n then s else s.on (SP_EVT.CLAMPED n)
  s.setPort n { s.port n with rate := none, abWait := false }

/-- BAUD_CHANGE_APPLY (R42): the first tick at which neither direction is inside a character. DEDUCED (log entry 160): an all-space
character that may yet be a break is one. On a running trade-wind port the cycle boundary applies it (R161). -/
def execBaudChangeApply (p : Fin 16) (s : State) : Res :=
  let n := p.val
  let q := s.port n
  match q.rate with
  | some (d, c) =>
    if q.rxChar.isSome ∨ q.cand.isSome ∨ s.bit (SP_STAT.BAUD_SETTLING n) ∨ s.twRuns n ∨ s.runs .port = false then .next s
    else .next ((s.runTo (divUp q.txEnd 65536)).applyRate n d c)
  | none => .next s

/-- BAUD_SETTLING_END (R43): the port runs at the new rate; a start edge needs one bit time of mark first. -/
def execBaudSettlingEnd (p : Fin 16) (s : State) : Res :=
  let n := p.val
  if s.bit (SP_STAT.BAUD_SETTLING n) then
    .next (((s.off (SP_STAT.BAUD_SETTLING n)).setPort n
      { s.port n with needMark := some (s.time.tick, s.bitTime n) }).noteHold n)
  else .next s

/-- FRAME_FORMAT_APPLY (R45): a written format takes effect for a direction at its character boundary. -/
def execFrameFormatApply (p : Fin 16) (tx : Bool) (s : State) : Res :=
  let n := p.val
  let q := s.port n
  if tx then .next ((s.runTo (divUp q.txEnd 65536)).setPort n { q with txFmt := s.lineRegs n })
  else if q.rxChar.isSome then .next s
  else .next (s.rxBoundary n)

/-! ## Auto-detection (R60, R61) -/

/-- AUTOBAUD_START (R60): AB_EN is written 1; a character in progress completes first. -/
def execAutobaudStart (o : Origin) (p : Fin 16) (apply : Bool) (s : State) : Res :=
  let n := p.val
  if s.regExists (SP_AUTOBAUD n) then
    let s := s.regStore o (SP_AUTOBAUD n) (BitVec.ofNat 32 (1 + 2 * apply.toNat))
    if (s.port n).rxChar.isSome then .next (s.setPort n { s.port n with abAfter := true, abEdges := [] })
    else .next ((s.on (SP_STAT.WARMING n)).setPort n { s.port n with abEdges := [] })
  else .next s

/-- The intervals between successive edges. -/
def intervals : List Nat → List Nat
  | a :: b :: r => (b - a) :: intervals (b :: r)
  | _ => []

/-- The bit time estimate of R60 as a quotient: the sum of the intervals and the number of bit times in them. -/
def estimate (ds : List Nat) : Nat × Nat :=
  let m := ds.foldl min (ds.headD 0)
  (ds.sum, (ds.map (fun d => (2 * d + m) / (2 * max 1 m))).sum)

/-- The smallest PRE whose largest divisor holds num / den ns, with DIV there (R60). -/
def fitDiv (num den : Nat) : Option (Nat × Nat) :=
  ([0, 1, 2, 3].find? (fun p => decide (num * 65536 ≤ 0xFFFFFFFF * 4 ^ p * den))).map
    (fun p => (p, (2 * num * 65536 + den * 4 ^ p) / (2 * den * 4 ^ p)))

/-- The result of eight edges (R60, R61). -/
def State.abResult (s : State) (n : Nat) (es : List Nat) : State :=
  let (num, den) := estimate (intervals es)
  let fit := if num < 10 * den then none else fitDiv num (den * s.osr n)
  match fit with
  | none => s.on (SP_EVT.AB_FAIL n)
  | some (pre, div) =>
    let s := (s.setReg (SP_BAUD_MEAS n) (BitVec.ofNat 32 div)).wr (SP_AUTOBAUD.PRE_MEAS n) pre
    let s := ((s.off (SP_STAT.WARMING n)).off (SP_AUTOBAUD.AB_EN n)).on (SP_EVT.AB_DONE n)
    if s.bit (SP_AUTOBAUD.AB_APPLY n) then
      (((s.setReg (SP_BAUD n) (BitVec.ofNat 32 div)).wr (SP_BAUDCFG.PRE n) pre).setPort n
        { s.port n with abWait := true }).stageRate n
    else s

/-- AUTOBAUD_EDGE (R60, R61): an edge of RXD; the eighth gives a result or fails. With AB_APPLY receiving waits for the new rate. -/
def execAutobaudEdge (p : Fin 16) (s : State) : Res :=
  let n := p.val
  if s.bit (SP_STAT.WARMING n) && s.runs .port && !(s.port n).masked then
    match s.rxdEdge n (s.port n).markSince.isSome with
    | none => .next s
    | some (s, _, k) =>
      let q := s.port n
      let es := q.abEdges ++ [k]
      let s := s.setPort n { q with
        markSince := if q.markSince.isSome then none else some k, abEdges := if es.length < 8 then es else [] }
      .next (if es.length < 8 then s else s.abResult n es)
  else .next s

/-- AUTOBAUD_CANCEL (R61): AB_EN is written 0. -/
def execAutobaudCancel (o : Origin) (p : Fin 16) (s : State) : Res :=
  let n := p.val
  if s.regExists (SP_AUTOBAUD n) then
    let s := s.regStore o (SP_AUTOBAUD n) (fldPut (SP_AUTOBAUD.AB_EN n) (s.reg (SP_AUTOBAUD n)) 0)
    .next ((s.off (SP_STAT.WARMING n)).setPort n { s.port n with abAfter := false, abEdges := [] })
  else .next s

/-! ## Bindings and the stranger table (R88, R97) -/

/-- The address of binding register b of port n: SP_QRX, SP_QTX0 to 3, SP_QSTAMP_RX, SP_QSTAMP_TX. -/
def bindingReg (n b : Nat) : Nat :=
  match b with
  | 0 => SP_QRX n
  | 5 => SP_QSTAMP_RX n
  | 6 => SP_QSTAMP_TX n
  | k => SP_QTX n (k - 1)

/-- The queue that value v of a binding register binds, if any (R85). -/
def State.bindsTo (s : State) (v : Word) : Option Nat :=
  let q := v.toNat % 0x10000
  if v.getLsbD 31 && (s.queue q).ex then some q else none

/-- Transmit queue k of port n is another one now (R88, R89): it no longer holds the port, and no packet of it goes on. -/
def Port.rebound (p : Port) (k : Nat) : Port :=
  { (p.endTaken k).closePacket k with discardq := if p.discardq = some k then none else p.discardq }

/-- BINDING_WRITE (R85, R88): a rebound receive queue closes the held item's packet and the next item carries GAP; a rebound
transmit queue no longer holds the port. A write that leaves the queue the same changes nothing. DEDUCED (log entry 161): a LAUNCH_AT in the
prefetch that lacks time words takes them from the new queue. -/
def execBindingWrite (o : Origin) (p : Fin 16) (b : Fin 7) (v : Word) (s : State) : Res :=
  let n := p.val
  let a := bindingReg n b.val
  if s.regExists a then
    let old := s.boundQueue a
    let same := old == s.bindsTo v
    let s := if b.val = 0 ∧ same = false then
        let s := s.releaseHeld n true
        s.setPort n { s.port n with gapDue := true }
      else s
    let s := s.regStore o a v
    let s := if 1 ≤ b.val ∧ b.val ≤ 4 ∧ same = false then
        (s.setPort n ((s.port n).rebound (b.val - 1))).twRebound n old
      else s
    let s := if v.getLsbD 31 && !(s.queue (v.toNat % 0x10000)).ex then s.on (SP_TEVT.ABSENT_Q n) else s
    .next (s.updateFlow n)
  else .next s

/-- STRANGER_SELECT (R97): the entry's counters are copied, then it or every entry is cleared. -/
def execStrangerSelect (_ : Master) (p : Fin 16) (v : Word) (s : State) : Res :=
  let n := p.val
  if s.regExists (SP_STR_SEL n) then
    let e := v.toNat % 256
    let x := (s.port n).stranger e
    let s := ((s.wr (SP_STR_SEL.SEL n) e).setReg (SP_STR_FRAMES n) (BitVec.ofNat 32 x.1)).setReg (SP_STR_CHARS n)
      (BitVec.ofNat 32 x.2)
    let s := if v.getLsbD 30 then s.setStranger n e (0, 0) else s
    .next (if v.getLsbD 31 then s.setPort n { s.port n with strangers := [] } else s)
  else .next s

end Sys2Proof.Machine
end

