-- ==== Sys2Proof/Machine/SerialTx.lean ====
section
/-!
DEFINITION. Serial ports, transmitting: arbitration and the prefetch (R89), holds (R43, R47, R51, R52, R55), DE (R46, R47),
characters on the line (R41, R44, R67, R95), transmit stamps (R68, R104), launches (R105 to R110), and the meanings of these
commands.
-/
namespace Sys2Proof.Machine

/-! ## Holds -/

/-- Whether port n's transmitter may work outside a schedule. -/
def State.txOn (s : State) (n : Nat) : Bool := s.runs .port && s.bit (SP_CTRL.TX_EN n) && !s.twRuns n

/-! ## The prefetch (R65, R66, R69, R89) -/

/-- Whether item i of the prefetch still waits for time words (R66). -/
def PreItem.partial_ (i : PreItem) : Bool := txCtrl i.word == 2 && decide (i.times.length < 2)

/-- The occupied launch registers of a port. -/
def Port.launchCount (p : Port) : Nat := ([0, 1, 2, 3].filter (fun k => (p.launch k).isSome)).length

/-- Whether transmit queue k of port n has a word that can be popped. -/
def State.txReady (s : State) (n k : Nat) : Bool :=
  match s.boundQueue (SP_QTX n k) with
  | some q => (match s.look q with | .word _ _ => true | _ => false)
  | none => false

/-- The places of the prefetch that the launch guard keeps from queue k (R109): one for each occupied launch register, and one for the
queue of a launch that has left, until it is filled. -/
def State.keptPlaces (s : State) (n k : Nat) : Nat :=
  let p := s.port n
  if s.bit (SP_TXARB.LAUNCH_GUARD n) then
    p.launchCount + (match p.after with
      | some a => (a != k && !p.prefetch.any (fun i => i.q == a)).toNat
      | none => 0)
  else 0

/-- Whether a word of queue k has room in the prefetch (R69, R109). -/
def State.txRoom (s : State) (n k : Nat) : Bool := decide ((s.port n).prefetch.length + s.keptPlaces n k < 4)

/-- The transmit queue that the port takes its next word from (R89): the one whose LAUNCH_AT lacks time words; the one that goes on after
its launch (R109); the one that holds the port; otherwise the first, by priority, with a word and no occupied launch register. -/
def State.txChoose (s : State) (n : Nat) : Option Nat :=
  let p := s.port n
  match p.prefetch.getLast? with
  | some i => if i.partial_ then some i.q else go p
  | none => go p
where
  go (p : Port) : Option Nat :=
    let free := [0, 1, 2, 3].find? (fun k => (p.launch k).isNone && s.txReady n k && s.txRoom n k)
    match p.after with
    | some k => if s.txReady n k && (p.launch k).isNone && s.txRoom n k then some k else holder p free
    | none => holder p free
  holder (p : Port) (free : Option Nat) : Option Nat :=
    match p.openq with
    | some k =>
      if !s.bit (SP_TXARB.PREEMPT n) && (p.launch k).isNone && (s.boundQueue (SP_QTX n k)).isSome then
        (if s.txRoom n k then some k else none)
      else free
    | none => free

/-- A transmit item that is no character: discarded and counted (R66). -/
def State.txBad (s : State) (n : Nat) : State := (s.inc (SP_CNT_TXBAD n)).on (SP_EVT.TXBAD n)

/-- A discarded word of transmit queue k, with END as given: after an END nothing more of its packet comes (R66, R89). -/
def State.txDiscard (s : State) (n k : Nat) (fin : Bool) : State :=
  (if fin then s.setPort n ((s.port n).closePacket k) else s).txBad n

/-- Word w popped from transmit queue k enters the prefetch, or is discarded: the rest of a packet after a collision (R55), an
undefined control code, or a LAUNCH_AT with END (R66). A LAUNCH_AT takes the two words that follow it as its time words, and is discarded
with both if one of them carries END or NS is out of range (R66, R105). -/
def State.txTake (s : State) (n k : Nat) (w : QWord) : State :=
  let p := s.port n
  let p := if w.fin then p.endTaken k else { p with openq := some k }
  if p.discardq = some k then
    (s.setPort n { p with discardq := if w.fin then none else some k }).inc (SP_CNT_COLLDISC n)
  else match p.prefetch.reverse with
    | i :: r =>
      if i.partial_ && i.q == k then
        let i := { i with times := i.times ++ [w.data], bad := i.bad || w.fin || (i.times.isEmpty && decide (second ≤ w.data.toNat))
                          ended := i.ended || w.fin }
        if i.times.length = 2 ∧ i.bad then (s.setPort n { p with prefetch := r.reverse }).txDiscard n k i.ended
        else s.setPort n { p with prefetch := (i :: r).reverse }
      else plain p
    | [] => plain p
where
  plain (p : Port) : State :=
    let c := txCtrl w
    if 4 ≤ c ∨ (c = 2 ∧ w.fin = true) then (s.setPort n p).txDiscard n k w.fin
    else s.setPort n { p with prefetch := p.prefetch ++ [{ word := w, q := k }] }

/-- TX_PREFETCH_POP (R69, R89): one word from a bound transmit queue into the prefetch. -/
def execTxPrefetchPop (p : Fin 16) (s : State) : Res :=
  let n := p.val
  let reload : Bool := match (s.port n).reload with | some r => r.structural && !s.twRuns n | none => false
  let stopped := reload || decide (s.time.tick < (s.port n).serveFrom)
  if s.txOn n = false ∨ stopped ∨ s.runs .core = false then .next s
  else match s.txChoose n with
    | none => .next s
    | some k =>
      match s.boundQueue (SP_QTX n k) with
      | none => .next s
      | some q =>
        match s.pop q with
        | (.word w _, s') => .next (s'.txTake n k w)
        | (_, s') => .next s'

/-! ## Characters on the line -/

/-- The character that word w sends: bit 8 is the address mark in ADDR_MODE 1 with 9 data bits (R95). -/
def State.txChar (s : State) (n : Nat) (f : CharFmt) (w : QWord) : Nat :=
  if s.twRuns n then w.data.toNat % 512
  else
    let c := w.data.toNat % 2 ^ f.bits
    if s.addrMode n = 1 ∧ f.bits = 9 then c % 256 + (w.data.getLsbD 9).toNat * 256 else c

/-- The levels of a frame on TXD, from the start bit to the first stop bit (R44, R67): with err the parity bit is inverted, or
without parity the stop bit is space. -/
def txBits (f : CharFmt) (c : Nat) (err : Bool) : List Bool :=
  let data := (List.range f.bits).map (fun i => c.testBit (if f.msb then f.bits - 1 - i else i))
  let par := if f.parity = 0 then [] else [parityBit f.parity f.bits c != err]
  [false] ++ data ++ par ++ [f.parity != 0 || !err]

/-- A frame's time from start edge to end of stop time, in half bits. -/
def CharFmt.time (f : CharFmt) : Nat := 2 * (f.len - 1) + f.halves

/-- The stamp of a sent character with STAMP = 1 (R68, R104). -/
def State.txStamp (s : State) (n kind seq : Nat) : State :=
  let t := s.now
  let s := s.setStamp (SP_TXSTAMP_NS n) (SP_TXSTAMP_SL n) (SP_TXSTAMP_SH n) t
  (s.wr (SP_TXSTAMP_SH.SEQ n) (s.rd (SP_TXSTAMP_SH.SEQ n) + 1)).pushRecord n (SP_QSTAMP_TX n) t kind seq

/-- The DE-rise time of a launch at time l (R107): DE_PRE earlier in LINE_MODE 2 while DE is low. -/
def State.launchRise (s : State) (n l : Nat) : Nat :=
  if s.lineMode n = 2 ∧ (s.port n).de = false then l - s.rd (SP_DE_PRE.DE_PRE n) else l

/-- The launches of port n for whose DE-rise time a character of queue q is on TXD, in the d ns from now: they wait for its packet's END
(R108). -/
def State.launchesBehind (s : State) (n q d : Nat) : State :=
  let p := s.port n
  s.setPort n { p with launches := p.launches.map (fun e => (e.1, e.2.map (fun l =>
    if e.1 ≠ q ∧ l.far = false ∧ l.behind = none ∧ s.now ≤ s.launchRise n l.at_ ∧ s.launchRise n l.at_ < s.now + d then
      { l with behind := some q } else l))) }

/-- TXD of port n sends bits from x on, in 2^−16 ns of the port clock. -/
def State.sendWave (s : State) (n x : Nat) (bits : List Bool) : State :=
  let p := s.port n
  (s.setPort n { p with waves := { start := x, bit := s.bitTime n, levels := bits } :: p.waves.take 3 }).toPad n
    (.txd n s.time.tick bits)

/-- What the start of a character or break of queue q up to fin ends: the hold of DE, a noted hold, the launch that DE rose for, the wait
after a collision, and with END its packet. -/
def Port.started (p : Port) (q : Option Nat) (fin : Nat) (hold : Option Nat) (last : Bool) : Port :=
  let p := { p with
    txEnd := fin, deHold := hold, heldAt := none, deFor := none, collMark := false
    mid := if q.isNone then p.mid else q, split := if q.isNone then p.split else false }
  match q with
  | some k => if last then p.packetOver k else p
  | none => p

/-- The start edge of word w's character leaves at x, in 2^−16 ns of the port clock (R41, R54, R66, R68, R102): queue q, or none
for flow control; kind is its stamp record's KIND. -/
def State.sendChar (s : State) (n : Nat) (w : QWord) (q : Option Nat) (x kind : Nat) : State :=
  let s := s.runTo (divUp x 65536)
  let f := frameFmt (s.port n).txFmt.frame
  let c := s.txChar n f w
  let fin := x + f.time * s.bitTime n / 2
  let hold := if txCtrl w = 3 ∧ q.isSome then
      let arg := if txArg w = 0 then 65536 else txArg w
      some (divUp (fin + max (s.rd (SP_DE_POST.DE_POST n) * 65536) (arg * s.bitTime n)) 65536)
    else none
  let seq := (s.reg (SP_TX_SEQ n)).toNat
  let s := ((s.sendWave n x (txBits f c w.err)).inc (SP_CNT_TXCHAR n)).setReg (SP_TX_SEQ n) (BitVec.ofNat 32 (seq + 1))
  let s := if w.data.getLsbD 11 && (q.isSome || s.twRuns n) then s.txStamp n kind seq else s
  let s := match q with
    | some k => if w.fin then s else s.launchesBehind n k (divUp fin 65536 - s.time.tick)
    | none => s
  let p := s.port n
  let echo := if s.bit (SP_ECHO.ECHO_EN n) && !s.echoBlind n then
      [({ stamp := s.now, tick := s.time.tick, chr := c, q := q, fin := w.fin, matched := false } : Echo)] else []
  s.setPort n (({ p with echoes := p.echoes ++ echo } : Port).started q fin hold w.fin)

/-- The earliest start edge now, in 2^−16 ns (R41, R47): the end of the stop time in progress, or this tick; not before DE has been
high for DE_PRE. -/
def State.txFrom (s : State) (n : Nat) : Nat :=
  let p := s.port n
  let x := max p.txEnd (s.time.tick * 65536)
  if s.lineMode n = 2 then max x ((p.deRise + s.rd (SP_DE_PRE.DE_PRE n)) * 65536) else x

/-- The prefetch without its first item equal to i. -/
def Port.dropItem (p : Port) (i : PreItem) : Port := { p with prefetch := p.prefetch.erase i }

/-- Whether the launch guard keeps queue q from a character whose stop time ends at x (R109). -/
def State.guarded (s : State) (n q x : Nat) : Bool :=
  s.bit (SP_TXARB.LAUNCH_GUARD n) && [0, 1, 2, 3].any (fun k =>
    match (s.port n).launch k with
    | some l => k != q && !l.far && decide (l.at_ < s.now + (divUp x 65536 - s.time.tick))
    | none => false)

/-- The guard cuts the packet of queue q that is partly sent: counted once (R109). -/
def State.splitPacket (s : State) (n q : Nat) : State :=
  let p := s.port n
  if p.mid = some q ∧ p.split = false then
    ((s.setPort n { p with split := true }).inc (SP_CNT_TXSPLIT n)).on (SP_TEVT.TXSPLIT n)
  else s

/-- Whether DE permits a start edge in the line mode in force (R47). -/
def State.deReady (s : State) (n : Nat) : Bool := s.lineMode n != 2 || (s.port n).de

/-- The idle time that an address character waits for in ADDR_MODE 2 (R95), in 2^−16 ns. -/
def State.addrIdle (s : State) (n : Nat) (w : QWord) : Nat :=
  if s.addrMode n = 2 ∧ w.data.getLsbD 9 then
    let i := s.rd (SP_ADDR.IDLE_BITS n)
    (s.port n).txEnd + (if i = 0 then s.rxLen n else i) * s.bitTime n
  else 0

/-- The next character of the frame in a trade-wind slot starts (R41, R143), back to back; the last one completes the frame. DEDUCED (log
entry 165): TX_PAUSE ends the frame at the character boundary (R73), and its payload waits. -/
def State.frameChar (s : State) (n : Nat) : State :=
  match (s.tw n).chars with
  | [] => s
  | c :: r =>
    if s.bit (SP_CTRL.TX_PAUSE n) then
      s.setTw n { s.tw n with chars := [], sending := (s.tw n).sending.map (fun b => { b with again := true }) }
    else
    let s := (s.setTw n { s.tw n with chars := r }).sendChar n c none (max (s.port n).txEnd (s.time.tick * 65536)) 0xA
    if r.isEmpty then
      let s := s.inc (TW_CNT_FRAME_TX n)
      match (s.tw n).sending with
      | some b => if b.kind = 1 then s.inc (TW_CNT_SYNC_TX n) else s
      | none => s
    else s

/-- A start edge was due and CTS_N holds it (R51): CTS_HOLD is set at the check before it. Without CTS_EN there is no CTS_HOLD. DEDUCED (log
entry 162): in LINE_MODE 2 the check is made before DE rises. -/
def State.ctsChecked (s : State) (n : Nat) : State :=
  if s.bit (SP_FLOW.CTS_EN n) = false then (s.off (SP_STAT.CTS_HOLD n)).noteHold n
  else
    let xfree := !(s.port n).xpend.isEmpty && !s.txBarred n true
    let ready := s.txOn n && decide ((s.port n).txEnd ≤ s.time.tick * 65536)
      && (xfree || (((s.txNext n).isSome || (s.port n).deFor.isSome) && !s.txBarred n false))
    if ready && s.ctsStops n then (s.on (SP_STAT.CTS_HOLD n)).noteHold n else s

/-- TX_CHAR_START (R41, R47, R109): the next item's character starts, at the end of the stop time in progress or at once; in a
trade-wind slot the next character of the frame. -/
def execTxCharStart (p : Fin 16) (s : State) : Res :=
  let n := p.val
  if s.twRuns n then .next (if s.runs .port then s.frameChar n else s)
  else if s.txOn n = false ∨ s.txHeld n false ∨ (s.port n).xpend ≠ [] ∨ s.deReady n = false then
    .next ((if s.ctsStops n && s.txWaits n then s.runTo (divUp (s.port n).txEnd 65536) else s).ctsChecked n)
  else match s.txNext n with
    | none => .next s
    | some i =>
      if txCtrl i.word = 1 then .next s
      else
        let x := max (s.txFrom n) (s.addrIdle n i.word)
        let fin := x + (frameFmt (s.port n).txFmt.frame).time * s.bitTime n / 2
        if s.guarded n i.q fin then .next (s.splitPacket n i.q)
        else .next ((s.setPort n ((s.port n).dropItem i)).sendChar n i.word (some i.q) x 0xA)

/-- SEND_BREAK (R59): TXD goes to space for max(ARG, N_tx + 1) bit times and then to mark for one. -/
def execSendBreak (p : Fin 16) (s : State) : Res :=
  let n := p.val
  if s.txOn n = false ∨ s.txHeld n false ∨ (s.port n).xpend ≠ [] ∨ s.deReady n = false then .next (s.ctsChecked n)
  else match s.txNext n with
    | none => .next s
    | some i =>
      if txCtrl i.word ≠ 1 then .next s
      else
        let x := s.txFrom n
        let len := max (txArg i.word) ((frameFmt (s.port n).txFmt.frame).time / 2
          + (frameFmt (s.port n).txFmt.frame).time % 2 + 1)
        let fin := x + (len + 1) * s.bitTime n
        if s.guarded n i.q fin then .next (s.splitPacket n i.q)
        else
          let s := (s.runTo (divUp x 65536)).sendWave n x (List.replicate len false ++ [true])
          let s := if i.word.fin then s else s.launchesBehind n i.q (divUp fin 65536 - s.time.tick)
          .next (s.setPort n (((s.port n).dropItem i).started (some i.q) fin none i.word.fin))

/-- XON_XOFF_SEND (R52): the oldest XOFF or XON that is due leaves ahead of any queued item; XOFF_HOLD does not hold it. -/
def execXonXoffSend (p : Fin 16) (s : State) : Res :=
  let n := p.val
  match (s.port n).xpend with
  | [] => .next s
  | stop :: rest =>
    if s.txOn n = false ∨ s.txHeld n true ∨ s.deReady n = false then .next (s.ctsChecked n)
    else
      let c := s.rd (if stop then SP_FLOW.XOFF_CHAR n else SP_FLOW.XON_CHAR n)
      let s := (s.setPort n { s.port n with xpend := rest }).put (SP_STAT.XOFF_SENT n) stop
      .next (s.sendChar n { data := BitVec.ofNat 32 c } none (s.txFrom n) 0)

/-! ## DE (R46 to R48) -/

/-- Whether an item or a flow control character is ready to start and nothing holds it. -/
def State.txWants (s : State) (n : Nat) : Bool :=
  s.txOn n && ((!(s.port n).xpend.isEmpty && !s.txHeld n true)
    || (((s.txNext n).isSome || (s.port n).deFor.isSome) && !s.txHeld n false))

/-- DE_HOLD_END (R66): the hold after a DE_HOLD item ends and DE falls. -/
def execDeHoldEnd (p : Fin 16) (s : State) : Res :=
  match (s.port p.val).deHold with
  | some e => .next ((s.runTo e).lowerDe p.val)
  | none => .next s

/-- CTS_CHANGE (R33, R51): low is CTS_N's level at the pad. A deasserted CTS_N holds the next start edge, and one that is due shows it; an
asserted one ends the hold. On a running trade-wind port it has no effect. -/
def execCtsChange (p : Fin 16) (low : Bool) (s : State) : Res :=
  let n := p.val
  let cts := low != (s.port n).txFmt.line.getLsbD 7
  let s := s.setPort n { s.port n with cts := cts }
  if s.bit (SP_FLOW.CTS_EN n) && !s.twRuns n then
    .next (if cts then (s.off (SP_STAT.CTS_HOLD n)).noteHold n else s.ctsChecked n)
  else .next s

/-- Whether a character that is being received, or may yet be a break, started inside the echo window e: it may still match (R54). -/
def State.echoOpen (s : State) (n : Nat) (e : Echo) : Bool :=
  let inside (k : Nat) : Bool := decide (e.tick ≤ k) && decide (k < e.tick + s.rd (SP_ECHO.ECHO_WIN n))
  (match (s.port n).rxChar with | some c => inside c.tick | none => false)
    || (match (s.port n).cand with | some it => inside it.tick | none => false)

/-- ECHO_WINDOW_CLOSE (R54, R55): the oldest echo window closes, once a character that started in it is complete; without a match a collision
is declared. -/
def execEchoWindowClose (p : Fin 16) (s : State) : Res :=
  let n := p.val
  match (s.port n).echoes with
  | [] => .next s
  | e :: r =>
    if !e.matched && s.echoOpen n e then .next s
    else
      let s := s.runTo (e.tick + s.rd (SP_ECHO.ECHO_WIN n))
      let s := s.setPort n { s.port n with echoes := r }
      if e.matched ∨ s.echoBlind n ∨ s.bit (SP_ECHO.ECHO_EN n) = false then .next s else .next (s.collide n e)

/-- COLL_RESUME (R55): the port leaves the collision hold. -/
def execCollResume (_ : Origin) (p : Fin 16) (s : State) : Res :=
  if s.regExists (SP_CTRL p.val) then .next ((s.off (SP_STAT.COLL_HELD p.val)).noteHold p.val) else .next s

/-- What follows a write of TX_EN = 0: DE falls after the character on the line. DEDUCED (log entry 163): at the end of its stop time, without
DE_POST. -/
def State.txEnChange (s : State) (n : Nat) (en : Bool) : State :=
  if en = false ∧ (s.port n).de then (s.runTo (divUp (s.port n).txEnd 65536)).lowerDe n else s


/-- TX_EN_WRITE (R70): TX_EN = 0 keeps prefetched items and lets the character on the line end; in LINE_MODE 1 and 2 DE is then
0. -/
def execTxEnWrite (o : Origin) (p : Fin 16) (en : Bool) (s : State) : Res :=
  let n := p.val
  if s.regExists (SP_CTRL n) then
    .next ((s.regStore o (SP_CTRL n) (fldPut (SP_CTRL.TX_EN n) (s.reg (SP_CTRL n)) en.toNat)).txEnChange n en)
  else .next s

/-! ## Launches (R105 to R110) -/

/-- The launch time that NS and SEC_LO name nearest to now (R105): seconds [47:32] from the current value or one beside it, the
later where two are equally near. -/
def launchTime (now ns sl : Nat) : Nat :=
  let hi := now / second / unit32
  let t (h : Nat) : Nat := (h * unit32 + sl) * second + ns
  let dist (x : Nat) : Nat := if x ≤ now then now - x else x - now
  let c := ([hi + 1, hi] ++ (if hi = 0 then [] else [hi - 1])).map t
  c.foldl (fun a x => if dist x < dist a then x else a) (t (hi + 1))

/-- 2^32 ns, the far-hold limit (R107). -/
def farLimit : Nat := 0x100000000

/-- A launch enters far hold where its time is too far (R107, R110). -/
def State.checkFar (s : State) (n k : Nat) : State :=
  match (s.port n).launch k with
  | none => s
  | some l =>
    let far := decide (s.now + farLimit < l.at_)
    let s := s.setPort n ((s.port n).setLaunch k (some { l with far := far }))
    if far && !l.far then (s.on (SP_TEVT.FAR n)).inc (SP_CNT_FAR n) else s

/-- LAUNCH_REGISTER_LOAD (R105, R106): a LAUNCH_AT item with both time words at the head of the prefetch moves to its queue's launch
register. -/
def execLaunchRegisterLoad (p : Fin 16) (s : State) : Res :=
  let n := p.val
  let q := s.port n
  match q.prefetch with
  | i :: r =>
    if txCtrl i.word = 2 ∧ i.times.length = 2 ∧ (q.launch i.q).isNone then
      let l : Launch := {
        word := i.word, at_ := launchTime s.now (i.times.getD 0 0).toNat (i.times.getD 1 0).toNat
        far := false, loaded := s.time.tick }
      let s := (s.setPort n ({ q with prefetch := r }.setLaunch i.q (some l))).checkFar n i.q
      .next (match q.mid with
        | some j => if s.bit (SP_TXARB.LAUNCH_GUARD n) then s else s.launchesBehind n j (divUp q.txEnd 65536 - s.time.tick)
        | none => s)
    else .next s
  | [] => .next s

/-- FAR_HOLD_END (R107): the launch comes within 2^32 ns and becomes an ordinary wait. -/
def execFarHoldEnd (p : Fin 16) (k : Fin 4) (s : State) : Res :=
  let n := p.val
  match (s.port n).launch k.val with
  | some l =>
    if l.far then
      let s := s.advanceTo (l.at_ - farLimit)
      .next (s.setPort n ((s.port n).setLaunch k.val (some { l with far := false })))
    else .next s
  | none => .next s

/-- Whether some lower-numbered launch register has the same time (R108). -/
def Port.tieBelow (p : Port) (k : Nat) (l : Launch) : Bool :=
  (List.range k).any (fun j => match p.launch j with | some m => m.at_ == l.at_ | none => false)

/-- The launched character leaves: its register is free, and its queue goes on (R109), holding the port again (R89); a queue that held
it gets it back after that. -/
def State.launch (s : State) (n k : Nat) (l : Launch) (x kind : Nat) : State :=
  let p := (s.port n).setLaunch k none
  let cut := match p.openq with | some j => if j = k then p.cutq else j :: p.cutq | none => p.cutq
  let s := (s.setPort n { p with openq := some k, cutq := cut }).sendChar n l.word (some k) x kind
  s.setPort n { s.port n with after := if s.bit (SP_TXARB.LAUNCH_GUARD n) then some k else (s.port n).after }

/-- Whether launch l of queue k of port n is on time as things stand (R107, R108): loaded at least 20 ns before the DE-rise time, which
has not passed; nothing holds the transmitter, no character is on TXD then, and an address character has had its idle time by L. DE that is
already high has been so for DE_PRE by L. -/
def State.onTime (s : State) (n k : Nat) (l : Launch) : Bool :=
  let p := s.port n
  let rise := s.lineMode n == 2 && !p.de
  let pre := if rise then s.rd (SP_DE_PRE.DE_PRE n) else 0
  let start := s.time.tick + (l.at_ - s.now)
  s.txOn n && !l.far && decide (s.now + pre ≤ l.at_) && decide (l.loaded + 20 + pre ≤ start) && l.behind.isNone
    && decide (p.txEnd + pre * 65536 ≤ start * 65536) && decide (s.addrIdle n l.word ≤ start * 65536)
    && !s.txHeld n false && p.xpend.isEmpty && !p.tieBelow k l
    && (s.lineMode n != 2 || !p.de || decide (p.deRise + s.rd (SP_DE_PRE.DE_PRE n) ≤ start))

/-- The launch of port n that DE rises for at L − DE_PRE, or at once where it is LATE (R107), and that time. -/
def State.launchToRise (s : State) (n : Nat) : Option (Nat × Nat) :=
  [0, 1, 2, 3].findSome? (fun k =>
    match (s.port n).launch k with
    | some l =>
      if s.onTime n k l then some (k, l.at_ - s.rd (SP_DE_PRE.DE_PRE n))
      else if s.txOn n && !l.far && (l.behind.isNone || s.bit (SP_TXARB.PREEMPT n)) && !s.txHeld n false && decide (l.at_ ≤ s.now + s.rd (SP_DE_PRE.DE_PRE n)) then
        some (k, s.now)
      else none
    | none => none)

/-- LAUNCH_ON_TIME (R107, R108): DE rises at L − DE_PRE, where it has not risen for this launch already, and the start edge leaves at L. -/
def execLaunchOnTime (p : Fin 16) (k : Fin 4) (s : State) : Res :=
  let n := p.val
  match (s.port n).launch k.val with
  | none => .next s
  | some l =>
    if (s.port n).de ∧ (s.port n).deFor = some k.val then
      if s.txOn n = false ∨ s.txHeld n false ∨ (s.port n).xpend ≠ [] ∨ l.at_ < s.now
          ∨ s.time.tick + (l.at_ - s.now) < (s.port n).deRise + s.rd (SP_DE_PRE.DE_PRE n) then .next (s.ctsChecked n)
      else
        let s := s.advanceTo l.at_
        .next (s.launch n k.val l (s.time.tick * 65536) 8)
    else if s.onTime n k.val l then
      let s := if s.lineMode n = 2 ∧ (s.port n).de = false then (s.advanceTo (l.at_ - s.rd (SP_DE_PRE.DE_PRE n))).raiseDe n else s
      let s := s.advanceTo l.at_
      .next (s.launch n k.val l (s.time.tick * 65536) 8)
    else .next (s.ctsChecked n)

/-- LAUNCH_LATE (R107, R108): the start edge leaves at the first tick at or after L at which nothing holds it, with DE_PRE in full; with
LAUNCH_GUARD and PREEMPT 0 after the END of a packet that was on TXD at the DE-rise time. -/
def execLaunchLate (p : Fin 16) (k : Fin 4) (s : State) : Res :=
  let n := p.val
  match (s.port n).launch k.val with
  | none => .next s
  | some l =>
    let waits := l.behind.isSome && !s.bit (SP_TXARB.PREEMPT n) && !s.bit (SP_TXARB.LAUNCH_GUARD n)
    if s.txOn n = false ∨ l.far ∨ s.txHeld n false ∨ (s.port n).xpend ≠ [] ∨ waits ∨ s.onTime n k.val l then .next (s.ctsChecked n)
    else
      let s := if s.lineMode n = 2 ∧ (s.port n).de = false then s.raiseDe n else s
      let s := s.runTo (divUp (max (s.txFrom n) (s.addrIdle n l.word)) 65536)
      let s := s.advanceTo l.at_
      let late := s.now - l.at_
      let s := ((s.on (SP_TEVT.LATE n)).inc (SP_CNT_LATE n)).setReg (SP_TTX_LATEBY n) (BitVec.ofNat 32 (sat32 late))
      .next (s.launch n k.val l (max (s.txFrom n) (s.addrIdle n l.word)) 9)

/-- A step of device time re-evaluates the waiting launches of port n (R110). -/
def State.launchesStep (s : State) (n : Nat) : State := [0, 1, 2, 3].foldl (fun s k => s.checkFar n k) s

/-! ## Clock faults (R70) -/

/-- Becalm stops port n (R70): the character on TXD is cut, the one being received is lost, DE falls; a break whose BREAK_START
has been pushed is carried through. -/
def State.portBecalm (s : State) (n : Nat) : State :=
  let s := s.setTw n ((s.tw n).endFrame true)
  let p := s.port n
  s.setPort n { p with
    rxChar := none, cand := none, watch := none, cut := p.cut || decide (s.time.tick * 65536 < p.txEnd), txEnd := 0, waves := []
    de := false, deHold := none, heldAt := none, deFor := none, masked := false, maskEnd := none, echoes := [], abEdges := [], waitMark := false }

/-- Port n runs again (R57, R70, R99): a cut character is counted, a gap that ran has expired, the receiver waits for one frame
time of mark, and a break that ended meanwhile ends now. high is RXD's level at the pad. -/
def State.portResume (s : State) (n : Nat) (high : Bool) : State :=
  let p := s.port n
  let mark := s.rxdLevel n high
  let s := if p.cut then (s.inc (SP_CNT_TXCUT n)).on (SP_EVT.TXCUT n) else s
  let s := s.setPort n { s.port n with
    cut := false, needMark := some (s.time.tick, s.rxLen n * s.bitTime n), markSince := if mark then some s.time.tick else none }
  let s := s.drainHold n
  let s := if p.gapAt.isSome then s.gapExpire n else s
  match p.brk with
  | some (_, k0) => if mark then (s.breakFinish n s.now s.time.tick k0).busAlive n else s
  | none => s

/-! ## Reads -/

/-- SP_STAT as read (R81). -/
def State.spStat (s : State) (n : Nat) : Word :=
  let p := s.port n
  let v := s.reg (SP_STAT n)
  let v := fldPut (SP_STAT.BAUD_CLAMP n) v (s.dEff n != s.div n).toNat
  let v := fldPut (SP_STAT.TX_IDLE n) v (p.prefetch.isEmpty && decide (p.txEnd ≤ s.time.tick * 65536)).toNat
  let idle := match p.markSince with
    | some m => decide (s.rxLen n * s.bitTime n ≤ (s.time.tick - m) * 65536)
    | none => false
  let v := fldPut (SP_STAT.RX_IDLE n) v idle.toNat
  let v := fldPut (SP_STAT.ECHO_BLIND n) v (s.echoBlind n).toNat
  fldPut (SP_STAT.TX_PRE_LVL n) (fldPut (SP_STAT.RX_HOLD_LVL n) v p.holdLevel) p.prefetch.length

/-- SP_ASTAT as read (R115). -/
def State.spAstat (s : State) (n : Nat) : Word :=
  let v := if s.addrMode n = 0 then s.reg (SP_ASTAT n) &&& 0xFFFFFFF8 else s.reg (SP_ASTAT n)
  let v := fldPut (SP_ASTAT.HELD n) v (s.port n).held.isSome.toNat
  let v := fldPut (SP_ASTAT.GAP_DEFAULT n) v (s.rd (SP_PKT.GAP16 n) == 0 && s.addrMode n != 0).toNat
  fldPut (SP_ASTAT.ADDR_NOMARK n) v (s.addrMode n == 1 && (frameFmt (s.reg (SP_FRAME n))).bits != 9).toNat

/-- SP_TTX_STAT as read (R119). -/
def State.ttxStat (s : State) (n : Nat) : Word :=
  let p := s.port n
  BitVec.ofNat 32 (([0, 1, 2, 3].map (fun k => match p.launch k with
    | some l => 2 ^ k + l.far.toNat * 2 ^ (4 + k)
    | none => 0)).sum)

end Sys2Proof.Machine
end

