-- ==== Sys2Proof/Machine/TradeWind.lean ====
section
/-!
DEFINITION. The trade-wind bus, transmitting (R123 to R147, R153 to R161), and the guardian's strobes, loads and checks (R172 to R181):
table commits, mode switches at a first node, the cycle that follows, commit deadlines, the rise of DE, slot starts.
-/
namespace Sys2Proof.Machine

/-! ## The guardian's side of a boundary (R173 to R176, R181) -/

/-- Upsets of the guardian's copy (R175), by exclusive or: word w of entry e of mode m, numbered (m × 64 + e) × 3 + w; L and then GUARD_NS of
mode m from 768 on; last, ADDR in bits 7 to 0 and ROLE in bit 8. -/
def Guardian.upset (g : Guardian) (flips : List (Fin 777 × Word)) : Guardian :=
  flips.foldl (fun g f =>
    let i := f.1.val
    if i = 776 then { g with addr := g.addr ^^^ (f.2.toNat % 256), role := g.role != f.2.getLsbD 8 }
    else if 768 ≤ i then
      let m := (i - 768) / 2
      let t := g.copy m
      g.setCopy m (if i % 2 = 0 then { t with len := t.len ^^^ f.2.toNat } else { t with guard := t.guard ^^^ f.2.toNat })
    else
    let m := i / 192
    let t := g.copy m
    let x := t.entry (i / 3 % 64)
    let y : TwEntry := match i % 3 with
      | 0 => { x with d0 := x.d0 ^^^ f.2 }
      | 1 => { x with d1 := x.d1 ^^^ f.2 }
      | _ => { x with d2 := x.d2 ^^^ f.2 }
    g.setCopy m { t with entries := tabPut noEntry t.entries (i / 3 % 64) y }) g

/-- The check of the whole copy at a boundary (R175): one corruption is reported once. -/
def State.copyScrub (s : State) (n : Nat) : State :=
  let g := (s.tw n).guard
  if g.whole = g.ref then s
  else ((s.setGuard n { g with valid := [], ref := g.whole }).on (SF_EVT.COPY_FAIL n)).muzzle n 3

/-- A boundary of the guardian's own cycle: a new cycle of the history, no rotating window, and the check of the copy. -/
def State.guardBoundary (s : State) (n : Nat) : State :=
  let g := (s.tw n).guard
  (s.setGuard n { g with rot := false, hist := (0 :: g.hist).take 256 }).copyScrub n

/-- A cycle-start strobe (R172, R176): the guardian anchors on it, takes it, or rejects it and keeps its prediction. -/
def State.strobeAt (s : State) (n : Nat) : State :=
  let w := s.tw n
  let g := w.guard
  let c := s.tickOf w.cyc.start
  let keep := if g.openAt s.time.tick then g.openUntil s.time.tick else 0
  if g.anchored = false ∨ g.stepped then
    let s := if g.anchored then s.on (SF_EVT.STEP_ANCHOR n) else s
    (s.setGuard n { g with
      g := c, k := w.cyc.k, mode := w.cyc.mode, anchored := true, stepped := false, predicted := false, keep := keep }).guardBoundary n
  else
    let p := if g.predicted then g.g else g.next
    let lim := (g.copy w.cyc.mode).guard
    let ok := decide (c < p + lim) && decide (p < c + lim)
    let s := if ok then s else (s.inc (SF_CNT_ANCHOR n)).on (SF_EVT.ANCHOR_REJ n)
    let s := s.setGuard n { g with
      g := if ok then c else p, k := if ok then w.cyc.k else if g.predicted then g.k else (g.k + 1) % 0x10000
      mode := w.cyc.mode, predicted := false, keep := keep }
    if g.predicted then s else s.guardBoundary n

/-- A cycle-start strobe while the port is in JOINED or RUNNING (R172, R176), with DE at the pad as the windows before it and after it say. -/
def State.strobe (s : State) (n : Nat) : State :=
  let s := s.followGate n
  if (s.tw n).phase = .joined ∨ (s.tw n).phase = .running then (s.strobeAt n).gateNow n else s

/-- The guardian's check of its shadow of mode m (R173): upset changes the CRC that it computes. On a match the shadow becomes the
copy, at once or, for a commit that waits, at the boundary. -/
def State.copyCheck (s : State) (n m : Nat) (upset : Word) : State :=
  let g := (s.tw n).guard
  match tabGet (fun _ => none) g.loads m with
  | none => s
  | some (t, _) =>
    if upset = 0 then s.copyTake n m t
    else
      let s := s.setReg (GD_CRC n m) (t.crc ^^^ upset)
      ((s.setGuard n { g with
        loads := tabPut (fun _ => none) g.loads m none, valid := g.valid.filter (· != m) }).on (SF_EVT.COPY_FAIL n)).muzzle n 2

/-- Whether mode m runs or is announced as the next mode (R131). -/
def Tw.busy (w : Tw) (m : Nat) : Bool :=
  (w.phase == .observe || w.phase == .joined || w.phase == .running) && (w.cyc.mode == m
    || (match w.request with | some r => r.mode == m | none => false)
    || (match w.announced with | some a => a.mode == m | none => false)
    || (match w.decided with | some d => d.2 == m | none => false))

/-- The edit copy of mode m is committed (R131, R173, R174): at once, or for the first boundary at least 1 µs later. -/
def State.commitTable (s : State) (n m : Nat) : State :=
  let w := s.tw n
  let (t, clip) := buildRun (w.mode m).edit (s.reg (TW_CYCLE n m)).toNat (s.rd (TW_GUARD.GUARD_NS n m))
  let g := { w.guard with loads := tabPut (fun _ => none) w.guard.loads m (some (t, s.time.tick + 1000)) }
  if w.busy m then s.setTw n ({ w with guard := g }.setMode m { w.mode m with pend := some (t, clip, s.time.tick) })
  else (s.setTw n { w with guard := { g with valid := g.valid.filter (· != m) } }).applyTable n m t clip

/-- TW_TABLE_COMMIT (R131): one configuration change for each commit (R30). -/
def execTwTableCommit (o : Origin) (p : Fin 16) (modes : BitVec 4) (s : State) : Res :=
  let n := p.val
  if s.regExists (TW_TCOMMIT n) then
    .next ((List.range 4).foldl (fun s m =>
      if modes.getLsbD m then (s.commitTable n m).configWrite o (TW_TCOMMIT n) (BitVec.ofNat 32 (2 ^ m)) 0 else s) s)
  else .next s

/-- The check of committed mode m completes (R173, R174); a commit that waits for a boundary is taken there. -/
def State.checkLoad (s : State) (n m : Nat) (upset : Word) : State :=
  let w := s.tw n
  if (w.mode m).pend.isSome ∧ upset = 0 then
    match tabGet (fun _ => none) w.guard.loads m with
    | some (t, _) =>
      (s.setReg (GD_CRC n m) t.crc).setGuard n
        { w.guard with loads := tabPut (fun _ => none) w.guard.loads m (some (t, 0)) }
    | none => s
  else s.copyCheck n m upset

/-- GUARDIAN_PREDICTED_BOUNDARY (R176): no strobe by P + g, and the guardian keeps G_k = P. -/
def execGuardianPredictedBoundary (p : Fin 16) (flips : List (Fin 777 × Word)) (s : State) : Res :=
  let n := p.val
  let g := (s.tw n).guard
  if g.anchored ∧ g.predicted = false then
    let s := s.runTo (g.next + (g.copy g.mode).guard)
    let s := s.followGate n
    let g := (s.tw n).guard
    let keep := if g.openAt s.time.tick then g.openUntil s.time.tick else 0
    .next (if g.anchored = false then s
      else ((s.setGuard n { g.upset flips with
        g := g.next, k := (g.k + 1) % 0x10000, predicted := true, keep := keep }).guardBoundary n).gateNow n)
  else .next s

/-- MUZZLE (R179): cause HOST. -/
def execMuzzle (o : Origin) (p : Fin 16) (s : State) : Res :=
  if s.regExists (GD_CTRL p.val) then
    .next ((s.muzzle p.val 4).configWrite o (GD_CTRL p.val) (s.reg (GD_CTRL p.val) ||| 2) (s.reg (GD_CTRL p.val)))
  else .next s

/-- The guardian is asked to end a muzzle at the next cycle boundary (R181); a port that is not muzzled is not affected. -/
def State.askUnmuzzle (s : State) (n : Nat) : State :=
  let g := (s.tw n).guard
  if g.muzzled then s.setGuard n { g with unmuzzle := true } else s

/-- The guardian's history is cleared. -/
def State.clearHist (s : State) (n : Nat) : State := s.setGuard n { (s.tw n).guard with hist := [] }

/-- UNMUZZLE (R181): the muzzle ends at the next cycle boundary, on a port that runs no schedule at the first one of its next run (log
entry 138). A port that is not muzzled is not affected. -/
def execUnmuzzle (o : Origin) (p : Fin 16) (s : State) : Res :=
  let n := p.val
  if s.regExists (GD_CTRL n) then
    .next ((s.configWrite o (GD_CTRL n) (s.reg (GD_CTRL n) ||| 1) (s.reg (GD_CTRL n))).askUnmuzzle n)
  else .next s

/-- CLR_HIST (R191). -/
def execClrHist (o : Origin) (p : Fin 16) (s : State) : Res :=
  let n := p.val
  if s.regExists (GD_CTRL n) then
    .next ((s.clearHist n).configWrite o (GD_CTRL n) (s.reg (GD_CTRL n) ||| 4) (s.reg (GD_CTRL n)))
  else .next s

/-! ## Mode switches at a first node (R153, R155) -/

/-- D_s (R155): the earlier of C_s and the SYNC commit deadline of cycle s, for the cycle that follows the running one. -/
def State.decisionTime (s : State) (n : Nat) : Nat :=
  let w := s.tw n
  match w.cyc.table.sync with
  | some e => min w.cyc.fin (w.cyc.fin + e.start - s.commitNs n)
  | none => w.cyc.fin

/-- A request for a switch to mode m, first announced in cycle c, while mode cur runs (R153): the mode that runs withdraws. -/
def State.requestSwitch (s : State) (n m c cur : Nat) : State :=
  let w := s.tw n
  if m = cur then s.setTw n { w with request := none }
  else
    let s := (List.range 8).foldl (fun s i => s.setReg (TW_ACK_SEEN n i) 0) s
    let lead := max 2 (s.rd (TW_SWITCH.LEAD n))
    s.setTw n { w with request := some { mode := m, from_ := c % 0x10000, at_ := (c + lead) % 0x10000 } }

/-- The switch of the next cycle is decided (R155): the new mode if every address of the expected set acknowledged, otherwise the
running one. A held write then becomes a new request (R153). -/
def State.decideSwitch (s : State) (n : Nat) (r : TwSwitch) : State :=
  let w := s.tw n
  let missing := ((s.expected n w.cyc.table).filter (fun a => !s.regBit (TW_ACK_SEEN n (a / 32)) (a % 32))).length
  let done := decide (missing = 0)
  let mode := if done then r.mode else w.cyc.mode
  let s := if done then ((s.on (TW_EVT.SWITCH_DONE n)).inc (TW_CNT_SW_DONE n)).event Ev.SWITCH_DONE [n, mode]
    else ((s.on (TW_EVT.SWITCH_WDRAW n)).inc (TW_CNT_SW_WDRAW n)).event Ev.SWITCH_WITHDRAWN [n, missing]
  let s := s.setTw n { s.tw n with request := none, heldSwitch := none, decided := some (r.at_, mode) }
  match w.heldSwitch with
  | some m =>
    let late : Bool := match (w.mode mode).run.sync with
      | some e => decide (w.cyc.fin + e.start ≤ s.now + s.commitNs n)
      | none => true
    s.requestSwitch n m (r.at_ + late.toNat) mode
  | none => s

/-- SWITCH_DECISION (R155): the decision time comes ahead of the switch cycle. -/
def execSwitchDecision (p : Fin 16) (s : State) : Res :=
  let n := p.val
  let w := s.tw n
  match w.request with
  | some r =>
    if w.phase = .running ∧ r.at_ = (w.cyc.k + 1) % 0x10000 then .next ((s.advanceTo (s.decisionTime n)).decideSwitch n r)
    else .next s
  | none => .next s

/-- TW_SWITCH (R153): a write requests, replaces, withdraws, waits for the decision, or is ignored. -/
def execTwSwitch (o : Origin) (p : Fin 16) (v : Word) (s : State) : Res :=
  let n := p.val
  if s.regExists (TW_SWITCH n) = false then .next s
  else
    let s := s.regStore o (TW_SWITCH n) v
    let w := s.tw n
    if w.role = false ∨ w.phase ≠ .running then .next (s.on (TW_EVT.SWITCH_IGN n))
    else
      let m := s.rd (TW_SWITCH.NEXT_MODE n)
      let cur := match w.decided with | some d => if d.1 = (w.cyc.k + 1) % 0x10000 then d.2 else w.cyc.mode | none => w.cyc.mode
      let open_ (base : Nat) (t : TwTable) : Bool :=
        match t.sync with | some e => decide (s.now + s.commitNs n < base + e.start) | none => false
      let ahead := if open_ w.cyc.start w.cyc.table then 0 else if open_ w.cyc.fin (w.mode cur).run then 1 else 2
      let c := (w.cyc.k + ahead) % 0x10000
      match w.request with
      | some r =>
        if (c + 0x10000 - r.at_) % 0x10000 < 0x8000 then .next (s.setTw n { w with heldSwitch := some m })
        else .next (s.requestSwitch n m c cur)
      | none => .next (s.requestSwitch n m c cur)

/-! ## The cycle that follows (R125, R131, R148, R150, R159, R174) -/

/-- Commits that have waited at least 1 µs take effect for port and guardian together (R174). -/
def State.applyCommits (s : State) (n : Nat) : State :=
  (List.range 4).foldl (fun s m =>
    match ((s.tw n).mode m).pend with
    | some (t, clip, k) => if k + 1000 ≤ s.time.tick then (s.applyTable n m t clip).copyCheck n m 0 else s
    | none => s) s

/-- The mode of the next cycle and whether a member then waits for the switch SYNC (R155, R156). -/
def Tw.nextMode (w : Tw) : Nat :=
  match w.decided with
  | some d => if d.1 = (w.cyc.k + 1) % 0x10000 then d.2 else w.cyc.mode
  | none => w.cyc.mode

/-- Whether the next cycle is a switch cycle that the member has acknowledged (R156). -/
def Tw.switchNext (w : Tw) : Bool :=
  match w.announced with
  | some a => !w.role && a.valid && a.sent && a.at_ == (w.cyc.k + 1) % 0x10000
  | none => false

/-- The cycle that follows the running one, from table t of its mode (R125, R148, R150). -/
def Tw.nextCycle (w : Tw) (t : TwTable) (shift : Int) : TwCycle :=
  { k := (w.cyc.k + 1) % 0x10000, mode := w.nextMode, table := t, start := ((w.cyc.fin : Int) - shift).toNat
    num := if w.role ∨ w.align then 1 else w.num, den := if w.role ∨ w.align then 1 else w.den
    done := w.cyc.doneNext
    intruded := (w.cyc.intruded.filter (fun e => decide (64 ≤ e))).map (fun e => e - 64) }

/-- DELAY that a DELAY_SET has brought is applied (R159); the answer is how far the cycle start moves. -/
def State.applyDelay (s : State) (n : Nat) : Int × State :=
  let w := s.tw n
  match w.dlyPend with
  | none => (0, s)
  | some d =>
    let old := s.rd (TW_DLY.DELAY_NS n)
    let s := (s.wr (TW_DLY.DELAY_NS n) d).on (TW_EVT.DLY_SET n)
    (if w.align then 0 else (d : Int) - old, s.setTw n { w with dlyPend := none, dlyUnset := false })

/-- Whether port n is in a cycle. -/
def Tw.cycling (w : Tw) : Bool := w.phase == .observe || w.phase == .joined || w.phase == .running

/-- Whether a structural reload of the port waits for the end of its cycle (R492). -/
def Port.reloadWaits (p : Port) : Bool := match p.reload with | some r => r.structural && r.drained.isNone | none => false

/-- The first cycle of a first node that is in STARTING (R126). -/
def Tw.firstOf (w : Tw) : TwCycle :=
  { k := w.j, mode := w.init, table := (w.mode w.init).run, start := w.from_, done := w.cyc.doneNext }

/-- Whether the port stops at the end of the running cycle (R160, R492). -/
def State.stopping (s : State) (n : Nat) : Bool := (s.tw n).stop || (s.tw n).restart || (s.port n).reloadWaits

/-- The cycle after the running one, or the first one, as far as it can be foreseen: not past a stop or an undecided switch. A member that
waits for a switch SYNC foresees the mode it runs. -/
def State.foreseen (s : State) (n : Nat) : Option TwCycle :=
  let w := s.tw n
  let undecided : Bool := match w.request with | some r => r.at_ == (w.cyc.k + 1) % 0x10000 | none => false
  if w.phase = .starting then some w.firstOf
  else if w.cycling = false ∨ s.stopping n ∨ undecided then none
  else
    let m := w.mode w.nextMode
    let t := match m.pend with
      | some (t, _, k) => if k + 1000 ≤ s.tickOf w.cyc.fin then t else m.run
      | none => m.run
    let shift : Int := match w.dlyPend with
      | some d => if w.align then 0 else (d : Int) - s.rd (TW_DLY.DELAY_NS n)
      | none => 0
    some (w.nextCycle t shift)

/-! ## Why a slot is not used (R28, R151, R156, R159, R180 to R183) -/

/-- Why port n may not transmit in a slot of cycle c, which is the running one or the next: muzzled, or not yet joined, withholding, or in the
rest of a cycle whose counter jumped. -/
def State.barred (s : State) (n : Nat) (next : Bool) (c : TwCycle) : Option Nat :=
  let w := s.tw n
  let joined := w.phase == .joined || (next && w.joining)
  if w.guard.muzzled then some 2
  else if w.role = false ∧ (joined = false ∨ s.bit (SF_STAT.WITHHOLD n) ∨ (next && w.withholdNext) ∨ c.jump) then some 1
  else none

/-- Why an own slot passes unused at its commit deadline due (R28): barred, waiting for the switch SYNC, or delay unset. -/
def State.withheldCause (s : State) (n due : Nat) (next : Bool) (c : TwCycle) (x : TwEntry) : Option Nat :=
  let w := s.tw n
  match s.barred n next c with
  | some k => some k
  | none =>
    if w.role = false ∧ (w.awaitSync ∨ due < w.checkedAt ∨ (next && w.switchNext)) then some 6
    else if w.role = false ∧ w.dlyUnset ∧ s.bit (TW_CTRL.DLY_REQ n) ∧ (x.kind = 2 ∨ x.kind = 6) then some 4
    else none

/-- SLOT_WITHHELD with its cause (R28). -/
def State.withhold (s : State) (n e cause : Nat) : State := s.giveWay Ev.SLOT_WITHHELD 6 2 1 n [e, cause]

/-- An own slot passes unused: counted under its cause (R151, R156, R159, R180). -/
def State.passSlot (s : State) (n e cause : Nat) (x : TwEntry) : State :=
  let s := match cause with
    | 4 => if x.kind = 2 then s.inc (TW_CNT_NODLY n) else s
    | 6 => s.inc (SP_CNT_LATE n)
    | _ => s.inc (SF_CNT_WITHHELD n)
  s.withhold n e cause

/-! ## Frames for slots (R132 to R135, R140 to R142, R157, R158) -/

/-- The slot of entry e whose commit deadline is the next to come: in the running cycle, or in the following one (then true). -/
def State.slotToCommit (s : State) (n e : Nat) : Option (TwCycle × TwEntry × Bool) :=
  let w := s.tw n
  let x := w.cyc.table.entry e
  if w.cycling ∧ x.en ∧ w.cyc.done.contains e = false ∧ s.now ≤ w.cyc.slotStart x then some (w.cyc, x, false)
  else match s.foreseen n with
    | some c => if (c.table.entry e).en ∧ c.done.contains e = false then some (c, c.table.entry e, true) else none
    | none => none

/-- Whether a frame of c characters fits slot x (R141). -/
def State.slotFits (s : State) (n c : Nat) (x : TwEntry) : Bool :=
  decide (c * 11 * s.bitTime n + s.rd (SP_DE_POST.DE_POST n) * 65536 ≤ x.len * 65536)

/-- The largest payload that fits slot x, at most 255 (R141); none where even a frame with LEN 0 does not fit. -/
def State.slotRoom (s : State) (n : Nat) (x : TwEntry) : Option Nat :=
  let c := (x.len * 65536 - s.rd (SP_DE_POST.DE_POST n) * 65536) / (11 * max 1 (s.bitTime n))
  if c < 8 ∨ x.len < s.rd (SP_DE_POST.DE_POST n) then none else some (min 255 (c - 8))

/-- A frame that does not fit its slot (R140, R141). -/
def State.shortSlot (s : State) (n : Nat) : State := (s.inc (TW_CNT_SHORT n)).on (TW_EVT.SHORT n)

/-- The queue that serves slot x (R128). -/
def State.slotQueue (s : State) (n : Nat) (x : TwEntry) : Option Nat :=
  if x.qsel then (if (s.queue x.qid).ex then some x.qid else none) else s.boundQueue (SP_QTX n 0)

/-- Resident words popped for a slot (R140, R141, R147): up to room payload bytes of one packet, at most fuel words. The answer is the
payload, the words popped, whether the END word was among them, and the state. Time words of a LAUNCH_AT are discarded (R111), other
control codes are counted in SP_CNT_TXBAD. -/
def State.popSlot (s : State) (n q room : Nat) (pay : List QWord) (words : Nat) : Nat → List QWord × Nat × Bool × State
  | 0 => (pay, words, false, s)
  | fuel + 1 =>
    let skip := tabGet (fun _ => 0) (s.tw n).skips q
    if skip = 0 ∧ room ≤ pay.length then (pay, words, false, s)
    else match s.pop q with
      | (.word w _, s) =>
        let setSkip (k : Nat) (s : State) : State := s.setTw n { s.tw n with skips := tabPut (fun _ => 0) (s.tw n).skips q k }
        let (pay, s) :=
          if skip ≠ 0 then (pay, setSkip (skip - 1) s)
          else
            let byte : QWord := { data := w.data &&& 0x8FF, err := w.err }
            match txCtrl w with
            | 0 => (pay ++ [byte], s)
            | 2 => (pay ++ [byte], setSkip 2 ((s.inc (SP_CNT_LAUNCH_TW n)).on (SP_TEVT.LAUNCH_TW n)))
            | 3 => (pay ++ [byte], s)
            | _ => (pay, s.txBad n)
        if w.fin then (pay, words + 1, true, setSkip 0 s) else s.popSlot n q room pay (words + 1) fuel
      | (_, s) => (pay, words, false, s)

/-- ACK and ACK_SW of a frame of port n (R135, R154), and the state in which the acknowledgement has been carried. -/
def State.ackFields (s : State) (n : Nat) : Nat × Nat × State :=
  let w := s.tw n
  match w.announced with
  | some a =>
    let before : Bool := decide (0 < (a.at_ + 0x10000 - w.cyc.k) % 0x10000) && decide ((a.at_ + 0x10000 - w.cyc.k) % 0x10000 < 0x8000)
    if w.role = false ∧ a.valid ∧ before then (0x80 + a.mode, a.at_, s.setTw n { w with announced := some { a with sent := true } })
    else (0, 0, s)
  | none => (0, 0, s)

/-- Whether an acknowledgement is pending (R154). -/
def Tw.ackPending (w : Tw) : Bool := match w.announced with | some a => !w.role && a.valid && !a.sent | none => false

/-- The port with frame buffer b added. -/
def State.addBuf (s : State) (n : Nat) (b : SlotBuf) : State := s.setTw n { s.tw n with bufs := (s.tw n).bufs ++ [b] }

/-- The head of a DATA or DATA_CONT frame (R134). -/
def dataHead (addr type frag ack sw len : Nat) : List Nat := [addr, type + 16 * frag, ack, sw / 256, sw % 256, len]

/-- The number that bytes spell, most significant first (R132). -/
def beNat (bs : List Nat) : Nat := bs.foldl (fun a b => a * 256 + b) 0

/-- Bytes i to i + k − 1 of a frame as a number. -/
def fieldOf (data : List Nat) (i k : Nat) : Nat := beNat ((data.drop i).take k)

/-- A payload that waits for queue q goes into slot e ahead of every newer word (R145, R146, R178). -/
def State.resendKept (s : State) (n e : Nat) (x : TwEntry) (next : Bool) (b : SlotBuf) : State :=
  if s.slotFits n (8 + b.payload.length) x = false then s.shortSlot n
  else
    let (ack, sw, s) := s.ackFields n
    let w := s.tw n
    let b' := { b with
      entry := e, next := next, kind := x.kind, kept := false, blocked := false
      head := dataHead w.addr (if b.fin then 2 else 3) b.frag ack sw b.payload.length }
    s.setTw n { w with bufs := w.bufs.erase b ++ [b'] }

/-- The frame of an own DATA or OPEN slot is built (R141, R142, R144, R145). -/
def State.commitData (s : State) (n e : Nat) (x : TwEntry) (next : Bool) : State :=
  let q := s.slotQueue n x
  match (s.tw n).bufs.find? (fun b => b.kept && b.queue == q) with
  | some b => s.resendKept n e x next b
  | none =>
    match s.slotRoom n x with
    | none => s.shortSlot n
    | some room =>
      let (pay, words, fin, s) := match q with
        | some q => s.popSlot n q room [] 0 (s.queue q).ready
        | none => ([], 0, false, s)
      let w := s.tw n
      let key := match q with | some k => k | none => 0x10000
      let isOpen := w.openTx.contains key
      let empty := words == 0
      if empty ∧ (x.kind = 6 ∨ (isOpen = false ∧ s.bit (TW_CTRL.EMPTY_FRAME n) = false ∧ w.ackPending = false)) then s
      else
        let fin := fin || (empty && !isOpen)
        let frag := if isOpen then tabGet (fun _ => 0) w.frags key else 0
        let s := if empty ∨ pay.isEmpty then s.inc (TW_CNT_EMPTY n) else if fin then s else s.inc (TW_CNT_FRAG n)
        let (ack, sw, s) := s.ackFields n
        let w := s.tw n
        let s := s.setTw n { w with
          openTx := if fin then w.openTx.filter (· != key) else if isOpen then w.openTx else key :: w.openTx
          frags := tabPut (fun _ => 0) w.frags key (if fin then 0 else (frag + 1) % 16) }
        s.addBuf n {
          entry := e, next := next, kind := x.kind, payload := pay, queue := some key, fin := fin, frag := frag, part := isOpen || !fin
          head := dataHead w.addr (if fin then 2 else 3) frag ack sw pay.length }

/-- The delay of a delay-table entry: the mean of its samples (R158; log entry 73 on its rounding). -/
def DelayEntry.mean (d : DelayEntry) : Nat := if d.samples.isEmpty then 0 else d.samples.sum / d.samples.length

/-- The delay-table entry of address a. -/
def Tw.delay (w : Tw) (a : Nat) : DelayEntry := tabGet (fun _ => {}) w.delays a

/-- The head of a SYNC frame of cycle c (R134). -/
def State.syncHead (s : State) (n : Nat) (c : TwCycle) : List Nat :=
  let (next, sw) := match (s.tw n).request with
    | some r => if (c.k + 0x10000 - r.from_) % 0x10000 < 0x8000 then (r.mode, r.at_) else (c.mode, 0)
    | none => (c.mode, 0)
  [0xFF, 1] ++ beBytes c.k 2 ++ [c.mode, next] ++ beBytes sw 2 ++ beBytes (c.start / second) 6 ++ beBytes (c.start % second) 4

/-- The target of a delay slot (R157): OWNER, or the cycle's target. -/
def State.delayTarget (s : State) (n : Nat) (c : TwCycle) (x : TwEntry) : Option Nat :=
  if x.owner = 0xFF then s.cycleTarget n c.table c.k else some x.owner

/-- A frame that the port builds itself goes into slot e, if it fits (R140). -/
def State.addBuilt (s : State) (n e : Nat) (x : TwEntry) (next : Bool) (head : List Nat) (meas : Option (Nat × Nat)) : State :=
  if s.slotFits n (head.length + 2) x then
    s.addBuf n { entry := e, next := next, kind := x.kind, head := head, meas := meas }
  else s.shortSlot n

/-- The SYNC or delay frame of slot e is built (R140, R157, R158); one with nothing to carry passes unused. DEDUCED (log entry 74): a DELAY_SET
with OWNER 0xFF carries the SEQ of its measurement, another the SEQ of its own cycle. -/
def State.commitBuilt (s : State) (n e : Nat) (c : TwCycle) (x : TwEntry) (next : Bool) : State :=
  let w := s.tw n
  match x.kind with
  | 1 => s.addBuilt n e x next (s.syncHead n c) none
  | 3 =>
    match s.delayTarget n c x with
    | some a => s.addBuilt n e x next [a, 4, c.k % 256] (some (a, c.k % 256))
    | none => s
  | 4 =>
    match c.req with
    | some (seq, t2) =>
      if s.slotFits n 12 x = false then s.shortSlot n
      else
        let turn := c.slotStart x - t2
        let (ack, sw, s) := s.ackFields n
        s.addBuilt n e x next
          ([w.addr, 5, ack] ++ beBytes sw 2 ++ [seq] ++ beBytes turn 4) none
    | none => s
  | 5 =>
    let carry : Option (Nat × Nat × Bool) :=
      if x.owner = 0xFF then (w.results.head?).map (fun r => (r.1, r.2, !(w.delay r.1).fresh))
      else if (w.delay x.owner).samples.isEmpty then none
      else some (x.owner, c.k % 256, !(w.delay x.owner).fresh)
    match carry with
    | none => s
    | some (a, seq, stale) =>
      let d := w.delay a
      if s.slotFits n 10 x = false then s.shortSlot n
      else
        let s := s.setTw n { w with
          results := if x.owner = 0xFF then w.results.drop 1 else w.results
          delays := tabPut (fun _ => {}) w.delays a { d with fresh := false } }
        s.addBuilt n e x next
          ([a, 6, seq] ++ beBytes d.mean 4 ++ [(decide (d.samples.length = 8)).toNat + 2 * stale.toNat]) none
  | _ => s

/-! ## The frame of a slot and the rise of DE (R132, R133, R143 to R146, R178) -/

/-- The characters of a frame: the head, the payload and the CRC (R132, R133). -/
def SlotBuf.chars (b : SlotBuf) : List QWord :=
  let bytes := b.head ++ b.payload.map (fun w => w.data.toNat % 256)
  let crc := crc16 bytes
  let plain (v : Nat) : QWord := { data := BitVec.ofNat 32 v }
  match b.head with
  | [] => []
  | a :: r => plain (0x100 + a) :: r.map plain ++ b.payload ++ [plain (crc / 256), plain (crc % 256)]

/-- A commit that waited for a buffer takes the one that has just become free, if its slot starts 200 ns later or more (R144). -/
def State.serveWaiting (s : State) (n : Nat) : State :=
  let w := s.tw n
  let slot (y : Nat × Bool) : Option TwEntry := (if y.2 then s.foreseen n else some w.cyc).bind (fun c =>
    if s.now + 200 ≤ c.slotStart (c.table.entry y.1) then some (c.table.entry y.1) else none)
  match w.waiting.find? (fun y => (slot y).isSome) with
  | some y =>
    if w.occupied < 4 then (s.setTw n { w with waiting := w.waiting.erase y }).commitData n y.1 ((slot y).getD {}) y.2 else s
  | none => s

/-- The oldest payload that waits for the queue of slot buffer b (R145, R146, R178). -/
def Tw.elder (w : Tw) (b : SlotBuf) : Option SlotBuf := w.bufs.find? (fun k => b.queue.isSome && k.kept && k.queue == b.queue)

/-- Slot buffer b with the payload of k. -/
def SlotBuf.carry (b k : SlotBuf) : SlotBuf :=
  { b with
    payload := k.payload, fin := k.fin, frag := k.frag, part := k.part
    head := dataHead (b.head.getD 0 0) (if k.fin then 2 else 3) k.frag (b.head.getD 2 0) (fieldOf b.head 3 2) k.payload.length }

/-- What slot buffer b sends: a payload that waits for its queue goes ahead of newer words, also of those in b (R145, R218). -/
def Tw.frameOf (w : Tw) (b : SlotBuf) : SlotBuf := match w.elder b with | some k => b.carry k | none => b

/-- The slot buffers when b's frame goes on the line: a payload of b that is displaced waits behind the others of its queue. -/
def Tw.bufsAfter (w : Tw) (b : SlotBuf) : List SlotBuf :=
  match w.elder b with
  | some k => (w.bufs.erase k).map (fun y => if y = b then { b with kept := true } else y)
  | none => w.bufs.erase b

/-- When DE rises for a frame of cycle c whose slot begins at t and whose start edge leaves at x (R143, R177): DE_PRE before, not before
t − GUARD_NS. -/
def State.riseTime (s : State) (n : Nat) (c : TwCycle) (t x : Nat) : Nat := max (x - s.rd (SP_DE_PRE.DE_PRE n)) (t - c.table.guard)

/-- The start edge of entry x's frame in cycle c: the slot start, or in an OPEN slot ADDR × OPEN_STEP_NS later (R143, R145). -/
def State.launchTime (s : State) (n : Nat) (c : TwCycle) (x : TwEntry) : Nat :=
  c.slotStart x + (if x.kind = 6 then (s.tw n).addr * s.rd (TW_OPEN.OPEN_STEP_NS n) else 0)

/-- DE rises for the frame of buffer b at rise; with the window closed the attempt is blocked, and the frame will run out with DE
low (R178). -/
def State.raiseFrame (s : State) (n : Nat) (b : SlotBuf) (rise : Nat) : State :=
  let s := s.advanceTo rise
  let w := s.tw n
  (s.setTw n { w with bufs := w.bufsAfter b, sending := some { w.frameOf b with up := true } }).raiseDe n

/-- Whether a start edge has been seen from g before the slot that begins at t (R145). -/
def Tw.edgeSince (w : Tw) (t g : Nat) : Bool := match w.lastEdge with | some k => decide (t - g ≤ k) | none => false

/-- The cycle of a built frame: the running one or the next. -/
def State.cycleOf (s : State) (n : Nat) (b : SlotBuf) : Option TwCycle := if b.next then s.foreseen n else some (s.tw n).cyc

/-- Whether a frame of buffer b in an OPEN slot x would not end within it from its launch offset (R145). -/
def State.openLong (s : State) (n : Nat) (c : TwCycle) (x : TwEntry) (b : SlotBuf) : Bool :=
  decide (c.slotEnd x * 65536 < s.launchTime n c x * 65536 + (8 + b.payload.length) * 11 * s.bitTime n)

/-- Whether the frame of buffer b fits slot x (R141); what the port built itself was held to it at its deadline. -/
def State.frameFits (s : State) (n : Nat) (x : TwEntry) (b : SlotBuf) : Bool := b.queue.isNone || s.slotFits n (8 + b.payload.length) x

/-- When DE rises for the built frame b, whose slot is still to come (R143); for none that something bars, holds or defers, or whose slot will
start in settling (R161). DEDUCED (log entry 166): before the first cycle of a first node or of a joining member nothing rises; DE then
rises with its slot. -/
def State.riseOf (s : State) (n : Nat) (b : SlotBuf) : Option Nat :=
  match s.cycleOf n b with
  | some c =>
    let x := c.table.entry b.entry
    let t := c.slotStart x
    let w := s.tw n
    let f := w.frameOf b
    let held := b.kept || !x.en || decide (t ≤ s.now) || (s.barred n b.next c).isSome || w.forfeit || w.sending.isSome
      || (w.phase != .running && w.phase != .joined) || s.bit (SP_STAT.BAUD_SETTLING n) || (b.next && (s.port n).rate.isSome)
      || s.bit (SP_CTRL.TX_PAUSE n) || !s.frameFits n x f
      || (x.kind == 6 && (w.edgeSince t c.table.guard || s.openLong n c x f))
    if held then none else some (s.riseTime n c t (s.launchTime n c x))
  | none => none

/-- The built frame whose DE rises next, and when. -/
def State.nextRise (s : State) (n : Nat) : Option (SlotBuf × Nat) :=
  (s.tw n).bufs.foldl (fun a b => match s.riseOf n b, a with
    | some r, some y => if r < y.2 then some (b, r) else a
    | some r, none => some (b, r)
    | none, _ => a) none

/-- DE rises for the next built frame, where that is before lim (R143). -/
def State.earlyRise (s : State) (n lim : Nat) : State :=
  match s.nextRise n with
  | some (b, r) => if r < lim then s.raiseFrame n b r else s
  | none => s

/-- DE_RISE (R47, R49, R107): in LINE_MODE 2, for a ready item that nothing holds, or for a launch at its DE-rise time; on a running schedule
for the next built frame. -/
def execDeRise (p : Fin 16) (s : State) : Res :=
  let n := p.val
  if s.twRuns n then
    match s.nextRise n with
    | some (b, r) => .next (if s.runs .port then s.raiseFrame n b r else s)
    | none => .next s
  else if s.lineMode n ≠ 2 ∨ (s.port n).de then .next s
  else if s.txWants n then .next (s.raiseDe n)
  else match s.launchToRise n with
    | some (k, t) =>
      let s := (s.advanceTo t).raiseDe n
      .next (s.setPort n { s.port n with deFor := some k })
    | none => .next s

/-- DE falls at tick fall after a frame in a slot (R143), and its buffer is free. -/
def State.slotDeFall (s : State) (n fall : Nat) : State :=
  let s := (s.runTo fall).lowerDe n
  (s.setTw n ((s.tw n).endFrame false)).serveWaiting n

/-- DE_FALL (R47, R143): DE_POST after the end of the last stop time, or after a hold arose. An item that is ready keeps DE
high. -/
def execDeFall (p : Fin 16) (s : State) : Res :=
  let n := p.val
  let q := s.port n
  if q.de = false ∨ q.deHold.isSome ∨ s.txWants n ∨ (s.tw n).chars.isEmpty = false ∨ (s.tw n).raised then .next s
  else
    let e := divUp q.txEnd 65536
    let base := match q.heldAt with | some h => max h e | none => e
    let fall := base + s.rd (SP_DE_POST.DE_POST n)
    if s.twRuns n then .next (s.slotDeFall n fall) else .next ((s.runTo fall).lowerDe n)

/-- Device time is brought to t on a running schedule; a rise of DE before t comes first. -/
def State.twAdvance (s : State) (n t : Nat) : State := (s.earlyRise n t).advanceTo t

/-! ## Commit deadlines (R140, R144, R151, R156) -/

/-- The lead of a slot's deadline: COMMIT_NS, or 200 ns for the delay frames (R140). -/
def State.commitLead (s : State) (n : Nat) (x : TwEntry) : Nat :=
  if x.kind = 3 ∨ x.kind = 4 ∨ x.kind = 5 then 200 else s.commitNs n

/-- Whether entry x is an own slot of the port in cycle c. -/
def Tw.ownsIn (w : Tw) (c : TwCycle) (x : TwEntry) : Bool := ownSlot w.role w.addr c.req.isSome x

/-- The deadline of entry e has passed. -/
def State.markDone (s : State) (n e : Nat) (next : Bool) : State :=
  let w := s.tw n
  s.setTw n { w with cyc :=
    if next then { w.cyc with doneNext := e :: w.cyc.doneNext } else { w.cyc with done := e :: w.cyc.done } }

/-- SLOT_COMMIT_DEADLINE (R140): the next own slot of entry e reaches its commit deadline; a port whose slots are forfeited, or
whose slot is withheld, passes it. A commit that finds all 4 buffers occupied waits (R144). -/
def execSlotCommitDeadline (p : Fin 16) (e : Fin 64) (s : State) : Res :=
  let n := p.val
  match s.slotToCommit n e.val with
  | none => .next s
  | some (c, x, next) =>
    if (s.tw n).ownsIn c x = false ∨ s.runs .port = false then .next s
    else
      let due := c.slotStart x - s.commitLead n x
      let s := (s.twAdvance n due).markDone n e.val next
      if (s.tw n).forfeit then .next s
      else match s.withheldCause n due next c x with
        | some cause => .next (s.passSlot n e.val cause x)
        | none =>
          if x.kind = 2 ∨ x.kind = 6 then
            if 4 ≤ (s.tw n).occupied ∧ !(s.tw n).bufs.any (fun b => b.kept && b.queue == s.slotQueue n x) then
              .next (s.setTw n { s.tw n with waiting := (s.tw n).waiting ++ [(e.val, next)] })
            else .next (s.commitData n e.val x next)
          else .next (s.commitBuilt n e.val c x next)

/-! ## Slot starts (R143 to R146, R161, R180) -/

/-- The start edge of the frame for which DE is up leaves at x (R143); a DELAY_REQ is remembered with t1, and a member shows the TURN it sends
(R158, R168). -/
def State.startFrame (s : State) (n x : Nat) : State :=
  let s := s.advanceTo x
  let w := s.tw n
  match w.sending with
  | none => s
  | some b =>
    let s := if b.kind = 4 then s.setReg (TW_TURN n) (BitVec.ofNat 32 (fieldOf b.head 6 4)) else s
    (s.setTw n { w with
      sending := some { b with up := false }, chars := b.chars
      meas := match b.meas with
        | some (a, seq) => w.meas.filter (fun m => m.2.2.1 != a) ++ [(w.cyc.k, seq, a, x)]
        | none => w.meas }).frameChar n

/-- The frame of buffer b starts in the slot that begins at t, its start edge at x (R143). -/
def State.sendFrame (s : State) (n : Nat) (b : SlotBuf) (t x : Nat) : State :=
  (s.raiseFrame n b (s.riseTime n (s.tw n).cyc t x)).startFrame n x

/-- Buffer b keeps its payload, and one without a payload is dropped. -/
def State.keepBuf (s : State) (n : Nat) (b : SlotBuf) : State :=
  let w := s.tw n
  s.setTw n { w with bufs :=
    if b.queue.isSome then w.bufs.map (fun y => if y = b then { b with kept := true } else y) else w.bufs.erase b }

/-- A slot that starts in settling passes unused (R161). -/
def State.settleSlot (s : State) (n e : Nat) : State := (s.inc (TW_CNT_SETTLE n)).withhold n e 3

/-- SLOT_START (R143, R145, R161): the frame built for entry e leaves at the slot start, or in an OPEN slot at the launch offset; edge
tells that a start edge arrives between the rise of DE and the start edge. A commit that still waits finds no buffer (R144). A slot that
has come to be barred since its deadline passes unused (R180, R182, R183), and one that is forfeited or paused, silently (R28, R73). -/
def execSlotStart (p : Fin 16) (e : Fin 64) (edge : Bool) (s : State) : Res :=
  let n := p.val
  let w := s.tw n
  let x := w.cyc.table.entry e.val
  if w.cycling = false ∨ x.en = false ∨ w.owns x = false ∨ s.runs .port = false then .next s
  else
    let t := w.cyc.slotStart x
    let at_ := s.launchTime n w.cyc x
    if w.waiting.contains (e.val, false) then
      let s := (s.advanceTo (t - 200)).setTw n { w with waiting := w.waiting.erase (e.val, false) }
      .next (((s.inc (TW_CNT_NOBUF n)).on (TW_EVT.NOBUF n)).withhold n e.val 5)
    else match w.sending.filter (fun b => b.up && !b.next && b.entry == e.val) with
    | some _ =>
      if s.bit (SP_STAT.BAUD_SETTLING n) then .next (((s.advanceTo t).withdraw n).settleSlot n e.val)
      else if s.bit (SP_CTRL.TX_PAUSE n) then .next ((s.advanceTo t).withdraw n)
      else if x.kind = 6 ∧ (edge ∨ w.edgeSince t w.cyc.table.guard) then .next ((s.withdraw n).inc (TW_CNT_OPEN_DEFER n))
      else .next (s.startFrame n at_)
    | none =>
      match w.bufs.find? (fun b => b.entry == e.val && !b.next && !b.kept) with
      | none => .next (if s.bit (SP_STAT.BAUD_SETTLING n) then (s.advanceTo t).settleSlot n e.val else s)
      | some b =>
        if s.bit (SP_STAT.BAUD_SETTLING n) then .next (((s.advanceTo t).keepBuf n b).settleSlot n e.val)
        else match s.barred n false w.cyc with
          | some cause => .next (((s.advanceTo t).keepBuf n b).passSlot n e.val cause x)
          | none =>
            let f := w.frameOf b
            if w.forfeit ∨ w.sending.isSome ∨ s.bit (SP_CTRL.TX_PAUSE n) then .next ((s.advanceTo t).keepBuf n b)
            else if s.frameFits n x f = false then .next (((s.advanceTo t).keepBuf n b).shortSlot n)
            else if x.kind = 6 ∧ (w.edgeSince t w.cyc.table.guard ∨ s.openLong n w.cyc x f) then
              .next ((s.keepBuf n b).inc (TW_CNT_OPEN_DEFER n))
            else if x.kind = 6 ∧ edge then
              .next (((s.raiseFrame n b (s.riseTime n w.cyc t at_)).withdraw n).inc (TW_CNT_OPEN_DEFER n))
            else .next (s.sendFrame n b t at_)

end Sys2Proof.Machine
end

