-- ==== Sys2Proof/Machine/TwFrames.lean ====
section
/-!
DEFINITION. The trade-wind bus, receiving (R136 to R139), member alignment and joining (R148 to R151), cycle boundaries, starts and stops
(R123 to R127, R151, R152, R160), the schedule faults (R182 to R188), and what the registers of both show.
-/
namespace Sys2Proof.Machine

/-! ## The open receive packet (R139) -/

/-- The open packet of port n closes: its held item with END and ERR, counted in TW_CNT_TRUNC. -/
def State.closePkt (s : State) (n : Nat) : State :=
  match (s.tw n).pkt with
  | none => s
  | some k =>
    let s := (s.inc (TW_CNT_TRUNC n)).setTw n { s.tw n with pkt := none }
    match k.item with
    | some i => s.sendOrDrop n { i.withEnd with words := i.withEnd.words.map (fun w => { w with err := true }) }
    | none => s

/-! ## Foreign energy, babblers and intruders (R171, R186, R187) -/

/-- LIMIT of SF_BABBLE (R195). -/
def State.babbleLimit (s : State) (n : Nat) : Nat :=
  let l := s.rd (SF_BABBLE.LIMIT n)
  if l = 0 ∨ 16 < l then 16 else l

/-- The history of an entry at a cycle boundary (R186): an entry is reported again only after 16 cycles in a row without energy. -/
def Babble.shift (b : Babble) : Babble :=
  let clean := if b.bits % 2 = 1 then 0 else b.clean + 1
  if 16 ≤ clean then {} else { bits := b.bits * 2 % 0x10000, clean := clean, reported := b.reported }

/-- Foreign energy of entry e, in the running cycle or in the previous one (old): counted once in its slot, entered in the history,
and reported as a babbler (R171, R186). -/
def State.foreignIn (s : State) (n : Nat) (old : Bool) (c : TwCycle) (e : Nat) (addr : Option Nat) : State :=
  let w := s.tw n
  if c.foreign.contains e then s
  else
    let b : Babble := tabGet (fun _ => {}) w.babble e
    let bits := if old then b.bits / 4 * 4 + 2 + b.bits % 2 else b.bits / 2 * 2 + 1
    let many := decide (s.babbleLimit n ≤ ((List.range 16).filter (fun i => bits.testBit i)).length)
    let s := s.inc (TW_CNT_FOREIGN n)
    let c := { c with foreign := e :: c.foreign }
    let s := s.setTw n { w with
      cyc := if old then w.cyc else c
      prev := if old then some c else w.prev
      babble := tabPut (fun _ => {}) w.babble e { bits := bits, clean := 0, reported := b.reported || many } }
    if many && !b.reported then
      let s := (s.inc (SF_CNT_BABBLE n)).on (SF_EVT.BABBLE n)
      let s := (s.wr (SF_BABBLE.LAST_ENTRY n) e).wr (SF_BABBLE.LAST_MODE n) c.mode
      s.event Ev.TW_BABBLE [n, e, c.mode, match addr with | some a => a | none => 0xFFFFFFFF]
    else s

/-- The entry of cycle c that covers time t; 64 stands for time that none covers (R186). -/
def TwCycle.entryAt (c : TwCycle) (t : Nat) : Nat :=
  match c.table.slots.find? (fun e => decide (c.slotStart e.2 ≤ t) && decide (t < c.slotEnd e.2)) with
  | some e => e.1
  | none => 64

/-- A start edge at t that belongs to no valid frame (R186), with the last address character received in its slot. -/
def State.foreignAt (s : State) (n t : Nat) : State :=
  let w := s.tw n
  if w.phase = .observe ∨ w.phase = .joined ∨ w.phase = .running then
    let old := decide (t < w.cyc.start)
    match if old then w.prev else some w.cyc with
    | some c =>
      let addr := match w.lastAddr with
        | some (k, a) => if c.start ≤ k ∧ c.entryAt k = c.entryAt t then some a else none
        | none => none
      if c.start ≤ t then s.foreignIn n old c (c.entryAt t) addr else s
    | none => s
  else s

/-- The own slot of cycle c, not in marks, in whose [start − g, DE rise) time t lies (R187): DATA, DELAY_RESP and SYNC slots. -/
def State.intruded (s : State) (n t : Nat) (c : TwCycle) (marks : List Nat) : Option Nat :=
  let g := c.table.guard
  let pre := min g (s.rd (SP_DE_PRE.DE_PRE n))
  let w := s.tw n
  (c.table.slots.find? (fun e =>
    (decide (e.2.kind = 1) || decide (e.2.kind = 2) || decide (e.2.kind = 4)) && ownSlot w.role w.addr c.req.isSome e.2
      && decide (c.slotStart e.2 - g ≤ t) && decide (t < c.slotStart e.2 - pre) && !marks.contains e.1)).map (·.1)

/-- A start edge at t that is not the port's own (R187): an intrusion into an own slot counts, once per slot. -/
def State.intrusion (s : State) (n t : Nat) : State :=
  let w := s.tw n
  if w.phase ≠ .joined ∧ w.phase ≠ .running then s
  else
    let hit (s : State) : State := (s.inc (SF_CNT_INTRUDE n)).on (SF_EVT.INTRUDE n)
    match s.intruded n t w.cyc w.cyc.intruded with
    | some e => hit (s.setTw n { w with cyc := { w.cyc with intruded := e :: w.cyc.intruded } })
    | none =>
      match w.prev.bind (fun c => s.intruded n t c c.intruded) with
      | some e => hit (s.setTw n { w with prev := w.prev.map (fun c => { c with intruded := e :: c.intruded }) })
      | none =>
        let ahead := (w.cyc.intruded.filter (fun e => decide (64 ≤ e))).map (fun e => e - 64)
        match (s.foreseen n).bind (fun c => s.intruded n t c ahead) with
        | some e => hit (s.setTw n { w with cyc := { w.cyc with intruded := (e + 64) :: w.cyc.intruded } })
        | none => s

/-- FOREIGN_ENERGY (R186, R187): the last start edge on the line is part of no valid frame. -/
def execForeignEnergy (p : Fin 16) (s : State) : Res :=
  let n := p.val
  match (s.tw n).lastEdge with
  | some t => if s.twRuns n then .next ((s.foreignAt n t).intrusion n t) else .next s
  | none => .next s

/-! ## Slot ends (R139, R185) -/

/-- Address a has been silent or heard in cycle c, which has had its last slot (R185). -/
def State.silence (s : State) (n : Nat) (c : TwCycle) (a : Nat) : State :=
  let w := s.tw n
  let lim := s.rd (SF_SILENT.SILENT_CYC n)
  if lim = 0 then s
  else if c.heard.contains a then s.setTw n { w with silent := tabPut (fun _ => 0) w.silent a 0 }
  else
    let k := tabGet (fun _ => 0) w.silent a + 1
    let s := s.setTw n { w with silent := tabPut (fun _ => 0) w.silent a k }
    if lim ≤ k ∧ s.regBit (SF_ABSENT n (a / 32)) (a % 32) = false then
      ((s.setRegBit (SF_ABSENT n (a / 32)) (a % 32) true).on (SF_EVT.ABSENT n)).event Ev.TW_ABSENT [n, a]
    else s

/-- The slot of entry e of cycle c has ended: its owner's open packet closes if it brought no frame (R139), and at the end of an
address's last slot the absent map follows (R185). -/
def State.slotEnded (s : State) (n : Nat) (c : TwCycle) (e : Nat) : State :=
  let w := s.tw n
  let x := c.table.entry e
  let s := match w.pkt with
    | some k =>
      if x.kind = 2 ∧ k.sender = x.owner ∧ k.stamp + c.table.guard < c.slotStart x then s.closePkt n else s
    | none => s
  let subject (y : TwEntry) : Option Nat :=
    if y.kind = 2 then some y.owner else if y.kind = 4 then s.delayTarget n c y else none
  match subject x with
  | some a =>
    let last := c.table.slots.all (fun y => subject y.2 != some a || decide (y.2.start ≤ x.start))
    if w.role ∧ w.phase = .running ∧ last ∧ (s.expected n c.table).contains a then s.silence n c a else s
  | none => s

/-- Slots of the previous cycle that ended while a frame was still arriving are settled. -/
def State.settlePrev (s : State) (n : Nat) : State :=
  match (s.tw n).prev with
  | some c => c.ended.foldl (fun s e => s.slotEnded n c e) (s.setTw n { s.tw n with prev := some { c with ended := [] } })
  | none => s

/-- Every slot that ended while a frame was still arriving is settled. -/
def State.settleEnded (s : State) (n : Nat) : State :=
  let s := s.settlePrev n
  let c := (s.tw n).cyc
  c.ended.foldl (fun s e => s.slotEnded n c e) (s.setTw n { s.tw n with cyc := { c with ended := [] } })

/-- SLOT_END (R185): the slot of entry e ends. While a frame is still arriving the slot is judged after it. -/
def execSlotEnd (p : Fin 16) (e : Fin 64) (s : State) : Res :=
  let n := p.val
  let w := s.tw n
  let x := w.cyc.table.entry e.val
  if w.cycling = false ∨ x.en = false then .next s
  else
    let s := s.twAdvance n (w.cyc.slotEnd x)
    let w := s.tw n
    if w.asm.isEmpty ∧ w.frames.isEmpty then .next (s.slotEnded n w.cyc e.val)
    else .next (s.setTw n { w with cyc := { w.cyc with ended := w.cyc.ended ++ [e.val] } })

/-! ## Frames received (R136 to R139) -/

/-- The slot that a frame falls in: in the previous cycle (0), the running one (1) or the next (2). -/
structure TwCtx where
  which : Nat
  cycle : TwCycle
  slot : TwEntry
  start : Nat
  fin : Nat
  deriving DecidableEq, Repr

/-- The stamp at which the last stop bit of a character ends. -/
def RxItem.stopEnd (i : RxItem) : Nat := i.stamp + divUp (11 * i.bit) 65536

/-- The SYNC entry of the other mode in the cycle of counter k and mode m, if that is a switch cycle: the SYNC windows of both modes are open
(R156). -/
def Tw.switchSync (w : Tw) (k m : Nat) : Option TwEntry :=
  match w.announced with
  | some a => if w.role = false ∧ a.valid ∧ a.at_ = k ∧ a.mode ≠ m then (w.mode a.mode).run.sync else none
  | none => none

/-- The current slot of a frame whose start bit has stamp t0 and whose TYPE character ends at t1 (R136; log entry 72 on its choice). -/
def State.frameSlot (s : State) (n t0 t1 : Nat) : Option TwCtx :=
  let w := s.tw n
  let of_ (which : Nat) (c : TwCycle) (extra : Option TwEntry) : List TwCtx :=
    (c.table.slots.map (·.2) ++ extra.toList).map (fun x => ⟨which, c, x, c.slotStart x, c.slotEnd x⟩)
  let all := (match w.prev with | some c => of_ 0 c none | none => []) ++ of_ 1 w.cyc (w.switchSync w.cyc.k w.cyc.mode)
    ++ (match s.foreseen n with | some c => of_ 2 c (w.switchSync c.k c.mode) | none => [])
  let fits (x : TwCtx) : Bool :=
    let g := x.cycle.table.guard
    (decide (x.start ≤ t0 + g) || decide (x.start ≤ t1)) && decide (t0 < max x.fin (x.start + g))
  (all.filter fits).foldl (fun a x => match a with | some y => if y.start < x.start then some x else a | none => some x) none

/-- Whether a frame type is one that a slot kind allows (R136 check 2). -/
def typeAllowed (kind type : Nat) : Bool :=
  match kind with
  | 1 => type == 1
  | 2 => type == 2 || type == 3
  | 6 => type == 2 || type == 3
  | 3 => type == 4
  | 4 => type == 5
  | 5 => type == 6
  | _ => false

/-- Whether ADDR fits the slot (R136 check 3). -/
def State.addrFits (s : State) (n : Nat) (x : TwCtx) (a : Nat) : Bool :=
  match x.slot.kind with
  | 1 => a == 0xFF
  | 2 => a == x.slot.owner
  | 6 => a != 0xFF
  | _ =>
    if x.slot.owner ≠ 0xFF then a == x.slot.owner
    else if (s.tw n).role then s.cycleTarget n x.cycle.table x.cycle.k == some a && a != 0xFF
    else a != 0xFF

/-- Whether every start edge after the first lies within 22 bit times of the previous one (R136 check 5). -/
def spacingOk : List RxItem → Bool
  | a :: b :: r => decide ((b.tick - a.tick) * 65536 ≤ 22 * b.bit) && spacingOk (b :: r)
  | _ => true

/-- CYCLE_START of a SYNC frame. -/
def cycleStartOf (data : List Nat) : Nat := fieldOf data 8 6 * second + fieldOf data 14 4

/-- The delay compensation of a frame (R137). -/
def State.compensation (s : State) (n type a : Nat) : Nat :=
  let w := s.tw n
  if w.role then (if type = 2 ∨ type = 3 then (w.delay a).mean else 0)
  else if type = 1 ∨ type = 4 ∨ type = 6 then s.rd (TW_DLY.DELAY_NS n) else 0

/-- Whether a SYNC with CYCLE_START cs and referred stamp ref disagrees with common time by g or more (R150, R184). -/
def Tw.skewed (w : Tw) (cs start g ref : Nat) : Bool := w.align && !(decide (cs + start ≤ ref + g) && decide (ref < cs + start + g))

/-- The first check of R136 that a frame fails, 0 for a valid frame; listen tells that a SYNC is accepted at any time (R137). -/
def State.frameFails (s : State) (n : Nat) (items : List RxItem) (cut listen : Bool) (x : Option TwCtx) : Nat :=
  let data := items.map (fun i => i.chr % 256)
  let type := data.getD 1 0 % 16
  let a := data.getD 0 0
  let marks : Bool := match items with | i :: r => i.chr.testBit 8 && r.all (fun j => !j.chr.testBit 8) | [] => false
  let kindOk : Bool := listen || (match x with | some y => typeAllowed y.slot.kind type | none => false)
  let addrOk : Bool := if listen then a == 0xFF else match x with | some y => s.addrFits n y a | none => false
  if marks = false then 1
  else if data.length < 2 ∨ kindOk = false then 2
  else if addrOk = false then 3
  else if frameCount data ≠ some data.length then 4
  else if items.any (·.ferr) ∨ cut ∨ spacingOk items = false then 5
  else if crc16 (data.take (data.length - 2)) ≠ fieldOf data (data.length - 2) 2 then 6
  else if listen then 0
  else match x with
    | none => 7
    | some y =>
      let g := y.cycle.table.guard
      let comp := s.compensation n type a
      let t0 := (items.map RxItem.stamp).headD 0
      let hi := if type = 5 ∨ y.slot.kind = 6 then y.fin else y.start + g
      let endAt := match items.getLast? with | some i => i.stopEnd | none => 0
      let inside := decide (y.start ≤ t0 - comp + g) && decide (t0 - comp < hi) && decide (endAt < y.fin + g + comp)
      let timeOk := type != 1 || (s.tw n).role || (s.tw n).phase != .joined
        || !(s.tw n).skewed (cycleStartOf data) y.slot.start g (t0 - comp)
      if inside && timeOk then 0 else 7

/-- The items of a DATA frame in order (R138), with what the last of them is; fin tells that it carries END. -/
def State.dataItems (s : State) (n : Nat) (q : Option Nat) (items : List RxItem) (len : Nat) (first : Bool) : List PortItem × State :=
  let chosen := (if first then items.take 1 else []) ++ (items.drop 6).take len
  chosen.foldl (fun x it =>
    let (out, s) := x
    let a := out.isEmpty && first
    let i := { s.charItem n it it.chr a false false with queue := q, first := a }
    (out ++ [i], (s.notedItem n it false).countFlags n it)) ([], s)

/-- Delivery of a valid DATA (fin) or DATA_CONT frame (R138, R139). -/
def State.deliverFrame (s : State) (n : Nat) (x : TwCtx) (items : List RxItem) (fin : Bool) : State :=
  let data := items.map (fun i => i.chr % 256)
  let sender := data.getD 0 0
  let frag := data.getD 1 0 / 16
  let q := if x.slot.qsel then some x.slot.qid else s.rxQueue n
  let t0 := (items.map RxItem.stamp).headD 0
  let follows : Bool := match (s.tw n).pkt with
    | some k => k.sender == sender && k.queue == q && k.frag == frag
    | none => false
  let s := if follows then s else s.closePkt n
  if follows = false ∧ frag ≠ 0 then s.inc (TW_CNT_TRUNC n)
  else
    let before := match (s.tw n).pkt with | some k => k.item.toList | none => []
    let (new, s) := s.dataItems n q items (data.getD 5 0) (!follows)
    let all := before ++ new
    let s := s.setTw n { s.tw n with pkt := none }
    if fin then
      match all.reverse with
      | l :: r => ((r.reverse).foldl (fun s i => s.sendOrDrop n i) s).sendOrDrop n l.withEnd
      | [] => s
    else
      let s := (all.take (all.length - 1)).foldl (fun s i => s.sendOrDrop n i) s
      s.setTw n { s.tw n with
        pkt := some { sender := sender, queue := q, frag := (frag + 1) % 16, item := all.getLast?, stamp := t0 } }

/-- An acknowledgement that a first node receives (R155): recorded if it matches the request and its frame ended before D_s. -/
def State.ackSeen (s : State) (n : Nat) (data : List Nat) (endAt : Nat) : State :=
  match (s.tw n).request with
  | some r =>
    let a := data.getD 0 0
    let late : Bool := r.at_ == ((s.tw n).cyc.k + 1) % 0x10000 && decide (s.decisionTime n ≤ endAt)
    if 0x80 ≤ data.getD 2 0 ∧ data.getD 2 0 % 4 = r.mode ∧ fieldOf data 3 2 = r.at_ ∧ late = false then
      s.setRegBit (TW_ACK_SEEN n (a / 32)) (a % 32) true
    else s
  | none => s

/-- A DELAY_RESP at a first node (R158): a sample of the one-way delay, accepted or rejected. -/
def State.delaySample (s : State) (n : Nat) (x : TwCtx) (data : List Nat) (t4 : Nat) : State :=
  let w := s.tw n
  let a := data.getD 0 0
  let turn := fieldOf data 6 4
  let s := s.setReg (TW_TURN n) (BitVec.ofNat 32 turn)
  let bad := (s.inc (TW_CNT_DLY_BAD n)).on (TW_EVT.DLY_BAD n)
  match w.meas.find? (fun m => m.2.2.1 == a) with
  | some (k, seq, _, t1) =>
    let d := (t4 - t1 - turn) / 2
    if k ≠ x.cycle.k ∨ seq ≠ data.getD 5 0 ∨ t4 < t1 + turn ∨ 1000000 < d then bad
    else
      let e := w.delay a
      let e := { samples := (d :: e.samples).take 8, fresh := true : DelayEntry }
      (s.inc (TW_CNT_DLY_MEAS n)).setTw n { w with
        delays := tabPut (fun _ => {}) w.delays a e, results := w.results ++ [(a, seq)] }
  | none => bad

/-- The frame of an address is accepted at a first node (R185): it is heard, and present again. -/
def State.heardFrom (s : State) (n : Nat) (x : TwCtx) (a : Nat) : State :=
  let w := s.tw n
  let s := if x.which = 0 then s.setTw n { w with prev := w.prev.map (fun c => { c with heard := a :: c.heard }) }
    else s.setTw n { w with cyc := { w.cyc with heard := a :: w.cyc.heard } }
  let s := s.setTw n { s.tw n with silent := tabPut (fun _ => 0) (s.tw n).silent a 0 }
  if s.regBit (SF_ABSENT n (a / 32)) (a % 32) then
    (s.setRegBit (SF_ABSENT n (a / 32)) (a % 32) false).event Ev.TW_PRESENT [n, a]
  else s

/-! ## SYNC at a member (R148 to R151, R154, R156, R182 to R184) -/

/-- The drift estimator (R149): SYNC of counter k with stamp a, in a cycle of nominal length len. Σ is the sum of the cycles as they ran; over
cycles that the member did not run it takes them all as long as the older SYNC's (DEDUCED, log entry 167). -/
def State.drift (s : State) (n k a len : Nat) : State :=
  let w := s.tw n
  let s' := s.setTw n { w with lastSync := some (k, a, some w.total, len) }
  match w.lastSync with
  | none => s'
  | some (k0, a0, total0, len0) =>
    let d := (k + 0x10000 - k0) % 0x10000
    let sum : Nat := match total0 with
      | some t => if t < w.total then w.total - t else d * len0
      | none => d * len0
    if w.align ∨ d = 0 ∨ 3 < d ∨ sum = 0 ∨ a < a0 then s'
    else
      let num := a - a0
      let off := (num : Int) - sum
      let s' := s'.setTw n { s'.tw n with warming := false }
      if (sum : Int) < off.natAbs * 2000 then s'.on (TW_EVT.DRIFT_BAD n)
      else (s'.setTw n { s'.tw n with num := num, den := sum }).setReg (TW_DRIFT n)
        (BitVec.ofInt 32 (divRound (off * 1000000000) sum))

/-- The announcement in a SYNC (R134, R154): whether the member can run the mode is judged at each. -/
def State.announce (s : State) (n : Nat) (data : List Nat) : State :=
  let w := s.tw n
  let next := data.getD 5 0
  let sw := fieldOf data 6 2
  if next = data.getD 4 0 then s.setTw n { w with announced := none }
  else
    let sent : Bool := match w.announced with | some a => a.mode == next && a.at_ == sw && a.sent | none => false
    let valid := decide (next < 4) && (w.mode next).run.sync.isSome
    let s := if valid then s else s.on (TW_EVT.NO_MODE n)
    s.setTw n { w with announced := some { mode := next, at_ := sw, valid := valid, sent := sent } }

/-- A valid SYNC of counter k at a member (R182): MISS is 0, and two of consecutive cycles end the withholding. -/
def State.goodSync (s : State) (n k : Nat) : State :=
  let s := s.wr (SF_STAT.MISS n) 0
  let w := s.tw n
  let good := if w.good ≠ 0 ∧ k = (w.lastGood + 1) % 0x10000 then w.good + 1 else 1
  let s := s.setTw n { w with good := good, lastGood := k }
  if s.bit (SF_STAT.WITHHOLD n) ∧ 2 ≤ good then s.off (SF_STAT.WITHHOLD n) else s

/-- TW_OFFSET and the shown cycle start after a SYNC (R149, R168). -/
def State.showOffset (s : State) (n cs : Nat) : State :=
  let c := (s.tw n).cyc
  let s := s.setReg (TW_OFFSET n) (satInt32 ((cs : Int) - c.start))
  (s.setStamp (TW_CYC_NS n) (TW_CYC_SL n) (TW_CYC_SH n) c.start).wr (TW_CYC_SH.CYCLE n) c.k

/-- The member returns to LISTEN with TIME_SKEW (R184). -/
def State.timeSkew (s : State) (n : Nat) : State :=
  let s := ((s.on (SF_STAT.TIME_SKEW n)).on (SF_EVT.TIME_SKEW n)).inc (SF_CNT_SKEW n)
  (s.event Ev.TW_TIME_SKEW [n]).leave n leaveSkew

/-- A cycle begins: counted and shown (R168). -/
def State.enterCycle (s : State) (n : Nat) (c : TwCycle) : State :=
  let s := (s.setTw n { s.tw n with cyc := c }).inc (TW_CNT_CYCLES n)
  (s.setStamp (TW_CYC_NS n) (TW_CYC_SL n) (TW_CYC_SH n) c.start).wr (TW_CYC_SH.CYCLE n) c.k

/-- A cycle begins, and the guardian is told in JOINED and RUNNING (R172), but in a switch cycle only by its SYNC, which names the mode. -/
def State.beginCycle (s : State) (n : Nat) (c : TwCycle) : State :=
  let s := s.enterCycle n c
  if (s.tw n).awaitSync then s else s.strobe n

/-- The cycle that a SYNC names (R148, R150): table t, SYNC entry e, stamp a. -/
def State.syncCycle (s : State) (n : Nat) (data : List Nat) (a : Nat) (t : TwTable) (e : TwEntry) : TwCycle :=
  let w := s.tw n
  let start := if w.align then cycleStartOf data else a - e.start - s.rd (TW_DLY.DELAY_NS n)
  { k := fieldOf data 2 2, mode := data.getD 4 0, table := t, start := start, num := if w.align then 1 else w.num
    den := if w.align then 1 else w.den, syncOk := true }

/-- A SYNC that opens OBSERVE at a listening member (R151, R184). -/
def State.syncListen (s : State) (n : Nat) (data : List Nat) (a : Nat) : State :=
  let w := s.tw n
  let m := data.getD 4 0
  if 4 ≤ m then s
  else match (w.mode m).run.sync with
    | none => s
    | some e =>
      let t := (w.mode m).run
      let s := s.setTw n { w with phase := .observe, obsK := fieldOf data 2 2, badSync := false }
      let s := ((s.drift n (fieldOf data 2 2) a t.len).announce n data)
      let s := (s.enterCycle n (s.syncCycle n data a t e)).showOffset n (cycleStartOf data)
      if w.skewed (cycleStartOf data) e.start t.guard (a - s.rd (TW_DLY.DELAY_NS n)) then s.timeSkew n else s

/-- A valid SYNC places the running cycle (R148, R150), in the mode it names. -/
def State.syncPlace (s : State) (n : Nat) (data : List Nat) (a : Nat) : State :=
  let w := s.tw n
  let m := data.getD 4 0
  let t := if m = w.cyc.mode then w.cyc.table else (w.mode m).run
  let s := if m = w.cyc.mode then s
    else s.setTw n { w with cyc := { w.cyc with mode := m, table := t, done := [], doneNext := [] } }
  let s := (s.announce n data).drift n (fieldOf data 2 2) a t.len
  let w := s.tw n
  let start := if w.align then cycleStartOf data
    else a - (match t.sync with | some e => e.start | none => 0) - s.rd (TW_DLY.DELAY_NS n)
  let s := s.setTw n { w with cyc := { w.cyc with
    start := start, num := if w.align then 1 else w.num, den := if w.align then 1 else w.den, syncOk := true } }
  s.showOffset n (cycleStartOf data)

/-- A valid SYNC at a member in JOINED (R156, R182, R183). After a jump of the counter the cycles since the last SYNC are not those that ran. -/
def State.syncJoined (s : State) (n : Nat) (data : List Nat) (a : Nat) (switched : Bool) : State :=
  let w := s.tw n
  let k := fieldOf data 2 2
  let s := if k = w.cyc.k then s
    else ((s.setTw n { w with
      cyc := { w.cyc with k := k, jump := true }, lastSync := w.lastSync.map (fun x => (x.1, x.2.1, none, x.2.2.2))
      }).inc (SF_CNT_CYC_JUMP n)).on (SF_EVT.CYC_JUMP n)
  if data.getD 4 0 ≠ w.cyc.mode ∧ switched = false then (s.on (SF_EVT.MODE_MISMATCH n)).leave n leaveMode
  else
    let w := s.tw n
    let s := s.setTw n { w with awaitSync := false, checkedAt := if w.awaitSync then s.now else w.checkedAt }
    let s := s.syncPlace n data a
    if w.awaitSync then s.strobe n else s

/-- A valid SYNC at a member (R151, R182). -/
def State.syncMember (s : State) (n : Nat) (data : List Nat) (a ref : Nat) : State :=
  let k := fieldOf data 2 2
  let m := data.getD 4 0
  let s := s.goodSync n k
  let w := s.tw n
  let switched : Bool := match w.announced with
    | some x => decide (x.mode = m) && decide (x.at_ = k) && x.valid
    | none => false
  match w.phase with
  | .listen => s.syncListen n data a
  | .observe =>
    let e := if m < 4 then (if m = w.cyc.mode then w.cyc.table else (w.mode m).run).sync else none
    let skew : Bool := match e with | some e => w.skewed (cycleStartOf data) e.start w.cyc.table.guard ref | none => false
    if skew then s.timeSkew n
    else if w.badSync ∨ k ≠ (w.obsK + 1) % 0x10000 ∨ k ≠ w.cyc.k ∨ (m ≠ w.cyc.mode ∧ switched = false) then
      s.leave n leaveObserve
    else
      let s := s.syncPlace n data a
      s.setTw n { s.tw n with joining := true }
  | .joined => s.syncJoined n data a switched
  | _ => s

/-! ## Acting on a frame (R136, R137) -/

/-- A valid frame is acted on (R137, R151, R152, R155, R158, R159, R185). A DELAY_REQ of the cycle before has no slot any more. -/
def State.actOnFrame (s : State) (n : Nat) (data : List Nat) (a ref endAt : Nat) (x : Option TwCtx) : State :=
  let w := s.tw n
  let type := data.getD 1 0 % 16
  let addr := data.getD 0 0
  if w.role then
    if type = 1 then
      (if w.phase = .listen then ((s.setTw n { w with phase := .rival }).on (TW_EVT.RIVAL n)).event Ev.TW_RIVAL [n] else s)
    else
      let s := if type = 2 ∨ type = 3 ∨ type = 5 then s.ackSeen n data endAt else s
      let s := match x with
        | some y =>
          let s := if type = 5 then s.delaySample n y data a else s
          if type = 2 ∨ type = 3 ∨ type = 5 then s.heardFrom n y addr else s
        | none => s
      s
  else if type = 1 then s.syncMember n data a ref
  else if addr = w.addr ∧ (w.phase = .observe ∨ w.phase = .joined) then
    if type = 4 then
      let old : Bool := match x with | some y => y.which == 0 | none => false
      if old then s
      else
        let s := s.followGate n
        let w := s.tw n
        (s.setTw n { w with cyc := { w.cyc with req := some (data.getD 2 0, a) }, guard := { w.guard with rot := true } }).gateNow n
    else if type = 6 then s.setTw n { w with dlyPend := some (fieldOf data 3 4 % 0x1000000) }
    else s
  else s

/-- A frame's judgement (R136): the check it fails, 0 for none, and its slot. -/
def State.verdict (s : State) (n : Nat) (items : List RxItem) (cut : Bool) : Nat × Option TwCtx :=
  let w := s.tw n
  let data : List Nat := items.map (fun i => i.chr % 256)
  let listen := (w.phase == .listen || w.phase == .rival) && decide (data.getD 1 0 % 16 = 1) && decide (2 ≤ data.length)
  let a := (items.map RxItem.stamp).headD 0
  let t1 := match items[1]? with | some i => i.stopEnd | none => 0
  let x := if listen ∨ w.cycling = false then none else s.frameSlot n a t1
  (s.frameFails n items cut listen x, x)

/-- What follows the judgement of a frame: counted, and delivered and acted on if valid (R136, R138). -/
def State.judged (s : State) (n : Nat) (items : List RxItem) (fail : Nat) (x : Option TwCtx) : State :=
  let w := s.tw n
  let data := items.map (fun i => i.chr % 256)
  let type := data.getD 1 0 % 16
  let a := (items.map RxItem.stamp).headD 0
  let edges := items.map RxItem.stamp
  let s := edges.foldl (fun s t => s.intrusion n t) s
  if fail ≠ 0 then
    let s := s.inc (if fail = 6 then TW_CNT_CRC n else if fail = 7 then TW_CNT_WINDOW n else TW_CNT_TRUNC n)
    let marked : Bool := match items with | i :: _ => i.chr.testBit 8 | [] => false
    let s := if marked then
        let y := (s.port n).stranger (data.getD 0 0)
        s.setStranger n (data.getD 0 0) (sat32 (y.1 + 1), y.2)
      else s
    let sync : Bool := match x with | some y => decide (y.slot.kind = 1) | none => false
    let s := if w.phase = .observe ∧ sync then s.setTw n { s.tw n with badSync := true } else s
    edges.foldl (fun s t => s.foreignAt n t) s
  else
    let s := s.inc (TW_CNT_FRAME_RX n)
    let s := if type = 1 then s.inc (TW_CNT_SYNC_RX n) else s
    let s := match x with
      | some y =>
        if (type = 2 ∨ type = 3) ∧ s.bit (TW_CTRL.MONITOR n) = false then s.deliverFrame n y items (decide (type = 2)) else s
      | none => s
    let endAt := match items.getLast? with | some i => i.stopEnd | none => 0
    s.actOnFrame n data a (a - s.compensation n type (data.getD 0 0)) endAt x

/-! ## Starts, stops and restarts (R123, R126, R142, R151, R152, R160) -/

/-- The transmit side of a stop (R142, R160): the port's request falls, open packets end, other payloads are kept, and nothing else that was
built is sent. -/
def State.stopTx (s : State) (n : Nat) : State :=
  let s := if s.twRuns n ∧ (s.port n).de then s.withdraw n else s.setTw n ((s.tw n).endFrame true)
  let s := s.endOpen n (fun _ => true)
  let w := s.tw n
  s.setTw n { w with
    bufs := (w.bufs.filter (fun b => b.queue.isSome)).map (fun b => { b with kept := true }), waiting := [], meas := [] }

/-- The receiving side of a stop (R160): what has been received is judged as it stands, the character in progress gives nothing more, and the
open packet closes. -/
def State.stopRx (s : State) (n : Nat) : State :=
  let s := if s.bit (TW_CTRL.MONITOR n) then s.monEnd n else s
  let w := s.tw n
  let frames := w.frames ++ (if w.asm.isEmpty then [] else [(w.asm, false)])
  let p := s.port n
  let s := s.setPort n { p with rxChar := p.rxChar.map (fun c => { c with gone := true }), cand := none }
  let s := frames.foldl (fun s f => s.judged n f.1 (s.verdict n f.1 f.2).1 (s.verdict n f.1 f.2).2)
    (s.setTw n { w with asm := [], frames := [] })
  (s.settleEnded n).closePkt n

/-- The first cycle of a first node (R126): the first point TW_BASE + j × L at or after now + COMMIT_NS + 1 µs. -/
def State.firstCycle (s : State) (n : Nat) : State :=
  let w := s.tw n
  let point := s.now + s.commitNs n + 1000
  let base := timeOf (s.reg (TW_BASE_NS n)).toNat (s.reg (TW_BASE_SL n)).toNat (s.rd (TW_BASE_SH.SEC_HI n))
  let len := (w.mode w.init).run.len
  let j := if point ≤ base then 0 else divUp (point - base) len
  s.setTw n { w with
    phase := .starting, from_ := base + j * len, j := j % 0x10000, cyc := { k := w.cyc.k, mode := w.cyc.mode } }

/-- The formats of a port that starts or stops a schedule, as far as no character is in progress (R124). -/
def State.twFormats (s : State) (n : Nat) : State :=
  let p := s.port n
  s.setPort n { p with txFmt := s.lineRegs n, rxFmt := if p.rxChar.isSome then p.rxFmt else s.lineRegs n }

/-- Port n starts in its role (R123, R126, R151, R152, R173); fresh tells that RUN has been written 1. -/
def State.twStart (s : State) (n : Nat) (fresh : Bool) : State :=
  let role := s.bit (TW_CTRL.ROLE n)
  let addr := s.rd (TW_NODE.ADDR n)
  let w := s.tw n
  let g := { w.guard with addr := addr, role := role }
  let s := s.setTw n { w with
    role := role, align := s.bit (TW_CTRL.ALIGN n), addr := addr, init := s.rd (TW_NODE.INIT_MODE n), stop := false, restart := false
    num := 1, den := 1, warming := true, lastSync := none, dlyUnset := w.dlyUnset || (fresh && !role), phase := .listen, from_ := s.now
    guard := { g with ref := g.whole } }
  let s := ((s.on (SP_STAT.FC_IGNORED n)).setReg (TW_DRIFT n) 0).twFormats n
  if role && !s.bit (TW_CTRL.FN_LISTEN n) then s.firstCycle n else s

/-- Port n is OFF: the settings that the schedule replaced take effect again (R124). -/
def State.twOff (s : State) (n : Nat) : State :=
  let s := s.haltCycle n
  let s := s.setTw n { s.tw n with phase := .off, stop := false, restart := false }
  let s := (s.off (SP_STAT.FC_IGNORED n)).twFormats n
  s.setPort n { s.port n with newPacket := true }

/-- RUN written 1 (R123, R126). -/
def State.twRunOn (s : State) (n : Nat) : State :=
  if (s.tw n).phase = .off then s.twStart n true else s.setTw n { s.tw n with stop := false }

/-- TW_RUN_START (R126, R151, R152): RUN is written 1. On a port that waits to stop, the stop is withdrawn. -/
def execTwRunStart (o : Origin) (p : Fin 16) (s : State) : Res :=
  let n := p.val
  if s.regExists (TW_CTRL n) then .next ((s.regStore o (TW_CTRL n) (s.reg (TW_CTRL n) ||| 1)).twRunOn n)
  else .next s

/-- FN_LISTEN_TIMEOUT (R126, R152): a listening first node has heard no SYNC for one cycle. -/
def execFnListenTimeout (p : Fin 16) (s : State) : Res :=
  let n := p.val
  let w := s.tw n
  if w.role ∧ w.phase = .listen then .next ((s.advanceTo (w.from_ + (w.mode w.init).run.len)).firstCycle n)
  else .next s

/-- What a running port's schedule does when it stops at a boundary (R142, R151, R160). -/
def State.twHalt (s : State) (n : Nat) : State :=
  let s := s.stopRx n
  let w := s.tw n
  let s := if w.phase = .observe ∨ w.phase = .joined then s.wr (SF_STAT.LEAVE_CAUSE n) leaveRestart else s
  (s.stopTx n).haltCycle n

/-- The port stops at a boundary, and is OFF or starts again (R151, R152, R160, R189). -/
def State.twRestart (s : State) (n : Nat) : State :=
  let stop := (s.tw n).stop
  let s := s.twHalt n
  if s.bit (TW_CTRL.RUN n) && !stop then s.twStart n false else s.twOff n

/-- The port stops for a structural reload (R492), which PORT_REBIND then applies. -/
def State.twReloadStop (s : State) (n : Nat) : State :=
  let s := (s.twHalt n).twOff n
  let p := s.port n
  match p.reload with
  | some r => s.setPort n { p with reload := some { r with drained := some s.time.tick } }
  | none => s

/-- A restart is requested while the port runs (R160): at the next boundary, or at once where no cycle runs. -/
def State.requestRestart (s : State) (n : Nat) : State :=
  let w := s.tw n
  if w.phase = .off then s
  else if w.phase = .observe ∨ w.phase = .joined ∨ w.phase = .running then s.setTw n { w with restart := true }
  else s.twRestart n

/-! ## Cycle boundaries (R125, R131, R151, R159, R161, R174, R175, R181, R182, R188) -/

/-- BUS_DEAD at a boundary (R188): the same break at two boundaries in a row. -/
def State.busDeadCheck (s : State) (n : Nat) : State :=
  let w := s.tw n
  let b := match (s.port n).brk with | some (_, k) => some k | none => none
  let dead := b.isSome && b == w.brkPrev && !s.bit (SF_STAT.BUS_DEAD n)
  let s := s.setTw n { w with brkPrev := b }
  if dead then
    let s := ((s.on (SF_STAT.BUS_DEAD n)).inc (SF_CNT_BUS_DEAD n)).on (SF_EVT.BUS_DEAD n)
    (s.event Ev.TW_BUS_DEAD [n]).leave n leaveBusDead
  else s

/-- What every cycle boundary does before the next cycle: a waiting UNMUZZLE ends the muzzle (R181), then the guardian's copy is checked (R175), so
that a corruption found here muzzles again (DEDUCED, log entry 168); commits that are due are copied (R174), and a waiting rate is applied
(R161). -/
def State.boundaryWork (s : State) (n : Nat) : State :=
  let s := if (s.tw n).guard.unmuzzle then s.endMuzzle n else s
  let s := (s.copyScrub n).applyCommits n
  match (s.port n).rate with
  | some (d, k) => s.applyRate n d k
  | none => s

/-- The audit that ends a forfeit at a boundary (R28). -/
def State.auditAgain (s : State) (n : Nat) : State :=
  if (s.tw n).forfeit ∧ s.slotAudit n then s.setTw n { s.tw n with forfeit := false } else s

/-- The next cycle begins (R125, R151, R155, R159, R182). -/
def State.turnCycle (s : State) (n : Nat) : State :=
  let s := s.settlePrev n
  let w := s.tw n
  let s := match w.request with
    | some r => if r.at_ = (w.cyc.k + 1) % 0x10000 then s.decideSwitch n r else s
    | none => s
  let (shift, s) := s.applyDelay n
  let w := s.tw n
  let c := w.nextCycle (w.mode w.nextMode).run shift
  let stale : Bool := match w.announced with
    | some a => decide (0 < (c.k + 0x10000 - a.at_) % 0x10000) && decide ((c.k + 0x10000 - a.at_) % 0x10000 < 0x8000)
    | none => false
  let s := s.setTw n { w with
    prev := some w.cyc, total := w.total + w.cyc.table.len, decided := none, awaitSync := w.switchNext, checkedAt := 0
    announced := if stale then none else w.announced
    phase := if w.joining then .joined else w.phase, joining := false, withholdNext := false
    waiting := w.waiting.filterMap (fun x => if x.2 then some (x.1, false) else none)
    sending := w.sending.map (fun b => { b with next := false })
    bufs := w.bufs.filterMap (fun b =>
      if b.next then some { b with next := false } else if b.queue.isSome then some { b with kept := true } else none)
    babble := tabMap (fun _ => {}) (fun _ b => b.shift) w.babble }
  let s := if w.joining then ((s.off (SF_STAT.TIME_SKEW n)).on (TW_EVT.JOINED n)).event Ev.TW_JOIN [n] else s
  let s := if w.withholdNext then s.on (SF_STAT.WITHHOLD n) else s
  (s.beginCycle n c).auditAgain n

/-- A boundary, with the break check of R188, and the stops that wait for it. A port that has left its cycles with a stop pending stops
too. -/
def State.boundary (s : State) (n : Nat) : State :=
  if (s.tw n).phase = .off ∨ ((s.tw n).cycling = false ∧ s.stopping n = false) then s
  else
    let s := (s.busDeadCheck n).boundaryWork n
    if (s.port n).reloadWaits then (s.applyDelay n).2.twReloadStop n
    else if s.stopping n then (s.applyDelay n).2.twRestart n
    else if (s.tw n).cycling then s.turnCycle n
    else s

/-- The end of the running cycle (R125, R175): flips are upsets of the guardian's copy since the last one. -/
def State.cycleEnd (s : State) (n : Nat) (flips : List (Fin 777 × Word)) : State :=
  if s.runs .port ∧ ((s.tw n).cycling ∨ s.stopping n) then
    let s := if (s.tw n).cycling then s.twAdvance n (s.tw n).cyc.fin else s
    (s.setGuard n ((s.tw n).guard.upset flips)).boundary n
  else s

/-- TW_FIRST_CYCLE_START (R126, R152): the first node enters RUNNING; its buffers for the first cycle are those of the running one. -/
def execTwFirstCycleStart (p : Fin 16) (s : State) : Res :=
  let n := p.val
  let w := s.tw n
  if w.phase = .starting then
    let s := (s.advanceTo w.from_).boundaryWork n
    let w := s.tw n
    let s := s.setTw n { w with
      phase := .running, waiting := w.waiting.map (fun x => (x.1, false)), bufs := w.bufs.map (fun b => { b with next := false }) }
    .next ((s.beginCycle n w.firstOf).auditAgain n)
  else .next s

/-- RUN written 0 (R123): the schedule stops at the end of its cycle, or at once where none runs. -/
def State.twRunOff (s : State) (n : Nat) : State :=
  let w := s.tw n
  if w.phase = .off then s
  else if w.cycling then s.setTw n { w with stop := true }
  else ((s.stopRx n).stopTx n).twOff n

/-- TW_RUN_STOP (R151, R152): RUN is written 0; the running cycle completes, and the port is OFF at its end. -/
def execTwRunStop (o : Origin) (p : Fin 16) (s : State) : Res :=
  let n := p.val
  if s.regExists (TW_CTRL n) then .next ((s.regStore o (TW_CTRL n) (s.reg (TW_CTRL n) &&& 0xFFFFFFFE)).twRunOff n)
  else .next s

/-! ## Frames judged and SYNC missed (R136, R182) -/

/-- Frame items, broken off by a break if cut, is judged and acted on (R136). A valid frame of the next cycle begins it. -/
def State.judgeFrame (s : State) (n : Nat) (items : List RxItem) (cut : Bool) : State :=
  let v := s.verdict n items cut
  let early : Bool := match v.2 with | some y => decide (v.1 = 0) && decide (y.which = 2) | none => false
  (if early then s.boundary n else s).judged n items v.1 v.2

/-- TW_FRAME_RECEIVE (R136): the oldest frame that has ended, or the one being received, is judged. Slots that ended while it was
arriving are then settled. -/
def execTwFrameReceive (p : Fin 16) (s : State) : Res :=
  let n := p.val
  let w := s.tw n
  if s.twRuns n = false then .next s
  else
    let s := match w.frames with
      | (f, cut) :: r => (s.setTw n { w with frames := r }).judgeFrame n f cut
      | [] => if w.asm.isEmpty then s else (s.setTw n { w with asm := [] }).judgeFrame n w.asm false
    let w := s.tw n
    .next (if w.frames.isEmpty ∧ w.asm.isEmpty then s.settleEnded n else s)

/-- SYNC_MISS (R151, R156, R182, R188): the SYNC window of the running cycle closes without a valid SYNC. -/
def execSyncMiss (p : Fin 16) (s : State) : Res :=
  let n := p.val
  let w := s.tw n
  let close (e : TwEntry) : Nat := w.cyc.slotEnd e + w.cyc.table.guard + s.rd (TW_DLY.DELAY_NS n)
  match w.cyc.table.sync with
  | none => .next s
  | some e =>
    let t := max (close e) (match w.switchSync w.cyc.k w.cyc.mode with | some x => close x | none => 0)
    if w.role ∨ w.cyc.syncOk then .next s
    else if w.phase = .observe then .next ((s.advanceTo t).leave n leaveObserve)
    else if w.phase = .joined then
      let s := s.advanceTo t
      if s.bit (SF_STAT.BUS_DEAD n) then .next s
      else
        let miss := min 3 (s.rd (SF_STAT.MISS n) + 1)
        let s := ((s.wr (SF_STAT.MISS n) miss).inc (SF_CNT_SYNC_MISS n)).on (SF_EVT.SYNC_MISS n)
        let s := s.setTw n { s.tw n with good := 0, cyc := { (s.tw n).cyc with syncOk := true } }
        if w.awaitSync then .next (s.leave n leaveSwitch)
        else if miss = 3 then .next ((s.on (SF_EVT.SYNC_LOST n)).leave n leaveSyncLost)
        else if miss = 2 then .next (s.setTw n { s.tw n with withholdNext := true })
        else .next s
    else .next s

/-! ## Clock faults and steps (R127, R150, R160, R176) -/

/-- Becalm or STILL on a port that runs a schedule (R160, R176, R189). -/
def State.twBecalm (s : State) (n : Nat) : State :=
  let w := s.tw n
  if w.phase = .off then s
  else s.setTw n { w.endFrame true with
    gate := (s.time.tick, false)
    guard := { w.guard with anchored := false, predicted := false, stepped := false, rot := false, keep := 0 } }

/-- Clocks return on a port that runs a schedule (R160): a frame cut is judged as it stands, the packets end; a first node restarts on
its grid, by listening first where FN_LISTEN says so (R126), and a member listens. -/
def State.twResume (s : State) (n : Nat) : State :=
  let w := s.tw n
  if w.phase = .off then s
  else
    let s := (s.stopRx n).stopTx n
    if w.role then
      let s := s.haltCycle n
      if s.bit (TW_CTRL.FN_LISTEN n) then s.setTw n { s.tw n with phase := .listen, from_ := s.now } else s.firstCycle n
    else
      let s := if w.cycling then s.leave n leaveClock else s
      s.setTw n { s.tw n with phase := .listen, from_ := s.now }

/-- A step of θ on port n's schedule (R127, R150, R160, R176): cycle starts and what they are compared with move with device time, so that
the elapsed spacing stays (log entry 67); a first node's next SYNC carries the stepped time. DEDUCED (log entry 169): a SYNC that is already
committed keeps the content that its commit deadline fixed (R140), with the cycle start before the step. -/
def State.twStep (s : State) (n : Nat) (th : Int) : State :=
  let w := s.tw n
  let mv (t : Nat) : Nat := ((t : Int) + th).toNat
  if w.phase = .off then s
  else
    let s := s.setTw n { w with
      from_ := mv w.from_, cyc := { w.cyc with start := mv w.cyc.start, req := w.cyc.req.map (fun r => (r.1, mv r.2)) }
      prev := w.prev.map (fun c => { c with start := mv c.start }), checkedAt := mv w.checkedAt
      lastSync := w.lastSync.map (fun x => (x.1, mv x.2.1, x.2.2)), lastEdge := w.lastEdge.map mv
      lastAddr := w.lastAddr.map (fun x => (mv x.1, x.2))
      meas := w.meas.map (fun x => (x.1, x.2.1, x.2.2.1, mv x.2.2.2)), pkt := w.pkt.map (fun k => { k with stamp := mv k.stamp })
      guard := { w.guard with stepped := w.guard.anchored } }
    if w.role ∧ w.phase = .running then
      let s := s.setStamp (TW_CYC_NS n) (TW_CYC_SL n) (TW_CYC_SH n) (mv w.cyc.start)
      let x := (th % (2 ^ 64 : Nat)).toNat
      (s.on (TW_EVT.REPHASE n)).event Ev.TW_REPHASE [n, x % unit32, x / unit32]
    else s

/-! ## Reads (R131, R164, R168, R170, R191, R192) -/

/-- The code of a state (R151, R152). -/
def TwPhase.code : TwPhase → Nat
  | .off => 0
  | .listen => 1
  | .observe => 2
  | .joined => 3
  | .starting => 4
  | .running => 5
  | .rival => 6

/-- The mode in force: the running one, or the initial one where no cycle runs. -/
def Tw.curMode (w : Tw) : Nat := if w.cycling then w.cyc.mode else w.init

/-- The announced mode and switch cycle, if any. -/
def Tw.announcement (w : Tw) : Option (Nat × Nat) :=
  if w.role then w.request.map (fun r => (r.mode, r.at_)) else w.announced.map (fun a => (a.mode, a.at_))

/-- TW_STAT as read (R164). DEDUCED (log entry 170): CYC_CLAMP shows that CYCLE_NS of some mode is below 10,000, whether it runs or not. -/
def State.twStat (s : State) (n : Nat) : Word :=
  let w := s.tw n
  let on := w.phase != .off
  let m := w.curMode
  let t := if w.cycling then w.cyc.table else (w.mode m).run
  let clamp := [0, 1, 2, 3].any (fun m => decide ((s.reg (TW_CYCLE n m)).toNat < 10000))
  let next := match w.announcement with | some a => a.1 | none => m
  BitVec.ofNat 32 (w.phase.code + m * 0x10 + next % 4 * 0x40 + (w.role && w.request.isSome).toNat * 0x100
    + (on && !w.role && w.warming).toNat * 0x200 + w.dlyUnset.toNat * 0x400
    + (on && decide (t.guard < s.rd (SP_DE_PRE.DE_PRE n))).toNat * 0x800
    + clamp.toNat * 0x1000 + (w.cycling && t.sync.isNone).toNat * 0x2000
    + (on && !w.role && w.addr == 0xFF).toNat * 0x4000)

/-- TW_CYCNT as read. -/
def State.twCycnt (s : State) (n : Nat) : Word :=
  let w := s.tw n
  BitVec.ofNat 32 (w.cyc.k + (match w.announcement with | some a => a.2 | none => 0) * 0x10000)

/-- TW_TDATA0 to TW_TDATA2 as read: the edit copy of the selected entry. -/
def State.twData (s : State) (n i : Nat) : Word :=
  let x := tabGet noEntry ((s.tw n).mode (s.rd (TW_TSEL.MODE n))).edit (s.rd (TW_TSEL.ENTRY n))
  match i with | 0 => x.d0 | 1 => x.d1 | 2 => x.d2 | _ => 0

/-- A write of v to TW_TDATAi: the edit copy only (R131). -/
def State.twDataWrite (s : State) (n i : Nat) (v : Word) : State :=
  let w := s.tw n
  let m := s.rd (TW_TSEL.MODE n)
  let e := s.rd (TW_TSEL.ENTRY n)
  let x := tabGet noEntry (w.mode m).edit e
  let y := match i with
    | 0 => { x with d0 := v }
    | 1 => { x with d1 := v }
    | 2 => { x with d2 := v &&& 0xFFFF97FF }
    | _ => x
  s.setTw n (w.setMode m { w.mode m with edit := tabPut noEntry (w.mode m).edit e y })

/-- TW_TCOMMIT as read: the commits that wait. -/
def State.twPending (s : State) (n : Nat) : Word :=
  BitVec.ofNat 32 (((List.range 4).map (fun m => ((s.tw n).mode m).pend.isSome.toNat * 2 ^ (8 + m))).sum)

/-- TW_DTAB as read. -/
def State.twDtab (s : State) (n : Nat) : Word :=
  let d := (s.tw n).delay (s.rd (TW_DSEL.ADDR n))
  BitVec.ofNat 32 (d.mean % 0x1000000 + d.samples.length * 0x1000000 + (!d.samples.isEmpty).toNat * 0x80000000)

/-- GD_STAT as read (R191). -/
def State.gdStat (s : State) (n : Nat) : Word :=
  let g := (s.tw n).guard
  BitVec.ofNat 32 (g.muzzled.toNat + 2 * g.anchored.toNat + 4 * (g.loads.any (fun e => match e.2 with | some (_, k) => k != 0 | none => false)).toNat + 8 * (g.openAt s.time.tick).toNat
    + ((List.range 4).map (fun m => (g.valid.contains m).toNat * 2 ^ (4 + m))).sum + g.mode * 0x100 + g.cause * 0x1000
    + min 255 (s.blockHist n) * 0x10000)

/-- GD_CYCNT and GD_PHASE as read. -/
def State.gdCycnt (s : State) (n : Nat) : Word := BitVec.ofNat 32 (s.tw n).guard.k
def State.gdPhase (s : State) (n : Nat) : Word :=
  let g := (s.tw n).guard
  if g.anchored then BitVec.ofNat 32 (s.time.tick - g.g) else 0

end Sys2Proof.Machine
end

