-- ==== Sys2Proof/Machine/Chain.lean ====
section
/-!
DEFINITION. The Sahoz chain (R309 to R349): link bring-up and loss, cells and credits, what happens to stranded cells, the
orphan-write log, queue forwarding, link delay and time transfer.
-/
namespace Sys2Proof.Machine

/-! ## Links (R312, R313) -/

/-- Link l. -/
def State.link (s : State) (l : Nat) : Link := tabGet Link.reset s.links l

/-- The state with x for link l. -/
def State.setLink (s : State) (l : Nat) (x : Link) : State := { s with links := tabPut Link.reset s.links l x }

/-- The codes of a link's states (R312). -/
def lkDisabled : Nat := 0
def lkDetect : Nat := 1
def lkTrain : Nat := 2
def lkHello : Nat := 3
def lkUp : Nat := 4
def lkStandby : Nat := 5
def lkHeld : Nat := 6
def lkSleep : Nat := 7

/-- The state of link l. -/
def State.linkState (s : State) (l : Nat) : Nat := s.rd (LK_STAT.STATE l)

/-- Link l enters the state with code c (R312): a rate held by UP or STANDBY ends with them. -/
def State.toLinkState (s : State) (l c : Nat) : State :=
  let s := (s.wr (LK_STAT.STATE l) c).setLink l { s.link l with since := s.time.tick }
  if c = lkUp ∨ c = lkStandby then s else s.off (LK_STAT.RATE_5G l)

/-- The role: 3 acts as 2 (R354). -/
def State.role (s : State) : Nat := min 2 (s.rd CH_CTRL.ROLE)

/-- The device's own number (R319). -/
def State.ownNum (s : State) : Nat := s.rd CH_STAT.DEVNUM

/-- A CH_BUF value as the four splits in cells (R316): a field of 0 acts as 1, and VC1, VC0 and VC3 give way in that order until the
sum is 64 units. -/
def splitOf (v : Nat) : List Nat :=
  let f (i : Nat) : Nat := max 1 (v / 256 ^ i % 256)
  let cut (x extra : Nat) : Nat := max 1 (x - extra)
  let b := cut (f 1) (f 0 + f 1 + f 2 + f 3 - 64)
  let a := cut (f 0) (f 0 + b + f 2 + f 3 - 64)
  let d := cut (f 3) (a + b + f 2 + f 3 - 64)
  [a * 64, b * 64, f 2 * 64, d * 64]

/-- The credits of link l at their initial values, with the counts of R317 cleared. -/
def State.resetCredits (s : State) (l : Nat) : State :=
  let s := (List.range 4).foldl (fun s v => s.wr (LK_CRED_VC.AVAIL l v) (s.rd (LK_CRED_VC.INIT l v))) s
  let k := s.link l
  s.setLink l { k with sent := [0, 0, 0, 0], credIn := [0, 0, 0, 0], received := [0, 0, 0, 0], credOut := [0, 0, 0, 0] }

/-! ## Routes and sending (R315, R316, R324) -/

/-- The route table's entry of device d. -/
def State.rteEntry (s : State) (d : Nat) : Nat := s.rd ⟨CH_RTE (d / 16), 2 * (d % 16), 2⟩

/-- The link that the route to device d names, whatever its state (R324). -/
def State.routeLink (s : State) (d : Nat) : Option Nat :=
  if s.chain.routed.contains d then some (s.rteEntry d)
  else if s.isMember && !s.bit CH_STAT.ISOLATED then some (s.rd CH_STAT.UPLINK) else none

/-- The link on which cells for device d leave, if there is a route and its link is UP (R324). -/
def State.routeTo (s : State) (d : Nat) : Option Nat :=
  match s.routeLink d with
  | some l => if s.linkState l = lkUp then some l else none
  | none => none

/-- Item i of a list of counts, with x added. -/
def addAt (xs : List Nat) (i x : Nat) : List Nat := xs.set i ((xs.getD i 0) + x)

/-- The weights of VC0, VC1 and VC3; 0 acts as 1 (R315). -/
def State.vcWeights (s : State) : List Nat := [max 1 (s.rd CH_VCW.W0), max 1 (s.rd CH_VCW.W1), max 1 (s.rd CH_VCW.W3)]

/-- The virtual channel that link l serves next, and its budgets then (R315): VC2 first, the rest by weighted round-robin; only with a
cell that waits and a credit. VC0, VC1 and VC3 wait for the host step of a chain-synchronous release (R599). -/
def State.pickVc (s : State) (l : Nat) : Option (Nat × List Nat) :=
  let k := s.link l
  let open_ (v : Nat) : Bool := v == 2 || !s.bit RST_STAT.FORM || s.rd RST_STAT.PHASE == 8
  let can (v : Nat) : Bool := open_ v && k.waiting.any (fun c => decide (c.vc.val = v)) && s.rd (LK_CRED_VC.AVAIL l v) != 0
  let vcs := [0, 1, 3]
  if can 2 then some (2, k.budget)
  else
    let try_ (b : List Nat) : Option (Nat × List Nat) :=
      ([0, 1, 2].find? (fun i => b.getD i 0 != 0 && can (vcs.getD i 0))).map
        (fun i => (vcs.getD i 0, b.set i (b.getD i 0 - 1)))
    match try_ k.budget with
    | some x => some x
    | none => try_ s.vcWeights

/-- Link l sends what its credits allow of its waiting cells, at most fuel of them. -/
def State.pump (s : State) (l : Nat) : Nat → State
  | 0 => s
  | fuel + 1 =>
    match s.pickVc l with
    | none => s
    | some (v, b) =>
      let k := s.link l
      match k.waiting.find? (fun c => decide (c.vc.val = v)) with
      | none => s
      | some c =>
        let s := s.setLink l { k with
          waiting := k.waiting.erase c, replay := k.replay ++ [c], sent := addAt k.sent v 1, budget := b }
        let s := s.wr (LK_CRED_VC.AVAIL l v) (s.rd (LK_CRED_VC.AVAIL l v) - 1)
        ((s.inc (LK_CNT_TXCELL l)).emit (.cell l c)).pump l fuel

/-- Cell c joins link l's transmitter. -/
def State.queueCell (s : State) (l : Nat) (c : Cell) : State :=
  let k := s.link l
  (s.setLink l { k with waiting := k.waiting ++ [c] }).pump l (k.waiting.length + 1)

/-- Cell c is sent towards its destination; none without a route. -/
def State.sendCell (s : State) (c : Cell) : Option State := (s.routeTo c.dst.val).map (fun l => s.queueCell l c)

/-- A cell sent if there is a route, dropped otherwise. -/
def State.trySend (s : State) (c : Cell) : State := (s.sendCell c).getD s

/-- A cell from this device on a virtual channel. -/
def State.cellTo (s : State) (vc : Fin 4) (d : Nat) (m : ChainMsg) : Cell :=
  { vc := vc, src := Fin.ofNat 64 s.ownNum, dst := Fin.ofNat 64 d, msg := m }

/-! ## The map and route tables (R324, R325) -/

/-- Entry d of the root's map. -/
def State.mapEntry (s : State) (d : Nat) : MapEntry := tabGet MapEntry.reset s.chain.map d

/-- The root's map with entry d. -/
def State.setMapEntry (s : State) (d : Nat) (e : MapEntry) : State :=
  { s with chain := { s.chain with map := tabPut MapEntry.reset s.chain.map d e } }

/-- The entry of device x's route table for device d, as the map gives it: the link of x to the first device on the way down to d. -/
def State.entryFrom (s : State) (x : Nat) : Nat → Nat → Option Nat
  | 0, _ => none
  | fuel + 1, d =>
    if d = x then none
    else
      let e := s.mapEntry d
      if e.present = false then none else if e.parent = x then some e.parentLink else s.entryFrom x fuel e.parent

/-- The route table of device x over the devices ds, as pairs of device and link. -/
def State.tableOf (s : State) (x : Nat) (ds : List Nat) : List (Nat × Nat) :=
  ds.filterMap (fun d => (s.entryFrom x 17 d).map (fun l => (d, l)))

/-- The words of a route table and the bit map of its devices. -/
def tableWords (t : List (Nat × Nat)) : List Word × BitVec 64 :=
  ((List.range 4).map (fun i => BitVec.ofNat 32
      ((t.filter (fun e => decide (e.1 / 16 = i))).map (fun e => e.2 % 4 * 4 ^ (e.1 % 16))).sum),
   BitVec.ofNat 64 (t.map (fun e => 2 ^ e.1)).sum)

/-- ROUTE_APPLY (R325): this device applies a route table in one cycle. -/
def State.routeApply (s : State) (rte : List Word) (mask : BitVec 64) : State :=
  let s := (List.range 4).foldl (fun s i => s.setReg (CH_RTE i) (rte.getD i 0)) s
  { s with chain := { s.chain with routed := (List.range 64).filter (fun d => mask.getLsbD d) } }

/-- The devices of the map that have a route, in ascending order: those met, those not yet probed again, and those that sleep. -/
def State.routedDevices (s : State) : List Nat :=
  (s.chain.map.filter (fun e => e.2.present && !e.2.lost && (s.chain.routed.contains e.1 || e.2.asleep))).map Prod.fst

/-- The route tables that change from the map before, over devices old, to the map now, over devices ds, are applied at the root and sent
to the members (R321, R325). -/
def State.reroute (s before : State) (old ds : List Nat) : State :=
  (0 :: ds).foldl (fun s x =>
    let t := s.tableOf x ds
    if t = before.tableOf x old then s
    else
      let s := { s with chain := { s.chain with rerouted := true } }
      let (w, m) := tableWords t
      if x = 0 then s.routeApply w m else s.trySend (s.cellTo 3 x (.routes w m))) s

/-- The devices of the map that are reached through device d, d among them. -/
def State.through (s : State) (d : Nat) : List Nat :=
  let step (ds : List Nat) : List Nat :=
    ds ++ ((s.chain.map.filter (fun e => ds.contains e.2.parent && !ds.contains e.1)).map (·.1))
  (List.range 16).foldl (fun ds _ => step ds) [d]

/-- MEMBERS: the numbered members that are neither lost nor asleep (R354). -/
def State.showMembers (s : State) : State :=
  s.wr CH_STAT.MEMBERS ((s.chain.map.filter (fun e => e.2.present && !e.2.lost && !e.2.asleep)).length)

/-! ## Enumerations begin and end (R321, R325) -/

/-- The links of the root that an enumeration probes: those in UP or STANDBY (R325). -/
def State.probeLinks (s : State) : List (Nat × Nat) :=
  ((List.range 4).filter (fun l => s.linkState l == lkUp || s.linkState l == lkStandby)).map (fun l => (0, l))

/-- The end of an enumeration (R321, R325): members that it has not met, and that do not sleep, have no route. -/
def State.enumEnd (s : State) : State :=
  let old := s.routedDevices
  let ds := old.filter (fun d => let e := s.mapEntry d; s.chain.met.contains e.sn || e.asleep)
  let s := s.reroute s old ds
  let again := s.bit CH_STAT.ENUM_DONE
  let s := if again && s.chain.rerouted then (s.inc CH_CNT_REROUTE).on CH_EVT.REROUTE else s
  let s := (s.off CH_STAT.ENUM_BUSY).on CH_STAT.ENUM_DONE
  let s := (s.on CH_EVT.ENUM_DONE).showMembers
  let s := s.event Ev.CHAIN_ENUM [s.rd CH_STAT.MEMBERS]
  { s with chain := { s.chain with met := [], rerouted := false } }

/-- An enumeration begins: the root itself is met. -/
def State.enumBegin (s : State) : State :=
  let s := (s.on CH_STAT.ENUM_BUSY)
  { s with chain := { s.chain with probes := s.probeLinks, met := [s.chain.sn], again := false, rerouted := false } }

/-- The next probe leaves, or the enumeration ends. -/
def State.enumGo (s : State) : State :=
  match s.chain.probes with
  | (x, l) :: _ => s.emit (.probe x l)
  | [] =>
    let s := s.enumEnd
    if s.chain.again then
      let s := s.enumBegin
      match s.chain.probes with
      | (x, l) :: _ => s.emit (.probe x l)
      | [] => s.enumEnd
    else s

/-- An enumeration is asked for (R325): it starts, or follows the one in progress. A device other than a root with its supervisors
released enumerates nothing. -/
def State.enumAsk (s : State) : State :=
  if s.role ≠ 1 ∨ s.partRuns .engines = false then s
  else if s.bit CH_STAT.ENUM_BUSY then { s with chain := { s.chain with again := true } }
  else s.enumBegin.enumGo

/-- A change of the state of link l of this device is reported to the root (R325): a member tells it what has become of the link, 0 down, 1
UP, 6 HELD, 7 SLEEP; the root enumerates anew. -/
def State.reportLink (s : State) (l what : Nat) : State :=
  if s.isMember then s.trySend (s.cellTo 3 0 (.manage [BitVec.ofNat 32 l, BitVec.ofNat 32 what])) else s.enumAsk

/-! ## Failed reads and orphan writes (R327, R333, R334) -/

/-- The value v of a chain read reaches its issuer (R327): the calm port's snapshot takes it, and is READY or FAILED once it has all its words
(R514); another master gets its answer. -/
def State.answerRead (s : State) (r : ChainRead) (v : Word64) (ok : Bool) : State :=
  if r.m ≠ .calm then s.emit (.answer r.m v)
  else match s.calm.want, s.calm.taking with
    | some (addr, len, _), some (left, bad) =>
      let i := if addr.getLsbD 31 then len - left else (r.off + 0x1000000 - addr.toNat % 0x1000000) % 0x1000000 / 4
      let bad := bad || !ok
      let c := { s.calm with snap := s.calm.snap.set i (v.setWidth 32), taking := some (left - 1, bad) }
      if left ≤ 1 then
        { s with calm := { c with want := none, taking := none } }.wr ⟨CP_SNAPTAG, 0, 3⟩ (if bad then 4 else 2)
      else { s with calm := c }
    | _, _ => s

/-- A chain read is completed as failed with status st (R327): all ones, counted, with its event. -/
def State.failRead (s : State) (r : ChainRead) (st : Nat) : State :=
  let s := { s with chain := { s.chain with reads := s.chain.reads.erase r } }
  let s := ((s.inc CH_CNT_RDFAIL).on CH_EVT.RD_FAIL).event Ev.CHAIN_RD_FAIL [r.off + r.dev * 0x1000000, st]
  s.answerRead r (if r.wide then 0xFFFFFFFFFFFFFFFF else 0xFFFFFFFF) false

/-- The failure of a posted write is entered in the orphan-write log (R333, R334). -/
def State.orphan (s : State) (status reporter dev off : Nat) (wide : Bool) (v : Word64) (origin : Nat) : State :=
  let c := s.chain
  let i := c.orphanSeq % 64
  let t := timeWords s.now
  let entry : List Word := [
    t.getD 0 0, t.getD 1 0,
    BitVec.ofNat 32 ((t.getD 2 0).toNat + status % 16 * 0x10000 + reporter * 0x1000000),
    BitVec.ofNat 32 (off + dev * 0x1000000 + wide.toNat * 0x40000000),
    v.extractLsb' 0 32, if wide then v.extractLsb' 32 32 else 0,
    BitVec.ofNat 32 (origin % 16), BitVec.ofNat 32 c.orphanSeq]
  let s := if c.orphanUnread.contains i then s.inc CH_ORPH_LOST else s
  let s := { s with chain := { c with
    orphans := tabPut (fun _ => []) c.orphans i entry, orphanSeq := c.orphanSeq + 1
    orphanUnread := if c.orphanUnread.contains i then c.orphanUnread else i :: c.orphanUnread } }
  let s := (s.wr CH_ORPH_STAT.NEXT ((c.orphanSeq + 1) % 64)).put CH_ORPH_STAT.WRAPPED
    (s.bit CH_ORPH_STAT.WRAPPED || decide (64 ≤ c.orphanSeq + 1))
  ((s.inc CH_CNT_ORPHAN).on CH_EVT.ORPHAN).event Ev.ORPHAN_WRITE [off + dev * 0x1000000, origin]

/-- A report of a failed write reaches the issuer (R333): for a device that the root has declared lost it is MEMBER_LOST (R336). -/
def State.orphanReport (s : State) (status reporter dev off : Nat) (wide : Bool) (v : Word64) (origin : Nat) : State :=
  s.orphan (if s.role = 1 ∧ (s.mapEntry dev).lost then 3 else status) reporter dev off wide v origin

/-- ORPHAN_WRITE (R333): a failure report reaches the issuer. -/
def execOrphanWrite (status : BitVec 4) (reporter dev : Fin 64) (off : BitVec 24) (wide : Bool) (v : Word64) (origin : BitVec 4)
    (s : State) : Res :=
  .next (s.orphanReport status.toNat reporter.val dev.val off.toNat wide v origin.toNat)

/-- CHAIN_RD_FAIL (R327): no response within CH_RDTMO. -/
def execChainRdFail (d : Fin 64) (off : BitVec 24) (s : State) : Res :=
  match s.chain.reads.find? (fun r => decide (r.dev = d.val) && decide (r.off = off.toNat)) with
  | some r => .next ((s.runTo (r.at_ + max 1 (s.rd CH_RDTMO.TMO_US) * 1000)).failRead r 0)
  | none => .next s

/-- The response with value v and status st, 0 for none, completes read r (R327). -/
def State.endRead (s : State) (r : ChainRead) (v : Word64) (st : Nat) : State :=
  if st ≠ 0 then s.failRead r st
  else
    let s := { s with chain := { s.chain with reads := s.chain.reads.erase r } }
    s.answerRead r (if r.wide then v else v &&& 0xFFFFFFFF) true

/-- BAR4_READ_RESPONSE (R327): the response completes the read; one that reports a failure fails it. -/
def execBar4ReadResponse (d : Fin 64) (off : BitVec 24) (v : Word64) (status : BitVec 4) (s : State) : Res :=
  match s.chain.reads.find? (fun r => decide (r.dev = d.val) && decide (r.off = off.toNat)) with
  | some r => .next (s.endRead r v status.toNat)
  | none => .next s

/-! ## Queue forwarding (R329 to R332) -/

/-- The unaccepted words of queue q's forwarder. -/
def Queue.unaccepted (q : Queue) : Nat := (q.fwd.groups.map (fun g => g.words.length)).sum

/-- The status codes of R330 and R333 that a forwarder meets: 0 accepted, 1 no route, 4 domain off, 5 refused, 6 absent; anything else
is a return under R318. -/
def fwdAccepted : Nat := 0
def fwdRefused : Nat := 5
def fwdAbsent : Nat := 6

/-- The groups of queue q with sequence number seq are accepted: their words wait to be released (R329). -/
def Queue.acceptGroups (q : Queue) (seq : Nat) : Queue :=
  let (mine, rest) := q.fwd.groups.partition (fun g => decide (g.seq = seq))
  { q with fwd := { q.fwd with
      groups := rest, spans := q.fwd.spans ++ mine.map (fun g => (g.pos, g.pos + g.words.length)), paused := false } }

/-- The forwarder releases accepted words that stand at the release pointer, at most fuel groups of them, and not past a mark or an
unaccepted word; whatever the queue's mode, it then releases by itself what it would (R207, R329). -/
def Queue.releaseSpans (q : Queue) : Nat → Queue × List Block
  | 0 => q.autoRelease
  | fuel + 1 =>
    match q.fwd.spans.find? (fun x => decide (x.1 ≤ q.rl)) with
    | none => q.autoRelease
    | some x =>
      if q.keepFrom < x.2 then q.autoRelease
      else
        let (q, bs) := q.release (x.2 - q.rl)
        let r := ({ q with fwd := { q.fwd with spans := q.fwd.spans.erase x } } : Queue).releaseSpans fuel
        (r.1, bs ++ r.2)

/-- The accepted words of queue q that its forwarder can release, released (R329). -/
def Queue.forwardRelease (q : Queue) : Queue × List Block := q.releaseSpans q.fwd.spans.length

/-- The status st of group seq reaches queue n's forwarder (R330): after a refusal the later groups wait behind the refused one. -/
def State.forwardAnswer (s : State) (n seq st : Nat) : State :=
  let q := s.queue n
  if q.fwd.groups.any (fun g => decide (g.seq = seq)) = false then s
  else if st = fwdAccepted then
    let (q, bs) := (q.acceptGroups seq).forwardRelease
    s.putQueue n q bs
  else
    let s := s.inc CH_CNT_FWDRET
    let s := if st = 4 then s.bounce (.chainDevice (Fin.ofNat 64 q.cfg.fwdDev)) 1 else s
    if st = 1 ∨ st = 4 ∨ st = fwdAbsent then
      let s := if q.fwd.paused then s else (s.on CH_EVT.FWD_PAUSE).event Ev.FWD_PAUSE [n, st]
      s.setQueue n { s.queue n with fwd := { q.fwd with paused := true } }
    else if st = fwdRefused then s.setQueue n { s.queue n with fwd := { q.fwd with behind := true } }
    else s

/-- What the destination makes of a group (R332): whether it is new, old, or a resent one from an unknown source. -/
def Queue.groupIsOld (q : Queue) (dev from_ seq : Nat) : Option Bool :=
  (q.fwd.sources.find? (fun x => decide (x.dev = dev) && decide (x.queue = from_))).map (fun x =>
    let d := (seq + 0x100000000 - x.last) % 0x100000000
    !(decide (1 ≤ d) && decide (d ≤ 0x80000000)))

/-- The sources of a queue with an accepted group entered, most recently used first and at most four (R332). -/
def Queue.noteSource (q : Queue) (dev from_ seq : Nat) : Queue :=
  let rest := q.fwd.sources.filter (fun x => !(decide (x.dev = dev) && decide (x.queue = from_)))
  { q with fwd := { q.fwd with sources := ({ dev := dev, queue := from_, last := seq } :: rest).take 4 } }

/-- A forwarded group reaches this device (R330, R332): the status, and the state after its push. -/
def State.takeGroup (s : State) (dev from_ dest seq : Nat) (ws : List QWord) (resent : Bool) : Nat × State :=
  let q := s.queue dest
  if q.ex = false then (fwdAbsent, s)
  else match q.groupIsOld dev from_ seq with
    | some true => (fwdAccepted, s.inc CH_CNT_DUP)
    | known =>
      let s := if resent && known.isNone then (s.inc CH_CNT_DUPUNK).on CH_EVT.DUP_UNKNOWN else s
      match s.push dest ws (.chain (Fin.ofNat 64 dev)) with
      | (.accepted, s) => (fwdAccepted, s.setQueue dest ((s.queue dest).noteSource dev from_ seq))
      | (.refused, s) => (fwdRefused, s)
      | (.absent, s) => (fwdAbsent, s)

/-- FORWARD_GROUP_RECEIVE (R330, R332): the group is pushed or dropped, and its status answered. -/
def execForwardGroupReceive (dev : Fin 64) (from_ dest : BitVec 16) (seq : Word) (ws : List QWord) (resent : Bool) (s : State) : Res :=
  let (st, s) := s.takeGroup dev.val from_.toNat dest.toNat seq.toNat ws resent
  .next (s.trySend (s.cellTo 1 dev.val (.groupDone from_ seq (BitVec.ofNat 4 st))))

/-- Group g of queue n is sent (R329, R331): to this device's own queue, or on VC1; without a route it is returned with NO_ROUTE. -/
def State.sendGroup (s : State) (n : Nat) (g : FwdGroup) (resent : Bool) : State :=
  let q := s.queue n
  if q.cfg.fwdDev = s.ownNum then
    let (st, s) := s.takeGroup s.ownNum n q.cfg.fwdQid g.seq g.words resent
    s.forwardAnswer n g.seq st
  else
    let c := s.cellTo 1 q.cfg.fwdDev
      (.group (BitVec.ofNat 16 n) (BitVec.ofNat 16 q.cfg.fwdQid) (BitVec.ofNat 32 g.seq) g.words resent)
    match s.sendCell c with
    | some s => s
    | none => s.forwardAnswer n g.seq 1

/-- FORWARD_SEND (R329): the forwarder pops a group of up to 16 words, ended by END, while at most 64 are unaccepted. Later groups
wait behind one that was refused or paused. -/
def execForwardSend (q : BitVec 16) (s : State) : Res :=
  let n := q.toNat
  let x := s.queue n
  if x.ex = false ∨ x.cfg.fwdEn = false ∨ x.fwd.selfLoop ∨ x.fwd.paused ∨ x.fwd.behind ∨ s.runs .core = false ∨ 64 ≤ x.unaccepted then .next s
  else
    let pos := x.rd
    let seq := x.fwd.nextSeq
    let hold : FwdGroup := { seq := seq, pos := pos, words := [] }
    let s := s.setQueue n { x with fwd := { x.fwd with groups := x.fwd.groups ++ [hold] } }
    let (ws, s) := s.popGroup n (min 16 (64 - x.unaccepted))
    let y := s.queue n
    let gs := y.fwd.groups.filter (fun g => decide (g ≠ hold))
    if ws.isEmpty then .next (s.setQueue n { y with fwd := { y.fwd with groups := gs } })
    else
      let g : FwdGroup := { hold with words := ws }
      .next ((s.setQueue n { y with fwd := { y.fwd with groups := gs ++ [g], nextSeq := (seq + 1) % 0x100000000 } }).sendGroup n g false)

/-- After a refusal the groups of queue n's forwarder are sent again one by one, each once the one before it is accepted (R330); on this
device that is at once. -/
def State.sendBehind (s : State) (n : Nat) : Nat → State
  | 0 => s
  | fuel + 1 =>
    let q := s.queue n
    match q.fwd.groups with
    | [] => s.setQueue n { q with fwd := { q.fwd with behind := false } }
    | g :: _ =>
      let s := s.sendGroup n g true
      if (s.queue n).fwd.groups.any (fun x => decide (x.seq = g.seq)) then s else s.sendBehind n fuel

/-- FORWARD_STATUS (R330): the status is taken; where the group was the one that others wait behind, and is accepted, the next one goes. -/
def execForwardStatus (q : BitVec 16) (seq : Word) (status : BitVec 4) (s : State) : Res :=
  let n := q.toNat
  let f := (s.queue n).fwd
  let first := match f.groups with | g :: _ => decide (g.seq = seq.toNat) | [] => false
  let s := s.forwardAnswer n seq.toNat status.toNat
  .next (if f.behind && first && status.toNat == fwdAccepted then s.sendBehind n 65 else s)

/-- FORWARD_RETRY (R330): the retry time has passed, or the words were returned: the unaccepted groups are sent again in order, or after a
refusal the first of them. -/
def execForwardRetry (q : BitVec 16) (s : State) : Res :=
  let n := q.toNat
  let x := s.queue n
  if x.ex = false ∨ x.cfg.fwdEn = false ∨ s.runs .core = false then .next s
  else if x.fwd.behind then .next (s.sendBehind n 65)
  else .next (x.fwd.groups.foldl (fun s g => s.sendGroup n g true) s)

/-! ## Stranded cells (R318) -/

/-- A cell whose delivery is unknown, or that has no route, is handled with status st: failed at this device if it issued it, or
reported towards its source. -/
def State.strand (s : State) (c : Cell) (st : Nat) : State :=
  let own := decide (c.src.val = s.ownNum)
  match c.msg with
  | .read off _ =>
    if own then
      match s.chain.reads.find? (fun r => decide (r.dev = c.dst.val) && decide (r.off = off.toNat)) with
      | some r => s.failRead r st
      | none => s
    else s.trySend { c with src := c.dst, dst := c.src, msg := .readDone 0 (BitVec.ofNat 4 st) }
  | .readDone _ _ => s.trySend { c with msg := .readDone 0 (BitVec.ofNat 4 st) }
  | .write off wide v o =>
    if own then s.orphan st s.ownNum c.dst.val off.toNat wide v o.toNat
    else s.trySend (s.cellTo 0 c.src.val (.report (BitVec.ofNat 4 st) c.dst off wide v o))
  | .group q _ seq _ _ =>
    if own then s.forwardAnswer q.toNat seq.toNat st
    else s.trySend { c with src := c.dst, dst := c.src, msg := .groupDone q seq (BitVec.ofNat 4 st) }
  | .manage _ => if own then s.trySend c else s
  | .request _ => if own then s.trySend c else s
  | .routes _ _ => if own then s.trySend c else s
  | _ => s

/-- A member's route to the root is lost (R335). -/
def State.isolate (s : State) : State :=
  if s.bit CH_STAT.ISOLATED then s
  else ((s.on CH_STAT.ISOLATED).on CH_EVT.ISOLATED).fire 2042

/-- Link l carries nothing any more and enters the state with code c: its cells leave it, and its credits and its delay filter start anew
(R317, R318, R340). A member whose uplink it was is isolated (R335). -/
def State.emptyLink (s : State) (l c : Nat) : State :=
  let was := s.linkState l
  let s := s.setLink l { s.link l with
    replay := [], waiting := [], held := [], samples := [], rejects := 0, restart := false, ready := false }
  let s := ((s.wr (LK_STAT.HOLD_CAUSE l) 0).wr (LK_STAT.DLY_SAMPLES l) 0).on (LK_STAT.DLY_WARMING l)
  let s := (s.resetCredits l).toLinkState l c
  if (was = lkUp ∨ c = lkSleep) ∧ s.isMember ∧ s.rd CH_STAT.UPLINK = l then s.isolate else s

/-- Link l is lost (R313, R318): it returns to the state with code next, its cells are stranded, and the change is reported. -/
def State.dropLink (s : State) (l next : Nat) : State :=
  let k := s.link l
  let s := ((s.inc (LK_CNT_DOWN l)).on (LK_EVT.DOWN l)).event Ev.LINK_DOWN [l]
  let s := s.emptyLink l next
  let s := (k.replay ++ k.waiting ++ k.held).foldl (fun s c => s.strand c 2) s
  s.reportLink l 0

/-- Link l enters SLEEP (R337): what it had sent without an answer is stranded like on a lost link, and what it still held fails with
DOMAIN_OFF (log entry 185). -/
def State.sleepLink (s : State) (l : Nat) : State :=
  let k := s.link l
  let s := (s.emptyLink l lkSleep).on (LK_EVT.SLEEP l)
  (k.waiting ++ k.held).foldl (fun s c => s.strand c 4) (k.replay.foldl (fun s c => s.strand c 2) s)

/-- Whether link l can go down under R313. -/
def State.canDrop (s : State) (l : Nat) : Bool := decide (3 ≤ s.linkState l) && decide (s.linkState l ≤ 6)

/-- LINK_DOWN (R313). -/
def execLinkDown (l : Fin 4) (s : State) : Res := .next (if s.canDrop l.val then s.dropLink l.val lkDetect else s)

/-- FORCE_DOWN (R313): recorded as a write of LK_CTRL. -/
def execForceDown (o : Origin) (l : Fin 4) (s : State) : Res :=
  let s := s.configWrite o (LK_CTRL l.val) (s.reg (LK_CTRL l.val) ||| 8) (s.reg (LK_CTRL l.val))
  .next (if s.canDrop l.val then s.dropLink l.val lkDetect else s)

/-! ## Bring-up (R311, R312, R316, R323) -/

/-- LINK_SIGNAL_DETECT (R312): DETECT goes to TRAIN; a SLEEP link whose partner's signal returns goes to DETECT. -/
def execLinkSignalDetect (l : Fin 4) (s : State) : Res :=
  let n := l.val
  if s.linkState n = lkSleep then .next (s.toLinkState n lkDetect)
  else if s.linkState n = lkDetect ∧ s.runs .hser then
    let s := s.setLink n { s.link n with slow := decide (s.rd (LK_CTRL.RATE n) = 2) }
    .next (s.toLinkState n lkTrain)
  else .next s

/-- The HELLO block that link l sends (R312). The root is device 0 (R319). -/
def State.helloOf (s : State) (l : Nat) : Hello :=
  { sn := s.chain.sn, role := BitVec.ofNat 2 s.role, link := Fin.ofNat 4 l
    num := if s.bit CH_STAT.NUMBERED ∨ s.role = 1 then some (Fin.ofNat 64 s.ownNum) else none, split := s.reg CH_BUF, slow := (s.link l).slow }

/-- LINK_BLOCK_LOCK (R312): TRAIN goes to HELLO, and HELLO blocks are sent. -/
def execLinkBlockLock (l : Fin 4) (s : State) : Res :=
  let n := l.val
  if s.linkState n = lkTrain ∧ s.runs .hser then .next ((s.toLinkState n lkHello).emit (.hello n (s.helloOf n))) else .next s

/-- LINK_TRAIN_TIMEOUT (R312): no lock within 2 ms; training goes on at the other rate if RATE is 0, which 3 acts as. -/
def execLinkTrainTimeout (l : Fin 4) (s : State) : Res :=
  let n := l.val
  if s.linkState n = lkTrain ∧ s.runs .hser then
    let s := s.runTo ((s.link n).since + 2000000)
    let r := s.rd (LK_CTRL.RATE n)
    let k := s.link n
    .next ((s.setLink n { k with slow := if r = 0 ∨ r = 3 then !k.slow else k.slow }).toLinkState n lkTrain)
  else .next s

/-- Link l is HELD with cause c and event code e, if it has one (R323). -/
def State.holdLink (s : State) (l c : Nat) (e : Option Nat) : State :=
  let s := (s.toLinkState l lkHeld).wr (LK_STAT.HOLD_CAUSE l) c
  let s := (s.on (LK_EVT.HELD l)).on CH_EVT.HELD
  match e with
  | some e => s.event e [l]
  | none => s

/-- The partner's HELLO is taken in (R312, R316): its identity is shown and the credits start from its split. -/
def State.takeHello (s : State) (l : Nat) (h : Hello) : State :=
  let s := (List.range 4).foldl (fun s i => s.setReg (LK_PSN l i) (h.sn.extractLsb' (32 * i) 32)) s
  let s := (s.wr (LK_STAT.PARTNER_LINK l) h.link.val).wr (LK_STAT.PARTNER_DEV l) (match h.num with | some d => d.val | none => 0)
  let s := s.put (LK_STAT.PARTNER_NUM l) h.num.isSome
  let init := splitOf h.split.toNat
  let s := (List.range 4).foldl (fun s v => s.wr (LK_CRED_VC.INIT l v) (init.getD v 0)) s
  (s.setLink l { s.link l with partner := some h, split := splitOf (s.reg CH_BUF).toNat }).resetCredits l

/-- HELLO_EXCHANGE (R311, R312, R323): three HELLO blocks each way bring the link UP, or HELD; a failed exchange is counted. -/
def execHelloExchange (l : Fin 4) (h : Option Hello) (s : State) : Res :=
  let n := l.val
  if s.linkState n ≠ lkHello ∨ s.runs .hser = false then .next s
  else match h with
    | none => .next (s.inc (LK_CNT_HELLOERR n))
    | some h =>
      let s := s.takeHello n h
      if h.role = 1 ∧ s.role = 1 then .next ((s.holdLink n 1 (some Ev.ROOT_CONFLICT)).reportLink n 6)
      else if h.sn = s.chain.sn then .next ((s.holdLink n 4 (some Ev.LINK_LOOPBACK)).reportLink n 6)
      else if h.role = 0 then .next ((s.holdLink n 5 none).reportLink n 6)
      else
        let slow := h.slow || (s.link n).slow
        let s := (s.toLinkState n lkUp).on (LK_EVT.UP n)
        let s := if slow then (s.on (LK_STAT.RATE_5G n)).on (LK_EVT.FALLBACK n) else s
        .next (s.reportLink n 1)

/-- What a written LK_CTRL.EN does (R312): 1 moves a DISABLED link to DETECT unless the role is standalone, 0 disables the link. -/
def State.linkEn (s : State) (n : Nat) : State :=
  if s.bit (LK_CTRL.EN n) then (if s.linkState n = lkDisabled ∧ s.role ≠ 0 then s.toLinkState n lkDetect else s)
  else if s.canDrop n then s.dropLink n lkDisabled
  else s.toLinkState n lkDisabled

/-- LINK_EN_WRITE (R312). -/
def execLinkEnWrite (o : Origin) (l : Fin 4) (en : Bool) (s : State) : Res :=
  .next ((s.regStore o (LK_CTRL l.val) (fldPut (LK_CTRL.EN l.val) (s.reg (LK_CTRL l.val)) en.toNat)).linkEn l.val)

/-- The links start (R598, R599): those whose EN is set go to DETECT, unless the role is standalone. -/
def State.linksStart (s : State) : State :=
  (List.range 4).foldl (fun s l => if s.bit (LK_CTRL.EN l) then s.linkEn l else s) s

/-- The CHAIN source is not VALID on a device that is no numbered member, or that does not follow (R343). -/
def State.chainFollows (s : State) : State :=
  if s.srcValid 3 && !(s.isMember && s.bit CH_CTRL.TIME_FOLLOW) then (s.setValid 3 false).reselect else s

/-- The device leaves the chain (R319): its number, its routes and what they carried are gone. -/
def State.leaveChain (s : State) : State :=
  let s := (((s.wr CH_STAT.DEVNUM 0).off CH_STAT.NUMBERED).off CH_STAT.ISOLATED).wr CH_STAT.HOPS 0
  let s := (((s.off CH_STAT.ENUM_BUSY).off CH_STAT.ENUM_DONE).wr CH_STAT.MEMBERS 0).wr CH_STAT.UPLINK 0
  let s := (List.range 4).foldl (fun s l => s.off (LK_STAT.UPSTREAM l)) s
  let s := (List.range 4).foldl (fun s i => s.setReg (CH_RTE i) 0) s
  { s with chain := { s.chain with
      routed := [], map := [], probes := [], met := [], again := false, rerouted := false, answered := [], sync := none, syncs := 0
      paired := false } }.chainFollows

/-- What a change of the role does, which was old (R319): every link drops to DETECT, or to DISABLED for standalone; one with EN = 0 stays
DISABLED. -/
def State.roleMoved (s : State) (old : Nat) : State :=
  if s.role = old then s
  else
    let next (s : State) (l : Nat) : Nat := if s.role = 0 ∨ s.bit (LK_CTRL.EN l) = false then lkDisabled else lkDetect
    let s := (List.range 4).foldl (fun s l => if s.canDrop l then s.dropLink l (next s l) else s.toLinkState l (next s l)) s
    s.leaveChain

/-- CHAIN_ROLE_WRITE (R319). -/
def execChainRoleWrite (o : Origin) (role : BitVec 2) (s : State) : Res :=
  .next ((s.regStore o CH_CTRL (fldPut CH_CTRL.ROLE (s.reg CH_CTRL) role.toNat)).roleMoved s.role)

/-! ## Credits (R316, R317) -/

/-- CREDIT_SYNC_SEND (R317): the cumulative counts of each VC, modulo 2^24. -/
def execCreditSyncSend (l : Fin 4) (s : State) : Res :=
  let n := l.val
  if s.linkState n = lkUp ∨ s.linkState n = lkStandby then
    let k := s.link n
    .next (s.emit (.creditSync n ((List.range 4).map (fun v => (k.sent.getD v 0 % 0x1000000, k.credOut.getD v 0 % 0x1000000)))))
  else .next s

/-- Credit resynchronisation of a VC (R317): AVAIL is INIT and the counts are cleared; no cell is discarded. -/
def State.resyncVc (s : State) (l v : Nat) : State :=
  let k := s.link l
  let s := s.setLink l { k with
    sent := k.sent.set v 0, credIn := k.credIn.set v 0, received := k.received.set v 0, credOut := k.credOut.set v 0 }
  let s := s.wr (LK_CRED_VC.AVAIL l v) (s.rd (LK_CRED_VC.INIT l v))
  let s := ((s.inc (LK_CNT_RESYNC l)).on (LK_EVT.RESYNC l)).emit (.resync l v)
  s.pump l (k.waiting.length + 1)

/-- A class 4 check of link l and VC v (R254, R317) with the counts that the partner has sent. A credit is returned as its cell leaves the
receive buffer, so none waits to be. -/
def State.checkCredits (s : State) (l v sent returned : Nat) : State :=
  let k := s.link l
  let avail := s.rd (LK_CRED_VC.AVAIL l v)
  let init := s.rd (LK_CRED_VC.INIT l v)
  let out := k.sent.getD v 0 - k.credIn.getD v 0
  let held := (k.held.filter (fun c => decide (c.vc.val = v))).length
  let ok := avail + out == init && k.received.getD v 0 % 0x1000000 == sent && k.credIn.getD v 0 % 0x1000000 == returned
    && held + k.credOut.getD v 0 == k.received.getD v 0
  if ok then s
  else
    let delta : Int := ((avail + out : Nat) : Int) - init
    match s.ledgerFault 4 (l * 4 + v) delta [avail, out, init, sent, returned] 2 with
    | (true, s) => (s.resyncVc l v).ledgerDone 4 (l * 4 + v)
    | (false, s) => s

/-- CREDIT_SYNC_RECEIVE (R317): the partner's counts are compared exactly with the own ones. -/
def execCreditSyncReceive (l : Fin 4) (counts : List (BitVec 24 × BitVec 24)) (s : State) : Res :=
  let n := l.val
  if s.linkState n = lkUp ∨ s.linkState n = lkStandby then
    .next ((List.range 4).foldl (fun s v =>
      let c := counts.getD v (0, 0)
      s.checkCredits n v c.1.toNat c.2.toNat) s)
  else .next s

/-- Credits that the partner returns (R316); the cells they answer for have been acknowledged (log entry 85). -/
def State.takeCredits (s : State) (l : Nat) (credits : List (BitVec 16)) : State :=
  let s := (List.range 4).foldl (fun s v =>
    let n := (credits.getD v 0).toNat
    let k := s.link l
    let mine := (k.replay.filter (fun c => decide (c.vc.val = v))).take n
    let s := s.setLink l { k with credIn := addAt k.credIn v n, replay := mine.foldl (fun r c => r.erase c) k.replay }
    s.wr (LK_CRED_VC.AVAIL l v) (s.rd (LK_CRED_VC.AVAIL l v) + n)) s
  s.pump l ((s.link l).waiting.length + 1)

/-- A cell leaves link l's receive buffer, and its credit is returned (R316). -/
def State.returnCredit (s : State) (l v : Nat) : State :=
  let k := s.link l
  (s.setLink l { k with credOut := addAt k.credOut v 1 }).emit (.credit l v)

/-! ## Sleep (R337) -/

/-- The root marks device d, and every device routed through it, ASLEEP (R337); their interrupt inputs become inactive (R556). -/
def State.asleepThrough (s : State) (d : Nat) : State :=
  let ds := s.through d
  let m := tabMap MapEntry.reset (fun k e => if ds.contains k then { e with asleep := true } else e) s.chain.map
  let b := s.ledger.bounced.filter (fun u => match u with | .chainDevice d => !ds.contains d.val | _ => true)
  let s := ({ s with chain := { s.chain with map := m }, ledger := { s.ledger with bounced := b } } : State).showMembers
  ds.foldl (fun s d => s.memberLines d 0) s

/-- LINK_SLEEP (R337): the partner announces STILL; the root marks it and every device routed through it ASLEEP, and a member reports it. -/
def execLinkSleep (l : Fin 4) (s : State) : Res :=
  let n := l.val
  if 3 ≤ s.linkState n ∧ s.linkState n ≤ 5 then
    let s := s.sleepLink n
    let s := if s.role = 1 ∧ s.bit (LK_STAT.PARTNER_NUM n) then s.asleepThrough (s.rd (LK_STAT.PARTNER_DEV n)) else s
    .next (s.reportLink n 7)
  else .next s

/-! ## Link delay (R339, R340) -/

/-- DELAY_EXCHANGE (R339). -/
def execDelayExchange (l : Fin 4) (s : State) : Res :=
  if s.linkState l.val = lkUp ∨ s.linkState l.val = lkStandby then .next (s.emit (.delayRequest l.val)) else .next s

/-- The mean of delay samples, to the nearest ps. -/
def meanDelay (xs : List Int) : Int := if xs.isEmpty then 0 else divRound (xs.foldl (· + ·) 0) xs.length

/-- A sample in ps enters link l's filter (R340). -/
def State.delayFilter (s : State) (l : Nat) (m : Int) : State :=
  let k := s.link l
  let s := s.setReg (LK_DLY_LAST l) (BitVec.ofInt 32 m)
  let rej := max 1 (s.rd (LK_DLYCFG.REJ_NS l))
  let warm := decide (k.samples.length = 8)
  if warm ∧ k.restart = false ∧ rej * 1000 < (m - meanDelay k.samples).natAbs then
    let s := (s.inc (LK_CNT_DLYREJ l)).on (LK_EVT.DLY_REJ l)
    if k.rejects + 1 < 3 then s.setLink l { k with rejects := k.rejects + 1 }
    else (s.setLink l { k with rejects := 0, restart := true }).on (LK_EVT.DLY_RESTART l)
  else
    let xs := if k.restart then [m] else (m :: k.samples).take 8
    let s := s.setLink l { k with samples := xs, rejects := 0, restart := false }
    let s := s.setReg (LK_DELAY l) (BitVec.ofInt 32 (meanDelay xs))
    (s.wr (LK_STAT.DLY_SAMPLES l) xs.length).put (LK_STAT.DLY_WARMING l) (decide (xs.length < 8))

/-- LINK_DELAY_SAMPLE (R339, R340): the four stamps of a delay exchange, in ps. -/
def execLinkDelaySample (l : Fin 4) (t1 t2 t3 t4 : Nat) (s : State) : Res :=
  if s.linkState l.val = lkUp ∨ s.linkState l.val = lkStandby then
    .next (s.delayFilter l.val ((((t4 : Int) - t1) - ((t3 : Int) - t2)) / 2))
  else .next s

/-! ## Time transfer (R341 to R344) -/

/-- CHAIN_SYNC_SEND (R341, R344): a SYNC on each downstream link in UP; an isolated member sends its own QUALITY. -/
def execChainSyncSend (s : State) : Res :=
  let root := decide (s.role = 1)
  if root = false ∧ s.isMember = false then .next s
  else
    let q := if root || s.bit CH_STAT.ISOLATED then s.quality else s.rd CH_TSTAT.ROOT_QUALITY
    let seq := if root || s.bit CH_STAT.ISOLATED then s.rd TB_TIME_SH.STEP_SEQ
      else (match s.chain.sync with | some x => x.seq | none => 0)
    .next ((List.range 4).foldl (fun s l =>
      if s.linkState l = lkUp ∧ (root || s.rd CH_STAT.UPLINK != l || s.bit CH_STAT.ISOLATED) then
        s.emit (.sync l s.now q (s.rd CH_STAT.HOPS) seq) else s) s)

/-- The delay used on link l, in ps (R339). -/
def State.linkDelay (s : State) (l : Nat) : Int := (s.reg (LK_DELAY l)).toNat + s.rdInt (LK_ASYM l)

/-- A SYNC makes the CHAIN source VALID (R343), other than by its own acceptance. -/
def State.chainTime (s : State) (l quality : Nat) : Bool :=
  s.isMember && s.bit CH_CTRL.TIME_FOLLOW && s.linkState l == lkUp && !(s.link l).samples.isEmpty && quality != 5

/-- The rate correction of an accepted SYNC (R342), in units of the addend, if a pair without a step allows one. -/
def State.syncRate (s : State) (l sent arrived seq : Nat) : Option Int :=
  match s.chain.sync with
  | none => none
  | some x =>
    if x.link ≠ l ∨ x.seq ≠ seq ∨ x.own ≠ s.rd TB_TIME_SH.STEP_SEQ ∨ sent ≤ x.sent then none
    else
      let dt : Int := (sent : Int) - x.sent
      let slew := divRound ((s.time.slewSum - x.slew) * 1000) unit32
      let e := ((arrived : Int) - x.arrived) - dt - slew
      let shift := if s.chain.paired then s.rd CH_SERVO.G_SHIFT else 0
      some (s.rdInt TB_ADDEND - divRound (e * (8 * unit32)) (dt * 2 ^ shift))

/-- CHAIN_SYNC_RECEIVE (R341 to R343): a SYNC with departure sent and arrival stamp arrived, in ps, on the upstream link; any other is
dropped. -/
def execChainSyncReceive (l : Fin 4) (sent arrived : Nat) (quality : BitVec 3) (hops : Fin 17) (stepSeq : Byte) (s : State) : Res :=
  let n := l.val
  if s.isMember = false ∨ s.bit CH_STAT.ISOLATED ∨ s.rd CH_STAT.UPLINK ≠ n ∨ s.linkState n ≠ lkUp then .next s
  else
    let s := s.inc CH_CNT_SYNCRX
    let s := (s.wr CH_TSTAT.ROOT_QUALITY quality.toNat).wr CH_TSTAT.SYNC_HOPS hops.val
    let th : Int := sent + s.linkDelay n - arrived
    let s := s.setReg CH_OFFSET (satInt32 th)
    let rate := s.syncRate n sent arrived stepSeq.toNat
    let k := s.chain.syncs + 1
    let mark : SyncMark := {
      link := n, sent := sent, arrived := arrived, seq := stepSeq.toNat, slew := s.time.slewSum, own := s.rd TB_TIME_SH.STEP_SEQ }
    let s := { s with chain := { s.chain with sync := some mark, syncs := min 8 k, paired := s.chain.paired || rate.isSome } }
    if s.chainTime n quality.toNat then .next (s.submit 3 .device rate (some (.off ((th + 500) / 1000) false)))
    else .next (if s.srcValid 3 then (s.setValid 3 false).reselect else s)

/-- CH_TSTAT as read: CHAIN_VALID is the source's validity (R343), and SERVO_WARM is set until 8 SYNCs have been accepted (R342). -/
def State.chTstat (s : State) : Word :=
  fldPut CH_TSTAT.SERVO_WARM (fldPut CH_TSTAT.CHAIN_VALID (s.reg CH_TSTAT) (s.srcValid 3).toNat) (decide (s.chain.syncs < 8)).toNat

end Sys2Proof.Machine
end

