-- ==== Sys2Proof/Machine/HostOps.lean ====
section
/-!
DEFINITION. The operations that the host's commands share (R439 to R463): the fields of an entry, rings, completions and their sources
(R259, R452, R457), and the end of commands and aborts.
-/
namespace Sys2Proof.Machine

/-! ## Entries (R443) -/

/-- The status codes of a completion (R453). -/
def stOk : Nat := 0
def stShort : Nat := 1
def stTimeout : Nat := 2
def stAborted : Nat := 3
def stReset : Nat := 4
def stDomainOff : Nat := 5
def stDeviceLost : Nat := 6
def stEngineFault : Nat := 7
def stTagReclaimed : Nat := 8
def stTagBusy : Nat := 9
def stBadOpcode : Nat := 10
def stBadField : Nat := 11
def stAbsent : Nat := 12
def stDmaError : Nat := 13
def stNoRoute : Nat := 14
def stNotRunning : Nat := 15
def stBusy : Nat := 16
def stSectionErr : Nat := 17

/-- Word i of entry e. -/
def entryWord (e : List Word) (i : Nat) : Nat := (e.getD i 0).toNat

/-- OPCODE, FLAGS, TAG, DEV, TARGET, LEN, ADDR, TMO_US and ARG of entry e. -/
def entryOp (e : List Word) : Nat := entryWord e 0 % 256
def entryFlag (e : List Word) (b : Nat) : Bool := (e.getD 0 0).getLsbD (8 + b)
def entryTag (e : List Word) : Nat := entryWord e 0 / 0x10000 % 4096
def entryDev (e : List Word) : Nat := entryWord e 1 % 64
def entryTarget (e : List Word) : Nat := entryWord e 2
def entryLen (e : List Word) : Nat := entryWord e 3
def entryAddr (e : List Word) : Nat := entryWord e 5 * 0x100000000 + entryWord e 4
def entryTmo (e : List Word) : Nat := entryWord e 6
def entryArg (e : List Word) : Nat := entryWord e 7

/-- The bytes of words, little-endian (R12). -/
def bytesOf (ws : List Word) : List Byte :=
  (ws.map (fun w => (List.range 4).map (fun i => w.extractLsb' (8 * i) 8))).flatten

/-- The word of up to four bytes, 0 above them. -/
def wordOf (bs : List Byte) : Word :=
  ((bs.getD 3 0) ++ (bs.getD 2 0) ++ (bs.getD 1 0) ++ (bs.getD 0 0) : BitVec 32)

/-- The words of a byte list, of which the last may be short. -/
def wordsOf (bs : List Byte) : List Word := (List.range ((bs.length + 3) / 4)).map (fun i => wordOf ((bs.drop (4 * i)).take 4))

/-- DATA of entry e: 32 bytes. -/
def entryData (e : List Word) : List Byte := bytesOf ((e.drop 8).take 8)

/-- The opcodes (R445). -/
def opNop : Nat := 0
def opPush : Nat := 1
def opPop : Nat := 2
def opQcmd : Nat := 3
def opRegRead : Nat := 4
def opRegWrite : Nat := 5
def opCall : Nat := 6
def opSection : Nat := 7
def opTime : Nat := 8

/-- Whether feature bit b is accepted (R438). -/
def State.feature (s : State) (b : Nat) : Bool := s.regBit (FEAT_ACCEPT 0) b

/-- FENCE, END, FMT64 and PKT of a command; INLINE and SGL only where accepted (R438, R444). -/
def State.inlineCmd (s : State) (e : List Word) : Bool :=
  entryFlag e 4 && s.feature 2 && (entryOp e == opPush || entryOp e == opRegWrite)
def State.sglCmd (s : State) (e : List Word) : Bool := entryFlag e 5 && s.feature 3

/-- The n bytes of out laid into a command's buffer: one piece without an SGL, the elements in order with one (R444). -/
def bufferPieces (addr : Nat) : List (Word64 × Word) → List Byte → List (Word64 × List Byte)
  | [], bs => if bs.isEmpty then [] else [(BitVec.ofNat 64 addr, bs)]
  | (a, n) :: r, bs =>
    if bs.isEmpty then [] else
    match r with
    | [] => [(a, bs)]
    | _ => (a, bs.take n.toNat) :: bufferPieces addr r (bs.drop n.toNat)

/-! ## Rings (R439 to R441) -/

/-- The entries of a ring: 2^SIZE, SIZE from 4 to 16. -/
def ringSize (size : Nat) : Nat := 2 ^ min 16 (max 4 size)

/-- The entries of SQ n and of CQ n. -/
def State.sqSize (s : State) (n : Nat) : Nat := ringSize (s.rd (SQ_CFG.SIZE n))
def State.cqSize (s : State) (n : Nat) : Nat := ringSize (s.rd (CQ_CFG.SIZE n))

/-- Completion ring n beside its registers. -/
def State.cq (s : State) (n : Nat) : CqState := tabGet CqState.reset s.host.cqs n

/-- The state with x for completion ring n. -/
def State.setCq (s : State) (n : Nat) (x : CqState) : State :=
  { s with host := { s.host with cqs := tabPut CqState.reset s.host.cqs n x } }

/-- The tail of SQ n. -/
def State.sqTail (s : State) (n : Nat) : Nat := tabGet (fun _ => 0) s.host.tails n

/-- Whether the host link carries traffic of the device (R435, R463). -/
def State.hostUp (s : State) : Bool :=
  s.bit HI_STAT.LINK_UP && s.rd HI_STAT.DSTATE == 0 && s.bit HI_STAT.BME && s.runs .hser && s.runs .core

/-! ## Completions (R259, R451, R457) -/

/-- The completion sources (R457): 4 + e is engine e, 64 + d member d. -/
def srcFront : Nat := 0
def srcQueue : Nat := 1
def srcReg : Nat := 2
def srcAbort : Nat := 3

/-- How many completions source n holds. -/
def HostIf.holds (h : HostIf) (n : Nat) : Nat := (h.held.filter (fun x => x.source == n)).length

/-- Whether completions of ring n wait to be written. -/
def State.ringHeld (s : State) (n : Nat) : Bool :=
  (s.host.held ++ s.host.later).any (fun x => x.sq == n && x.tagged && !x.abt)

/-- Completion x reaches its source (R259): held there while it holds fewer than 8, and the eighth stalls it. -/
def State.hold (s : State) (x : Completion) : State :=
  let n := s.host.holds x.source
  if 8 ≤ n then { s with host := { s.host with later := s.host.later ++ [x] } }
  else
    let s := { s with host := { s.host with held := s.host.held ++ [x] } }
    if n = 7 then ((s.inc LG_CNT_STALL).on LG_EVT.STALL).giveWay Ev.COMPLETION_STALL 6 1 4 x.cq else s

/-- Finished completions that waited for room in source n are held as far as it has room. -/
def State.refillSource (s : State) (n : Nat) : State :=
  match s.host.later.find? (fun x => x.source == n) with
  | some x =>
    if s.host.holds n < 8 then { s with host := { s.host with later := s.host.later.erase x } }.hold x else s
  | none => s

/-- The words of the entry for completion x at head h of its submission ring, with phase p (R451). -/
def Completion.words (x : Completion) (h : Nat) (p : Bool) : List Word :=
  let t := timeWords x.stamp
  [BitVec.ofNat 32 (x.tag + x.reject.toNat * 0x8000 + x.status * 0x10000 + p.toNat * 0x1000000),
   BitVec.ofNat 32 (x.sq % 64 + x.abt.toNat * 0x80 + x.dev * 0x100 + h * 0x10000),
   BitVec.ofNat 32 x.count, BitVec.ofNat 32 x.detail, t.getD 0 0, t.getD 1 0,
   BitVec.ofNat 32 ((t.getD 2 0).toNat + x.stepSeq * 0x10000), 0]

/-- STEP_SEQ now. -/
def State.stepSeq (s : State) : Nat := s.rd TB_TIME_SH.STEP_SEQ

/-! ## The end of commands -/

/-- The tags that a unit holds (R254, R255): those of commands and aborts, and of completions not yet written. -/
def State.heldTags (s : State) : List TagMark :=
  let h := s.host
  (h.cmds.filter (fun c => c.owner.isNone)).map (fun c =>
      { tag := c.tag, cq := s.rd (SQ_CFG.CQ c.ring), sq := c.ring, dev := entryDev c.entry }) ++
    (h.aborts.filter (fun a => a.owner.isNone)).map (fun a => { tag := a.tag, cq := a.cq, sq := 0, dev := a.dev, abt := true }) ++
    ((h.held ++ h.later).filter (·.tagged)).map (fun x => { tag := x.tag, cq := x.cq, sq := x.sq, dev := x.dev, abt := x.abt })

/-- Whether tag t is outstanding: the tag table marks it, or a unit holds it (R254, R454). -/
def State.tagOut (s : State) (t : Nat) : Bool := (s.ledger.tags ++ s.heldTags).any (fun m => m.tag == t)

/-- The tag that m names is taken (R254, R454). -/
def State.takeTag (s : State) (m : TagMark) : State :=
  { s with ledger := { s.ledger with
      tags := s.ledger.tags ++ [m], tagsFree := s.ledger.tagsFree - 1, issued := s.ledger.issued + 1 } }.inc HI_CNT_CMD

/-- Tag t is returned when its completion is written or discarded. -/
def State.returnTag (s : State) (t : Nat) : State :=
  { s with ledger := { s.ledger with
      tags := s.ledger.tags.eraseP (fun m => m.tag == t), tagsFree := s.ledger.tagsFree + 1, completed := s.ledger.completed + 1 } }

/-- The completion source of a command that runs here. -/
def Cmd.source (c : Cmd) : Nat :=
  let op := entryOp c.entry
  if op = opCall then 4 + entryTarget c.entry
  else if op = opPush ∨ op = opPop ∨ op = opQcmd then srcQueue
  else srcReg

/-- Command c's record replaced by c', or removed. -/
def State.setCmd (s : State) (c : Cmd) (c' : Option Cmd) : State :=
  let cs := match c' with
    | some x => s.host.cmds.map (fun y => if y = c then x else y)
    | none => s.host.cmds.erase c
  { s with host := { s.host with cmds := cs } }

/-- The command with tag t for owner o. -/
def State.cmd? (s : State) (o : Option Nat) (t : Nat) : Option Cmd := s.host.cmds.find? (fun c => c.owner == o && c.tag == t)

/-- An abort is over (R459, R460): its completion is held, or goes back to the device that asked for it; its ABORT event is written. -/
def State.endAbort (s : State) (a : AbortSlot) (status : Nat) : State :=
  let detail := a.stopped % 0x10000 + a.extra % 0x10000 * 0x10000
  let s := { s with host := { s.host with aborts := s.host.aborts.erase a } }
  let s := if a.away then s else s.event Ev.ABORT [a.kind, a.object, a.stopped, a.extra] a.org
  match a.owner with
  | some d =>
    s.trySend (s.cellTo 3 d (.done (BitVec.ofNat 12 a.tag) true (BitVec.ofNat 8 status) 0 (BitVec.ofNat 32 detail)
      (timeWords s.now) (BitVec.ofNat 8 s.stepSeq) []))
  | none =>
    (s.hold { source := srcAbort, cq := a.cq, tag := a.tag, status := status, sq := (s.freeVal 6).toNat, abt := true
              dev := a.dev, detail := detail, stamp := s.now, stepSeq := s.stepSeq }).usedFree

/-- The aborts that wait for nothing more are over. -/
def State.settleAborts (s : State) : State :=
  (s.host.aborts.filter (fun a => !a.away && a.tags.isEmpty && a.engine.isNone && a.port.isNone)).foldl
    (fun s a => s.endAbort a stOk) s

/-- Aborts that wait for tag t no longer do. -/
def State.tagEnded (s : State) (t : Nat) : State :=
  let left := s.host.aborts.map (fun a : AbortSlot => { a with tags := a.tags.filter (· != t) })
  ({ s with host := { s.host with aborts := left } } : State).settleAborts

/-- Command c has finished with a status, COUNT and DETAIL (R451): its completion is held in source src, or crosses the chain to the
device whose host it serves. -/
def State.finishAt (s : State) (c : Cmd) (src status count detail stamp seq : Nat) (out : List Byte) : State :=
  let s := s.setCmd c none
  match c.owner with
  | some d =>
    s.trySend (s.cellTo 0 d (.done (BitVec.ofNat 12 c.tag) false (BitVec.ofNat 8 status) (BitVec.ofNat 32 count)
      (BitVec.ofNat 32 detail) (timeWords stamp) (BitVec.ofNat 8 seq) out))
  | none =>
    (s.hold { source := src, cq := s.rd (SQ_CFG.CQ c.ring), tag := c.tag, status := status, sq := c.ring
              dev := entryDev c.entry, count := count, detail := detail, stamp := stamp, stepSeq := seq
              buffer := bufferPieces (entryAddr c.entry) c.sgl out }).tagEnded c.tag

/-- Command c has finished now. -/
def State.finish (s : State) (c : Cmd) (status : Nat) (count : Nat := 0) (detail : Nat := 0) (out : List Byte := []) : State :=
  s.finishAt c (if c.away then 64 + entryDev c.entry else c.source) status count detail s.now s.stepSeq out

/-- Command c is stopped where it stands and completes with a status (R460). -/
def State.stopCmd (s : State) (c : Cmd) (status : Nat) : State := s.finish c status c.count c.seen c.out

/-- The host commands that engine e owns complete with a status (R387, R389, R449). -/
def State.endCalls (s : State) (e status : Nat) : State :=
  (s.host.cmds.filter (fun c => !c.away && c.posted && entryOp c.entry == opCall && entryTarget c.entry == e)).foldl
    (fun s c => s.finish c status) s

/-- Engine e answers the call with tag t (R449): words 1 onward go into the buffer; an answer that names no pending call is stale. -/
def State.callAnswer (s : State) (e t : Nat) (ws : List Word) : State :=
  match s.host.cmds.find? (fun c => !c.away && c.posted && entryOp c.entry == opCall && entryTarget c.entry == e && c.tag == t) with
  | some c =>
    let out := (bytesOf (ws.drop 1)).take (entryLen c.entry)
    s.finish c stOk out.length 0 out
  | none => s.inc HI_CNT_STALE

/-! ## Link loss (R463) -/

/-- The registers from a to below b read their reset values. -/
def State.clearRegs (s : State) (a b : Nat) : State :=
  { s with regs := s.regs.filter (fun e => decide (e.1 < a) || decide (b ≤ e.1)) }

/-- The little-endian number of the n bytes of bs from offset off (R12, R359). -/
def leNat (bs : List Byte) (off n : Nat) : Nat := ((bs.drop off).take n).reverse.foldl (fun a b => a * 256 + b.toNat) 0

/-! ## The end of a configuration load (R484, R485, R497) -/

/-- The frames of a framed image of n bytes (R483), if it has either form: F × 4,096 + 4 or F × 4,096 + 100, F from 1 to 511. -/
def framesOf (n : Nat) : Option Nat :=
  if (n % 4096 = 4 ∨ n % 4096 = 100) ∧ 1 ≤ n / 4096 ∧ n / 4096 ≤ 511 then some (n / 4096) else none

/-- DETAIL of a SECTION_LOAD whose load has ended (R485). -/
def State.loadDetail (s : State) : Nat :=
  s.rd CF_STAT.RESULT + s.rd CF_STAT.FAIL_TYPE * 0x100 + min (s.rd CF_SKIPPED.COUNT) 0xFFFF * 0x10000

/-- What the end of load l with a result does beside the loader's registers: it answers its SECTION_LOAD (R485), and tells the boot
sequencer of a failure (R523, R525); a chain boot cut by a core reset waits for its stream again (R524). -/
def State.tellLoad (s : State) (l : CfgLoad) (result : Nat) : State :=
  match l.src with
  | .stream => s
  | .command o t =>
    (match s.cmd? o t with
     | some c => s.finish c (if result = 0 then stOk else stSectionErr) 0 s.loadDetail
     | none => s)
  | .boot _ =>
    (match s.calm.boot with
     | some b =>
       let b' : Option BootSeq := if result = 0 then none else some { b with failed := some result }
       { s with calm := { s.calm with boot := b' } }
     | none => s)
  | .chain => if result = 0 then s else if result = 18 then s.wr CP_BOOTSTAT.STATE 3 else (s.wr CP_BOOTSTAT.STATE 6).event Ev.BOOT_FAILED [result]

/-- Load l ends with a result (R484, R497): DONE or FAILED, and one CONFIG_LOAD event. -/
def State.cfEnd (s : State) (l : CfgLoad) (result : Nat) : State :=
  let s := (s.wr CF_STAT.RESULT result).wr CF_STAT.STATE (if result = 0 then 5 else 6)
  let s := if result = 0 then s.on CF_EVT.DONE else (s.inc CF_CNT_FAIL).on CF_EVT.FAILED
  let crc := match framesOf l.len with | some f => leNat l.bytes (4096 * f) 4 | none => 0
  let s := s.event Ev.CONFIG_LOAD
    [leNat l.bytes 0xC 4, leNat l.bytes 0x10 4, crc, l.len, l.checkOnly.toNat, result, (s.reg CF_FAIL).toNat] l.org
  s.tellLoad l result

/-- The loader's registers at the start of load l in a state (R500). -/
def State.cfBegin (s : State) (l : CfgLoad) (st : Nat) : State :=
  let s := (((s.wr CF_STAT.STATE st).wr CF_STAT.RESULT 0).wr CF_STAT.FAIL_TYPE 0).wr CF_STAT.OWNER l.code
  let s := (s.put CF_STAT.CHECK_ONLY l.checkOnly).wr CF_PROGRESS.BYTES l.bytes.length
  { (s.setReg CF_SKIPPED 0).setReg CF_FAIL 0 with cfg := { s.cfg with load := some l } }

/-- The next whole load in line is checked once the loader is free (R482). -/
def State.nextLoad (s : State) : State :=
  match s.cfg.load, s.cfg.line with
  | none, l :: r => ({ s with cfg := { s.cfg with line := r } } : State).cfBegin l 2
  | _, _ => s

/-- The load in the loader ends with a result, and the next in line is served. -/
def State.endCfLoad (s : State) (result : Nat) : State :=
  match s.cfg.load with
  | some l => (({ s with cfg := { s.cfg with load := none } } : State).cfEnd l result).nextLoad
  | none => s

/-- A SECTION_LOAD is stopped (R485): its load ends CANCELLED, or leaves the line, unless apply has begun. -/
def State.loadStopped (s : State) (o : Option Nat) (t : Nat) : State :=
  let mine (l : CfgLoad) : Bool := l.src == LoadFrom.command o t
  let commit := s.cfg.commit.map (fun (c : Commit) => if mine c.load then { c with load := { c.load with src := .stream } } else c)
  let s := { s with cfg := { s.cfg with line := s.cfg.line.filter (fun l => !mine l), commit := commit } }
  match s.cfg.load with
  | some l => if mine l then s.endCfLoad 17 else s
  | none => s

/-- An outstanding command of this device's host is stopped, and its completion discarded (R463): one that runs on a member is aborted
there. -/
def State.dropCmd (s : State) (c : Cmd) : State :=
  let s := (((s.setCmd c none).inc HI_CNT_LINKDROP).returnTag c.tag).loadStopped none c.tag
  if c.away then s.trySend (s.cellTo 3 (entryDev c.entry) (.abort 15 (BitVec.ofNat 16 c.tag) 0)) else s

/-- The host link goes down or is reset (R463): rings are disabled, ring registers and the MSI-X table take their reset values, and
every outstanding command's completion is discarded, which frees its tag. -/
def State.hostDown (s : State) : State :=
  let h := s.host
  let gone := h.held ++ h.later
  let mine := h.aborts.filter (fun a => a.owner.isNone)
  let s := (h.cmds.filter (fun c => c.owner.isNone)).foldl State.dropCmd s
  let s := s.incBy HI_CNT_LINKDROP (gone.length + mine.length)
  let s := (gone.filter (·.tagged)).foldl (fun s x => s.returnTag x.tag) s
  let s := mine.foldl (fun s a => s.returnTag a.tag) s
  let s := { s with host := { s.host with held := [], later := [], cqs := [], tails := [], turn := 0, left := 0
                                          aborts := h.aborts.filter (fun a => a.owner.isSome) } }
  let s := s.clearRegs (SQ_BASE_LO 0) (MSIX_PBA 1 + 4)
  let s := (List.range 64).foldl (fun s n => (s.wr (SQ_STAT.ERR n) 5).wr (CQ_STAT.ERR n) 3) s
  ((s.setReg HI_STAT 0).on HI_EVT.LINK_RESET).event Ev.HOST_LINK_RESET []

end Sys2Proof.Machine
end

