-- ==== Sys2Proof/Machine/Memory.lean ====
section
/-!
DEFINITION. On-chip memory and DRAM (R640 to R664): the scratchpad's contents, banks and their states, injected and soft errors, the
read window, and the DDR5 channels.
-/
namespace Sys2Proof.Machine

/-! ## Contents -/

/-- The state with the scratchpad's bytes m. -/
def State.setScratch (s : State) (m : Mem) : State := { s with mem := { s.mem with scratch := m } }

/-- The listed bytes of bs, the first at address a. -/
def listBytes (a : Nat) : List Byte → Mem
  | [] => []
  | b :: bs => if b = 0 then listBytes (a + 1) bs else (a, b) :: listBytes (a + 1) bs

/-- m with the bytes bs at addresses a and on, in one pass. -/
def memWriteRange (m : Mem) (a : Nat) (bs : List Byte) : Mem :=
  m.filter (fun c => decide (c.1 < a)) ++ listBytes a bs ++ m.filter (fun c => decide (a + bs.length ≤ c.1))

/-- The scratchpad with the bytes bs from address a; an armed injection falls on the first word (R652). -/
def State.scratchWrite (s : State) (a : Nat) (bs : List Byte) : State :=
  let s := s.setScratch (memWriteRange s.mem.scratch a bs)
  let d := s.mem.damaged.filter (fun x => decide (x.1 < a) || decide (a + bs.length ≤ x.1))
  if s.bit MEM_INJ.ARM && s.rd MEM_INJ.TARGET == 0 && !bs.isEmpty then
    ({ s with mem := { s.mem with damaged := d ++ [(a, s.bit MEM_INJ.DOUBLE)] } } : State).off MEM_INJ.ARM
  else { s with mem := { s.mem with damaged := d } }

/-- Resident slot k. -/
def State.slot (s : State) (k : Nat) : Slot := tabGet Slot.reset s.mem.slots k

/-- The state with x as resident slot k. -/
def State.setSlot (s : State) (k : Nat) (x : Slot) : State :=
  { s with mem := { s.mem with slots := tabPut Slot.reset s.mem.slots k x } }

/-- The scratchpad address of resident slot k (R643). -/
def slotBase (k : Nat) : Nat := 0x1D80000 + k * 0x28000

/-! ## Banks (R645 to R647) -/

/-- Why bank b is busy (R646): an on-chip pool block, an occupied slot, a shared range; as bits 0 to 2. -/
def State.busyWhy (s : State) (b : Nat) : Nat :=
  let r := s.region 3
  let p := s.ledger.onChip
  let pool := decide (0 < p.held + p.flight + p.reclaim) && s.bankIn b r.base (r.base + r.size)
  let slots := (List.range 16).any (fun k => (s.slot k).len != 0 && s.bankIn b (slotBase k) (slotBase k + 0x28000))
  let shares := s.mem.shares.any (fun x => s.bankIn b x.base (x.base + x.len))
  pool.toNat + 2 * slots.toNat + 4 * shares.toNat

/-- MEM_BUSY_LO (i = 0) or MEM_BUSY_HI (i = 1) as read. -/
def State.memBusy (s : State) (i : Nat) : Word :=
  BitVec.ofNat 32 ((List.range 32).map (fun k => if s.busyWhy (32 * i + k) = 0 then 0 else 2 ^ k)).sum

/-- The state that MEM_BANKi requests for bank b; 3 acts as 0. -/
def State.bankWant (s : State) (b : Nat) : Nat :=
  let x := s.rd ⟨MEM_BANK (b / 16), 2 * (b % 16), 2⟩
  if x = 3 then 0 else x

/-- The state with x as the state that MEM_BSTAT shows of bank b. -/
def State.setBank (s : State) (b x : Nat) : State := s.wr ⟨MEM_BSTAT (b / 16), 2 * (b % 16), 2⟩ x

/-- Whether bank b is OFF, or on its way there. -/
def State.bankGone (s : State) (b : Nat) : Bool := s.bankState b == 2 || s.mem.changing.contains (b, 2)

/-- The on-chip pool brought up to date: the blocks of its range but for those with a byte in an OFF bank (R234, R647). -/
def State.repool (s : State) : State :=
  let r := s.region 3
  let gone := (List.range 64).filter s.bankGone
  let n := if gone.isEmpty then 0 else
    ((List.range (r.size / 4368)).filter (fun i =>
      gone.any (fun b => s.bankIn b (r.base + i * 4368) (r.base + (i + 1) * 4368)))).length
  { s with ledger := { s.ledger with onChip := s.ledger.onChip.resize false (r.size / 4368 - n) } }.poolWatch s

/-- A scratchpad interval without the bytes of [lo, hi): its first part that remains (R481). -/
def cutAway (lo hi b e : Nat) : Nat × Nat :=
  if e ≤ lo ∨ hi ≤ b then (b, e) else if b < lo then (b, lo) else (hi, max hi e)

/-- The region that record r of the MEMORY section gives where the regions rs are in force (R481): an eddy region lies in its channel's
addressable bytes, a scratchpad range below the reserved areas and beside the other scratchpad use. -/
def State.clipRegion (s : State) (rs : List Region) (r : Region) : Region :=
  let b := r.base / 4096 * 4096
  let e := b + r.size / 4096 * 4096
  if r.use ≤ 2 then
    let top := s.pair (DDR_SIZE_LO (r.use - 1)) (DDR_SIZE_HI (r.use - 1))
    { use := r.use, base := min b top, size := min e top - min b top }
  else
    let e := min e 0x1D80000
    let (b, e) := match rs.find? (fun x => x.use == 7 - r.use && x.size != 0) with
      | some x => cutAway x.base (x.base + x.size) b e
      | none => (b, e)
    { use := r.use, base := b, size := e - b }

/-- The extension of the log in force, in records (R549): the part of EL_XBASE and EL_XRECS that lies in a READY channel and beside its
eddy region, its first interval. -/
def State.logExt (s : State) : Nat :=
  if s.bit EL_XCFG.EN = false then 0
  else
    let c := s.rd EL_XCFG.CH
    let n := min (s.rd EL_XRECS.RECS / 128 * 128) 1044480
    let b := s.pair EL_XBASE_LO EL_XBASE_HI / 4096 * 4096
    let top := s.pair (DDR_SIZE_LO c) (DDR_SIZE_HI c)
    let r := s.region (1 + c)
    let (b, e) := if r.size = 0 then (min b top, min (b + n * 32) top)
      else cutAway r.base (r.base + r.size) (min b top) (min (b + n * 32) top)
    (e - b) / 32 / 128 * 128

/-- The log's capacity brought up to date with its extension: the oldest records that no longer fit are discarded (R549). f bounds them. -/
def State.logTrim (s : State) : Nat → State
  | 0 => s
  | f + 1 => if s.logCap * 8 < s.log.q.held then s.logDiscard.logTrim f else s

/-- The extension recomputed (R549), asked for anew or not: XCLIP tells that a clip has changed its size. -/
def State.logResize (s : State) (anew : Bool) : State :=
  let n := s.logExt
  let clipped := s.bit EL_XCFG.EN && n != min (s.rd EL_XRECS.RECS / 128 * 128) 1044480
  let s := if clipped && (anew || n != s.log.ext) then s.on EL_EVT.XCLIP else s
  let s := { s with log := { s.log with ext := n } }
  s.logTrim (s.log.q.held / 8 + 1)

/-- The regions in force, the pools and the log's extension brought up to date with the REGION records and the channels (R234, R241,
R481, R549, R655). -/
def State.applyRegions (s : State) : State :=
  let s := { s with mem := { s.mem with regions := s.mem.asked.foldl (fun rs r => rs ++ [s.clipRegion rs r]) [] } }
  let n (u : Nat) : Nat := (s.region u).size / 4368
  let s := { s with ledger := { s.ledger with eddy := (s.ledger.eddy.resize false (n 1)).resize true (n 2) } }.poolWatch s
  s.repool.refreshFull.logResize false

/-- Bank b begins its change to state t (R645). -/
def State.bankChange (s : State) (b t : Nat) : State :=
  (({ s with mem := { s.mem with changing := s.mem.changing ++ [(b, t)] }
             ledger := { s.ledger with bounced := s.ledger.bounced.filter (fun u => match u with | .bank k => k.val != b | _ => true) } } :
      State).setBank b 3).repool

/-- A request of state t for bank b (R645): a bank that is changing takes it afterwards. -/
def State.bankAsk (s : State) (b t : Nat) : State :=
  if s.bankState b = 3 ∨ s.bankState b = t then s else s.bankChange b t

/-- The words of bank b are lost: they return zeroed (R645). -/
def State.bankWiped (s : State) (b : Nat) : State :=
  { s with mem := { s.mem with
      scratch := s.mem.scratch.filter (fun c => s.bankOf c.1 != b), undef := s.mem.undef.filter (· != b)
      damaged := s.mem.damaged.filter (fun d => s.bankOf d.1 != b) } }

/-- BANK_TRANSITION_DONE (R645): bank b is in its new state; a request made meanwhile takes effect. -/
def execBankTransitionDone (b : Fin 64) (s : State) : Res :=
  match s.mem.changing.find? (fun x => x.1 == b.val) with
  | none => .next s
  | some (k, t) =>
    let s := if t = 2 then s.bankWiped k else s
    let s := ({ s with mem := { s.mem with changing := s.mem.changing.filter (fun x => x.1 != k) } } : State).setBank k t
    .next ((if s.bankWant k = t then s else s.bankChange k (s.bankWant k)).repool.refreshFull)

/-- A refused request of state t for bank b (R646, R648). -/
def State.bankRefused (s : State) (o : Origin) (b t : Nat) : State :=
  ((s.inc MEM_CNT_BUSY).on MEM_EVT.BANK_BUSY).event Ev.BANK_BUSY [b, t, s.busyWhy b] o

/-- BANK_STATE_REQUEST (R646): a write of MEM_BANKi; the fields of busy banks keep their value where the state asked for is OFF, or RET
and the bank is busy for more than pool blocks. What is accepted is recorded. -/
def execBankStateRequest (o : Origin) (i : Fin 4) (v : Word) (s : State) : Res :=
  let a := MEM_BANK i.val
  let old := s.reg a
  let s := (List.range 16).foldl (fun s k =>
    let b := 16 * i.val + k
    let x := v.toNat / 4 ^ k % 4
    let t := if x = 3 then 0 else x
    let why := s.busyWhy b
    if t = s.bankWant b then s.wr ⟨a, 2 * k, 2⟩ x
    else if (t = 2 ∧ why ≠ 0) ∨ (t = 1 ∧ 2 ≤ why) then s.bankRefused o b t
    else (s.wr ⟨a, 2 * k, 2⟩ x).bankAsk b t) s
  .next (if s.reg a = old then s else s.configWrite o a (s.reg a) old)

/-- A use of the scratchpad addresses from lo up to hi by origin o needs their banks ON (R647): the banks that are not are asked for, on
the record; whether all are ON. -/
def State.needBanks (s : State) (o : Origin) (lo hi : Nat) : Bool × State :=
  let off := (List.range 64).filter (fun b => s.bankState b != 0 && s.bankIn b lo hi)
  (off.isEmpty, off.foldl (fun s b =>
    if s.bankWant b = 0 then s
    else
      let a := MEM_BANK (b / 16)
      let old := s.reg a
      let s := s.wr ⟨a, 2 * (b % 16), 2⟩ 0
      (s.bankAsk b 0).configWrite o a (s.reg a) old) s)

/-- ILV_WRITE (R642): a write of MEM_CFG; a new interleave is refused unless every bank is ON and none is busy, and leaves every
word undefined (log entry 4). -/
def execIlvWrite (o : Origin) (v : Word) (s : State) : Res :=
  if v.toNat % 4 = s.rd MEM_CFG.ILV then .next (s.regStore o MEM_CFG v)
  else if (List.range 64).all (fun b => s.bankState b == 0 && s.busyWhy b == 0) then
    let s := s.regStore o MEM_CFG v
    .next { s with mem := { s.mem with scratch := [], undef := List.range 64, damaged := [] } }
  else .next ((s.regStore o MEM_CFG (fldPut MEM_CFG.ILV v (s.rd MEM_CFG.ILV))).on MEM_EVT.ILV_REFUSED)

/-! ## Errors and the window (R649 to R652, R662) -/

/-- The injected errors of the queues' words in memory m, as the scrubber of that memory finds them: queue and position. -/
def State.hurtIn (s : State) (m : Nat) : List (Nat × Nat × Bool) :=
  (s.queues.map (fun e => (e.2.hurt.filter (fun x => x.2.1 == m)).map (fun x => (e.1, x.1, x.2.2)))).flatten

/-- The scrubber of memory m reads every queue word in it: one inverted bit is corrected, two are an uncorrectable error that stays. The
place of a word in its memory is free. -/
def State.scrubQueues (s : State) (m : Nat) : State :=
  (s.hurtIn m).foldl (fun s x =>
    let a := (s.freeVal 32).toNat
    let s := s.usedFree
    if x.2.2 then (if m < 2 then s.memFatal m 0 a 15 else s.dramFatal (m - 2) a 15)
    else
      let q := s.queue x.1
      let s := s.setQueue x.1 { q with hurt := q.hurt.filter (fun y => y.1 != x.2.1) }
      s.memCorrected (if m < 2 then none else some (m - 2)) (if m < 2 then m else m + 2) a) s

/-- MEM_SCRUB_PASS (R651): the scrubber has read the banks that are ON, the edge memory and the log memory; errs are the soft errors it has
met: memory, byte address, and whether uncorrectable. -/
def execMemScrubPass (errs : List (BitVec 2 × BitVec 25 × Bool)) (s : State) : Res :=
  if s.runs .core = false then .next s
  else
    let seen := s.mem.damaged.filter (fun d => s.bankState (s.bankOf d.1) == 0)
    let s := seen.foldl (fun s d =>
      if d.2 then s.memFatal 0 (s.bankOf d.1) d.1 15
      else ({ s with mem := { s.mem with damaged := s.mem.damaged.filter (· != d) } } : State).memCorrected none 0 d.1) s
    let s := (s.scrubQueues 0).scrubQueues 1
    .next (errs.foldl (fun s e =>
      let m := min 2 e.1.toNat
      if e.2.2 then s.memFatal m (if m = 0 then s.bankOf e.2.1.toNat else 0) e.2.1.toNat 15
      else s.memCorrected none m e.2.1.toNat) s)

/-- MEM_INJ (R652): a write of MEM_INJ arms one injection. It is not recorded. -/
def execMemInj (o : Origin) (v : Word) (s : State) : Res := .next (s.regStore o MEM_INJ v)

/-- Whether the rules give scratchpad word a its contents: it lies in an occupied slot's image, or in a bank that no interleave change
has left undefined, outside the ranges of pool blocks and engines. -/
def State.scratchKnown (s : State) (a : Nat) : Bool :=
  let inside (lo n : Nat) : Bool := decide (lo ≤ a) && decide (a < lo + n)
  (List.range 16).any (fun k => inside (slotBase k) (s.slot k).len)
    || (!s.mem.undef.contains (s.bankOf a) && !inside (s.region 3).base (s.region 3).size
        && !inside (s.region 4).base (s.region 4).size)

/-- MEM_WIN_ADDR (R662): one scratchpad word is read into the window. Words that no rule gives are free. -/
def execMemWinAddr (v : Word) (s : State) : Res :=
  if s.runs .core = false then .next s
  else
    let a := v.toNat / 4 % 0x800000 * 4
    let base := s.setReg MEM_WIN_ADDR (BitVec.ofNat 32 a)
    if s.bankState (s.bankOf a) ≠ 0 then .next ((base.on MEM_WIN_ADDR.NOT_ON).setReg MEM_WIN_DATA 0)
    else if s.scratchKnown a = false then .next ((base.setReg MEM_WIN_DATA (s.freeVal 32)).usedFree)
    else
      let w := memWord s.mem.scratch a
      match s.mem.damaged.find? (fun d => d.1 == a) with
      | none => .next (base.setReg MEM_WIN_DATA w)
      | some (_, true) =>
        .next ((((base.on MEM_WIN_ADDR.UE).setReg MEM_WIN_DATA (w ^^^ 3))).memFatal 0 (s.bankOf a) a 14)
      | some d =>
        let s := { base with mem := { base.mem with damaged := base.mem.damaged.filter (· != d) } }
        .next (((s.on MEM_WIN_ADDR.CE).setReg MEM_WIN_DATA w).memCorrected none 0 a)

/-! ## DDR5 (R653 to R657) -/

/-- The capacity of channel c in bytes (R653, R654). -/
def State.ddrBytes (s : State) (c : Nat) : Nat :=
  let x4 := s.bit (DDR_CFG.WIDTH c)
  let d := match s.rd (DDR_CFG.DENSITY c) with | 0 => 16 | 1 => 24 | 2 => 32 | _ => if x4 then 32 else 64
  (s.rd (DDR_CFG.RANKS c) + 1) * (if x4 then 16 else 8) * d * 0x8000000

/-- DDR_SIZE of channel c shows n bytes. -/
def State.setDdrSize (s : State) (c n : Nat) : State := s.setPair (DDR_SIZE_LO c) (DDR_SIZE_HI c) n

/-- Channel c's INIT takes effect (R655): from READY or self-refresh it retrains and keeps its contents. -/
def State.ddrTake (s : State) (c : Nat) : State :=
  let st := s.rd (DDR_STAT.STATE c)
  let s := (s.wr (DDR_STAT.FAIL_STEP c) 0).setDdrSize c 0
  s.wr (DDR_STAT.STATE c) (if st = ddrReady ∨ st = ddrSelfRefresh then ddrTraining else ddrInitState)

/-- The initialisations that waited for the DPLL begin (R655). -/
def State.ddrUnwait (s : State) : State :=
  let cs := s.mem.initWait
  cs.foldl (fun s c => s.ddrTake c) { s with mem := { s.mem with initWait := [] } }

/-- DDR_INIT (R655): a write of DDR_CTRL.INIT, on the record; nothing where EN = 0. It waits for the DPLL. -/
def execDdrInit (o : Origin) (c : Fin 2) (s : State) : Res :=
  let k := c.val
  let s := s.regStore o (DDR_CTRL k) 1
  if s.bit (DDR_CFG.EN k) = false then .next s
  else if s.runs .ddr ∧ s.clk.dpllStop = false then .next (s.ddrTake k)
  else .next { s with mem := { s.mem with initWait := s.mem.initWait.filter (· != k) ++ [k] } }

/-- DDR_INIT_DONE (R655): training has ended, with the step that failed or 0; a channel that is to be zeroed has been. -/
def execDdrInitDone (c : Fin 2) (failed : Fin 7) (s : State) : Res :=
  let k := c.val
  let st := s.rd (DDR_STAT.STATE k)
  if (st ≠ ddrInitState ∧ st ≠ ddrTraining) ∨ s.runs .ddr = false then .next s
  else if failed.val ≠ 0 then
    .next ((((s.wr (DDR_STAT.STATE k) ddrFailed).wr (DDR_STAT.FAIL_STEP k) failed.val).inc (DDR_CNT_TRAINFAIL k)).on
      MEM_EVT.DDR_FAIL).applyRegions
  else
    let s := if st = ddrInitState ∧ s.bit (DDR_CFG.ZERO k) then s.on (DDR_STAT.ZEROED k) else s
    .next ((s.wr (DDR_STAT.STATE k) ddrReady).setDdrSize k (s.ddrBytes k)).applyRegions

/-- DDR_REFRESH (R656): an all-bank refresh, after which MR4 has told whether a device is hot. -/
def execDdrRefresh (c : Fin 2) (hot : Bool) (s : State) : Res :=
  if s.rd (DDR_STAT.STATE c.val) = ddrReady ∧ s.runs .ddr then .next (s.put (DDR_STAT.HOT c.val) hot) else .next s

/-- DDR_PATROL_SCRUB (R657): the patrol scrubber has read the channel; errs are the soft errors it has met. -/
def execDdrPatrolScrub (c : Fin 2) (errs : List (BitVec 37 × Bool)) (s : State) : Res :=
  let k := c.val
  if s.bit (DDR_SCRUB.EN k) ∧ s.rd (DDR_STAT.STATE k) = ddrReady ∧ s.bit (DDR_STAT.ZEROED k) ∧ s.runs .ddr then
    .next (errs.foldl (fun s e =>
      if e.2 then s.dramFatal k e.1.toNat 2 else s.memCorrected (some k) (4 + k) e.1.toNat) (s.scrubQueues (2 + k)))
  else .next s

end Sys2Proof.Machine
end

