-- ==== Sys2Proof/Machine/EngOps.lean ====
section
/-!
DEFINITION. What the engines' commands share (R359 to R394): images and their headers, groups and the reason an engine stays HALTED,
shared ranges, starting and stopping an engine, and which group serves a network port (R404).
-/
namespace Sys2Proof.Machine

/-- Engine e. -/
def State.eng (s : State) (e : Nat) : Engine := tabGet Engine.reset s.engines e

/-- The state with x as engine e. -/
def State.setEng (s : State) (e : Nat) (x : Engine) : State := { s with engines := tabPut Engine.reset s.engines e x }

/-- Network port p. -/
def State.net (s : State) (p : Nat) : NetPort := tabGet NetPort.reset s.nets p

/-- The state with x as network port p. -/
def State.setNet (s : State) (p : Nat) (x : NetPort) : State := { s with nets := tabPut NetPort.reset s.nets p x }

/-- The codes of CE_STAT.STATE (R371). -/
def ceUnbound : Nat := 0
def ceHalted : Nat := 1
def ceStarting : Nat := 2
def ceRunning : Nat := 3
def ceAborting : Nat := 4
def ceFaulted : Nat := 5
def ceGated : Nat := 6

/-- The state of engine e. -/
def State.ceState (s : State) (e : Nat) : Nat := s.rd (CE_STAT.STATE e)

/-! ## Images (R359 to R361, R366) -/

/-- The n-byte header field at offset off of the image in slot k. -/
def State.hdr (s : State) (k off n : Nat) : Nat := leNat (memBytes s.mem.scratch (slotBase k + off) n) 0 n

/-- Header fields of the image in slot k (R360). -/
def State.hdrEngMin (s : State) (k : Nat) : Nat := s.hdr k 0x34 1
def State.hdrEngMax (s : State) (k : Nat) : Nat := s.hdr k 0x35 1
def State.hdrKind (s : State) (k : Nat) : Nat := s.hdr k 0x36 1
def State.hdrTimers (s : State) (k : Nat) : Nat := s.hdr k 0x37 1
def State.hdrQports (s : State) (k : Nat) : Nat := s.hdr k 0x38 1
def State.hdrFlags (s : State) (k : Nat) : Nat := s.hdr k 0x3A 2
def State.hdrShared (s : State) (k : Nat) : Nat := s.hdr k 0x3C 4
def State.hdrWdog (s : State) (k : Nat) : Nat := s.hdr k 0x40 4

/-- Whether bit b of FLAGS of the image that engine e runs is set. -/
def State.imageFlag (s : State) (e b : Nat) : Bool := (s.hdrFlags (s.eng e).slot).testBit b

/-- CRC-32C over bytes (R360). -/
def crcBytes (bs : List Byte) : Nat := crc32c (bs.map (·.toNat))

/-- Whether a field of header bs lies outside the limits of R360. -/
def badHeader (bs : List Byte) : Bool :=
  let t := leNat bs 0x14 4
  let d := leNat bs 0x18 4
  let entry (x : Nat) : Bool := decide (x < t) && decide (x % 4 = 0)
  !(decide (leNat bs 4 2 = 1) && decide (leNat bs 6 2 = 128)
    && decide (8 ≤ t) && decide (t ≤ 65536) && decide (t % 8 = 0) && decide (d ≤ 65536) && decide (d % 8 = 0)
    && entry (leNat bs 0x1C 4) && entry (leNat bs 0x20 4)
    && decide (1 ≤ leNat bs 0x34 1) && decide (leNat bs 0x34 1 ≤ leNat bs 0x35 1) && decide (leNat bs 0x35 1 ≤ 4)
    && decide (leNat bs 0x36 1 < 4) && decide (leNat bs 0x37 1 ≤ 8) && decide (leNat bs 0x38 1 ≤ 16)
    && decide (leNat bs 0x39 1 ≤ 1) && decide (leNat bs 0x3A 2 < 16)
    && decide (leNat bs 0x3C 4 % 4096 = 0) && decide (leNat bs 0x3C 4 ≤ 1048576)
    && decide (leNat bs 0x44 4 = 0) && decide (leNat bs 0x6C 16 = 0))

/-- The fused hash that KEY_SEL names, from the shadow: byte 0 in bits [7:0] (R361, R527). -/
def State.keyHash (s : State) (sel : Nat) : BitVec 256 :=
  BitVec.ofNat 256 ((List.range 8).reverse.foldl
    (fun a i => a * 0x100000000 + (tabGet (fun _ => (0 : Word)) s.shadow ((if sel = 0 then 4 else 12) + i)).toNat) 0)

/-- The result of the checks of R366 on the image bs of which len bytes were announced, in the table's order; 0 where all pass. -/
def State.imageResult (s : State) (bs : List Byte) (len : Nat) : Nat :=
  let t := leNat bs 0x14 4
  let d := leNat bs 0x18 4
  let total := leNat bs 8 4
  let msg := bs.take (128 + t + d)
  let key := (bs.drop (128 + t + d)).take 32
  let hash := s.keyHash (leNat bs 0x39 1)
  let offer (i : Nat) : Nat := (s.reg (FEAT_OFFER i)).toNat
  if leNat bs 0 4 ≠ 0x49505757 then 1
  else if badHeader bs then 2
  else if total ≠ len ∨ total ≠ 128 + t + d + 96 then 3
  else if crcBytes (bs.take 0x7C) ≠ leNat bs 0x7C 4 then 4
  else if crcBytes ((bs.drop 128).take (t + d)) ≠ leNat bs 0x48 4 then 5
  else if (List.range 4).any (fun i => Nat.land (leNat bs (0x24 + 4 * i) 4) (0xFFFFFFFF - offer i) != 0) then 6
  else if hash = 0 then 7
  else if Config.sha256 key ≠ hash then 8
  else if Config.ed25519 key msg ((bs.drop (160 + t + d)).take 64) = false then 9
  else 0

/-! ## Groups (R368 to R370) -/

/-- Whether engine e is bound, and the slot that it is bound to. -/
def State.bound (s : State) (e : Nat) : Bool := s.bit (CE_BIND.BIND_EN e)
def State.slotOf (s : State) (e : Nat) : Nat := s.rd (CE_BIND.SLOT e)

/-- The engines bound to slot k. -/
def State.boundTo (s : State) (k : Nat) : List Nat := (List.range 48).filter (fun e => s.bound e && s.slotOf e == k)

/-- The group of cluster c at slot k, in ascending engine number (R369). -/
def State.members (s : State) (c k : Nat) : List Nat :=
  ((List.range 4).map (fun i => 4 * c + i)).filter (fun e => s.bound e && s.slotOf e == k)

/-- The group of engine e. -/
def State.groupOf (s : State) (e : Nat) : List Nat := if s.bound e then s.members (e / 4) (s.slotOf e) else []

/-- GROUP_IDX of engine e. -/
def State.groupIdx (s : State) (e : Nat) : Nat := (s.groupOf e).idxOf e

/-- The shared range of the group of cluster c at slot k. -/
def State.share? (s : State) (c k : Nat) : Option Share := s.mem.shares.find? (fun x => x.cluster == c && x.slot == k)

/-- The lowest address in the engines' region where n bytes are free of shared ranges (R369, log entry 13). -/
def State.fitShare (s : State) (n : Nat) : Option Nat :=
  let r := s.region 4
  let free (a : Nat) : Bool := decide (r.base ≤ a) && decide (a + n ≤ r.base + r.size)
    && s.mem.shares.all (fun x => decide (x.base + x.len ≤ a) || decide (a + n ≤ x.base))
  ((r.base :: s.mem.shares.map (fun x => x.base + x.len)).filter free).min?

/-- Why engine e stays HALTED (R370), 0 for no reason. -/
def State.why (s : State) (e : Nat) : Nat :=
  if s.bound e = false then 0
  else
    let k := s.slotOf e
    let n := (s.groupOf e).length
    let shared := s.hdrShared k
    if (s.slot k).lost then 5
    else if (s.slot k).len = 0 then 1
    else if n < s.hdrEngMin k then 2
    else if s.hdrEngMax k ≤ s.groupIdx e then 3
    else if shared ≠ 0 ∧ (s.share? (e / 4) k).isNone ∧ (s.fitShare shared).isNone then 4
    else 0

/-- Restarts of engine e in the last second (R390). -/
def State.restartsNow (s : State) (e : Nat) : List Nat := (s.eng e).restarts.filter (fun t => decide (s.time.tick < t + second))

/-- CE_STAT of engine e as read (R396). -/
def State.ceStat (s : State) (e : Nat) : Word :=
  let st := s.ceState e
  let why := if st = ceFaulted then (if (s.eng e).limit then 6 else 0) else if st = ceHalted then s.why e else 0
  let g := s.groupOf e
  let v := fldPut (CE_STAT.WHY e) (s.reg (CE_STAT e)) why
  let v := fldPut (CE_STAT.GROUP_IDX e) v (if g.isEmpty then 0 else s.groupIdx e)
  let v := fldPut (CE_STAT.GROUP_SIZE e) v g.length
  fldPut (CE_STAT.RESTARTS e) v (min 15 (s.restartsNow e).length)

/-- Shared ranges of groups that have no engine left are free. -/
def State.dropShares (s : State) : State :=
  { s with mem := { s.mem with shares := s.mem.shares.filter (fun x => !(s.members x.cluster x.slot).isEmpty) } }

/-! ## Network ports and their groups (R404) -/

/-- The group that serves the port of cluster c: that of its lowest-numbered attached engine. -/
def State.serving (s : State) (c : Nat) : List Nat :=
  match ((List.range 4).map (fun i => 4 * c + i)).find? (fun e => s.bound e && s.bit (CE_BIND.NP_EN e)) with
  | some e => (s.groupOf e).filter (fun e => s.bit (CE_BIND.NP_EN e))
  | none => []

/-- Whether the image of engine e uses its port: KIND[0]. -/
def State.usesPort (s : State) (e : Nat) : Bool := s.hdrKind (s.slotOf e) % 2 == 1

/-- Whether the port of cluster c is served. -/
def State.isServed (s : State) (c : Nat) : Bool := (s.serving c).any (fun e => s.ceState e == ceRunning && s.usesPort e)

/-- The path mode in force on port p: 3 is OFF, and a COMMIT path acts as ALL while no engine of the group is RUNNING (R414). -/
def State.ctIsAuto (s : State) (p : Nat) : Bool :=
  s.rd (NP_CT.MODE p) == 1 && !(s.serving p).any (fun e => s.ceState e == ceRunning)

/-- CT_AUTO of port p brought up to date; its onset sets CT_FALLBACK (R414). -/
def State.ctRefresh (s : State) (p : Nat) : State :=
  let a := s.ctIsAuto p
  let x := s.net p
  let s := if a && !x.ctAuto then s.on (NP_EVT.CT_FALLBACK p) else s
  s.setNet p { x with ctAuto := a }

/-- Engine e is in the state with code st (R371). -/
def State.setCe (s : State) (e st : Nat) : State := (s.wr (CE_STAT.STATE e) st).ctRefresh (e / 4)

/-! ## Starting and stopping (R371, R378, R387) -/

/-- Whether engine e executes its image now: RUNNING, or aborting and not yet stopped; CORE is not stopped. -/
def State.canAct (s : State) (e : Nat) : Bool :=
  let p := (s.eng e).phase
  s.partRuns .engines && (s.ceState e == ceRunning || (s.ceState e == ceAborting && (p == .doorbell || p == .handler)))

/-- The result of a contract operation of engine e (R373); BAD_ARG is counted. -/
def State.opDone (s : State) (e : Nat) (st : OpStatus) (vs : List Word := []) : State :=
  (if st = .badArg then s.inc (CE_CNT_BADOP e) else s).emit (.op e st vs)

/-- The mailboxes of engine e are cleared (R372, R391). -/
def State.clearMail (s : State) (e : Nat) : State :=
  let s := (List.range 16).foldl (fun s i => (s.setReg (CE_MBI e i) 0).setReg (CE_MBO e i) 0) s
  let s := ((s.off (CE_STAT.IN_FULL e)).off (CE_STAT.OUT_FULL e)).setReg (CE_MBO_STAT e) 0
  s.setEng e { s.eng e with inCount := 0 }

/-- The granules that engine e holds are free: how many descriptors it held, and the state. -/
def State.freeGranules (s : State) (e : Nat) : Nat × State :=
  let x := s.net (e / 4)
  let mine := x.rx.filter (fun f => f.engine == e)
  (mine.length, s.setNet (e / 4) { x with rx := x.rx.filter (fun f => f.engine != e) })

/-- The engine's time-base declaration lapses (R385). -/
def State.lapse (s : State) (e : Nat) : State :=
  if s.bit (CE_STAT.TB_VALID e) then
    let s := s.off (CE_STAT.TB_VALID e)
    if s.rd TB_SRCCFG.ENG = e ∧ s.srcValid 2 then (s.setValid 2 false).reselect else s
  else s

/-- Stop words close each packet that engine e has left open (R378). -/
def State.stopWords (s : State) (e : Nat) : State :=
  let x := s.eng e
  x.packets.foldl (fun s p =>
    match s.push p.2 [{ data := 0, fin := true, err := true }] (.engine (Fin.ofNat 48 e)) with
    | (.refused, s) => s.inc (CE_CNT_STOPREF e)
    | (_, s) => s) (s.setEng e { x with packets := [] })

/-- The 23 µs row of R387: stop words, granules, the declaration, and the engine's host commands. -/
def State.stopWork (s : State) (e status : Nat) : State :=
  let n := s.host.cmds.length
  let s := (((s.stopWords e).freeGranules e).2.lapse e).endCalls e status
  let k := n - s.host.cmds.length
  { s with host := { s.host with
      aborts := s.host.aborts.map (fun a => if a.engine = some e then { a with stopped := a.stopped + k } else a) } }

/-- Engine e goes to STARTING, if it is bound and nothing keeps it HALTED (R370, R371). -/
def State.startEngine (s : State) (e : Nat) : State :=
  let x := s.eng e
  if s.bound e = false then (s.setCe e ceUnbound).setEng e { x with phase := .none, again := false }
  else if s.why e = 0 ∧ s.clustersOff.contains (e / 4) = false then
    (s.setCe e ceStarting).setEng e { x with slot := s.slotOf e, limit := false, phase := .none, again := false }
  else (s.setCe e ceHalted).setEng e { x with phase := .none, again := false }

/-- The abort sequence of engine e begins, with what follows it (R387): a GATED engine is stopped without its handler (R460). -/
def State.beginAbort (s : State) (e : Nat) (a : After) : State :=
  let x := s.eng e
  let st := s.ceState e
  if st = ceRunning then
    (s.setCe e ceAborting).setEng e { x with phase := .doorbell, after := a, timers := [], wdog := none }
  else if st = ceGated then
    (s.setCe e ceAborting).setEng e { x with phase := .graceOver, after := a, timers := [], wdog := none }
  else if st = ceAborting then s.setEng e { x with after := a }
  else s

/-- What stops engine e as soon as it runs: its cluster is to be powered down (R393), or a new image waits for its slot (R367). -/
def State.stopDue (s : State) (e : Nat) : Option After :=
  if s.bit (CL_CTRL.PWR_OFF (e / 4)) then some .power
  else if s.loader.installing && s.slotOf e == s.rd LD_STAT.SLOT then some .replace
  else none

/-- Aborts that wait for engine e no longer do. -/
def State.engineEnded (s : State) (e : Nat) : State :=
  let left := s.host.aborts.map (fun a : AbortSlot => if a.engine = some e then { a with engine := none } else a)
  ({ s with host := { s.host with aborts := left } } : State).settleAborts

/-- A cluster whose PWR_OFF is set is off once none of its engines runs or aborts (R393). -/
def State.clusterDrained (s : State) (c : Nat) : State :=
  let busy := (List.range 4).any (fun i =>
    let st := s.ceState (4 * c + i)
    st == ceRunning || st == ceStarting || st == ceAborting)
  if s.bit (CL_CTRL.PWR_OFF c) && !busy && !s.clustersOff.contains c then { s with clustersOff := s.clustersOff ++ [c] } else s

/-- The end of the abort sequence of engine e (R387): one that waits for a new image or for an ENGINES section stays HALTED; one whose new image has been given up, or whose cluster is not to be powered
down any more, starts again. -/
def State.endAbortSequence (s : State) (e : Nat) : State :=
  let x := s.eng e
  let held := s.loader.installing || (match s.cfg.commit with | some c => c.stops.contains e | none => false)
  let s := s.setEng e { x with phase := .none, again := decide (x.after = .replace) && held }
  let s := match x.after with
    | .halt => s.setCe e ceHalted
    | .replace => if held then s.setCe e ceHalted else s.startEngine e
    | .rebind => s.startEngine e
    | .unbind => s.setCe e ceUnbound
    | .power =>
      if s.bit (CL_CTRL.PWR_OFF (e / 4)) then s.setCe e ceGated
      else if x.started then s.startEngine e else s.setCe e ceHalted
  ((s.on (CE_EVT.HALTED e)).clusterDrained (e / 4)).engineEnded e

/-- A fault of engine e (R389, R390): straight to the 23 µs row, then FAULTED; with ON_FAULT = RESTART it starts again within its limit.
A fault during the abort handler is DOUBLE and ends it without a restart; an engine that was being unbound is UNBOUND then. -/
def State.faultEngine (s : State) (e cause addr : Nat) : State :=
  let st := s.ceState e
  let p := (s.eng e).phase
  if st ≠ ceRunning ∧ (st ≠ ceAborting ∨ p = .graceOver ∨ p = .stopped) then s
  else
    let double := decide (st = ceAborting)
    let cause := if double then 7 else cause
    let s := s.stopWork e stEngineFault
    let s := (s.setCe e ceFaulted).setEng e { s.eng e with phase := .none, timers := [], wdog := none }
    let s := (s.wr (CE_FAULT.CAUSE e) cause).wr (CE_FAULT_ADDR.ADDR e) addr
    let s := ((s.inc (CE_CNT_FAULT e)).on (CE_EVT.FAULT e)).event Ev.ENGINE_FAULT [e, cause, addr]
    let s := if double && !s.bound e then s.setCe e ceUnbound else s
    let s := if double then (s.clusterDrained (e / 4)).engineEnded e else s.clusterDrained (e / 4)
    if double ∨ s.bit (CE_CTRL.ON_FAULT e) = false then s
    else
      let recent := s.restartsNow e
      if max 1 (s.rd (CE_CTRL.RESTART_LIM e)) ≤ recent.length then s.setEng e { s.eng e with limit := true }
      else (s.setEng e { s.eng e with restarts := s.time.tick :: recent }).startEngine e

end Sys2Proof.Machine
end

