-- ==== Sys2Proof/Machine/Engines.lean ====
section
/-!
DEFINITION. The image loader (R362 to R367), engine control (R368 to R372, R387 to R394) and the service contract (R373 to R386).
-/
namespace Sys2Proof.Machine

/-! ## The loader (R362 to R367) -/

/-- LD_STAT.STATE (R399). -/
def ldIdle : Nat := 0
def ldReceiving : Nat := 1
def ldVerifying : Nat := 2
def ldDone : Nat := 3
def ldFailed : Nat := 4

/-- The OWNER code of an origin (R399). -/
def ownerCode : Origin → Nat
  | .host => 1
  | .calm => 2
  | .chain _ => 3
  | .boot => 4
  | _ => 0

/-- Whether a load runs. -/
def State.loading (s : State) : Bool := s.rd LD_STAT.STATE == ldReceiving || s.rd LD_STAT.STATE == ldVerifying

/-- The load ends with a result (R364): its state, and the IMAGE_LOAD event with slot, PROTO_ID, IMG_VER, KEY_SEL, result and origin. -/
def State.endLoad (s : State) (result : Nat) : State :=
  let l := s.loader
  let bs := l.staged
  let s := (s.wr LD_STAT.STATE (if result = 0 then ldDone else ldFailed)).wr LD_STAT.RESULT result
  let s := { s with loader := { l with staged := [], installing := false } }
  s.event Ev.IMAGE_LOAD [s.rd LD_STAT.SLOT, leNat bs 0xC 4, leNat bs 0x10 4, leNat bs 0x39 1, result] l.org

/-- BEGIN (R363 to R365): the length check first, then SLOT_BUSY; while a load runs it is refused with BUSY. DMA is the host's. -/
def execLdBegin (o : Origin) (v : Word) (s : State) : Res :=
  if s.loading then .next (s.wr LD_STAT.RESULT 13)
  else
    let slot := fldOf LD_CTRL.SLOT v
    let len := s.rd LD_LEN.LEN
    let replace := fldOf LD_CTRL.REPLACE v != 0
    let s := ((s.wr LD_STAT.SLOT slot).wr LD_STAT.OWNER (ownerCode o)).setReg LD_PROGRESS 0
    let s := { s with loader := {
        owner := o, org := o, len := len, dma := fldOf LD_CTRL.DMA v != 0 && o == Origin.host, replace := replace, staged := [], installing := false } }
    if len < 232 ∨ 131296 < len ∨ len % 8 ≠ 0 then .next (s.endLoad 3)
    else if (s.boundTo slot).isEmpty = false ∧ replace = false then .next (s.endLoad 10)
    else .next ((s.wr LD_STAT.STATE ldReceiving).wr LD_STAT.RESULT 0)

/-- Bytes bs are staged; the load is to be verified once all have arrived. -/
def State.stageBytes (s : State) (bs : List Byte) : State :=
  let l := s.loader
  let all := l.staged ++ bs
  let s := { s with loader := { l with staged := all } }.setReg LD_PROGRESS (BitVec.ofNat 32 all.length)
  if l.len ≤ all.length then s.wr LD_STAT.STATE ldVerifying else s

/-- LD_DATA (R363 to R365): four bytes of the owner's stream; more than LD_LEN fails the load, and any other write is counted. -/
def execLdData (o : Origin) (v : Word) (s : State) : Res :=
  if s.loading = false ∨ s.loader.owner ≠ o ∨ s.loader.dma then .next (s.inc LD_CNT_FOREIGN)
  else if s.rd LD_STAT.STATE = ldReceiving ∧ s.loader.staged.length + 4 ≤ s.loader.len then .next (s.stageBytes (bytesOf [v]))
  else .next (s.endLoad 12)

/-- LD_DMA_DONE (R363): the LD_LEN bytes have been read from host memory. -/
def execLdDmaDone (bytes : List Byte) (s : State) : Res :=
  if s.rd LD_STAT.STATE = ldReceiving ∧ s.loader.dma ∧ bytes.length = s.loader.len then .next (s.stageBytes bytes) else .next s

/-- The engines that were stopped for a new image of slot k start again. -/
def State.startAgain (s : State) (k : Nat) : State :=
  (s.boundTo k).foldl (fun s e => if (s.eng e).again then s.startEngine e else s) s

/-- CANCEL (R364): a load that receives or verifies ends CANCELLED. -/
def execCancel (_ : Origin) (s : State) : Res :=
  if s.loading then
    let k := s.rd LD_STAT.SLOT
    .next ((s.endLoad 11).startAgain k)
  else .next s

/-- The staged image is installed in its slot (R367), once the slot's engines have stopped and its banks are ON (R647). Groups whose image
now claims another SHARED_LEN have it allocated anew (R369). -/
def State.tryInstall (s : State) : State :=
  let k := s.rd LD_STAT.SLOT
  let busy := (s.boundTo k).any (fun e =>
    let st := s.ceState e
    st == ceRunning || st == ceAborting || st == ceGated || st == ceStarting)
  if busy then s
  else
    match s.needBanks s.loader.org (slotBase k) (slotBase k + s.loader.staged.length) with
    | (false, s) => s
    | (true, s) =>
      let bs := s.loader.staged
      let old := s.hdrShared k
      let s := (s.scratchWrite (slotBase k) bs).setSlot k { len := bs.length, lost := false }
      let s := if s.hdrShared k = old then s
        else { s with mem := { s.mem with shares := s.mem.shares.filter (fun x => x.slot != k) } }
      (s.endLoad 0).startAgain k

/-- IMAGE_LOAD (R366): a supervisor has checked the image. A bound slot needs REPLACE, and its engines stop first. -/
def execImageLoad (s : State) : Res :=
  if s.rd LD_STAT.STATE ≠ ldVerifying ∨ s.loader.installing ∨ s.runs .core = false then .next s
  else
    let k := s.rd LD_STAT.SLOT
    let r := s.imageResult s.loader.staged s.loader.len
    if r ≠ 0 then .next (s.endLoad r)
    else if (s.boundTo k).isEmpty = false ∧ s.loader.replace = false then .next (s.endLoad 10)
    else
      let s := { s with loader := { s.loader with installing := true } }
      .next (((s.boundTo k).foldl (fun s e => s.beginAbort e .replace) s).tryInstall)

/-- IMAGE_INSTALL (R367): the slot's engines have stopped, and the image is installed; those that ran start again together. -/
def execImageInstall (s : State) : Res :=
  if s.rd LD_STAT.STATE = ldVerifying ∧ s.loader.installing ∧ s.runs .core then .next s.tryInstall else .next s

/-- CLEAR_SLOT (R367): an unbound slot is emptied, with its event; for a bound one RESULT is SLOT_BUSY. -/
def execClearSlot (o : Origin) (slot : Fin 16) (s : State) : Res :=
  if (s.boundTo slot.val).isEmpty then .next ((s.setSlot slot.val {}).event Ev.IMAGE_CLEAR [slot.val] o)
  else .next (s.wr LD_STAT.RESULT 10)

/-- LD_SLOTSEL (R399): the slot's information is captured. -/
def execLdSlotsel (slot : Fin 16) (s : State) : Res :=
  let k := slot.val
  let x := s.slot k
  let h (off n : Nat) : Nat := if x.len = 0 then 0 else s.hdr k off n
  let s1 := (s.setReg LD_SLOTSEL (BitVec.ofNat 32 k)).setReg LD_SI_PROTO (BitVec.ofNat 32 (h 0xC 4))
  let s2 := (s1.setReg LD_SI_VER (BitVec.ofNat 32 (h 0x10 4))).setReg LD_SI_LEN (BitVec.ofNat 32 (h 8 4))
  .next (s2.setReg LD_SI_INFO (BitVec.ofNat 32
    ((decide (x.len ≠ 0)).toNat + 2 * x.lost.toNat + 4 * (h 0x39 1 % 2) + 0x10000 * (s.boundTo k).length)))

/-! ## Control (R368 to R372, R387 to R393) -/

/-- A write of CE_CTRL's stored fields, on the record (R30, R371). -/
def State.ctrlWrite (s : State) (o : Origin) (e : Nat) (v : Word) : State := s.regStore o (CE_CTRL e) v

/-- START (R371): a HALTED or FAULTED engine goes to STARTING if the conditions of R370 hold. -/
def execStart (o : Origin) (e : Fin 48) (v : Word) (s : State) : Res :=
  let n := e.val
  let s := s.ctrlWrite o n v
  if s.bound n = false ∨ s.regExists (CE_CTRL n) = false then .next s
  else
    let s := s.setEng n { s.eng n with started := true }
    if s.ceState n = ceHalted ∨ s.ceState n = ceFaulted then .next (s.startEngine n) else .next s

/-- HALT (R387): a running engine is stopped by the abort sequence. -/
def execHalt (o : Origin) (e : Fin 48) (v : Word) (s : State) : Res :=
  let n := e.val
  let s := s.ctrlWrite o n v
  .next ((s.setEng n { s.eng n with started := false }).beginAbort n .halt)

/-- CE_BIND_WRITE (R370, R371): an engine is bound, unbound or bound anew. -/
def execCeBindWrite (o : Origin) (e : Fin 48) (v : Word) (s : State) : Res :=
  let n := e.val
  let old := s.reg (CE_BIND n)
  let s := s.regStore o (CE_BIND n) v
  if s.reg (CE_BIND n) = old then .next s
  else
    let st := s.ceState n
    let runs := st = ceRunning ∨ st = ceGated ∨ st = ceAborting
    let s := s.dropShares.ctRefresh (n / 4)
    if s.bound n = false then
      let s := s.setEng n { s.eng n with started := false }
      .next (if runs then s.beginAbort n .unbind else s.setCe n ceUnbound)
    else if st = ceUnbound then .next (s.setCe n ceHalted)
    else if runs then .next (s.beginAbort n .rebind)
    else if st = ceStarting then .next (s.startEngine n)
    else .next s

/-- The bytes of the slot whose stored word has a double error, as the STARTING copy meets it (R649). -/
def State.slotDamage (s : State) (k : Nat) : List (Nat × Bool) :=
  s.mem.damaged.filter (fun d => decide (slotBase k ≤ d.1) && decide (d.1 < slotBase k + (s.slot k).len))

/-- SLOT_LOST of slot k (R394). -/
def State.loseSlot (s : State) (k : Nat) : State :=
  (s.setSlot k { s.slot k with lost := true }).event Ev.SLOT_LOST [k]

/-- The group's shared range is allocated, if its image claims one and it has none (R369): whether the group has what it needs. -/
def State.takeShare (s : State) (e : Nat) : Bool × State :=
  let k := (s.eng e).slot
  let n := s.hdrShared k
  if n = 0 ∨ (s.share? (e / 4) k).isSome then (true, s)
  else match s.fitShare n with
    | none => (false, s)
    | some a =>
      match s.needBanks .device a (a + n) with
      | (false, s) => (true, s)
      | (true, s) =>
        (true, { s with mem := { s.mem with shares := s.mem.shares ++ [{ cluster := e / 4, slot := k, base := a, len := n }] } })

/-- ENGINE_STARTED (R372): text and data are copied, the rest of DRAM is zero, timers and mailboxes are clear, granules are released, and
the engine runs at ENTRY, in LULL GATED (R605). It waits for the banks it needs (R647), and stops at once where a stop is due. -/
def execEngineStarted (e : Fin 48) (s : State) : Res :=
  let n := e.val
  let k := (s.eng n).slot
  if s.ceState n ≠ ceStarting ∨ s.partRuns .engines = false then .next s
  else if s.why n ≠ 0 then .next (s.setCe n ceHalted)
  else if (s.slotDamage k).any (·.2) then
    .next (((s.memFatal 0 0 (slotBase k) 13).loseSlot k).setCe n ceHalted)
  else match s.needBanks .device (slotBase k) (slotBase k + (s.slot k).len) with
    | (false, s) => .next s
    | (true, s) =>
      match s.takeShare n with
      | (false, s) => .next (s.setCe n ceHalted)
      | (true, s) =>
        if s.hdrShared k ≠ 0 ∧ (s.share? (n / 4) k).isNone then .next s
        else
          let t := s.hdr k 0x14 4
          let d := s.hdr k 0x18 4
          let at_ := slotBase k + 128
          let s := ((s.clearMail n).freeGranules n).2
          let x := s.eng n
          let s := (s.setCe n (if s.rd PW_STAT.STATE = 1 then ceGated else ceRunning)).setEng n { x with
            iram := listBytes 0 (memBytes s.mem.scratch at_ t), dram := listBytes 0 (memBytes s.mem.scratch (at_ + t) d)
            timers := [], packets := [], phase := .none, wdog := some s.time.tick }
          .next (match s.stopDue n with
            | some a => s.beginAbort n a
            | none => s)

/-- ABORT_ENTRY (R387): the aborting engine starts at ABORT_ENTRY. -/
def execAbortEntry (e : Fin 48) (s : State) : Res :=
  let x := s.eng e.val
  if s.ceState e.val = ceAborting ∧ x.phase = .doorbell then .next (s.setEng e.val { x with phase := .handler }) else .next s

/-- ENGINE_GRACE_END (R387): the engine has not signalled ABORT_DONE and is stopped by force. -/
def execEngineGraceEnd (e : Fin 48) (s : State) : Res :=
  let x := s.eng e.val
  if s.ceState e.val = ceAborting ∧ (x.phase = .doorbell ∨ x.phase = .handler) then
    .next (((s.setEng e.val { x with phase := .graceOver }).inc (CE_CNT_FORCED e.val)).on (CE_EVT.FORCED e.val))
  else .next s

/-- ENGINE_STOP (R387): the 23 µs row. -/
def execEngineStop (e : Fin 48) (s : State) : Res :=
  if s.ceState e.val = ceAborting ∧ (s.eng e.val).phase = .graceOver then
    let s := s.stopWork e.val stAborted
    .next (s.setEng e.val { s.eng e.val with phase := .stopped })
  else .next s

/-- ENGINE_HALTED (R387): the 25 µs row. -/
def execEngineHalted (e : Fin 48) (s : State) : Res :=
  if s.ceState e.val = ceAborting ∧ (s.eng e.val).phase = .stopped then .next (s.endAbortSequence e.val) else .next s

/-- WATCHDOG (R375, R389): WDOG_US have passed since the count began. -/
def execWatchdog (e : Fin 48) (addr : BitVec 16) (s : State) : Res :=
  let n := e.val
  let w := s.hdrWdog (s.eng n).slot
  match (s.eng n).wdog with
  | some t =>
    if s.ceState n = ceRunning ∧ w ≠ 0 ∧ s.partRuns .engines then .next ((s.runTo (t + w * 1000)).faultEngine n 1 addr.toNat) else .next s
  | none => .next s

/-- ENGINE_FAULT (R389): a fault with one of the causes 1 to 7. -/
def execEngineFault (e : Fin 48) (cause : BitVec 3) (addr : BitVec 16) (s : State) : Res :=
  if cause = 0 ∨ s.partRuns .engines = false then .next s else .next (s.faultEngine e.val cause.toNat addr.toNat)

/-- CLUSTER_PWR_OFF (R393): PWR_OFF drains the cluster and stops its engines; at power-up the engines that START was written to start. -/
def execClusterPwrOff (o : Origin) (k : Fin 12) (v : Word) (s : State) : Res :=
  let c := k.val
  let s := s.regStore o (CL_CTRL c) v
  let es := (List.range 4).map (fun i => 4 * c + i)
  if s.bit (CL_CTRL.PWR_OFF c) then .next ((es.foldl (fun s e => s.beginAbort e .power) s).clusterDrained c)
  else
    let off := s.clustersOff.contains c
    let s := { s with clustersOff := s.clustersOff.filter (· != c)
                      ledger := { s.ledger with bounced := s.ledger.bounced.filter (· != .cluster k) } }
    .next (es.foldl (fun s e =>
      let gated := s.ceState e == ceGated && s.rd PW_STAT.STATE != 1
      if (off || gated) && (s.eng e).started && s.bound e then s.startEngine e
      else if s.ceState e = ceGated ∧ (off || gated) then s.setCe e ceHalted else s) s)

/-! ## The service contract (R373 to R377) -/

/-- KICK (R375). -/
def execKick (e : Fin 48) (s : State) : Res :=
  let x := s.eng e.val
  if s.canAct e.val = false then .next s
  else if s.ceState e.val = ceRunning then .next ((s.setEng e.val { x with wdog := some s.time.tick }).opDone e.val .ok)
  else .next (s.opDone e.val .ok)

/-- ABORT_DONE (R375, R387): the grace time ends, and the 23 µs row follows at once. -/
def execAbortDone (e : Fin 48) (s : State) : Res :=
  let n := e.val
  if s.canAct n = false then .next s
  else if s.ceState n = ceAborting then
    let s := (s.opDone n .ok).stopWork n stAborted
    .next (s.setEng n { s.eng n with phase := .stopped })
  else .next (s.opDone n .badArg)

/-- MBX_POST (R376, R449): 1 to 16 words into the outbound mailbox; a post whose word 0 has bit 31 answers a call. -/
def execMbxPost (e : Fin 48) (ws : List Word) (s : State) : Res :=
  let n := e.val
  if s.canAct n = false then .next s
  else if ws.isEmpty ∨ 16 < ws.length then .next (s.opDone n .badArg)
  else if (ws.headD 0).getLsbD 31 then .next ((s.callAnswer n ((ws.headD 0).toNat % 4096) ws).opDone n .ok)
  else if s.bit (CE_STAT.OUT_FULL n) then .next (s.opDone n .busy)
  else
    let s := (List.range ws.length).foldl (fun s i => s.setReg (CE_MBO n i) (ws.getD i 0)) s
    let s := (s.setReg (CE_MBO_STAT n) (BitVec.ofNat 32 ws.length)).on (CE_STAT.OUT_FULL n)
    .next ((s.on (CE_EVT.MBX_OUT n)).opDone n .ok)

/-- MBX_TAKE (R376): the words of the inbound mailbox, which is released. -/
def execMbxTake (e : Fin 48) (s : State) : Res :=
  let n := e.val
  if s.canAct n = false then .next s
  else if s.bit (CE_STAT.IN_FULL n) then
    let ws := (List.range (s.eng n).inCount).map (fun i => s.reg (CE_MBI n i))
    .next ((s.off (CE_STAT.IN_FULL n)).opDone n .ok ws)
  else .next (s.opDone n .empty)

/-- A mailbox write that is ignored (R376). -/
def State.mbxOverrun (s : State) (e : Nat) : State := (s.inc (CE_CNT_MBXOVR e)).on (CE_EVT.MBX_OVR e)

/-- MBI_DB (R376): the inbound mailbox is posted; a COUNT of 0 acts as 16. -/
def execMbiDb (e : Fin 48) (count : BitVec 4) (s : State) : Res :=
  let n := e.val
  if s.regExists (CE_MBI_DB n) = false then .next s
  else if s.bit (CE_STAT.IN_FULL n) then .next (s.mbxOverrun n)
  else .next ((s.on (CE_STAT.IN_FULL n)).setEng n { s.eng n with inCount := if count = 0 then 16 else count.toNat })

/-- MBO_ACK (R376): OUT_FULL is cleared. -/
def execMboAck (e : Fin 48) (s : State) : Res := .next (s.off (CE_STAT.OUT_FULL e.val))

/-! ## Queue ports (R377) -/

/-- Why queue port p of engine e answers nothing else: not bound or not claimed, or its cluster drains (R260, R373). -/
def State.qpStop (s : State) (e p : Nat) : Option OpStatus :=
  if s.bit (CE_QPORT.BIND_EN e p) = false ∨ s.hdrQports (s.eng e).slot ≤ p then some .unbound
  else if s.bit (CL_CTRL.PWR_OFF (e / 4)) then some .domainOff
  else none

/-- An operation of engine e that its queue port answers with st; a transfer returned by a draining cluster is counted (R260). -/
def State.qpStopped (s : State) (e : Nat) (st : OpStatus) : State :=
  (if st = .domainOff then s.bounce (.cluster (Fin.ofNat 12 (e / 4))) 1 else s).opDone e st

/-- The queue of port p of engine e. -/
def State.qpQueue (s : State) (e p : Nat) : Nat := s.rd (CE_QPORT.QID e p)

/-- QP_PUSH (R377): one group of 1 to 16 words. -/
def execQpPush (e : Fin 48) (p : Fin 16) (ws : List QWord) (s : State) : Res :=
  let n := e.val
  if s.canAct n = false then .next s
  else if ws.isEmpty ∨ 16 < ws.length then .next (s.opDone n .badArg)
  else match s.qpStop n p.val with
    | some st => .next (s.qpStopped n st)
    | none =>
      let q := s.qpQueue n p.val
      match s.push q ws (.engine e) with
      | (.refused, s) => .next (s.opDone n .refused)
      | (.absent, s) => .next (s.opDone n .absent)
      | (.accepted, s) =>
        let x := s.eng n
        let rest := x.packets.filter (fun y => y.1 != p.val)
        let closed := match ws.getLast? with | some w => w.fin | none => true
        .next ((s.setEng n { x with packets := if closed then rest else rest ++ [(p.val, q)] }).opDone n .ok)

/-- Pops of queue q for a queue port, at most n, ending after END where asked: the words with CUT, and how the last one ended. -/
def State.qpPops (s : State) (q : Nat) (untilEnd : Bool) : Nat → List (QWord × Bool) × OpStatus × State
  | 0 => ([], .ok, s)
  | n + 1 =>
    match s.pop q with
    | (.empty, s) => ([], .empty, s)
    | (.wait, s) => ([], .wait, s)
    | (.word w c, s) =>
      if untilEnd && w.fin then ([(w, c)], .ok, s)
      else
        let (ws, st, s) := s.qpPops q untilEnd n
        ((w, c) :: ws, if st = .empty then .ok else st, s)

/-- QP_POP (R377): up to the count, after END when asked; a pop that meets a word that is not resident returns WAIT after the words it has. -/
def execQpPop (e : Fin 48) (p : Fin 16) (n : BitVec 5) (untilEnd : Bool) (s : State) : Res :=
  let k := e.val
  if s.canAct k = false then .next s
  else if n = 0 ∨ 16 < n.toNat then .next (s.opDone k .badArg)
  else match s.qpStop k p.val with
    | some st => .next (s.qpStopped k st)
    | none =>
      let q := s.qpQueue k p.val
      if (s.queue q).ex = false then .next (s.opDone k .absent)
      else
        let (ws, st, s) := s.qpPops q untilEnd n.toNat
        .next (s.emit (.popped k st ws))

/-- QP_PEEK (R377): as a pop of one word without the pop. -/
def execQpPeek (e : Fin 48) (p : Fin 16) (s : State) : Res :=
  let k := e.val
  if s.canAct k = false then .next s
  else match s.qpStop k p.val with
    | some st => .next (s.qpStopped k st)
    | none =>
      let q := s.qpQueue k p.val
      if (s.queue q).ex = false then .next (s.opDone k .absent)
      else match s.look q with
        | .empty => .next (s.emit (.popped k .empty []))
        | .wait => .next ((s.waitRead q).emit (.popped k .wait []))
        | .word _ _ =>
          let s := s.readHurt q (s.queue q).rd
          match s.look q with
          | .word w c => .next (s.emit (.popped k .ok [(w, c)]))
          | _ => .next s

/-- QP_CMD (R377): one operation of R208, the engine as its master. -/
def execQpCmd (e : Fin 48) (p : Fin 16) (op : BitVec 4) (count : Word) (s : State) : Res :=
  let k := e.val
  if s.canAct k = false then .next s
  else match s.qpStop k p.val with
    | some st => .next (s.qpStopped k st)
    | none =>
      let q := s.qpQueue k p.val
      if (s.queue q).ex = false then .next (s.opDone k .absent)
      else .next ((s.queueCmd (.engine e) (.num (BitVec.ofNat 16 q)) op.toNat count.toNat).opDone k .ok)

/-- QP_STAT (R377): the STAT word of R204. -/
def execQpStat (e : Fin 48) (p : Fin 16) (s : State) : Res :=
  let k := e.val
  if s.canAct k = false then .next s
  else match s.qpStop k p.val with
    | some st => .next (s.qpStopped k st)
    | none =>
      let v := (s.queue (s.qpQueue k p.val)).stat
      .next (s.opDone k .ok [v.extractLsb' 0 32, v.extractLsb' 32 32])

/-! ## Frame windows (R379, R380) -/

/-- Whether engine e is in the group that serves its cluster's port (R404). -/
def State.attached (s : State) (e : Nat) : Bool := (s.serving (e / 4)).contains e && s.usesPort e

/-- DESC_TAKE (R379, R380): the oldest descriptor of engine e; an aborting engine takes none. -/
def execDescTake (e : Fin 48) (s : State) : Res :=
  let n := e.val
  if s.canAct n = false then .next s
  else if s.attached n = false then .next (s.opDone n .noPort)
  else
    let x := s.net (n / 4)
    match x.rx.find? (fun f => f.engine == n && !f.taken) with
    | some f =>
      if s.ceState n = ceAborting then .next (s.opDone n .empty)
      else
        let rx := x.rx.map (fun g => if g = f then { g with taken := true } else g)
        .next ((s.setNet (n / 4) { x with rx := rx }).opDone n .ok f.words)
    | none => .next (s.opDone n .empty)

/-- The granules that engine e holds by descriptors it has taken. -/
def State.heldGranules (s : State) (e : Nat) : List Nat :=
  ((s.net (e / 4)).rx.filter (fun f => f.engine == e && (f.taken || f.early))).flatMap (·.grans)

/-- GRANULE_RELEASE (R379, R380): the granules named are free; one that the engine does not hold, or names twice, is the fault SERVICE
with nothing released. The IRAM offset of the fault is free (log entry 4). -/
def execGranuleRelease (e : Fin 48) (gs : List (BitVec 11)) (s : State) : Res :=
  let n := e.val
  if s.canAct n = false then .next s
  else if s.attached n = false then .next (s.opDone n .noPort)
  else
    let ns := gs.map (·.toNat)
    let held := s.heldGranules n
    if ns.all (fun g => held.contains g) && decide (ns.eraseDups.length = ns.length) then
      let x := s.net (n / 4)
      let rx := x.rx.map (fun f =>
        if f.engine = n ∧ (f.taken ∨ f.early) then { f with grans := f.grans.filter (fun g => !ns.contains g) } else f)
      .next ((s.setNet (n / 4) { x with rx := rx.filter (fun f => !f.grans.isEmpty) }).opDone n .ok)
    else .next (s.usedFree.faultEngine n 6 (s.freeVal 16).toNat)

/-! ## Timers (R383, R384) -/

/-- Timer i of engine e. -/
def State.timer (s : State) (e i : Nat) : EngTimer := tabGet EngTimer.reset (s.eng e).timers i

/-- The state with x as timer i of engine e. -/
def State.setTimer (s : State) (e i : Nat) (x : EngTimer) : State :=
  let y := s.eng e
  s.setEng e { y with timers := tabPut EngTimer.reset y.timers i x }

/-- TIMER_ARM (R373, R383): time T in the format of R14, whose NS is below 10^9, and a period of at least 100 ns, 0 for none. -/
def execTimerArm (e : Fin 48) (i : Fin 8) (sec : BitVec 48) (ns : Word) (period : Word64) (s : State) : Res :=
  let n := e.val
  if s.canAct n = false then .next s
  else if s.hdrTimers (s.eng n).slot ≤ i.val then .next (s.opDone n .unbound)
  else if second ≤ ns.toNat then .next (s.opDone n .badArg)
  else
    let t := sec.toNat * second + ns.toNat
    let p := if period = 0 then 0 else max 100 period.toNat
    .next ((s.setTimer n i.val { armed := true, due := t, period := p }).opDone n .ok)

/-- An expiry of timer i of engine e at its grid time, k grid times having passed: delivered as one with an expiry not yet taken, which is
counted in MISSED (R383). -/
def State.expire (s : State) (e i : Nat) (stepped : Bool) (k : Nat) : State :=
  let x := s.timer e i
  let grid := x.due + (k - 1) * x.period
  let missed := if x.ready.isSome then x.missed + 1 else x.missed
  s.setTimer e i { x with
    armed := decide (x.period ≠ 0), due := x.due + k * x.period, ready := some (grid, stepped, k), missed := missed }

/-- The engine takes the expiry of timer i that waits for it. -/
def State.takeExpiry (s : State) (e i : Nat) : State :=
  let x := s.timer e i
  match x.ready with
  | some (g, st, k) => (s.setTimer e i { x with ready := none, missed := 0 }).emit (.timer e i g st k x.missed)
  | none => s

/-- TIMER_EXPIRY (R383): device time reaches the timer's time, or its next grid time; take tells whether the engine takes the expiry now. A
GATED or stopped engine takes it at its exit. -/
def execTimerExpiry (e : Fin 48) (i : Fin 8) (take : Bool) (s : State) : Res :=
  let n := e.val
  let x := s.timer n i.val
  let taking := take && s.canAct n
  if x.armed ∧ s.ceState n ≠ ceAborting then
    let s := (s.advanceTo x.due).expire n i.val false 1
    .next (if taking then s.takeExpiry n i.val else s)
  else .next (if taking then s.takeExpiry n i.val else s)

/-- What a step of device time does to the engines' timers (R384): a forward step that passes a time or grid times gives one expiry. -/
def State.engineStep (s : State) : State :=
  s.engines.foldl (fun s x =>
    x.2.timers.foldl (fun s t =>
      let y := s.timer x.1 t.1
      if y.armed ∧ y.due ≤ s.now then
        s.expire x.1 t.1 true (if y.period = 0 then 1 else (s.now - y.due) / y.period + 1)
      else s) s) s

/-! ## Time-base port and events (R385, R386) -/

/-- Whether engine e is the time base's ENGINE port. -/
def State.tbPort (s : State) (e : Nat) : Bool :=
  s.rd TB_SRCCFG.ENG == e && s.ceState e == ceRunning && s.imageFlag e 3

/-- DECLARE_VALID (R275, R385): the source is VALID if the engine has submitted within its limit. -/
def execDeclareValid (e : Fin 48) (s : State) : Res :=
  let n := e.val
  if s.canAct n = false then .next s
  else if s.tbPort n = false then .next (s.opDone n .notSource)
  else
    let s := (s.on (CE_STAT.TB_VALID n)).opDone n .ok
    .next (if s.time.engFresh then (s.setValid 2 true).reselect else s)

/-- DECLARE_INVALID (R385). -/
def execDeclareInvalid (e : Fin 48) (s : State) : Res :=
  let n := e.val
  if s.canAct n = false then .next s
  else if s.tbPort n = false then .next (s.opDone n .notSource)
  else .next (((s.lapse n).off (CE_STAT.TB_VALID n)).opDone n .ok)

/-- A submission of the engine port (R275 to R277): without a declaration the source is not VALID, and it is ignored. -/
def State.engineSubmit (s : State) (e : Nat) (rate : Option Int) (off : Option OffReq) : State :=
  if s.tbPort e = false then s.opDone e .notSource
  else
    let s := { s with time := { s.time with engFresh := true } }
    (if s.bit (CE_STAT.TB_VALID e) then s.submit 2 (.engine (Fin.ofNat 48 e)) rate off else s.adjIgnored).opDone e .ok

/-- ENGINE_RATE (R385). -/
def execEngineRate (e : Fin 48) (a : Word) (s : State) : Res :=
  if s.canAct e.val = false then .next s else .next (s.engineSubmit e.val (some a.toInt) none)

/-- ENGINE_OFFSET (R385). -/
def execEngineOffset (e : Fin 48) (theta : Word64) (add : Bool) (s : State) : Res :=
  if s.canAct e.val = false then .next s else .next (s.engineSubmit e.val none (some (.off theta.toInt add)))

/-- ENGINE_SET (R385). -/
def execEngineSet (e : Fin 48) (sec : BitVec 48) (ns : Word) (s : State) : Res :=
  if s.canAct e.val = false then .next s
  else .next (s.engineSubmit e.val none (some (.set (sec.toNat * second + min ns.toNat 999999999))))

/-- TIME_QUERY (R385): device time, QUALITY, STEP_SEQ and the selected source. -/
def execTimeQuery (e : Fin 48) (s : State) : Res :=
  if s.canAct e.val = false then .next s
  else .next (s.opDone e.val .ok (timeWords s.now ++
    [BitVec.ofNat 32 s.quality, BitVec.ofNat 32 s.stepSeq, BitVec.ofNat 32 (s.rd TB_STAT.SRC_SEL)]))

/-- ENGINE_EVENT (R386): an event of class ENGINE with the engine's 16 bytes; SUPPRESSED where storm control summarises it. -/
def execEngineEvent (e : Fin 48) (payload : BitVec 128) (s : State) : Res :=
  let n := e.val
  if s.canAct n = false then .next s
  else
    let s' := s.eventAt s.now false Ev.ENGINE_EVENT (.engine e) ((List.range 4).map (fun i => payload.extractLsb' (32 * i) 32))
    let st : OpStatus := if (s.cls 10).supp < (s'.cls 10).supp then .suppressed else .ok
    .next (s'.opDone n st)

end Sys2Proof.Machine
end

