-- ==== Sys2Proof/Machine/Network.lean ====
section
/-!
DEFINITION. The network ports (R401 to R429): link state, receive and its window, transmit, cut-through paths, gate control, and the
MDIO masters.
-/
namespace Sys2Proof.Machine

/-! ## Frames (R406, R407, R409, R413) -/

/-- One bit, and one byte, of the CRC-32 of IEEE 802.3. -/
def crc32Bit (c : Nat) : Nat := if c % 2 = 1 then Nat.xor (c / 2) 0xEDB88320 else c / 2
def crc32Byte (c : Nat) (b : Byte) : Nat := (List.range 8).foldl (fun c _ => crc32Bit c) (Nat.xor c b.toNat)

/-- The FCS of bytes bs, as the four bytes in the order of transmission. -/
def fcsOf (bs : List Byte) : List Byte :=
  bytesOf [BitVec.ofNat 32 (Nat.xor (runBytes crc32Byte bs 0xFFFFFFFF) 0xFFFFFFFF)]

/-- Whether the last four bytes of frame bs are its FCS. -/
def fcsGood (bs : List Byte) : Bool := decide (fcsOf (bs.take (bs.length - 4)) = bs.drop (bs.length - 4))

/-- The 16-bit big-endian number at offset i of bs. -/
def be16 (bs : List Byte) (i : Nat) : Nat := (bs.getD i 0).toNat * 256 + (bs.getD (i + 1) 0).toNat

/-- Whether a VLAN tag stands at offset i, whether the frame carries one, and the offset of its Ethertype after any tags (R407). -/
def tagAt (bs : List Byte) (i : Nat) : Bool := be16 bs i == 0x8100 || be16 bs i == 0x88A8
def hasTag (bs : List Byte) : Bool := tagAt bs 12
def pastTags (bs : List Byte) (i : Nat) : Nat → Nat
  | 0 => i
  | n + 1 => if tagAt bs i then pastTags bs (i + 4) n else i
def etherAt (bs : List Byte) : Nat := pastTags bs 12 (bs.length / 4)

/-- Whether the frame is PTP (R407): Ethertype 0x88F7, or UDP over IPv4 or IPv6 to port 319 or 320. -/
def isPtp (bs : List Byte) : Bool :=
  let t := etherAt bs
  let ip := t + 2
  let port (i : Nat) : Bool := be16 bs i == 319 || be16 bs i == 320
  match be16 bs t with
  | 0x88F7 => true
  | 0x0800 => (bs.getD (ip + 9) 0).toNat == 17 && port (ip + (bs.getD ip 0).toNat % 16 * 4 + 2)
  | 0x86DD => (bs.getD (ip + 6) 0).toNat == 17 && port (ip + 42)
  | _ => false

/-- The receive status bits of a frame, in place in word 0 (R407). -/
def rxStatus (bs : List Byte) (bad ct coarse : Bool) : Nat :=
  bad.toNat * 0x10000 + (hasTag bs).toNat * 0x20000
    + (if hasTag bs then be16 bs 14 / 8192 * 0x40000 else 0) + (isPtp bs).toNat * 0x200000
    + ct.toNat * 0x400000 + coarse.toNat * 0x800000

/-- A signed 16-bit field. -/
def State.rdS16 (s : State) (f : Fld) : Int := (BitVec.ofNat 16 (s.rd f)).toInt

/-- The granules of a frame of n bytes. -/
def granules (n : Nat) : Nat := (n + 63) / 64

/-- The ones' complement sum of bs modulo 65,535. -/
def onesSum (bs : List Byte) : Nat :=
  ((bs.zipIdx.map (fun x => x.1.toNat * (if x.2 % 2 = 0 then 256 else 1))).sum) % 65535

/-- bs with the bytes v from offset i. -/
def patchAt (bs : List Byte) (i : Nat) (v : List Byte) : List Byte := bs.take i ++ v ++ bs.drop (i + v.length)

/-- A number as n bytes, most significant first. -/
def beList (x n : Nat) : List Byte := (beBytes x n).map (BitVec.ofNat 8)

/-- The bytes of an outgoing frame with the egress stamp t written into it (R413). -/
def oneStepBytes (f : TxFrame) (t : Nat) : List Byte :=
  let bs := patchAt f.bytes f.tsOff (beList (t / second) 6 ++ beList (t % second) 4)
  if f.csumOff = 0xFFFF then bs
  else
    let zero := patchAt bs f.csumOff [0, 0]
    let v := (onesSum f.bytes + 65535 - onesSum zero) % 65535
    let v := if v = 0 then 0xFFFF else v
    let b := beList v 2
    patchAt bs f.csumOff (if f.csumOff % 2 = 0 then b else b.reverse)

/-- The bytes on the wire of an outgoing frame (R409): padded to 60 and with a FCS, unless it carries its own. -/
def wireBytes (f : TxFrame) : List Byte :=
  if f.noFcs ∧ f.oneStep = false then f.bytes
  else
    let bs := f.bytes ++ List.replicate (60 - f.bytes.length) 0
    bs ++ fcsOf bs

/-! ## The link (R402, R403, R422) -/

/-- The ns of one byte at the port's speed. -/
def State.byteNs (s : State) (p : Nat) : Nat := match s.rd (NP_STAT.SPEED p) with | 0 => 800 | 1 => 80 | _ => 8

/-- Whether port p exists and is powered, enabled and clocked. -/
def State.netOn (s : State) (p : Nat) : Bool :=
  s.committed && s.bit (NP_CTRL.EN p) && !s.bit (NP_CTRL.PWR_OFF p) && !s.bit (NP_STAT.FORCED_DOWN p) && s.runs .nser && !s.clk.nserStop

/-- Whether port p is link-up. -/
def State.netUp (s : State) (p : Nat) : Bool := s.bit (NP_STAT.LINK_UP p)

/-- NP_STAT of port p as read (R425). -/
def State.npStat (s : State) (p : Nat) : Word :=
  let v := fldPut (NP_STAT.SERVED p) (s.reg (NP_STAT p)) (s.isServed p).toNat
  let v := fldPut (NP_STAT.CT_AUTO p) v (s.ctIsAuto p).toNat
  fldPut (NP_STAT.PWR_ON p) v (s.committed && !(s.net p).drained).toNat

/-- The NET_LINK event of port p: its number, the new state and the speed. -/
def State.netEvent (s : State) (p : Nat) (up : Bool) : State :=
  (s.on (if up then NP_EVT.LINK_UP p else NP_EVT.LINK_DOWN p)).event Ev.NET_LINK [p, up.toNat, s.rd (NP_STAT.SPEED p)]

/-- A transmit status goes to the engine that submitted the frame, if it runs, otherwise to the group (R410). -/
def State.txStatus (s : State) (p : Nat) (f : TxFrame) (status : Nat) (stamp : Option (Nat × Bool)) : State :=
  match f.engine with
  | none => s
  | some e =>
    let t := match stamp with | some (t, _) => t | none => 0
    let coarse := match stamp with | some (_, c) => c | none => false
    let ws : List Word := [
      BitVec.ofNat 32 (f.tag + status * 0x10000 + stamp.isSome.toNat * 0x100000 + coarse.toNat * 0x200000),
      BitVec.ofNat 32 (t % second), BitVec.ofNat 32 (t / second), 0]
    if s.ceState e = ceRunning then s.setEng e { s.eng e with statuses := (s.eng e).statuses ++ [ws] }
    else s.setNet p { s.net p with statuses := (s.net p).statuses ++ [ws] }

/-- Frame f of port p is abandoned: its status is returned and counted; a forwarded one is dropped. -/
def State.abandon (s : State) (p : Nat) (f : TxFrame) (status : Nat) : State :=
  if f.engine.isSome then
    (if status = 2 then (s.inc (NP_CNT_TOOLONG p)).on (NP_EVT.TOO_LONG p) else s.inc (NP_CNT_TXDOWN p)).txStatus p f status none
  else s.inc (NP_CNT_CTDROP (Nat.xor p 1))

/-- Every waiting frame of port p returns a status. -/
def State.abandonAll (s : State) (p status : Nat) : State :=
  let fs := (s.net p).waiting
  fs.foldl (fun s f => s.abandon p f status) (s.setNet p { s.net p with waiting := [] })

/-- The end of a frame that port p's path forwards under number no (R415): its bytes are all there, and a failed one is stomped if it has
begun, dropped if it still waits. -/
def State.ctEnd (s : State) (p no : Nat) (bytes : List Byte) (bad : Bool) : State :=
  let q := Nat.xor p 1
  let y := s.net q
  let mine (f : TxFrame) : Bool := f.engine.isNone && f.seq == no && !f.whole
  let fill (f : TxFrame) : TxFrame := { f with bytes := bytes, whole := true, bad := bad }
  match y.wire with
  | some w =>
    if mine w.frame then
      let s := s.setNet q { y with wire := some { w with frame := fill w.frame } }
      if bad then (s.inc (NP_CNT_CTSTOMP p)).on (NP_EVT.CT_STOMP p) else s
    else inQueue s y mine fill
  | none => inQueue s y mine fill
where
  inQueue (s : State) (y : NetPort) (mine : TxFrame → Bool) (fill : TxFrame → TxFrame) : State :=
    let q := Nat.xor p 1
    if bad ∧ y.waiting.any mine then
      (s.setNet q { y with waiting := y.waiting.filter (fun f => !mine f) }).inc (NP_CNT_CTDROP p)
    else s.setNet q { y with waiting := y.waiting.map (fun f => if mine f then fill f else f) }

/-- An early descriptor's frame that is dropped leaves the window. -/
def State.dropEarly (s : State) (p : Nat) (i : Incoming) : State :=
  match i.early with
  | some q =>
    let x := s.net p
    s.setNet p { x with rx := x.rx.filter (fun f => !(f.early && !f.whole && (f.words.getD 1 0).toNat / 0x1000000 == q)) }
  | none => s

/-- A frame that port p was receiving is cut (R415, R422): what its path has sent of it is stomped, what still waits is dropped, and its
early descriptor leaves the window. -/
def State.cutIncoming (s : State) (p : Nat) : State :=
  match (s.net p).incoming with
  | none => s
  | some i =>
    let s := s.setNet p { s.net p with incoming := none }
    (match i.ct with | some no => s.ctEnd p no i.bytes true | none => s).dropEarly p i

/-- Port p goes link-down (R402, R422): submitted frames, the one on the wire among them, return LINK_DOWN. -/
def State.netDrop (s : State) (p : Nat) : State :=
  if s.netUp p = false then s
  else
    let s := (s.off (NP_STAT.LINK_UP p)).off (NP_STAT.AN_DONE p)
    let s := (s.netEvent p false).cutIncoming p
    let x := s.net p
    let s := s.setNet p { x with wire := none }
    let s := match x.wire with | some w => s.abandon p w.frame 1 | none => s
    s.abandonAll p 1

/-- The half-duplex bit and the speed of a partner's word: an SGMII control word, or the clause 37 ability (log entry 14). -/
def wordHalf (sgmii : Bool) (w : BitVec 16) : Bool := if sgmii then !w.getLsbD 12 else !w.getLsbD 5 && w.getLsbD 6
def wordSpeed (w : BitVec 16) : Nat := min 2 (w.toNat / 1024 % 4)

/-- Whether port p runs SGMII; 2 and 3 act as 0 (R425). -/
def State.sgmii (s : State) (p : Nat) : Bool := s.rd (NP_CTRL.IF_MODE p) != 1

/-- NET_LINK_UP (R402, R403): synchronisation and, with AN_EN, the partner's word; a half-duplex partner keeps the port down. -/
def execNetLinkUp (p : Fin 12) (word : Option (BitVec 16)) (s : State) : Res :=
  let n := p.val
  if s.netOn n = false ∨ s.netUp n then .next s
  else
    let s := s.on (NP_STAT.SIG_DET n)
    let up (s : State) (sp : Nat) : State := ((s.wr (NP_STAT.SPEED n) sp).on (NP_STAT.LINK_UP n)).netEvent n true
    if s.bit (NP_CTRL.AN_EN n) then
      match word with
      | none => .next s
      | some w =>
        let s := s.wr (NP_AN_LP.ABILITY n) w.toNat
        if wordHalf (s.sgmii n) w then .next ((s.on (NP_STAT.HD_PARTNER n)).on (NP_EVT.HD_REFUSED n))
        else
          let s := (s.off (NP_STAT.HD_PARTNER n)).on (NP_STAT.AN_DONE n)
          .next (up s (if s.sgmii n then wordSpeed w else 2))
    else .next (up s (if s.sgmii n then min 2 (s.rd (NP_CTRL.FORCE_SPEED n)) else 2))

/-- NET_LINK_DOWN (R402): synchronisation is lost; whether a signal is still detected is a free value (log entry 187). -/
def execNetLinkDown (p : Fin 12) (s : State) : Res :=
  if s.netUp p.val = false then .next s
  else .next (((s.netDrop p.val).wr (NP_STAT.SIG_DET p.val) ((s.netDrop p.val).freeVal 1).toNat).usedFree)

/-- SGMII_WORD_CHANGE (R403, R426): the PHY's control word has changed, and with it the resolved speed; half duplex takes the port down. -/
def execSgmiiWordChange (p : Fin 12) (word : BitVec 16) (s : State) : Res :=
  let n := p.val
  if s.netOn n = false ∨ s.sgmii n = false then .next s
  else
    let s := (s.wr (NP_AN_LP.ABILITY n) word.toNat).on (NP_EVT.PHY_EVT n)
    if s.bit (NP_CTRL.AN_EN n) = false ∨ s.netUp n = false then .next s
    else if wordHalf true word then .next (((s.netDrop n).on (NP_STAT.HD_PARTNER n)).on (NP_EVT.HD_REFUSED n))
    else .next (s.wr (NP_STAT.SPEED n) (wordSpeed word))

/-- Becalm forces port p link-down (R422): a frame in progress either way is cut and counted. -/
def State.netBecalm (s : State) (p : Nat) : State :=
  let x := s.net p
  let s := s.incBy (NP_CNT_CUT p) (x.wire.isSome.toNat + x.incoming.isSome.toNat)
  (s.on (NP_STAT.FORCED_DOWN p)).netDrop p

/-- SPLL1 stops once every port is out of use (R568). -/
def State.spllSettle (s : State) : State :=
  if s.clk.nserStop && !(List.range 12).any (fun p => (s.net p).wire.isSome) then
    let s := s.setReg (CK_PLL 3) 0
    { s with
      clk := { s.clk with nserStop := false }
      stopped := { s.stopped with pll := s.stopped.pll.filter (fun d => d != Domain.nser) ++ [.nser] } }
  else s

/-- Port p is powered down once nothing of it is on the wire (R422, R568): frames return PWR_OFF and the link is down. -/
def State.netDrain (s : State) (p : Nat) : State :=
  if (s.bit (NP_CTRL.PWR_OFF p) || s.clk.nserStop) && (s.net p).wire.isNone && !(s.net p).drained then
    let s := (s.abandonAll p 3).netDrop p
    let s := s.cutIncoming p
    (s.setNet p { s.net p with drained := true }).spllSettle
  else s.spllSettle

/-- A write of NP_CTRL beside PWR_OFF: a port that is disabled goes down, and a new mode restarts its link (R402). -/
def State.npCtrl (s : State) (o : Origin) (p : Nat) (v : Word) : State :=
  let old := s.reg (NP_CTRL p)
  let s := s.regStore o (NP_CTRL p) v
  let new := s.reg (NP_CTRL p)
  let moved := (old ^^^ new) &&& 0xFD
  if moved = 0 then s else s.netDrop p

/-- NP_PWR_OFF_WRITE (R422): a write of NP_CTRL; with PWR_OFF the port drains and goes down, without it the link restarts. -/
def execNpPwrOffWrite (o : Origin) (p : Fin 12) (v : Word) (s : State) : Res :=
  let n := p.val
  let s := s.npCtrl o n v
  if s.bit (NP_CTRL.PWR_OFF n) then .next (s.netDrain n)
  else
    let s := { s with ledger := { s.ledger with bounced := s.ledger.bounced.filter (fun u => u != DownUnit.netPort p) } }
    .next (s.setNet n { s.net n with drained := false })

/-! ## Gates (R417 to R421) -/

/-- The cycle time of list l: 0 acts as the sum of its intervals, or as 1 µs (R417). -/
def GateList.period (l : GateList) : Nat :=
  let sum := (l.entries.map Prod.snd).sum
  if l.cycle ≠ 0 then l.cycle else if sum ≠ 0 then sum else 1000

/-- The entries of l from offset at_ of its cycle, as start, end, gates and number; the last one with time stays to the cycle's end. -/
def gateSlots (period : Nat) : List (Nat × Nat) → Nat → Nat → List (Nat × Nat × Nat × Nat)
  | [], _, _ => []
  | (g, t) :: r, at_, i =>
    let last := r.all (fun x => x.2 == 0)
    let e := if last then period else min period (at_ + t)
    if period ≤ at_ then [] else if at_ < e ∧ (t ≠ 0 ∨ last) then
      (at_, e, g, i) :: (if last then [] else gateSlots period r e (i + 1))
    else gateSlots period r at_ (i + 1)

/-- The slots of list l's cycle. -/
def GateList.slots (l : GateList) : List (Nat × Nat × Nat × Nat) := gateSlots l.period l.entries 0 0

/-- The offset of device time t in the cycles of list l. -/
def GateList.offset (l : GateList) (t : Nat) : Nat := (((t : Int) - l.cct) % (l.period : Int)).toNat

/-- The entry in force at t: its gates and number; closed without entries. -/
def GateList.at_ (l : GateList) (t : Nat) : Nat × Nat :=
  match l.slots.find? (fun x => decide (l.offset t < x.2.1)) with
  | some x => x.2.2
  | none => (0, 0)

/-- The first device time from t on at which list l closes class c; none where it never does. -/
def GateList.nextClosed (l : GateList) (c t : Nat) : Option Nat :=
  if l.entries.isEmpty then some t
  else
    let off := l.offset t
    let shut := l.slots.filter (fun x => !x.2.2.1.testBit c)
    match shut.find? (fun x => decide (off < x.2.1)) with
    | some x => some (t + (max x.1 off - off))
    | none => (shut.head?).map (fun x => t + (l.period - off) + x.1)

/-- The longest unbroken opening of class c in list l; none for an opening without end. -/
def GateList.longest (l : GateList) (c : Nat) : Option Nat :=
  let ss := l.slots
  if ss.all (fun x => x.2.2.1.testBit c) ∧ ss.isEmpty = false then none
  else
    some ((ss ++ ss).foldl (fun (x : Nat × Nat) y =>
      let run := if y.2.2.1.testBit c then x.1 + (y.2.1 - y.1) else 0
      (run, max x.2 run)) (0, 0)).2

/-- With the oper list and a pending change at cct, the time from which the last entry in force is held until cct (R419): cct itself
where the cycle is cut instead. -/
def holdFrom (oper : GateList) (new : GateList) : Nat :=
  let part := oper.offset new.cct
  if part < new.ext ∧ oper.entries.isEmpty = false then new.cct - part else new.cct

/-- The gates that port p has in force at device time t, and the entry (R417, R419). -/
def State.gatesAt (s : State) (p t : Nat) : Nat × Nat :=
  let x := s.net p
  match x.pend with
  | none => x.oper.at_ t
  | some (l, _) =>
    if l.cct ≤ t then l.at_ t
    else if holdFrom x.oper l ≤ t then x.oper.at_ (holdFrom x.oper l - 1)
    else x.oper.at_ t

/-- Whether class c of port p is open without a break throughout [t, t + w) (R420). -/
def State.openFor (s : State) (p c t w : Nat) : Bool :=
  if s.bit (NP_GCL_CTRL.GATE_EN p) = false then true
  else
    let x := s.net p
    let clear (l : GateList) (a b : Nat) : Bool :=
      decide (b ≤ a) || (match l.nextClosed c a with | some k => decide (b ≤ k) | none => true)
    match x.pend with
    | none => clear x.oper t (t + w)
    | some (l, _) =>
      let h := holdFrom x.oper l
      let held := decide (min (t + w) l.cct ≤ max t h) || (x.oper.at_ (h - 1)).1.testBit c
      clear x.oper t (min (t + w) h) && held && clear l (max t l.cct) (t + w)

/-- A gate that closes on the frame on the wire (R421): the frame completes, and is counted once. -/
def State.gateOver (s : State) (p : Nat) : State :=
  let x := s.net p
  match x.wire with
  | some w =>
    if s.bit (NP_GCL_CTRL.GATE_EN p) && !w.late && !(s.gatesAt p s.now).1.testBit w.frame.cls then
      ((s.setNet p { x with wire := some { w with late := true } }).inc (NP_CNT_GATEOVR p)).on (NP_EVT.GATE_OVR p)
    else s
  | none => s

/-- The pending change of port p takes effect (R419). -/
def State.gateTake (s : State) (p : Nat) : State :=
  let x := s.net p
  match x.pend with
  | none => s
  | some (l, o) =>
    let s := s.setNet p { x with oper := l, pend := none }
    let s := (s.off (NP_GCL_CTRL.CC_PENDING p)).on (NP_EVT.CC_DONE p)
    let s := (s.setReg (NP_GCL_OLEN p) (BitVec.ofNat 32 l.entries.length)).setReg (NP_GCL_OCYCLE p) (BitVec.ofNat 32 l.period)
    (s.eventAt s.now false Ev.GATE_CHANGE o (BitVec.ofNat 32 p :: timeWords l.cct)).gateOver p

/-- GATE_CHANGE (R419): device time reaches CCT. -/
def execGateChange (p : Fin 12) (s : State) : Res :=
  match (s.net p.val).pend with
  | some (l, _) => .next ((s.advanceTo l.cct).gateTake p.val)
  | none => .next s

/-- The next entry or cycle boundary of port p's oper list after device time t. -/
def GateList.nextBoundary (l : GateList) (t : Nat) : Nat :=
  let off := l.offset t
  match l.slots.find? (fun x => decide (off < x.1)) with
  | some x => t + (x.1 - off)
  | none => t + (l.period - off)

/-- GATE_ENTRY_BOUNDARY (R417): the next entry or cycle boundary of the oper list. A list without entries has none. -/
def execGateEntryBoundary (p : Fin 12) (s : State) : Res :=
  let l := (s.net p.val).oper
  if l.entries.isEmpty then .next s else .next ((s.advanceTo (l.nextBoundary s.now)).gateOver p.val)

/-- What a step of device time does to port p's gates (R421): a pending CCT that it passes applies, and a frame on the wire may meet a
closed gate. -/
def State.gateStep (s : State) (p : Nat) : State :=
  match (s.net p).pend with
  | some (l, _) => if l.cct ≤ s.now then s.gateTake p else s.gateOver p
  | none => s.gateOver p

/-- The admin values of port p as a list, its start not yet fixed (R418, R419). -/
def State.adminList (s : State) (p : Nat) : GateList :=
  let x := s.net p
  { entries := (List.range (min 256 (s.rd (NP_GCL_ALEN.LEN p)))).map
      (fun i => (tabGet (fun _ => 0) x.adminGates i, tabGet (fun _ => 0) x.adminTimes i))
    cycle := s.rd (NP_GCL_ACYCLE.CYCLE_NS p), ext := s.rd (NP_GCL_AEXT.EXT_NS p) }

/-- CONFIG_CHANGE by origin o (R419): the admin values are copied and CCT is fixed; an earlier pending change is replaced. -/
def State.gateCommit (s : State) (p : Nat) (o : Origin) : State :=
  let l := s.adminList p
  let base := timeOf (s.reg (NP_GCL_ABASE_NS p)).toNat (s.reg (NP_GCL_ABASE_SL p)).toNat (s.rd (NP_GCL_ABASE_SH.SEC_HI p))
  let t := s.now + 2000
  let cct := if t ≤ base then base else base + divUp (t - base) l.period * l.period
  let s := s.setNet p { s.net p with pend := some ({ l with cct := cct }, o) }
  (s.on (NP_GCL_CTRL.CC_PENDING p)).setStamp (NP_GCL_CCT_NS p) (NP_GCL_CCT_SL p) (NP_GCL_CCT_SH p) cct

/-- CONFIG_CHANGE (R419). -/
def execConfigChange (o : Origin) (p : Fin 12) (s : State) : Res :=
  if s.committed then .next (s.gateCommit p.val o) else .next s

/-- CC_CANCEL (R419): a pending change is withdrawn. -/
def execCcCancel (_ : Origin) (p : Fin 12) (s : State) : Res :=
  .next ((s.setNet p.val { s.net p.val with pend := none }).off (NP_GCL_CTRL.CC_PENDING p.val))

/-- NP_GCL_OSTAT of port p as read (R427): with GATE_EN = 0 every gate is open. -/
def State.gateStat (s : State) (p : Nat) : Word :=
  if s.bit (NP_GCL_CTRL.GATE_EN p) then
    let (g, i) := s.gatesAt p s.now
    BitVec.ofNat 32 (g % 256 + i % 256 * 256)
  else 0xFF

/-! ## Transmit (R409 to R413) -/

/-- The bytes with FCS that frame f will have; a forwarded frame whose end has not arrived counts as MAX_LEN of the port it arrives on. -/
def State.wireLength (s : State) (p : Nat) (f : TxFrame) : Nat :=
  if f.whole then (if f.engine.isSome then (wireBytes f).length else f.bytes.length)
  else max 64 (s.rd (NP_RXCFG.MAX_LEN (Nat.xor p 1)))

/-- The wire time W of frame f on port p (R420). -/
def State.wireTime (s : State) (p : Nat) (f : TxFrame) : Nat := (8 + s.wireLength p f) * s.byteNs p

/-- Whether frame f of port p exceeds every opening of its class (R420). -/
def State.tooLong (s : State) (p : Nat) (f : TxFrame) : Bool :=
  s.bit (NP_GCL_CTRL.GATE_EN p) && f.whole && (match (s.net p).oper.longest f.cls with
    | some m => decide (m < s.wireTime p f)
    | none => false)

/-- The heads of port p's classes that exceed every opening are returned; f bounds their number. -/
def State.dropTooLong (s : State) (p : Nat) : Nat → State
  | 0 => s
  | n + 1 =>
    let x := s.net p
    let heads := (List.range 8).filterMap (fun c => x.waiting.find? (fun f => f.cls == c))
    match heads.find? (fun f => s.tooLong p f) with
    | some f => ((s.setNet p { x with waiting := x.waiting.erase f }).abandon p f 2).dropTooLong p n
    | none => s

/-- FRAME_TX_START (R411, R412, R420): past the gap of 12 bytes after the last frame, the highest class whose head may start now starts
it, with its egress stamp: its message timestamp point crosses the pin after the 8 bytes of preamble and delimiter (log entry 188). -/
def execFrameTxStart (p : Fin 12) (s : State) : Res :=
  let n := p.val
  if s.netUp n = false ∨ (s.net n).wire.isSome ∨ s.runs .nser = false then .next s
  else
    let s := s.runTo (s.net n).gap
    let s := s.dropTooLong n (s.net n).waiting.length
    let x := s.net n
    let heads := [7, 6, 5, 4, 3, 2, 1, 0].filterMap (fun c => x.waiting.find? (fun f => f.cls == c))
    match heads.find? (fun f => (f.whole || !f.stored) && s.openFor n f.cls s.now (s.wireTime n f)) with
    | none => .next s
    | some f =>
      let t := ((s.now : Int) + 8 * s.byteNs n + s.rdS16 (NP_TSCOMP.TX_COMP n)).toNat
      let g := if f.oneStep then { f with bytes := oneStepBytes f t } else f
      .next (s.setNet n { x with
        waiting := x.waiting.erase f
        wire := some { frame := g, begun := s.time.tick, stamp := t, coarse := s.coarse } })

/-- The granules of port p's transmit window in use (R379). -/
def State.txGranules (s : State) (p : Nat) : Nat := ((s.net p).waiting.map (fun f => granules f.bytes.length)).sum

/-- Why an operation of engine e on its port answers NO_PORT or DOMAIN_OFF instead (R370, R404, R422). -/
def State.portStop (s : State) (e : Nat) : Option OpStatus :=
  if s.attached e = false then some .noPort else none

/-- LINK (R408): the engine reads NP_STAT. -/
def execLink (e : Fin 48) (s : State) : Res :=
  let n := e.val
  if s.canAct n = false then .next s
  else match s.portStop n with
    | some st => .next (s.opDone n st)
    | none => .next (s.opDone n .ok [s.npStat (n / 4)])

/-- TX_SUBMIT (R409): a descriptor's words 0 to 2 and the L bytes of its granules. A stamp is asked for with FLAGS.PTP only (R382). -/
def execTxSubmit (e : Fin 48) (d0 d1 d2 : Word) (frame : List Byte) (s : State) : Res :=
  let n := e.val
  let p := n / 4
  if s.canAct n = false then .next s
  else match s.portStop n with
    | some st => .next (s.opDone n st)
    | none =>
      let len := d0.toNat % 0x4000
      let cls := d0.toNat / 0x10000 % 8
      let one := d0.getLsbD 20
      let ts := d2.toNat % 0x10000
      let cs := d2.toNat / 0x10000
      if len < 14 ∨ 16379 < len ∨ (one ∧ (ts < 14 ∨ len < ts + 10 ∨ (cs ≠ 0xFFFF ∧ len < cs + 2))) then .next (s.opDone n .badArg)
      else if s.bit (NP_CTRL.PWR_OFF p) || s.clk.nserStop || (s.net p).drained then .next ((s.bounce (.netPort (Fin.ofNat 12 p)) 1).opDone n .domainOff)
      else if 16 ≤ ((s.net p).waiting.filter (fun f => f.cls == cls && f.engine.isSome)).length then .next (s.opDone n .busy)
      else
        let f : TxFrame := {
          cls := cls, engine := some n, bytes := (frame ++ List.replicate len 0).take len
          stamp := d0.getLsbD 19 && s.imageFlag n 1, oneStep := one, noFcs := d0.getLsbD 21, tag := d1.toNat / 0x10000
          tsOff := ts, csumOff := cs }
        let s := s.opDone n .ok
        .next (if s.netUp p then s.setNet p { s.net p with waiting := (s.net p).waiting ++ [f] } else s.abandon p f 1)

/-- TX_TAKE (R408, R410): the oldest status of the engine, or of its group. -/
def execTxTake (e : Fin 48) (s : State) : Res :=
  let n := e.val
  if s.canAct n = false then .next s
  else match s.portStop n with
    | some st => .next (s.opDone n st)
    | none =>
      match (s.eng n).statuses, (s.net (n / 4)).statuses with
      | ws :: r, _ => .next ((s.setEng n { s.eng n with statuses := r }).opDone n .ok ws)
      | [], ws :: r => .next ((s.setNet (n / 4) { s.net (n / 4) with statuses := r }).opDone n .ok ws)
      | [], [] => .next (s.opDone n .empty)

/-! ## Cut-through (R414, R415) -/

/-- The path mode in force on port p. -/
def State.ctMode (s : State) (p : Nat) : Nat :=
  let m := s.rd (NP_CT.MODE p)
  if m = 3 then 0 else if s.ctIsAuto p then 2 else m

/-- A frame of port p enters its partner's transmit path (R415): at once if it can start as it comes, or store-and-forward; without room
in the partner's window it is dropped. later tells a commit after the frame's end. -/
def State.ctForward (s : State) (p : Nat) (bytes : List Byte) (whole later bad : Bool) : Option Nat × State :=
  let q := Nat.xor p 1
  let y := s.net q
  let no := (s.net p).ctNo
  let f : TxFrame := { cls := s.rd (NP_CT.CLASS p), engine := none, bytes := bytes, seq := no, whole := whole, bad := bad }
  if s.netUp q = false then (none, s)
  else
    let waits := s.byteNs p != s.byteNs q || y.wire.isSome || y.waiting.any (fun g => decide (f.cls ≤ g.cls))
      || !s.openFor q f.cls s.now (s.wireTime q f)
    let stored := later || waits
    if stored ∧ 2048 < s.txGranules q + granules (s.wireLength q f) then (none, s.inc (NP_CNT_CTDROP p))
    else
      let s := s.inc (NP_CNT_CTFWD p)
      let s := if waits && !later then s.inc (NP_CNT_CTBUF p) else s
      let s := s.setNet p { s.net p with ctNo := no + 1 }
      (some no, s.setNet q { s.net q with waiting := (s.net q).waiting ++ [{ f with stored := stored }] })

/-- The CT_PATH event of port p: the new mode and class and the origin (R414). -/
def State.ctChanged (s : State) (p : Nat) (old : Word) (o : Origin) : State :=
  if s.reg (NP_CT p) = old then s
  else (s.ctRefresh p).event Ev.CT_PATH [p, s.rd (NP_CT.MODE p), s.rd (NP_CT.CLASS p)] o

/-- CT_PATH (R414): a write of NP_CT. -/
def execCtPath (o : Origin) (p : Fin 12) (v : Word) (s : State) : Res :=
  let old := s.reg (NP_CT p.val)
  .next ((s.regStore o (NP_CT p.val) v).ctChanged p.val old o)

/-- CT_SET (R408, R414). -/
def execCtSet (e : Fin 48) (mode : BitVec 2) (cls : BitVec 3) (s : State) : Res :=
  let n := e.val
  let p := n / 4
  if s.canAct n = false then .next s
  else match s.portStop n with
    | some st => .next (s.opDone n st)
    | none =>
      if s.imageFlag n 0 = false then .next (s.opDone n .badArg)
      else
        let old := s.reg (NP_CT p)
        .next ((((s.wr (NP_CT.MODE p) mode.toNat).wr (NP_CT.CLASS p) cls.toNat).ctChanged p old (.engine e)).opDone n .ok)

/-- The engine's decision on frame seq of its mode-1 path (R415). -/
def State.ctDecide (s : State) (e : Nat) (seq : Nat) (forward : Bool) : State :=
  let p := e / 4
  match s.portStop e with
  | some st => s.opDone e st
  | none =>
    let x := s.net p
    match x.rx.find? (fun f => f.engine == e && (f.taken || f.early) && (f.words.getD 1 0).toNat / 0x1000000 == seq && f.choice == .open_) with
    | none => s.opDone e .badArg
    | some f =>
      if s.imageFlag e 0 = false ∨ s.rd (NP_CT.MODE p) ≠ 1 then s.opDone e .badArg
      else
        let set (s : State) (c : CtChoice) : State :=
          let x := s.net p
          s.setNet p { x with rx := x.rx.map (fun g => if g = f then { g with choice := c } else g) }
        if forward = false then (set s .declined).opDone e .ok
        else
          let (no, s) := (set s .forwarded).ctForward p f.bytes f.whole f.whole false
          let x := s.net p
          let s := match x.incoming, f.whole with
            | some i, false => s.setNet p { x with incoming := some { i with ct := no } }
            | _, _ => s
          s.opDone e .ok

/-- CT_COMMIT (R415). -/
def execCtCommit (e : Fin 48) (seq : Byte) (s : State) : Res :=
  if s.canAct e.val = false then .next s else .next (s.ctDecide e.val seq.toNat true)

/-- CT_DECLINE (R415). -/
def execCtDecline (e : Fin 48) (seq : Byte) (s : State) : Res :=
  if s.canAct e.val = false then .next s else .next (s.ctDecide e.val seq.toNat false)

/-! ## Receive (R379, R381, R405 to R407) -/

/-- A received frame is dropped by the MAC for want of an engine or of room (R405). -/
def State.rxDropped (s : State) (p cnt : Nat) : State := (s.inc cnt).on (NP_EVT.RX_DROP p)

/-- The engine of the group that gets the next descriptor: round-robin among those that run and have room (R379). -/
def State.nextEngine (s : State) (p : Nat) : Option Nat :=
  let x := s.net p
  let es := (s.serving p).filter (fun e =>
    s.ceState e == ceRunning && decide ((x.rx.filter (fun f => f.engine == e && !f.taken)).length < 8))
  match es.find? (fun e => decide (x.turn ≤ e)) with
  | some e => some e
  | none => es.head?

/-- The n granules after the last frame's, if all of them are free (R379, R380, log entry 15). -/
def NetPort.takeGranules (x : NetPort) (n : Nat) : Option (List Nat) :=
  let gs := (List.range n).map (fun i => (x.next + i) % 2048)
  let used := x.rx.flatMap (·.grans)
  if n ≤ 2048 ∧ gs.all (fun g => !used.contains g) then some gs else none

/-- A descriptor's four words (R380); none for the length where the frame has not ended. -/
def descWords (len : BitVec 14) (status first count seq stamp : Nat) : List Word :=
  [BitVec.ofNat 32 (len.toNat + status), BitVec.ofNat 32 (first + min count 255 * 0x10000 + seq % 256 * 0x1000000),
   BitVec.ofNat 32 (stamp % second), BitVec.ofNat 32 (stamp / second)]

/-- A frame enters port p's receive window for an engine, or none where nobody is to take it (KIND[0] = 0): the state, or none without
room. -/
def State.rxPlace (s : State) (p : Nat) (bytes : List Byte) (whole : Bool) (status stamp : Nat) (c : CtChoice) (kind : Bool) :
    Option State :=
  let x := s.net p
  match x.takeGranules (if whole then granules bytes.length else 1), (if kind then s.nextEngine p else some 48) with
  | some gs, some e =>
    let len : BitVec 14 := if whole then BitVec.ofNat 14 bytes.length else s.freeVal 14
    let s := if whole then s else s.usedFree
    let f : RxFrame := {
      words := descWords len status (gs.headD 0) gs.length x.seq stamp, engine := e, grans := gs, bytes := bytes, whole := whole
      early := !whole, choice := c }
    some (s.setNet p { x with
      rx := x.rx ++ [f], next := (x.next + gs.length) % 2048, seq := (x.seq + 1) % 256, turn := e + 1 })
  | _, _ => none

/-- The first 64 bytes of a frame (R381, R415): its stamp, the start of its forwarding, and an early descriptor on a mode-1 path. -/
def State.rxHead (s : State) (p ago : Nat) (bytes : List Byte) : State :=
  let t := ((s.now : Int) - ago - s.rdS16 (NP_TSCOMP.RX_COMP p)).toNat
  let i : Incoming := { bytes := bytes, stamp := t, coarse := s.coarse }
  let m := s.ctMode p
  if bytes.length < 64 ∨ m = 0 then s.setNet p { s.net p with incoming := some i }
  else if m = 2 then
    let (no, s) := s.ctForward p bytes false false false
    s.setNet p { s.net p with incoming := some { i with ct := no } }
  else
    let flag := (s.serving p).any (fun e => s.ceState e == ceRunning && s.imageFlag e 0)
    let seq := (s.net p).seq
    match (if flag && s.isServed p then s.rxPlace p bytes false (rxStatus bytes false false i.coarse) t .open_ true else none) with
    | some s => s.setNet p { s.net p with incoming := some { i with early := some seq } }
    | none => s.setNet p { s.net p with incoming := some i }

/-- The delivery of a whole frame that R406 accepts, or of a bad one with KEEP_BAD (R379, R405). -/
def State.rxDeliver (s : State) (p : Nat) (i : Incoming) (bytes : List Byte) (bad : Bool) : State :=
  let status := rxStatus bytes bad i.ct.isSome i.coarse
  let open1 := s.rd (NP_CT.MODE p) == 1 && i.ct.isNone && !s.ctIsAuto p && decide (64 ≤ bytes.length)
  let x := s.net p
  match i.early.bind (fun q => x.rx.find? (fun f => f.early && (f.words.getD 1 0).toNat / 0x1000000 == q)) with
  | some f =>
    let first := f.grans.headD 0
    let n := granules bytes.length
    let more := (List.range (n - 1)).map (fun k => (x.next + k) % 2048)
    let used := x.rx.flatMap (·.grans)
    if more.all (fun g => !used.contains g) then
      let g : RxFrame := { f with
        words := descWords (BitVec.ofNat 14 bytes.length) status first n (i.early.getD 0) i.stamp, taken := false
        grans := f.grans ++ more, bytes := bytes, whole := true }
      s.setNet p { x with rx := x.rx.map (fun y => if y = f then g else y), next := (x.next + more.length) % 2048 }
    else (s.setNet p { x with rx := x.rx.erase f }).rxDropped p (NP_CNT_WINDROP p)
  | none =>
    let attached := !(s.serving p).isEmpty
    let kind := (s.serving p).any s.usesPort
    if attached && !kind then
      (s.rxPlace p bytes true status i.stamp .declined false).getD (s.rxDropped p (NP_CNT_WINDROP p))
    else if s.isServed p then
      (s.rxPlace p bytes true status i.stamp (if open1 then .open_ else .declined) true).getD (s.rxDropped p (NP_CNT_WINDROP p))
    else s.rxDropped p (NP_CNT_NOSERV p)

/-- The end of a frame (R406, R415). -/
def State.rxWhole (s : State) (p : Nat) (bytes : List Byte) (symErr : Bool) : State :=
  match (s.net p).incoming with
  | none => s
  | some i =>
    let s := s.setNet p { s.net p with incoming := none }
    let maxLen := max 64 (s.rd (NP_RXCFG.MAX_LEN p))
    let long := decide (maxLen < bytes.length)
    let bad := symErr || !fcsGood bytes
    let ct (s : State) (bs : List Byte) (b : Bool) : State := match i.ct with | some no => s.ctEnd p no bs b | none => s
    if bytes.length < 64 then (ct s bytes true).inc (NP_CNT_RUNT p)
    else if long then ((ct s (bytes.take (maxLen + 1)) true).dropEarly p i).inc (NP_CNT_LONG p)
    else
      let s := ct s bytes bad
      if bad then
        let s := s.inc (if symErr then NP_CNT_SYMERR p else NP_CNT_FCS p)
        if s.bit (NP_CTRL.KEEP_BAD p) then s.rxDeliver p i bytes true else s.dropEarly p i
      else ((s.inc (NP_CNT_RXFRM p)).incBy (NP_CNT_RXOCT p) bytes.length).rxDeliver p i bytes false

/-- FRAME_RECEIVE (R406, R412, R415): the first 64 bytes of a frame, or the whole of it; its message timestamp point crossed the pin ago ns
before this tick. Under LOOPBACK the lane brings nothing (R425). -/
def execFrameReceive (p : Fin 12) (ago : Word) (part : FramePart) (s : State) : Res :=
  let n := p.val
  if s.netUp n = false ∨ s.netOn n = false ∨ s.bit (NP_CTRL.LOOPBACK n) then .next s
  else match part with
    | .head bs => .next (if (s.net n).incoming.isSome then s else s.rxHead n ago.toNat (bs.take 64))
    | .whole bs e =>
      let s := if (s.net n).incoming.isSome then s else s.rxHead n ago.toNat (bs.take 64)
      .next (s.rxWhole n bs e)

/-- A frame of port p that LOOPBACK turns round (R425): the lane carries nothing, and the port's own receiver takes the bytes, the FCS
inverted where it is stomped. -/
def State.loopFrame (s : State) (p : Nat) (w : OnWire) (bs : List Byte) : State :=
  if s.netUp p = false ∨ (s.net p).incoming.isSome then s
  else
    let bs := if w.frame.bad then bs.take (bs.length - 4) ++ (bs.drop (bs.length - 4)).map (fun b => ~~~b) else bs
    (s.rxHead p (s.time.tick - (w.begun + 8 * s.byteNs p)) (bs.take 64)).rxWhole p bs false

/-- FRAME_TX_DONE (R410): the frame on the wire has left; its status is returned. A forwarded frame that failed ends with its FCS
inverted. Under LOOPBACK the port itself receives it (R425). -/
def execFrameTxDone (p : Fin 12) (s : State) : Res :=
  let n := p.val
  match (s.net n).wire with
  | none => .next s
  | some w =>
    let f := w.frame
    if f.whole = false then .next s
    else
      let s := s.runTo (w.begun + s.wireTime n f)
      let s := s.setNet n { s.net n with wire := none, gap := s.time.tick + 12 * s.byteNs n }
      let bs := if f.engine.isSome then wireBytes f else f.bytes
      let s := if s.bit (NP_CTRL.LOOPBACK n) then s.loopFrame n w bs else s.emit (.frame n bs f.bad)
      let s := if f.engine.isSome then
          ((s.inc (NP_CNT_TXFRM n)).incBy (NP_CNT_TXOCT n) bs.length).txStatus n f 0
            (if f.stamp ∨ f.oneStep then some (w.stamp, w.coarse) else none)
        else s
      .next (s.netDrain n)

/-! ## The engine's gate list (R408, R418) -/

/-- Entry i of port p's admin list with gates and interval. -/
def State.adminEntry (s : State) (p i gates time : Nat) : State :=
  let x := s.net p
  s.setNet p { x with
    adminGates := tabPut (fun _ => 0) x.adminGates i (gates % 256), adminTimes := tabPut (fun _ => 0) x.adminTimes i time }

/-- GCL_WRITE (R382, R418): one admin value; BAD_ARG without FLAGS[2]. -/
def execGclWrite (e : Fin 48) (x : GclValue) (s : State) : Res :=
  let n := e.val
  let p := n / 4
  if s.canAct n = false then .next s
  else match s.portStop n with
    | some st => .next (s.opDone n st)
    | none =>
      if s.imageFlag n 2 = false then .next (s.opDone n .badArg)
      else
        let s := match x with
          | .entry i g t => s.adminEntry p i.toNat g.toNat t.toNat
          | .length k => s.wr (NP_GCL_ALEN.LEN p) k.toNat
          | .base sec ns => ((s.setReg (NP_GCL_ABASE_NS p) ns).setReg (NP_GCL_ABASE_SL p) (sec.setWidth 32)).setReg (NP_GCL_ABASE_SH p)
              ((sec >>> 32).setWidth 32)
          | .cycle ns => s.setReg (NP_GCL_ACYCLE p) ns
          | .extension ns => s.setReg (NP_GCL_AEXT p) ns
        .next (s.opDone n .ok)

/-- GCL_COMMIT (R408, R419). -/
def execGclCommit (e : Fin 48) (s : State) : Res :=
  let n := e.val
  if s.canAct n = false then .next s
  else match s.portStop n with
    | some st => .next (s.opDone n st)
    | none =>
      if s.imageFlag n 2 = false then .next (s.opDone n .badArg)
      else .next ((s.gateCommit (n / 4) (.engine e)).opDone n .ok)

/-! ## MDIO (R423) -/

/-- MD_CMD (R423): one frame starts; a write while BUSY is ignored and sets OVR. -/
def execMdCmd (m : Fin 2) (v : Word) (s : State) : Res :=
  let n := m.val
  if s.regExists (MD_CMD n) = false ∨ s.runs .nser = false then .next s
  else if s.bit (MD_STAT.BUSY n) then .next (s.on (MD_STAT.OVR n))
  else
    let s := { s with mdio := tabPut (fun _ => (0 : Word)) s.mdio n v }
    .next ((s.on (MD_STAT.BUSY n)).emit (.mdio n v))

/-- Whether an MDIO command reads (R429). -/
def mdioReads (v : Word) : Bool :=
  if fldOf (MD_CMD.C45 0) v = 1 then decide (2 ≤ fldOf (MD_CMD.OP 0) v) else decide (fldOf (MD_CMD.OP 0) v ≠ 1)

/-- MDIO_FRAME_DONE (R423). -/
def execMdioFrameDone (m : Fin 2) (data : BitVec 16) (s : State) : Res :=
  let n := m.val
  if s.bit (MD_STAT.BUSY n) then
    let v := tabGet (fun _ => (0 : Word)) s.mdio n
    let s := if mdioReads v then s.wr (MD_DATA.RDATA n) data.toNat else s
    .next ((s.off (MD_STAT.BUSY n)).on (MD_STAT.DONE n))
  else .next s

end Sys2Proof.Machine
end

