-- ==== Sys2Proof/Machine/Clocks.lean ====
section
/-!
DEFINITION. The clocks (R566 to R581): the REFCLK monitor and the level-1 failure, the PLLs, becalm and its resumption, and the meanings of
their commands.
-/
namespace Sys2Proof.Machine

/-! ## The time base's clock (R273, R576) -/

/-- COARSE brought up to date: set while PPLL is out of lock, REFCLK is outside its window, or the time base waits for its step of a
resumption (R273). The count goes on from the value it has reached. A time base in reset sets no event. At the end of COARSE a PPS servo
that has started restarts (R283). -/
def State.coarseRefresh (s : State) : State :=
  let c := !s.bit CK_STAT.REFCLK_OK || s.rd (CK_PLL.STATE 1) != 3 || s.clk.timeHold
  if c = s.coarse then s
  else
    let s := { s with time := { s.time with cyc := s.now, phase := 0, mon := 0 } }
    let s := s.put TB_STAT.COARSE c
    if c then (if s.stopped.reset.contains .time then s else s.on TB_EVT.COARSE)
    else if s.time.pps.started then s.ppsRestart else s

/-- The count changes between REFCLK and MONOSC (R273): whatever part of a cycle had passed starts anew. -/
def State.clockMoved (s : State) : State :=
  if s.coarse then { s with time := { s.time with phase := 0, mon := 0 } } else s

/-! ## The REFCLK monitor (R570, R575, R576) -/

/-- Whether the monitor is warming: TB_MONCAL has not completed its first 16 windows (R570). -/
def State.monWarming (s : State) : Bool := decide (s.time.windows.length < 16)

/-- W of the window in progress: 480, or 10,000 ns over the MONOSC period (R570). TB_MONCAL is in 2^−24 ns. -/
def State.monWindow (s : State) : Nat :=
  let p := (s.reg TB_MONCAL).toNat
  if s.monWarming ∨ p = 0 then 480 else (2 * 10000 * 0x1000000 + p) / (2 * p)

/-- Whether a window with count c is good (R570). -/
def State.monGood (s : State) (c : Nat) : Bool :=
  if s.monWarming then decide (225 ≤ c) && decide (c ≤ 275) else decide (245 ≤ c) && decide (c ≤ 255)

/-- REFCLK leaves its window (R575): AON and the time base move to MONOSC. forced tells that the multiplexers forced the switch, because
REFCLK shows no edge (R572; they count as one switch). -/
def State.refclkFail (s : State) (forced : Bool) : State :=
  let s := ((s.off CK_STAT.REFCLK_OK).on CK_STAT.LEVEL1).on CK_STAT.AON_MONOSC
  let s := { s with clk := { s.clk with level1At := s.time.tick }, time := { s.time with dirty := true } }
  let s := (s.clockMoved.coarseRefresh.inc CK_CNT_LEVEL1).on CK_EVT.LEVEL1
  let s := if forced then (s.inc CK_CNT_FORCESW).on CK_EVT.FORCED_SW else s
  (s.fire clkFail).event Ev.CLK_FAIL [s.rd CK_MON.COUNT, s.rd CK_MON.WINDOW]

/-- PLL n starts to acquire (R571, R573). -/
def State.pllAcquire (s : State) (n : Nat) : State :=
  let s := (s.wr (CK_PLL.STATE n) 1).wr (CK_PLL.GOOD n) 0
  { s with clk := { s.clk with gatedAt := tabPut (fun _ => 0) s.clk.gatedAt n 0 } }

/-- Whether PLL n is enabled (R568). -/
def State.pllEnabled (s : State) (n : Nat) : Bool :=
  match n with | 3 => s.bit CK_CFG.SPLL1_EN | 4 => s.bit CK_CFG.DPLL_EN | _ => true

/-- REFCLK is back in its window (R576): PLLs in LOST acquire again, and a level-1 failure ends. -/
def State.clkRestored (s : State) : State :=
  let s := s.on CK_STAT.REFCLK_OK
  let s := if s.bit CK_STAT.LEVEL1 then
      let us := (s.time.tick - s.clk.level1At) / 1000
      let s := ((s.off CK_STAT.LEVEL1).off CK_STAT.AON_MONOSC).on CK_EVT.RESTORED
      (s.clockMoved.coarseRefresh).event Ev.CLK_RESTORED [us]
    else s.coarseRefresh
  (List.range 5).foldl (fun s n => if s.rd (CK_PLL.STATE n) = 4 then s.pllAcquire n else s) s

/-- REFCLK_MONITOR_WINDOW (R570): a window ends with the count given. -/
def execRefclkMonitorWindow (count : BitVec 9) (s : State) : Res :=
  let w := s.monWindow
  let good := s.monGood count.toNat
  let run := if good then min 8 (s.rd CK_MON.GOOD + 1) else 0
  let s := ((s.wr CK_MON.COUNT count.toNat).wr CK_MON.WINDOW w).wr CK_MON.GOOD run
  let s := if good then s else s.inc CK_CNT_BADWIN
  if s.bit CK_STAT.REFCLK_OK then .next (if good then s else s.refclkFail false)
  else .next (if run = 8 then s.clkRestored else s)

/-- REFCLK_EDGE_TIMEOUT (R570): 32 MONOSC cycles have passed with no REFCLK edge. -/
def execRefclkEdgeTimeout (s : State) : Res :=
  let s := s.wr CK_MON.GOOD 0
  .next (if s.bit CK_STAT.REFCLK_OK then s.refclkFail true else s)

/-! ## PLLs in use (R568, R569, R571) -/

/-- E of PLL n and its tolerance (R568, R574). -/
def State.pllCount (s : State) (n : Nat) : Nat × Nat :=
  match n with
  | 0 | 1 => (40960, 8)
  | 2 | 3 => (25600, 5)
  | _ =>
    let rate := [3200, 3600, 4000, 4400, 4800, 5200, 5600].getD (min 6 (s.rd CK_CFG.DPLL_RATE)) 5600
    let e := 512 * rate / 25
    (e, e / 5000)

/-- The domains that PLL n feeds (R568). -/
def pllDomains (n : Nat) : List Domain :=
  match n with
  | 0 => [.core]
  | 1 => [.port, .time]
  | 2 => [.hser]
  | 3 => [.nser]
  | _ => [.ddr]

/-- Whether domain d has been released and is not stopped by STILL (R569). -/
def State.released (s : State) (d : Domain) : Bool := !(s.stopped.reset.contains d || s.stopped.power.contains d)

/-- Whether PLL n is in use (R569). In STILL no loss of lock is a becalm (R580). -/
def State.pllInUse (s : State) (n : Nat) : Bool :=
  s.pllEnabled n && s.rd (CK_PLL.STATE n) == 3 && (pllDomains n).any s.released
    && s.rd PW_STAT.STATE != 3 && s.rd PW_STAT.STATE != 5

/-! ## CLKOUT (R581) -/

/-- The frequency of a CLKOUT source in Hz (R581). The CORE and AON clocks count as they are switched. -/
def State.clkoutHz (s : State) (sel : Nat) : Nat :=
  match sel with
  | 1 => 48000000
  | 2 | 3 => 1000000000
  | 4 => 125000000
  | 5 | 6 => 625000000
  | 7 => (s.pllCount 4).1 * 25000000 / 1024
  | 8 => if s.rd (CK_PLL.STATE 0) = 3 then 1000000000 else if s.bit CK_STAT.LEVEL1 then 48000000 else 25000000
  | 9 => if s.bit CK_STAT.AON_MONOSC then 48000000 else 25000000
  | 11 => (s.pllCount 4).1 * 25000000 / 4096
  | _ => 25000000

/-- The divisor of CLKOUT in force (R581). -/
def State.clkoutDiv (s : State) : Nat :=
  max (s.rd CK_CLKOUT.DIV + 1) (divUp (s.clkoutHz (s.rd CK_CLKOUT.SEL)) 200000000)

/-- CLAMP brought up to date (R581): whether the divisor is above the one written; the event when it comes to be. -/
def State.clkoutRefresh (s : State) : State :=
  let c := s.clkoutDiv != s.rd CK_CLKOUT.DIV + 1
  let was := s.bit CK_CLKOUT.CLAMP
  let s := s.put CK_CLKOUT.CLAMP c
  if c && !was then s.on CK_EVT.CLKOUT_CLAMP else s

/-- A write of CK_CLKOUT (R581): CLAMP shows that the divisor is above the one written. -/
def State.clkoutWrite (s : State) (o : Origin) (v : Word) : State :=
  let s := (s.regStore o CK_CLKOUT v).clkoutRefresh
  if s.bit CK_CLKOUT.CLAMP then s.on CK_EVT.CLKOUT_CLAMP else s

/-! ## Becalm (R577, R578) -/

/-- Every output takes its safe state (R70, R293, R422, R577), if it is not already there. -/
def State.forceSafe (s : State) : State :=
  let s := if s.released .time && !s.time.tpoCut then s.tpoBecalm else s
  if s.clk.forced then s
  else
    let s := { s with
      clk := { s.clk with forced := true }
      stopped := { s.stopped with becalm := s.stopped.becalm.filter (fun d => d != Domain.port) ++ [.port] } }
    let s := if s.released .port then (List.range 16).foldl (fun s n => (s.portBecalm n).twBecalm n) s else s
    if s.released .nser then (List.range 12).foldl State.netBecalm s else s

/-- Domain d stands still for becalm. -/
def State.becalmStop (s : State) (d : Domain) : State :=
  let s : State := { s with stopped := { s.stopped with becalm := s.stopped.becalm.filter (fun x => x != d) ++ [d] } }
  if d = .ddr then s.refreshFull else s

/-- The Sahoz links and the host link go down (R313, R349, R463). -/
def State.serdesDown (s : State) : State :=
  let s := (List.range 4).foldl (fun s l => if s.canDrop l then s.dropLink l lkDetect else s) s
  if s.bit HI_STAT.LINK_UP then s.hostDown else s

/-- What the loss of PLL n does to the domains it feeds (R578). -/
def State.domainsLost (s : State) (n : Nat) : State :=
  match n with
  | 0 =>
    let s := s.becalmStop .core
    { s with stopped := { s.stopped with partBecalm := [.engines, .host] } }
  | 1 => { s with clk := { s.clk with timeHold := true } }
  | 2 => if s.stopped.becalm.contains .hser then s else s.serdesDown.becalmStop .hser
  | 3 => s.becalmStop .nser
  | _ => s.ddrSleep.becalmStop .ddr

/-- The device enters becalm, or PLLs of the list join the one in progress (R577, R580). -/
def State.enterBecalm (s : State) (plls : List Nat) : State :=
  let first := !s.bit CK_STAT.BECALM
  let cause := (plls.map (fun n => 2 ^ n)).sum
  let s := if first then { s with time := { s.time with cutTold := false } } else s
  let s := s.forceSafe
  let s := { s with clk := { s.clk with resume := none } }
  let s := (s.off CK_STAT.BECALM_READY).off CK_STAT.ACK_WAIT
  let s :=
    if first then
      let s := { s with clk := { s.clk with becalmAt := s.time.tick } }
      let s := (s.wr CK_BECALM.CAUSE cause).put CK_BECALM.REFCLK (s.bit CK_STAT.LEVEL1)
      let s := (((s.on CK_STAT.BECALM).fire 2045).inc CK_CNT_BECALM).on CK_EVT.BECALM
      s.event Ev.BECALM [cause, s.rd CK_STAT.LEVEL1]
    else s.wr CK_BECALM.CAUSE (s.rd CK_BECALM.CAUSE ||| cause)
  plls.foldl State.domainsLost s

/-! ## Loss of lock (R571) -/

/-- PLL n loses lock (R571): counted and recorded, with how it stands to a becalm (0 not in use, 1 began one, 2 joined one). It acquires
again at once where REFCLK is in its window. -/
def State.lockLost (s : State) (inUse : Bool) (n : Nat) : State :=
  let how := if inUse then (if s.bit CK_STAT.BECALM then 2 else 1) else 0
  let st := s.rd (CK_PLL.STATE n)
  let count := s.rd (CK_PLL.COUNT n)
  let s := ((s.inc CK_CNT_LOCKLOST).on CK_EVT.LOCK_LOST).event Ev.PLL_LOCK_LOST [n, count, how]
  let s := s.wr (CK_PLL.GOOD n) 0
  let s := s.wr (CK_PLL.STATE n) (if st = 3 ∧ s.bit CK_STAT.REFCLK_OK = false then 4 else 1)
  { s with clk := { s.clk with gatedAt := tabPut (fun _ => 0) s.clk.gatedAt n 0 } }

/-- The PLLs of a list lose lock together (R571, R577, R580). -/
def State.loseLocks (s : State) (plls : List Nat) : State :=
  let used := plls.filter s.pllInUse
  let s := plls.foldl (fun s n => s.lockLost (used.contains n) n) s
  let s := if used.isEmpty then s else s.enterBecalm used
  s.coarseRefresh.clkoutRefresh

/-! ## Windows and lock (R571, R573) -/

/-- PLL n is GATED once its lock detector is asserted and four windows in a row are within tolerance (R571). -/
def State.pllGate (s : State) (n : Nat) : State :=
  if s.rd (CK_PLL.STATE n) = 1 ∧ s.clk.detects.contains n ∧ s.rd (CK_PLL.GOOD n) = 4 then
    let s := s.wr (CK_PLL.STATE n) 2
    { s with clk := { s.clk with gatedAt := tabPut (fun _ => 0) s.clk.gatedAt n s.time.tick } }
  else s

/-- PLL_WINDOW (R571): a window of PLL n ends with the count given, or none: it did not complete in twice its length. A PLL whose lock
detector is not asserted has no lock to lose. -/
def execPllWindow (n : Fin 5) (count : Option (BitVec 24)) (s : State) : Res :=
  let k := n.val
  let st := s.rd (CK_PLL.STATE k)
  if st = 0 ∨ st = 4 then .next s
  else
    let (e, tol) := s.pllCount k
    let ok := match count with
      | some c => decide (e - tol ≤ c.toNat) && decide (c.toNat ≤ e + tol)
      | none => false
    let s := match count with | some c => s.wr (CK_PLL.COUNT k) c.toNat | none => s
    if ok then .next ((s.wr (CK_PLL.GOOD k) (min 4 (s.rd (CK_PLL.GOOD k) + 1))).pllGate k)
    else if st = 1 ∧ s.clk.detects.contains k = false then .next (s.wr (CK_PLL.GOOD k) 0)
    else .next (s.loseLocks [k])

/-- PLL_LOCK_DETECT (R571): the analog lock detectors of the PLLs of a mask assert, or have deasserted for 100 ns. -/
def execPllLockDetect (plls : BitVec 5) (on : Bool) (s : State) : Res :=
  let ns := (List.range 5).filter (fun n => plls.getLsbD n)
  let rest := s.clk.detects.filter (fun n => !ns.contains n)
  if on then
    let s := { s with clk := { s.clk with detects := rest ++ ns } }
    .next (ns.foldl (fun s n => if s.rd (CK_PLL.STATE n) = 1 ∧ s.clk.detects.contains n then s.pllGate n else s)
      (ns.foldl (fun s n => if s.rd (CK_PLL.STATE n) = 1 then s.wr (CK_PLL.GOOD n) 0 else s) s))
  else
    let lost := ns.filter (fun n =>
      let st := s.rd (CK_PLL.STATE n)
      s.clk.detects.contains n && (st == 1 || st == 2 || st == 3))
    .next (({ s with clk := { s.clk with detects := rest } } : State).loseLocks lost)

/-- A PLL of CAUSE no longer holds READY back (R579): it is LOCKED, or no longer enabled. -/
def State.causeMet (s : State) (n : Nat) : Bool :=
  !(s.rd CK_BECALM.CAUSE).testBit n || !s.pllEnabled n || s.rd (CK_PLL.STATE n) == 3

/-- Resumption starts with its clocks step (R579): the stopped domains are on their PLLs. -/
def State.startResume (s : State) : State := { s with clk := { s.clk with resume := some 0, resumeAt := s.time.tick } }

/-- BECALM_READY (R579), once every PLL of CAUSE is LOCKED: resumption starts, or HSER alone restarts and the acknowledgement is
awaited. -/
def State.becalmReady (s : State) : State :=
  if s.bit CK_STAT.BECALM && !s.bit CK_STAT.BECALM_READY && (List.range 5).all s.causeMet then
    let s := (s.on CK_STAT.BECALM_READY).on CK_EVT.BECALM_READY
    if s.bit CK_CFG.RESUME then
      let s := s.on CK_STAT.ACK_WAIT
      { s with stopped := { s.stopped with becalm := s.stopped.becalm.filter (fun d => d != Domain.hser) } }
    else s.startResume
  else s

/-- Domain d no longer waits for its PLL. -/
def State.pllStarts (s : State) (d : Domain) : State :=
  { s with stopped := { s.stopped with pll := s.stopped.pll.filter (fun x => x != d) } }

/-- The domains of PLL n switch from bypass to it (R573, R574): network ports that a stopped SPLL1 kept down restart, DRAM initialisations that
waited begin, and after a change of rate the controllers retrain. In a chain-synchronous release the links start with SPLL0 (R599). -/
def State.pllTaken (s : State) (n : Nat) : State :=
  match n with
  | 3 =>
    let s := s.pllStarts .nser
    (List.range 12).foldl (fun s p =>
      if s.bit (NP_CTRL.PWR_OFF p) then s else s.setNet p { s.net p with drained := false }) s
  | 4 =>
    let s := (s.pllStarts .ddr).refreshFull
    let s := if s.clk.retrain ∧ s.stopped.becalm.contains .ddr = false then
        let s := (List.range 2).foldl (fun s c => if s.rd (DDR_STAT.STATE c) = ddrSelfRefresh then s.ddrTake c else s) s
        { s with clk := { s.clk with retrain := false } }
      else s
    if s.stopped.becalm.contains .ddr then s else s.ddrUnwait
  | 2 =>
    if s.bit RST_STAT.FORM ∧ s.rd RST_STAT.PHASE = 1 then
      ({ s with stopped := { s.stopped with reset := s.stopped.reset.filter (fun d => d != Domain.hser) } } : State).linksStart
    else s
  | _ => s

/-- PLL_LOCKED (R571, R573): 64 µs after its entry to GATED, PLL n is LOCKED and drives its domains. forced tells that a multiplexer found no
falling edge of the old clock in 16 cycles (R572). -/
def execPllLocked (n : Fin 5) (forced : Bool) (s : State) : Res :=
  let k := n.val
  if s.rd (CK_PLL.STATE k) ≠ 2 then .next s
  else
    let s := s.runTo (tabGet (fun _ => 0) s.clk.gatedAt k + 64000)
    let s := s.wr (CK_PLL.STATE k) 3
    let s := { s with clk := { s.clk with lockedAt := s.time.tick, gatedAt := tabPut (fun _ => 0) s.clk.gatedAt k 0 } }
    let s := s.on CK_EVT.RELOCKED
    let s := if forced then (s.inc CK_CNT_FORCESW).on CK_EVT.FORCED_SW else s
    .next ((s.pllTaken k).coarseRefresh.clkoutRefresh).becalmReady

/-! ## Resumption (R579) -/

/-- RESUME_ACK (R579): a write of CK_CTRL with RESUME_ACK = 1, on the record; early while READY is 0. -/
def execResumeAck (o : Origin) (s : State) : Res :=
  let s := s.configWrite o CK_CTRL 1 0
  if s.bit CK_STAT.BECALM_READY = false then .next (s.on CK_EVT.ACK_EARLY)
  else if s.bit CK_STAT.ACK_WAIT then .next (s.off CK_STAT.ACK_WAIT).startResume
  else .next s

/-- Domain d runs again after becalm. -/
def State.becalmStart (s : State) (d : Domain) : State :=
  let s : State := { s with stopped := { s.stopped with becalm := s.stopped.becalm.filter (fun x => x != d) } }
  if d = .ddr then s.refreshFull else s

/-- Part p of CORE runs again after becalm. -/
def State.becalmPart (s : State) (p : Part) : State :=
  { s with stopped := { s.stopped with partBecalm := s.stopped.partBecalm.filter (fun x => x != p) } }

/-- What waited for the queue fabric is done when it runs: records, firings and host writes (R224, R544, R555). -/
def State.coreRuns (s : State) : State := (s.flushHeld.unlatch).flushEndpoint

/-- The serial outputs and network ports leave their safe states (R70, R160, R422), and the drain limits count again (R496). rxd is the
level of each RXD pad, true for mark. -/
def State.portsResume (s : State) (rxd : BitVec 16) : State :=
  let s := { s.becalmStart .port with clk := { (s.becalmStart .port).clk with forced := false } }
  let s := (List.range 16).foldl (fun s n =>
    match (s.port n).reload with
    | some r =>
      let gone := s.time.tick - max s.clk.becalmAt r.since
      s.setPort n { s.port n with reload := some { r with since := r.since + gone } }
    | none => s) s
  let s := if s.released .port then
      (List.range 16).foldl (fun s n => (s.portResume n (rxd.getLsbD n)).twResume n) s
    else s
  let s := s.becalmStart .nser
  (List.range 12).foldl (fun s p => s.off (NP_STAT.FORCED_DOWN p)) s

/-- The host step of a resumption ends becalm (R579). -/
def State.endBecalm (s : State) : State :=
  let us := sat32 ((s.time.tick - s.clk.becalmAt) / 1000)
  let s := ((s.off CK_STAT.BECALM).off CK_STAT.BECALM_READY).off CK_STAT.ACK_WAIT
  let s := (s.setReg CK_BECALM_US (BitVec.ofNat 32 us)).on CK_EVT.BECALM_END
  let s := s.event Ev.BECALM_END [s.rd CK_BECALM.CAUSE, us, s.rd CK_CFG.RESUME]
  { s with clk := { s.clk with resume := none } }

/-- The watchdog counts of engines that stood still go on where they stopped (R375, R393). -/
def State.watchdogsResume (s : State) : State :=
  if s.stopped.partBecalm.contains .engines then
    let gone := s.time.tick - s.clk.becalmAt
    { s with engines := tabMap Engine.reset (fun _ x => { x with wdog := x.wdog.map (· + gone) }) s.engines }
  else s

/-- One step of a resumption after the clocks step (R579): memories, queue fabric and CORE, time base, ports, engines and supervisors,
host interface and links. -/
def State.resumeStep (s : State) (k : Nat) (rxd : BitVec 16) : State :=
  match k with
  | 1 =>
    let s := s.becalmStart .ddr
    let s := if s.clk.retrain then s else if s.rd (CK_PLL.STATE 4) = 3 then s.ddrAwake else s
    if s.rd (CK_PLL.STATE 4) = 3 then s.pllTaken 4 else s
  | 2 =>
    let s := s.becalmStart .core
    (if s.partRuns .eic then s.sampleInputs else s).coreRuns
  | 3 =>
    let s := { s with clk := { s.clk with timeHold := false } }
    s.coarseRefresh.tpoResume
  | 4 => s.portsResume rxd
  | 5 => (s.watchdogsResume).becalmPart .engines
  | _ => ((s.becalmPart .host).becalmStart .hser).endBecalm

/-! ## CK_CFG (R568, R574) -/

/-- A write of CK_CFG: a PLL that is enabled acquires, one that is disabled stops once its domain is out of use, and a new rate takes the
DPLL through acquisition, with DRAM in self-refresh. -/
def State.ckCfg (s : State) (o : Origin) (v : Word) : State :=
  let old := s.reg CK_CFG
  let s := s.regStore o CK_CFG v
  let new := s.reg CK_CFG
  let moved (b : Nat) : Bool := old.getLsbD b != new.getLsbD b
  let s :=
    if moved 1 = false then s
    else if new.getLsbD 1 then
      ({ s with clk := { s.clk with nserStop := false } } : State).pllAcquire 3
    else
      (List.range 12).foldl State.netDrain { s with clk := { s.clk with nserStop := true } }
  let rate (w : Word) : Nat := min 6 (fldOf CK_CFG.DPLL_RATE w)
  let other := decide (rate old ≠ rate new)
  if moved 2 || (new.getLsbD 2 && other) then
    if old.getLsbD 2 = false then s.pllAcquire 4
    else ({ s with clk := { s.clk with dpllStop := true, retrain := s.clk.retrain || other } } : State).refreshFull.dpllSettle
  else s

/-- A write of CK_CFG with what follows it: CLKOUT's divisor (R581), and a becalm that waited for a PLL now disabled (R579). -/
def State.ckCfgWrite (s : State) (o : Origin) (v : Word) : State := (s.ckCfg o v).clkoutRefresh.becalmReady

/-- PLL_ENABLE_WRITE (R568): a write of CK_CFG that changes SPLL1_EN or DPLL_EN. -/
def execPllEnableWrite (o : Origin) (v : Word) (s : State) : Res := .next (s.ckCfgWrite o v)

/-- DPLL_RATE_CHANGE (R574): a write of CK_CFG that changes DPLL_RATE. -/
def execDpllRateChange (o : Origin) (v : Word) (s : State) : Res := .next (s.ckCfgWrite o v)

/-! ## Reads -/

/-- CK_STAT as read (R583). -/
def State.ckStat (s : State) : Word :=
  let locked := ((List.range 5).map (fun n => if s.rd (CK_PLL.STATE n) = 3 then 2 ^ n else 0)).sum
  let bypass := ((List.range 5).map (fun n =>
    let st := s.rd (CK_PLL.STATE n)
    let fed := (pllDomains n).any (fun d => s.released d && !s.stopped.becalm.contains d)
    if s.pllEnabled n && (st == 1 || st == 2) && (fed || n == 4 && s.released .ddr) then 2 ^ n else 0)).sum
  let v := fldPut CK_STAT.MON_WARMING (s.reg CK_STAT) s.monWarming.toNat
  fldPut CK_STAT.BYPASS (fldPut CK_STAT.LOCKED v locked) bypass

end Sys2Proof.Machine
end

