-- ==== Sys2Proof/Machine/Enumerate.lean ====
section
/-!
DEFINITION. The enumeration of the chain (R319 to R325): probes in depth-first order, device numbers, links set aside, route tables;
and members that are lost (R335, R336).
-/
namespace Sys2Proof.Machine

/-! ## Device numbers (R322) -/

/-- The number that a member with serial number sn holds now, if it holds one and is not lost. -/
def State.numberOf (s : State) (sn : BitVec 128) : Option Nat :=
  (s.chain.map.find? (fun e => e.2.present && !e.2.lost && e.2.sn == sn)).map Prod.fst

/-- Whether another member than sn holds number d. -/
def State.numberTaken (s : State) (sn : BitVec 128) (d : Nat) : Bool :=
  let e := s.mapEntry d
  e.present && !e.lost && e.sn != sn

/-- Rule 3 of R322: the lowest free number that is neither pinned nor sticky for another member. -/
def State.lowestFree (s : State) (sn : BitVec 128) : Option Nat :=
  ((List.range 64).drop 1).find? (fun d => !s.numberTaken sn d && !s.chain.pins.any (fun p => p.2 == d && p.1 != sn)
    && !s.chain.sticky.any (fun p => p.2 == d && p.1 != sn))

/-- The number of a member with serial number sn (R322), and whether its pinned number was taken. -/
def State.chooseNumber (s : State) (sn : BitVec 128) : Option Nat × Bool :=
  match s.chain.pins.find? (fun p => p.1 == sn) with
  | some p => if s.numberTaken sn p.2 then (s.lowestFree sn, true) else (some p.2, false)
  | none =>
    match s.chain.sticky.find? (fun p => p.1 == sn) with
    | some p => if s.numberTaken sn p.2 then (s.lowestFree sn, false) else (some p.2, false)
    | none => (s.lowestFree sn, false)

/-- The words of a serial number, low word first. -/
def snWords (sn : BitVec 128) : List Nat := (List.range 4).map (fun i => (sn.extractLsb' (32 * i) 32).toNat)

/-! ## Links set aside (R321, R323) -/

/-- Device x is told the new state of its link l: 2 STANDBY, 3 UP, 4 + c HELD with cause c. -/
def State.tellLink (s : State) (x l code : Nat) : State :=
  s.trySend (s.cellTo 3 x (.manage [BitVec.ofNat 32 l, BitVec.ofNat 32 code]))

/-- Link l of this device takes the state that the root gives it. -/
def State.linkTold (s : State) (l code : Nat) : State :=
  if code = 2 then (if s.linkState l = lkUp then s.toLinkState l lkStandby else s)
  else if code = 3 then (if s.linkState l = lkStandby then s.toLinkState l lkUp else s)
  else if 4 < code then s.holdLink l (code - 4) none
  else s

/-- The root gives link l of device x a state. -/
def State.giveLink (s : State) (x l code : Nat) : State :=
  if x = 0 then s.linkTold l code else s.tellLink x l code

/-- The root holds link l of device x at both ends, with a cause and an event (R323). -/
def State.holdBoth (s : State) (x l cause ev : Nat) : State :=
  ((((s.giveLink x l (4 + cause)).emit (.hold x l cause)).on CH_EVT.HELD).event ev [l])

/-- A member x reports a change of its link l (R325): a partner there that sleeps is marked so (R337), and an enumeration is due. -/
def State.linkReported (s : State) (x l what : Nat) : State :=
  let s := if what = 7 ∧ s.role = 1 then
      match s.chain.map.find? (fun e => e.2.present && !e.2.lost && e.2.parent == x && e.2.parentLink == l) with
      | some e => s.asleepThrough e.1
      | none => s
    else s
  s.enumAsk

/-! ## Lost members (R336) -/

/-- Outstanding reads of device d are completed as failed. -/
def State.failReads (s : State) (d st : Nat) : State :=
  (s.chain.reads.filter (fun r => r.dev == d)).foldl (fun s r => s.failRead r st) s

/-- Whether abort a waits for device d: it runs there, or a command that it has stopped does. -/
def State.abortAwaits (s : State) (d : Nat) (a : AbortSlot) : Bool :=
  (a.away && a.dev == d) || s.host.cmds.any (fun c => c.owner.isNone && c.away && entryDev c.entry == d && a.tags.contains c.tag)

/-- The host's commands aimed at device d complete DEVICE_LOST, and the aborts that wait for d end with them, each with ABORT_LATE
(R28, R336, R459). -/
def State.commandsLost (s : State) (d : Nat) : State :=
  if d = s.ownNum then s
  else
    let late := s.host.aborts.filter (s.abortAwaits d)
    let s := late.foldl (fun s a => s.giveWay Ev.ABORT_LATE 4 1 6 d [a.tag]) s
    let s := (s.host.cmds.filter (fun c => c.owner.isNone && entryDev c.entry == d)).foldl
      (fun s c => s.finish c stDeviceLost c.count c.seen c.out) s
    (late.filter (·.away)).foldl (fun s a => s.endAbort a stDeviceLost) s

/-- The cells that still wait on a link for device d leave it, with MEMBER_LOST (R336); credits are held only by cells on their way, which
return them (R316). -/
def State.cellsLost (s : State) (d : Nat) : State :=
  (List.range 4).foldl (fun s l =>
    let k := s.link l
    let (gone, rest) := k.waiting.partition (fun c => c.dst.val == d)
    if gone.isEmpty then s else gone.foldl (fun s c => s.strand c 3) (s.setLink l { k with waiting := rest })) s

/-- Member d is declared lost (R336). -/
def State.loseMember (s : State) (d : Nat) : State :=
  let e := s.mapEntry d
  let s := (s.failReads d 3).cellsLost d
  let s := s.commandsLost d
  let s := ((s.setMapEntry d { e with lost := true }).showMembers).memberLines d 0
  let s := (s.on CH_EVT.MEMBER_LOST).inc CH_CNT_LOST
  (s.event Ev.MEMBER_LOST (d :: snWords e.sn)).fire 2042

/-- MEMBER_LOST (R336): member d has had no route, or has answered no heartbeat, for CH_LOSTTMO. No device that sleeps is lost. -/
def execMemberLost (d : Fin 64) (s : State) : Res :=
  let e := s.mapEntry d.val
  if s.role ≠ 1 ∨ e.present = false ∨ e.lost ∨ e.asleep then .next s
  else .next ((s.runTo (tabGet noEdge s.chain.answered d.val + max 1 (s.rd CH_LOSTTMO.TMO_US) * 1000)).loseMember d.val)

/-- HEARTBEAT (R336): the root sends each routed member a heartbeat; the members named answer. -/
def execHeartbeat (answers : List (Fin 64)) (s : State) : Res :=
  if s.role ≠ 1 then .next s
  else
    let s := s.chain.routed.foldl (fun s d => s.emit (.heartbeat d)) s
    let a := (answers.filter (fun d => s.chain.routed.contains d.val)).foldl
      (fun a d => tabPut noEdge a d.val s.time.tick) s.chain.answered
    .next { s with chain := { s.chain with answered := a } }

/-! ## Enumeration (R321) -/

/-- ENUMERATION_START (R321): the root's supervisors begin to enumerate. -/
def execEnumerationStart (s : State) : Res := .next s.enumAsk

/-- REENUM (R325): a report of a change of link state, or CH_CTRL.REENUM written 1, which is recorded. -/
def execReenum (o : Origin) (written : Bool) (s : State) : Res :=
  let s := if written then s.regStore o CH_CTRL (s.reg CH_CTRL ||| 0x10) else s
  .next s.enumAsk

/-- FORGET (R322): the sticky map is dropped. -/
def execForget (o : Origin) (s : State) : Res :=
  let s := s.regStore o CH_CTRL (s.reg CH_CTRL ||| 8)
  .next { s with chain := { s.chain with sticky := [] } }

/-- The member that a probe of link l of device x has reached gets its number, and its routes are written (R321, R322). -/
def State.numberMember (s : State) (x l hops : Nat) (a : ProbeAnswer) : State :=
  let s := match s.numberOf a.sn with
    | some d => if a.numbered then s else s.loseMember d
    | none => s
  let (n, taken) := s.chooseNumber a.sn
  match n with
  | none => s
  | some d =>
    let s := if taken then s.event Ev.CHAIN_PIN_CONFLICT (snWords a.sn) else s
    let held := s.numberOf a.sn
    let before := s
    let old := s.routedDevices
    let s := match held with
      | some h => if h = d then s else s.setMapEntry h {}
      | none => s
    let e : MapEntry := { sn := a.sn, present := true, hops := hops, parent := x, parentLink := l }
    let s := (s.setMapEntry d e).giveLink x l 3
    let rest := s.chain.sticky.filter (fun p => p.1 != a.sn)
    let s := { s with chain := { s.chain with
      sticky := rest ++ [(a.sn, d)], met := a.sn :: s.chain.met, answered := tabPut noEdge s.chain.answered d s.time.tick } }
    let s := s.emit (.assign d a.sn d)
    let s := if x = 0 then (s.wr (LK_STAT.PARTNER_DEV l) d).on (LK_STAT.PARTNER_NUM l) else s
    let s := s.reroute before old ((old.filter (fun k => k != d && some k != held)) ++ [d])
    let s := if held = some d then s else (s.on CH_EVT.MEMBER_NEW).event Ev.MEMBER_NEW (d :: snWords a.sn)
    let below := (a.links.filter (fun k => k != a.arrival)).map (fun k => (d, k.val))
    ({ s with chain := { s.chain with probes := below ++ s.chain.probes } } : State).showMembers

/-- The answer to the probe of link l of device x (R321 to R323). -/
def State.probeAnswered (s : State) (x l : Nat) (a : ProbeAnswer) : State :=
  if s.chain.met.contains a.sn then
    let s := s.giveLink x l 2
    match s.numberOf a.sn with
    | some d => s.giveLink d a.arrival.val 2
    | none => if a.sn = s.chain.sn then s.linkTold a.arrival.val 2 else s
  else
    let hops := (if x = 0 then 0 else (s.mapEntry x).hops) + 1
    if 16 < hops then s.holdBoth x l 2 Ev.CHAIN_DEPTH
    else if s.numberOf a.sn = none ∧ 63 ≤ (s.chain.map.filter (fun e => e.2.present && !e.2.lost)).length then
      s.holdBoth x l 3 Ev.CHAIN_FULL
    else s.numberMember x l hops a

/-- ENUM_PROBE_ANSWER (R321): at the root, the probed member answers, or nothing does; at a member, the root's assignment arrives. -/
def execEnumProbeAnswer (e : ProbeEvent) (s : State) : Res :=
  match e with
  | .answer a =>
    match s.chain.probes with
    | (x, l) :: rest =>
      if s.role ≠ 1 ∨ s.bit CH_STAT.ENUM_BUSY = false then .next s
      else
        let s := { s with chain := { s.chain with probes := rest } }
        let s := match a with
          | some a => s.probeAnswered x l a
          | none => s
        .next s.enumGo
    | [] => .next s
  | .assigned l num hops =>
    if s.role ≠ 2 then .next s
    else
      let s := ((s.wr CH_STAT.DEVNUM num.val).on CH_STAT.NUMBERED).wr CH_STAT.UPLINK l.val
      let s := (s.wr CH_STAT.HOPS hops.val).off CH_STAT.ISOLATED
      let s := (List.range 4).foldl (fun s k => s.put (LK_STAT.UPSTREAM k) (k == l.val)) s
      .next (if s.linkState l.val = lkStandby then s.toLinkState l.val lkUp else s)

end Sys2Proof.Machine
end

