-- ==== Sys2Proof/Machine/HostRegs.lean ====
section
/-!
DEFINITION. The host interface's registers and rings (R435 to R442, R452, R458): doorbells, enables, features, the completion writer,
MSI-X, the link; and aborts (R459, R460).
-/
namespace Sys2Proof.Machine

/-! ## Doorbells and enables (R440, R441) -/

/-- The head of SQ n. -/
def State.sqHead (s : State) (n : Nat) : Nat := s.rd (SQ_STAT.HEAD n)

/-- A doorbell is ignored (R441). -/
def State.badDoorbell (s : State) : State := (s.inc HI_CNT_BADDB).on HI_EVT.BAD_DB

/-- SQ_TAIL_DB (R441): the tail of ring n. -/
def execSqTailDb (n : Fin 64) (v : Word) (s : State) : Res :=
  let t := v.toNat % 0x10000
  if s.sqSize n.val ≤ t ∨ s.bit (SQ_STAT.ENABLED n.val) = false then .next s.badDoorbell
  else .next { s with host := { s.host with tails := tabPut (fun _ => 0) s.host.tails n.val t } }

/-- An MSI-X message of completion ring n (R458): entries written count from anew. -/
def State.cqMessage (s : State) (n : Nat) : State :=
  (s.setCq n { s.cq n with unsent := 0 }).sendMsix (s.rd (CQ_CFG.VEC n))

/-- CQ_HEAD_DB (R441, R458): the head of ring n; a head at the tail of a full ring consumes all of it. Unconsumed entries send a
message. -/
def execCqHeadDb (n : Fin 64) (v : Word) (s : State) : Res :=
  let k := n.val
  let h := v.toNat % 0x10000
  let x := s.cq k
  let size := s.cqSize k
  let d := (h + size - x.head) % size
  let d := if d = 0 ∧ x.written = size then size else d
  if size ≤ h ∨ s.bit (CQ_STAT.ENABLED k) = false ∨ x.written < d then .next s.badDoorbell
  else
    let s := s.setCq k { x with head := h, written := x.written - d }
    .next (if s.bit (CQ_CFG.IEN k) ∧ d < x.written then s.cqMessage k else s)

/-- Whether completion ring n is in use (R440, R469): an enabled SQ names it, or a completion for it is outstanding. -/
def State.cqBusy (s : State) (n : Nat) : Bool :=
  let h := s.host
  (List.range 64).any (fun i => s.bit (SQ_STAT.ENABLED i) && s.rd (SQ_CFG.CQ i) == n)
    || h.cmds.any (fun c => c.owner.isNone && s.rd (SQ_CFG.CQ c.ring) == n)
    || h.held.any (fun x => x.cq == n) || h.later.any (fun x => x.cq == n)
    || h.aborts.any (fun a => a.owner.isNone && a.cq == n)

/-- SQ_ENABLE (R440): SQ_CTRL.EN of ring n; EN = 1 leaves an enabled ring as it is. -/
def execSqEnable (n : Fin 64) (en : Bool) (s : State) : Res :=
  let k := n.val
  if en = false then .next ((s.off (SQ_CTRL.EN k)).off (SQ_STAT.ENABLED k))
  else if s.bit (SQ_STAT.ENABLED k) then .next s
  else if s.bit FEAT_STAT.COMMITTED = false then .next (s.wr (SQ_STAT.ERR k) 2)
  else if s.bit (CQ_STAT.ENABLED (s.rd (SQ_CFG.CQ k))) = false then .next (s.wr (SQ_STAT.ERR k) 1)
  else
    let s := ((s.on (SQ_CTRL.EN k)).on (SQ_STAT.ENABLED k)).wr (SQ_STAT.HEAD k) 0
    let s := s.wr (SQ_STAT.ERR k) 0
    .next { s with host := { s.host with tails := tabPut (fun _ => 0) s.host.tails k 0 } }

/-- CQ_ENABLE (R440): CQ_CTRL.EN of ring n; EN = 1 leaves an enabled ring as it is. -/
def execCqEnable (n : Fin 64) (en : Bool) (s : State) : Res :=
  let k := n.val
  if en then
    if s.bit (CQ_STAT.ENABLED k) then .next s
    else
      let s := ((s.on (CQ_CTRL.EN k)).on (CQ_STAT.ENABLED k)).wr (CQ_STAT.TAIL k) 0
      .next (((s.on (CQ_STAT.PHASE k)).wr (CQ_STAT.ERR k) 0).setCq k {})
  else if s.bit (CQ_STAT.ENABLED k) ∧ s.cqBusy k then .next (s.wr (CQ_STAT.ERR k) 1)
  else .next ((s.off (CQ_CTRL.EN k)).off (CQ_STAT.ENABLED k))

/-! ## Features (R437) -/

/-- A write of v to FEAT_ACCEPTi: only offered bits, and bit 0 always; nothing once committed. -/
def State.featAccept (s : State) (i : Nat) (v : Word) : State :=
  if s.bit FEAT_STAT.COMMITTED then s.on HI_EVT.FEAT_REPEAT
  else s.setReg (FEAT_ACCEPT i) (if i = 0 then (v &&& 0xF) ||| 1 else 0)

/-- FEAT_COMMIT (R437): the accepted set is fixed, on the record. -/
def execFeatCommit (o : Origin) (s : State) : Res :=
  if s.bit FEAT_STAT.COMMITTED then .next (s.on HI_EVT.FEAT_REPEAT)
  else .next ((s.on FEAT_STAT.COMMITTED).configWrite o FEAT_COMMIT 1 0)

/-! ## The completion writer (R452, R457, R458) -/

/-- Whether coalescing is in force on ring n (R458). -/
def State.coalesces (s : State) (n : Nat) : Bool := s.feature 1 && s.rd (CQ_COAL.COUNT n) != 0

/-- The source that the writer of ring n serves next (R259): the next above the last that holds a completion for it. -/
def State.nextSource (s : State) (n : Nat) : Option Completion :=
  let xs := s.host.held.filter (fun x => x.cq == n)
  let l := (s.cq n).last
  let above := xs.filter (fun x => decide (l < x.source))
  let pick := if above.isEmpty then xs else above
  let low := pick.foldl (fun m x => min m x.source) 1000
  xs.find? (fun x => x.source == low)

/-- COMPLETION_WRITE (R452, R457, R458): the payload, the entry at the tail with the ring's phase, then the message. -/
def execCompletionWrite (cq : Fin 64) (s : State) : Res :=
  let n := cq.val
  match s.nextSource n with
  | none => .next s
  | some x =>
    let r := s.cq n
    if s.hostUp = false ∨ s.bit (CQ_STAT.ENABLED n) = false ∨ s.cqSize n ≤ r.written + r.reserved then .next s
    else
      let s := { s with host := { s.host with held := s.host.held.erase x } }
      let s := x.buffer.foldl (fun s p => s.emit (.hostWrite p.1.toNat p.2)) s
      let tail := s.rd (CQ_STAT.TAIL n)
      let phase := s.bit (CQ_STAT.PHASE n)
      let (head, s) := if x.abt then ((s.freeVal 16).toNat, s.usedFree) else (s.sqHead x.sq, s)
      let base := s.pair (CQ_BASE_LO n) (CQ_BASE_HI n)
      let s := s.emit (.hostWrite (base + 32 * tail) (bytesOf (x.words head phase)))
      let wraps := decide (tail + 1 = s.cqSize n)
      let s := (s.wr (CQ_STAT.TAIL n) (if wraps then 0 else tail + 1)).put (CQ_STAT.PHASE n) (phase != wraps)
      let s := s.setCq n { r with
        written := r.written + 1, unsent := r.unsent + 1, since := if r.unsent = 0 then s.time.tick else r.since, last := x.source }
      let s := (if x.tagged then s.returnTag x.tag else s).refillSource x.source
      if s.bit (CQ_CFG.IEN n) = false then .next s
      else if s.coalesces n then .next (if s.rd (CQ_COAL.COUNT n) ≤ r.unsent + 1 then s.cqMessage n else s)
      else .next (if r.written = 0 then s.cqMessage n else s)

/-- COALESCE_TIMEOUT (R458): TIME_US after the first entry since the last message. -/
def execCoalesceTimeout (cq : Fin 64) (s : State) : Res :=
  let n := cq.val
  let r := s.cq n
  if r.unsent = 0 ∨ s.coalesces n = false ∨ s.bit (CQ_CFG.IEN n) = false then .next s
  else .next ((s.runTo (r.since + max 1 (s.rd (CQ_COAL.TIME_US n)) * 1000)).cqMessage n)

/-- MSIX_UNMASK (R458): the mask of a vector is cleared, and a held message leaves. -/
def execMsixUnmask (v : Fin 64) (s : State) : Res :=
  let n := v.val
  let s := s.off (MSIX_CTRL.MASK n)
  if s.regBit (MSIX_PBA (n / 32)) (n % 32) then .next ((s.setRegBit (MSIX_PBA (n / 32)) (n % 32) false).sendMsix n) else .next s

/-! ## The link (R435, R463, R467) -/

/-- The generation and the width that HI_LINKCFG allows the link (R464, R466). -/
def State.maxGen (s : State) : Nat := let g := s.rd HI_LINKCFG.MAX_GEN; if 1 ≤ g ∧ g ≤ 4 then g else 4
def State.maxWidth (s : State) : Nat := let w := s.rd HI_LINKCFG.MAX_WIDTH; if w = 1 ∨ w = 2 then w else 4

/-- HOST_LINK_UP (R464, R467, R600): the link trains at a generation and a width within HI_LINKCFG, on the root from the clocks step of the release on; each host target with LINE = 1 sends one message. -/
def execHostLinkUp (gen width : BitVec 3) (s : State) : Res :=
  if s.bit HI_STAT.LINK_UP ∨ s.runs .hser = false ∨ (s.rd RST_STAT.PHASE < 8 ∧ s.role ≠ 1) then .next s
  else
    let s := (((s.setReg HI_STAT 0).on HI_STAT.LINK_UP).wr HI_STAT.GEN (min gen.toNat s.maxGen)).wr HI_STAT.WIDTH
      (min width.toNat s.maxWidth)
    .next ((List.range 6).foldl (fun s t => if (s.target t).line then s.deliver t else s) (s.on HI_EVT.LINK_UP))

/-- The word of configuration space at offset a as far as R431 and R432 give it: the header's fields at the places that PCI Express gives them
(PRESUMED, log entry 181), and the serial number capability's bits [63:0] of the fused serial number. -/
def State.pciWord (s : State) (a : Nat) : Option Word :=
  let h := s.host.pci
  match a with
  | 0x00 => some (h.device ++ h.vendor)
  | 0x08 => some (h.classCode ++ h.revision)
  | 0x2C => some (h.subSystem ++ h.subVendor)
  | 0x3C => some (BitVec.ofNat 32 (h.intPin.toNat * 0x100))
  | 0x144 => some (s.reg (ID_SN 0))
  | 0x148 => some (s.reg (ID_SN 1))
  | _ => none

/-- HOST_LINK_RESET (R463): hot reset or link-down. -/
def execHostLinkReset (s : State) : Res := .next (if s.bit HI_STAT.LINK_UP then s.hostDown else s)

/-- HOST_POWER_CHANGE (R435): D3hot or D0, and Bus Master Enable, as the host writes them. -/
def execHostPowerChange (d3 bme : Bool) (s : State) : Res :=
  if s.bit HI_STAT.LINK_UP then .next ((s.wr HI_STAT.DSTATE (if d3 then 3 else 0)).put HI_STAT.BME bme) else .next s

/-! ## Aborts (R459, R460) -/

/-- The abort slots in use (R466): those of this device's doorbells. -/
def State.abortSlots (s : State) : Nat := (s.host.aborts.filter (fun a => a.owner.isNone)).length

/-- An abort doorbell that takes no tag: its completion with REJECT. -/
def State.abortReject (s : State) (dev tag cq status : Nat) : State :=
  (s.hold { source := srcAbort, cq := cq, tag := tag, reject := true, status := status, sq := (s.freeVal 6).toNat, abt := true
            dev := dev, stamp := s.now, stepSeq := s.stepSeq, tagged := false }).usedFree

/-- Command c is stopped for abort a: where it runs on another device, the stop crosses the chain and the abort waits for its tag. -/
def State.abortStop (s : State) (a : AbortSlot) (c : Cmd) : AbortSlot × State :=
  if c.away then
    ({ a with stopped := a.stopped + 1, tags := a.tags ++ [c.tag] },
     s.trySend (s.cellTo 3 (entryDev c.entry) (.abort 15 (BitVec.ofNat 16 c.tag) 0)))
  else ({ a with stopped := a.stopped + 1 }, (s.stopCmd c stAborted).loadStopped c.owner c.tag)

/-- The commands that satisfy f are stopped for abort a. -/
def State.abortStops (s : State) (a : AbortSlot) (f : Cmd → Bool) : AbortSlot × State :=
  (s.host.cmds.filter f).foldl (fun x c => x.2.abortStop x.1 c) (a, s)

/-- Whether command c works on queue k of this device. -/
def Cmd.onQueue (c : Cmd) (k : Nat) : Bool :=
  let op := entryOp c.entry
  !c.away && (op == opPush || op == opPop || op == opQcmd) && entryTarget c.entry % 0x10000 == k

/-- The ports that queue k holds mid-packet are released (R89, R460), and its open packets end (R142). -/
def State.releasePorts (s : State) (k : Nat) : State :=
  (List.range 16).foldl (fun s n =>
    [0, 1, 2, 3].foldl (fun s b =>
      if s.boundQueue (bindingReg n (b + 1)) = some k then s.setPort n ((s.port n).endTaken b) else s) (s.twRebound n (some k))) s

/-- Port n's transmit items are discarded for an abort (R460): how many, and the state; the collision hold and the stall end. The fragments of
open packets count as R142 says. -/
def State.abortPort (s : State) (n : Nat) : Nat × State :=
  let p := s.port n
  let w := s.tw n
  let slots := ((w.bufs.filter SlotBuf.counts).map SlotBuf.words).sum
  let k := p.prefetch.length + p.launchCount + slots
  let s := s.setPort n { p with
    prefetch := [], launches := [], after := none, openq := none, cutq := [], discardq := none, deFor := none, mid := none }
  let s := s.endOpen n (fun _ => true)
  let s := s.setTw n { s.tw n with bufs := (s.tw n).bufs.filter (fun b => !b.counts) }
  (k, (s.off (SP_STAT.COLL_HELD n)).noteHold n)

/-- The action of abort a on this device (R460), for the doorbell's own commands or those of chain device a.owner. -/
def State.abortHere (s : State) (a : AbortSlot) : AbortSlot × State :=
  match a.kind with
  | 1 =>
    let qs := (List.range 7).filterMap (fun b => s.boundQueue (bindingReg a.object b))
    let (a, s) := s.abortStops a (fun c => qs.any c.onQueue)
    let (k, s) := s.abortPort a.object
    if (s.tw a.object).guard.loads.isEmpty then ({ a with extra := k }, s)
    else ({ a with extra := k, port := some a.object }, s.giveWay Ev.ABORT_LATE 4 2 1 a.object [a.tag])
  | 2 =>
    let (a, s) := s.abortStops a (fun c => c.onQueue a.object)
    (a, s.releasePorts a.object)
  | 3 =>
    let st := s.ceState a.object
    if st = ceRunning ∨ st = ceGated ∨ st = ceAborting then
      ({ a with engine := some a.object }, (s.setEng a.object { s.eng a.object with started := false }).beginAbort a.object .halt)
    else (a, s)
  | 4 =>
    let (a, s) := s.abortStops a (fun c => c.owner.isNone && c.ring == a.object)
    let size := s.sqSize a.object
    let k := (s.sqTail a.object + size - s.sqHead a.object) % size
    let s := s.wr (SQ_STAT.HEAD a.object) (s.sqTail a.object)
    ({ a with extra := k }, ((s.off (SQ_CTRL.EN a.object)).off (SQ_STAT.ENABLED a.object)).wr (SQ_STAT.ERR a.object) 4)
  | _ => s.abortStops a (fun c => c.owner == a.owner && c.tag == a.object)

/-- An abort that has its slot begins: it acts, and ends when it waits for nothing (R460). -/
def State.abortRun (s : State) (a : AbortSlot) : State :=
  let (a, s) := s.abortHere a
  ({ s with host := { s.host with aborts := s.host.aborts ++ [a] } } : State).settleAborts

/-- What keeps a command or an abort from device d (R456), as its status: no route, lost, or asleep. -/
def State.awayStop (s : State) (d : Nat) : Option Nat :=
  let e := s.mapEntry d
  if s.role = 0 then some stNoRoute
  else if s.role = 1 ∧ e.lost then some stDeviceLost
  else if s.role = 1 ∧ e.asleep then some stDomainOff
  else if (s.routeTo d).isNone then some stNoRoute
  else none

/-- A transfer that status st keeps from device d: one whose power domain is down returns it, which is counted (R260). -/
def State.bounceAway (s : State) (st d : Nat) : State :=
  if st = stDomainOff then s.bounce (.chainDevice (Fin.ofNat 64 d)) 1 else s

/-- Whether an object number lies in the range of its kind (R459). -/
def abortObjectOk (kind object : Nat) : Bool :=
  match kind with
  | 1 => decide (object < 16)
  | 2 => true
  | 3 => decide (object < 48)
  | 4 => decide (object < 64)
  | 5 => decide (object < 4096)
  | _ => false

/-- A write of HI_ABT_DB by master m (R459). -/
def State.abortDoorbell (s : State) (m : Master) (kind dev object tag cq : Nat) : State :=
  if s.bit (CQ_STAT.ENABLED cq) = false then s.inc HI_CNT_BADDB
  else if 64 ≤ s.abortSlots then (s.on HI_EVT.ABT_BUSY).abortReject dev tag cq stBusy
  else if s.tagOut tag then ((s.on HI_EVT.TAG_BUSY).inc HI_CNT_REJECT).abortReject dev tag cq stTagBusy
  else if abortObjectOk kind object = false then (s.inc HI_CNT_REJECT).abortReject dev tag cq stBadField
  else
    let s := s.takeTag { tag := tag, cq := cq, sq := 0, dev := dev, abt := true }
    let dev := if 4 ≤ kind then s.ownNum else dev
    let a : AbortSlot := { tag := tag, cq := cq, kind := kind, dev := dev, object := object, org := m.origin }
    if dev = s.ownNum then s.abortRun a
    else
      let a := { a with away := true }
      let s := { s with host := { s.host with aborts := s.host.aborts ++ [a] } }
      match s.awayStop dev with
      | some st => (s.bounceAway st dev).endAbort a st
      | none => s.trySend (s.cellTo 3 dev (.abort (BitVec.ofNat 4 kind) (BitVec.ofNat 16 object) (BitVec.ofNat 12 tag)))

/-- A write of the 64 bits of HI_ABT_DB (R459). -/
def State.abortWord (s : State) (m : Master) (v : Word64) : State :=
  let f (lo w : Nat) : Nat := v.toNat / 2 ^ lo % 2 ^ w
  s.abortDoorbell m (f 0 4) (f 4 6) (f 16 16) (f 32 12) (f 48 6)

/-- A write to HI_ABT_DB by master m (R459): the lower word acts, with the upper word held for the master. -/
def State.abortWrite (s : State) (m : Master) (v : PushVal) : State :=
  match v with
  | .whole v => s.abortWord m v
  | .upper v => { s with host := { s.host with upper := tabPut (fun _ => (0 : Word)) s.host.upper m.num v } }
  | .lower v =>
    let u := tabGet (fun _ => (0 : Word)) s.host.upper m.num
    ({ s with host := { s.host with upper := tabPut (fun _ => (0 : Word)) s.host.upper m.num 0 } } : State).abortWord m (u ++ v)

/-- ABORT_SERIAL_PORT (R460). -/
def execAbortSerialPort (m : Master) (dev : Fin 64) (object : Half) (tag : BitVec 12) (cq : Fin 64) (s : State) : Res :=
  .next (s.abortDoorbell m 1 dev.val object.toNat tag.toNat cq.val)

/-- ABORT_QUEUE (R460). -/
def execAbortQueue (m : Master) (dev : Fin 64) (object : Half) (tag : BitVec 12) (cq : Fin 64) (s : State) : Res :=
  .next (s.abortDoorbell m 2 dev.val object.toNat tag.toNat cq.val)

/-- ABORT_ENGINE (R460). -/
def execAbortEngine (m : Master) (dev : Fin 64) (object : Half) (tag : BitVec 12) (cq : Fin 64) (s : State) : Res :=
  .next (s.abortDoorbell m 3 dev.val object.toNat tag.toNat cq.val)

/-- ABORT_RING (R460); DEV is ignored. -/
def execAbortRing (m : Master) (dev : Fin 64) (object : Half) (tag : BitVec 12) (cq : Fin 64) (s : State) : Res :=
  .next (s.abortDoorbell m 4 dev.val object.toNat tag.toNat cq.val)

/-- ABORT_TAG (R460); DEV is ignored. -/
def execAbortTag (m : Master) (dev : Fin 64) (object : Half) (tag : BitVec 12) (cq : Fin 64) (s : State) : Res :=
  .next (s.abortDoorbell m 5 dev.val object.toNat tag.toNat cq.val)

/-- ABORT_BAD_KIND (R459): a kind that the table does not name, k = 0 or k + 5. -/
def execAbortBadKind (m : Master) (kind : Fin 11) (dev : Fin 64) (object : Half) (tag : BitVec 12) (cq : Fin 64) (s : State) : Res :=
  .next (s.abortDoorbell m (if kind.val = 0 then 0 else kind.val + 5) dev.val object.toNat tag.toNat cq.val)

/-! ## The guardian's loads, and the aborts that wait for them (R28, R173) -/

/-- Aborts that wait for port n no longer do once its guardian loads nothing. -/
def State.portLoaded (s : State) (n : Nat) : State :=
  if (s.tw n).guard.loads.isEmpty then
    let left := s.host.aborts.map (fun a : AbortSlot => if a.port = some n then { a with port := none } else a)
    ({ s with host := { s.host with aborts := left } } : State).settleAborts
  else s

/-- GUARDIAN_COPY_CHECK (R173, R174): the check of a committed mode completes, within 1 µs. -/
def execGuardianCopyCheck (p : Fin 16) (m : Fin 4) (upset : Word) (s : State) : Res :=
  .next ((s.checkLoad p.val m.val upset).portLoaded p.val)

/-- CYCLE_BOUNDARY (R125, R175): the running cycle ends; flips are upsets of the guardian's copy since the last one. -/
def execCycleBoundary (p : Fin 16) (flips : List (Fin 777 × Word)) (s : State) : Res :=
  .next ((s.cycleEnd p.val flips).portLoaded p.val)

end Sys2Proof.Machine
end

