-- ==== Sys2Proof/Machine/Pins.lean ====
section
/-!
DEFINITION. The pins (R619 to R633): functions, pads and their levels, holds, PINLOCK, banks and the test access port, with the meanings of
their commands.
-/
namespace Sys2Proof.Machine

/-! ## Functions (R620, R621) -/

/-- A function of a pin. -/
inductive PinFn where
  | gpio
  | txd (n : Nat) | rxd (n : Nat) | de (n : Nat) | rts (n : Nat) | re (n : Nat) | cts (n : Nat)
  | tsi (k : Nat) | tpo (k : Nat)
  | mdc (m : Nat) | mdio (m : Nat)
  | clkout | pwroff
  | irq (t : Nat)
  | los (k : Nat) | modAbs (k : Nat) | txDisable (k : Nat)
  | none
  deriving DecidableEq, Repr

/-- The function that code c selects on pin p (R620). -/
def pinFn (p c : Nat) : PinFn :=
  let n := p % 16
  if c = 0 then .gpio
  else match p / 16 with
    | 0 =>
      if c = 1 then .txd n
      else if c = 5 then
        (match n with
          | 10 => .clkout | 11 => .pwroff | 12 => .mdc 0 | 13 => .mdio 0 | 14 => .mdc 1 | 15 => .mdio 1 | _ => .none)
      else .none
    | 1 =>
      if c = 1 then .rxd n
      else if c = 4 ∧ 4 ≤ n then
        (match (n - 4) % 3 with | 0 => .los ((n - 4) / 3) | 1 => .modAbs ((n - 4) / 3) | _ => .txDisable ((n - 4) / 3))
      else .none
    | 2 =>
      (match c with
        | 1 => .de n
        | 2 => .rts n
        | 3 => if n < 8 then .tsi n else .tpo (n - 8)
        | _ => .none)
    | _ =>
      (match c with
        | 1 => .cts n
        | 2 => .re n
        | 3 => if n < 8 then .tsi n else .tpo (n - 8)
        | 4 => if n < 4 then .irq (n + 2) else .none
        | 5 => (match n with
          | 0 => .mdc 0 | 1 => .mdio 0 | 2 => .mdc 1 | 3 => .mdio 1 | 4 => .clkout | 5 => .pwroff | _ => .none)
        | 6 => if n < 4 then .tpo (n + 4) else .none
        | _ => if n < 4 then .los n else .none)

/-- Whether a function is an input (R621). -/
def PinFn.input : PinFn → Bool
  | .rxd _ | .cts _ | .tsi _ | .los _ | .modAbs _ => true
  | _ => false

/-- Whether a function is a serial output. -/
def PinFn.serial : PinFn → Bool
  | .txd _ | .de _ | .rts _ | .re _ => true
  | _ => false

/-- The function that FSEL selects on pin p. -/
def State.fsel (s : State) (p : Nat) : PinFn := pinFn p (s.rd (PIN_CFG.FSEL p))

/-- The pin that function f's input is taken from: the lowest-numbered one that selects it (R622). -/
def State.pinOf (s : State) (f : PinFn) : Option Nat := (List.range 64).find? (fun p => s.fsel p == f)

/-! ## Output levels (R33, R46, R50, R621) -/

/-- Bit p of a pair of registers. -/
def State.pinBit (s : State) (lo hi p : Nat) : Bool := s.regBit (if p < 32 then lo else hi) (p % 32)

/-- Whether pads stand as in STILL or OFF_READY (R632). -/
def State.padsStill (s : State) : Bool := s.rd PW_STAT.STATE == 3 || s.rd PW_STAT.STATE == 5

/-- Whether the serial outputs take the levels of R70: in becalm, in STILL, and of a port that does not exist. -/
def State.serialSafe (s : State) : Bool := s.clk.forced || s.padsStill || !s.committed || !s.released .port

/-- TXD of port n on its logical level. -/
def State.txdLevel (s : State) (n : Nat) : Bool := levelAt (s.port n).waves s.time.tick

/-- TXD of port n as it leaves for the pad, before its inversion: LOOPBACK holds it at mark (R73). -/
def State.txdPad (s : State) (n : Nat) : Bool := s.bit (SP_CTRL.LOOPBACK n) || s.txdLevel n

/-- DE of port n as it leaves for the pad, before its inversion (R46). -/
def State.dePad (s : State) (n : Nat) : Bool :=
  if s.bit (SP_CTRL.LOOPBACK n) then false
  else match s.lineMode n with
    | 0 => false
    | 1 => s.bit (SP_CTRL.TX_EN n)
    | _ => (s.port n).de && s.deGate n

/-- RE_N of port n (R46), with RE_MODE as it is in force (R45). -/
def State.rePad (s : State) (n : Nat) : Bool :=
  match s.reMode n with
  | 0 => false
  | 1 => s.dePad n
  | _ => true

/-- RTS_N of port n: low where it is asserted (R50). -/
def State.rtsPad (s : State) (n : Nat) : Bool :=
  !(s.bit (SP_CTRL.RX_EN n) && !(s.bit (SP_FLOW.RTS_EN n) && (s.port n).stop))

/-- Bit b of SP_LINE as port n's transmitter, or for RTS_N its receiver, has it in force (R33, R45). -/
def State.lineBit (s : State) (n b : Nat) : Bool := (if b = 6 then (s.port n).rxFmt else (s.port n).txFmt).line.getLsbD b

/-- The output of function f on pin p: whether it drives, its level, and whether no rule gives the level at a tick. Inputs and no
function drive nothing. -/
def State.fnOut (s : State) (p : Nat) : PinFn → Bool × Bool × Bool
  | .gpio => (s.bit (PIN_CFG.GDIR p), s.pinBit GP_OUT_LO GP_OUT_HI p, false)
  | .txd n => (true, (s.serialSafe || s.txdPad n) != s.lineBit n 5, false)
  | .de n => (true, (!s.serialSafe && s.dePad n) != s.lineBit n 8, false)
  | .rts n => (true, (s.serialSafe || s.rtsPad n) != s.lineBit n 6, false)
  | .re n => (true, (!s.serialSafe && s.rePad n) != s.lineBit n 9, false)
  | .tpo k => (true, !s.time.tpoCut && ((s.tpo k).out != (s.tpo k).cfg.getLsbD 3), false)
  | .mdc m => (true, false, s.bit (MD_STAT.BUSY m) && !s.padsStill)
  | .mdio m => (s.bit (MD_STAT.BUSY m) && !s.padsStill, false, s.bit (MD_STAT.BUSY m) && !s.padsStill)
  | .clkout =>
    let sel := s.rd CK_CLKOUT.SEL
    let runs := !s.padsStill || [0, 1, 3, 4, 9, 10].contains sel || decide (12 ≤ sel)
    (true, false, s.bit CK_CLKOUT.EN && runs)
  | .pwroff => (true, s.rd PW_STAT.STATE == 5, false)
  | .irq t =>
    let low := if s.padsStill then !s.pins.irqHeld.getLsbD (t - 2) else (s.target t).line && s.rd (EIC_TCFG.DELIV t) == 2
    (low, false, false)
  | .txDisable k =>
    (true, s.padsStill || s.linkState k == lkDisabled || s.linkState k == lkSleep || s.rd (CK_PLL.STATE 2) != 3, false)
  | _ => (false, false, false)

/-! ## Pads (R601, R623, R624, R627, R628, R632, R633) -/

/-- The code that the fuse shadow holds for pin p from the word given (R528). -/
def State.fuseCode (s : State) (word p : Nat) : Nat :=
  let c := (tabGet (fun _ => (0 : Word)) s.shadow (word + p / 10)).toNat / 8 ^ (p % 10) % 8
  if 5 ≤ c then 0 else c

/-- The pad that a fuse code gives. -/
def codePad (c : Nat) : Pad :=
  { en := decide (c = 3) || decide (c = 4), high := decide (c = 4), pull := if c = 1 then 1 else if c = 2 then 2 else 0 }

/-- PINRST of pin p. -/
def State.pinRst (s : State) (p : Nat) : Pad := codePad (s.fuseCode 20 p)

/-- Pin p's pad with the outputs of the functions given (R623, R624): driven while an enable is active, at the OR of their levels; open
drain drives only a 0. -/
def State.drivenPad (s : State) (p : Nat) (fs : List PinFn) : Pad :=
  let outs := (fs.map (s.fnOut p)).filter (·.1)
  let high := outs.any (fun o => o.2.1)
  let loose := outs.any (fun o => o.2.2) && !high
  let open_ := s.bit (PIN_CFG.ODRAIN p) || fs.any (fun f => match f with | .irq _ => true | _ => false)
  { en := !outs.isEmpty && !(open_ && high), high := high, loose := loose
    pull := s.rd (PIN_CFG.PULL p), drv := s.rd (PIN_CFG.DRV p), slew := s.bit (PIN_CFG.SLEW p) }

/-- Whether two functions give one output that OSEL adds: not an input, nothing, or FSEL's own function (R623). -/
def PinFn.adds (f g : PinFn) : Bool := !g.input && g != PinFn.none && g != f

/-- Pin p's pad as its registers give it (R623, R624, R627). -/
def State.regPad (s : State) (p : Nat) : Pad :=
  let f := s.fsel p
  let g := pinFn p (s.rd (PIN_CFG.OSEL p))
  if s.bit (PIN_CFG.FUSE p) then s.pinRst p
  else s.drivenPad p (if s.bit (PIN_CFG.OSEL_EN p) && f.adds g then [f, g] else [f])

/-- Pin p's pad in becalm (R632). -/
def State.becalmPad (s : State) (p : Nat) : Pad :=
  let f := s.fsel p
  let safe := codePad (s.fuseCode 27 p)
  if s.bit (PIN_CFG.FUSE p) then safe
  else if f.serial then s.drivenPad p [f]
  else match f with
    | .tpo _ => { s.drivenPad p [f] with en := true, high := false, loose := false }
    | f => if f.input then { pull := safe.pull } else safe

/-- Whether the strap code is that of recovery (R597). -/
def State.recovery (s : State) : Bool := (s.reg ID_RCFG).toNat % 16 == 8

/-- Whether the test access port holds an instruction that controls the pins (R602, R633). -/
def State.testMode (s : State) : Bool := s.pins.ir == TapIr.extest || s.pins.ir == TapIr.clamp || s.pins.ir == TapIr.highz

/-- Whether a start-up hold or recovery holds pin p (R602, R628). -/
def State.frozen (s : State) (p : Nat) : Bool := s.pins.startHold.getLsbD p || s.recovery

/-- The sensed state of the bank of pin p (R619). -/
def State.bankLevel (s : State) (b : Nat) : Nat := s.rd ⟨GP_BANK, 2 * b, 2⟩

/-- What pin p's pad does now. -/
def State.pad (s : State) (p : Nat) : Pad :=
  let b := s.bankLevel (p / 16)
  if s.rst.por ∨ b = 0 ∨ b = 3 then {}
  else if s.testMode then
    (if s.pins.ir = .highz then {} else { en := s.pins.cellEn.getLsbD p, high := s.pins.cellLevel.getLsbD p })
  else if s.frozen p then tabGet Pad.reset s.pins.frozen p
  else if s.clk.forced then s.becalmPad p
  else s.regPad p

/-- The level at pin p's pad (R625): what the pad drives, or the board's level, or what the pull gives; none where no rule gives one.
A bank without a valid supply reads 0 (R619). -/
def State.padLevel (s : State) (p : Nat) : Option Bool :=
  let b := s.bankLevel (p / 16)
  let x := s.pad p
  if b = 0 ∨ b = 3 then some false
  else if x.en then (if x.loose then none else some x.high)
  else if s.pins.boardEn.getLsbD p then some (s.pins.board.getLsbD p)
  else match x.pull with
    | 1 => some true
    | 2 => some false
    | 3 => some (s.pins.seen.getLsbD p)
    | _ => none

/-- The levels seen at the pads brought up to date, and the pin-interrupt lines with them (R625, R631). -/
def State.padRefresh (s : State) : State :=
  let seen := (List.range 64).foldl (fun x p =>
    match s.padLevel p with | some v => setBit64 x p v | none => x) s.pins.seen
  if seen = s.pins.seen then s
  else
    let s1 := { s with pins := { s.pins with seen := seen } }
    if s1.partRuns .eic then
      ((List.range 16).foldl (fun s1 n => if s1.extl n = s.extl n then s1 else s1.sampleInput (n + 1)) s1).refreshLines
    else s1

/-- GP_IN as one value of 64 bits (R625): a level that no rule gives is free (log entry 4). -/
def State.gpIn (s : State) : BitVec 64 × State :=
  let xs := (List.range 64).map (fun p => (p, s.padLevel p))
  let free := s.freeVal 64
  let v := xs.foldl (fun x e => setBit64 x e.1 (e.2.getD (free.getLsbD e.1))) 0#64
  (v, if xs.any (fun e => e.2.isNone) then s.usedFree else s)

/-- Every pin's pad is kept as it stands (R602). -/
def State.freezePads (s : State) : State :=
  let t := (List.range 64).foldl (fun t p => tabPut Pad.reset t p (s.pad p)) []
  { s with pins := { s.pins with frozen := t } }

/-- GP_HOLD (R628). -/
def State.gpHold (s : State) : BitVec 64 := if s.testMode ∨ s.recovery then ~~~0#64 else s.pins.startHold

/-! ## PINLOCK (R629) -/

/-- A write to PINLOCK that does not fit the origin's next step; 0x57 starts step 1 again at once. -/
def State.lockBroken (s : State) (o : Origin) (again : Bool) : State :=
  let s := (s.inc GP_CNT_LOCKSEQ).on GP_EVT.SEQ_ERR
  { s with pins := { s.pins with seqs := tabPut (fun _ => 0) s.pins.seqs o.num again.toNat } }

/-- Step 3: the pins of the mask are locked, and the change recorded with it. -/
def State.lockPins (s : State) (o : Origin) (mask : Word64) : State :=
  let lo := mask.setWidth 32
  let hi := (mask >>> 32).setWidth 32
  let s := (s.setReg GP_LOCKED_LO (s.reg GP_LOCKED_LO ||| lo)).setReg GP_LOCKED_HI (s.reg GP_LOCKED_HI ||| hi)
  let s := { s with pins := { s.pins with seqs := tabPut (fun _ => 0) s.pins.seqs o.num 0 } }
  s.configWrite o PINLOCK_LO lo hi

/-- A write to PINLOCK by a master (R629): 64 bits, or 32 bits to one of its halves. -/
def State.pinlock (s : State) (m : Master) (v : PushVal) : State :=
  let o := m.origin
  let k := tabGet (fun _ => 0) s.pins.seqs o.num
  match v with
  | .upper w => { s with pins := { s.pins with upper := tabPut (fun _ => (0 : Word)) s.pins.upper m.num w } }
  | .whole w => if k = 2 then s.lockPins o w else s.lockBroken o false
  | .lower w =>
    let held := tabGet (fun _ => (0 : Word)) s.pins.upper m.num
    let s := { s with pins := { s.pins with upper := tabPut (fun _ => (0 : Word)) s.pins.upper m.num 0 } }
    if k = 2 then s.lockPins o (held ++ w)
    else if (k = 0 ∧ w = 0x57) ∨ (k = 1 ∧ w = 0xA8) then
      { s with pins := { s.pins with seqs := tabPut (fun _ => 0) s.pins.seqs o.num (k + 1) } }
    else s.lockBroken o (w == 0x57)

/-- PINLOCK (R629). -/
def execPinlock (m : Master) (v : PushVal) (s : State) : Res := .next (s.pinlock m v)

/-! ## PIN_CFG and GP_EXTL_SEL (R622, R628, R630, R631) -/

/-- The function inputs that are selected on more than one pin. -/
def State.multis (s : State) : List PinFn :=
  let fs := (List.range 64).map s.fsel
  fs.filter (fun f => f.input && decide (1 < fs.count f))

/-- A write of PIN_CFGp: an applied one ends a start-up hold of the pin. MULTI tells of a function input that it is now selected on more than
one pin (R622). -/
def State.pinCfg (s : State) (o : Origin) (p : Nat) (v : Word) : State :=
  let was := s.multis
  let locked := s.pinLocked p
  let s := s.regStore o (PIN_CFG p) v
  let s := if s.multis.any (fun f => !was.contains f) then s.on GP_EVT.MULTI else s
  let s := if locked then s else
    { s with pins := { s.pins with startHold := setBit64 s.pins.startHold p false } }
  s.padRefresh

/-- A write of GP_EXTL_SEL: a new pin is no edge; its level is what the line is compared with from now on (R631). -/
def State.extlSel (s : State) (o : Origin) (v : Word) : State :=
  let s1 := s.regStore o GP_EXTL_SEL v
  let s2 := (List.range 16).foldl (fun s2 n =>
    if s2.extlPin n = s.extlPin n then s2
    else if s2.sense (n + 1) ≤ 1 then (if s2.partRuns .eic then s2.sampleInput (n + 1) else s2)
    else s2.setGate (n + 1) { s2.gate (n + 1) with input := s2.extl n }) s1
  if s2.partRuns .eic then s2.refreshLines else s2

/-- PIN_CFG_WRITE (R630): a write of the PIN_CFG of a pin, or of GP_EXTL_SEL where none is named. -/
def execPinCfgWrite (o : Origin) (p : Option (Fin 64)) (v : Word) (s : State) : Res :=
  .next (match p with
    | some p => s.pinCfg o p.val v
    | none => s.extlSel o v)

/-! ## GPIO data (R626) -/

/-- The GP_OUT register of a half. -/
def gpOut (hi : Bool) : Nat := if hi then GP_OUT_HI else GP_OUT_LO

/-- GP_SET (R626). -/
def execGpSet (hi : Bool) (v : Word) (s : State) : Res := .next (s.setReg (gpOut hi) (s.reg (gpOut hi) ||| v)).padRefresh

/-- GP_CLR (R626). -/
def execGpClr (hi : Bool) (v : Word) (s : State) : Res := .next (s.setReg (gpOut hi) (s.reg (gpOut hi) &&& ~~~v)).padRefresh

/-! ## Banks and the test access port (R619, R633) -/

/-- BANK_SUPPLY_CHANGE (R619): the sensed state of bank A to D or S changes, and the pads follow. -/
def execBankSupplyChange (b : Fin 5) (level : BitVec 2) (s : State) : Res :=
  if s.bankLevel b.val = level.toNat then .next s
  else .next ((s.wr ⟨GP_BANK, 2 * b.val, 2⟩ level.toNat).on GP_EVT.BANK).padRefresh

/-- What the test data register that the instruction selects captures (R633): its length and its bits; of the boundary register the cells of
the 64 pins. -/
def State.tapCapture (s : State) : Nat × BitVec 64 :=
  match s.pins.ir with
  | .idcode => (32, 0x016487AB)
  | .bypass | .clamp | .highz => (1, 0)
  | .sample | .extest => (64, s.pins.seen)

/-- The test access port holds an instruction, with the boundary cells given. -/
def State.setTap (s : State) (ir : TapIr) (en level : BitVec 64) : State :=
  ({ s with pins := { s.pins with ir := ir, cellEn := en, cellLevel := level } } : State).padRefresh

/-- TAP_RESET (R633): TRST_N low, or five TCK cycles with TMS high: test mode ends. -/
def execTapReset (s : State) : Res := .next (s.setTap .idcode s.pins.cellEn s.pins.cellLevel)

/-- TAP_INSTRUCTION (R633): an instruction is loaded, with what the boundary register holds. -/
def execTapInstruction (ir : TapIr) (en level : BitVec 64) (s : State) : Res := .next (s.setTap ir en level)

end Sys2Proof.Machine
end

