-- ==== Sys2Proof/Machine/Requests.lean ====
section
/-!
DEFINITION. What a write to RST_CTRL, PW_CTRL or CH_REQ asks for (R338, R594, R604, R609). Machine/Reset.lean acts on it.
-/
namespace Sys2Proof.Machine

/-- A write of RST_CTRL (R594): with the key, a core or a system reset is requested and recorded; any other write is ignored. -/
def State.resetAsk (s : State) (o : Origin) (v : Word) : State :=
  if fldOf RST_CTRL.KEY v ≠ 0xC0DE ∨ v &&& 3 = 0 then s
  else
    let system := v.getLsbD 1 || (match s.rst.request with | some r => r.1 | none => false)
    let s := s.configWrite o RST_CTRL v 0
    { s with rst := { s.rst with request := some (system, o) } }

/-- A write of PW_CTRL (R604): recorded with the state that the device is in and the one asked for; the request is acted on, or waits
(R609). -/
def State.powerAsk (s : State) (o : Origin) (v : Word) : State :=
  let s := s.wr PW_CTRL.REQ (v.toNat % 4)
  let s := s.event Ev.POWER_STATE [s.rd PW_STAT.STATE, v.toNat % 4] o
  { s with rst := { s.rst with asked := some (v.toNat % 4, o) } }

/-- A request of CH_REQ for device d from device n (R338), as the root or a device on the way carries it out: here, by wake signalling to a
device that sleeps (R337), or by a cell on VC3. -/
def State.passRequest (s : State) (n : Fin 64) (d op : Nat) : State :=
  match s.routeLink d with
  | none => s
  | some l =>
    if s.linkState l = lkSleep then (if op = 3 then s.emit (.wakeUp l) else s)
    else if s.linkState l ≠ lkUp then s
    else s.queueCell l { vc := 3, src := n, dst := Fin.ofNat 64 d, msg := .request (BitVec.ofNat 2 op) }

/-- A request of CH_REQ that has reached its target, with its origin: a core or a system reset; a wake finds the device awake. -/
def State.takeRequest (s : State) (o : Origin) (op : Nat) : State :=
  if op = 1 ∨ op = 2 then s.resetAsk o (0xC0DE0000 + BitVec.ofNat 32 op) else s

/-- The request that CH_REQ holds is sent (R338): to device DEV or to every member; one to the root's own number applies locally. -/
def State.sendRequests (s : State) (o : Origin) : State :=
  let op := s.rd CH_REQ.OP
  if s.role ≠ 1 ∨ op = 0 then s
  else
    let ds := if s.bit CH_REQ.ALL then s.routedDevices else [s.rd CH_REQ.DEV]
    ds.foldl (fun s d => if d = s.ownNum then s.takeRequest o op else s.passRequest (Fin.ofNat 64 s.ownNum) d op) s

/-- A write of CH_REQ: the request's fields are stored, and GO sends it, on the record (R338, R350). -/
def State.chainReq (s : State) (o : Origin) (v : Word) : State :=
  let old := s.reg CH_REQ
  let s := s.setReg CH_REQ (v &&& 0x37F)
  if v.getLsbD 31 then (s.configWrite o CH_REQ v old).sendRequests o else s

end Sys2Proof.Machine
end

