-- ==== Sys2Proof/Machine/TimeStep.lean ====
section
/-!
DEFINITION. A step of device time (R279) with everything that follows it: the outputs (R294), the alarms (R296), the launches
(R110), the schedules and their guardians (R127, R150, R176), the engines' timers (R384) and the gate lists (R421).
-/
namespace Sys2Proof.Machine

/-- TIME_STEP (R279): the pending step is applied at its boundary. -/
def execTimeStep (s : State) : Res :=
  match s.time.step with
  | none => .next s
  | some p =>
    let s := s.stepCount p
    let s := (List.range 8).foldl (fun s i => s.tpoStep p.b p.theta i) s
    let s := s.alarmsStep
    let s := (List.range 16).foldl (fun s n => (s.launchesStep n).twStep n p.theta) s
    .next ((List.range 12).foldl State.gateStep s.engineStep)

end Sys2Proof.Machine
end

