-- ==== Sys2Proof/Machine/Bus.lean ====
section
/-!
DEFINITION. A 32-bit write to a register of BAR0 (R8 to R11, R22, R30): where a write does more than store its value, the rules of the
register's chapter. The configuration loader, the store mailbox and the calm port's plane are written through Machine/Bus2.lean.
-/
namespace Sys2Proof.Machine

/-- The state after a meaning that always ends in a next state. -/
def State.doing (s : State) (f : State → Res) : State := match f s with | .next t => t | _ => s

/-- Which of count registers, a stride apart from base, stands at address a. -/
def copyOf (a base stride count : Nat) : Option Nat :=
  if base ≤ a ∧ (a - base) % stride = 0 ∧ (a - base) / stride < count then some ((a - base) / stride) else none

/-- A word v of type t stored in the register at a without a record (R8). -/
def State.storeQuiet (s : State) (a : Nat) (v : Word) : State :=
  match regRow? a with
  | some r => s.setReg a (storeValue r 0 (s.reg a) v)
  | none => s

/-! ## Serial ports -/

/-- A write of SP_CTRL (R48, R55, R73, R89): RX_EN, TX_EN, TX_PAUSE and COLL_RESUME act. The line's level is the one last seen, and that of
TXD in LOOPBACK. -/
def State.spCtrl (s : State) (o : Origin) (n : Nat) (v : Word) : State :=
  let was := s.bit (SP_CTRL.RX_EN n)
  let paused := s.bit (SP_CTRL.TX_PAUSE n)
  let s := s.regStore o (SP_CTRL n) v
  let mark := if s.bit (SP_CTRL.LOOPBACK n) then s.rxdLevel n true else (s.port n).markSince.isSome
  let s := (s.rxEnChange n was (s.bit (SP_CTRL.RX_EN n)) mark).txEnChange n (s.bit (SP_CTRL.TX_EN n))
  let pause := s.bit (SP_CTRL.TX_PAUSE n)
  let s := if pause && !paused then s.setPort n { s.port n with openq := none, cutq := [] } else s
  let s := s.noteHold n
  let s := if v.getLsbD 8 then s.doing (execCollResume o (Fin.ofNat 16 n)) else s
  s.padRefresh

/-- A write of SP_FRAME or SP_LINE (R45): a direction that is idle takes it at once, another at its next character boundary. -/
def State.spFormat (s : State) (o : Origin) (n a : Nat) (v : Word) : State :=
  let s := s.regStore o a v
  let s := if (s.port n).rxChar.isNone then s.rxBoundary n else s
  let s := if divUp (s.port n).txEnd 65536 ≤ s.time.tick then s.setPort n { s.port n with txFmt := s.lineRegs n } else s
  s.padRefresh

/-- A write of SP_ADDR (R93): with ADDR_MODE 0 no frame state exists. -/
def State.addrWrite (s : State) (o : Origin) (n : Nat) (v : Word) : State :=
  let s := s.regStore o (SP_ADDR n) v
  if s.addrMode n = 0 then s.endFrame n else s

/-- A write of TW_CTRL (R151, R156): RUN starts and stops the schedule, a change of ROLE or ALIGN restarts it. -/
def State.twCtrl (s : State) (o : Origin) (n : Nat) (v : Word) : State :=
  let old := s.reg (TW_CTRL n)
  let s := s.regStore o (TW_CTRL n) v
  let new := s.reg (TW_CTRL n)
  let s := if new.getLsbD 0 && !old.getLsbD 0 then s.twRunOn n
    else if old.getLsbD 0 && !new.getLsbD 0 then s.twRunOff n else s
  if old.getLsbD 0 && new.getLsbD 0 && (old ^^^ new) &&& 6 != 0 then s.requestRestart n else s

/-- A write of GD_CTRL (R179, R181, R191): MUZZLE, UNMUZZLE and CLR_HIST act, and one record tells of the write. -/
def State.gdCtrl (s : State) (o : Origin) (n : Nat) (v : Word) : State :=
  let old := s.reg (GD_CTRL n)
  let s := s.storeQuiet (GD_CTRL n) v
  let s := s.configWrite o (GD_CTRL n) (s.reg (GD_CTRL n) ||| (v &&& 7)) old
  let s := if v.getLsbD 1 then s.muzzle n 4 else s
  let s := if v.getLsbD 0 then s.askUnmuzzle n else s
  if v.getLsbD 2 then s.clearHist n else s

/-- A write of v to register a of port n's block. -/
def State.portWrite (s : State) (m : Master) (o : Origin) (n a : Nat) (v : Word) : State :=
  let p := Fin.ofNat 16 n
  if a = SP_CTRL n then s.spCtrl o n v
  else if a = SP_FRAME n ∨ a = SP_LINE n then s.spFormat o n a v
  else if a = SP_BAUDCFG n then s.doing (execBaudcfgWrite o p v)
  else if a = SP_AUTOBAUD n then
    if v.getLsbD 0 then s.doing (execAutobaudStart o p (v.getLsbD 1))
    else if s.bit (SP_AUTOBAUD.AB_EN n) then (s.doing (execAutobaudCancel o p)).storeQuiet a v else s.regStore o a v
  else if a = SP_FLOW n ∨ a = SP_FC_HI n ∨ a = SP_FC_LO n then ((s.regStore o a v).updateFlow n).ctsChecked n
  else if a = SP_ADDR n then s.addrWrite o n v
  else if a = SP_STR_SEL n then s.doing (execStrangerSelect m p v)
  else if a = TW_CTRL n then s.twCtrl o n v
  else if a = TW_NODE n then
    (s.regStore o a v).requestRestart n
  else if a = TW_DLY n then
    let s := s.regStore o a v
    s.setTw n { s.tw n with dlyUnset := false }
  else if a = TW_SWITCH n then s.doing (execTwSwitch o p v)
  else if a = TW_TCOMMIT n then s.doing (execTwTableCommit o p (v.setWidth 4))
  else if a = GD_CTRL n then s.gdCtrl o n v
  else if a = TW_TDATA0 n ∨ a = TW_TDATA1 n ∨ a = TW_TDATA2 n then s.twDataWrite n ((a - TW_TDATA0 n) / 4) v
  else match (List.range 7).find? (fun b => bindingReg n b == a) with
    | some b => s.doing (execBindingWrite o p (Fin.ofNat 7 b) v)
    | none => s.regStore o a v

/-! ## Queues, the eddy store, the ledger -/

/-- A write of QF_QCMD (R222, R228). -/
def State.qcmdWrite (s : State) (o : Origin) (v : Word) : State :=
  match v.toNat % 8 with
  | 1 => s.doing (execCreate o)
  | 2 => s.doing (execModify o)
  | 3 => s.doing (execDelete o)
  | 4 => s.doing (execRead o)
  | 5 => s.doing (execSnap o)
  | _ => s.doing (execQcmdIgnored o (v.setWidth 3))

/-- A write to the fabric, the eddy store or the ledger. -/
def State.fabricWrite (s : State) (m : Master) (o : Origin) (a : Nat) (v : Word) : State :=
  if a = QF_QSEL then s.setStage o 0 (v &&& 0xFFFF)
  else if a = QF_QCMD then s.qcmdWrite o v
  else if a = QF_QCFG0 then s.setStage o 1 (v &&& 0xF1F7F)
  else if a = QF_QCFG1 then s.setStage o 2 v
  else if a = QF_QCFG2 then s.setStage o 3 (v &&& 0xFFFF0001)
  else if a = QF_QCFG3 then s.setStage o 4 v
  else if a = QF_QCFG4 then s.setStage o 5 (v &&& 0x803FFFFF)
  else if a = ED_QSEL then s.doing (execEdQsel m (v.setWidth 16))
  else if a = LG_CTRL then (s.ledgerCtrl v).configWrite o LG_CTRL v 0
  else s.regStore o a v

/-! ## Time base -/

/-- A write to the time base. -/
def State.timeWrite (s : State) (o : Origin) (a : Nat) (v : Word) : State :=
  if a = TB_HADJ_CMD then s.hadjCmd o v
  else if a = TB_SRCCFG then
    let old := s.reg a
    (s.regStore o a v).srccfgWritten old
  else if a = TB_UTC then
    let old := s.reg a
    (s.regStore o a v).utcWritten old
  else if a = CAL_WTIME then s.doing (execCalendarSet o v)
  else match copyOf a (ALM_SH 0) 0x10 4 with
    | some k => s.doing (execAlarmArm o (Fin.ofNat 4 k) v)
    | none =>
      match copyOf a (TPO_CTRL 0) 0x20 8 with
      | some i => if v.getLsbD 0 then s.doing (execTpoApply o (Fin.ofNat 8 i)) else s
      | none => if TPO_CFG 0 ≤ a then s.storeQuiet a v else s.regStore o a v

/-! ## Interrupts and the event log -/

/-- A write to the event interrupt controller. -/
def State.eicWrite (s : State) (m : Master) (o : Origin) (a : Nat) (v : Word) : State :=
  let routed (new : Word) (f : State → State) : State :=
    let old := s.reg a
    (f s).configWrite o a new old
  match copyOf a (EIC_PEND 0) 4 64, copyOf a (EIC_PSET 0) 4 64, copyOf a (EIC_BCOMP 0) 0x20 8, copyOf a (EIC_GCOMP 0) 0x20 8 with
  | some i, _, _, _ => s.doing (execPendClear m (Fin.ofNat 64 i) v)
  | _, some i, _, _ => s.doing (execPset m (Fin.ofNat 64 i) v)
  | _, _, some t, _ => s.doing (execComplete m (Fin.ofNat 8 t) false v)
  | _, _, _, some t => s.doing (execComplete m (Fin.ofNat 8 t) true v)
  | _, _, _, _ =>
    match regRow? a, copyOf a (EIC_TCFG 0) 0x20 8, copyOf a (EIC_SRC_CFG 1) 4 2046 with
    | some r, some t, _ =>
      let new := storeValue r 0 (s.reg a) v
      routed new (fun s => s.routeWrite [] [(t, new)])
    | some r, _, some n =>
      let new := storeValue r 0 (s.reg a) v
      routed new (fun s => s.routeWrite [(n + 1, new)] [])
    | _, _, _ => s.regStore o a v

/-- A write to the event log; its window takes CMD alone (R548). The words of a commit set up the extension together (R549). -/
def State.logWrite (s : State) (m : Master) (o : Origin) (a : Nat) (v : Word) : State :=
  if a = 0x60020 then s.windowCmd m .log (v.toNat % 16) .held
  else if a = 0x60024 then { s with cmdHeld := tabPut (fun _ => (0 : Word)) s.cmdHeld m.num v }
  else if a < 0x60030 then s
  else if a = EL_CFG then
    let s := s.regStore o a v
    s.autoRef .log s.logQueue
  else if a = EL_XCFG ∨ a = EL_XBASE_LO ∨ a = EL_XBASE_HI ∨ a = EL_XRECS then
    let s := s.regStore o a v
    if s.log.quiet then s else s.logResize true
  else match copyOf a (EL_CLS_CFG 0) 4 16 with
    | some c => s.doing (execElClsCfgWrite o (Fin.ofNat 16 c) v)
    | none => s.regStore o a v

/-! ## Clocks, pins and memories -/

/-- A write to the clocks. -/
def State.clockWrite (s : State) (o : Origin) (a : Nat) (v : Word) : State :=
  if a = CK_CFG then s.ckCfgWrite o v
  else if a = CK_CTRL then (if v.getLsbD 0 then s.doing (execResumeAck o) else s)
  else if a = CK_CLKOUT then s.clkoutWrite o v
  else s.regStore o a v

/-- A write to the pins. -/
def State.pinWrite (s : State) (m : Master) (o : Origin) (a : Nat) (v : Word) : State :=
  if a = PINLOCK_LO then s.pinlock m (.lower v)
  else if a = PINLOCK_HI then s.pinlock m (.upper v)
  else if a = GP_EXTL_SEL then s.extlSel o v
  else if a = GP_OUT_LO ∨ a = GP_OUT_HI then (s.regStore o a v).padRefresh
  else if a = GP_SET_LO then s.doing (execGpSet false v)
  else if a = GP_SET_HI then s.doing (execGpSet true v)
  else if a = GP_CLR_LO then s.doing (execGpClr false v)
  else if a = GP_CLR_HI then s.doing (execGpClr true v)
  else match copyOf a (PIN_CFG 0) 4 64 with
    | some p => s.pinCfg o p v
    | none => s.regStore o a v

/-- A write to the memories. -/
def State.memWrite (s : State) (o : Origin) (a : Nat) (v : Word) : State :=
  if a = MEM_CFG then s.doing (execIlvWrite o v)
  else if a = MEM_INJ then s.doing (execMemInj o v)
  else if a = MEM_WIN_ADDR then s.doing (execMemWinAddr v)
  else match copyOf a (MEM_BANK 0) 4 4, copyOf a (DDR_CTRL 0) 0x80 2 with
    | some i, _ => s.doing (execBankStateRequest o (Fin.ofNat 4 i) v)
    | _, some c => if v.getLsbD 0 then s.doing (execDdrInit o (Fin.ofNat 2 c)) else s
    | _, _ => s.regStore o a v

/-! ## Network ports, engines and the loader -/

/-- A write to network port n or an MDIO master. -/
def State.netWrite (s : State) (o : Origin) (a : Nat) (v : Word) : State :=
  match copyOf a (MD_CMD 0) 0x100 2 with
  | some i => s.doing (execMdCmd (Fin.ofNat 2 i) v)
  | none =>
    if NP_CTRL 12 ≤ a then s.regStore o a v else
    let n := (a - NP_CTRL 0) / 0x4000
    let p := Fin.ofNat 12 n
    if a = NP_CTRL n then
      if v.getLsbD 1 = s.bit (NP_CTRL.PWR_OFF n) then s.npCtrl o n v else s.doing (execNpPwrOffWrite o p v)
    else if a = NP_CT n then s.doing (execCtPath o p v)
    else if a = NP_GCL_CTRL n then
      let s := s.regStore o a v
      let s := if v.getLsbD 1 then s.doing (execConfigChange o p) else s
      if v.getLsbD 2 then s.doing (execCcCancel o p) else s
    else if a = NP_GCL_GATES n ∨ a = NP_GCL_INTERVAL n then
      if s.bit (NP_GCL_SEL.OPER n) then s
      else
        let i := s.rd (NP_GCL_SEL.ENTRY n)
        let x := s.net n
        if a = NP_GCL_GATES n then s.adminEntry n i v.toNat (tabGet (fun _ => 0) x.adminTimes i)
        else s.adminEntry n i (tabGet (fun _ => 0) x.adminGates i) v.toNat
    else s.regStore o a v

/-- A write to engine e's block. -/
def State.engineWrite (s : State) (o : Origin) (a : Nat) (v : Word) : State :=
  let n := (a - CE_CTRL 0) / 0x2000
  let e := Fin.ofNat 48 n
  if a = CE_CTRL n then
    if v.getLsbD 1 then s.doing (execHalt o e v)
    else if v.getLsbD 0 then s.doing (execStart o e v)
    else s.ctrlWrite o n v
  else if a = CE_BIND n then s.doing (execCeBindWrite o e v)
  else if a = CE_MBI_DB n then s.doing (execMbiDb e (v.setWidth 4))
  else if a = CE_MBO_ACK n then (if v.getLsbD 0 then s.doing (execMboAck e) else s)
  else if CE_MBI n 0 ≤ a ∧ a ≤ CE_MBI n 15 ∧ s.bit (CE_STAT.IN_FULL n) then s.mbxOverrun n
  else s.regStore o a v

/-- A write to the loader or a cluster. -/
def State.loaderWrite (s : State) (o : Origin) (a : Nat) (v : Word) : State :=
  if a = LD_CTRL then
    match fldOf LD_CTRL.OP v with
    | 1 => s.doing (execLdBegin o v)
    | 2 => s.doing (execCancel o)
    | 3 => s.doing (execClearSlot o (Fin.ofNat 16 (fldOf LD_CTRL.SLOT v)))
    | _ => s
  else if a = LD_DATA then s.doing (execLdData o v)
  else if a = LD_SLOTSEL then s.doing (execLdSlotsel (Fin.ofNat 16 v.toNat))
  else match copyOf a (CL_CTRL 0) 4 12 with
    | some k => if v.getLsbD 0 = s.bit (CL_CTRL.PWR_OFF k) then s.regStore o a v else s.doing (execClusterPwrOff o (Fin.ofNat 12 k) v)
    | none => s.regStore o a v

/-! ## The chain -/

/-- The map registers for device d (R356): on a member, and on a device alone, only its own entry is present. -/
def State.captureMap (s : State) (d : Nat) : State :=
  let own := decide (d = s.ownNum)
  let e := s.mapEntry d
  let root := decide (s.role = 1)
  let sn := if own then s.chain.sn else if root then e.sn else 0
  let routed := s.chain.routed.contains d
  let pinned := root && s.chain.pins.any (fun x => x.2 == d)
  let info :=
    if own then 1 + pinned.toNat * 8 + s.rd CH_STAT.HOPS * 0x20
    else if root then
      (e.present && routed && !e.lost && !e.asleep).toNat + e.lost.toNat * 2 + e.asleep.toNat * 4 + pinned.toNat * 8 + routed.toNat * 16
        + e.hops * 0x20 + e.parent * 0x400 + e.parentLink * 0x10000
    else 0
  let s := (List.range 4).foldl (fun s i => s.setReg (CH_MAP_SN i) (sn.extractLsb' (32 * i) 32)) s
  s.setReg CH_MAP_INFO (BitVec.ofNat 32 info)

/-- A write to a link or the chain. -/
def State.chainWrite (s : State) (o : Origin) (a : Nat) (v : Word) : State :=
  match copyOf a (LK_CTRL 0) 0x4000 4 with
  | some n =>
    let en := s.bit (LK_CTRL.EN n)
    let old := s.reg a
    let s := s.storeQuiet a v
    let s := s.configWrite o a (s.reg a ||| (v &&& 8)) old
    let s := if s.bit (LK_CTRL.EN n) = en then s else s.linkEn n
    if v.getLsbD 3 && s.canDrop n then s.dropLink n lkDetect else s
  | none =>
    if a = CH_CTRL then
      let old := s.reg a
      let role := s.role
      let s := s.storeQuiet a v
      let s := (s.configWrite o a (s.reg a ||| (v &&& 0x18)) old).roleMoved role
      let s := if v.getLsbD 3 then { s with chain := { s.chain with sticky := [] } } else s
      let s := s.chainFollows
      if v.getLsbD 4 then s.enumAsk else s
    else if a = CH_REQ then s.chainReq o v
    else if a = CH_MAPSEL then (s.regStore o a v).captureMap (v.toNat % 64)
    else s.regStore o a v

/-! ## The host interface -/

/-- A write to the host interface's registers, and to FEAT_ACCEPT and FEAT_COMMIT. -/
def State.hostWrite (s : State) (m : Master) (o : Origin) (a : Nat) (v : Word) : State :=
  if a = HI_ABT_DB_LO then s.abortWrite m (.lower v)
  else if a = HI_ABT_DB_HI then s.abortWrite m (.upper v)
  else if SQ_BASE_LO 0 ≤ a ∧ a < SQ_BASE_LO 64 then
    let n := (a - SQ_BASE_LO 0) / 0x20
    if a = SQ_CTRL n then s.doing (execSqEnable (Fin.ofNat 64 n) (v.getLsbD 0))
    else if s.bit (SQ_STAT.ENABLED n) ∧ a ≤ SQ_CFG n then s.on HI_EVT.BAD_CFG
    else s.regStore o a v
  else if CQ_BASE_LO 0 ≤ a ∧ a < CQ_BASE_LO 64 then
    let n := (a - CQ_BASE_LO 0) / 0x20
    if a = CQ_CTRL n then s.doing (execCqEnable (Fin.ofNat 64 n) (v.getLsbD 0))
    else if s.bit (CQ_STAT.ENABLED n) ∧ a ≤ CQ_CFG n then s.on HI_EVT.BAD_CFG
    else s.regStore o a v
  else match copyOf a (SQ_TAIL_DB 0) 8 64, copyOf a (CQ_HEAD_DB 0) 8 64, copyOf a (MSIX_CTRL 0) 0x10 64 with
    | some n, _, _ => s.doing (execSqTailDb (Fin.ofNat 64 n) v)
    | _, some n, _ => s.doing (execCqHeadDb (Fin.ofNat 64 n) v)
    | _, _, some n => if v.getLsbD 0 then s.on (MSIX_CTRL.MASK n) else s.doing (execMsixUnmask (Fin.ofNat 64 n))
    | _, _, _ => s.regStore o a v

/-! ## The whole of BAR0 -/

/-- A 32-bit write of v to BAR0 address a by master m, recorded with origin o; it does nothing where no register stands (R10) or its
block does not exist yet (R22). -/
def State.busWrite1 (s : State) (m : Master) (o : Origin) (a : Nat) (v : Word) : State :=
  if a % 4 ≠ 0 ∨ s.regExists a = false ∨ ((regRow? a).isNone ∧ (a < 0x60000 ∨ 0x60030 ≤ a)) then s
  else if a < 0x10000 then
    match copyOf a (FEAT_ACCEPT 0) 4 4 with
    | some i => s.featAccept i v
    | none =>
      if a = FEAT_COMMIT then (if v.getLsbD 0 || s.bit FEAT_STAT.COMMITTED then s.doing (execFeatCommit o) else s) else s.regStore o a v
  else if a < 0x10100 then s.clockWrite o a v
  else if a = RST_CTRL then s.resetAsk o v
  else if a = PW_CTRL then s.powerAsk o v
  else if a < 0x20000 then s.regStore o a v
  else if a < 0x30000 then s.pinWrite m o a v
  else if a < 0x40000 then s.eicWrite m o a v
  else if a < 0x50000 then s.timeWrite o a v
  else if a < 0x60000 then s.memWrite o a v
  else if a < 0x70000 then s.logWrite m o a v
  else if a < 0x80000 then s.fabricWrite m o a v
  else if a < 0x100000 then s.portWrite m o ((a - 0x80000) / 0x1000) a v
  else if a < 0x200000 then s.fabricWrite m o a v
  else if a < 0x300000 then s.netWrite o a v
  else if a < 0x360000 then s.engineWrite o a v
  else if a < 0x400000 then s.loaderWrite o a v
  else if a < 0x500000 then s.chainWrite o a v
  else if a < 0x600000 then s.hostWrite m o a v
  else s.regStore o a v

end Sys2Proof.Machine
end

