-- ==== Sys2Proof/Machine/Store.lean ====
section
/-!
DEFINITION. Framed images (R473 to R476, R518), the MRAM store with its header and descriptors (R515 to R520), and the boot sequencer
(R522, R523, R526).
-/
namespace Sys2Proof.Machine

/-! ## Framed images -/

/-- The logical image that f frames carry, padding included (R473). -/
def logicalOf (bs : List Byte) : Nat → List Byte
  | 0 => []
  | f + 1 => bs.take 4088 ++ logicalOf (bs.drop 4096) f

/-- The check of frame k (R473, R484): 1 FRAME_SEQ, 2 FRAME_CRC, 0 where it passes. -/
def frameResult (bs : List Byte) (k : Nat) : Nat :=
  let f := (bs.drop (4096 * k)).take 4096
  if leNat f 0xFF8 4 ≠ k then 1 else if crcBytes (f.take 0xFFC) ≠ leNat f 0xFFC 4 then 2 else 0

/-- The first frame of f that fails its check, with the code. -/
def framesResult (bs : List Byte) (f : Nat) : Option (Nat × Nat) :=
  ((List.range f).map (fun k => (frameResult bs k, k))).find? (fun x => x.1 != 0)

/-- LENGTH, FLAGS and SEC_COUNT of a logical image (R475). -/
def imgLength (im : List Byte) : Nat := leNat im 8 4
def imgFlags (im : List Byte) : Nat := leNat im 0x14 4
def imgSections (im : List Byte) : Nat := leNat im 0x28 2

/-- The framed length that LENGTH and SIGNED give (R474). -/
def framedLength (im : List Byte) : Nat := divUp (imgLength im) 4088 * 4096 + (if imgFlags im % 2 = 1 then 100 else 4)

/-- The checks 4 to 8 of R484, which a seal makes too (R518): the first that the logical image im fails, of a framed image bs of len bytes; 0
where all pass. -/
def headResult (bs im : List Byte) (len : Nat) : Nat :=
  let n := imgLength im
  if leNat im 0 4 ≠ 0x46435757 then 4
  else if leNat im 4 2 ≠ 1 ∨ leNat im 6 2 ≠ 64 ∨ leNat im 0x2A 2 ≠ 64 ∨ 4 ≤ imgFlags im ∨ 64 < imgSections im
      ∨ n < 64 + 16 * imgSections im ∨ 2088968 < n then 5
  else if crcBytes (im.take 0x3C) ≠ leNat im 0x3C 4 then 6
  else if framedLength im ≠ len then 7
  else if crcBytes (im.take n) ≠ leNat bs (len / 4096 * 4096) 4 then 8
  else 0

/-! ## The store -/

/-- The store's byte address of an offset in sector 511 of a slot (R515). -/
def sector511 (slot off : Nat) : Nat := slot * 0x200000 + 511 * 0x1000 + off

/-- A header copy of the store, 0 for A and 1 for B (R515, R516): its 256 bytes. -/
def State.headerCopy (s : State) (c : Nat) : List Byte := memBytes s.calm.store (sector511 c 0xE00) 256

/-- A record of 256 bytes with its magic is valid when its CRC matches. -/
def recordValid (magic : Nat) (bs : List Byte) : Bool := leNat bs 0 4 == magic && crcBytes (bs.take 0xFC) == leNat bs 0xFC 4

/-- The header copy in use (R516): the valid one with the higher SEQ. -/
def State.headerUsed (s : State) : Option Nat :=
  let ok (c : Nat) : Bool := recordValid 0x48535757 (s.headerCopy c)
  let seq (c : Nat) : Nat := leNat (s.headerCopy c) 8 4
  if ok 0 && (!ok 1 || decide (seq 1 ≤ seq 0)) then some 0 else if ok 1 then some 1 else none

/-- SEQ and ORDER of the header in use; without one, SEQ 0, the order 0, 1, 2, 3 and no MEMBER_SLOT. -/
def State.headerSeq (s : State) : Nat := match s.headerUsed with | some c => leNat (s.headerCopy c) 8 4 | none => 0
def State.headerOrder (s : State) : Nat := match s.headerUsed with | some c => leNat (s.headerCopy c) 12 4 | none => 0xF3210

/-- The boot order (R516): the slots up to the first 0xF; a slot that repeats counts once. -/
def State.bootOrder (s : State) : List Nat :=
  let ns := (List.range 4).map (fun i => s.headerOrder / 16 ^ i % 16)
  (ns.takeWhile (fun n => n != 15)).foldl (fun l n => if n < 4 ∧ l.contains n = false then l ++ [n] else l) []

/-- The descriptor of a slot (R517): its 256 bytes where they are valid. -/
def State.descriptor (s : State) (k : Nat) : Option (List Byte) :=
  let bs := memBytes s.calm.store (sector511 k 0xF00) 256
  if recordValid 0x44535757 bs then some bs else none

/-- STATE of a slot: 0 EMPTY, 1 WRITING, 2 SEALED, 3 INVALID; its WRITES and FRAMED_LEN. -/
def State.slotState (s : State) (k : Nat) : Nat := match s.descriptor k with | some d => leNat d 4 1 | none => 0
def State.slotWrites (s : State) (k : Nat) : Nat := match s.descriptor k with | some d => leNat d 0x1C 4 | none => 0
def State.slotLen (s : State) (k : Nat) : Nat := match s.descriptor k with | some d => leNat d 8 4 | none => 0

/-- The words of a record with its CRC over the 252 bytes before it. -/
def sealedRecord (ws : List Nat) : List Byte :=
  let body := ws.flatMap (fun w => bytesOf [BitVec.ofNat 32 w])
  let body := body ++ List.replicate (252 - body.length) 0
  body ++ bytesOf [BitVec.ofNat 32 (crcBytes body)]

/-- Slot k's descriptor written (R517): STATE, FRAMED_LEN, IMG_ID, IMG_VER, IMG_CRC, FLAGS and WRITES. -/
def State.setDescriptor (s : State) (k st len id ver crc flags writes : Nat) : State :=
  { s with calm := { s.calm with
    store := memSetBytes s.calm.store (sector511 k 0xF00) (sealedRecord [0x44535757, st, len, id, ver, crc, flags, writes]) } }

/-- The descriptor of slot k with another STATE and WRITES, its other fields kept. -/
def State.remarkSlot (s : State) (k st writes : Nat) : State :=
  let d := (s.descriptor k).getD []
  s.setDescriptor k st (leNat d 8 4) (leNat d 12 4) (leNat d 0x10 4) (leNat d 0x14 4) (leNat d 0x18 4) writes

/-- The highest bound of the store (R519), with WRITES of slot k at w and SEQ at q where the operation would leave them. -/
def State.wearBound (s : State) (k w q : Nat) : Nat :=
  (List.range 4).foldl (fun m i =>
    let w := if i = k then w else s.slotWrites i
    max m (3 * w + (if i = 0 then divUp q 2 else if i = 1 then q / 2 else 0))) 0

/-- The highest bound now. -/
def State.wear (s : State) : Nat := s.wearBound 4 0 s.headerSeq

/-- The header or a descriptor has been accessed: CP_WEAR is read from the store (R531). -/
def State.storeRead (s : State) : State :=
  let w := s.wear
  (s.wr CP_WEAR.BOUND w).put CP_WEAR.WARN (decide (900000 ≤ w))

/-- An operation has written the store from state old (R519): a bound that has reached 900,000 is told. -/
def State.storeWritten (s old : State) : State :=
  let s := s.storeRead
  if old.wear < 900000 ∧ 900000 ≤ s.wear then s.event Ev.STORE_WEAR [s.wear] else s

/-- The record of an MRAM store write (R30, R520): at once while CORE runs, otherwise kept, at most 16. -/
def State.storeNote (s : State) (opc addr arg : Nat) (o : Origin) : State :=
  if s.runs .core then s.event Ev.STORE_WRITE [opc, addr, arg] o
  else if s.calm.notes.length < 16 then
    { s with calm := { s.calm with notes := s.calm.notes ++ [{ opc := opc, addr := addr, arg := arg, at_ := s.now, org := o }] } }
  else s.wr CP_JOURNAL.LOST (min 255 (s.rd CP_JOURNAL.LOST + 1))

/-- The slot and the sector that ADDR names (R509). -/
def storeSlot (addr : Nat) : Nat := addr / 0x10000 % 4
def storeSector (addr : Nat) : Nat := addr % 512

/-- A STORE_PROG whose first n words are programmed (R517): its slot is WRITING with one more in WRITES where a new pass starts, as when it was not or when its
pass map is lost, or where the sector had been programmed in this pass; the sector joins the pass map. -/
def State.programmed (s : State) (w : PlaneWork) (n : Nat) : State :=
  let k := storeSlot w.addr
  let sec := storeSector w.addr
  let pass : Option (List Nat) := match s.calm.pass with | some (j, l) => if j = k ∧ w.first = false then some l else none | none => none
  let done := pass.getD []
  let writes := s.slotWrites k + (pass.isNone || done.contains sec).toNat
  let s := s.remarkSlot k 1 writes
  { s with calm := { s.calm with
    pass := some (k, if done.contains sec then done else sec :: done)
    store := memSetBytes s.calm.store (k * 0x200000 + sec * 0x1000) (memBytes s.calm.buf 0 (4 * n)) } }

/-- How many words of a STORE_PROG have had their first cycle, and how many all 64 (R511); none before its slot is WRITING. -/
def PlaneWork.begun (w : PlaneWork) : Option Nat :=
  let p := w.total - w.left
  let q := if w.first then 4096 else 0
  if p < q then none else some (divUp (p - q) 64)
def PlaneWork.whole (w : PlaneWork) : Nat := (w.total - w.left - (if w.first then 4096 else 0)) / 64

/-- The store as a system reset leaves it (R592): a word whose programming pulse has begun completes. -/
def State.storeSettled (s : State) : Mem :=
  match s.calm.work with
  | some w =>
    if w.opc ≠ 0x21 then s.calm.store
    else match w.begun with
      | some n => (s.programmed w n).calm.store
      | none => s.calm.store
  | none => s.calm.store

/-! ## Boot (R522, R523, R526) -/

/-- The boot source of the strap code (R597, R531): 0 MRAM, 1 calm port, 2 chain, 3 MRAM with fallback, 4 recovery. -/
def State.bootSource (s : State) : Nat :=
  let c := (s.reg ID_RCFG).toNat % 16
  if c = 8 then 4 else c / 4

/-- The boot sequence is at its start (R522, R524). -/
def State.bootStart (s : State) : State :=
  match s.bootSource with
  | 0 | 3 => { (s.wr CP_BOOTSTAT.STATE 1).storeRead with calm := { s.calm with boot := some { slots := s.bootOrder, all := s.bootOrder } } }
  | 1 => s.wr CP_BOOTSTAT.STATE 2
  | 2 => s.wr CP_BOOTSTAT.STATE 3
  | _ => s.wr CP_BOOTSTAT.STATE 7

/-- No slot is left (R523): BOOT_WAIT with fallback to the calm port, BOOT_FAILED otherwise. -/
def State.bootOver (s : State) : State :=
  let s := { s with calm := { s.calm with boot := none } }
  let st (s : State) (n : Nat) : State := if s.committed ∨ s.bootSource = 4 then s else s.wr CP_BOOTSTAT.STATE n
  if s.bootSource = 3 then (st s 2).event Ev.BOOT_WAIT [] else (st s 6).event Ev.BOOT_FAILED [s.rd CP_BOOTSTAT.LAST_RESULT]

/-- The next SEALED slot of the sequence is streamed into the loader, one word in each REFCLK cycle (R523); without one the sequence ends. -/
def State.bootNext (s : State) : State :=
  match s.calm.boot with
  | none => s
  | some b =>
    match b.slots.dropWhile (fun k => s.slotState k != 2) with
    | [] => s.bootOver
    | k :: rest =>
      let n := s.slotLen k
      let bs := memBytes s.calm.store (k * 0x200000) (min n 0x200000)
      let s := (s.wr CP_BOOTSTAT.LAST_SLOT k).wr CP_BOOTSTAT.TRIED (Nat.lor (s.rd CP_BOOTSTAT.TRIED) (2 ^ k))
      let b := { b with slots := rest, slot := some k, failed := none, heldTo := s.time.tick + 40 * divUp n 4 }
      let l : CfgLoad := { org := b.asked.getD .boot, code := if b.asked.isSome then 2 else 4, src := .boot k, len := n, bytes := bs }
      ({ s with calm := { s.calm with boot := some b }, cfg := { s.cfg with line := s.cfg.line ++ [l] } } : State).nextLoad

end Sys2Proof.Machine
end

