-- ==== Sys2Proof/Machine/Reload.lean ====
section
/-!
DEFINITION. What a commit and the events that end it share (R32, R477, R487, R496, R497): the section that reaches a register, writes that
wait for a reload, the SECTION_COMMIT record, and the end of a commit by a core reset.
-/
namespace Sys2Proof.Machine

/-- The writes that waited and wait no more are applied in the order of their arrival, each recorded with it (R32, R555). -/
def State.lateApply (s : State) : State :=
  let (wait, due) := s.cfg.late.partition (fun w => s.reloading w.addr || (w.room && s.configFull))
  let s := { s with cfg := { s.cfg with late := wait } }
  due.foldl (fun s w =>
    let s := { s with log := { s.log with arrived := some w.at_ } }
    let s := s.busWrite1 w.m w.org w.addr w.v
    { s with log := { s.log with arrived := none } }) s

/-- The state in which a commit's word is applied: it leaves no CONFIG_WRITE record (R497). -/
def State.quietly (s : State) (f : State → State) : State :=
  let s := f { s with log := { s.log with quiet := true } }
  { s with log := { s.log with quiet := false } }

/-- The SECTION_COMMIT event of the type that commit c applies now (R497): TYPE, IMG_ID, IMG_CRC, the records applied, skipped and refused,
the ports or engines quiesced, and the words discarded. The record carries time and origin. -/
def State.sectionEvent (s : State) (c : Commit) : State :=
  let crc := leNat c.load.bytes (c.load.len / 4096 * 4096) 4
  s.event Ev.SECTION_COMMIT [c.now, leNat c.image 0xC 4, crc, c.applied, c.skipped, c.refused, c.quiesced, c.discarded] c.load.org

/-- A first commit that ends leaves the device as it was before (R487): what it has replaced is put back, the latest first. -/
def State.undoCommit (s : State) (c : Commit) : State :=
  let lo : Word := c.locked.setWidth 32
  let hi : Word := (c.locked >>> 32).setWidth 32
  let s := (s.setReg GP_LOCKED_LO lo).setReg GP_LOCKED_HI hi
  let s := s.quietly (fun s => c.undo.reverse.foldl (fun s e => s.busWrite1 .host c.load.org e.1 e.2) s)
  let s := { s with mem := { s.mem with asked := c.regions, slots := c.slots }, chain := { s.chain with pins := c.chainPins }
                    pins := { s.pins with startHold := c.startHold } }
  s.applyRegions.padRefresh

end Sys2Proof.Machine
end

