-- ==== Sys2Proof/Machine/ConfigCheck.lean ====
section
/-!
DEFINITION. The parts of a logical configuration image (R475 to R481) and the checks that a load passes before it is applied (R484).
-/
namespace Sys2Proof.Machine

/-! ## Section table and records -/

/-- An entry of the section table (R476). -/
structure Section where
  typ : Nat
  ver : Nat
  off : Nat
  len : Nat
  crc : Nat
  deriving DecidableEq, Repr

/-- The section table of logical image im. -/
def sectionsOf (im : List Byte) : List Section :=
  (List.range (imgSections im)).map (fun i =>
    let o := 64 + 16 * i
    { typ := leNat im o 1, ver := leNat im (o + 1) 1, off := leNat im (o + 4) 4, len := leNat im (o + 8) 4, crc := leNat im (o + 12) 4 })

/-- The body of a section. -/
def Section.body (x : Section) (im : List Byte) : List Byte := (im.drop x.off).take x.len

/-- Whether the device applies the section (R476): a known type of version 1. -/
def Section.known (x : Section) : Bool := decide (1 ≤ x.typ) && decide (x.typ ≤ 12) && x.ver == 1

/-- Whether two bodies overlap. -/
def Section.overlaps (x y : Section) : Bool :=
  decide (0 < x.len ∧ 0 < y.len) && decide (x.off < y.off + y.len) && decide (y.off < x.off + x.len)

/-- Whether entry x keeps R476 in an image of n sections and length l, beside the entries before it. -/
def Section.fits (x : Section) (n l : Nat) (before : List Section) : Bool :=
  decide (x.off % 4 = 0) && decide (x.len % 4 = 0) && decide (64 + 16 * n ≤ x.off) && decide (x.off + x.len ≤ l)
    && before.all (fun y => !x.overlaps y)

/-- The records at the start of a section body, at most as many as the first argument (R478), and whether they fill it exactly. -/
def cfgRecords : Nat → List Byte → List CfgRec × Bool
  | _, [] => ([], true)
  | 0, _ => ([], false)
  | n + 1, bs =>
    let len := leNat bs 2 2
    if bs.length < 4 + len ∨ len % 4 ≠ 0 then ([], false)
    else
      let r := cfgRecords n (bs.drop (4 + len))
      ({ kind := leNat bs 0 1, body := (bs.drop 4).take len } :: r.1, r.2)

/-- The records of a section. -/
def Section.records (x : Section) (im : List Byte) : List CfgRec × Bool := cfgRecords (x.len / 4) (x.body im)

/-- Whether a section of type t accepts records of a kind (R477, R479). -/
def accepts (t kind : Nat) : Bool :=
  kind == 1 || kind == 2 || kind == 3 || (kind == 0x10 && [1, 3, 4, 6, 7, 10].contains t) || (kind == 0x11 && t == 4)

/-- The protocol image of an IMAGE record (R480): TOTAL_LEN bytes from byte 4. -/
def CfgRec.image (r : CfgRec) : List Byte := (r.body.drop 4).take (leNat r.body 12 4)

/-- Whether record r has the size that its kind requires in a section of type t (R479, R480). -/
def CfgRec.sizeOk (t : Nat) (r : CfgRec) : Bool :=
  let n := r.body.length
  if accepts t r.kind = false then true
  else match r.kind, t with
    | 1, _ => decide (8 ≤ n) && decide (n ≤ 4096)
    | 2, _ => n == 12
    | 3, _ => true
    | 0x11, _ => n == 4
    | _, 1 => n == 8
    | _, 3 => n == 20
    | _, 4 => n == 24
    | _, 6 => n == 20
    | _, 7 => decide (16 ≤ n) && n == 4 + divUp (leNat r.body 12 4) 4 * 4
    | _, _ => n == 20

/-- The index of the first record of section x that breaks R478, none where all keep it. -/
def Section.badRecord (x : Section) (im : List Byte) : Option Nat :=
  let r := x.records im
  match r.1.findIdx? (fun c => !c.sizeOk x.typ) with
  | some i => some i
  | none => if r.2 then none else some r.1.length

/-! ## The checks -/

/-- Where a load fails (R484, R500): the result, the entry of the section table, the code of R366, the record or the frame, and the TYPE. -/
structure CfgFault where
  code : Nat
  entry : Nat := 0
  ld : Nat := 0
  record : Nat := 0
  typ : Nat := 0
  deriving DecidableEq, Repr

/-- The first entry of a list, with its number, for which a check gives a fault. -/
def firstFault (xs : List Section) (f : Nat → Section → Option CfgFault) : Option CfgFault :=
  xs.zipIdx.findSome? (fun p => f p.2 p.1)

/-- The signature checks of R484, which a SIGNED image takes (R474): 9 NO_KEY, 10 KEY_MISMATCH, 11 SIG_FAIL, 0 where all pass. -/
def State.signResult (s : State) (bs im : List Byte) : Nat :=
  let t := bs.drop (divUp (imgLength im) 4088 * 4096)
  let key := (t.drop 4).take 32
  let hash := s.keyHash (imgFlags im / 2 % 2)
  if imgFlags im % 2 = 0 then 0
  else if hash = 0 then 9
  else if Config.sha256 key ≠ hash then 10
  else if Config.ed25519 key (im.take (imgLength im) ++ t.take 4) ((t.drop 36).take 64) = false then 11
  else 0

/-- Whether a bit of FEAT_REQ is clear in FEAT_OFFER. -/
def State.featMissing (s : State) (im : List Byte) : Bool :=
  (List.range 4).any (fun i => Nat.land (leNat im (0x18 + 4 * i) 4) (0xFFFFFFFF - (s.reg (FEAT_OFFER i)).toNat) != 0)

/-- The first IMAGE record of section x, entry i, whose protocol image fails its checks (R366). -/
def State.imageFault (s : State) (im : List Byte) (i : Nat) (x : Section) : Option CfgFault :=
  if x.typ ≠ 7 ∨ x.ver ≠ 1 then none
  else (x.records im).1.zipIdx.findSome? (fun p =>
    let bs := p.1.image
    let r := if p.1.kind = 0x10 then s.imageResult bs bs.length else 0
    if r = 0 then none else some { code := 16, entry := i, ld := r, record := p.2, typ := 7 })

/-- The checks 13 to 16 of R484: every entry by one check before the next. -/
def State.sectionFault (s : State) (im : List Byte) : Option CfgFault :=
  let xs := sectionsOf im
  let at_ (c : Nat) (i : Nat) (x : Section) (b : Bool) : Option CfgFault := if b then some { code := c, entry := i, typ := x.typ } else none
  (firstFault xs (fun i x => at_ 13 i x (!x.fits xs.length (imgLength im) (xs.take i)))).orElse (fun _ =>
    (firstFault xs (fun i x => at_ 14 i x (crcBytes (x.body im) != x.crc))).orElse (fun _ =>
      (firstFault xs (fun i x => if x.known then (x.badRecord im).map (fun k => ({ code := 15, entry := i, record := k, typ := x.typ } : CfgFault))
        else none)).orElse (fun _ => firstFault xs (s.imageFault im))))

/-- The checks of R484 on framed image bs of CF_LEN len, in the table's order: the first that fails. -/
def State.cfgCheck (s : State) (bs : List Byte) (len : Nat) : Option CfgFault :=
  match framesOf len with
  | none => some { code := 7 }
  | some f =>
    match framesResult bs f with
    | some (c, k) => some { code := c, record := k }
    | none =>
      let im := logicalOf bs f
      let h := headResult bs im len
      let g := if h ≠ 0 then h else s.signResult bs im
      if g ≠ 0 then some { code := g }
      else if s.featMissing im then some { code := 12 }
      else s.sectionFault im

end Sys2Proof.Machine
end

