-- ==== Sys2Proof/Machine/Commit.lean ====
section
/-!
DEFINITION. The commit of a checked configuration image (R479 to R481, R486 to R494): what each section does when the commit reaches it,
and when its objects have reached their boundaries.
-/
namespace Sys2Proof.Machine

/-! ## Records and words -/

/-- The master that a commit's words come from: its load's origin; the supervisors for a boot source. -/
def commitMaster : Origin → Master
  | .host => .host
  | .calm => .calm
  | .chain d => .chain d
  | .engine e => .engine e
  | _ => .supervisor 0

/-- n entries, records or words of the load are skipped (R484, R500). -/
def State.cfgSkip (s : State) (n : Nat) : State := if n = 0 then s else (s.incBy CF_SKIPPED n).on CF_EVT.SKIPPED

/-- The state with the commit in progress changed. -/
def State.modCommit (s : State) (f : Commit → Commit) : State := { s with cfg := { s.cfg with commit := s.cfg.commit.map f } }

/-- A record or word of the section being applied is skipped. -/
def State.skipOne (s : State) : State := (s.cfgSkip 1).modCommit (fun (c : Commit) => { c with skipped := c.skipped + 1 })

/-- A record of the section being applied has been applied. -/
def State.appliedOne (s : State) : State := s.modCommit (fun (c : Commit) => { c with applied := c.applied + 1 })

/-- The records of a commit's sections of type t, in table order and body order (R486). -/
def Commit.records (c : Commit) (t : Nat) : List CfgRec :=
  ((sectionsOf c.image).filter (fun x => x.known && x.typ == t)).flatMap (fun x => (x.records c.image).1)

/-- A number of n bytes in a record's body. -/
def CfgRec.num (r : CfgRec) (off n : Nat) : Nat := leNat r.body off n

/-- The words of a WRITE or MODIFY record (R479), each as its address, a mask of the bits that it sets, and its value. -/
def CfgRec.words (r : CfgRec) : List (Nat × Word × Word) :=
  let off := r.num 0 4 / 4 * 4
  if r.kind = 1 then
    (List.range ((r.body.length - 4) / 4)).map (fun i => (off + 4 * i, 0xFFFFFFFF, BitVec.ofNat 32 (r.num (4 + 4 * i) 4)))
  else if r.kind = 2 then [(off, BitVec.ofNat 32 (r.num 4 4), BitVec.ofNat 32 (r.num 8 4))]
  else []

/-- The value that a word gives a register over old. -/
def laid (old : Word) (w : Nat × Word × Word) : Word := (old &&& ~~~w.2.1) ||| (w.2.2 &&& w.2.1)

/-- Words that are to take effect together, as addresses and values in order (R490): a MODIFY sees the value that an earlier word gives. -/
def State.cfgResolve (s : State) (ws : List (Nat × Word × Word)) : List (Nat × Word) :=
  (ws.foldl (fun (acc : List (Nat × Word)) w =>
    let stored := s.reg w.1
    let old : Word := match acc.find? (fun x => x.1 == w.1) with
      | some x => (match regRow? w.1 with | some r => storeValue r 0 stored x.2 | none => x.2)
      | none => stored
    (w.1, laid old w) :: acc) []).reverse

/-- A register write of the commit (R479): as one from the load's origin, without a CONFIG_WRITE record. -/
def State.cfgPut (s : State) (a : Nat) (v : Word) : State :=
  match s.cfg.commit with
  | none => s
  | some c =>
    let s := if c.first then s.modCommit (fun (c : Commit) => { c with undo := c.undo ++ [(a, s.reg a)] }) else s
    s.quietly (fun s => s.busWrite1 (commitMaster c.load.org) c.load.org a v)

/-- A word of a section of type t at once (R479): outside the section's reach it is skipped, and so are the fields that PINLOCK keeps
(R489). -/
def State.cfgWord (s : State) (t : Nat) (w : Nat × Word × Word) : State :=
  if sectionOf w.1 ≠ t then s.skipOne
  else
    let old := s.reg w.1
    let v := laid old w
    let rwl : Word := match regRow? w.1 with | some r => BitVec.ofNat 32 r.rwl | none => 0
    let lock := s.lockedBits w.1 old &&& rwl
    if t = 1 ∧ lock ≠ 0 then s.skipOne.cfgPut w.1 ((v &&& ~~~lock) ||| (old &&& lock))
    else s.cfgPut w.1 v

/-- The words of record r that lie in the reach of a section of type t; the others are skipped, and a record with one in reach is applied. -/
def State.cfgReach (s : State) (t : Nat) (r : CfgRec) : State :=
  let out := r.words.filter (fun w => sectionOf w.1 != t)
  let s := out.foldl (fun s _ => s.skipOne) s
  if out.length < r.words.length then s.appliedOne else s

/-- The words of type t that are in reach, in order. -/
def cfgWords (t : Nat) (rs : List CfgRec) : List (Nat × Word × Word) := (rs.flatMap CfgRec.words).filter (fun w => sectionOf w.1 == t)

/-- Records whose kind the section of type t does not accept are skipped (R478): those that are left. -/
def State.cfgAccepted (s : State) (t : Nat) (rs : List CfgRec) : List CfgRec × State :=
  (rs.filter (fun r => accepts t r.kind), (rs.filter (fun r => !accepts t r.kind)).foldl (fun s _ => s.skipOne) s)

/-! ## Sections that act at once (R480, R481, R489) -/

/-- A QUEUE record: it stages its values and applies CREATE, or MODIFY where the queue exists. -/
def State.queueRecord (s : State) (o : Origin) (r : CfgRec) : State :=
  let w (i : Nat) : Word := BitVec.ofNat 32 (r.num (4 * i) 4)
  let s := (((s.setStage o 0 (w 0 &&& 0xFFFF)).setStage o 1 (w 1 &&& 0xF1F7F)).setStage o 2 (w 2)).setStage o 3 (w 3 &&& 0xFFFF0001)
  let s := (s.setStage o 4 (w 4)).setStage o 5 (w 5 &&& 0x803FFFFF)
  s.applyQueue (r.num 0 2) (s.stagedCfg o) o

/-- A REGION record (R481): the latest with its USE. -/
def State.regionRecord (s : State) (r : CfgRec) : State :=
  let use := r.num 0 1
  let g : Region := { use := use, base := r.num 4 8 / 4096 * 4096, size := r.num 12 8 / 4096 * 4096 }
  { s with mem := { s.mem with asked := s.mem.asked.filter (fun x => x.use != use) ++ [g] } }

/-- A PIN record (R322, R480): the latest with its SN and the latest with its DEV. -/
def State.pinRecord (s : State) (r : CfgRec) : State :=
  let sn := BitVec.ofNat 128 (r.num 0 16)
  let d := r.num 16 1
  { s with chain := { s.chain with pins := s.chain.pins.filter (fun x => x.1 != sn && x.2 != d) ++ [(sn, d)] } }

/-- A record of a section of type t that acts at once, load origin o. -/
def State.cfgRecord (s : State) (o : Origin) (t : Nat) (r : CfgRec) : State :=
  match r.kind, t with
  | 3, _ => s
  | 0x10, 1 => (s.quietly (fun s => s.lockPins o (BitVec.ofNat 64 (r.num 0 8)))).appliedOne
  | 0x10, 3 => if 1 ≤ r.num 0 1 ∧ r.num 0 1 ≤ 4 then (s.regionRecord r).appliedOne else s.skipOne
  | 0x10, 4 => (s.queueRecord o r).appliedOne
  | 0x11, 4 =>
    let n := r.num 0 2
    (if (s.queue n).ex then s.deleteQueue n o else s.on QF_EVT.BAD_CMD).appliedOne
  | 0x10, 10 => if 1 ≤ r.num 16 1 ∧ r.num 16 1 ≤ 63 then (s.pinRecord r).appliedOne else s.skipOne
  | _, _ =>
    let s := r.words.foldl (fun s w => s.cfgWord t w) s
    if r.words.any (fun w => sectionOf w.1 == t) then s.appliedOne else s

/-- A section of type t that acts at once: its records in body order, LOCK after the rest (R480). A PINS section is skipped in recovery
(R522). -/
def State.applyPlain (s : State) (c : Commit) (t : Nat) : State :=
  let o := c.load.org
  let all := c.records t
  if t = 1 ∧ s.recovery then
    ((sectionsOf c.image).filter (fun x => x.known && x.typ == 1)).foldl (fun s _ => s.skipOne) s
  else
    let (rs, s) := s.cfgAccepted t all
    let lock (r : CfgRec) : Bool := t == 1 && r.kind == 0x10
    let s := (rs.filter (fun r => !lock r)).foldl (fun s r => s.cfgRecord o t r) s
    let s := (rs.filter lock).foldl (fun s r => s.cfgRecord o t r) s
    if t = 3 then s.applyRegions else s

/-- CLOCKS: the PLLs that the section changes are waited for (R487, R489). -/
def State.applyClocks (s : State) (c : Commit) : State :=
  let was (n : Nat) : Nat × Bool := (s.rd (CK_PLL.STATE n), s.pllEnabled n)
  let t := s.applyPlain c 2
  let moved := (List.range 5).filter (fun n => was n != (t.rd (CK_PLL.STATE n), t.pllEnabled n))
  t.modCommit (fun (c : Commit) => { c with plls := moved })

/-- MEMORY: a bank change that is refused counts as a refused record (R489). -/
def State.applyMemory (s : State) (c : Commit) : State :=
  let t := s.applyPlain c 3
  t.modCommit (fun (x : Commit) => { x with refused := (t.reg MEM_CNT_BUSY).toNat - (s.reg MEM_CNT_BUSY).toNat })

/-! ## SPORTS (R490 to R492) -/

/-- The last of the words to each address. -/
def lastWords : List (Nat × Word) → List (Nat × Word)
  | [] => []
  | w :: ws => if ws.any (fun x => x.1 == w.1) then lastWords ws else w :: lastWords ws

/-- The bits of register a of port n whose change makes a reload structural (R490). -/
def structuralBits (n a : Nat) : Nat :=
  if (List.range 7).any (fun b => bindingReg n b == a) then 0x8000FFFF
  else if a = SP_LINE n then 0xF
  else if a = SP_ADDR n then 3
  else if a = SP_TXARB n then 0xFFFFFFFF
  else if a = SP_CTRL n then 2 ^ (SP_CTRL.LOOPBACK n).lo
  else 0

/-- Whether a reload of port n with words ws is structural (R490). -/
def State.structural (s : State) (n : Nat) (ws : List (Nat × Word)) : Bool :=
  (lastWords ws).any (fun w => Nat.land (s.reg w.1 ^^^ w.2).toNat (structuralBits n w.1) != 0)

/-- The commit reaches port n with words ws (R490 to R492). -/
def State.reloadPort (s : State) (n : Nat) (ws : List (Nat × Word)) : State :=
  let st := s.structural n ws
  let s := s.setPort n { s.port n with reload := some { structural := st, since := s.time.tick, words := ws } }
  let s := if st then s.modCommit (fun (c : Commit) => { c with quiesced := c.quiesced + 1 }) else s
  if st && s.twRuns n && !(s.tw n).cycling then s.twReloadStop n else s

/-- The words of a SPORTS section by port, records counted. -/
def State.applySports (s : State) (c : Commit) : State :=
  let (rs, s) := s.cfgAccepted 5 (c.records 5)
  let s := rs.foldl (fun s r => s.cfgReach 5 r) s
  let ws := s.cfgResolve (cfgWords 5 rs)
  if c.first then ws.foldl (fun s w => if (List.range 16).any (fun n => w.1 == SP_BAUD n || w.1 == SP_BAUDCFG n) then s.storeQuiet w.1 w.2
      else s.cfgPut w.1 w.2) s
  else
    (List.range 16).foldl (fun s n =>
      let mine := ws.filter (fun w => (w.1 - 0x80000) / 0x1000 == n)
      if mine.isEmpty then s else s.reloadPort n mine) s

/-- Every port starts from the values written, the written rate in force at once without settling; its receiver waits for one bit time of
mark (R487). -/
def State.portsLive (s : State) : State :=
  (List.range 16).foldl (fun s n =>
    let s := (s.applyRate n (s.reg (SP_BAUD n)) (s.reg (SP_BAUDCFG n))).off (SP_STAT.BAUD_SETTLING n)
    let p := s.port n
    let p := { p with rxFmt := s.lineRegs n, txFmt := s.lineRegs n, rate := none }
    (s.setPort n { p with needMark := some (s.time.tick, s.bitTime n) }).updateFlow n) s

/-! ## SCHEDULES (R480) -/

/-- A SLOT record: the edit copy of its entry. -/
def State.slotRecord (s : State) (r : CfgRec) : State :=
  let n := r.num 0 1
  let m := r.num 1 1
  let w (i : Nat) : Word := BitVec.ofNat 32 (r.num (4 + 4 * i) 4)
  if 15 < n ∨ 3 < m ∨ 63 < r.num 2 1 then s.skipOne
  else
    let x := s.tw n
    let e : TwEntry := { d0 := w 0, d1 := w 1, d2 := w 2 &&& 0xFFFF97FF }
    (s.setTw n (x.setMode m { x.mode m with edit := tabPut noEntry (x.mode m).edit (r.num 2 1) e })).appliedOne

/-- Whether the records touch mode m of port n: by a SLOT record, or a word to its cycle length or guard. -/
def modeTouched (rs : List CfgRec) (n m : Nat) : Bool :=
  rs.any (fun r => (r.kind == 0x10 && r.num 0 1 == n && r.num 1 1 == m && decide (r.num 2 1 ≤ 63))
    || r.words.any (fun w => w.1 == TW_CYCLE n m || w.1 == TW_GUARD n m))

/-- A SCHEDULES section in its four passes. -/
def State.applySchedules (s : State) (c : Commit) : State :=
  let o := c.load.org
  let (rs, s) := s.cfgAccepted 6 (c.records 6)
  let late (a : Nat) : Bool := (List.range 16).any (fun n => a == TW_CTRL n || a == TW_TCOMMIT n)
  let slots := rs.filter (fun r => r.kind == 0x10)
  let s := slots.foldl (fun s r => s.slotRecord r) s
  let s := rs.foldl (fun s r => if r.kind = 0x10 then s else s.cfgReach 6 r) s
  let ws := cfgWords 6 (rs.filter (fun r => r.kind != 0x10))
  let s := (ws.filter (fun w => !late w.1)).foldl (fun s w => s.cfgWord 6 w) s
  let s := s.quietly (fun s => (List.range 16).foldl (fun s n =>
    let modes := (List.range 4).filter (fun m => modeTouched rs n m)
    if modes.isEmpty then s
    else s.doing (execTwTableCommit o (Fin.ofNat 16 n) (BitVec.ofNat 4 ((modes.map (fun m => 2 ^ m)).sum)))) s)
  (ws.filter (fun w => late w.1)).foldl (fun s w => s.cfgWord 6 w) s

/-! ## NETPORTS (R493) -/

/-- The network port, or 12 plus the MDIO master, that a NETPORTS word addresses. -/
def netObject (a : Nat) : Nat := if a < 0x230000 then (a - 0x200000) / 0x4000 else 12 + (a - 0x230000) / 0x100

/-- Whether object k may take its reload now: a MAC between frames, an MDIO master between frames. -/
def State.netIdle (s : State) (k : Nat) : Bool :=
  if k < 12 then (s.net k).wire.isNone && (s.net k).incoming.isNone else !s.bit (MD_STAT.BUSY (k - 12))

/-- Whether words ws change a field of NP_CTRL that takes the link of port k down. -/
def State.netDown (s : State) (k : Nat) (ws : List (Nat × Word)) : Bool :=
  decide (k < 12) && (lastWords ws).any (fun w => w.1 == NP_CTRL k && (s.reg w.1 ^^^ w.2) &&& 0xFF != 0)

/-- The objects of NETPORTS whose words wait take them, where they may. -/
def State.netsGo (s : State) : State :=
  match s.cfg.commit with
  | none => s
  | some c =>
    let (due, wait) := c.nets.partition (fun x => s.netIdle x.1)
    let s := s.modCommit (fun (c : Commit) => { c with nets := wait })
    due.foldl (fun s x => x.2.foldl (fun s w => s.cfgPut w.1 w.2) s) s

/-- A NETPORTS section. -/
def State.applyNets (s : State) (c : Commit) : State :=
  let (rs, s) := s.cfgAccepted 8 (c.records 8)
  let s := rs.foldl (fun s r => s.cfgReach 8 r) s
  let ws := s.cfgResolve (cfgWords 8 rs)
  if c.first then ws.foldl (fun s w => s.cfgPut w.1 w.2) s
  else
    ((List.range 14).foldl (fun s k =>
      let mine := ws.filter (fun w => netObject w.1 == k)
      if mine.isEmpty then s
      else if s.netDown k mine then
        (mine.foldl (fun s w => s.cfgPut w.1 w.2) (s.netDrop k)).modCommit (fun (c : Commit) => { c with quiesced := c.quiesced + 1 })
      else s.modCommit (fun (c : Commit) => { c with nets := c.nets ++ [(k, mine)] })) s).netsGo

/-! ## ENGINES (R480, R489) -/

/-- Whether record r is an IMAGE record, the slot that it names, and its REPLACE. -/
def CfgRec.isImage (r : CfgRec) : Bool := r.kind == 0x10
def CfgRec.slot (r : CfgRec) : Nat := r.num 0 1 % 16
def CfgRec.replace (r : CfgRec) : Bool := r.num 1 1 % 2 == 1

/-- An IMAGE record goes to the image loader with OWNER 4 (R364 to R367, R480), for the origin of its commit (R30): one that it refuses is
counted. -/
def State.feedImage (s : State) (r : CfgRec) : State :=
  let bs := r.image
  let s := ((s.wr LD_STAT.SLOT r.slot).wr LD_STAT.OWNER 4).setReg LD_PROGRESS (BitVec.ofNat 32 bs.length)
  let o := match s.cfg.commit with | some c => c.load.org | none => .boot
  let s := { s with loader := { owner := .boot, org := o, len := bs.length, replace := r.replace, staged := bs } }
  let s := ((s.wr LD_STAT.STATE ldVerifying).wr LD_STAT.RESULT 0).doing execImageLoad
  if s.rd LD_STAT.STATE = ldFailed then s.modCommit (fun (c : Commit) => { c with refused := c.refused + 1 }) else s.appliedOne

/-- The IMAGE records that wait go to the loader one after another, each once it is free. -/
def State.feedImages : Nat → State → State
  | 0, s => s
  | n + 1, s =>
    match s.cfg.commit with
    | none => s
    | some c =>
      match c.recs with
      | [] => s
      | r :: rest =>
        if s.loading then s else feedImages n ((s.modCommit (fun (c : Commit) => { c with recs := rest })).feedImage r)

/-- Whether the IMAGE records of the commit have all left the loader. -/
def State.imagesDone (s : State) (c : Commit) : Bool := c.recs.isEmpty && !(s.loading && s.loader.owner == Origin.boot)

/-- Whether words ws change the binding or a queue port of engine e. -/
def State.rebinds (s : State) (e : Nat) (ws : List (Nat × Word)) : Bool :=
  (lastWords ws).any (fun w => (w.1 == CE_BIND e || (List.range 16).any (fun i => w.1 == CE_QPORT e i))
    && (match regRow? w.1 with | some r => storeValue r 0 (s.reg w.1) w.2 != s.reg w.1 | none => false))

/-- The engines whose binding, queue ports or slot content a section changes, of those that run. -/
def State.enginesHit (s : State) (rs : List CfgRec) : List Nat :=
  let ws := s.cfgResolve (cfgWords 7 rs)
  let slots := (rs.filter (fun r => r.isImage && r.replace)).map CfgRec.slot
  (List.range 48).filter (fun e =>
    let st := s.ceState e
    (st == ceRunning || st == ceGated || st == ceAborting) && (s.rebinds e ws || (s.bound e && slots.contains (s.slotOf e))))

/-- The words of an ENGINES section, at once. -/
def State.engineWords (s : State) (rs : List CfgRec) : State := (cfgWords 7 rs).foldl (fun s w => s.cfgWord 7 w) s

/-- Engine e, stopped for the section, starts again (R374), in LULL at its exit (R496), unless its words unbind or halt it. -/
def State.engineAgain (s : State) (e : Nat) : State :=
  let x := s.eng e
  if x.again = false ∨ s.rd PW_STAT.STATE = 1 then s
  else if s.bound e && x.started then s.startEngine e
  else s.setEng e { x with again := false }

/-- An ENGINES section goes on as far as it can: once the engines have stopped, its words; then its images; then the engines start
again. -/
def State.enginesGo (s : State) : State :=
  match s.cfg.commit with
  | none => s
  | some c =>
    if c.stops.any (fun e => s.ceState e == ceAborting) then s
    else
      let rs := c.records 7
      let s := if c.imaged then s else
        let s := s.engineWords (rs.filter (fun r => accepts 7 r.kind))
        s.modCommit (fun (c : Commit) => { c with imaged := true, recs := rs.filter CfgRec.isImage })
      let s := State.feedImages 4096 s
      match s.cfg.commit with
      | some c => if s.imagesDone c then c.stops.foldl (fun s e => s.engineAgain e) s else s
      | none => s

/-- An ENGINES section of a commit after the first. -/
def State.applyEngines (s : State) (c : Commit) : State :=
  let (rs, s) := s.cfgAccepted 7 (c.records 7)
  let s := rs.foldl (fun s r => if r.isImage then s else s.cfgReach 7 r) s
  let hit := s.enginesHit rs
  let s := s.modCommit (fun (c : Commit) => { c with stops := hit, quiesced := hit.length, imaged := false })
  (hit.foldl (fun s e => s.beginAbort e .replace) s).enginesGo

/-! ## INTERRUPTS (R494) -/

/-- The words of an INTERRUPTS section: those of the sources' and targets' routing registers together, the others at once. -/
def State.applyInterrupts (s : State) (c : Commit) : State :=
  let (rs, s) := s.cfgAccepted 11 (c.records 11)
  let s := rs.foldl (fun s r => s.cfgReach 11 r) s
  let ws := cfgWords 11 rs
  let src (a : Nat) : Option Nat := (copyOf a (EIC_SRC_CFG 1) 4 2046).map (· + 1)
  let tgt (a : Nat) : Option Nat := copyOf a (EIC_TCFG 0) 0x20 8
  let routes (a : Nat) : Bool := (src a).isSome || (tgt a).isSome
  let s := (ws.filter (fun w => !routes w.1)).foldl (fun s w => s.cfgWord 11 w) s
  let s := if ws.any (fun w => decide (EL_XCFG ≤ w.1) && decide (w.1 ≤ EL_XRECS)) then s.logResize true else s
  let rw := lastWords (s.cfgResolve (ws.filter (fun w => routes w.1)))
  let value (w : Nat × Word) : Word := match regRow? w.1 with | some r => storeValue r 0 (s.reg w.1) w.2 | none => 0
  let s := if c.first then
      s.modCommit (fun (c : Commit) => { c with undo := c.undo ++ rw.map (fun w => (w.1, s.reg w.1)) })
    else s
  s.routeWrite (rw.filterMap (fun w => (src w.1).map (fun n => (n, value w)))) (rw.filterMap (fun w => (tgt w.1).map (fun t => (t, value w))))

/-! ## The commit -/

/-- The section of type t is applied, as far as the commit applies it when it reaches it. -/
def State.applyType (s : State) (c : Commit) (t : Nat) : State :=
  match t with
  | 2 => s.applyClocks c
  | 3 => s.applyMemory c
  | 5 => s.applySports c
  | 6 => s.applySchedules c
  | 7 => s.applyEngines c
  | 8 => s.applyNets c
  | 11 => s.applyInterrupts c
  | t => s.applyPlain c t

/-- Whether every object of type t has reached its boundary in commit c (R487, R489). -/
def State.reached (s : State) (c : Commit) (t : Nat) : Bool :=
  match t with
  | 2 => c.plls.all (fun n => s.rd (CK_PLL.STATE n) == 3 || !s.pllEnabled n)
  | 3 => !c.first || ((List.range 2).all (fun k => s.rd (DDR_STAT.STATE k) != ddrInitState && s.rd (DDR_STAT.STATE k) != ddrTraining)
      && s.mem.initWait.isEmpty)
  | 4 => s.ledger.createWait.isEmpty
  | 5 => (List.range 16).all (fun n => (s.port n).reload.isNone)
  | 6 => (List.range 16).all (fun n => !(s.tw n).restart && (List.range 4).all (fun m => ((s.tw n).mode m).pend.isNone))
  | 7 => c.imaged && s.imagesDone c && c.stops.all (fun e => (!(s.eng e).again || s.rd PW_STAT.STATE == 1) && s.ceState e != ceAborting)
  | 8 => c.nets.isEmpty
  | 11 => s.eic.waiting.isEmpty && s.eic.tcfgs.isEmpty
  | _ => true

/-- The apply order of a commit (R477, R486): in a first one the five types that go live together come last (R487). -/
def applyOrder (first : Bool) : List Nat :=
  if first then [2, 3, 1, 9, 10, 11, 12, 4, 5, 6, 8, 7] else [2, 3, 1, 9, 4, 5, 6, 8, 7, 10, 11, 12]

/-- A load that has passed its checks is committed (R486). -/
def State.startCommit (s : State) (l : CfgLoad) : State :=
  let im := logicalOf l.bytes (l.len / 4096)
  let has (t : Nat) : Bool := (sectionsOf im).any (fun x => x.known && x.typ == t)
  let first := !s.committed
  let locked : Word64 := BitVec.ofNat 64 (s.pair GP_LOCKED_LO GP_LOCKED_HI)
  let c : Commit := {
    load := { l with passed := true }, image := im, first := first, todo := (applyOrder first).filter has, regions := s.mem.asked
    slots := s.mem.slots, chainPins := s.chain.pins, locked := locked, startHold := s.pins.startHold }
  { s with cfg := { s.cfg with load := none, commit := some c } }.wr CF_STAT.STATE 3

/-- CP_BOOTSTAT.STATE after a commit that is DONE (R522): 5, or still 7 in recovery. -/
def State.bootDone (s : State) : State := if s.rd CP_BOOTSTAT.STATE = 7 then s else s.wr CP_BOOTSTAT.STATE 5

/-- The commit is DONE (R488, R497, R500); a load that has passed its checks meanwhile is committed next (R495). -/
def State.commitDone (s : State) (c : Commit) : State :=
  let im := c.image
  let w (n : Nat) : Word := BitVec.ofNat 32 n
  let s := { s with cfg := { s.cfg with commit := none } }
  let s := ((s.setReg CF_LAST_ID (w (leNat im 0xC 4))).setReg CF_LAST_VER (w (leNat im 0x10 4))).setReg CF_LAST_CRC
    (w (leNat c.load.bytes (c.load.len / 4096 * 4096) 4))
  let s := ((s.inc CF_CNT_COMMIT).cfEnd c.load 0).bootDone.lateApply
  match s.cfg.load with
  | some l => if l.passed then s.startCommit l else s.nextLoad
  | none => s.nextLoad

/-- The types that a first commit makes live together (R487). -/
def liveType (t : Nat) : Bool := [4, 5, 6, 8, 7].contains t

/-- Type t begins: its counts are 0. -/
def State.beginType (s : State) (t : Nat) (rest : List Nat) : State :=
  s.modCommit (fun (c : Commit) => { c with
    now := t, todo := rest, applied := 0, skipped := 0, refused := 0, quiesced := 0, discarded := 0, imaged := false })

/-- One of the types that go live, with its event; the images of ENGINES have gone ahead. -/
def State.liveOne (s : State) (c : Commit) (t : Nat) : State :=
  let s := s.beginType t []
  let s :=
    if t = 7 then
      let (rs, s) := (s.modCommit (fun (x : Commit) => { x with applied := c.applied, refused := c.refused })).cfgAccepted 7 (c.records 7)
      (rs.foldl (fun s r => if r.isImage then s else s.cfgReach 7 r) s).engineWords rs
    else s.applyType c t
  match s.cfg.commit with
  | some x => s.sectionEvent x
  | none => s

/-- The end of a first commit (R487): once the images are in their slots, the structure goes live in one cycle. -/
def State.goLive (s : State) : State :=
  match s.cfg.commit with
  | none => s
  | some c =>
    let s := if c.imaged then s else
      s.modCommit (fun (c : Commit) => { c with imaged := true, applied := 0, refused := 0, recs := (c.records 7).filter CfgRec.isImage })
    let s := State.feedImages 4096 s
    match s.cfg.commit with
    | none => s
    | some c =>
      if s.imagesDone c = false then s.wr CF_STAT.STATE 4
      else
        let s := { s.on CF_STAT.COMMITTED with rst := { s.rst with committed := true } }
        let s := (c.todo.foldl (fun s t => s.liveOne c t) s).portsLive
        s.commitDone c

/-- The commit applies its next type, where none waits for its boundary. -/
def State.applyNext (s : State) : State :=
  match s.cfg.commit with
  | none => s
  | some c =>
    if c.now ≠ 0 then s
    else match c.todo with
      | [] => if c.first then s.goLive else s.commitDone c
      | t :: rest =>
        if c.first ∧ liveType t then s.goLive
        else
          let s := ((s.beginType t rest).wr CF_STAT.STATE 3).applyType c t
          match s.cfg.commit with
          | some x => if s.reached x t then s else s.wr CF_STAT.STATE 4
          | none => s

/-- The type being applied ends once its objects have reached their boundaries (R488, R497): its event, then the writes that waited for
it (R32). -/
def State.sectionDone (s : State) : State :=
  let s := s.netsGo
  match s.cfg.commit with
  | none => s
  | some c =>
    if c.now = 0 then s
    else
      let s := if c.now = 7 then s.enginesGo else s
      match s.cfg.commit with
      | none => s
      | some c =>
        if s.reached c c.now = false then s
        else
          let s := (s.sectionEvent c).modCommit (fun (c : Commit) => { c with now := 0, plls := [], stops := [] })
          let s := (s.wr CF_STAT.STATE 3).lateApply
          if c.todo.isEmpty ∧ c.first = false then s.commitDone c else s

/-! ## The end of a commit by a core reset (R496) -/

/-- Whether a record of section t of commit c writes the register at a. -/
def Commit.writes (c : Commit) (t a : Nat) : Bool := (cfgWords t (c.records t)).any (fun w => w.1 == a)

/-- The objects that commit c has reached and that have not passed their boundaries keep the old values (R496): reloads of ports, run copies
that wait for a cycle boundary, queues that wait for the sweep, and routing that waits for claims. -/
def State.keepOld (s : State) (c : Commit) : State :=
  match c.now with
  | 4 =>
    let named (n : Nat) : Bool := (c.records 4).any (fun r => r.kind == 0x10 && r.num 0 2 == n)
    { s with ledger := { s.ledger with createWait := s.ledger.createWait.filter (fun x => !named x.1) } }
  | 5 => (List.range 16).foldl (fun s n => s.setPort n { s.port n with reload := none }) s
  | 6 =>
    (List.range 16).foldl (fun s n => (List.range 4).foldl (fun s m =>
      let w := s.tw n
      if modeTouched (c.records 6) n m ∧ (w.mode m).pend.isSome then
        let g := { w.guard with loads := tabPut (fun _ => none) w.guard.loads m none }
        s.setTw n ({ w with guard := g }.setMode m { w.mode m with pend := none })
      else s) s) s
  | 11 =>
    { s with eic := { s.eic with
      waiting := s.eic.waiting.filter (fun w => !c.writes 11 (EIC_SRC_CFG w.src))
      tcfgs := s.eic.tcfgs.filter (fun x => !c.writes 11 (EIC_TCFG x.1)) } }
  | _ => s

/-- A core reset ends the commit in progress with RESET (R496): a first one is undone; of a later one, the objects that have passed their
boundaries keep the new values, the rest the old. -/
def State.commitReset (s : State) : State :=
  match s.cfg.commit with
  | none => s
  | some c =>
    let s := { s with cfg := { s.cfg with commit := none } }
    let s := if c.first then s.undoCommit c else s.keepOld c
    let s := if c.now = 0 then s else s.sectionEvent c
    ((s.wr CF_STAT.FAIL_TYPE c.now).cfEnd c.load 18).lateApply

/-- A load without the SECTION_LOAD that brought it: the command completes RESET on its own (R463). -/
def CfgLoad.alone (l : CfgLoad) : CfgLoad :=
  match l.src with | .command _ _ => { l with src := .stream } | _ => l

/-- What a core reset does to the loader (R496): the commit and the load end with RESET, and loads in line with their commands. -/
def State.cfgReset (s : State) : State :=
  let commit := s.cfg.commit.map (fun (c : Commit) => { c with load := c.load.alone })
  let s := { s with cfg := { s.cfg with line := [], load := s.cfg.load.map CfgLoad.alone, commit := commit } }
  (s.endCfLoad 18).commitReset

end Sys2Proof.Machine
end

