-- ==== Sys2Proof/Machine/ConfigRows.lean ====
section
/-!
DEFINITION. The commands of configuration loads and commits (R482 to R497).
-/
namespace Sys2Proof.Machine

/-- Whether loads and commits stand still: in becalm, or while CORE does not run (R496). -/
def State.cfgWaits (s : State) : Bool := s.bit CK_STAT.BECALM || !s.runs .core

/-! ## Loads -/

/-- CF_BEGIN (R482, R483, R485): the write is recorded. While a load is served it is refused with BUSY; a CF_LEN of neither form ends the
load at once with BAD_LENGTH. -/
def execCfBegin (o : Origin) (v : Word) (s : State) : Res :=
  let s := s.configWrite o CF_CTRL (v &&& 0xF) 0
  if s.cfg.load.isSome then .next ((s.inc CF_CNT_BUSY).on CF_EVT.BUSY)
  else
    let len := s.rd CF_LEN.LEN
    let l : CfgLoad := { org := o, code := ownerCode o, src := .stream, len := len, checkOnly := fldOf CF_CTRL.CHECK_ONLY v != 0 }
    let s := s.cfBegin l 1
    if (framesOf len).isNone then .next (s.endCfLoad 7) else .next s

/-- CF_CANCEL (R484): the write is recorded; a load whose apply has not begun ends CANCELLED. -/
def execCfCancel (o : Origin) (s : State) : Res := .next ((s.configWrite o CF_CTRL 2 0).endCfLoad 17)

/-- The load in the loader fails (R484): TYPE and place of the failure, and its end. -/
def State.cfgFail (s : State) (f : CfgFault) : State :=
  let s := (s.wr CF_STAT.FAIL_TYPE f.typ).wr CF_FAIL.ENTRY f.entry
  ((s.wr CF_FAIL.LDCODE f.ld).wr CF_FAIL.RECORD f.record).endCfLoad f.code

/-- Four bytes of the stream of load l are staged; a frame that they complete is checked (R473, R484). -/
def State.cfgStage (s : State) (l : CfgLoad) (v : Word) : State :=
  let bs := l.bytes ++ bytesOf [v]
  let n := bs.length
  let s := { s with cfg := { s.cfg with load := some { l with bytes := bs } } }.wr CF_PROGRESS.BYTES n
  let k := n / 4096 - 1
  let r := if n % 4096 = 0 then frameResult bs k else 0
  if r ≠ 0 then s.cfgFail { code := r, record := k }
  else if l.len ≤ n then s.wr CF_STAT.STATE 2 else s

/-- CF_DATA (R482 to R484): a word of the owner's stream; one beyond CF_LEN fails the load, any other write is counted. -/
def execCfData (o : Origin) (v : Word) (s : State) : Res :=
  match s.cfg.load with
  | some l =>
    if l.org ≠ o ∨ l.src ≠ .stream ∨ l.passed then .next (s.inc CF_CNT_BUSY)
    else if l.bytes.length < l.len then .next (s.cfgStage l v)
    else .next (s.cfgFail { code := 3 })
  | none => .next (s.inc CF_CNT_BUSY)

/-- CONFIG_LOAD (R482 to R486, R495): a supervisor has checked the whole image. It fails, ends after CHECK_ONLY, or is committed; a load
that passes while a commit runs waits for it. A slot that the boot sequencer streams has come at its own rate (R523). -/
def execConfigLoad (s : State) : Res :=
  match s.cfg.load with
  | none => .next s
  | some l =>
    if l.passed ∨ l.bytes.length < l.len ∨ s.partRuns .engines = false ∨ s.cfgWaits then .next s
    else
      let s : State := match l.src, s.calm.boot with | .boot _, some b => s.runTo b.heldTo | _, _ => s
      match s.cfgCheck l.bytes l.len with
      | some f => .next (s.cfgFail f)
      | none =>
        let im := logicalOf l.bytes (l.len / 4096)
        let s := s.cfgSkip ((sectionsOf im).filter (fun x => !x.known)).length
        if l.checkOnly then .next (s.endCfLoad 0)
        else if s.cfg.commit.isNone then .next ((s.startCommit l).nextLoad)
        else .next { s with cfg := { s.cfg with load := some { l with passed := true } } }

/-! ## Commits -/

/-- Whether the transmit side of port n has drained (R491). -/
def Port.txDrained (p : Port) : Bool := p.prefetch.isEmpty && p.launchCount == 0

/-- What is left in the prefetch and the launch registers of port n is discarded and counted, time words included (R491). -/
def State.drainDiscard (s : State) (n : Nat) : State :=
  let p := s.port n
  let k := (p.prefetch.map PreItem.size).sum + 3 * p.launchCount
  let s := s.setPort n { p with prefetch := [], launches := [], mid := none, split := false, discardq := none, openq := none, after := none }
  if k = 0 then s
  else ((s.incBy CF_CNT_QDISC k).on CF_EVT.QDISC).modCommit (fun (c : Commit) => { c with discarded := c.discarded + k })

/-- DRAIN_END (R491): the prefetch and the launch registers are empty, or DRAIN_US after the commit reached the port, when the rest is
discarded. A character on TXD ends first. -/
def execDrainEnd (p : Fin 16) (s : State) : Res :=
  let n := p.val
  match (s.port n).reload with
  | none => .next s
  | some r =>
    if r.structural = false ∨ r.drained.isSome ∨ s.twRuns n ∨ s.cfgWaits ∨ s.runs .port = false then .next s
    else
      let s := if (s.port n).txDrained then s else s.runTo (r.since + 1000 * max 1 (s.rd CF_CFG.DRAIN_US))
      let s := (s.runTo (divUp (s.port n).txEnd 65536)).drainDiscard n
      .next (s.setPort n { s.port n with reload := some { r with drained := some s.time.tick } })

/-- The slot buffers of port n whose queue the port no longer serves are discarded and counted (R492). -/
def State.dropUnbound (s : State) (n : Nat) : State :=
  let w := s.tw n
  let slots := (List.range 4).flatMap (fun m => ((w.mode m).run.entries.filter (fun e => e.2.qsel)).map (fun e => e.2.qid))
  let served (q : Nat) : Bool := slots.contains q || (List.range 4).any (fun k => s.boundQueue (SP_QTX n k) == some q)
  let gone (b : SlotBuf) : Bool := match b.queue with | some q => !served q | none => false
  let k := ((w.bufs.filter gone).map SlotBuf.words).sum
  let s := s.setTw n { w with bufs := w.bufs.filter (fun b => !gone b) }
  if k = 0 then s
  else ((s.incBy CF_CNT_QDISC k).on CF_EVT.QDISC).modCommit (fun (c : Commit) => { c with discarded := c.discarded + k })

/-- The words of port n's reload r take effect in one cycle (R490): a changed rate settles from here, on a port that runs a schedule from
its next boundary (R161). -/
def State.rebindWords (s : State) (n : Nat) (r : PortReload) : State :=
  let rate (a : Nat) : Bool := a == SP_BAUD n || a == SP_BAUDCFG n
  let old := (s.reg (SP_BAUD n), s.reg (SP_BAUDCFG n))
  let s := r.words.foldl (fun s w => if rate w.1 && !s.twRuns n then s.storeQuiet w.1 w.2 else s.cfgPut w.1 w.2) s
  let new := (s.reg (SP_BAUD n), s.reg (SP_BAUDCFG n))
  if new = old ∨ s.twRuns n then s else s.applyRate n new.1 new.2

/-- PORT_REBIND (R490 to R492): the reload of a port takes effect, a structural one once the port has drained or stopped, at the first tick
at which neither direction is inside a character. After a structural one the receiver waits for a frame time of mark, the transmitter serves its queues after as long, and a port that ran a
schedule starts it again. -/
def execPortRebind (p : Fin 16) (s : State) : Res :=
  let n := p.val
  match (s.port n).reload with
  | none => .next s
  | some r =>
    if s.cfgWaits ∨ s.runs .port = false ∨ (r.structural ∧ r.drained.isNone) ∨ (s.port n).rxChar.isSome ∨ (s.port n).cand.isSome then .next s
    else
      let s := s.runTo (divUp (s.port n).txEnd 65536)
      let s := s.setPort n { s.port n with reload := none }
      if r.structural = false then .next (s.rebindWords n r)
      else
        let s := s.releaseHeld n true
        let s := (s.setPort n { s.port n with openq := none, after := none }).rebindWords n r
        let frame := s.rxLen n * s.bitTime n
        let s := s.setPort n { s.port n with needMark := some (s.time.tick, frame), serveFrom := s.time.tick + divUp frame 65536 }
        let s := s.dropUnbound n
        if s.bit (TW_CTRL.RUN n) ∧ (s.tw n).phase = .off then .next (s.twStart n false) else .next s

/-- INTERRUPT_RELOAD_APPLY (R494): what waits at target t takes effect, 10 ms after the reload reached it, although claims are still
outstanding. -/
def execInterruptReloadApply (t : Fin 8) (s : State) : Res :=
  let mine (w : RouteWait) : Bool := w.targets.contains t.val || (w.own && (s.gate w.src).owner == t.val)
  match (s.eic.waiting.filter mine).head? with
  | none => .next s
  | some w =>
    if s.cfgWaits ∨ s.partRuns .eic = false then .next s
    else
      let own := s.eic.waiting.filter (fun x => x.own && (s.gate x.src).owner == t.val)
      let s := s.runTo (w.since + 10000000)
      let s := own.foldl (fun s x => s.routeSource x.src) s
      .next (s.routeTarget t.val).refreshLines

end Sys2Proof.Machine
end

