-- ==== Sys2Proof/Machine/Reset.lean ====
section
/-!
DEFINITION. Resets (R587 to R602, R670), release, the power states (R603 to R610) and the events that drive them.
-/
namespace Sys2Proof.Machine

/-- The state with x for reset and power. -/
def State.setRst (s : State) (x : ResetSys) : State := { s with rst := x }

/-! ## Engines, the EIC and the ring commands in a core reset -/

/-- The engines that a core reset or STILL ends, and that start again after it (R391, R393). -/
def State.enginesToRestart (s : State) : List Nat :=
  (List.range 48).filter (fun e =>
    let st := s.ceState e
    st == ceRunning || st == ceStarting || st == ceAborting || (s.eng e).again || (st == ceGated && !s.clustersOff.contains (e / 4))
      || (st == ceFaulted && s.bit (CE_CTRL.ON_FAULT e)))

/-- Every engine stops (R378, R391): stop words, descriptors, declarations, mailboxes, timers and the load in progress. -/
def State.stopEngines (s : State) : State :=
  let again := s.enginesToRestart
  let s := again.foldl (fun s e =>
    let s := (s.stopWords e).lapse e
    let (n, s) := s.freeGranules e
    (s.incBy (CE_CNT_WINDROP e) n).setCe e ceHalted) s
  let s := (List.range 48).foldl (fun s e =>
    let s := s.clearMail e
    s.setEng e { s.eng e with timers := [], phase := .none, wdog := none, again := false }) s
  let s := if s.loading then s.endLoad 11 else s
  s.setRst { s.rst with restart := again ++ s.rst.restart.filter (fun e => !again.contains e) }

/-- The engines that a core reset or STILL has stopped go through STARTING (R391, R393). -/
def State.restartEngines (s : State) : State :=
  let es := s.rst.restart
  es.foldl State.startEngine (s.setRst { s.rst with restart := [] })

/-- Whether the condition of privileged source n holds (R533, R546). -/
def State.privilegedHolds (s : State) (n : Nat) : Bool :=
  if n < 2042 then s.bit (GD_STAT.MUZZLED (n - 2026))
  else if n = 2042 then s.bit CH_STAT.ISOLATED || s.chain.map.any (fun e => e.2.lost)
  else if n = 2043 then !s.ledger.fails.isEmpty
  else if n = 2045 then s.bit CK_STAT.BECALM
  else if n = 2046 then s.bit CK_STAT.LEVEL1
  else false

/-- Core reset in the EIC (R546): every gateway becomes IDLE, claims and RAISED clear, pending requests of edge sources are lost and counted;
changes of routing that waited for claims take effect. A member's lines fall. -/
def State.eicReset (s : State) : State :=
  let lost := (s.eic.gates.filter (fun e => e.2.st == GateState.pending && !privileged e.1 && decide (2 ≤ s.sense e.1))).length
  let told := s.isMember && s.hostLines != 0
  let s := s.incBy EIC_CNT_RSTDROP lost
  let s := { s with eic := { s.eic with
    gates := tabMap Gateway.reset (fun _ g => ({ input := g.input } : Gateway)) s.eic.gates, targets := [] } }
  let s := (List.range 8).foldl State.routeTarget s
  let s := (s.eic.waiting.map RouteWait.src).foldl State.routeSource s
  if told then s.emit (.irqReport 0) else s

/-- The EIC is released (R591, R546): level sources sample their inputs, an edge counts from the input as it is now, and a privileged source whose condition holds becomes pending. -/
def State.eicRelease (s : State) : State :=
  let s := { s with stopped := { s.stopped with partReset := s.stopped.partReset.filter (fun p => p != Part.eic) } }
  if s.partRuns .eic then
    let s := (List.range' 1 228).foldl State.senseChanged s
    let s := (List.range 21).foldl (fun s i =>
      if s.privilegedHolds (2026 + i) then s.setGate (2026 + i) { s.gate (2026 + i) with st := .pending } else s) s
    s.unlatch.refreshLines
  else s

/-- The fetched commands that have not finished complete RESET, and abort slots end (R258, R463, R591). -/
def State.commandsReset (s : State) : State :=
  let s := s.host.cmds.foldl (fun s c => s.stopCmd c stReset) s
  s.host.aborts.foldl (fun s a => s.endAbort a stReset) s

/-- The queue snapshots of engines and supervisors are discarded (R11, R224). -/
def State.dropSnapshots (s : State) : State :=
  let keep (n : Nat) : Bool := decide (n < 2) || decide (64 ≤ n)
  { s with snaps := s.snaps.filter (fun e => keep (e.1 / 0x1000000)), windowSnaps := s.windowSnaps.filter (fun e => keep e.1)
           cmdHeld := s.cmdHeld.filter (fun e => keep e.1) }

/-! ## Assertion of a reset -/

/-- The 0 row of a core reset (R591). LULL ends (R605). -/
def State.coreAssert (s : State) : State :=
  let s := s.cfgReset.stopEngines.eicReset.dropSnapshots
  let s := { s with stopped := { s.stopped with partReset := [.eic, .engines, .host] } }
  let s := if s.rd PW_STAT.STATE = 1 then (s.wr PW_STAT.STATE 0).on PW_EVT.LULL_CHANGE else s
  (s.inc RST_CNT_CORE).setRst { s.rst with core := 1, askedAt := s.time.tick }

/-- The fuses as a system reset leaves them (R595): a fuse operation completes before its controller resets. -/
def State.fusesSettled (s : State) : Tab Word :=
  match s.calm.fuse with
  | some (i, w, _) => tabPut (fun _ => 0) s.fuses i (tabGet (fun _ => (0 : Word)) s.fuses i ||| w)
  | none => s.fuses

/-- Whether row address a keeps its register through a system reset, or through a cold reset where cold (R9). -/
def keepsReg (cold : Bool) (a : Nat) : Bool :=
  match regRow? a with
  | some r => decide (r.lvl = .never) || (!cold && decide (r.lvl = .power))
  | none => false

/-- What a system reset leaves of a serial port: the levels that the pads of RXD and CTS_N show, which no inversion then turns. -/
def Port.lineOnly (p : Port) (tick : Nat) : Port :=
  { markSince := if p.markSince.isSome != p.rxFmt.line.getLsbD 4 then some tick else none
    cts := p.cts != p.txFmt.line.getLsbD 7 }

/-- A system reset, cold reset or power-on (R590): every field takes its @S value, and of a cold one its @P value. DRAM that is initialised goes into
self-refresh at a system reset (R592); the bank supplies stay sensed (R619); pins hold their state where R602 says so, and on a synchronous device until its ports step (R599). -/
def State.systemAssert (s : State) (level cause : Nat) : State :=
  let cold := decide (3 ≤ level)
  let startup := !s.rst.committed || s.bit RST_STAT.FORM
  let hold := !cold && (startup || s.recovery || s.testMode)
  let frozen := if hold then s.freezePads.pins.frozen else []
  let ddr (c : Nat) : Nat :=
    let st := s.rd (DDR_STAT.STATE c)
    if cold ∨ st = ddrOff ∨ st = ddrFailed then ddrOff else ddrSelfRefresh
  let x : State := { State.reset with
    pending := s.pending
    regs := s.regs.filter (fun e => keepsReg cold e.1 || e.1 == GP_BANK)
    freeNo := s.freeNo
    time := { State.reset.time with tick := s.time.tick }
    ports := tabMap Port.reset (fun _ p => p.lineOnly s.time.tick) s.ports
    chain := { State.reset.chain with sn := s.chain.sn }
    fuses := s.fusesSettled
    shadow := s.shadow
    calm := { State.reset.calm with store := s.storeSettled }
    out := s.out
    pins := { State.reset.pins with
      boardEn := s.pins.boardEn, board := s.pins.board, seen := s.pins.seen, ir := s.pins.ir, cellEn := s.pins.cellEn
      cellLevel := s.pins.cellLevel, startHold := if hold && startup then ~~~0 else 0, frozen := frozen }
    rst := { State.reset.rst with
      low := s.rst.low, monAt := s.rst.monAt, level := s.rst.level, por := s.rst.por, supplies := s.rst.supplies, porAt := s.rst.porAt
      bring := level, cause := cause, toRelease := true, askedAt := s.time.tick, committed := !cold && s.rst.committed } }
  let x := (List.range 2).foldl (fun x c => x.wr (DDR_STAT.STATE c) (ddr c)) x
  (if cold then x else x.inc RST_CNT_SYS).padRefresh

/-- A reset of a level with a cause (R590, R595): one that arrives during bring-up restarts the release at the deeper of the two levels. During
becalm a core reset is recorded and waits (R580). -/
def State.assertReset (s : State) (level cause : Nat) : State :=
  if s.rst.por then s
  else
    let deep := s.rst.bring ≠ 0 && !s.rst.toRelease
    let mark (s : State) : State := if deep then (s.on RST_CAUSE.DEEPENED).on PW_EVT.DEEPENED else s.off RST_CAUSE.DEEPENED
    if 2 ≤ level ∨ 2 ≤ s.rst.bring then
      if s.rst.bring ≤ level then mark (s.systemAssert level cause) else mark (s.systemAssert s.rst.bring s.rst.cause)
    else
      let s := mark s
      if s.bit CK_STAT.BECALM then s.setRst { s.rst with coreWaits := some cause }
      else
        let s := s.coreAssert
        s.setRst { s.rst with bring := 1, cause := cause, toRelease := true }

/-! ## Release -/

/-- RST_CAUSE at a release (R593): LAST and the matching HIST bit; a cold reset clears HIST first. -/
def State.recordCause (s : State) : State :=
  let c := s.rst.cause
  let hist := if s.rst.bring = 3 then 0 else s.rd RST_CAUSE.HIST
  (s.wr RST_CAUSE.LAST c).wr RST_CAUSE.HIST (Nat.lor hist (2 ^ (c - 1)))

/-- The RCFG strap's code is applied (R596, R597): the chain role, and whether release is chain-synchronous. -/
def State.applyStrap (s : State) : State :=
  let c := (s.reg ID_RCFG).toNat % 16
  let role := if c = 8 then 0 else min 2 (c % 4)
  let sync := c % 2 == 1
  ((s.wr CH_CTRL.ROLE role).put CH_STAT.SYNC_REL sync).put RST_STAT.FORM sync

/-- The fuse shadow is loaded (R527, R589, R530): the serial number with it. -/
def State.loadShadow (s : State) (strap : BitVec 4) : State :=
  let w (i : Nat) : Word := tabGet (fun _ => (0 : Word)) s.fuses i
  let s := (List.range 4).foldl (fun s i => s.setReg (ID_SN i) (w i)) { s with shadow := s.fuses }
  let s := { s with chain := { s.chain with sn := w 3 ++ w 2 ++ w 1 ++ w 0 } }
  s.setReg ID_RCFG (strap.setWidth 32)

/-- The release of a system reset, cold reset or power-on begins (R588, R593, R598): the AON step. -/
def State.releaseAon (s : State) : State :=
  let s := s.recordCause.applyStrap
  (s.setRst { s.rst with toRelease := false, releasedAt := s.time.tick, stepAt := s.time.tick }).padRefresh

/-- Domain d leaves reset. -/
def State.freeDomain (s : State) (d : Domain) : State :=
  { s with stopped := { s.stopped with reset := s.stopped.reset.filter (fun x => x != d) } }

/-- Part p of CORE leaves reset. -/
def State.freePart (s : State) (p : Part) : State :=
  { s with stopped := { s.stopped with partReset := s.stopped.partReset.filter (fun x => x != p) } }

/-- RESET_DONE (R593): the event carries LAST, HIST, RST_WIDTH, the release form and the time from release in µs. -/
def State.resetDone (s : State) : State :=
  let us := (s.time.tick - s.rst.releasedAt) / 1000
  let s := s.event Ev.RESET_DONE [s.rd RST_CAUSE.LAST, s.rd RST_CAUSE.HIST, (s.reg RST_WIDTH).toNat, s.rd RST_STAT.FORM, us]
  (s.on PW_EVT.RESET_DONE).setRst { s.rst with bring := 0, core := 0, toRelease := false }

/-- The repair entries of the fuses are applied (R650): valid ones in ascending word order; a second entry for a bank and spare is ignored. -/
def State.bankRepair (s : State) : State :=
  let ws := (List.range 32).map (fun i => tabGet (fun _ => (0 : Word)) s.shadow (34 + i))
  let valid := ws.filter (fun w => w.getLsbD 31)
  let same (a b : Word) : Bool := a.extractLsb' 0 6 == b.extractLsb' 0 6 && a.getLsbD 16 == b.getLsbD 16
  let used := valid.foldl (fun us w => if us.any (same w) then us else us ++ [w]) []
  let s := { s with mem := { s.mem with repairs := used } }
  (s.wr MEM_STAT.REPAIRS used.length).put MEM_STAT.REP_DUP (decide (used.length < valid.length))

/-- A release step is over at this tick, and phase p is reached. -/
def State.phase (s : State) (p : Nat) : State := (s.wr RST_STAT.PHASE p).setRst { s.rst with stepAt := s.time.tick }

/-- The clocks step (R598, R599): AON moves to REFCLK, and the enabled PLLs acquire. A synchronous device then waits for the release count. -/
def State.clocksStep (s : State) : State :=
  let s := (s.off CK_STAT.AON_MONOSC).phase 1
  let s := (List.range 5).foldl (fun s n => if s.pllEnabled n then s.pllAcquire n else s) s
  (s.put RST_STAT.WAIT_COUNT (s.bit RST_STAT.FORM)).coarseRefresh

/-- The memories step (R598, R650). -/
def State.memoriesStep (s : State) : State :=
  ((s.bankRepair.off RST_STAT.WAIT_COUNT).freeDomain .ddr).phase 2

/-- The queue fabric step: CORE but for its held parts, and the EIC. -/
def State.fabricStep (s : State) : State := (((s.freeDomain .core).eicRelease).coreRuns).phase 3

/-- The ports step. A synchronous device's pins no longer hold once it has committed before (R599, R602). -/
def State.portsStep (s : State) : State :=
  let s := ((s.freeDomain .port).freeDomain .nser).phase 5
  if s.bit RST_STAT.FORM ∧ s.rst.committed ∧ s.recovery = false then
    { s with pins := { s.pins with startHold := 0 } }.padRefresh
  else s.padRefresh

/-- The host step (R598, R599): the endpoint trains, the links start, and bring-up is over. -/
def State.hostStep (s : State) : State :=
  let s := ((s.freeDomain .hser).freePart .host).phase 8
  (if s.bit RST_STAT.FORM then s else s.linksStart).resetDone

/-- The REFCLK cycles from the countdown's end to the step that follows phase p (R599). -/
def syncCycles (p : Nat) : Nat := 32768 + 256 * (p - 2)

/-- The PLLs that the memories step waits for (R598): CPLL, PPLL, SPLL0 and SPLL1, where enabled. -/
def State.pllsLocked (s : State) : Bool :=
  (List.range 4).all (fun n => !s.pllEnabled n || s.rd (CK_PLL.STATE n) == 3)

/-- RELEASE_STEP (R598, R599): the next domain is released, in its order, after its gap or condition. RESET_N low holds the reset; a
requested one waits its 10 µs. -/
def execReleaseStep (s : State) : Res :=
  if s.rst.bring < 2 ∨ s.rst.por ∨ (s.rst.low ∧ 1 ≤ s.rst.level) then .next s
  else if s.rst.toRelease then .next (s.runTo (s.rst.askedAt + 10000)).releaseAon
  else
    let p := s.rd RST_STAT.PHASE
    let due (s : State) : State :=
      match s.rst.releaseTick with
      | some k => s.runTo (k + 40 * syncCycles p)
      | none => s.runTo (s.rst.stepAt + 10240)
    match p with
    | 0 => .next (if s.bit CK_STAT.REFCLK_OK then s.clocksStep else s)
    | 1 =>
      .next (if s.bit RST_STAT.FORM ∨ s.pllsLocked = false then s else (s.runTo (s.clk.lockedAt + 10240)).memoriesStep)
    | 2 => .next (due s).fabricStep
    | 3 => .next ((((due s).freeDomain .time).coarseRefresh).phase 4)
    | 4 => .next (due s).portsStep
    | 5 => .next (((due s).freePart .engines).bootStart.phase 6)
    | 6 => .next (due s).hostStep
    | _ => .next s

/-! ## RESET_N, power-on reset and the supplies -/

/-- RESET_N_FALL (R587): the decoder starts to count; TB_MONCAL at this edge converts the count. -/
def execResetNFall (s : State) : Res :=
  if s.rst.low then .next s
  else .next (s.setRst { s.rst with low := true, monAt := (s.reg TB_MONCAL).toNat, level := 0 })

/-- The level of a low time in MONOSC cycles (R587). -/
def pulseLevel (cycles : Nat) : Nat :=
  if cycles < 48 then 0 else if cycles < 2400 then 1 else if cycles < 240000 then 2 else 3

/-- The pulse reaches level n (R588): its reset asserts while RESET_N is still low. -/
def State.pulseReaches (s : State) (n : Nat) : State :=
  if s.rst.por then s.setRst { s.rst with level := n }
  else
    let s := s.assertReset n (5 - n)
    s.setRst { s.rst with level := n }

/-- RESET_THRESHOLD (R588): the low time reaches the next threshold. -/
def execResetThreshold (s : State) : Res :=
  if s.rst.low = false ∨ 3 ≤ s.rst.level then .next s else .next (s.pulseReaches (s.rst.level + 1))

/-- RESET_N_RISE (R587, R588, R589): RESET_N rises after the count of MONOSC cycles given. A high level of less than 200 ns is ignored. The level
that the count has reached is the pulse's; below the first it is a glitch; a cold reset reads fuses and strap. -/
def execResetNRise (brief : Bool) (cycles : Word) (strap : BitVec 4) (s : State) : Res :=
  if s.rst.low = false ∨ brief then .next s
  else
    let n := max s.rst.level (pulseLevel cycles.toNat)
    let s := (List.range 3).foldl (fun s i => if s.rst.level ≤ i ∧ i < n then s.pulseReaches (i + 1) else s) s
    let mon := s.rst.monAt
    let s := s.setRst { s.rst with low := false, level := 0 }
    if n = 0 then .next ((s.inc RST_CNT_GLITCH).on PW_EVT.GLITCH)
    else if s.rst.por then .next s
    else
      let s := s.setReg RST_WIDTH (BitVec.ofNat 32 (cycles.toNat * mon / 2 ^ 24 / 1000))
      if s.rst.bring < 2 then .next s
      else .next (if s.rst.bring = 3 then s.loadShadow strap else s).releaseAon

/-- POWER_ON_RESET_END (R589): 1 ms after the supplies have come up, the fuse shadow is loaded, the strap converted, the PINRST states applied,
and release begins. -/
def execPowerOnResetEnd (strap : BitVec 4) (s : State) : Res :=
  if s.rst.por = false ∨ s.rst.supplies.isEmpty = false then .next s
  else
    let s := s.runTo (s.rst.porAt + 1000000)
    let s := (s.setRst { s.rst with por := false }).loadShadow strap
    .next (if s.rst.low ∧ 2 ≤ s.rst.level then s.padRefresh else s.releaseAon)

/-- A fuse operation that a supply failure meets (R670): each of its bits may read either value afterwards. -/
def State.fuseTorn (s : State) : State :=
  match s.calm.fuse with
  | some (i, w, x) => ({ s with calm := { s.calm with fuse := some (i, w &&& s.freeVal 32, x) } } : State).usedFree
  | none => s

/-- SUPPLY_FAIL (R670): a monitored supply has been below its falling threshold for 2 µs: a cold reset, recorded as POWER_ON, and power-on reset
holds. -/
def execSupplyFail (x : Fin 7) (s : State) : Res :=
  let s := if s.rst.por then s else s.fuseTorn.systemAssert 3 1
  let l := s.rst.supplies
  .next (s.setRst { s.rst with por := true, supplies := if l.contains x.val then l else l ++ [x.val] }).padRefresh

/-- SUPPLY_RETURN (R670): a supply is above its rising threshold; with the last of them the 1 ms count starts. -/
def execSupplyReturn (x : Fin 7) (s : State) : Res :=
  if s.rst.supplies.contains x.val then
    let l := s.rst.supplies.filter (fun y => y != x.val)
    .next (s.setRst { s.rst with supplies := l, porAt := if l.isEmpty then s.time.tick else s.rst.porAt })
  else .next s

/-! ## Core reset -/

/-- The exit's first step after n steps of entry (R608, R609): 1 memories, 2 queue fabric, 4 ports, 5 engines, 6 host interface; 7 where nothing
was stopped. -/
def firstExit (n : Nat) : Nat := match n with | 6 => 1 | 5 => 1 | 4 => 2 | 3 => 4 | 2 => 5 | 1 => 6 | _ => 7

/-- The STILL exit begins (R608, R609): from the clocks step, or from the first step that the entry has stopped. -/
def State.beginExit (s : State) : State :=
  let n := s.rst.entered
  let s := s.wr PW_STAT.STATE 4
  let s := if n = 6 then (List.range 5).foldl (fun s p => if p ≠ 1 ∧ s.pllEnabled p then s.pllAcquire p else s) s else s
  s.setRst { s.rst with exitStep := firstExit n, powerAt := s.time.tick, offAfter := false }

/-- Release of a core reset (R591): EIC first. In STILL, or on the way there, the STILL exit runs with the reset applied (R595). -/
def State.coreRelease (s : State) : State :=
  let s := s.recordCause
  let s := s.setRst { s.rst with toRelease := false, releasedAt := s.time.tick }
  let st := s.rd PW_STAT.STATE
  let boot := s.calm.boot.map (fun (b : BootSeq) => { b with slots := b.all, slot := none, failed := none, heldTo := 0 })
  let s := { s with calm := { s.calm with boot := boot } }
  if st = 2 ∨ st = 3 ∨ st = 4 ∨ st = 5 then
    let s := { s with stopped := { s.stopped with partReset := [] } }.setRst { s.rst with core := 0 }
    if st = 4 then s else s.beginExit
  else s.eicRelease.setRst { s.rst with core := 3 }

/-- CORE_RESET_STEP (R591): the next row of a core reset. -/
def execCoreResetStep (s : State) : Res :=
  match s.rst.core with
  | 1 =>
    let s := (s.runTo (s.rst.askedAt + 10000)).commandsReset
    .next (s.setRst { s.rst with core := 2 })
  | 2 => .next (if s.rst.low ∧ 1 ≤ s.rst.level then s else s.coreRelease)
  | 3 =>
    let s := ((s.runTo (s.rst.releasedAt + 10240)).freePart .engines).restartEngines
    .next (s.setRst { s.rst with core := 4 })
  | 4 => .next ((s.runTo (s.rst.releasedAt + 20480)).freePart .host).resetDone
  | _ => .next s

/-! ## Power states -/

/-- LULL begins (R605): engines that run are GATED. -/
def State.enterLull (s : State) : State :=
  let s := (List.range 48).foldl (fun s e => if s.ceState e = ceRunning then s.setCe e ceGated else s) s
  (s.wr PW_STAT.STATE 1).on PW_EVT.LULL_CHANGE

/-- LULL ends (R605): every GATED engine resumes, but for those of a cluster that is off, and those that an ENGINES section has stopped
start again (R496). -/
def State.leaveLull (s : State) : State :=
  let s := (List.range 48).foldl (fun s e =>
    if s.ceState e = ceGated ∧ s.clustersOff.contains (e / 4) = false ∧ s.bit (CL_CTRL.PWR_OFF (e / 4)) = false then
      (s.setCe e ceRunning).setEng e { s.eng e with wdog := some s.time.tick }
    else s) s
  let s := s.wr PW_STAT.STATE 0
  let kept (e : Nat) : Bool :=
    (match s.cfg.commit with | some c => c.stops.contains e | none => false) || (s.loader.installing && s.slotOf e == s.rd LD_STAT.SLOT)
  ((List.range 48).foldl (fun s e => if kept e then s else s.engineAgain e) s).on PW_EVT.LULL_CHANGE

/-- A request of a power state is acted on (R604 to R610), or waits for the end of an entry, an exit or a release. -/
def State.actPower (s : State) : State :=
  match s.rst.asked with
  | none => s
  | some (r, o) =>
    let st := s.rd PW_STAT.STATE
    let done (s : State) : State := s.setRst { s.rst with asked := none }
    if st ≤ 1 then
      if s.rst.bring ≠ 0 then s
      else if r = 0 then (if st = 1 then (done s).leaveLull else done s)
      else if r = 1 then (if st = 0 then (done s).enterLull else done s)
      else ((done s).wr PW_STAT.STATE 2).setRst { (done s).rst with entered := 0, offAfter := decide (r = 3), powerAt := s.time.tick }
    else if st = 3 then
      if r = 3 then ((done s).wr PW_STAT.STATE 5).padRefresh else if r = 2 then done s else s
    else s.setRst { s.rst with asked := some (r, o) }

/-- The requests that a write has left are acted on: of a reset (R594), with its origin on the record, and of a power state. -/
def State.actRequests (s : State) : State :=
  let s := match s.rst.request with
    | none => s
    | some (system, o) =>
      let s := s.setRst { s.rst with request := none }
      let code := match o with | .host => 1 | .calm => 2 | .chain _ => 3 | _ => 0
      let s := (s.wr RST_CAUSE.REQ_ORIGIN code).wr RST_CAUSE.REQ_DEV (match o with | .chain d => d.val | _ => 0)
      (s.setReg RST_WIDTH 0).assertReset (if system then 2 else 1) (if system then 5 else 6)
  s.actPower

/-- RST_CTRL_CORE (R594): a keyed write with CORE alone. -/
def execRstCtrlCore (o : Origin) (s : State) : Res := .next (s.resetAsk o 0xC0DE0001).actRequests

/-- RST_CTRL_SYSTEM (R594): a keyed write with SYSTEM, CORE set or not. -/
def execRstCtrlSystem (o : Origin) (core : Bool) (s : State) : Res :=
  .next (s.resetAsk o (if core then 0xC0DE0003 else 0xC0DE0002)).actRequests

/-- REQ_RUN (R604). -/
def execReqRun (o : Origin) (s : State) : Res := .next (s.powerAsk o 0).actRequests

/-- REQ_LULL (R605). -/
def execReqLull (o : Origin) (s : State) : Res := .next (s.powerAsk o 1).actRequests

/-- REQ_STILL (R606). -/
def execReqStill (o : Origin) (s : State) : Res := .next (s.powerAsk o 2).actRequests

/-- REQ_OFF (R610). -/
def execReqOff (o : Origin) (s : State) : Res := .next (s.powerAsk o 3).actRequests

/-- PW_STAT.WAIT (R606, R613): becalm, a load or commit, an eddy transfer, an event record in flight, a serial character. -/
def State.stillWaits (s : State) : Nat :=
  let chars := (List.range 16).any (fun n =>
    (s.port n).rxChar.isSome || decide (s.time.tick * 65536 < (s.port n).txEnd))
  (s.bit CK_STAT.BECALM).toNat + (s.cfg.load.isSome || !s.cfg.line.isEmpty || s.cfg.commit.isSome).toNat * 2
    + s.eddyBusy.toNat * 4 + (!s.log.held.isEmpty).toNat * 8 + chars.toNat * 16

/-- Domain d stands still for a power state. -/
def State.powerStop (s : State) (d : Domain) : State :=
  { s with stopped := { s.stopped with power := s.stopped.power.filter (fun x => x != d) ++ [d] } }

/-- Domain d runs again after a power state. -/
def State.powerStart (s : State) (d : Domain) : State :=
  { s with stopped := { s.stopped with power := s.stopped.power.filter (fun x => x != d) } }

/-- Part p of CORE stands still, or runs again, for a power state. -/
def State.powerPart (s : State) (p : Part) (stop : Bool) : State :=
  let l := s.stopped.partPower.filter (fun x => x != p)
  { s with stopped := { s.stopped with partPower := if stop then l ++ [p] else l } }

/-- The links announce STILL (R337, R349): those in UP or STANDBY enter SLEEP. -/
def State.announceStill (s : State) : State :=
  (List.range 4).foldl (fun s l =>
    if s.linkState l = lkUp ∨ s.linkState l = lkStandby then (s.sleepLink l).emit (.sleep l) else s) s

/-- The slots that have lost words to a bank that is OFF (R394, R648). -/
def State.lostSlots (s : State) : List Nat :=
  (List.range 16).filter (fun k =>
    let x := s.slot k
    x.len != 0 && !x.lost
      && (List.range 64).any (fun b => s.bankState b == 2 && s.bankIn b (slotBase k) (slotBase k + x.len)))

/-- The memories step of STILL entry (R648, R656): DRAM to self-refresh, and each bank to the state that MEM_STILL gives it; one that holds a pool
block in use takes RET in place of OFF. -/
def State.memoriesStill (s : State) : State :=
  let s := { s.ddrSleep with mem := { s.ddrSleep.mem with changing := [] } }
  let s := (List.range 64).foldl (fun s b =>
    let off := s.regBit (if b < 32 then MEM_STILL_LO else MEM_STILL_HI) (b % 32)
    if s.bankState b = 2 then s
    else if off && s.busyWhy b % 2 == 1 then
      (((s.inc MEM_CNT_BUSY).on MEM_EVT.BANK_BUSY).event Ev.BANK_BUSY [b, 2, 1]).setBank b 1
    else if off then (s.bankWiped b).setBank b 2
    else s.setBank b 1) s
  { s with mem := { s.mem with stillLost := s.lostSlots } }.repool

/-- The memories step of STILL exit (R608, R648): each bank returns to the state that MEM_BANK requests, and DRAM leaves self-refresh. -/
def State.memoriesAwake (s : State) : State :=
  let s := (s.powerStart .ddr).ddrAwake
  (List.range 64).foldl (fun s b => if s.bankState b = s.bankWant b then s else s.bankChange b (s.bankWant b)) s

/-- Step k of STILL entry (R606): host interface, engines and supervisors, ports, queue fabric, memories, clocks. -/
def State.entryStep (s : State) (k : Nat) : State :=
  match k with
  | 0 =>
    let s := if s.bit HI_STAT.LINK_UP then s.hostDown else s
    (s.announceStill.powerStop .hser).powerPart .host true
  | 1 => s.stopEngines.powerPart .engines true
  | 2 =>
    let s := s.runTo (((List.range 16).map (fun n => divUp (s.port n).txEnd 65536)).foldl max 0)
    let s := (List.range 16).foldl (fun s n => (s.portBecalm n).twBecalm n) s
    let s := (List.range 12).foldl (fun s p =>
      let s := (s.abandonAll p 3).netDrop p
      s.setNet p { s.net p with drained := true }) s
    ((s.powerStop .port).powerStop .nser).padRefresh
  | 3 => s.powerStop .core
  | 4 => s.memoriesStill.powerStop .ddr
  | _ =>
    let s := [0, 2, 3, 4].foldl (fun s n => s.setReg (CK_PLL n) 0) s
    (s.wr PW_STAT.STATE (if s.rst.offAfter then 5 else 3)).padRefresh

/-- Whether some port is inside a received character, or one that may yet be a break (R70). -/
def State.receiving (s : State) : Bool := (List.range 16).any (fun n => (s.port n).rxChar.isSome || (s.port n).cand.isSome)

/-- Whether a frame is on its way in or out at some network port, which drains before the ports' step of STILL (R260, R422). -/
def State.netBusy (s : State) : Bool := (List.range 12).any (fun p => (s.net p).wire.isSome || (s.net p).incoming.isSome)

/-- STILL_ENTRY_STEP (R606): once no condition holds the entry back, its next step, 256 REFCLK cycles after the last. The ports'
step waits for the characters and frames in progress (R70, R422). -/
def execStillEntryStep (s : State) : Res :=
  let k := s.rst.entered
  if s.rd PW_STAT.STATE ≠ 2 ∨ (k = 0 ∧ s.stillWaits ≠ 0) ∨ (k = 2 ∧ (s.receiving ∨ s.netBusy)) then .next s
  else
    let s := if k = 0 then s else s.runTo (s.rst.powerAt + 10240)
    let s := (s.entryStep k).wr PW_STAT.STEP k
    let s := s.setRst { s.rst with entered := k + 1, powerAt := s.time.tick }
    .next (if s.rd PW_STAT.STATE = 3 then s.actRequests else s)

/-- The exit's last step (R608): the links leave SLEEP, and the device is in RUN, or in LULL where PW_CFG.WAKE_TO says so. -/
def State.exitDone (s : State) : State :=
  let s := (List.range 4).foldl (fun s l => if s.linkState l = lkSleep then (s.resetCredits l).toLinkState l lkDetect else s) s
  let s := s.wr PW_STAT.STATE 0
  let s := if s.rst.bring = 1 then s.resetDone else s
  let s := if s.bit PW_CFG.WAKE_TO then s.enterLull else s
  (s.setRst { s.rst with entered := 0, exitStep := 0 }).actRequests

/-- WAKE (R607, R609): the sources given fire; those enabled end STILL, or its entry at the step reached. Elsewhere they are ignored. -/
def execWake (causes : BitVec 14) (s : State) : Res :=
  let on := causes &&& (s.reg PW_WAKE_EN).setWidth 14
  let st := s.rd PW_STAT.STATE
  if on = 0 ∨ (st ≠ 2 ∧ st ≠ 3) then .next s
  else
    let s := ((s.wr PW_WAKE_CAUSE.CAUSE on.toNat).on PW_EVT.WAKE).event Ev.WAKE [on.toNat]
    let s :=
      if st = 3 then s.inc PW_CNT_WAKE
      else ((s.inc PW_CNT_ABORT).on PW_EVT.STILL_ABORTED).event Ev.POWER_STATE [2, 4, s.rst.entered]
    let s := s.beginExit
    .next (if s.rst.exitStep = 7 then s.exitDone else s)

/-- Step k of STILL exit (R608): 1 memories, 2 queue fabric, 3 time base outputs, 4 ports, 5 engines, 6 host interface. rxd is the level of
each RXD pad, true for mark. -/
def State.leaveStep (s : State) (k : Nat) (rxd : BitVec 16) : State :=
  match k with
  | 1 => s.memoriesAwake
  | 2 =>
    let s := s.powerStart .core
    let s := s.mem.stillLost.foldl State.loseSlot { s with mem := { s.mem with stillLost := [] } }
    s.sampleInputs.coreRuns.refreshLines
  | 4 =>
    let s := s.powerStart .port
    let s := (List.range 16).foldl (fun s n => (s.portResume n (rxd.getLsbD n)).twResume n) s
    let s := (List.range 12).foldl (fun s p => s.setNet p { s.net p with drained := s.bit (NP_CTRL.PWR_OFF p) }) s
    (s.powerStart .nser).padRefresh
  | 5 => ({ s with mem := { s.mem with shares := [] } }.powerPart .engines false).restartEngines
  | 6 => ((s.powerStart .hser).powerPart .host false).exitDone
  | _ => s

/-- STILL_EXIT_STEP (R608): the next step of the exit, once the PLLs are LOCKED, 256 REFCLK cycles after the last. -/
def execStillExitStep (rxd : BitVec 16) (s : State) : Res :=
  let k := s.rst.exitStep
  if s.rd PW_STAT.STATE ≠ 4 ∨ k = 0 ∨ (s.rst.entered = 6 ∧ s.pllsLocked = false) then .next s
  else
    let s :=
      if k ≠ firstExit s.rst.entered then s.runTo (s.rst.powerAt + 10240)
      else if s.rst.entered = 6 then s.runTo (max s.clk.lockedAt s.rst.powerAt + 10240)
      else s
    let s := s.setRst { s.rst with exitStep := k + 1, powerAt := s.time.tick }
    .next (s.leaveStep k rxd)

/-! ## Retained storage, and the resumption of becalm -/

/-- A read of RETMEM at a word offset (R603): the data as stored; perr tells that a byte's parity is wrong. -/
def State.retmemRead (s : State) (i : Nat) (perr : Bool) : Word × State :=
  (s.reg (RETMEM i), if perr then (s.on PW_EVT.RET_PERR).wr PW_RETERR.OFFSET (4 * i) else s)

/-- RETMEM_READ (R603): an aligned 4-byte or 8-byte read of word off, and of the next; perr tells in which of the two words a byte's parity is
wrong. -/
def execRetmemRead (m : Master) (off : BitVec 12) (wide : Bool) (perr : BitVec 2) (s : State) : Res :=
  let i := if wide then off.toNat / 2 * 2 else off.toNat
  let (v, s) := s.retmemRead i (perr.getLsbD 0)
  if wide then
    let (hi, s) := s.retmemRead (i + 1) (perr.getLsbD 1)
    .next (s.emit (.answer m (hi ++ v)))
  else .next (s.emit (.answer m (v.setWidth 64)))

/-- The next step of a resumption (R579), 256 REFCLK cycles after the last. A core reset that was recorded is applied at the CORE step
(R580). -/
def State.becalmStep (s : State) (rxd : BitVec 16) : State :=
  match s.clk.resume with
  | none => s
  | some k =>
    let s := s.runTo (s.clk.resumeAt + 10240 * (k + 1))
    let s := { s with clk := { s.clk with resume := some (k + 1) } }
    let s := s.resumeStep (k + 1) rxd
    match s.rst.coreWaits with
    | some c =>
      if k = 1 then
        let s := s.coreAssert
        s.setRst { s.rst with coreWaits := none, bring := 1, cause := c, toRelease := true }
      else s
    | none => s

end Sys2Proof.Machine
end

