-- ==== Sys2Proof/Machine/Plane.lean ====
section
/-!
DEFINITION. The calm port's plane (R503 to R521, R526 to R532): its registers, the frame of a transaction with its ACK, plane work, the
store operations, and the store mailbox.
-/
namespace Sys2Proof.Machine

/-! ## Registers (R508, R531) -/

/-- Whether REFCLK is in its window, as the AON monitor sees it. -/
def State.refclkOk (s : State) : Bool := s.bit CK_STAT.REFCLK_OK

/-- STAT8 (R508). -/
def State.stat8 (s : State) : Nat :=
  s.calm.work.isSome.toNat + s.calm.bufValid.toNat * 2 + (s.rd ⟨CP_SNAPTAG, 0, 3⟩ == 2).toNat * 4 + s.calm.opErr.toNat * 8
    + s.refclkOk.toNat * 16 + s.committed.toNat * 32 + s.calm.storeErr.toNat * 64

/-- A word of the fuse shadow. -/
def State.shadowWord (s : State) (i : Nat) : Word := tabGet (fun _ => (0 : Word)) s.shadow i

/-- The plane register at plane address a as read (R531), which its mirror in BAR0 shows too. -/
def State.planeReg (s : State) (a : Nat) : Word :=
  if 0x1000 ≤ a ∧ a ≤ 0x11FC ∧ a % 4 = 0 then s.shadowWord ((a - 0x1000) / 4)
  else if 0x100 ≤ a then 0
  else
    let r := CP_STAT + a
    if r = CP_STAT then fldPut CP_STAT.STAT8 (s.reg r) s.stat8
    else if r = CP_WORK then
      (match s.calm.work with | some w => BitVec.ofNat 32 (w.left % 0x1000000 + w.opc * 0x1000000) | none => 0)
    else if r = CP_OPSTAT then fldPut CP_OPSTAT.QUEUED (s.reg r) s.calm.posted.length
    else if r = CP_BOOTSTAT then fldPut CP_BOOTSTAT.SRC (s.reg r) s.bootSource
    else if r = CP_STORESTAT then fldPut CP_STORESTAT.HDR_COPY (s.reg r) (s.headerUsed == some 1).toNat
    else if r = CP_JOURNAL then fldPut CP_JOURNAL.PENDING (s.reg r) s.calm.notes.length
    else s.reg r

/-! ## Store operations (R516 to R519) -/

/-- The checks of STORE_SEAL on framed image bs of FRAMED_LEN len, in their order (R518): the code of the first that fails, 0 for none. -/
def sealResult (bs : List Byte) (len : Nat) : Nat :=
  let f := min 511 (len / 4096)
  match framesResult bs f with
  | some (c, _) => c
  | none => headResult bs (logicalOf bs f) len

/-- A finished STORE_SEAL: SEALED with the image's data, or INVALID with STORE_ERR. -/
def State.seal (s : State) (k len : Nat) : State :=
  let bs := memBytes s.calm.store (k * 0x200000) (min len 0x200000)
  let im := logicalOf bs (min 511 (len / 4096))
  let r := sealResult bs len
  let s := (s.wr CP_STORESTAT.RESULT r).wr CP_STORESTAT.SLOT k
  if r = 0 then
    s.setDescriptor k 2 len (leNat im 0xC 4) (leNat im 0x10 4) (leNat bs (len / 4096 * 4096) 4) (imgFlags im) (s.slotWrites k)
  else { s.remarkSlot k 3 (s.slotWrites k) with calm := { (s.remarkSlot k 3 (s.slotWrites k)).calm with storeErr := true } }

/-- A finished STORE_HDR (R516): ORDER and the next SEQ in the copy that is not in use; copy A with SEQ 1 where none is valid. -/
def State.writeHeader (s : State) (order : Nat) : State :=
  let c := match s.headerUsed with | some c => 1 - c | none => 0
  { s with calm := { s.calm with
    store := memSetBytes s.calm.store (sector511 c 0xE00) (sealedRecord [0x48535757, 1, s.headerSeq + 1, order]) } }

/-! ## Work (R510, R511) -/

/-- The plane's work is done. -/
def State.planeDone (s : State) : State :=
  match s.calm.work with
  | none => s
  | some w =>
    let k := storeSlot w.addr
    let t := { s with calm := { s.calm with work := none } }
    let t := match w.opc with
      | 0x21 => (t.programmed w w.arg).storeWritten s
      | 0x22 =>
        let bs := memBytes t.calm.store (k * 0x200000 + storeSector w.addr * 0x1000) 4096
        { t with calm := { t.calm with buf := memSetBytes [] 0 bs, bufValid := true } }
      | 0x23 => (t.seal k w.arg).storeWritten s
      | 0x24 => (t.remarkSlot k 3 (t.slotWrites k)).storeWritten s
      | _ => (t.writeHeader w.arg).storeWritten s
    if w.mail then t.off ST_STAT.BUSY else t

/-- n CFG_SCK cycles with CFG_CS_N low advance the work (R510). -/
def State.calmClock (s : State) (n : Nat) : State :=
  match s.calm.work with
  | none => s
  | some w =>
    if w.left ≤ n then s.planeDone
    else { s with calm := { s.calm with work := some { w with left := w.left - n } } }

/-- WORK_CANCEL (R510): the work ends. Of a sector being programmed the words that are complete stay, the one in progress is partly
programmed, and its slot stays WRITING. -/
def State.workCancel (s : State) : State :=
  match s.calm.work with
  | none => s
  | some w =>
    let t := { s with calm := { s.calm with work := none } }
    let t := if w.mail then t.off ST_STAT.BUSY else t
    if w.opc ≠ 0x21 then t
    else match w.begun with
      | none => t
      | some n =>
        let t := (t.programmed w w.whole).storeWritten s
        if n ≤ w.whole then t
        else
          let a := storeSlot w.addr * 0x200000 + storeSector w.addr * 0x1000 + 4 * w.whole
          { t.usedFree with calm := { t.calm with store := memSetWord t.calm.store a (t.freeVal 32) } }

/-- CLR_ERR and BUF_CLR (R531). -/
def State.clearErr (s : State) : State := { s with calm := { s.calm with opErr := false, storeErr := false } }
def State.clearBuf (s : State) : State := { s with calm := { s.calm with buf := [], bufValid := false } }

/-! ## Acceptance (R507, R509, R519) -/

/-- The first ACK code of a list of checks in the order of R507 that applies, OK where none does. -/
def firstAck : List (Bool × Nat) → Nat
  | [] => 0x5A
  | (b, c) :: r => if b then c else firstAck r

/-- Whether ADDR of a store operation sets a bit beside slot and sector (R509). -/
def badStoreAddr (a : Nat) : Bool := a != storeSlot a * 0x10000 + storeSector a

/-- What STORE_PROG first does to its slot: whether it makes it WRITING, and whether it starts a pass that raises WRITES (R517). -/
def State.progFirst (s : State) (addr : Nat) : Bool := s.slotState (storeSlot addr) != 1
def State.progRaises (s : State) (addr : Nat) : Bool :=
  s.progFirst addr || (match s.calm.pass with | some (k, l) => k != storeSlot addr || l.contains (storeSector addr) | none => true)

/-- Whether a store operation's ADDR and LEN lie outside R509 and R515. -/
def State.storeBadArg (s : State) (opc addr len : Nat) : Bool :=
  match opc with
  | 0x21 => badStoreAddr addr || decide (len = 0) || decide (1024 < len) || (storeSector addr == 511 && decide (896 < len)) || !s.calm.bufValid
  | 0x23 => badStoreAddr addr || len != 1
  | 0x25 => addr != 0 || len != 1
  | _ => badStoreAddr addr || len != 0

/-- Whether a store operation would raise a bound above 1,000,000 (R519). -/
def State.storeWorn (s : State) (opc addr : Nat) : Bool :=
  match opc with
  | 0x21 => s.progRaises addr && decide (1000000 < s.wearBound (storeSlot addr) (s.slotWrites (storeSlot addr) + 1) s.headerSeq)
  | 0x25 => decide (1000000 < s.wearBound 4 0 (s.headerSeq + 1))
  | _ => false

/-- Whether the boot sequencer drives the plane (R523). -/
def State.bootDrives (s : State) : Bool := match s.calm.boot with | some b => decide (s.time.tick < b.heldTo) | none => false

/-- The checks of a store operation (R507). -/
def State.storeChecks (s : State) (opc addr len : Nat) : List (Bool × Nat) :=
  [(s.storeBadArg opc addr len, 0x53), (s.calm.work.isSome || s.bootDrives, 0x54), (s.storeWorn opc addr, 0x56)]

/-- The CFG_SCK cycles that a store operation costs (R511). -/
def State.storeCost (s : State) (opc addr arg : Nat) : Nat :=
  match opc with
  | 0x21 => 64 * arg + (if s.progFirst addr then 4096 else 0)
  | 0x22 => 1024
  | 0x23 => divUp arg 4 + 4096
  | _ => 4096

/-- An accepted store operation is posted as work and recorded (R510, R520); all but STORE_LOAD read the header or the descriptor (R531). arg is LEN of STORE_PROG, or the data word. -/
def State.storePost (s : State) (opc addr arg : Nat) (o : Origin) (mail : Bool) : State :=
  let n := s.storeCost opc addr arg
  let w : PlaneWork := {
    opc := opc, addr := addr, arg := arg, left := n, total := n, first := opc == 0x21 && s.progFirst addr, org := o, mail := mail
    since := s.time.tick }
  let s := { s with calm := { s.calm with work := some w } }
  if opc = 0x22 then s else s.storeRead.storeNote opc addr arg o

/-- The checks of BOOT with slot code k (R509, R526), 0xF for the slots of ORDER. -/
def State.bootChecks (s : State) (addr len : Nat) : List (Bool × Nat) :=
  [((3 < addr && addr != 0xF) || len != 0, 0x53), (s.calm.work.isSome || s.calm.boot.isSome, 0x54), (!s.refclkOk, 0x55)]

/-- An accepted BOOT (R526): before the first commit it is a boot, after it each image is a reload. -/
def State.bootAsk (s : State) (o : Origin) (k : Nat) : State :=
  let s := s.storeRead
  let slots := if k = 0xF then s.bootOrder else [k]
  let s := { s with calm := { s.calm with boot := some { slots := slots, all := slots, asked := some o } } }
  if s.committed ∨ s.bootSource = 4 then s else s.wr CP_BOOTSTAT.STATE 1

/-! ## Transactions (R505 to R508) -/

/-- Whether the plane does not answer: boot or the mailbox drives it (R521, R523), or its logic is in reset (R20). -/
def State.calmSilent (s : State) : Bool :=
  s.rst.por || (s.rst.low && decide (2 ≤ s.rst.level)) || s.bootDrives || (match s.calm.work with | some w => w.mail | none => false)

/-- A transaction with D data words (R506, R507): its bytes clock the plane, the checks give the ACK, and where it is OK the action is taken
and the words are returned. Cycles after the ACK byte clock the work that the action posts. -/
def State.transact (s : State) (tx : CalmTx) (d : Nat) (checks : State → List (Bool × Nat)) (words : State → List Word)
    (act : State → State) : State :=
  if s.calmSilent then s.emit .calmSilent
  else
    let stat := s.stat8
    let s := s.calmClock (8 * (9 + 4 * d))
    let ack := if tx.crcOk then firstAck (checks s) else 0x51
    let out := if ack = 0x5A then words s else []
    let s := s.calmClock 8
    let s := (if ack = 0x5A then act s else s).wr CP_STAT.LAST_ACK ack
    (s.calmClock (8 * tx.after.toNat)).emit (.calm (BitVec.ofNat 8 stat) ack out)

/-- LEN and ADDR of a transaction as numbers. -/
def txLen (tx : CalmTx) : Nat := tx.len.toNat
def txAddr (tx : CalmTx) : Nat := tx.addr.toNat

/-- Whether LEN lies outside 1 to n. -/
def badLen (tx : CalmTx) (n : Nat) : Bool := decide (txLen tx = 0) || decide (n < txLen tx)

/-! ## The store mailbox (R521, R532) -/

/-- A write of ST_CMD: the ACK as for a transaction, with the first buffer word as data word (DEDUCED, log entry 17). The supervisors then
drive the plane. -/
def State.mailbox (s : State) (o : Origin) (v : Word) : State :=
  let opc := fldOf ST_CMD.OPC v
  let addr := (s.reg ST_ADDR).toNat
  let len := s.rd ST_LEN.LEN
  let data := (memWord s.calm.buf 0).toNat
  if opc = 0x50 then
    let ack := firstAck (s.bootChecks addr len)
    let s := s.wr ST_STAT.ACK ack
    if ack = 0x5A then s.bootAsk o addr else s
  else if 0x21 ≤ opc ∧ opc ≤ 0x25 then
    let ack := firstAck (s.storeChecks opc addr len)
    let s := s.wr ST_STAT.ACK ack
    if ack = 0x5A then (s.storePost opc addr (if opc = 0x21 then len else data) o true).on ST_STAT.BUSY else s
  else s.wr ST_STAT.ACK 0x52

/-- A write of v to word w of ST_BUF; the buffer's content counts as checked (DEDUCED, log entry 17). -/
def State.stBuf (s : State) (w : Nat) (v : Word) : State :=
  { s with calm := { s.calm with buf := memSetWord s.calm.buf (4 * w) v, bufValid := true } }

end Sys2Proof.Machine
end

