-- ==== Sys2Proof/Machine/Bus2.lean ====
section
/-!
DEFINITION. A register write as a master makes it (R8, R32): the loader and the store mailbox (R499, R532), writes that wait for the reload
of their subsystem, and what a request written to a reset or power register starts.
-/
namespace Sys2Proof.Machine

/-- A write to the supervisor mailbox block. -/
def State.superWrite (s : State) (o : Origin) (a : Nat) (v : Word) : State :=
  if a = CF_CTRL then
    match fldOf CF_CTRL.OP v with
    | 1 => s.doing (execCfBegin o v)
    | 2 => s.doing (execCfCancel o)
    | _ => s
  else if a = CF_DATA then s.doing (execCfData o v)
  else if a = ST_CMD then s.mailbox o v
  else if 0xF01000 ≤ a ∧ a < 0xF02000 then s.stBuf ((a - 0xF01000) / 4) v
  else if CP_STAT ≤ a ∧ a < CP_STAT + 0x100 then s
  else s.regStore o a v

/-- Whether a write of v to address a is a configuration change (R30, R71): a configuration-class register, QF_QCMD (R225), or APPLY of a
TPO (R291). -/
def changesConfig (a : Nat) (v : Word) : Bool :=
  (match regRow? a with | some r => r.cfg != 0 | none => false) || a == QF_QCMD
    || ((copyOf a (TPO_CTRL 0) 0x20 8).isSome && v.getLsbD 0)

/-- The earlier changes of origin o that wait for room for their records (R555). -/
def State.waitsRoom (s : State) (o : Origin) : Bool := s.cfg.late.any (fun w => w.room && w.org == o)

/-- A 32-bit write of v to BAR0 address a by master m with origin o. A configuration change waits for the section reload of its subsystem
(R32), or, behind the earlier ones of its origin, for room for its record (R28, R555). -/
def State.busWrite (s : State) (m : Master) (o : Origin) (a : Nat) (v : Word) : State :=
  let s :=
    if a % 4 ≠ 0 then s
    else if 0xF00000 ≤ a then s.superWrite o a v
    else
      let s := if s.waitsRoom o then s.lateApply else s
      let room := s.configFull || s.waitsRoom o
      if changesConfig a v && (s.reloading a || room) then
        { s with cfg := { s.cfg with late := s.cfg.late ++ [{ m := m, org := o, addr := a, v := v, at_ := s.now, room := room }] } }
      else s.busWrite1 m o a v
  s.actRequests

/-- One tick of an idle block (log entry 1): time passes, and changes whose records have found room are applied (R555). -/
def State.idle (s : State) : State :=
  let s := s.tick1
  if s.cfg.late.any (·.room) then s.lateApply else s

/-- A 64-bit write of v to BAR0 address a: the upper word, then the lower word (R11). -/
def State.busWrite64 (s : State) (m : Master) (o : Origin) (a : Nat) (v : Word64) : State :=
  if a % 8 ≠ 0 then s
  else (s.busWrite m o (a + 4) ((v >>> 32).setWidth 32)).busWrite m o a (v.setWidth 32)

/-! ## Commits -/

/-- COMMIT_APPLY (R486 to R489): the commit applies its next type; a first commit goes live at its end. What
its words, and its end, let a request of a reset or a power state do follows (R594, R606). -/
def execCommitApply (s : State) : Res := if s.cfgWaits then .next s else .next s.applyNext.actRequests

/-- SECTION_COMMIT (R488, R490, R493, R497): the objects of the type being applied have reached their boundaries. -/
def execSectionCommit (s : State) : Res := if s.cfgWaits then .next s else .next s.sectionDone.actRequests

end Sys2Proof.Machine
end

