-- ==== Sys2Proof/Machine/BusRead.lean ====
section
/-!
DEFINITION. A read of a register of BAR0 as a master makes it (R8 to R11, R22): the live fields, the reads that have an effect, and the
snapshots of values wider than 32 bits.
-/
namespace Sys2Proof.Machine

/-! ## Live registers -/

/-- Word i of three time words. -/
def stampWord (t i : Nat) : Word := (timeWords t).getD i 0

/-- Half of a 64-bit value. -/
def half64 (v : BitVec 64) (hi : Bool) : Word := v.extractLsb' (if hi then 32 else 0) 32

/-- A binding register as read: ABSENT while it is enabled and names an absent queue. -/
def State.bindRead (s : State) (a : Nat) : Word :=
  let v := s.reg a
  fldPut ⟨a, 30, 1⟩ v (v.getLsbD 31 && !(s.queue (v.toNat % 0x10000)).ex).toNat

/-- A time-pulse output's status (R308). -/
def State.tpoStat (s : State) (i : Nat) : Word :=
  let x := tabGet Tpo.reset s.time.tpos i
  BitVec.ofNat 32 (x.active.isSome.toNat + x.pend.toNat * 2 + x.out.toNat * 4)

/-- The registers of the time base as read. -/
def State.timeRead (s : State) (a : Nat) : Word :=
  let (date, clock, range) := s.calendar
  if a = TB_STAT then s.tbStat
  else if a = TB_TIME_NS then stampWord s.now 0
  else if a = TB_TIME_SL then stampWord s.now 1
  else if a = TB_TIME_SH then fldPut TB_TIME_SH.STEP_SEQ (stampWord s.now 2) s.stepSeq
  else if a = TB_SLEW_REM then s.slewRem
  else if a = TB_STEP_NS then stampWord s.stepTime 0
  else if a = TB_STEP_SL then stampWord s.stepTime 1
  else if a = TB_STEP_SH then fldPut TB_STEP_SH.PEND (stampWord s.stepTime 2) s.time.step.isSome.toNat
  else if a = TB_HO_AGE then BitVec.ofNat 32 s.hoAge
  else if a = CAL_DATE then BitVec.ofNat 32 date
  else if a = CAL_TIME then BitVec.ofNat 32 clock
  else if a = CAL_STAT then fldPut CAL_STAT.RANGE (s.reg a) range.toNat
  else match copyOf a (TPO_STAT 0) 0x20 8, copyOf a (TSI_Q 0) 0x20 8 with
    | some i, _ => s.tpoStat i
    | _, some _ => s.bindRead a
    | _, _ => s.reg a

/-- The registers of the event interrupt controller as read. -/
def State.eicRead (s : State) (a : Nat) : Word :=
  if a = EIC_STAT then BitVec.ofNat 32 (s.eic.gates.countP (fun e => e.2.st == .pending))
  else match copyOf a (EIC_TSTAT 0) 0x20 8, copyOf a (EIC_PEND 0) 4 64, copyOf a (EIC_PSET 0) 4 64, copyOf a (EIC_CLAIMED 0) 4 64 with
    | some t, _, _, _ => s.tstatRead t
    | _, some i, _, _ => s.sourceMap i .pending
    | _, _, some i, _ => s.sourceMap i .pending
    | _, _, _, some i => s.sourceMap i .claimed
    | _, _, _, _ =>
      match copyOf a (EIC_SRC_CFG 1) 4 2046 with
      | some n => s.srcCfgRead (n + 1)
      | none => s.reg a

/-- Whether a read of the memories' register a takes a free value (log entry 130): whether a scrub pass runs at the read, and how many cycles
masters have waited for a bank. -/
def State.memFree (s : State) (a : Nat) : Bool := (a == MEM_STAT && s.runs .core) || (copyOf a (MEM_CONF 0) 4 16).isSome

/-- The registers of the memories as read. -/
def State.memRead (s : State) (a : Nat) : Word :=
  if a = MEM_STAT then
    fldPut MEM_STAT.SCRUBBING (fldPut MEM_STAT.ILV_ACT (s.reg a) (s.rd MEM_CFG.ILV))
      (if s.runs .core then (s.freeVal 1).toNat else 0)
  else if s.memFree a then s.freeVal 32
  else if a = MEM_BUSY_LO then s.memBusy 0
  else if a = MEM_BUSY_HI then s.memBusy 1
  else s.reg a

/-- EL_STAT (R563): the capacity in records, whether the extension has room in use, and the forward buffer's level. -/
def State.elStat (s : State) : Word :=
  let v := fldPut EL_STAT.CAP (s.reg EL_STAT) s.logCap
  let v := fldPut EL_STAT.XACT v (decide (0 < s.log.ext)).toNat
  fldPut EL_STAT.FWD_LVL v s.log.forward.length

/-- LG_STAT (R266). -/
def State.lgStat (s : State) : Word :=
  BitVec.ofNat 32 (s.ledger.sweep.isSome.toNat + (decide (0 < s.ledger.eddy.reclaim ∨ 0 < s.ledger.onChip.reclaim)).toNat * 2)

/-- Word i of QF_NOTIFY_SUM (R232): bit b for word 32 × i + b of QF_NOTIFY. -/
def State.notifySum (s : State) (i : Nat) : Word :=
  BitVec.ofNat 32 ((((s.queues.filter (fun e => decide (e.1 / 1024 = i) && e.2.notifies)).map (fun e => e.1 / 32 % 32)).eraseDups).map
    (fun (b : Nat) => 2 ^ b)).sum

/-- Word i of QF_NOTIFY (R232): bit b for queue 32 × i + b. -/
def State.notifyWord (s : State) (i : Nat) : Word :=
  BitVec.ofNat 32 ((s.queues.filter (fun e => decide (e.1 / 32 = i) && e.2.notifies)).map (fun e => 2 ^ (e.1 % 32))).sum

/-- The registers of the fabric and the eddy store as read by origin o, whose own staged copies it sees (R225). -/
def State.fabricRead (s : State) (o : Origin) (a : Nat) : Word :=
  if a = QF_STAT then BitVec.ofNat 32 (s.queues.countP (fun e => e.2.ex) + s.committed.toNat * 0x80000000)
  else if a = QF_EDGE_USED then BitVec.ofNat 32 s.edgeUsed
  else if a = QF_QSTAT then
    if s.ledger.createWait.isEmpty && !s.cfg.late.any (fun w => w.addr == QF_QCMD) then 0 else 1
  else if a = QF_QSEL then s.stage o 0
  else if QF_QCFG0 ≤ a ∧ a ≤ QF_QCFG4 then s.stage o ((a - QF_QCFG0) / 4 + 1)
  else if a = ED_STAT then
    BitVec.ofNat 32 ((decide (s.ledger.eddy.total0 ≠ 0)).toNat + (decide (s.ledger.eddy.total1 ≠ 0)).toNat * 2
      + (decide (s.ledger.onChip.total ≠ 0)).toNat * 4)
  else if a = ED_EBLOCKS then BitVec.ofNat 32 s.ledger.eddy.total
  else if a = ED_OBLOCKS then BitVec.ofNat 32 s.ledger.onChip.total
  else if a = LG_STAT then s.lgStat
  else match copyOf a (QF_NOTIFY_SUM 0) 4 64, copyOf a (QF_NOTIFY 0) 4 2048 with
    | some i, _ => s.notifySum i
    | _, some i => s.notifyWord i
    | _, _ => s.reg a

/-- The registers of port n as read. -/
def State.portRead (s : State) (n a : Nat) : Word :=
  if a = SP_STAT n then s.spStat n
  else if a = SP_ASTAT n then s.spAstat n
  else if a = SP_TTX_STAT n then s.ttxStat n
  else if SP_QRX n ≤ a ∧ a ≤ SP_QSTAMP_TX n then s.bindRead a
  else if a = TW_STAT n then s.twStat n
  else if a = TW_CYCNT n then s.twCycnt n
  else if TW_TDATA0 n ≤ a ∧ a ≤ TW_TDATA2 n then s.twData n ((a - TW_TDATA0 n) / 4)
  else if a = TW_TCOMMIT n then s.twPending n
  else if TW_TCRC n 0 ≤ a ∧ a ≤ TW_TCRC n 3 then ((s.tw n).mode ((a - TW_TCRC n 0) / 4)).run.crc
  else if a = TW_DTAB n then s.twDtab n
  else if a = GD_STAT n then s.gdStat n
  else if a = GD_CYCNT n then s.gdCycnt n
  else if a = GD_PHASE n then s.gdPhase n
  else s.reg a

/-- The registers of the network ports as read. -/
def State.netRead (s : State) (a : Nat) : Word :=
  if NP_CTRL 12 ≤ a then s.reg a
  else
    let n := (a - NP_CTRL 0) / 0x4000
    let x := s.net n
    let i := s.rd (NP_GCL_SEL.ENTRY n)
    if a = NP_STAT n then s.npStat n
    else if a = NP_GCL_OSTAT n then s.gateStat n
    else if a = NP_GCL_GATES n then
      BitVec.ofNat 32 (if s.bit (NP_GCL_SEL.OPER n) then (x.oper.entries.getD i (0, 0)).1 else tabGet (fun _ => 0) x.adminGates i)
    else if a = NP_GCL_INTERVAL n then
      BitVec.ofNat 32 (if s.bit (NP_GCL_SEL.OPER n) then (x.oper.entries.getD i (0, 0)).2 else tabGet (fun _ => 0) x.adminTimes i)
    else s.reg a

/-- The registers of the engines as read. -/
def State.engineRead (s : State) (a : Nat) : Word :=
  let n := (a - CE_CTRL 0) / 0x2000
  if a = CE_STAT n then s.ceStat n
  else if CE_QPORT n 0 ≤ a ∧ a ≤ CE_QPORT n 15 then s.bindRead a
  else s.reg a

/-- The registers of the loader and the clusters as read. -/
def State.loaderRead (s : State) (a : Nat) : Word :=
  if a = LD_KEYSTAT then BitVec.ofNat 32 ((decide (s.keyHash 0 ≠ 0)).toNat + (decide (s.keyHash 1 ≠ 0)).toNat * 2)
  else match copyOf a (CL_CTRL 0) 4 12 with
    | some k => fldPut (CL_CTRL.ON k) (s.reg a) (!s.clustersOff.contains k).toNat
    | none => s.reg a

/-- The registers of the host interface as read. -/
def State.hostRead (s : State) (a : Nat) : Word :=
  if a = HI_ABT_STAT then BitVec.ofNat 32 s.abortSlots
  else match copyOf a (SQ_STAT 0) 0x20 64, copyOf a (CQ_STAT 0) 0x20 64 with
    | some n, _ => fldPut (SQ_STAT.IDLE n) (s.reg a) 
        (!s.host.cmds.any (fun c => c.owner.isNone && c.started && c.ring == n) && !s.ringHeld n).toNat
    | _, some n => fldPut (CQ_STAT.BUSY n) (s.reg a) (s.cqBusy n).toNat
    | _, _ => s.reg a

/-- The registers of the supervisor mailbox, the configuration loader and the calm port's mirror as read. -/
def State.superRead (s : State) (a : Nat) : Word :=
  if a = CF_PENDING then
    (match s.cfg.commit with
      | some c => BitVec.ofNat 32 ((((if c.now = 0 then [] else [c.now]) ++ c.todo).eraseDups.filter (fun t => decide (1 ≤ t ∧ t ≤ 12))).map
          (fun t => 2 ^ t)).sum
      | none => 0)
  else if a = ST_STAT then
    fldPut ST_STAT.BUSY (s.reg a)
      ((match s.calm.work with | some w => w.mail | none => false)
        || (match s.calm.boot with | some b => b.asked.isSome && b.asked != some .calm | none => false)).toNat
  else if CP_STAT ≤ a ∧ a < CP_STAT + 0x100 then s.planeReg (a - CP_STAT)
  else if 0xF01000 ≤ a ∧ a < 0xF02000 then memWord s.calm.buf (a - 0xF01000)
  else s.reg a

/-- The registers of reset, power and the pins as read. -/
def State.systemRead (s : State) (a : Nat) : Word :=
  if a = CK_STAT then s.ckStat
  else if a = RST_STAT then
    let v := fldPut RST_STAT.STARTUP (s.reg a) (!s.rst.committed).toNat
    let v := fldPut RST_STAT.HOLD v (decide (s.gpHold ≠ 0)).toNat
    fldPut RST_STAT.TEST (fldPut RST_STAT.RECOVERY v s.recovery.toNat) s.testMode.toNat
  else if a = PW_STAT then fldPut PW_STAT.WAIT (s.reg a) s.stillWaits
  else if a = GP_HOLD_LO ∨ a = GP_HOLD_HI then half64 s.gpHold (a == GP_HOLD_HI)
  else if a = GP_IN_LO ∨ a = GP_IN_HI then half64 s.gpIn.1 (a == GP_IN_HI)
  else if a = GP_SET_LO ∨ a = GP_CLR_LO then s.reg GP_OUT_LO
  else if a = GP_SET_HI ∨ a = GP_CLR_HI then s.reg GP_OUT_HI
  else s.reg a

/-- Word i of entry k of the orphan log (R358). -/
def State.orphanWord (s : State) (a : Nat) : Word := (tabGet (fun _ => []) s.chain.orphans ((a - 0x411000) / 0x20)).getD ((a - 0x411000) % 0x20 / 4) 0

/-- The register at BAR0 address a as it stands, where its block exists; bits of WO fields read 0, and so do addresses without a register (R10). -/
def State.liveReg (s : State) (o : Origin) (a : Nat) : Word :=
  if a < 0x30000 then s.systemRead a
  else if a < 0x40000 then s.eicRead a
  else if a < 0x50000 then s.timeRead a
  else if a < 0x60000 then s.memRead a
  else if a = EL_STAT then s.elStat
  else if a < 0x80000 then s.fabricRead o a
  else if a < 0x90000 then s.portRead ((a - 0x80000) / 0x1000) a
  else if a < 0x200000 then s.fabricRead o a
  else if a < 0x300000 then s.netRead a
  else if a < 0x360000 then s.engineRead a
  else if a < 0x400000 then s.loaderRead a
  else if a = CH_TSTAT then s.chTstat
  else if 0x411000 ≤ a ∧ a < 0x411800 then s.orphanWord a
  else if a < 0x500000 then s.reg a
  else if a < 0x600000 then s.hostRead a
  else if 0xF00000 ≤ a then s.superRead a
  else s.reg a

/-! ## Reads with an effect -/

/-- The part of the log's window that address a names: the register read and whether its upper word is (R200, R548). -/
def logWindow (a : Nat) : Option (State → Word64 × State) :=
  match (a - 0x60000) / 8 with
  | 1 => some (fun s => s.popValue .log)
  | 2 => some (fun s => s.peekValue .log)
  | 3 => some (fun s => s.statValue .log)
  | 5 => some (fun s => s.lostValue .log)
  | _ => none

/-- A read of one 32-bit register by master m, without the snapshots of R11: its value and what the read does. RC bits are cleared (R8),
a claim register claims (R541), and the orphan log remembers what has been read (R333). -/
def State.readOne (s : State) (m : Master) (a : Nat) : Word × State :=
  if s.regExists a = false then (regReset a, s)
  else if 0x60000 ≤ a ∧ a < 0x60030 then
    match logWindow a with
    | some f =>
      let r := s.windowRead m (if a % 8 = 0 then .lower else .upper) f
      (r.1.setWidth 32, r.2)
    | none => (0, s)
  else
    let v := s.liveReg m.origin a
    match copyOf a (EIC_BCLAIM 0) 0x20 8, copyOf a (EIC_GCLAIM 0) 0x20 8 with
    | some t, _ => if s.partRuns .eic then ((BitVec.ofNat 32 (s.claim t false).1), (s.claim t false).2) else (0, s)
    | _, some t => if s.partRuns .eic then ((BitVec.ofNat 32 (s.claim t true).1), (s.claim t true).2) else (0, s)
    | _, _ =>
      if a = GP_IN_LO ∨ a = GP_IN_HI then (v, s.gpIn.2)
      else if s.memFree a then (v, s.usedFree)
      else if a = SV_STAT then (s.freeVal 32 &&& 0x3FFFF, s.usedFree)
      else if 0x411000 ≤ a ∧ a < 0x411800 then
        (v, { s with chain := { s.chain with orphanUnread := s.chain.orphanUnread.filter (fun i => i != (a - 0x411000) / 0x20) } })
      else match regRow? a with
        | some r => if r.rc = 0 then (v, s) else (v, s.setReg a (s.reg a &&& ~~~BitVec.ofNat 32 r.rc))
        | none => (v, s)

/-! ## Snapshots -/

/-- A value wider than 32 bits: the address of its lowest word, its words, its copies and their distance. -/
structure Wide where
  base : Nat
  words : Nat
  copies : Nat := 1
  stride : Nat := 4
  deriving DecidableEq, Repr

/-- The values of R11 wider than 32 bits (DEDUCED, log entry 18). -/
def wides : List Wide :=
  [ ⟨ID_SN 0, 4, 1, 4⟩, ⟨GP_LOCKED_LO, 2, 1, 4⟩, ⟨GP_HOLD_LO, 2, 1, 4⟩, ⟨GP_IN_LO, 2, 1, 4⟩, ⟨GP_OUT_LO, 2, 1, 4⟩, ⟨GP_SET_LO, 2, 1, 4⟩,
    ⟨GP_CLR_LO, 2, 1, 4⟩, ⟨TB_TIME_NS, 3, 1, 4⟩, ⟨TB_STEP_NS, 3, 1, 4⟩, ⟨CAL_DATE, 2, 1, 4⟩, ⟨TSI_NS 0, 3, 8, 0x20⟩, ⟨MEM_BUSY_LO, 2, 1, 4⟩,
    ⟨DDR_SIZE_LO 0, 2, 2, 0x80⟩, ⟨DDR_UE_ADDR_LO 0, 2, 2, 0x80⟩, ⟨LG_TAG_ISS_LO, 2, 1, 4⟩, ⟨LG_TAG_CMP_LO, 2, 1, 4⟩ ] ++
  [ ⟨SP_TXSTAMP_NS 0, 3, 16, 0x1000⟩, ⟨SP_RXSTAMP_NS 0, 3, 16, 0x1000⟩, ⟨TW_CYC_NS 0, 3, 16, 0x1000⟩, ⟨GD_BLK_NS 0, 2, 16, 0x1000⟩,
    ⟨QI_HELD_LO, 2, 7, 8⟩, ⟨ED_QCAP_LO, 2, 1, 4⟩, ⟨NP_GCL_CCT_NS 0, 3, 12, 0x4000⟩, ⟨LK_PSN 0 0, 4, 4, 0x4000⟩, ⟨CH_MAP_SN 0, 4, 1, 4⟩ ] ++
  [ ⟨TB_HADJ_OFF_LO, 2, 1, 4⟩, ⟨TB_SET_NS, 3, 1, 4⟩, ⟨ALM_NS 0, 3, 4, 0x10⟩, ⟨TPO_START_NS 0, 3, 8, 0x20⟩, ⟨MEM_STILL_LO, 2, 1, 4⟩,
    ⟨EL_XBASE_LO, 2, 1, 4⟩, ⟨TW_BASE_NS 0, 3, 16, 0x1000⟩, ⟨NP_GCL_ABASE_NS 0, 3, 12, 0x4000⟩, ⟨LD_HADDR_LO, 2, 1, 4⟩,
    ⟨SQ_BASE_LO 0, 2, 64, 0x20⟩, ⟨CQ_BASE_LO 0, 2, 64, 0x20⟩, ⟨MSIX_ADDR_LO 0, 2, 64, 0x10⟩ ]

/-- The words of value w above a, and whether a is its lowest word, where address a is a word of a copy of w. -/
def Wide.at_ (w : Wide) (a : Nat) : Option (Nat × Bool) :=
  if w.base ≤ a ∧ (a - w.base) / w.stride < w.copies ∧ (a - w.base) % w.stride / 4 < w.words then
    some (w.words - 1, (a - w.base) % w.stride == 0)
  else none

/-- A value of one copy is laid out without a stride. -/
def Wide.find (w : Wide) (a : Nat) : Option (Nat × Bool) :=
  if w.copies = 1 then (if w.base ≤ a ∧ (a - w.base) / 4 < w.words then some (w.words - 1, a == w.base) else none) else w.at_ a

/-- How many words of a wide value follow the one at address a, its lowest (true); or that a is one of the higher words. -/
def wideAt (a : Nat) : Option (Nat × Bool) := wides.findSome? (fun w => w.find a)

/-- The key of master m's snapshot of the word at a. -/
def snapKey (m : Master) (a : Nat) : Nat := m.num * 0x1000000 + a

/-- The bits of the word at a that are of the wide value there: FIRED and ARM share ALM_SH with its upper seconds, and are read live (R305,
log entry 145). -/
def wideBits (a : Nat) : Word := if (copyOf a (ALM_SH 0) 0x10 4).isSome then 0xFFFF else 0xFFFFFFFF

/-- A 32-bit read of BAR0 address a by master m (R8, R10, R11). -/
def State.readReg (s : State) (m : Master) (a : Nat) : Word × State :=
  if a % 4 ≠ 0 then (0, s)
  else match wideAt a with
    | none => s.readOne m a
    | some (n, true) =>
      let r := s.readOne m a
      (r.1, (List.range n).foldl (fun (t : State) i =>
        { t with snaps := tabPut (fun _ => 0) t.snaps (snapKey m (a + 4 * (i + 1))) (s.readOne m (a + 4 * (i + 1))).1 }) r.2)
    | some (_, false) =>
      let r := s.readOne m a
      ((tabGet (fun _ => (0 : Word)) s.snaps (snapKey m a) &&& wideBits a) ||| (r.1 &&& ~~~wideBits a), s)

/-- A 64-bit read of BAR0 address a (R11): both words in one cycle; the log's window answers with the whole value (R201). -/
def State.readReg64 (s : State) (m : Master) (a : Nat) : Word64 × State :=
  if a % 8 ≠ 0 then (0, s)
  else if 0x60000 ≤ a ∧ a < 0x60030 then
    match logWindow a with
    | some f => s.windowRead m .whole f
    | none => (0, s)
  else
    let lo := s.readReg m a
    let hi := lo.2.readReg m (a + 4)
    (hi.1 ++ lo.1, hi.2)

end Sys2Proof.Machine
end

