-- ==== Sys2Proof/Machine/Remote.lean ====
section
/-!
DEFINITION. The queue windows of BAR2 as a master with 32-bit accesses uses them (R199 to R201), and accesses to other devices through BAR4
(R326 to R328).
-/
namespace Sys2Proof.Machine

/-! ## BAR2 -/

/-- A 32-bit read at BAR2 offset a by master m (R201, R512). -/
def State.bar2Read (s : State) (m : Master) (a : Nat) : Word × State :=
  if 0x400000 ≤ a ∨ a % 4 ≠ 0 then (0, s)
  else
    let q : QRef := .num (BitVec.ofNat 16 (a / 64))
    let part : ReadPart := if a % 8 = 0 then .lower else .upper
    let ans (r : Word64 × State) : Word × State := (r.1.setWidth 32, r.2)
    match a % 64 / 8 with
    | 1 => ans (s.windowRead m part (fun s => s.popValue q))
    | 2 => ans (s.windowRead m part (fun s => s.peekValue q))
    | 3 => ans (s.windowRead m part (fun s => s.statValue q))
    | 5 => ans (s.windowRead m part (fun s => s.lostValue q))
    | _ => (0, s)

/-- A 32-bit write of v at BAR2 offset a by master m (R199, R201, R512). -/
def State.bar2Write (s : State) (m : Master) (a : Nat) (v : Word) : State :=
  if 0x400000 ≤ a ∨ a % 4 ≠ 0 then s
  else
    let q : QRef := .num (BitVec.ofNat 16 (a / 64))
    match a % 64 / 4 with
    | 0 => s.windowPush m q (pushWord (.lower v))
    | 1 => s.windowPush m q (pushWord (.upper v))
    | 8 => s.windowCmd m q (v.toNat % 16) .held
    | 9 => { s with cmdHeld := tabPut (fun _ => (0 : Word)) s.cmdHeld m.num v }
    | _ => s

/-! ## BAR4 -/

/-- The origin code of an orphan write that master m has issued (R334). -/
def issuerCode : Master → Nat
  | .host => 1
  | .calm => 2
  | .supervisor _ => 3
  | _ => 4

/-- Whether device d has no route in this device's table, and so is an unassigned number (R324, R326). -/
def State.unassigned (s : State) (d : Nat) : Bool :=
  s.role == 0 || !(s.chain.routed.contains d || (s.isMember && !s.bit CH_STAT.ISOLATED))

/-- What keeps a VC0 access from device d, which has a route, as a status of R333: 4 where it, or the link to it, sleeps; 1 where that link
is not up. -/
def State.farStop (s : State) (d : Nat) : Option Nat :=
  let l := if s.chain.routed.contains d then s.rteEntry d else s.rd CH_STAT.UPLINK
  if (s.role = 1 ∧ (s.mapEntry d).asleep) ∨ s.linkState l = lkSleep then some 4
  else if (s.routeTo d).isNone then some 1
  else none

/-- A read by master m of another device (R326, R327): sent on VC0, failed at once, or answered 0 where no device has the number. -/
def State.farRead (s : State) (m : Master) (d off : Nat) (wide : Bool) : State :=
  let r : ChainRead := { m := m, dev := d, off := off, wide := wide, at_ := s.time.tick }
  if s.unassigned d then (s.inc CH_CNT_NODEV).answerRead r 0 true
  else match s.farStop d with
    | some st => ((if st = 4 then s.bounceAway stDomainOff d else s)).failRead r st
    | none =>
      ({ s with chain := { s.chain with reads := s.chain.reads ++ [r] } } : State).trySend
        (s.cellTo 0 d (.read (BitVec.ofNat 24 off) wide))

/-- A write by master m to another device (R326, R328): posted on VC0, entered in the orphan log where it cannot go, or dropped where no
device has the number. -/
def State.farWrite (s : State) (m : Master) (d off : Nat) (wide : Bool) (v : Word64) : State :=
  if s.unassigned d then s.inc CH_CNT_NODEV
  else match s.farStop d with
    | some st => (if st = 4 then s.bounceAway stDomainOff d else s).orphan st s.ownNum d off wide v (issuerCode m)
    | none => s.trySend (s.cellTo 0 d (.write (BitVec.ofNat 24 off) wide v (BitVec.ofNat 4 (issuerCode m))))

/-- Whether an access is 4 or 8 bytes wide and aligned (R326). -/
def carried (off size : Nat) : Bool := (size == 4 || size == 8) && off % size == 0

/-- BAR4_READ (R326, R327). -/
def execBar4Read (m : Master) (d : Fin 64) (off : BitVec 24) (size : BitVec 4) (s : State) : Res :=
  let wide := decide (size = 8)
  if carried off.toNat size.toNat = false then .next (s.emit (.answer m 0))
  else if d.val = s.ownNum then
    if wide then
      let r := s.readReg64 m off.toNat
      .next (r.2.emit (.answer m r.1))
    else
      let r := s.readReg m off.toNat
      .next (r.2.emit (.answer m (r.1.setWidth 64)))
  else .next (s.farRead m d.val off.toNat wide)

/-- BAR4_WRITE (R326, R328). -/
def execBar4Write (m : Master) (d : Fin 64) (off : BitVec 24) (size : BitVec 4) (v : Word64) (s : State) : Res :=
  let wide := decide (size = 8)
  if carried off.toNat size.toNat = false then .next s
  else if d.val = s.ownNum then
    .next (if wide then s.busWrite64 m m.origin off.toNat v else s.busWrite m m.origin off.toNat (v.setWidth 32))
  else .next (s.farWrite m d.val off.toNat wide v)

end Sys2Proof.Machine
end

