-- ==== Sys2Proof/Machine/CalmPort.lean ====
section
/-!
DEFINITION. The calm port's commands (R503 to R532): its transactions, plane work, posted writes and snapshots, the fuses, and boot.
-/
namespace Sys2Proof.Machine

/-! ## Identity and plane registers (R530, R531) -/

/-- The words of ID_READ (R530). -/
def State.idWords (s : State) : List Word :=
  [s.reg DEVICE_ID] ++ (List.range 4).map (fun i => s.reg (ID_SN i))
    ++ [BitVec.ofNat 32 ((s.reg ID_RCFG).toNat % 16 + s.rd CP_BOOTSTAT.STATE * 16), s.shadowWord 66, s.planeReg 0]

/-- ID_READ (R509, R530). -/
def execIdRead (tx : CalmTx) (s : State) : Res :=
  .next (s.transact tx 0 (fun _ => [(txAddr tx != 0 || badLen tx 8, 0x53)]) (fun s => s.idWords.take (txLen tx)) id)

/-- PLANE_READ (R509, R531). -/
def execPlaneRead (tx : CalmTx) (s : State) : Res :=
  .next (s.transact tx 0 (fun _ => [(badLen tx 64, 0x53)])
    (fun s => (List.range (txLen tx)).map (fun i => s.planeReg (txAddr tx + 4 * i))) id)

/-- What a write of v to CP_CTRL does (R531). -/
def State.planeCtrl (s : State) (v : Word) : State :=
  let s := if v.getLsbD 0 then s.clearErr else s
  let s := if v.getLsbD 1 then s.clearBuf else s
  if v.getLsbD 2 then s.workCancel else s

/-- PLANE_WRITE (R509, R531): of the plane registers CP_CTRL alone takes a write. -/
def execPlaneWrite (tx : CalmTx) (data : List Word) (s : State) : Res :=
  .next (s.transact tx (txLen tx) (fun _ => [(badLen tx 1, 0x53)]) (fun _ => [])
    (fun s => if txAddr tx = 4 then s.planeCtrl (data.headD 0) else s))

/-! ## The sector buffer and the store (R509 to R519) -/

/-- The checks of BUF_WRITE and BUF_READ (R507, R509, R511). -/
def State.bufChecks (s : State) (tx : CalmTx) : List (Bool × Nat) :=
  [(badLen tx 1024 || decide (1024 < txAddr tx + txLen tx), 0x53), (s.calm.work.isSome, 0x54)]

/-- BUF_WRITE (R509): words into the sector buffer; a failed CRC clears BUF_VALID. -/
def execBufWrite (tx : CalmTx) (data : List Word) (s : State) : Res :=
  let t := s.transact tx (txLen tx) (fun s => s.bufChecks tx) (fun _ => [])
    (fun s => { s with calm := { s.calm with
      buf := memSetBytes s.calm.buf (4 * txAddr tx) (bytesOf (data.take (txLen tx))), bufValid := true } })
  .next (if s.calmSilent || tx.crcOk then t else { t with calm := { t.calm with bufValid := false } })

/-- BUF_READ (R509). -/
def execBufRead (tx : CalmTx) (s : State) : Res :=
  .next (s.transact tx 0 (fun s => s.bufChecks tx)
    (fun s => (List.range (txLen tx)).map (fun i => memWord s.calm.buf (4 * (txAddr tx + i)))) id)

/-- PUMP (R511): its bytes read 0xFF for as long as work remains; the word that answers is how many of the bytes after the ACK do. -/
def execPump (tx : CalmTx) (s : State) : Res :=
  .next (s.transact tx 0 (fun _ => [(txAddr tx != 0 || txLen tx != 0, 0x53)])
    (fun s => [BitVec.ofNat 32 (match s.calm.work with | some w => min tx.after.toNat (divUp (w.left - 8) 8) | none => 0)]) id)

/-- A store operation as a transaction with D data words. -/
def State.storeTx (s : State) (opc : Nat) (tx : CalmTx) (d : Nat) (arg : Nat) : State :=
  s.transact tx d (fun s => s.storeChecks opc (txAddr tx) (txLen tx)) (fun _ => [])
    (fun s => s.storePost opc (txAddr tx) arg .calm false)

/-- STORE_PROG (R509, R517). -/
def execStoreProg (tx : CalmTx) (s : State) : Res := .next (s.storeTx 0x21 tx 0 (txLen tx))

/-- STORE_LOAD (R509). -/
def execStoreLoad (tx : CalmTx) (s : State) : Res := .next (s.storeTx 0x22 tx 0 0)

/-- STORE_SEAL (R518). -/
def execStoreSeal (tx : CalmTx) (data : List Word) (s : State) : Res :=
  .next (s.storeTx 0x23 tx (txLen tx) (data.headD 0).toNat)

/-- STORE_INVAL (R509). -/
def execStoreInval (tx : CalmTx) (s : State) : Res := .next (s.storeTx 0x24 tx 0 0)

/-- STORE_HDR (R516). -/
def execStoreHdr (tx : CalmTx) (data : List Word) (s : State) : Res :=
  .next (s.storeTx 0x25 tx (txLen tx) (data.headD 0).toNat)

/-- PLANE_WORK_DONE (R510, R521): the supervisors, which drive the plane with a clock of 25 MHz, have done its work. Work of the calm port
ends on the clocks of its transactions. -/
def execPlaneWorkDone (s : State) : Res :=
  match s.calm.work with
  | none => .next s
  | some w => if w.mail && s.partRuns .engines then .next (s.runTo (w.since + 40 * w.left)).planeDone else .next s

/-- WORK_CANCEL (R510): CP_CTRL.WORK_CANCEL is written. -/
def execWorkCancel (s : State) : Res := .next (if s.calmSilent then s else s.workCancel)

/-- CLR_ERR (R531): CP_CTRL.CLR_ERR is written. -/
def execClrErr (s : State) : Res := .next (if s.calmSilent then s else s.clearErr)

/-- BUF_CLR (R531): CP_CTRL.BUF_CLR is written. -/
def execBufClr (s : State) : Res := .next (if s.calmSilent then s else s.clearBuf)

/-- CALM_TRANSACTION_CUT (R507, R510): CFG_CS_N rises before the ACK byte is complete; the bytes clocked so far have advanced the work. -/
def execCalmTransactionCut (bytes : Half) (s : State) : Res :=
  .next (if s.calmSilent then s else (s.calmClock (8 * bytes.toNat)).wr CP_STAT.LAST_ACK 0)

/-- ST_CMD (R521, R532): a write of the store mailbox's command. -/
def execStCmd (o : Origin) (v : Word) (s : State) : Res := .next (s.mailbox o v)

/-- JOURNAL_FLUSH (R520): the records that waited are written, marked DEFERRED, once CORE runs. -/
def execJournalFlush (s : State) : Res :=
  if s.runs .core then
    let notes := s.calm.notes
    let s : State := { s with calm := { s.calm with notes := [] } }
    .next (notes.foldl (fun s n =>
      s.eventAt n.at_ true Ev.STORE_WRITE n.org [BitVec.ofNat 32 n.opc, BitVec.ofNat 32 n.addr, BitVec.ofNat 32 n.arg]) s)
  else .next s

/-! ## Posted writes and snapshots (R512 to R514) -/

/-- The domain that the register at BAR0 address a belongs to (R20, R598). -/
def domainOf (a : Nat) : Domain :=
  if a < 0x30000 then .aon
  else if a < 0x40000 then .core
  else if a < 0x50000 then .time
  else if a < 0x80000 then .core
  else if a < 0x100000 then .port
  else if a < 0x200000 then .core
  else if a < 0x300000 then .nser
  else if a < 0x400000 then .core
  else if a < 0x600000 then .hser
  else .core

/-- Whether domain d is released and powered. -/
def State.reachable (s : State) (d : Domain) : Bool := !(s.stopped.reset.contains d || s.stopped.power.contains d)

/-- ADDR of word i of an operation with ADDR a (R512). -/
def opAddr (a : Word) (i : Nat) : Word :=
  if a.getLsbD 31 then a else (a &&& 0x7F000000) ||| BitVec.ofNat 32 ((a.toNat + 4 * i) % 0x1000000)

/-- OFFSET and DEV of ADDR, and whether it names BAR2 of this device. -/
def opOffset (a : Word) : Nat := a.toNat % 0x1000000
def opDev (a : Word) : Nat := a.toNat / 0x1000000 % 64
def opBar2 (a : Word) : Bool := a.getLsbD 30

/-- Whether ADDR reaches this device (R512). -/
def State.opLocal (s : State) (a : Word) : Bool := opBar2 a || decide (opDev a = s.ownNum)

/-- The domain that a local ADDR reaches. -/
def opDomain (a : Word) : Domain := if opBar2 a then .core else domainOf (opOffset a)

/-- Whether the posted words and requests of the calm port cross (R513, R514): not in becalm, nor without REFCLK. -/
def State.crosses (s : State) : Bool := s.refclkOk && !s.bit CK_STAT.BECALM

/-- OP_WRITE (R512, R513). -/
def execOpWrite (tx : CalmTx) (data : List Word) (s : State) : Res :=
  .next (s.transact tx (txLen tx)
    (fun s => [(badLen tx 64 || txAddr tx % 4 != 0, 0x53), (!s.refclkOk, 0x55), (decide (64 < s.calm.posted.length + txLen tx), 0x58)])
    (fun _ => [])
    (fun s => { s with calm := { s.calm with
      posted := s.calm.posted ++ ((data.take (txLen tx)).zipIdx.map (fun e => (opAddr tx.addr e.2, e.1))) } }))

/-- A local posted word with ADDR a has failed (R513). -/
def State.opFail (s : State) (a : Word) : State :=
  let s := (s.wr CP_OPSTAT.FAILS (min 255 (s.rd CP_OPSTAT.FAILS + 1))).setReg CP_OPFAIL a
  { s with calm := { s.calm with opErr := true } }

/-- A posted word v for ADDR a is applied (R513). -/
def State.opApply (s : State) (a v : Word) : State :=
  if s.opLocal a then
    if s.reachable (opDomain a) then
      if opBar2 a then s.bar2Write .calm (opOffset a) v else s.busWrite .calm .calm (opOffset a) v
    else s.opFail a
  else s.farWrite .calm (opDev a) (opOffset a) false (v.setWidth 64)

/-- POSTED_WRITE_APPLY (R513): the oldest posted word crosses. -/
def execPostedWriteApply (s : State) : Res :=
  match s.calm.posted with
  | [] => .next s
  | (a, v) :: rest =>
    if s.crosses = false then .next s
    else
      let want := s.calm.want.map (fun w => (w.1, w.2.1, w.2.2 - 1))
      .next (({ s with calm := { s.calm with posted := rest, want := want } } : State).opApply a v)

/-- OP_READ (R514): a new request replaces one that is pending; without REFCLK nothing is read. -/
def State.askSnap (s : State) (tx : CalmTx) : State :=
  let v := s.reg CP_SNAPTAG
  let tag (n : Nat) : Word := BitVec.ofNat 32 (n + txLen tx * 0x100 + (v.toNat / 0x10000 + 1) % 0x10000 * 0x10000)
  let s : State := { s with chain := { s.chain with reads := s.chain.reads.filter (fun r => r.m != .calm) } }
  if s.refclkOk then
    { s.setReg CP_SNAPTAG (tag 1) with calm := { s.calm with
      want := some (tx.addr, txLen tx, s.calm.posted.length), taking := none, snap := [] } }
  else { s.setReg CP_SNAPTAG (tag 3) with calm := { s.calm with want := none, taking := none, snap := [] } }

/-- OP_READ (R512, R514). -/
def execOpRead (tx : CalmTx) (s : State) : Res :=
  .next (s.transact tx 0 (fun _ => [(badLen tx 64 || txAddr tx % 4 != 0, 0x53)]) (fun _ => []) (fun s => s.askSnap tx))

/-- The local words of a snapshot from ADDR a, n of them, read in ascending order (R514): the words read, and whether all could be. -/
def State.readWords (s : State) (a : Word) : Nat → Nat → List Word × Bool × State
  | _, 0 => ([], true, s)
  | i, n + 1 =>
    let x := opAddr a i
    if s.reachable (opDomain x) then
      let r := if opBar2 x then s.bar2Read .calm (opOffset x) else s.readReg .calm (opOffset x)
      let t := r.2.readWords a (i + 1) n
      (r.1 :: t.1, t.2.1, t.2.2)
    else (List.replicate (n + 1) 0xFFFFFFFF, false, s)

/-- SNAPSHOT_TAKE (R514): the pending request is carried out, after the words posted before it. -/
def execSnapshotTake (s : State) : Res :=
  match s.calm.want, s.calm.taking with
  | some (a, len, 0), none =>
    if s.crosses = false then .next s
    else if s.opLocal a then
      let r := s.readWords a 0 len
      let t := r.2.2.wr ⟨CP_SNAPTAG, 0, 3⟩ (if r.2.1 then 2 else 4)
      .next { t with calm := { t.calm with snap := r.1, want := none } }
    else
      let s : State := { s with calm := { s.calm with snap := List.replicate len 0xFFFFFFFF, taking := some (len, false) } }
      .next ((List.range len).foldl (fun s i => s.farRead .calm (opDev a) (opOffset (opAddr a i)) false) s)
  | _, _ => .next s

/-- Snapshot word i (R514): 0 before any request; a word that no rule gives, of a request that waits, was not read or was shorter, is free
(log entry 4). -/
def State.snapWord (s : State) (i : Nat) : Word :=
  match s.rd ⟨CP_SNAPTAG, 0, 3⟩ with
  | 0 => 0
  | 2 | 4 => s.calm.snap.getD i (Config.freeBits 32 (s.freeNo + i))
  | _ => Config.freeBits 32 (s.freeNo + i)

/-- SNAP_READ (R514): the tag word, then snapshot words from the offset. -/
def execSnapRead (tx : CalmTx) (s : State) : Res :=
  .next (s.transact tx 0 (fun _ => [(badLen tx 64 || decide (64 < txAddr tx + txLen tx), 0x53)])
    (fun s => s.reg CP_SNAPTAG :: (List.range (txLen tx)).map (fun i => s.snapWord (txAddr tx + i)))
    (fun s => { s with freeNo := s.freeNo + 64 }))

/-! ## Fuses (R527 to R529) -/

/-- Whether fuse word i belongs to a group whose LOCK bit is set (R527). -/
def State.fuseLocked (s : State) (i : Nat) : Bool :=
  let g := if i ≤ 3 then some 0 else if i ≤ 11 then (if 4 ≤ i then some 1 else none) else if i ≤ 19 then some 2 else if i ≤ 26 then some 3
    else if i ≤ 33 then some 4 else if i ≤ 65 then some 5 else none
  match g with | some g => (s.shadowWord 66).getLsbD g | none => false

/-- The checks of FUSE_PROG (R507, R529); an operation in progress makes it BUSY. -/
def State.fuseChecks (s : State) (tx : CalmTx) : List (Bool × Nat) :=
  [(badLen tx 1 || decide (128 ≤ txAddr tx), 0x53), (s.calm.work.isSome || s.calm.fuse.isSome, 0x54), (!s.refclkOk, 0x55),
    (s.fuseLocked (txAddr tx), 0x57), (!s.recovery, 0x59)]

/-- FUSE_PROG (R529): the operation is posted to the fuse controller; one of a locked group shows LOCKED. -/
def execFuseProg (tx : CalmTx) (data : List Word) (s : State) : Res :=
  let t := s.transact tx (txLen tx) (fun s => s.fuseChecks tx) (fun _ => [])
    (fun s => ({ s with calm := { s.calm with fuse := some (txAddr tx, data.headD 0, .calm) } } : State).on CP_FUSESTAT.BUSY)
  .next (if s.calmSilent = false ∧ t.rd CP_STAT.LAST_ACK = 0x57 then t.wr CP_FUSESTAT.RESULT 2 else t)

/-- FUSE_PROG_DONE (R529): the bits that read back as set are programmed; RESULT tells whether all that were asked for are. -/
def execFuseProgDone (back : Word) (s : State) : Res :=
  match s.calm.fuse with
  | none => .next s
  | some (i, w, o) =>
    let fuses := tabPut (fun _ => (0 : Word)) s.fuses i (tabGet (fun _ => (0 : Word)) s.fuses i ||| (w &&& back))
    let result := if w &&& back = w then 0 else 1
    let s : State := { s with fuses := fuses, calm := { s.calm with fuse := none } }
    .next (((s.off CP_FUSESTAT.BUSY).wr CP_FUSESTAT.RESULT result).event Ev.FUSE_PROG [i, w.toNat, result] o)

/-! ## Boot (R522 to R526) -/

/-- BOOT (R509, R526). -/
def execBoot (tx : CalmTx) (s : State) : Res :=
  .next (s.transact tx 0 (fun s => s.bootChecks (txAddr tx) (txLen tx)) (fun _ => []) (fun s => s.bootAsk .calm (txAddr tx)))

/-- MRAM_BOOT (R523): once the supervisors are released, the sequencer streams the next slot. -/
def execMramBoot (s : State) : Res :=
  match s.calm.boot with
  | some b => if s.partRuns .engines && b.slot.isNone && b.failed.isNone then .next s.bootNext else .next s
  | none => .next s

/-- BOOT_SLOT_FAIL (R523): the image of a slot has failed; the sequencer moves to the next slot. -/
def execBootSlotFail (s : State) : Res :=
  match s.calm.boot with
  | some b =>
    match b.slot, b.failed with
    | some k, some r =>
      let s := (s.event Ev.BOOT_SLOT_FAIL [k, r]).wr CP_BOOTSTAT.LAST_RESULT r
      .next ({ s with calm := { s.calm with boot := some { b with slot := none, failed := none } } } : State).bootNext
    | _, _ => .next s
  | none => .next s

/-- The first word of the management cells of a chain boot (log entry 2): the member's request is it alone, the root's stream goes on with the
framed image. -/
def bootCell : Word := 0xB007B007

/-- The slot that the root streams to members (R516, R525): MEMBER_SLOT, where it is SEALED. -/
def State.memberSlot (s : State) : Option Nat :=
  let k := s.headerOrder / 0x10000 % 16
  if k < 4 ∧ s.slotState k = 2 then some k else none

/-- The root's stream reaches a member that waits for it (R525). -/
def State.bootArrived (s : State) (bs : List Byte) : State :=
  if s.isMember && s.bootSource == 2 && s.rd CP_BOOTSTAT.STATE == 3 then
    let l : CfgLoad := { org := .chain 0, code := 3, src := .chain, len := bs.length, bytes := bs }
    ({ s.wr CP_BOOTSTAT.STATE 4 with cfg := { s.cfg with line := s.cfg.line ++ [l] } } : State).nextLoad
  else s

/-- CHAIN_BOOT_REQUEST (R525): a numbered member with chain boot asks the root; the root's supervisors stream the slot; the stream arrives. -/
def execChainBootRequest (e : BootEvent) (s : State) : Res :=
  match e with
  | .ask =>
    if s.isMember && s.bootSource == 2 && s.rd CP_BOOTSTAT.STATE == 3 && s.partRuns .engines then
      .next (s.trySend (s.cellTo 3 0 (.manage [bootCell])))
    else .next s
  | .stream d =>
    if s.role = 1 ∧ s.partRuns .engines then
      let s := s.storeRead
      match s.memberSlot with
      | some k =>
        .next (s.trySend (s.cellTo 3 d.val (.manage (bootCell :: wordsOf (memBytes s.calm.store (k * 0x200000) (min (s.slotLen k) 0x200000))))))
      | none => .next s
    else .next s
  | .arrived bs => .next (s.bootArrived bs)

end Sys2Proof.Machine
end

