-- ==== Sys2Proof/Machine/HostCmds.lean ====
section
/-!
DEFINITION. Submission rings and their commands (R442 to R456): the fetch with its checks, the start of a command, what each opcode does on the
device that executes it, waits and their limits, and failed accesses to host memory (R436).
-/
namespace Sys2Proof.Machine

/-! ## Fetching (R442 to R445, R454) -/

/-- The tags outstanding. -/
def State.tagsOut (s : State) : Nat := s.ledger.tags.length

/-- The rejections that the front end holds for ring n's completion ring (R457). -/
def State.frontHolds (s : State) (n : Nat) : Nat :=
  ((s.host.held ++ s.host.later).filter (fun x => x.source == srcFront && x.cq == s.rd (SQ_CFG.CQ n))).length

/-- Whether ring n has an entry that may be fetched. -/
def State.fetchable (s : State) (n : Nat) : Bool :=
  s.bit (SQ_STAT.ENABLED n) && s.sqHead n != s.sqTail n && decide (s.tagsOut < 4096) && decide (s.frontHolds n < 8)

/-- The ring that is served next, and the entries left in its turn then (R442): the ring of the turn while it has some left, or the next ring in
ring order. -/
def State.nextRing (s : State) : Option (Nat × Nat) :=
  let h := s.host
  if h.left ≠ 0 ∧ s.fetchable h.turn then some (h.turn, h.left - 1)
  else ((List.range 64).map (fun i => (h.turn + 1 + i) % 64)).find? s.fetchable |>.map
    (fun n => (n, max 1 (s.rd (SQ_CFG.WEIGHT n)) - 1))

/-- Whether an SGL of the elements given is well-formed for LEN (R444). -/
def sglOk (len : Nat) (sgl : List (Word64 × Word)) : Bool :=
  decide (1 ≤ sgl.length ∧ sgl.length ≤ 256) && (sgl.map (fun x => x.2.toNat)).sum == len

/-- Whether a field of entry e is bad at fetch (R445). -/
def State.badField (s : State) (e : List Word) (sgl : List (Word64 × Word)) : Bool :=
  let op := entryOp e
  let len := entryLen e
  let reg := op == opRegRead || op == opRegWrite
  decide (0x100000 < len)
    || (op == opCall && decide (48 ≤ entryTarget e))
    || (s.inlineCmd e && decide (32 < len))
    || (s.sglCmd e && !s.inlineCmd e && !sglOk len sgl)
    || ((op == opPush) && entryFlag e 2 && len % 8 != 0)
    || (reg && (len % 4 != 0 || decide (len < 4) || decide (4096 < len)))
    || (reg && entryDev e == s.ownNum && (entryTarget e % 4 != 0 || decide (0x1000000 < entryTarget e + len)))

/-- The check that entry e fails first (R454): its status. -/
def State.entryFault (s : State) (e : List Word) (sgl : List (Word64 × Word)) : Option Nat :=
  if s.tagOut (entryTag e) then some stTagBusy
  else if opTime < entryOp e then some stBadOpcode
  else if s.badField e sgl then some stBadField
  else none

/-- SQ_FETCH (R442, R454): the next entry is fetched, and takes its tag or is rejected. -/
def execSqFetch (entry : List Word) (sgl : List (Word64 × Word)) (s : State) : Res :=
  if s.hostUp = false ∨ s.partRuns .host = false then .next s
  else match s.nextRing with
    | none => .next s
    | some (n, left) =>
      let s : State := { s with host := { s.host with turn := n, left := left } }
      let s := s.wr (SQ_STAT.HEAD n) ((s.sqHead n + 1) % s.sqSize n)
      match s.entryFault entry sgl with
      | some st =>
        let s := s.inc HI_CNT_REJECT
        let s := if st = stTagBusy then s.on HI_EVT.TAG_BUSY else s
        .next (s.hold { source := srcFront, cq := s.rd (SQ_CFG.CQ n), tag := entryTag entry, reject := true, status := st, sq := n
                        dev := entryDev entry, stamp := s.now, stepSeq := s.stepSeq, tagged := false })
      | none =>
        let c : Cmd := { tag := entryTag entry, away := entryDev entry != s.ownNum, ring := n, entry := entry
                         sgl := if s.sglCmd entry then sgl else [] }
        let s := s.takeTag { tag := c.tag, cq := s.rd (SQ_CFG.CQ n), sq := n, dev := entryDev entry }
        .next { s with host := { s.host with cmds := s.host.cmds ++ [c] } }

/-! ## The start of a command (R444, R454 to R456, R459) -/

/-- The commands of c's ring that were fetched before it. -/
def State.earlier (s : State) (c : Cmd) : List Cmd :=
  (s.host.cmds.takeWhile (fun x => x != c)).filter (fun x => x.owner == c.owner && x.ring == c.ring)

/-- Whether earlier command x holds command c back: it has not started, or it is of its kind on its queue and has not finished (R455). -/
def holdsBack (c x : Cmd) : Bool :=
  let op := entryOp c.entry
  !x.started || ((op == opPush || op == opPop) && entryOp x.entry == op && entryDev x.entry == entryDev c.entry
    && entryTarget x.entry % 0x10000 == entryTarget c.entry % 0x10000)

/-- Whether command c can start: in ring order, past FENCE (R444), and with room in its source (R259). -/
def State.canStart (s : State) (c : Cmd) : Bool :=
  let before := s.earlier c
  !c.started && before.all (fun x => !holdsBack c x)
    && (!entryFlag c.entry 0 || (before.isEmpty && (c.owner.isSome || !s.ringHeld c.ring)))
    && (c.owner.isSome || decide (s.host.holds (if c.away then 64 + entryDev c.entry else c.source) < 8))

/-- The master that a command acts as on this device (R448). -/
def Cmd.master (c : Cmd) : Master := match c.owner with | none => .host | some d => .chain (Fin.ofNat 64 d)

/-- The payload of a command whose buffer the bytes given come from (R444). -/
def State.payload (s : State) (c : Cmd) (bs : List Byte) : List Byte :=
  if c.owner.isSome then c.data
  else (if s.inlineCmd c.entry then entryData c.entry else bs).take (entryLen c.entry)

/-- The command of an owner with a tag starts, if it has opcode op and can: it is sent to the device that executes it (R456), or f is its
effect here. -/
def State.startCmd (s : State) (own : Option (Fin 64)) (tag : BitVec 12) (op : Nat) (bs : List Byte) (f : State → Cmd → State) : State :=
  match s.cmd? (own.map (fun d => d.val)) tag.toNat with
  | none => s
  | some c =>
    if entryOp c.entry ≠ op ∨ s.canStart c = false ∨ s.partRuns .host = false then s
    else
      let data := s.payload c bs
      let c' := { c with started := true, data := if c.away then [] else data }
      let t := s.setCmd c (some c')
      if c.away then
        match s.awayStop (entryDev c.entry) with
        | some st => (t.bounceAway st (entryDev c.entry)).finish c' st
        | none =>
          t.trySend (t.cellTo 0 (entryDev c.entry) (.command (BitVec.ofNat 12 c.tag) (BitVec.ofNat 6 c.ring) c.entry data))
      else f t c'

/-- Command c finishes unless it has been stopped meanwhile. -/
def State.finishStill (s : State) (c : Cmd) (status : Nat) (count : Nat := 0) (detail : Nat := 0) (out : List Byte := []) : State :=
  if s.host.cmds.contains c then s.finish c status count detail out else s

/-- Command c waits from now on, if it does not already; TMO_US of 0 allows no wait. -/
def State.waitNow (s : State) (c : Cmd) : State :=
  if c.waits.isSome then s else s.setCmd c (some { c with waits := some s.time.tick })

/-! ## PUSH and POP (R446, R447) -/

/-- The queue of a command. -/
def Cmd.queue (c : Cmd) : Nat := entryTarget c.entry % 0x10000

/-- The bytes of one word in the command's buffer: 8 with FMT64. -/
def Cmd.unit (c : Cmd) : Nat := if entryFlag c.entry 2 then 8 else 4

/-- The queue words of 32-bit buffer words in the PUSH format of R199. -/
def pairWords : List Word → List QWord
  | lo :: hi :: r => { data := lo, fin := hi.getLsbD 0, err := hi.getLsbD 1 } :: pairWords r
  | _ => []

/-- The queue words of 32-bit buffer words, of which the last carries END where fin. -/
def plainWords (fin : Bool) : List Word → List QWord
  | [] => []
  | [w] => [{ data := w, fin := fin }]
  | w :: r => { data := w } :: plainWords fin r

/-- The queue words that the bytes left of a PUSH give (R446). -/
def Cmd.words (c : Cmd) (bs : List Byte) : List QWord :=
  if entryFlag c.entry 2 then pairWords (wordsOf bs) else plainWords (entryFlag c.entry 1) (wordsOf bs)

/-- PUSH goes on with the groups left (R446): up to 16 words each; in STOP mode a group that would be refused waits. -/
def State.pushRun (s : State) (c : Cmd) : Nat → State
  | 0 => s
  | fuel + 1 =>
    if c.data.isEmpty then s.finishStill c stOk c.count
    else
      let n := min 16 (max 1 (s.queue c.queue).cfg.cap)
      let bytes := min (n * c.unit) c.data.length
      match s.push c.queue ((c.words c.data).take n) c.master.origin with
      | (.accepted, t) =>
        let c' := { c with data := c.data.drop bytes, count := c.count + bytes, waits := none }
        (t.setCmd c (some c')).pushRun c' fuel
      | (.refused, _) => if entryTmo c.entry = 0 then s.finishStill c stTimeout c.count else s.waitNow c
      | (.absent, t) => t.finishStill c stAbsent c.count

/-- The push of a payload above C_tot, word by word for as long as the queue accepts one (R250). -/
def State.pushShort (s : State) (c : Cmd) : Nat → State
  | 0 => s
  | fuel + 1 =>
    if s.takesWord c.queue then
      match s.push c.queue ((c.words c.data).take 1) c.master.origin with
      | (.accepted, t) =>
        let bytes := min c.unit c.data.length
        let c' := { c with data := c.data.drop bytes, count := c.count + bytes }
        (t.setCmd c (some c')).pushShort c' fuel
      | _ => s.finishStill c stShort c.count
    else s.finishStill c stShort c.count

/-- PUSH (R446). -/
def execPush (own : Option (Fin 64)) (tag : BitVec 12) (payload : List Byte) (s : State) : Res :=
  .next (s.startCmd own tag opPush payload (fun s c =>
    if entryLen c.entry = 0 then s.finish c stOk
    else if (s.queue c.queue).ex = false then s.finish c stAbsent
    else if s.totalCap c.queue < divUp c.data.length c.unit then s.pushShort c (c.data.length + 1)
    else s.pushRun c (c.data.length + 1)))

/-- The bytes that a popped word gives the buffer (R447). -/
def Cmd.popBytes (c : Cmd) (w : QWord) (cut : Bool) : List Byte :=
  if entryFlag c.entry 2 then
    let v := popWord w cut
    bytesOf [v.setWidth 32, (v >>> 32).setWidth 32]
  else bytesOf [w.data]

/-- POP goes on (R447): word by word until the buffer is full, a packet ends where PKT asks for it, or the queue has nothing ready. -/
def State.popRun (s : State) (c : Cmd) : Nat → State
  | 0 => s
  | fuel + 1 =>
    if entryLen c.entry / c.unit ≤ c.count / c.unit then s.finishStill c stOk c.count c.seen c.out
    else if (s.queue c.queue).ex = false then s.finishStill c stAbsent c.count c.seen c.out
    else match s.pop c.queue with
      | (.word w cut, t) =>
        let seen := Nat.lor c.seen (w.fin.toNat + cut.toNat * 2 + w.err.toNat * 4)
        let c' := { c with out := c.out ++ c.popBytes w cut, count := c.count + c.unit, seen := seen, waits := none }
        let t := t.setCmd c (some c')
        if entryFlag c.entry 6 && w.fin then t.finishStill c' stOk c'.count c'.seen c'.out else t.popRun c' fuel
      | (.empty, t) =>
        if entryFlag c.entry 6 = false ∧ 0 < c.count then t.finishStill c stOk c.count c.seen c.out
        else if entryTmo c.entry = 0 then t.finishStill c (if c.count = 0 then stTimeout else stOk) c.count c.seen c.out
        else t.waitNow c
      | (.wait, t) => t.setCmd c (some { c with waits := none })

/-- POP (R447). -/
def execPop (own : Option (Fin 64)) (tag : BitVec 12) (s : State) : Res :=
  .next (s.startCmd own tag opPop [] (fun s c => s.popRun c (entryLen c.entry / c.unit + 1)))

/-! ## NOP, QCMD and registers (R445, R448, R450) -/

/-- NOP (R445): completes OK. -/
def execHostNop (own : Option (Fin 64)) (tag : BitVec 12) (s : State) : Res :=
  .next (s.startCmd own tag opNop [] (fun s c => s.finish c stOk))

/-- QCMD (R448): one CMD of R208 on the queue. -/
def execQcmd (own : Option (Fin 64)) (tag : BitVec 12) (s : State) : Res :=
  .next (s.startCmd own tag opQcmd [] (fun s c =>
    if (s.queue c.queue).ex = false then s.finish c stAbsent
    else (s.queueCmd c.master (.num (BitVec.ofNat 16 c.queue)) (entryArg c.entry % 16) (entryWord c.entry 8)).finishStill c stOk))

/-- Whether a register command's range lies outside BAR0 (R448, R453). -/
def Cmd.badRange (c : Cmd) : Bool := entryTarget c.entry % 4 != 0 || decide (0x1000000 < entryTarget c.entry + entryLen c.entry)

/-- The bytes of n registers from BAR0 offset a, read in ascending order. -/
def State.readRegs (s : State) (m : Master) (a : Nat) : Nat → List Byte × State
  | 0 => ([], s)
  | n + 1 =>
    let r := s.readReg m a
    let t := r.2.readRegs m (a + 4) n
    (bytesOf [r.1] ++ t.1, t.2)

/-- REG_READ (R448). -/
def execRegRead (own : Option (Fin 64)) (tag : BitVec 12) (s : State) : Res :=
  .next (s.startCmd own tag opRegRead [] (fun s c =>
    if c.badRange then s.finish c stBadField
    else
      let r := s.readRegs c.master (entryTarget c.entry) (entryLen c.entry / 4)
      r.2.finishStill c stOk r.1.length 0 r.1))

/-- Words written to registers from BAR0 offset a in ascending order. -/
def State.writeRegs (s : State) (m : Master) (a : Nat) : List Word → State
  | [] => s
  | w :: r => (s.busWrite m m.origin a w).writeRegs m (a + 4) r

/-- REG_WRITE (R448). -/
def execRegWrite (own : Option (Fin 64)) (tag : BitVec 12) (payload : List Byte) (s : State) : Res :=
  .next (s.startCmd own tag opRegWrite payload (fun s c =>
    if c.badRange then s.finish c stBadField
    else (s.writeRegs c.master (entryTarget c.entry) (wordsOf c.data)).finishStill c stOk c.data.length))

/-! ## ENGINE_CALL (R449) -/

/-- The call is posted to its engine's mailbox, or waits for it (R449). In LULL it waits for the engine's return (R463); at a cluster that
drains it waits at the gate, and one that is off returns it (R260). -/
def State.callPost (s : State) (c : Cmd) : State :=
  let e := entryTarget c.entry
  let st := s.ceState e
  if s.bound e = false then s.finishStill c stAbsent
  else if s.clustersOff.contains (e / 4) then (s.bounce (.cluster (Fin.ofNat 12 (e / 4))) 1).finishStill c stDomainOff
  else if s.bit (CL_CTRL.PWR_OFF (e / 4)) then s
  else if st = ceGated then s.setCmd c (some { c with waits := none })
  else if st ≠ ceRunning then s.finishStill c stNotRunning
  else if s.bit (CE_STAT.IN_FULL e) then
    (if entryTmo c.entry = 0 then s.finishStill c stTimeout else s.waitNow c)
  else
    let ws := (c.entry.drop 8).take 8 ++ [BitVec.ofNat 32 (0x80000000 + c.tag)]
    let s := ws.zipIdx.foldl (fun s x => s.setReg (CE_MBI e x.2) x.1) s
    let s := (s.on (CE_STAT.IN_FULL e)).setEng e { s.eng e with inCount := 9 }
    s.setCmd c (some { c with posted := true, waits := none })

/-- ENGINE_CALL (R449). -/
def execEngineCall (own : Option (Fin 64)) (tag : BitVec 12) (s : State) : Res :=
  .next (s.startCmd own tag opCall [] (fun s c =>
    if 48 ≤ entryTarget c.entry then s.finish c stBadField else s.callPost c))

/-- Whether command c is started here and goes on. -/
def Cmd.runsHere (c : Cmd) : Bool := c.started && !c.away

/-- ENGINE_CALL_POST (R449): a call that waits meets a free mailbox. -/
def execEngineCallPost (own : Option (Fin 64)) (tag : BitVec 12) (s : State) : Res :=
  match s.cmd? (own.map (fun d => d.val)) tag.toNat with
  | some c => if c.runsHere && entryOp c.entry == opCall && !c.posted && s.partRuns .host then .next (s.callPost c) else .next s
  | none => .next s

/-- The calls that wait at the gate of cluster k (R260). -/
def State.gateCalls (s : State) (k : Nat) : List Cmd :=
  s.host.cmds.filter (fun c => c.runsHere && entryOp c.entry == opCall && !c.posted && entryTarget c.entry / 4 == k)

/-- DOMAIN_BOUNCE (R260): the transfers that waited 10 µs at a unit that powers down go back to their senders; the calls that waited at a
cluster's gate complete DOMAIN_OFF. -/
def execDomainBounce (u : DownUnit) (waiting : BitVec 32) (s : State) : Res :=
  match u with
  | .cluster k =>
    if s.bit (CL_CTRL.PWR_OFF k.val) then
      let cs := s.gateCalls k.val
      .next (cs.foldl (fun s c => s.finishStill c stDomainOff) (s.bounce u (waiting.toNat + cs.length)))
    else .next (s.bounce u waiting.toNat)
  | _ => .next (s.bounce u waiting.toNat)

/-- ENGINE_CALL_ANSWER (R449): an outbound post of engine e whose word 0 has bit 31 set answers a call. -/
def execEngineCallAnswer (e : Fin 48) (ws : List Word) (s : State) : Res :=
  if (ws.headD 0).getLsbD 31 && s.canAct e.val then .next (s.callAnswer e.val ((ws.headD 0).toNat % 4096) ws) else .next s

/-! ## SECTION_LOAD and TIME_READ (R450, R485) -/

/-- SECTION_LOAD (R450, R482, R485): the framed image joins the line of the loader; one of a wrong length fails at once with BAD_LENGTH. -/
def execSectionLoad (own : Option (Fin 64)) (tag : BitVec 12) (payload : List Byte) (s : State) : Res :=
  .next (s.startCmd own tag opSection payload (fun s c =>
    if (framesOf (entryLen c.entry)).isNone then s.finish c stSectionErr 0 7
    else
      let l : CfgLoad := { org := c.master.origin, code := if c.owner.isSome then 3 else 1, src := .command c.owner c.tag
                           len := entryLen c.entry, bytes := c.data }
      ({ s with cfg := { s.cfg with line := s.cfg.line ++ [l] } } : State).nextLoad))

/-- TIME_READ (R450). -/
def execTimeRead (own : Option (Fin 64)) (tag : BitVec 12) (s : State) : Res :=
  .next (s.startCmd own tag opTime [] (fun s c => s.finish c stOk 0 (s.quality + s.stepSeq * 0x100)))

/-! ## Waits (R446, R447, R449) -/

/-- COMMAND_WAIT_RESUME: what a PUSH or a POP waits for has come. -/
def execCommandWaitResume (own : Option (Fin 64)) (tag : BitVec 12) (s : State) : Res :=
  match s.cmd? (own.map (fun d => d.val)) tag.toNat with
  | some c =>
    if c.runsHere = false ∨ s.partRuns .host = false then .next s
    else if entryOp c.entry = opPush then .next (s.pushRun c (c.data.length + 1))
    else if entryOp c.entry = opPop then .next (s.popRun c (entryLen c.entry / c.unit + 1))
    else .next s
  | none => .next s

/-- COMMAND_TIMEOUT (R446, R447, R449): TMO_US has passed since the wait began. -/
def execCommandTimeout (own : Option (Fin 64)) (tag : BitVec 12) (s : State) : Res :=
  match s.cmd? (own.map (fun d => d.val)) tag.toNat with
  | some c =>
    match c.waits with
    | some t =>
      if c.runsHere = false ∨ s.partRuns .host = false ∨ entryTmo c.entry = 0xFFFFFFFF then .next s
      else
        let s := s.runTo (t + entryTmo c.entry * 1000)
        let st := if entryOp c.entry = opPop ∧ 0 < c.count then stOk else stTimeout
        .next (s.finishStill c st c.count c.seen c.out)
    | none => .next s
  | none => .next s

/-! ## Failed host memory accesses (R436) -/

/-- Whether a held completion's buffer is what an access was for. -/
def Completion.isOf (x : Completion) (t : Nat) : Bool := x.tagged && !x.abt && x.tag == t && !x.buffer.isEmpty

/-- The first n bytes of the pieces of a buffer. -/
def takePieces : Nat → List (Word64 × List Byte) → List (Word64 × List Byte)
  | _, [] => []
  | n, (a, bs) :: r => if n = 0 then [] else (a, bs.take n) :: takePieces (n - bs.length) r

/-- Completion x with its buffer cut after n bytes by a failed access. -/
def Completion.cutAt (x : Completion) (n : Nat) : Completion :=
  { x with status := stDmaError, count := n, buffer := takePieces n x.buffer }

/-- The payload access of command c has failed after the bytes given: what they complete is done, and the command ends. -/
def State.payloadFault (s : State) (c : Cmd) (bs : List Byte) : State :=
  if c.away ∨ entryOp c.entry = opSection then s.finish c stDmaError
  else if entryOp c.entry = opRegWrite then
    let n := bs.length / 4 * 4
    (s.writeRegs c.master (entryTarget c.entry) (wordsOf (bs.take n))).finishStill c stDmaError n
  else if entryOp c.entry = opPush then
    let n := bs.length / c.unit * c.unit
    let ws := if entryFlag c.entry 2 then pairWords (wordsOf (bs.take n)) else plainWords false (wordsOf (bs.take n))
    match s.push c.queue ws c.master.origin with
    | (.accepted, t) => t.finishStill c stDmaError n
    | (_, _) => s.finishStill c stDmaError
  else s.finish c stDmaError c.count c.seen

/-- DMA_ERROR (R436): an access to host memory has failed. -/
def execDmaError (what : DmaFault) (s : State) : Res :=
  let s := (s.inc HI_CNT_DMAERR).on HI_EVT.DMA_ERR
  match what with
  | .fetch n => .next (((s.wr (SQ_STAT.ERR n.val) 3).off (SQ_STAT.ENABLED n.val)).off (SQ_CTRL.EN n.val))
  | .completion n =>
    let s := ((s.wr (CQ_STAT.ERR n.val) 2).off (CQ_STAT.ENABLED n.val)).off (CQ_CTRL.EN n.val)
    match s.nextSource n.val with
    | some x =>
      let s : State := { s with host := { s.host with held := s.host.held.erase x } }
      .next ((if x.tagged then s.returnTag x.tag else s).refillSource x.source)
    | none => .next s
  | .payload tag got =>
    match s.cmd? none tag.toNat with
    | some c => if s.partRuns .host && (c.started || s.canStart c) then .next (s.payloadFault c got) else .next s
    | none =>
      let cut (x : Completion) : Completion := if x.isOf tag.toNat then x.cutAt got.length else x
      .next { s with host := { s.host with held := s.host.held.map cut, later := s.host.later.map cut } }

end Sys2Proof.Machine
end

