-- ==== Sys2Proof/Machine/ChainRest.lean ====
section
/-!
DEFINITION. Cells that arrive on a link (R314 to R318, R324), the requests of CH_REQ (R338), and the synchronous release (R346 to R348).
-/
namespace Sys2Proof.Machine

/-! ## Cells for this device -/

/-- The device time that three stamp words give. -/
def wordsTime (ws : List Word) : Nat := timeOf (ws.getD 0 0).toNat (ws.getD 1 0).toNat (ws.getD 2 0).toNat

/-- The completion of an abort on a member comes back (R459). -/
def State.abortBack (s : State) (d tag status detail : Nat) (stamp : List Word) (seq : Nat) : State :=
  match s.host.aborts.find? (fun a => a.owner.isNone && a.away && a.dev == d && a.tag == tag) with
  | none => s
  | some a =>
    let s : State := { s with host := { s.host with aborts := s.host.aborts.erase a } }
    (s.hold { source := srcAbort, cq := a.cq, tag := tag, status := status, sq := (s.freeVal 6).toNat, abt := true
              dev := d, detail := detail, stamp := wordsTime stamp, stepSeq := seq }).usedFree

/-- The completion of a command that ran on a member comes back (R456); one that nothing waits for any more is discarded. -/
def State.commandBack (s : State) (d tag status count detail : Nat) (stamp : List Word) (seq : Nat) (buffer : List Byte) : State :=
  match s.host.cmds.find? (fun c => c.owner.isNone && c.away && c.tag == tag && entryDev c.entry == d) with
  | some c => s.finishAt c (64 + d) status count detail (wordsTime stamp) seq buffer
  | none => s

/-- An abort from device d (R459, R460). Kind 15 is the stop of one command without a slot, as an abort or a lost host link of its host asks
for it. -/
def State.abortFrom (s : State) (d : Fin 64) (kind object tag : Nat) : State :=
  if kind = 15 then
    match s.cmd? (some d.val) object with
    | some c => (s.stopCmd c stAborted).loadStopped c.owner c.tag
    | none => s
  else
    s.abortRun { tag := tag, cq := 0, kind := kind, dev := s.ownNum, object := object, org := .chain d, owner := some d.val }

/-- A cell for this device is delivered (R314, R327 to R333). -/
def State.deliverCell (s : State) (c : Cell) : State :=
  let m : Master := .chain c.src
  let answer (v : Word64) (s : State) : State := s.trySend (s.cellTo 0 c.src.val (.readDone v 0))
  match c.msg with
  | .read off wide =>
    if wide then
      let r := s.readReg64 m off.toNat
      answer r.1 r.2
    else
      let r := s.readReg m off.toNat
      answer (r.1.setWidth 64) r.2
  | .readDone v st =>
    (match s.chain.reads.find? (fun r => r.dev == c.src.val) with
     | some r => s.endRead r v st.toNat
     | none => s)
  | .write off wide v _ =>
    if wide then s.busWrite64 m m.origin off.toNat v else s.busWrite m m.origin off.toNat (v.setWidth 32)
  | .report st dev off wide v origin => s.orphanReport st.toNat c.src.val dev.val off.toNat wide v origin.toNat
  | .group from_ dest seq ws resent => s.doing (execForwardGroupReceive c.src from_ dest seq ws resent)
  | .groupDone q seq st => s.doing (execForwardStatus q seq st)
  | .time _ => s
  | .routes rte mask => s.routeApply rte mask
  | .request op => (s.takeRequest m.origin op.toNat).actRequests
  | .command tag ring entry payload =>
    let x : Cmd := { tag := tag.toNat, owner := some c.src.val, ring := ring.toNat, entry := entry, data := payload }
    { s with host := { s.host with cmds := s.host.cmds ++ [x] } }
  | .done tag abt status count detail stamp seq buffer =>
    if abt then s.abortBack c.src.val tag.toNat status.toNat detail.toNat stamp seq.toNat
    else s.commandBack c.src.val tag.toNat status.toNat count.toNat detail.toNat stamp seq.toNat buffer
  | .abort kind object tag => s.abortFrom c.src kind.toNat object.toNat tag.toNat
  | .manage ws =>
    match ws with
    | [] => s
    | w :: r =>
      if w = bootCell then s.bootArrived (bytesOf r)
      else if s.isMember then s.linkTold w.toNat (r.headD 0).toNat
      else s.linkReported c.src.val w.toNat (r.headD 0).toNat

/-! ## Cells that pass through (R315, R318, R324) -/

/-- A cell for another device goes on towards it; one without a way there goes back to its source. -/
def State.passCell (s : State) (c : Cell) : State :=
  match c.msg with
  | .request op => s.passRequest c.src c.dst.val op.toNat
  | _ => (s.sendCell c).getD (s.strand c ((s.farStop c.dst.val).getD 1))

/-- Whether a cell waits in its receive buffer: one for this device, while its CORE is becalmed (R328). VC2 goes on. -/
def State.cellWaits (s : State) (c : Cell) : Bool :=
  s.stopped.becalm.contains .core && c.dst.val == s.ownNum && c.vc != 2

/-- A cell leaves link l's receive buffer: it is delivered or goes on. A member without a number takes none. -/
def State.serveCell (s : State) (l : Nat) (c : Cell) : State :=
  let s := s.returnCredit l c.vc.val
  if s.role = 2 ∧ s.isMember = false then s
  else if c.dst.val = s.ownNum then s.deliverCell c
  else s.passCell c

/-- The cells that waited are served in order, each link's in turn. -/
def State.serveHeld (s : State) : State :=
  (List.range 4).foldl (fun s l =>
    let cells := (s.link l).held
    if cells.all (fun c => !s.cellWaits c) then
      cells.foldl (fun s c => s.serveCell l c) (s.setLink l { s.link l with held := [] })
    else s) s

/-- CELL_RECEIVE (R314 to R318): credits come back, and a cell arrives, whole or with a CRC error. Cells for this device keep their order
behind one that waits. -/
def execCellReceive (l : Fin 4) (c : Option Cell) (crcOk : Bool) (credits : List (BitVec 16)) (s : State) : Res :=
  let n := l.val
  if s.linkState n ≠ lkUp then .next s
  else
    let s := s.takeCredits n credits
    match c with
    | none => .next s
    | some c =>
      if crcOk = false then .next ((s.inc (LK_CNT_CRC n)).inc (LK_CNT_REPLAY n))
      else
        let k := s.link n
        let s := (s.setLink n { k with received := addAt k.received c.vc.val 1 }).inc (LK_CNT_RXCELL n)
        if s.cellWaits c then .next (s.setLink n { s.link n with held := (s.link n).held ++ [c] })
        else .next (s.serveCell n c)

/-- BECALM_RESUME_STEP (R579): the next step of a resumption; what waited in the receive buffers is served once CORE runs. -/
def execBecalmResumeStep (rxd : BitVec 16) (s : State) : Res := .next (s.becalmStep rxd).serveHeld

/-! ## Requests (R338) -/

/-- A write of CH_REQ with GO, an operation, a device and ALL. -/
def State.chainReqWrite (s : State) (o : Origin) (op : Nat) (dev : Fin 64) (all : Bool) : State :=
  (s.chainReq o (BitVec.ofNat 32 (dev.val + all.toNat * 0x40 + op * 0x100 + 0x80000000))).actRequests

/-- CHAIN_REQ_CORE_RESET (R338). -/
def execChainReqCoreReset (o : Origin) (dev : Fin 64) (all : Bool) (s : State) : Res := .next (s.chainReqWrite o 1 dev all)

/-- CHAIN_REQ_SYSTEM_RESET (R338). -/
def execChainReqSystemReset (o : Origin) (dev : Fin 64) (all : Bool) (s : State) : Res := .next (s.chainReqWrite o 2 dev all)

/-- CHAIN_REQ_WAKE (R338). -/
def execChainReqWake (o : Origin) (dev : Fin 64) (all : Bool) (s : State) : Res := .next (s.chainReqWrite o 3 dev all)

/-- CHAIN_REQ_IGNORED (R338): OP 0. -/
def execChainReqIgnored (o : Origin) (dev : Fin 64) (all : Bool) (s : State) : Res := .next (s.chainReqWrite o 0 dev all)

/-! ## Synchronous release (R346 to R348) -/

/-- The REFCLK cycles counted so far. -/
def State.refCycles (s : State) : Nat := s.time.tick / 40

/-- Whether this device waits for a release count (R346). -/
def State.waitsCount (s : State) : Bool := s.bit RST_STAT.WAIT_COUNT && s.rd RST_STAT.PHASE == 1

/-- Whether link l is settled for READY (R347): UP with a delay sample, HELD, or 10 ms without signal. -/
def State.linkSettled (s : State) (l : Nat) : Bool :=
  let st := s.linkState l
  (st == lkUp && s.rd (LK_STAT.DLY_SAMPLES l) != 0) || st == lkHeld
    || ((st == lkDetect || st == lkDisabled) && decide ((s.link l).since + 10000000 ≤ s.time.tick))

/-- Whether this device is READY (R347): its downstream links, all that are UP but one on a member, have reported READY. -/
def State.isReady (s : State) : Bool :=
  let up := (List.range 4).filter (fun l => s.linkState l == lkUp)
  let silent := up.filter (fun l => !(s.link l).ready)
  s.refclkOk && (List.range 4).all s.linkSettled && decide (silent.length ≤ if s.role = 2 then 1 else 0)

/-- RELEASE_READY (R347, R348): this device reports READY upstream, or the device below link l has done so; where the broadcast has passed it
gets a LATE_RELEASE. -/
def execReleaseReady (l : Option (Fin 4)) (s : State) : Res :=
  match l with
  | none =>
    if s.isReady && !s.chain.readySent then
      let s : State := { s with chain := { s.chain with readySent := true } }
      .next (if s.role = 2 then s.emit .ready else s)
    else .next s
  | some l =>
    if s.linkState l.val ≠ lkUp then .next s
    else
      let k := s.link l.val
      let t := s.setLink l.val { k with ready := true }
      .next (if s.chain.epoch.isSome && !k.ready then t.emit (.lateRelease l.val) else t)

/-- The release count with an epoch and C cycles is taken (R347): it is forwarded on the other links, and a device that waits for it loads its
countdown, where REFCLK is in its window. -/
def State.takeRelease (s : State) (from_ : Option Nat) (epoch c : Nat) : State :=
  let s : State := { s with chain := { s.chain with epoch := some epoch } }
  let s := if s.waitsCount && s.refclkOk then { s with chain := { s.chain with countdown := some (s.refCycles + c) } } else s
  (List.range 4).foldl (fun s l => if s.linkState l = lkUp ∧ from_ ≠ some l then s.emit (.releaseAt l epoch c) else s) s

/-- The link delay of link l in REFCLK cycles. -/
def State.delayCycles (s : State) (l : Nat) : Nat := (s.linkDelay l).toNat / 40000

/-- RELEASE_AT (R347): the root, once READY or 100 ms after its link logic is released, sends the broadcast with 65,536 cycles; elsewhere
it arrives on a link, and a second copy of the epoch is dropped. The forwarding time is free (log entry 4). -/
def execReleaseAt (l : Option (Fin 4)) (epoch count : Word) (s : State) : Res :=
  match l with
  | none =>
    if s.role = 1 ∧ s.waitsCount ∧ s.chain.epoch.isNone ∧ s.refclkOk then
      let s := if s.isReady then s else s.runTo (s.rst.stepAt + 100000000)
      .next (s.takeRelease none epoch.toNat 65536)
    else .next s
  | some l =>
    if s.linkState l.val ≠ lkUp ∨ s.chain.epoch = some epoch.toNat then .next s
    else .next (s.usedFree.takeRelease (some l.val) epoch.toNat (count.toNat - s.delayCycles l.val - (s.freeVal 8).toNat))

/-- This device releases its memories domain now, and counts the later steps from here (R347, R599). -/
def State.releaseNow (s : State) : State :=
  let s : State := { s with chain := { s.chain with countdown := none } }
  s.memoriesStep.setRst { s.memoriesStep.rst with releaseTick := some s.time.tick }

/-- RELEASE_COUNTDOWN_END (R347): the countdown is 0. -/
def execReleaseCountdownEnd (s : State) : Res :=
  match s.chain.countdown with
  | some c => if s.waitsCount then .next (s.runTo (40 * c)).releaseNow else .next s
  | none => .next s

/-- LATE_RELEASE (R348): a synchronous member that was late releases at once. -/
def execLateRelease (s : State) : Res :=
  if s.waitsCount ∧ s.role = 2 ∧ s.refclkOk then .next ((s.on CH_STAT.SYNC_MISSED).on CH_EVT.SYNC_MISSED).releaseNow
  else .next s

end Sys2Proof.Machine
end

