-- ==== Sys2Proof/Machine/Access.lean ====
section
/-!
DEFINITION. Register accesses as commands (R8, R11, R84), and the evaluation of the ledger's equations (R254 to R256).
-/
namespace Sys2Proof.Machine

/-! ## Registers -/

/-- Whether a master reaches BAR0: an engine does not (R19, R372). -/
def busMaster : Master → Bool
  | .engine _ => false
  | _ => true

/-- REGISTER_WRITE (R8, R201): a 32-bit write to BAR0, or to the upper word of a window's CMD. -/
def execRegisterWrite (m : Master) (a : RegTarget) (v : Word) (s : State) : Res :=
  match a with
  | .bar0 off => .next (if busMaster m then s.busWrite m m.origin off.toNat v else s)
  | .cmdUpper _ => .next { s with cmdHeld := tabPut (fun _ => (0 : Word)) s.cmdHeld m.num v }

/-- A 32-bit read of BAR0 by master m, with its answer. -/
def State.answerReg (s : State) (m : Master) (a : Nat) : State :=
  if busMaster m then
    let r := s.readReg m a
    r.2.emit (.answer m (r.1.setWidth 64))
  else s

/-- SNAPSHOT_READ (R11): a 32-bit read, which takes the snapshot of a wide value at its lowest word. -/
def execSnapshotRead (m : Master) (off : BitVec 24) (s : State) : Res := .next (s.answerReg m off.toNat)

/-- COUNTER_READ (R84): a 32-bit read, which clears an RC counter. -/
def execCounterRead (m : Master) (off : BitVec 24) (s : State) : Res := .next (s.answerReg m off.toNat)

/-! ## The ledger's equations (R254) -/

/-- A failed equation starts its action f, if an action is to start. -/
def State.failed (s : State) (cls obj : Nat) (delta : Int) (terms : List Nat) (action : Nat) (f : State → State) : State :=
  match s.ledgerFault cls obj delta terms action with
  | (true, s) => f s
  | (false, s) => s

/-- A recount is asked for (R255, R257). -/
def State.recountAsk (s : State) : State := { s with ledger := { s.ledger with nextSweep := some true } }

/-- Classes 1 and 2: the equation of a pool. -/
def State.checkPool (s : State) (k : PoolKind) : State :=
  let p := s.ledger.pool k
  let found := p.free + p.held + p.flight + p.reclaim
  if found = p.total then s
  else s.failed (if k = .eddy then 1 else 2) 0 ((found : Int) - p.total) [p.free, p.held, p.flight, p.reclaim, p.total] 1 State.recountAsk

/-- The ledger's count of the blocks of queue q in pool k. -/
def Queue.ledgerOf (q : Queue) (k : PoolKind) : Nat := if k = .eddy then q.ledgerE else q.ledgerO

/-- Class 3: HELD of pool k and the sum of the queues' blocks; its object is the first queue whose count differs from its entries. -/
def State.checkSum (s : State) (k : PoolKind) : State :=
  let sum := (s.queues.map (fun e => e.2.ledgerOf k)).sum
  let held := (s.ledger.pool k).held
  if sum = held then s
  else
    let obj := match s.queues.find? (fun e => e.2.ledgerOf k != e.2.blocks k) with | some e => e.1 | none => 0
    s.failed 3 obj ((held : Int) - sum) [held, sum] 1 State.recountAsk

/-- Class 4: the credits of this device's transmitters. -/
def State.checkLinks (s : State) : State :=
  (List.range 16).foldl (fun s i =>
    let l := i / 4
    let v := i % 4
    if s.linkState l = lkUp then
      s.checkCredits l v ((s.link l).received.getD v 0 % 0x1000000) ((s.link l).credIn.getD v 0 % 0x1000000)
    else s) s

/-- Class 5: FREE, RESERVED and WRITTEN of completion ring n; the rebuild takes WRITTEN from the pointers (R457). -/
def State.checkRing (s : State) (n : Nat) : State :=
  let x := s.cq n
  let size := s.cqSize n
  let free := size - x.written - x.reserved
  let found := free + x.reserved + x.written
  if found = size then s
  else
    (s.failed 5 n ((found : Int) - size) [free, x.reserved, x.written, size] 3
      (fun s => s.setCq n { x with
        written := (s.rd (CQ_STAT.TAIL n) + size - x.head) % size, reserved := 0 })).ledgerDone 5 n

/-- How many tags units hold. -/
def State.tagsHeld (s : State) : Nat := s.heldTags.length

/-- A tag of the marks ms that none of the marks in has. -/
def strayTags (ms has : List TagMark) : List TagMark := ms.filter (fun m => !has.any (fun x => x.tag == m.tag))

/-- The tag table recounted (R255): a tag that is marked and held by no unit completes TAG_RECLAIMED, one held and not marked is marked,
and the counts follow the table. -/
def State.recountTags (s : State) : State :=
  let held := s.heldTags
  let lost := strayTags s.ledger.tags held
  let tags := s.ledger.tags ++ strayTags held s.ledger.tags
  let l := { s.ledger with tags := tags, tagsFree := 4096 - tags.length, completed := s.ledger.issued - tags.length }
  lost.foldl (fun s m =>
    s.hold { source := if m.abt then srcAbort else srcFront, cq := m.cq, tag := m.tag, status := stTagReclaimed, sq := m.sq
             abt := m.abt, dev := m.dev, stamp := s.now, stepSeq := s.stepSeq }) { s with ledger := l }

/-- Class 6: free and outstanding tags make 4,096, and issued less completed are outstanding. Its object is a tag that is marked and not
held, or held and not marked. -/
def State.checkTags (s : State) : State :=
  let out := s.ledger.tags.length
  let live : Int := (s.ledger.issued : Int) - s.ledger.completed
  let obj := ((strayTags s.ledger.tags s.heldTags ++ strayTags s.heldTags s.ledger.tags).map (·.tag)).headD 0
  let terms := [s.ledger.tagsFree, out, s.ledger.issued, s.ledger.completed]
  if s.ledger.tagsFree + out ≠ 4096 then
    (s.failed 6 obj ((s.ledger.tagsFree + out : Int) - 4096) terms 4 State.recountTags).ledgerDone 6 obj
  else if (out : Int) ≠ live then (s.failed 6 obj (live - out) terms 4 State.recountTags).ledgerDone 6 obj
  else s

/-- Class 7: slot ownership on port n (R28). -/
def State.checkSlots (s : State) (n : Nat) : State :=
  if s.slotAudit n then s.ledgerDone 7 n else s.failed 7 n 1 [] 5 (fun s => s.forfeit n)

/-- LEDGER_CHECK (R254): every equation is evaluated; nothing moves while CORE stands still. -/
def execLedgerCheck (s : State) : Res :=
  if s.runs .core = false then .next s
  else
    let s := (((s.checkPool .eddy).checkPool .onChip).checkSum .eddy).checkSum .onChip
    let s := (List.range 64).foldl State.checkRing s.checkLinks
    .next ((List.range 16).foldl State.checkSlots s.checkTags)

end Sys2Proof.Machine
end

