-- ==== Sys2Proof/Machine/Dispatch.lean ====
section
/-!
DEFINITION. The effect of a command on everything but the queue of waiting commands: one arm per row of the spec's table.
-/
namespace Sys2Proof.Machine

def exec (i : Instr) (s : State) : Host.Outcome State Fault Refusal :=
  match i with
  -- Registers (R8, R11, R84)
  | .registerWrite m a v => Sys2Proof.Machine.execRegisterWrite m a v s
  | .snapshotRead m off => Sys2Proof.Machine.execSnapshotRead m off s
  | .counterRead m off => Sys2Proof.Machine.execCounterRead m off s
  -- Serial line
  | .rxStartEdge p => Sys2Proof.Machine.execRxStartEdge p s
  | .rxFalseStart p => Sys2Proof.Machine.execRxFalseStart p s
  | .rxCharAccept p samples => Sys2Proof.Machine.execRxCharAccept p samples s
  | .breakStart p => Sys2Proof.Machine.execBreakStart p s
  | .breakEnd p => Sys2Proof.Machine.execBreakEnd p s
  | .lineStuck p => Sys2Proof.Machine.execLineStuck p s
  | .rxMaskEnd p mark => Sys2Proof.Machine.execRxMaskEnd p mark s
  | .rxLineMark p => Sys2Proof.Machine.execRxLineMark p s
  | .rxEnWrite o p en mark => Sys2Proof.Machine.execRxEnWrite o p en mark s
  | .txEnWrite o p en => Sys2Proof.Machine.execTxEnWrite o p en s
  | .baudcfgWrite o p v => Sys2Proof.Machine.execBaudcfgWrite o p v s
  | .baudChangeApply p => Sys2Proof.Machine.execBaudChangeApply p s
  | .baudSettlingEnd p => Sys2Proof.Machine.execBaudSettlingEnd p s
  | .frameFormatApply p tx => Sys2Proof.Machine.execFrameFormatApply p tx s
  | .txPrefetchPop p => Sys2Proof.Machine.execTxPrefetchPop p s
  | .txCharStart p => Sys2Proof.Machine.execTxCharStart p s
  | .deRise p => Sys2Proof.Machine.execDeRise p s
  | .deFall p => Sys2Proof.Machine.execDeFall p s
  | .ctsChange p asserted => Sys2Proof.Machine.execCtsChange p asserted s
  | .xonXoffSend p => Sys2Proof.Machine.execXonXoffSend p s
  | .echoWindowClose p => Sys2Proof.Machine.execEchoWindowClose p s
  | .collResume o p => Sys2Proof.Machine.execCollResume o p s
  | .sendBreak p => Sys2Proof.Machine.execSendBreak p s
  | .deHoldEnd p => Sys2Proof.Machine.execDeHoldEnd p s
  | .autobaudStart o p apply => Sys2Proof.Machine.execAutobaudStart o p apply s
  | .autobaudEdge p => Sys2Proof.Machine.execAutobaudEdge p s
  | .autobaudCancel o p => Sys2Proof.Machine.execAutobaudCancel o p s
  -- Serial addressing, packets and timed transmit
  | .bindingWrite o p b v => Sys2Proof.Machine.execBindingWrite o p b v s
  | .strangerSelect m p v => Sys2Proof.Machine.execStrangerSelect m p v s
  | .gapExpiry p => Sys2Proof.Machine.execGapExpiry p s
  | .launchRegisterLoad p => Sys2Proof.Machine.execLaunchRegisterLoad p s
  | .farHoldEnd p k => Sys2Proof.Machine.execFarHoldEnd p k s
  | .launchOnTime p k => Sys2Proof.Machine.execLaunchOnTime p k s
  | .launchLate p k => Sys2Proof.Machine.execLaunchLate p k s
  -- The trade-wind bus
  | .twRunStart o p => Sys2Proof.Machine.execTwRunStart o p s
  | .twRunStop o p => Sys2Proof.Machine.execTwRunStop o p s
  | .fnListenTimeout p => Sys2Proof.Machine.execFnListenTimeout p s
  | .twFirstCycleStart p => Sys2Proof.Machine.execTwFirstCycleStart p s
  | .cycleBoundary p flips => Sys2Proof.Machine.execCycleBoundary p flips s
  | .twTableCommit o p modes => Sys2Proof.Machine.execTwTableCommit o p modes s
  | .slotCommitDeadline p e => Sys2Proof.Machine.execSlotCommitDeadline p e s
  | .slotStart p e edge => Sys2Proof.Machine.execSlotStart p e edge s
  | .slotEnd p e => Sys2Proof.Machine.execSlotEnd p e s
  | .twFrameReceive p => Sys2Proof.Machine.execTwFrameReceive p s
  | .syncMiss p => Sys2Proof.Machine.execSyncMiss p s
  | .twSwitch o p v => Sys2Proof.Machine.execTwSwitch o p v s
  | .switchDecision p => Sys2Proof.Machine.execSwitchDecision p s
  -- The bus guardian and schedule faults
  | .guardianCopyCheck p m upset => Sys2Proof.Machine.execGuardianCopyCheck p m upset s
  | .guardianPredictedBoundary p flips => Sys2Proof.Machine.execGuardianPredictedBoundary p flips s
  | .muzzle o p => Sys2Proof.Machine.execMuzzle o p s
  | .unmuzzle o p => Sys2Proof.Machine.execUnmuzzle o p s
  | .clrHist o p => Sys2Proof.Machine.execClrHist o p s
  | .foreignEnergy p => Sys2Proof.Machine.execForeignEnergy p s
  -- Queue windows and queue commands
  | .queuePush m q v => Sys2Proof.Machine.execQueuePush m q v s
  | .queueGroupPush q ws => Sys2Proof.Machine.execQueueGroupPush q ws s
  | .queuePop m q part => Sys2Proof.Machine.execQueuePop m q part s
  | .queuePeek m q part => Sys2Proof.Machine.execQueuePeek m q part s
  | .queueStatRead m q part => Sys2Proof.Machine.execQueueStatRead m q part s
  | .queueLostRead m q part => Sys2Proof.Machine.execQueueLostRead m q part s
  | .badAccess m x => Sys2Proof.Machine.execBadAccess m x s
  | .nop m q c => Sys2Proof.Machine.execNop m q c s
  | .mark m q c => Sys2Proof.Machine.execMark m q c s
  | .unmark m q c => Sys2Proof.Machine.execUnmark m q c s
  | .rewind m q c => Sys2Proof.Machine.execRewind m q c s
  | .release m q c => Sys2Proof.Machine.execRelease m q c s
  | .releasePkt m q c => Sys2Proof.Machine.execReleasePkt m q c s
  | .queueReset m q c => Sys2Proof.Machine.execQueueReset m q c s
  | .clrOverrun m q c => Sys2Proof.Machine.execClrOverrun m q c s
  | .clrLost m q c => Sys2Proof.Machine.execClrLost m q c s
  | .badCmd m q c => Sys2Proof.Machine.execBadCmd m q c s
  | .create o => Sys2Proof.Machine.execCreate o s
  | .modify o => Sys2Proof.Machine.execModify o s
  | .delete o => Sys2Proof.Machine.execDelete o s
  | .read o => Sys2Proof.Machine.execRead o s
  | .snap o => Sys2Proof.Machine.execSnap o s
  | .qcmdIgnored o op => Sys2Proof.Machine.execQcmdIgnored o op s
  | .pointerScrub upsets => Sys2Proof.Machine.execPointerScrub upsets s
  -- Eddy store and conservation ledger
  | .spillBurst q => Sys2Proof.Machine.execSpillBurst q s
  | .spillDone q => Sys2Proof.Machine.execSpillDone q s
  | .refillRead q prefetch => Sys2Proof.Machine.execRefillRead q prefetch s
  | .refillDone q bad => Sys2Proof.Machine.execRefillDone q bad s
  | .ledgerCheck => Sys2Proof.Machine.execLedgerCheck s
  | .sweepStart => Sys2Proof.Machine.execSweepStart s
  | .sweepDone => Sys2Proof.Machine.execSweepDone s
  | .recount o => Sys2Proof.Machine.execRecount o s
  | .ledgerSnap o => Sys2Proof.Machine.execLedgerSnap o s
  | .domainBounce u waiting => Sys2Proof.Machine.execDomainBounce u waiting s
  | .edQsel m q => Sys2Proof.Machine.execEdQsel m q s
  -- Time base
  | .tbSubmitRate o => Sys2Proof.Machine.execTbSubmitRate o s
  | .tbSubmitOffset o add => Sys2Proof.Machine.execTbSubmitOffset o add s
  | .tbSubmitSet o => Sys2Proof.Machine.execTbSubmitSet o s
  | .tbCancel o => Sys2Proof.Machine.execTbCancel o s
  | .timeStep => Sys2Proof.Machine.execTimeStep s
  | .slewDone => Sys2Proof.Machine.execSlewDone s
  | .sourceTimeout src => Sys2Proof.Machine.execSourceTimeout src s
  | .sourceHoldoffExpiry src => Sys2Proof.Machine.execSourceHoldoffExpiry src s
  | .tbHoExpired => Sys2Proof.Machine.execTbHoExpired s
  | .moncalWindow ns => Sys2Proof.Machine.execMoncalWindow ns s
  | .tsiEdge x rising => Sys2Proof.Machine.execTsiEdge x rising s
  | .tpoApply o x => Sys2Proof.Machine.execTpoApply o x s
  | .tpoApplyTake x => Sys2Proof.Machine.execTpoApplyTake x s
  | .tpoPulseStart x => Sys2Proof.Machine.execTpoPulseStart x s
  | .tpoPulseEnd x => Sys2Proof.Machine.execTpoPulseEnd x s
  | .alarmArm o k v => Sys2Proof.Machine.execAlarmArm o k v s
  | .alarmFire k => Sys2Proof.Machine.execAlarmFire k s
  | .calendarSet o v => Sys2Proof.Machine.execCalendarSet o v s
  | .leapSecond => Sys2Proof.Machine.execLeapSecond s
  -- The Sahoz chain
  | .linkSignalDetect l => Sys2Proof.Machine.execLinkSignalDetect l s
  | .linkBlockLock l => Sys2Proof.Machine.execLinkBlockLock l s
  | .linkTrainTimeout l => Sys2Proof.Machine.execLinkTrainTimeout l s
  | .helloExchange l h => Sys2Proof.Machine.execHelloExchange l h s
  | .linkDown l => Sys2Proof.Machine.execLinkDown l s
  | .forceDown o l => Sys2Proof.Machine.execForceDown o l s
  | .linkSleep l => Sys2Proof.Machine.execLinkSleep l s
  | .cellReceive l c crcOk credits => Sys2Proof.Machine.execCellReceive l c crcOk credits s
  | .creditSyncSend l => Sys2Proof.Machine.execCreditSyncSend l s
  | .creditSyncReceive l counts => Sys2Proof.Machine.execCreditSyncReceive l counts s
  | .enumerationStart => Sys2Proof.Machine.execEnumerationStart s
  | .enumProbeAnswer e => Sys2Proof.Machine.execEnumProbeAnswer e s
  | .reenum o written => Sys2Proof.Machine.execReenum o written s
  | .forget o => Sys2Proof.Machine.execForget o s
  | .bar4Read m d off size => Sys2Proof.Machine.execBar4Read m d off size s
  | .bar4ReadResponse d off v status => Sys2Proof.Machine.execBar4ReadResponse d off v status s
  | .chainRdFail d off => Sys2Proof.Machine.execChainRdFail d off s
  | .bar4Write m d off size v => Sys2Proof.Machine.execBar4Write m d off size v s
  | .forwardSend q => Sys2Proof.Machine.execForwardSend q s
  | .forwardGroupReceive dev from_ dest seq ws resent => Sys2Proof.Machine.execForwardGroupReceive dev from_ dest seq ws resent s
  | .forwardStatus q seq status => Sys2Proof.Machine.execForwardStatus q seq status s
  | .forwardRetry q => Sys2Proof.Machine.execForwardRetry q s
  | .orphanWrite status reporter dev off wide v origin => Sys2Proof.Machine.execOrphanWrite status reporter dev off wide v origin s
  | .heartbeat answers => Sys2Proof.Machine.execHeartbeat answers s
  | .memberLost d => Sys2Proof.Machine.execMemberLost d s
  | .chainReqCoreReset o dev all => Sys2Proof.Machine.execChainReqCoreReset o dev all s
  | .chainReqSystemReset o dev all => Sys2Proof.Machine.execChainReqSystemReset o dev all s
  | .chainReqWake o dev all => Sys2Proof.Machine.execChainReqWake o dev all s
  | .chainReqIgnored o dev all => Sys2Proof.Machine.execChainReqIgnored o dev all s
  | .delayExchange l => Sys2Proof.Machine.execDelayExchange l s
  | .linkDelaySample l t1 t2 t3 t4 => Sys2Proof.Machine.execLinkDelaySample l t1 t2 t3 t4 s
  | .chainSyncSend => Sys2Proof.Machine.execChainSyncSend s
  | .chainSyncReceive l sent arrived quality hops stepSeq => Sys2Proof.Machine.execChainSyncReceive l sent arrived quality hops stepSeq s
  | .releaseReady l => Sys2Proof.Machine.execReleaseReady l s
  | .releaseAt l epoch count => Sys2Proof.Machine.execReleaseAt l epoch count s
  | .releaseCountdownEnd => Sys2Proof.Machine.execReleaseCountdownEnd s
  | .lateRelease => Sys2Proof.Machine.execLateRelease s
  | .chainRoleWrite o role => Sys2Proof.Machine.execChainRoleWrite o role s
  | .linkEnWrite o l en => Sys2Proof.Machine.execLinkEnWrite o l en s
  -- Engines and protocol images
  | .ldBegin o v => Sys2Proof.Machine.execLdBegin o v s
  | .cancel o => Sys2Proof.Machine.execCancel o s
  | .clearSlot o slot => Sys2Proof.Machine.execClearSlot o slot s
  | .ldData o v => Sys2Proof.Machine.execLdData o v s
  | .ldDmaDone bytes => Sys2Proof.Machine.execLdDmaDone bytes s
  | .imageLoad => Sys2Proof.Machine.execImageLoad s
  | .imageInstall => Sys2Proof.Machine.execImageInstall s
  | .ldSlotsel slot => Sys2Proof.Machine.execLdSlotsel slot s
  | .start o e v => Sys2Proof.Machine.execStart o e v s
  | .halt o e v => Sys2Proof.Machine.execHalt o e v s
  | .ceBindWrite o e v => Sys2Proof.Machine.execCeBindWrite o e v s
  | .engineStarted e => Sys2Proof.Machine.execEngineStarted e s
  | .abortEntry e => Sys2Proof.Machine.execAbortEntry e s
  | .engineGraceEnd e => Sys2Proof.Machine.execEngineGraceEnd e s
  | .engineStop e => Sys2Proof.Machine.execEngineStop e s
  | .engineHalted e => Sys2Proof.Machine.execEngineHalted e s
  | .kick e => Sys2Proof.Machine.execKick e s
  | .abortDone e => Sys2Proof.Machine.execAbortDone e s
  | .mbxPost e ws => Sys2Proof.Machine.execMbxPost e ws s
  | .mbxTake e => Sys2Proof.Machine.execMbxTake e s
  | .mbiDb e count => Sys2Proof.Machine.execMbiDb e count s
  | .mboAck e => Sys2Proof.Machine.execMboAck e s
  | .qpPush e p ws => Sys2Proof.Machine.execQpPush e p ws s
  | .qpPop e p n untilEnd => Sys2Proof.Machine.execQpPop e p n untilEnd s
  | .qpPeek e p => Sys2Proof.Machine.execQpPeek e p s
  | .qpCmd e p op count => Sys2Proof.Machine.execQpCmd e p op count s
  | .qpStat e p => Sys2Proof.Machine.execQpStat e p s
  | .descTake e => Sys2Proof.Machine.execDescTake e s
  | .granuleRelease e gs => Sys2Proof.Machine.execGranuleRelease e gs s
  | .timerArm e x sec ns period => Sys2Proof.Machine.execTimerArm e x sec ns period s
  | .timerExpiry e x take => Sys2Proof.Machine.execTimerExpiry e x take s
  | .declareValid e => Sys2Proof.Machine.execDeclareValid e s
  | .declareInvalid e => Sys2Proof.Machine.execDeclareInvalid e s
  | .engineRate e a => Sys2Proof.Machine.execEngineRate e a s
  | .engineOffset e theta add => Sys2Proof.Machine.execEngineOffset e theta add s
  | .engineSet e sec ns => Sys2Proof.Machine.execEngineSet e sec ns s
  | .timeQuery e => Sys2Proof.Machine.execTimeQuery e s
  | .engineEvent e payload => Sys2Proof.Machine.execEngineEvent e payload s
  | .watchdog e addr => Sys2Proof.Machine.execWatchdog e addr s
  | .engineFault e cause addr => Sys2Proof.Machine.execEngineFault e cause addr s
  | .clusterPwrOff o k v => Sys2Proof.Machine.execClusterPwrOff o k v s
  -- Network ports
  | .frameReceive p ago part => Sys2Proof.Machine.execFrameReceive p ago part s
  | .frameTxStart p => Sys2Proof.Machine.execFrameTxStart p s
  | .frameTxDone p => Sys2Proof.Machine.execFrameTxDone p s
  | .netLinkUp p word => Sys2Proof.Machine.execNetLinkUp p word s
  | .netLinkDown p => Sys2Proof.Machine.execNetLinkDown p s
  | .link e => Sys2Proof.Machine.execLink e s
  | .txSubmit e d0 d1 d2 frame => Sys2Proof.Machine.execTxSubmit e d0 d1 d2 frame s
  | .txTake e => Sys2Proof.Machine.execTxTake e s
  | .ctSet e mode cls => Sys2Proof.Machine.execCtSet e mode cls s
  | .ctCommit e seq => Sys2Proof.Machine.execCtCommit e seq s
  | .ctDecline e seq => Sys2Proof.Machine.execCtDecline e seq s
  | .ctPath o p v => Sys2Proof.Machine.execCtPath o p v s
  | .gclWrite e x => Sys2Proof.Machine.execGclWrite e x s
  | .gclCommit e => Sys2Proof.Machine.execGclCommit e s
  | .configChange o p => Sys2Proof.Machine.execConfigChange o p s
  | .ccCancel o p => Sys2Proof.Machine.execCcCancel o p s
  | .gateChange p => Sys2Proof.Machine.execGateChange p s
  | .gateEntryBoundary p => Sys2Proof.Machine.execGateEntryBoundary p s
  | .mdCmd m v => Sys2Proof.Machine.execMdCmd m v s
  | .mdioFrameDone m data => Sys2Proof.Machine.execMdioFrameDone m data s
  | .sgmiiWordChange p word => Sys2Proof.Machine.execSgmiiWordChange p word s
  | .npPwrOffWrite o p v => Sys2Proof.Machine.execNpPwrOffWrite o p v s
  -- The host interface
  | .sqTailDb n v => Sys2Proof.Machine.execSqTailDb n v s
  | .cqHeadDb n v => Sys2Proof.Machine.execCqHeadDb n v s
  | .sqFetch entry sgl => Sys2Proof.Machine.execSqFetch entry sgl s
  | .hostNop own tag => Sys2Proof.Machine.execHostNop own tag s
  | .push own tag payload => Sys2Proof.Machine.execPush own tag payload s
  | .pop own tag => Sys2Proof.Machine.execPop own tag s
  | .qcmd own tag => Sys2Proof.Machine.execQcmd own tag s
  | .regRead own tag => Sys2Proof.Machine.execRegRead own tag s
  | .regWrite own tag payload => Sys2Proof.Machine.execRegWrite own tag payload s
  | .engineCall own tag => Sys2Proof.Machine.execEngineCall own tag s
  | .engineCallPost own tag => Sys2Proof.Machine.execEngineCallPost own tag s
  | .engineCallAnswer e ws => Sys2Proof.Machine.execEngineCallAnswer e ws s
  | .sectionLoad own tag payload => Sys2Proof.Machine.execSectionLoad own tag payload s
  | .timeRead own tag => Sys2Proof.Machine.execTimeRead own tag s
  | .commandWaitResume own tag => Sys2Proof.Machine.execCommandWaitResume own tag s
  | .commandTimeout own tag => Sys2Proof.Machine.execCommandTimeout own tag s
  | .completionWrite cq => Sys2Proof.Machine.execCompletionWrite cq s
  | .coalesceTimeout cq => Sys2Proof.Machine.execCoalesceTimeout cq s
  | .abortSerialPort m dev object tag cq => Sys2Proof.Machine.execAbortSerialPort m dev object tag cq s
  | .abortQueue m dev object tag cq => Sys2Proof.Machine.execAbortQueue m dev object tag cq s
  | .abortEngine m dev object tag cq => Sys2Proof.Machine.execAbortEngine m dev object tag cq s
  | .abortRing m dev object tag cq => Sys2Proof.Machine.execAbortRing m dev object tag cq s
  | .abortTag m dev object tag cq => Sys2Proof.Machine.execAbortTag m dev object tag cq s
  | .abortBadKind m kind dev object tag cq => Sys2Proof.Machine.execAbortBadKind m kind dev object tag cq s
  | .sqEnable n en => Sys2Proof.Machine.execSqEnable n en s
  | .cqEnable n en => Sys2Proof.Machine.execCqEnable n en s
  | .featCommit o => Sys2Proof.Machine.execFeatCommit o s
  | .hostLinkReset => Sys2Proof.Machine.execHostLinkReset s
  | .hostPowerChange d3 bme => Sys2Proof.Machine.execHostPowerChange d3 bme s
  | .dmaError what => Sys2Proof.Machine.execDmaError what s
  | .hostLinkUp gen width => Sys2Proof.Machine.execHostLinkUp gen width s
  | .msixUnmask v => Sys2Proof.Machine.execMsixUnmask v s
  -- The configuration image
  | .cfBegin o v => Sys2Proof.Machine.execCfBegin o v s
  | .cfCancel o => Sys2Proof.Machine.execCfCancel o s
  | .cfData o v => Sys2Proof.Machine.execCfData o v s
  | .configLoad => Sys2Proof.Machine.execConfigLoad s
  | .commitApply => Sys2Proof.Machine.execCommitApply s
  | .drainEnd p => Sys2Proof.Machine.execDrainEnd p s
  | .portRebind p => Sys2Proof.Machine.execPortRebind p s
  | .sectionCommit => Sys2Proof.Machine.execSectionCommit s
  | .interruptReloadApply t => Sys2Proof.Machine.execInterruptReloadApply t s
  -- The calm port and booting
  | .idRead tx => Sys2Proof.Machine.execIdRead tx s
  | .planeRead tx => Sys2Proof.Machine.execPlaneRead tx s
  | .planeWrite tx data => Sys2Proof.Machine.execPlaneWrite tx data s
  | .bufWrite tx data => Sys2Proof.Machine.execBufWrite tx data s
  | .bufRead tx => Sys2Proof.Machine.execBufRead tx s
  | .pump tx => Sys2Proof.Machine.execPump tx s
  | .storeProg tx => Sys2Proof.Machine.execStoreProg tx s
  | .storeLoad tx => Sys2Proof.Machine.execStoreLoad tx s
  | .storeSeal tx data => Sys2Proof.Machine.execStoreSeal tx data s
  | .storeInval tx => Sys2Proof.Machine.execStoreInval tx s
  | .storeHdr tx data => Sys2Proof.Machine.execStoreHdr tx data s
  | .opWrite tx data => Sys2Proof.Machine.execOpWrite tx data s
  | .opRead tx => Sys2Proof.Machine.execOpRead tx s
  | .snapRead tx => Sys2Proof.Machine.execSnapRead tx s
  | .fuseProg tx data => Sys2Proof.Machine.execFuseProg tx data s
  | .boot tx => Sys2Proof.Machine.execBoot tx s
  | .calmTransactionCut bytes => Sys2Proof.Machine.execCalmTransactionCut bytes s
  | .planeWorkDone => Sys2Proof.Machine.execPlaneWorkDone s
  | .workCancel => Sys2Proof.Machine.execWorkCancel s
  | .clrErr => Sys2Proof.Machine.execClrErr s
  | .bufClr => Sys2Proof.Machine.execBufClr s
  | .postedWriteApply => Sys2Proof.Machine.execPostedWriteApply s
  | .snapshotTake => Sys2Proof.Machine.execSnapshotTake s
  | .stCmd o v => Sys2Proof.Machine.execStCmd o v s
  | .fuseProgDone back => Sys2Proof.Machine.execFuseProgDone back s
  | .mramBoot => Sys2Proof.Machine.execMramBoot s
  | .bootSlotFail => Sys2Proof.Machine.execBootSlotFail s
  | .chainBootRequest e => Sys2Proof.Machine.execChainBootRequest e s
  | .journalFlush => Sys2Proof.Machine.execJournalFlush s
  -- Interrupts and the event log
  | .gatewayRequest n => Sys2Proof.Machine.execGatewayRequest n s
  | .gatewayWithdraw n => Sys2Proof.Machine.execGatewayWithdraw n s
  | .claim m t gust => Sys2Proof.Machine.execClaim m t gust s
  | .complete m t gust v => Sys2Proof.Machine.execComplete m t gust v s
  | .pset m x v => Sys2Proof.Machine.execPset m x v s
  | .pendClear m x v => Sys2Proof.Machine.execPendClear m x v s
  | .eventRecordWrite cls idx o payload => Sys2Proof.Machine.execEventRecordWrite cls idx o payload s
  | .logTimerTick => Sys2Proof.Machine.execLogTimerTick s
  | .elClsCfgWrite o c v => Sys2Proof.Machine.execElClsCfgWrite o c v s
  | .chainIrqReport d lines => Sys2Proof.Machine.execChainIrqReport d lines s
  | .eventCopyReceive d ws => Sys2Proof.Machine.execEventCopyReceive d ws s
  -- Clocks
  | .refclkMonitorWindow count => Sys2Proof.Machine.execRefclkMonitorWindow count s
  | .refclkEdgeTimeout => Sys2Proof.Machine.execRefclkEdgeTimeout s
  | .pllWindow n count => Sys2Proof.Machine.execPllWindow n count s
  | .pllLockDetect plls on => Sys2Proof.Machine.execPllLockDetect plls on s
  | .pllLocked n forced => Sys2Proof.Machine.execPllLocked n forced s
  | .resumeAck o => Sys2Proof.Machine.execResumeAck o s
  | .becalmResumeStep rxd => Sys2Proof.Machine.execBecalmResumeStep rxd s
  | .pllEnableWrite o v => Sys2Proof.Machine.execPllEnableWrite o v s
  | .dpllRateChange o v => Sys2Proof.Machine.execDpllRateChange o v s
  -- Reset, power states and retention
  | .resetNFall => Sys2Proof.Machine.execResetNFall s
  | .resetThreshold => Sys2Proof.Machine.execResetThreshold s
  | .resetNRise brief cycles strap => Sys2Proof.Machine.execResetNRise brief cycles strap s
  | .powerOnResetEnd strap => Sys2Proof.Machine.execPowerOnResetEnd strap s
  | .supplyFail x => Sys2Proof.Machine.execSupplyFail x s
  | .supplyReturn x => Sys2Proof.Machine.execSupplyReturn x s
  | .releaseStep => Sys2Proof.Machine.execReleaseStep s
  | .coreResetStep => Sys2Proof.Machine.execCoreResetStep s
  | .rstCtrlCore o => Sys2Proof.Machine.execRstCtrlCore o s
  | .rstCtrlSystem o core => Sys2Proof.Machine.execRstCtrlSystem o core s
  | .reqRun o => Sys2Proof.Machine.execReqRun o s
  | .reqLull o => Sys2Proof.Machine.execReqLull o s
  | .reqStill o => Sys2Proof.Machine.execReqStill o s
  | .reqOff o => Sys2Proof.Machine.execReqOff o s
  | .stillEntryStep => Sys2Proof.Machine.execStillEntryStep s
  | .wake causes => Sys2Proof.Machine.execWake causes s
  | .stillExitStep rxd => Sys2Proof.Machine.execStillExitStep rxd s
  | .retmemRead m off wide perr => Sys2Proof.Machine.execRetmemRead m off wide perr s
  -- Pins and GPIO
  | .pinlock m v => Sys2Proof.Machine.execPinlock m v s
  | .pinCfgWrite o p v => Sys2Proof.Machine.execPinCfgWrite o p v s
  | .gpSet hi v => Sys2Proof.Machine.execGpSet hi v s
  | .gpClr hi v => Sys2Proof.Machine.execGpClr hi v s
  | .bankSupplyChange b level => Sys2Proof.Machine.execBankSupplyChange b level s
  | .tapReset => Sys2Proof.Machine.execTapReset s
  | .tapInstruction ir en level => Sys2Proof.Machine.execTapInstruction ir en level s
  -- On-chip memory and DRAM
  | .ilvWrite o v => Sys2Proof.Machine.execIlvWrite o v s
  | .bankStateRequest o x v => Sys2Proof.Machine.execBankStateRequest o x v s
  | .bankTransitionDone b => Sys2Proof.Machine.execBankTransitionDone b s
  | .memScrubPass errs => Sys2Proof.Machine.execMemScrubPass errs s
  | .memInj o v => Sys2Proof.Machine.execMemInj o v s
  | .memWinAddr v => Sys2Proof.Machine.execMemWinAddr v s
  | .ddrInit o c => Sys2Proof.Machine.execDdrInit o c s
  | .ddrInitDone c failed => Sys2Proof.Machine.execDdrInitDone c failed s
  | .ddrRefresh c hot => Sys2Proof.Machine.execDdrRefresh c hot s
  | .ddrPatrolScrub c errs => Sys2Proof.Machine.execDdrPatrolScrub c errs s

end Sys2Proof.Machine
end

