-- ==== Sys2Proof/Machine/Balls.lean ====
section
/-!
DEFINITION. The balls (R616 to R618): the grid, the signal on each ball, and the direction and bias of the system balls. No command
changes them; they tie the pins and pads of the model to the package.
-/
namespace Sys2Proof.Machine

/-- A ball: the index of its row, 1 for A to 41 for BC, and its column, 1 to 41 (R616). -/
structure Ball where
  row : Nat
  col : Nat
  deriving DecidableEq, Repr

/-- The names of the rows in order (R616). -/
def rowNames : List String :=
  ["A", "B", "C", "D", "E", "F", "G", "H", "J", "K", "L", "M", "N", "P"] ++ ["T", "U", "V", "W", "Y"]
    ++ ["AA", "AB", "AC", "AD", "AE", "AF", "AG", "AH"] ++ ["AJ", "AK", "AL", "AM", "AN", "AP"]
    ++ ["AT", "AU", "AV", "AW", "AY", "BA", "BB", "BC"]

/-- The name of a ball. -/
def Ball.name (b : Ball) : String := (rowNames[b.row - 1]?.getD "") ++ toString b.col

/-- Whether b lies in the grid. -/
def Ball.valid (b : Ball) : Bool := decide (1 ≤ b.row) && decide (b.row ≤ 41) && decide (1 ≤ b.col) && decide (b.col ≤ 41)

/-- A signal or supply of the package (R617). Differential pairs tell the negative leg; DDR5 signals tell their channel. -/
inductive Signal where
  | peTx (n : Fin 4) (neg : Bool) | peRx (n : Fin 4) (neg : Bool)
  | linkTx (n : Fin 4) (neg : Bool) | linkRx (n : Fin 4) (neg : Bool)
  | netTx (n : Fin 12) (neg : Bool) | netRx (n : Fin 12) (neg : Bool)
  | dq (d1 : Bool) (n : Fin 72) | dqs (d1 : Bool) (k : Fin 18) (neg : Bool)
  | ca (d1 : Bool) (n : Fin 14) | cs (d1 : Bool) (n : Fin 2) | ck (d1 : Bool) (neg : Bool)
  | dramReset (d1 : Bool) | dramAlert (d1 : Bool) | dramZq (d1 : Bool)
  | gpio (p : Fin 64)
  | resetN | rcfg | cfgCsN | cfgSck | cfgSdi | cfgSdo | irqN (n : Fin 2) | trstN | tck | tms | tdi | tdo | refclk
  | thermd (neg : Bool)
  | vddSer | vddhSer | vddq | vddCore | vddSram | vaon | vio (bank : Fin 4) | vioS
  deriving DecidableEq, Repr

/-- The ball of a DDR5 signal of channel D1 from that of D0 (R617). -/
def ddrBall (d1 : Bool) (row col : Nat) : List Ball := [⟨row, if d1 then 42 - col else col⟩]

/-- The balls of one row in the columns of a list. -/
def rowBalls (row : Nat) (cols : List Nat) : List Ball := cols.map (Ball.mk row)

/-- The odd columns 11 to 31. -/
def coreCols : List Nat := (List.range 11).map (fun i => 11 + 2 * i)

/-- The balls on which a signal lies (R617); VSS takes the others. -/
def Signal.balls : Signal → List Ball
  | .peTx n neg => [⟨2, 3 * n + 2 + neg.toNat⟩]
  | .peRx n neg => [⟨4, 3 * n + 2 + neg.toNat⟩]
  | .linkTx n neg => [⟨2, 3 * n + 23 + neg.toNat⟩]
  | .linkRx n neg => [⟨4, 3 * n + 23 + neg.toNat⟩]
  | .netTx n neg => [⟨6, 3 * n + 2 + neg.toNat⟩]
  | .netRx n neg => [⟨8, 3 * n + 2 + neg.toNat⟩]
  | .dq d1 n => ddrBall d1 (11 + n / 4) (2 + n % 4 + if n % 4 < 2 then 0 else 2)
  | .dqs d1 k neg => ddrBall d1 (11 + k) (4 + neg.toNat)
  | .ca d1 n => ddrBall d1 (29 + n / 6) (2 + n % 6)
  | .cs d1 n => ddrBall d1 31 (4 + n)
  | .ck d1 neg => ddrBall d1 31 (6 + neg.toNat)
  | .dramReset d1 => ddrBall d1 32 2
  | .dramAlert d1 => ddrBall d1 32 3
  | .dramZq d1 => ddrBall d1 32 4
  | .gpio p => [⟨if p / 16 % 2 = 0 then 38 else 39, p % 16 + if p < 32 then 5 else 22⟩]
  | .resetN => [⟨41, 5⟩]
  | .rcfg => [⟨41, 6⟩]
  | .cfgCsN => [⟨41, 8⟩]
  | .cfgSck => [⟨41, 9⟩]
  | .cfgSdi => [⟨41, 10⟩]
  | .cfgSdo => [⟨41, 11⟩]
  | .irqN n => [⟨41, 13 + n⟩]
  | .trstN => [⟨41, 15⟩]
  | .tck => [⟨41, 16⟩]
  | .tms => [⟨41, 17⟩]
  | .tdi => [⟨41, 18⟩]
  | .tdo => [⟨41, 19⟩]
  | .refclk => [⟨41, 21⟩]
  | .thermd neg => [⟨41, 33 + neg.toNat⟩]
  | .vddSer => rowBalls 10 (List.range' 2 19)
  | .vddhSer => rowBalls 10 (List.range' 22 19)
  | .vddq => (List.range' 11 22).flatMap (fun r => rowBalls r [1, 41])
  | .vddCore => (List.range' 12 10).flatMap (fun r => rowBalls r coreCols)
  | .vddSram => (List.range' 22 11).flatMap (fun r => rowBalls r coreCols)
  | .vaon => rowBalls 33 [11, 12, 13, 14]
  | .vio bank => rowBalls 40 (List.range' (5 + 8 * bank + if bank < 2 then 0 else 1) 8)
  | .vioS => rowBalls 41 [24, 25, 26, 27]

/-- The directions of the system balls (R618). -/
inductive BallDir where
  | input | output | openDrain | analog
  deriving DecidableEq, Repr

/-- The internal biases of the system balls (R618). -/
inductive BallBias where
  | none | up | down
  deriving DecidableEq, Repr

/-- The fixed direction and bias of a system ball (R618); none for a signal of another group. -/
def Signal.system : Signal → Option (BallDir × BallBias)
  | .resetN | .refclk => some (.input, .none)
  | .rcfg => some (.analog, .up)
  | .cfgCsN | .tms | .tdi => some (.input, .up)
  | .cfgSck | .cfgSdi | .trstN | .tck => some (.input, .down)
  | .cfgSdo | .tdo => some (.output, .none)
  | .irqN _ => some (.openDrain, .none)
  | .thermd _ => some (.analog, .none)
  | _ => none

end Sys2Proof.Machine
end

