-- ==== Sys2Proof/Safety.lean ====
section
/-!
DEFINITION. What counts as a sound state of the block, and the words in which the statements speak: a command completes with a
property of the next state, two states agree on what a command leaves alone.
-/
namespace Sys2Proof.Machine

/-- Command c, run in state s, answers a next state, of which P holds. -/
def Completes (c : Instr) (s : State) (P : State → Prop) : Prop := ∃ t, exec c s = .next t ∧ P t

/-- A saturating 32-bit counter after one more count (R84). -/
def countUp (v : Word) : Word := BitVec.ofNat 32 (sat32 (v.toNat + 1))

/-- Whether a submission of the host port acts (R276): the count is fine, and no source is listed or the host is the one selected. -/
def State.hostSteers (s : State) : Bool :=
  !s.coarse && (s.srcList.isEmpty || (s.rd TB_STAT.SRC_SEL == 1 && s.srcList.contains 1))

/-- Whether a submission of the engine port acts (R276): the count is fine, and the engine is listed and is the source selected. -/
def State.engineSteers (s : State) : Bool := !s.coarse && s.rd TB_STAT.SRC_SEL == 2 && s.srcList.contains 2

/-- The word that a pop of queue k would take now, if there is one. -/
def State.wordAt (s : State) (k : Nat) : Option QWord := match s.look k with | .word w _ => some w | _ => none

/-- The completion that command c of this device's own ring gives when it finishes in state s (R451). -/
def State.finished (s : State) (c : Cmd) (status : Nat) (count detail : Nat) (out : List Byte) : Completion :=
  { source := c.source, cq := s.rd (SQ_CFG.CQ c.ring), tag := c.tag, status := status, sq := c.ring, dev := entryDev c.entry,
    count := count, detail := detail, stamp := s.now, stepSeq := s.stepSeq, buffer := bufferPieces (entryAddr c.entry) c.sgl out }

/-- Whether command c of this device's own ring, of opcode op, starts and runs here (R444, R455, R456). -/
def State.startsHere (s : State) (c : Cmd) (op : Nat) : Bool :=
  entryOp c.entry == op && s.canStart c && s.partRuns .host && !c.away

/-- Whether an abort of kind kind of object object with tag tag and ring cq is taken (R459) and finds nothing else to wait for. -/
def State.abortTaken (s : State) (kind object tag cq : Nat) : Bool :=
  s.bit (CQ_STAT.ENABLED cq) && decide (s.abortSlots < 64) && !s.tagOut tag && abortObjectOk kind object
    && s.host.aborts.isEmpty && decide (s.host.holds srcAbort < 8)

/-- Whether an abort with tag tag has ended with status OK, its completion held (R459, R460). -/
def State.abortEnded (s : State) (tag : Nat) : Bool :=
  s.host.held.any (fun x => x.abt && x.tag == tag && x.status == stOk && x.source == srcAbort)

/-- The tables of the block are in canonical form: keys rise, and no pair lists what an unlisted key reads as. -/
def State.canon (s : State) : Bool :=
  tabWf regReset s.regs && tabWf (fun _ => Queue.absent) s.queues && tabWf Port.reset s.ports && tabWf Tw.reset s.tws
    && tabWf Link.reset s.links && tabWf Engine.reset s.engines && tabWf NetPort.reset s.nets && tabWf Gateway.reset s.eic.gates
    && tabWf Target.reset s.eic.targets && tabWf (fun _ => 0) s.eic.members && tabWf ClassState.reset s.log.classes
    && tabWf (fun _ => 0) s.snaps && tabWf (fun _ => 0) s.windowSnaps && tabWf (fun _ => 0) s.cmdHeld
    && tabWf stagedDefault s.staged && tabWf (fun _ => 0) s.mdio && tabWf (fun _ => 0) s.fuses && tabWf (fun _ => 0) s.shadow
    && tabWf Tpo.reset s.time.tpos && tabWf noEdge s.time.tsiLast && tabWf MapEntry.reset s.chain.map
    && tabWf (fun _ => []) s.chain.orphans && tabWf noEdge s.chain.answered && tabWf CqState.reset s.host.cqs
    && tabWf (fun _ => 0) s.host.tails && tabWf (fun _ => 0) s.host.upper && tabWf Slot.reset s.mem.slots
    && tabWf (fun _ => 0) s.pins.seqs && tabWf (fun _ => 0) s.pins.upper && tabWf (fun _ => 0) s.clk.gatedAt

/-- The byte memories of the block are in canonical form: the scratch memory, the sector buffer and the store. -/
def State.memOk (s : State) : Bool := Memory.wf s.mem.scratch && Memory.wf s.calm.buf && Memory.wf s.calm.store

/-! ## Frames: what a command leaves as it is -/

/-- The parts of the state. fullness is whether a queue is full for want of a block (R206), and flow is what flow control derives
from a port's receive queue (R50): both follow the blocks and the queues that other commands move. -/
inductive Piece where
  | regs | freeNo | stopped | time | log | eic | snaps | windowSnaps | cmdHeld | staged | queues | fullness | flow | ledger | endpoint
  | ports | tws | links | chain | mem | scratch | host | engines | clustersOff | loader | nets | mdio | clk | rst | pins | fuses
  | shadow | cfg | calm | buf | store | out
  deriving DecidableEq, Repr

/-- What a command may change: a whole part, or the keys of one from lo up to hi. -/
inductive Touch where
  | part (p : Piece)
  | keys (p : Piece) (lo hi : Nat)
  deriving DecidableEq, Repr

/-- Whether the list of changes reaches key k of part p. -/
def touches (ts : List Touch) (p : Piece) (k : Nat) : Bool :=
  ts.any (fun t => match t with | .part q => q == p | .keys q lo hi => q == p && decide (lo ≤ k) && decide (k < hi))

/-- Whether it reaches all of part p. -/
def touchesAll (ts : List Touch) (p : Piece) : Bool := ts.contains (.part p)

/-- A register's value without the bit that flow control derives, SP_STAT.RTS_OFF (R50). -/
def flowless (a : Nat) (v : Word) : Word :=
  if (List.range 16).any (fun n => a == SP_STAT n) then fldPut ⟨a, (SP_STAT.RTS_OFF 0).lo, 1⟩ v 0 else v

/-- A port without its flow control towards the far end (R50, R52). -/
def Port.flowless (p : Port) : Port := { p with fcStop := false, stop := false, xpend := [] }

/-- States s and t agree on everything but the changes ts: on every register, on every entry of every table, on every byte of the
scratchpad, of the sector buffer and of the store, and on every other part. The queue of waiting commands always agrees. -/
def State.agree (s t : State) (ts : List Touch) : Prop :=
  t.pending = s.pending ∧
  (∀ a, touches ts .regs a = false →
    if touchesAll ts .flow then Machine.flowless a (t.reg a) = Machine.flowless a (s.reg a) else t.reg a = s.reg a) ∧
  (∀ k, touches ts .queues k = false →
    if touchesAll ts .fullness then { t.queue k with poolFull := false } = { s.queue k with poolFull := false }
    else t.queue k = s.queue k) ∧
  (∀ n, touches ts .ports n = false →
    if touchesAll ts .flow then (t.port n).flowless = (s.port n).flowless else t.port n = s.port n) ∧
  (∀ n, touches ts .tws n = false → t.tw n = s.tw n) ∧
  (∀ l, touches ts .links l = false → t.link l = s.link l) ∧
  (∀ e, touches ts .engines e = false → t.eng e = s.eng e) ∧
  (∀ p, touches ts .nets p = false → t.net p = s.net p) ∧
  (∀ a, touches ts .scratch a = false → memByte t.mem.scratch a = memByte s.mem.scratch a) ∧
  (∀ a, touches ts .buf a = false → memByte t.calm.buf a = memByte s.calm.buf a) ∧
  (∀ a, touches ts .store a = false → memByte t.calm.store a = memByte s.calm.store a) ∧
  (touchesAll ts .mem = false → { t.mem with scratch := [] } = { s.mem with scratch := [] }) ∧
  (touchesAll ts .calm = false → { t.calm with buf := [], store := [] } = { s.calm with buf := [], store := [] }) ∧
  (touchesAll ts .freeNo = false → t.freeNo = s.freeNo) ∧ (touchesAll ts .stopped = false → t.stopped = s.stopped) ∧
  (touchesAll ts .time = false → t.time = s.time) ∧ (touchesAll ts .log = false → t.log = s.log) ∧
  (touchesAll ts .eic = false → t.eic = s.eic) ∧ (touchesAll ts .snaps = false → t.snaps = s.snaps) ∧
  (touchesAll ts .windowSnaps = false → t.windowSnaps = s.windowSnaps) ∧
  (touchesAll ts .cmdHeld = false → t.cmdHeld = s.cmdHeld) ∧ (touchesAll ts .staged = false → t.staged = s.staged) ∧
  (touchesAll ts .ledger = false → t.ledger = s.ledger) ∧ (touchesAll ts .endpoint = false → t.endpoint = s.endpoint) ∧
  (touchesAll ts .chain = false → t.chain = s.chain) ∧ (touchesAll ts .host = false → t.host = s.host) ∧
  (touchesAll ts .clustersOff = false → t.clustersOff = s.clustersOff) ∧ (touchesAll ts .loader = false → t.loader = s.loader) ∧
  (touchesAll ts .mdio = false → t.mdio = s.mdio) ∧ (touchesAll ts .clk = false → t.clk = s.clk) ∧
  (touchesAll ts .rst = false → t.rst = s.rst) ∧ (touchesAll ts .pins = false → t.pins = s.pins) ∧
  (touchesAll ts .fuses = false → t.fuses = s.fuses) ∧ (touchesAll ts .shadow = false → t.shadow = s.shadow) ∧
  (touchesAll ts .cfg = false → t.cfg = s.cfg) ∧ (touchesAll ts .out = false → t.out = s.out)

/-- Command c changes nothing but what f lists, in every state with canonical tables in which it answers a next state. -/
def Frame (c : Instr) (f : State → List Touch) : Prop :=
  ∀ s t, s.canon = true → exec c s = .next t → s.agree t (f s)

/-- Whether an outcome is a next state. -/
def isNext : Res → Bool
  | .next _ => true
  | _ => false

/-- Whole parts. -/
def parts (ps : List Piece) : List Touch := ps.map .part

/-- Every part but those of ps. -/
def partsBut (ps : List Piece) : List Touch :=
  parts ([Piece.regs, .freeNo, .stopped, .time, .log, .eic, .snaps, .windowSnaps, .cmdHeld, .staged, .queues, .fullness, .flow, .ledger,
    .endpoint, .ports, .tws, .links, .chain, .mem, .scratch, .host, .engines, .clustersOff, .loader, .nets, .mdio, .clk, .rst, .pins,
    .fuses, .shadow, .cfg, .calm, .buf, .store, .out].filter (fun p => !ps.contains p))

/-- Key k of part p. -/
def keyOf (p : Piece) (k : Nat) : List Touch := [.keys p k (k + 1)]

/-- The registers at the addresses as. -/
def regsAt (as : List Nat) : List Touch := as.map (fun a => .keys .regs a (a + 1))

/-- The n copies of a register, and the n × m copies of one with two numbers. -/
def regsOf (n : Nat) (f : Nat → Nat) : List Touch := regsAt ((List.range n).map f)
def regsOf2 (n m : Nat) (f : Nat → Nat → Nat) : List Touch := (List.range n).flatMap (fun i => regsOf m (f i))

/-- The queue that a reference names; the log's reference names none. -/
def queueOf : QRef → List Touch
  | .num k => keyOf .queues k.toNat
  | .log => []

/-- What a record in the event log changes (R547 to R555). -/
def told : List Touch := parts [.log] ++ regsAt [EL_CNT_REC, EL_CNT_FWDSUP, EL_EVT] ++ regsOf 16 EL_CLS_SUP

/-- What a condition of the interrupt controller changes (R533 to R546). -/
def raised : List Touch := parts [.eic, .out] ++ regsOf 2 MSIX_PBA

/-- What a memory error changes (R649 to R653, R658). -/
def memTold : List Touch :=
  regsAt [MEM_EVT, MEM_CNT_CE, MEM_CNT_UE, MEM_UE_INFO, MEM_UE_ADDR] ++ regsOf 2 DDR_CNT_CE ++ regsOf 2 DDR_CNT_UE
    ++ regsOf 2 DDR_UE_ADDR_LO ++ regsOf 2 DDR_UE_ADDR_HI

/-- What words that enter some queue change beside it (R205 to R217, R234 to R241). -/
def pushed : List Touch := regsAt [ED_EVT, MEM_INJ, QF_CNT_ABSENT, QF_EVT] ++ parts [.ledger, .flow, .fullness]

/-- What a message that leaves on the chain changes (R316 to R318). -/
def routed : List Touch := parts [.links] ++ regsOf 4 LK_CNT_TXCELL ++ regsOf2 4 4 LK_CRED_VC

/-- What port n's guardian changes when it closes its gate, and the schedule that leaves its cycles for it (R173, R178 to R182, R192). -/
def guarded (n : Nat) : List Touch :=
  regsAt [GD_BLK_INFO n, GD_BLK_NS n, SF_CNT_BLOCKED n, SF_CNT_MUZZLE n, SF_EVT n, SF_STAT n, TW_EVT n] ++ regsOf 4 (GD_CRC n)
    ++ regsOf 8 (TW_TCLIP n) ++ keyOf .tws n

/-- What items that port n receives change (R69, R85, R86, R101, R102). -/
def received (n : Nat) : List Touch :=
  regsAt [SP_CNT_RXCHAR n, SP_CNT_RXDROP n, SP_CNT_STAMPDROP n, SP_CNT_UNBOUND n, SP_EVT n, SP_RXSTAMP_NS n, SP_RXSTAMP_SL n,
    SP_RXSTAMP_SH n, SP_RX_SEQ n, SP_STAT n, SP_TEVT n] ++ keyOf .ports n ++ parts [.queues]

/-- What a change of the time base's source changes (R276 to R279). -/
def steered : List Touch := regsAt [TB_ADDEND, TB_CNT_SRCSW, TB_EVT, TB_HO_ADDEND, TB_STAT] ++ parts [.time]

/-- What the end of a configuration load changes (R484, R485, R497). -/
def loadEnded : List Touch :=
  regsAt [CF_CNT_FAIL, CF_EVT, CF_FAIL, CF_PROGRESS, CF_SKIPPED, CF_STAT, CP_BOOTSTAT] ++ parts [.cfg, .calm]

/-- The bytes that a store operation writes (R509, R516 to R518). -/
def storeTouched (opc addr : Nat) : List Touch :=
  let k := storeSlot addr
  let sec := k * 0x200000 + storeSector addr * 0x1000
  let desc := Touch.keys .store (sector511 k 0xF00) (sector511 k 0xF00 + 256)
  match opc with
  | 0x21 => [.keys .store sec (sec + 0x1000), desc]
  | 0x22 => [.part .buf]
  | 0x23 => [desc]
  | 0x24 => [desc]
  | _ => [.keys .store (sector511 0 0xE00) (sector511 0 0xE00 + 256), .keys .store (sector511 1 0xE00) (sector511 1 0xE00 + 256)]

/-- What the plane's work changes while it goes on (R510, R519). -/
def State.worked (s : State) : List Touch :=
  told ++ regsAt [CP_STAT, CP_STORESTAT, CP_WEAR, ST_STAT] ++ parts [.calm]
    ++ (match s.calm.work with | some w => storeTouched w.opc w.addr | none => [])

end Sys2Proof.Machine
end

