-- ==== Sys2Proof/Certificates/Slice0/Obligations.lean ====
section
/-!
DEFINITION. The statements about the block, for the provers. Each completion statement says for every command it names that exec answers
a next state, under hypotheses on the state and the operands alone, and what that state holds.
-/
section

open Sys2Proof Sys2Proof.Machine

/-- A step runs the command at the front of the queue; an idle step lets one tick pass and applies waiting changes, the choice of
log entry 1. -/
def Obligations.StepRunsTheFrontCommand : Prop :=
  (∀ (c : Instr) (rest : List Instr) (s : State), s.pending = c :: rest → step s = exec c { s with pending := rest }) ∧
  (∀ s : State, s.pending = [] → step s = .next s.idle)

/-- The state after reset has the values that the rules give: time 0 and unset, engines unbound, slots empty, vectors masked, pins
on their fuses. -/
def Obligations.ResetLeavesTheStatedValues : Prop :=
  (State.reset.now = 0 ∧ State.reset.rd TB_STAT.QUALITY = 5) ∧
  (∀ e : Fin 48, State.reset.rd (CE_STAT.STATE e.val) = 0 ∧ State.reset.bit (CE_BIND.BIND_EN e.val) = false) ∧
  (∀ k : Nat, (State.reset.slot k).len = 0 ∧ (State.reset.slot k).lost = false) ∧
  (∀ v : Fin 64, State.reset.bit (MSIX_CTRL.MASK v.val) = true) ∧
  (∀ p : Fin 64, State.reset.bit (PIN_CFG.FUSE p.val) = true) ∧
  ((∀ k : Nat, (State.reset.queue k).ex = false) ∧ State.reset.pending = [])

/-- The state after reset has its tables and its byte memories in canonical form. -/
def Obligations.ResetKeepsTheTables : Prop :=
  (State.reset.canon = true ∧ State.reset.memOk = true)

/-- Every step of every command keeps every table and every byte memory in canonical form. -/
def Obligations.EveryStepKeepsTheTables : Prop :=
  (∀ s t : State, s.canon = true → s.memOk = true → step s = .next t → t.canon = true ∧ t.memOk = true)

/-- No step clears a fuse bit, takes back an output, turns device ticks back or adds a command; each takes one command from the
queue. -/
def Obligations.NoStepClearsAFuseOrTakesBackAnOutput : Prop :=
  (∀ s t : State, s.canon = true → step s = .next t → t.pending = s.pending.tail ∧
    (∀ k b, (tabGet (fun _ => 0) s.fuses k).getLsbD b = true → (tabGet (fun _ => 0) t.fuses k).getLsbD b = true) ∧
    s.out <+: t.out ∧ s.time.tick ≤ t.time.tick ∧ s.freeNo ≤ t.freeNo)

/-- A start bit that votes mark is discarded and counted, and the port hunts again without an item (R37). -/
def Obligations.FalseStartsAreDiscarded : Prop :=
  (∀ (s : State) (p : Fin 16), s.canon = true →
    (s.port p).rxChar.isSome = true →
    ({ s with ports := tabPut Port.reset s.ports p { s.port p with rxChar := none } } : State).hunting p = true ∧ (s.port p).abAfter = false →
    Completes (.rxFalseStart p) s fun t =>
      (t.port p).rxChar = none ∧
      t.hunting p = true ∧
      t.reg (SP_CNT_FALSESTART p) = countUp (s.reg (SP_CNT_FALSESTART p)) ∧
      t.bit (SP_EVT.FALSE_START p) = true ∧
      (t.port p).held = (s.port p).held ∧
      (t.port p).hold = (s.port p).hold ∧
      t.queues = s.queues) ∧
  (∀ (s : State) (p : Fin 16) (samples : List (BitVec 3)), s.canon = true →
    (s.port p).rxChar.isSome = true ∧ vote (samples.getD 0 7) = true →
    ({ s with ports := tabPut Port.reset s.ports p { s.port p with rxChar := none } } : State).hunting p = true ∧ (s.port p).abAfter = false →
    Completes (.rxCharAccept p samples) s fun t =>
      (t.port p).rxChar = none ∧
      t.hunting p = true ∧
      t.reg (SP_CNT_FALSESTART p) = countUp (s.reg (SP_CNT_FALSESTART p)) ∧
      t.bit (SP_EVT.FALSE_START p) = true ∧
      (t.port p).held = (s.port p).held ∧
      (t.port p).hold = (s.port p).hold ∧
      t.queues = s.queues)

/-- A transmit word with ERR is sent with its parity bit inverted, or without parity with its first stop bit as space (R67). -/
def Obligations.TheErrBitSendsAFault : Prop :=
  (∀ (f : CharFmt) (c k : Nat), f.parity ≠ 0 →
    (txBits f c true)[k]? = if k = 1 + f.bits then (txBits f c false)[k]?.map (!·) else (txBits f c false)[k]?) ∧
  (∀ (f : CharFmt) (c : Nat), f.parity = 0 → (txBits f c true).length = f.bits + 2 ∧
    ∀ k : Nat, (txBits f c true)[k]? = if k = 1 + f.bits then some false else (txBits f c false)[k]?) ∧
  (∀ (s : State) (n : Nat) (w : QWord) (q : Option Nat) (x kind : Nat),
    ∃ tick : Nat, .txd n tick (txBits (frameFmt (s.port n).txFmt.frame) (s.txChar n (frameFmt (s.port n).txFmt.frame) w) w.err)
    ∈ (s.sendChar n w q x kind).out)

/-- The interrupt source EVLOG is active exactly while an enabled event bit is set or the log holds its watermark of records
(R550). -/
def Obligations.TheLogSourceIsActiveOnEventsOrFill : Prop :=
  (∀ s : State, s.srcInput 165 = true ↔
    (s.reg EL_EVT &&& s.reg EL_EVT_EN ≠ 0 ∨ (s.rd EL_WMARK.RECS ≠ 0 ∧ s.rd EL_WMARK.RECS * 8 ≤ s.log.q.ready)))

/-- A register write stores by the field types, a wide read takes its snapshot, a counter read clears the counter. -/
def Obligations.RegisterAccessesComplete : Prop :=
  (∀ (s : State) (m : Master) (off : BitVec 24) (v : Word), s.canon = true →
    busMaster m = true →
    0x80000 ≤ off.toNat ∧ off.toNat < 0x90000 →
    [SP_BAUD 0, SP_DE_PRE 0, SP_DE_POST 0, SP_ECHO 0, SP_BREAK 0, SP_ADDR 0, SP_PKT 0, SP_PKT_TERM 0, SP_RXSTAMP_CFG 0, SP_TXARB 0, SP_EVT_EN 0, SP_TEVT_EN 0].contains (0x80000 + off.toNat % 0x1000) = true →
    s.committed = true ∧ s.cfg.commit = none ∧ s.configFull = false ∧ s.waitsRoom m.origin = false →
    s.rst.request = none ∧ s.rst.asked = none →
    Completes (.registerWrite m (.bar0 off) v) s fun t =>
      (regRow? off.toNat).map (fun r => storeValue r 0 (s.reg off.toNat) v) = some (t.reg off.toNat)) ∧
  (∀ (s : State) (m : Master) (q : QRef) (v : Word), s.canon = true →
    Completes (.registerWrite m (.cmdUpper q) v) s fun t =>
      tabGet (fun _ => (0 : Word)) t.cmdHeld m.num = v) ∧
  (∀ (s : State) (m : Master) (off : BitVec 24), s.canon = true →
    busMaster m = true →
    off.toNat = TB_TIME_NS →
    Completes (.snapshotRead m off) s fun t =>
      t.out = s.out ++ [.answer m ((stampWord s.now 0).setWidth 64)] ∧
      (tabGet (fun _ => (0 : Word)) t.snaps (snapKey m TB_TIME_SL) = (if s.regExists TB_TIME_SL then stampWord s.now 1 else 0))) ∧
  (∀ (s : State) (m : Master) (off : BitVec 24), s.canon = true →
    busMaster m = true →
    off.toNat % 4 = 0 ∧ (wideAt off.toNat).map (·.2) = some false →
    Completes (.snapshotRead m off) s fun t =>
      t.out = s.out ++ [.answer m ((tabGet (fun _ => (0 : Word)) s.snaps (snapKey m off.toNat)).setWidth 64)]) ∧
  (∀ (s : State) (m : Master) (off : BitVec 24), s.canon = true →
    busMaster m = true ∧ s.committed = true →
    0x80000 ≤ off.toNat ∧ off.toNat < 0x400000 ∧ off.toNat % 4 = 0 ∧ wideAt off.toNat = none →
    ∀ r, regRow? off.toNat = some r →
    r.rc ≠ 0 →
    Completes (.counterRead m off) s fun t =>
      t.reg off.toNat = s.reg off.toNat &&& ~~~BitVec.ofNat 32 r.rc ∧
      t.out = s.out ++ [.answer m ((s.liveReg m.origin off.toNat).setWidth 64)])

/-- A start edge opens a character at its stamp, a false start discards it, and the vote of the bits gives the item. -/
def Obligations.ReceiveStartsAndVotes : Prop :=
  (∀ (s : State) (p : Fin 16), s.canon = true →
    ∀ e, s.rxdEdge p true = some e →
    e.1.hunting p = true ∧ s.bit (SP_STAT.BAUD_SETTLING p) = false ∧ (s.port p).masked = false →
    (e.1.port p).markSeen e.2.2 = true ∧ s.twRuns p = false →
    Completes (.rxStartEdge p) s fun t =>
      (t.port p).rxChar.map (fun c => (c.stamp, c.tick)) = some e.2 ∧
      (s.bit (SP_CTRL.LOOPBACK p) = false → e.2 = (s.now - s.lag p, s.time.tick - s.lag p))) ∧
  (∀ (s : State) (p : Fin 16), s.canon = true →
    ∀ e, s.rxdEdge p true = some e →
    e.1.hunting p = true ∧ (s.port p).masked = false ∧ s.bit (SP_STAT.BAUD_SETTLING p) = true →
    Completes (.rxStartEdge p) s fun t =>
      t.reg (SP_CNT_SETTLE_MISS p) = countUp (s.reg (SP_CNT_SETTLE_MISS p)) ∧
      t.bit (SP_EVT.SETTLE_MISS p) = true ∧
      (t.port p).rxChar = none) ∧
  (∀ (s : State) (p : Fin 16), s.canon = true →
    (s.port p).rxChar.isSome = true →
    Completes (.rxFalseStart p) s fun t =>
      (t.port p).rxChar = none ∧
      t.reg (SP_CNT_FALSESTART p) = countUp (s.reg (SP_CNT_FALSESTART p)) ∧
      t.bit (SP_EVT.FALSE_START p) = true) ∧
  (∀ (s : State) (p : Fin 16) (samples : List (BitVec 3)), s.canon = true →
    ∀ ch, (s.port p).rxChar = some ch →
    vote (samples.getD 0 7) = true →
    Completes (.rxCharAccept p samples) s fun t =>
      (t.port p).rxChar = none ∧
      t.reg (SP_CNT_FALSESTART p) = countUp (s.reg (SP_CNT_FALSESTART p))) ∧
  (∀ (s : State) (p : Fin 16) (samples : List (BitVec 3)), s.canon = true →
    ∀ ch, (s.port p).rxChar = some ch →
    vote (samples.getD 0 7) = false ∧ (samples.all (fun b => b == 0)) = false ∧ samples.length = (frameFmt ch.fmt.frame).len →
    s.bit (SP_CTRL.LOOPBACK p) = false ∧ ch.gone = false ∧ s.twRuns p = false ∧ s.bit (SP_STAT.HOLD_FULL p) = false ∧ s.bit (SP_ECHO.ECHO_EN p) = false →
    s.bit (SP_FLOW.XTX_EN p) = false ∧ s.rd (SP_ADDR.ADDR_MODE p) = 0 ∧ s.rd (SP_PKT.GAP16 p) ≠ 0 →
    s.rd (SP_PKT.PKT_LEN p) = 0 ∧ s.bit (SP_PKT_TERM.TERM_EN p) = false →
    Completes (.rxCharAccept p samples) s fun t =>
      (t.port p).rxChar = none ∧
      (t.port p).held.map (fun i => (i.stamp, i.words.map (fun w => w.data.toNat % 0x200))) = some (ch.stamp, [(voteChar ch samples).chr]))

/-- Breaks begin and end, a stuck line is told, the receive mask ends, and a line at mark ends the wait for it. -/
def Obligations.LineConditionsComplete : Prop :=
  (∀ (s : State) (p : Fin 16), s.canon = true →
    ((s.port p).rxChar.isSome = true ∨ (s.port p).watch.isSome = true) ∧ s.bit (SP_CTRL.LOOPBACK p) = false →
    Completes (.breakStart p) s fun t =>
      t.bit (SP_STAT.IN_BREAK p) = true ∧
      (t.port p).brk.isSome = true ∧
      t.reg (SP_CNT_BREAK p) = countUp (s.reg (SP_CNT_BREAK p))) ∧
  (∀ (s : State) (p : Fin 16), s.canon = true →
    (s.port p).brk.isSome = true ∧ (s.port p).masked = false ∧ (s.rxdEdge p false).isSome = true →
    Completes (.breakEnd p) s fun t =>
      (t.port p).brk = none ∧
      t.bit (SP_STAT.IN_BREAK p) = false) ∧
  (∀ (s : State) (p : Fin 16), s.canon = true →
    (s.port p).brk.isSome = true →
    s.rd (SP_BREAK.STUCK_MS p) ≠ 0 ∧ s.bit (SP_STAT.LINE_STUCK p) = false →
    Completes (.lineStuck p) s fun t =>
      t.bit (SP_STAT.LINE_STUCK p) = true ∧
      t.bit (SP_EVT.STUCK p) = true) ∧
  (∀ (s : State) (p : Fin 16) (mark : Bool), s.canon = true →
    (s.port p).maskEnd.isSome = true →
    Completes (.rxMaskEnd p mark) s fun t =>
      (t.port p).masked = false ∧
      (t.port p).maskEnd = none) ∧
  (∀ (s : State) (p : Fin 16), s.canon = true →
    (s.port p).brk = none ∧ (s.port p).rxChar = none ∧ (s.port p).masked = false ∧ (s.rxdEdge p false).isSome = true →
    Completes (.rxLineMark p) s fun t =>
      (t.port p).watch = none ∧
      (t.port p).waitMark = false)

/-- Enables, rates, formats, auto-detection, bindings and the stranger table take what is written. -/
def Obligations.SerialSettingsComplete : Prop :=
  (∀ (s : State) (o : Origin) (p : Fin 16) (en mark : Bool), s.canon = true →
    s.regExists (SP_CTRL p) = true →
    Completes (.rxEnWrite o p en mark) s fun t =>
      t.bit (SP_CTRL.RX_EN p) = en) ∧
  (∀ (s : State) (o : Origin) (p : Fin 16) (en : Bool), s.canon = true →
    s.regExists (SP_CTRL p) = true →
    Completes (.txEnWrite o p en) s fun t =>
      t.bit (SP_CTRL.TX_EN p) = en) ∧
  (∀ (s : State) (o : Origin) (p : Fin 16) (v : Word), s.canon = true →
    s.regExists (SP_BAUDCFG p) = true →
    Completes (.baudcfgWrite o p v) s fun t =>
      (t.port p).rate = some (s.reg (SP_BAUD p), t.reg (SP_BAUDCFG p))) ∧
  (∀ (s : State) (p : Fin 16), s.canon = true →
    ∀ r, (s.port p).rate = some r →
    (s.port p).rxChar = none ∧ (s.port p).cand = none →
    s.bit (SP_STAT.BAUD_SETTLING p) = false ∧ s.twRuns p = false ∧ s.runs .port = true →
    Completes (.baudChangeApply p) s fun t =>
      t.reg (SP_BAUD_ACT p) = r.1 ∧
      t.rd (SP_STAT.OSR_ACT p) = r.2.toNat % 4 ∧
      t.bit (SP_STAT.BAUD_SETTLING p) = true ∧
      (t.port p).rate = none) ∧
  (∀ (s : State) (p : Fin 16), s.canon = true →
    s.bit (SP_STAT.BAUD_SETTLING p) = true →
    Completes (.baudSettlingEnd p) s fun t =>
      t.bit (SP_STAT.BAUD_SETTLING p) = false ∧
      (t.port p).needMark = some (s.time.tick, s.bitTime p)) ∧
  (∀ (s : State) (p : Fin 16) (tx : Bool), s.canon = true →
    tx = true ∨ (s.port p).rxChar = none →
    Completes (.frameFormatApply p tx) s fun t =>
      ((if tx then (t.port p).txFmt else (t.port p).rxFmt) = s.lineRegs p)) ∧
  (∀ (s : State) (o : Origin) (p : Fin 16) (apply : Bool), s.canon = true →
    s.regExists (SP_AUTOBAUD p) = true ∧ (s.port p).rxChar = none →
    Completes (.autobaudStart o p apply) s fun t =>
      t.bit (SP_STAT.WARMING p) = true ∧
      t.bit (SP_AUTOBAUD.AB_EN p) = true ∧
      (t.port p).abEdges = []) ∧
  (∀ (s : State) (p : Fin 16), s.canon = true →
    ∀ e, s.rxdEdge p (s.port p).markSince.isSome = some e →
    s.bit (SP_STAT.WARMING p) = true ∧ s.runs .port = true ∧ (s.port p).masked = false ∧ (s.port p).abEdges.length < 7 →
    Completes (.autobaudEdge p) s fun t =>
      (t.port p).abEdges = (s.port p).abEdges ++ [e.2.2]) ∧
  (∀ (s : State) (o : Origin) (p : Fin 16), s.canon = true →
    s.regExists (SP_AUTOBAUD p) = true →
    Completes (.autobaudCancel o p) s fun t =>
      t.bit (SP_STAT.WARMING p) = false ∧
      t.bit (SP_AUTOBAUD.AB_EN p) = false) ∧
  (∀ (s : State) (o : Origin) (p : Fin 16) (b : Fin 7) (v : Word), s.canon = true →
    s.regExists (bindingReg p b) = true →
    Completes (.bindingWrite o p b v) s fun t =>
      (t.reg (bindingReg p b)).getLsbD 31 = v.getLsbD 31 ∧
      (t.reg (bindingReg p b)).toNat % 0x10000 = v.toNat % 0x10000) ∧
  (∀ (s : State) (m : Master) (p : Fin 16) (v : Word), s.canon = true →
    s.regExists (SP_STR_SEL p) = true →
    tabWf (fun _ => (0, 0)) (s.port p).strangers = true →
    Completes (.strangerSelect m p v) s fun t =>
      t.reg (SP_STR_FRAMES p) = BitVec.ofNat 32 ((s.port p).stranger (v.toNat % 256)).1 ∧
      t.reg (SP_STR_CHARS p) = BitVec.ofNat 32 ((s.port p).stranger (v.toNat % 256)).2 ∧
      ((v.getLsbD 30 || v.getLsbD 31) = true → (t.port p).stranger (v.toNat % 256) = (0, 0))) ∧
  (∀ (s : State) (p : Fin 16), s.canon = true →
    (s.port p).gapAt.isSome = true ∧ (s.port p).rxChar = none ∧ s.runs .port = true →
    Completes (.gapExpiry p) s fun t =>
      (t.port p).gapAt = none ∧
      (t.port p).held = none ∧
      t.reg (SP_CNT_GAP p) = countUp (s.reg (SP_CNT_GAP p)))

/-- Words enter the prefetch, characters, breaks and flow control characters leave, and DE, echoes and holds follow. -/
def Obligations.TransmitComplete : Prop :=
  (∀ (s : State) (p : Fin 16), s.canon = true →
    s.txOn p = true ∧ s.runs .core = true ∧ (s.port p).reload = none ∧ (s.port p).prefetch = [] ∧ (s.port p).discardq = none →
    (s.port p).launchCount < 4 →
    ∀ k, s.txChoose p = some k →
    ∀ q, s.boundQueue (SP_QTX p k) = some q →
    ∀ w, s.wordAt q = some w →
    txCtrl w < 2 ∧ (s.queue q).anyTorn = false →
    Completes (.txPrefetchPop p) s fun t =>
      (t.port p).prefetch = [{ word := w, q := k }]) ∧
  (∀ (s : State) (p : Fin 16), s.canon = true →
    s.twRuns p = false ∧ s.txOn p = true ∧ s.txHeld p false = false ∧ (s.port p).xpend = [] ∧ s.deReady p = true →
    ∀ i, s.txNext p = some i →
    txCtrl i.word ≠ 1 ∧ (s.bit (SP_TXARB.LAUNCH_GUARD p) = false ∨ (s.port p).launchCount = 0) →
    Completes (.txCharStart p) s fun t =>
      (t.port p).prefetch = (s.port p).prefetch.erase i ∧
      t.reg (SP_CNT_TXCHAR p) = countUp (s.reg (SP_CNT_TXCHAR p)) ∧
      (t.port p).waves.head?.map Wave.levels = some (txBits (frameFmt (s.port p).txFmt.frame) (s.txChar p (frameFmt (s.port p).txFmt.frame) i.word) i.word.err)) ∧
  (∀ (s : State) (p : Fin 16), s.canon = true →
    s.twRuns p = false ∧ s.txOn p = true ∧ s.txHeld p false = false ∧ (s.port p).xpend = [] ∧ s.deReady p = true →
    ∀ i, s.txNext p = some i →
    txCtrl i.word = 1 ∧ (s.bit (SP_TXARB.LAUNCH_GUARD p) = false ∨ (s.port p).launchCount = 0) →
    Completes (.sendBreak p) s fun t =>
      (t.port p).prefetch = (s.port p).prefetch.erase i ∧
      (t.port p).waves.head?.map (fun w => w.levels.getLast?) = some (some true) ∧
      (t.port p).waves.head?.map (fun w => (w.levels.countP (fun b => !b), w.levels.countP id)) = some (max (txArg i.word) (divUp (frameFmt (s.port p).txFmt.frame).time 2 + 1), 1)) ∧
  (∀ (s : State) (p : Fin 16), s.canon = true →
    ∀ stop, (s.port p).xpend.head? = some stop →
    s.txOn p = true ∧ s.txHeld p true = false ∧ s.deReady p = true →
    Completes (.xonXoffSend p) s fun t =>
      (t.port p).xpend = (s.port p).xpend.tail ∧
      t.bit (SP_STAT.XOFF_SENT p) = stop ∧
      t.reg (SP_CNT_TXCHAR p) = countUp (s.reg (SP_CNT_TXCHAR p))) ∧
  (∀ (s : State) (p : Fin 16), s.canon = true →
    s.twRuns p = false ∧ s.lineMode p = 2 ∧ (s.port p).de = false ∧ s.txWants p = true →
    Completes (.deRise p) s fun t =>
      (t.port p).de = true ∧
      (t.port p).deRise = t.time.tick) ∧
  (∀ (s : State) (p : Fin 16), s.canon = true →
    (s.port p).de = true ∧ (s.port p).deHold = none ∧ s.txWants p = false ∧ s.twRuns p = false →
    (s.tw p).chars = [] ∧ (s.tw p).raised = false →
    Completes (.deFall p) s fun t =>
      (t.port p).de = false ∧
      (s.bit (SP_CTRL.LOOPBACK p) = false → t.out = s.out ++ [.de p t.time.tick false])) ∧
  (∀ (s : State) (p : Fin 16), s.canon = true →
    (s.port p).deHold.isSome = true →
    Completes (.deHoldEnd p) s fun t =>
      (t.port p).de = false ∧
      (t.port p).deHold = none) ∧
  (∀ (s : State) (p : Fin 16) (low : Bool), s.canon = true →
    Completes (.ctsChange p low) s fun t =>
      (t.port p).cts = (low != (s.port p).txFmt.line.getLsbD 7) ∧
      ((s.bit (SP_FLOW.CTS_EN p) && !s.twRuns p && (low != (s.port p).txFmt.line.getLsbD 7)) = true → t.bit (SP_STAT.CTS_HOLD p) = false)) ∧
  (∀ (s : State) (p : Fin 16) (low : Bool), s.canon = true →
    s.bit (SP_FLOW.CTS_EN p) = true ∧ s.txOn p = true ∧ low = (s.port p).txFmt.line.getLsbD 7 →
    (s.port p).txEnd ≤ s.time.tick * 65536 ∧ (s.txNext p).isSome = true ∧ s.txBarred p false = false →
    Completes (.ctsChange p low) s fun t =>
      t.bit (SP_STAT.CTS_HOLD p) = true) ∧
  (∀ (s : State) (p : Fin 16), s.canon = true →
    ∀ e, (s.port p).echoes.head? = some e →
    e.matched = false ∧ s.echoOpen p e = false ∧ s.bit (SP_ECHO.ECHO_EN p) = true ∧ s.echoBlind p = false ∧ s.twRuns p = false →
    Completes (.echoWindowClose p) s fun t =>
      (t.port p).echoes = (s.port p).echoes.tail ∧
      t.reg (SP_CNT_COLL p) = countUp (s.reg (SP_CNT_COLL p)) ∧
      t.bit (SP_EVT.COLLISION p) = true) ∧
  (∀ (s : State) (o : Origin) (p : Fin 16), s.canon = true →
    s.regExists (SP_CTRL p) = true →
    Completes (.collResume o p) s fun t =>
      t.bit (SP_STAT.COLL_HELD p) = false)

/-- A timed character is loaded, leaves far hold, and starts on its time or late. -/
def Obligations.LaunchesComplete : Prop :=
  (∀ (s : State) (p : Fin 16), s.canon = true →
    ∀ i, (s.port p).prefetch.head? = some i →
    tabWf (fun _ => none) (s.port p).launches = true →
    txCtrl i.word = 2 ∧ i.times.length = 2 ∧ (s.port p).launch i.q = none →
    Completes (.launchRegisterLoad p) s fun t =>
      (t.port p).prefetch = (s.port p).prefetch.tail ∧
      ((t.port p).launch i.q).map Launch.at_ = some (launchTime s.now (i.times.getD 0 0).toNat (i.times.getD 1 0).toNat)) ∧
  (∀ (s : State) (p : Fin 16) (k : Fin 4), s.canon = true →
    ∀ l, (s.port p).launch k = some l →
    tabWf (fun _ => none) (s.port p).launches = true →
    l.far = true →
    Completes (.farHoldEnd p k) s fun t =>
      (t.port p).launch k = some { l with far := false }) ∧
  (∀ (s : State) (p : Fin 16) (k : Fin 4), s.canon = true →
    ∀ l, (s.port p).launch k = some l →
    tabWf (fun _ => none) (s.port p).launches = true →
    s.onTime p k l = true ∧ ((s.port p).de = false ∨ (s.port p).deFor ≠ some k.val) →
    Completes (.launchOnTime p k) s fun t =>
      (t.port p).launch k = none ∧
      t.reg (SP_CNT_TXCHAR p) = countUp (s.reg (SP_CNT_TXCHAR p))) ∧
  (∀ (s : State) (p : Fin 16) (k : Fin 4), s.canon = true →
    ∀ l, (s.port p).launch k = some l →
    tabWf (fun _ => none) (s.port p).launches = true →
    s.txOn p = true ∧ l.far = false ∧ s.txHeld p false = false ∧ (s.port p).xpend = [] ∧ l.behind = none ∧ s.onTime p k l = false →
    Completes (.launchLate p k) s fun t =>
      (t.port p).launch k = none ∧
      t.bit (SP_TEVT.LATE p) = true ∧
      t.reg (SP_CNT_LATE p) = countUp (s.reg (SP_CNT_LATE p)))

/-- A schedule starts listening, a first node times its first cycle, cycles follow each other, and RUN 0 ends it. -/
def Obligations.ScheduleStartsAndStops : Prop :=
  (∀ (s : State) (o : Origin) (p : Fin 16), s.canon = true →
    s.regExists (TW_CTRL p) = true →
    (s.tw p).phase = .off →
    Completes (.twRunStart o p) s fun t =>
      t.bit (TW_CTRL.RUN p) = true ∧
      ((t.tw p).phase = .listen ∨ (t.tw p).phase = .starting) ∧
      t.twRuns p = true) ∧
  (∀ (s : State) (p : Fin 16), s.canon = true →
    (s.tw p).role = true ∧ (s.tw p).phase = .listen →
    Completes (.fnListenTimeout p) s fun t =>
      (t.tw p).phase = .starting) ∧
  (∀ (s : State) (p : Fin 16), s.canon = true →
    (s.tw p).phase = .starting →
    Completes (.twFirstCycleStart p) s fun t =>
      (t.tw p).phase = .running ∧
      (t.tw p).cyc.start = (s.tw p).from_ ∧
      t.reg (TW_CNT_CYCLES p) = countUp (s.reg (TW_CNT_CYCLES p))) ∧
  (∀ (s : State) (p : Fin 16) (flips : List (Fin 777 × Word)), s.canon = true →
    (s.tw p).phase = .running ∧ (s.tw p).role = true ∧ s.runs .port = true ∧ flips = [] →
    (s.tw p).stop = false ∧ (s.tw p).restart = false ∧ (s.port p).reload = none ∧ (s.port p).brk = none →
    (s.tw p).sending = none ∧ (s.tw p).bufs = [] ∧ (s.tw p).request = none →
    Completes (.cycleBoundary p flips) s fun t =>
      (t.tw p).cyc.k = ((s.tw p).cyc.k + 1) % 0x10000 ∧
      t.reg (TW_CNT_CYCLES p) = countUp (s.reg (TW_CNT_CYCLES p))) ∧
  (∀ (s : State) (o : Origin) (p : Fin 16), s.canon = true →
    s.regExists (TW_CTRL p) = true →
    (s.tw p).cycling = true →
    Completes (.twRunStop o p) s fun t =>
      t.bit (TW_CTRL.RUN p) = false ∧
      (t.tw p).stop = true)

/-- A table commit loads the edit copy, a switch is requested at a running first node, and it is decided at its cycle. -/
def Obligations.ModeSwitchesComplete : Prop :=
  (∀ (s : State) (o : Origin) (p : Fin 16) (modes : BitVec 4), s.canon = true →
    s.regExists (TW_TCOMMIT p) = true →
    tabWf (fun _ => {}) (s.tw p).modes = true →
    Completes (.twTableCommit o p modes) s fun t =>
      (∀ m : Fin 4, modes.getLsbD m = true → (if (s.tw p).busy m then ((t.tw p).mode m).pend.map (fun x => x.1) = some (buildRun ((s.tw p).mode m).edit (s.reg (TW_CYCLE p m)).toNat (s.rd (TW_GUARD.GUARD_NS p m))).1 else ((t.tw p).mode m).run = (buildRun ((s.tw p).mode m).edit (s.reg (TW_CYCLE p m)).toNat (s.rd (TW_GUARD.GUARD_NS p m))).1))) ∧
  (∀ (s : State) (o : Origin) (p : Fin 16) (v : Word), s.canon = true →
    s.regExists (TW_SWITCH p) = true →
    (s.tw p).role = false ∨ (s.tw p).phase ≠ .running →
    Completes (.twSwitch o p v) s fun t =>
      t.bit (TW_EVT.SWITCH_IGN p) = true ∧
      (t.tw p).request = (s.tw p).request) ∧
  (∀ (s : State) (o : Origin) (p : Fin 16) (v : Word), s.canon = true →
    s.regExists (TW_SWITCH p) = true →
    (s.tw p).role = true ∧ (s.tw p).phase = .running ∧ (s.tw p).request = none ∧ (s.tw p).decided = none →
    fldOf (TW_SWITCH.NEXT_MODE p) v ≠ (s.tw p).cyc.mode →
    Completes (.twSwitch o p v) s fun t =>
      (t.tw p).request.map TwSwitch.mode = some (fldOf (TW_SWITCH.NEXT_MODE p) v)) ∧
  (∀ (s : State) (p : Fin 16), s.canon = true →
    ∀ r, (s.tw p).request = some r →
    (s.tw p).phase = .running ∧ r.at_ = ((s.tw p).cyc.k + 1) % 0x10000 ∧ (s.tw p).heldSwitch = none →
    (List.range 8).all (fun i => s.reg (TW_ACK_SEEN p i) == 0xFFFFFFFF) = true →
    Completes (.switchDecision p) s fun t =>
      (t.tw p).request = none ∧
      (t.tw p).decided = some (r.at_, r.mode) ∧
      t.bit (TW_EVT.SWITCH_DONE p) = true)

/-- At its deadline a slot passes or its frame is built, at its start the frame is sent, at its end its owner counts; a frame is
judged, a SYNC missed. -/
def Obligations.SlotsComplete : Prop :=
  (∀ (s : State) (p : Fin 16) (e : Fin 64), s.canon = true →
    ∀ c, s.slotToCommit p e = some c →
    (s.tw p).ownsIn c.1 c.2.1 = true ∧ s.runs .port = true ∧ c.2.2 = false →
    (s.tw p).guard.muzzled = true ∧ (s.tw p).forfeit = false ∧ (s.tw p).bufs = [] →
    Completes (.slotCommitDeadline p e) s fun t =>
      (t.tw p).cyc.done = e.val :: (s.tw p).cyc.done ∧
      (t.tw p).bufs = [] ∧
      t.reg (SF_CNT_WITHHELD p) = countUp (s.reg (SF_CNT_WITHHELD p))) ∧
  (∀ (s : State) (p : Fin 16) (e : Fin 64), s.canon = true →
    ∀ c, s.slotToCommit p e = some c →
    (s.tw p).role = true ∧ (s.tw p).phase = .running ∧ s.runs .port = true ∧ c.2.2 = false ∧ c.2.1.kind = 1 →
    (s.tw p).guard.muzzled = false ∧ (s.tw p).forfeit = false ∧ (s.tw p).bufs = [] ∧ s.slotFits p 20 c.2.1 = true →
    Completes (.slotCommitDeadline p e) s fun t =>
      (t.tw p).cyc.done = e.val :: (s.tw p).cyc.done ∧
      (t.tw p).bufs = [{ entry := e.val, next := false, kind := 1, head := s.syncHead p c.1 }]) ∧
  (∀ (s : State) (p : Fin 16) (e : Fin 64) (edge : Bool), s.canon = true →
    (s.tw p).cycling = true ∧ ((s.tw p).cyc.table.entry e).en = true ∧ (s.tw p).owns ((s.tw p).cyc.table.entry e) = true →
    s.runs .port = true ∧ (s.tw p).waiting = [] ∧ (s.tw p).sending = none →
    (s.tw p).bufs = [] ∧ s.bit (SP_STAT.BAUD_SETTLING p) = true →
    Completes (.slotStart p e edge) s fun t =>
      t.reg (TW_CNT_SETTLE p) = countUp (s.reg (TW_CNT_SETTLE p))) ∧
  (∀ (s : State) (p : Fin 16) (e : Fin 64) (edge : Bool), s.canon = true →
    ∀ b, (s.tw p).bufs.head? = some b →
    (s.tw p).cycling = true ∧ ((s.tw p).cyc.table.entry e).en = true ∧ (s.tw p).owns ((s.tw p).cyc.table.entry e) = true →
    s.runs .port = true ∧ (s.tw p).waiting = [] ∧ (s.tw p).sending = none ∧ b.entry = e.val ∧ b.next = false ∧ b.kept = false →
    s.bit (SP_STAT.BAUD_SETTLING p) = false ∧ s.bit (SP_CTRL.TX_PAUSE p) = false ∧ (s.tw p).forfeit = false ∧ (s.tw p).guard.muzzled = false →
    (s.tw p).role = true ∧ ((s.tw p).cyc.table.entry e).kind = 2 ∧ (s.tw p).elder b = none ∧ s.frameFits p ((s.tw p).cyc.table.entry e) b = true →
    b.head ≠ [] →
    Completes (.slotStart p e edge) s fun t =>
      (t.tw p).sending.map (fun x => (x.entry, x.payload)) = some (b.entry, b.payload) ∧
      (t.tw p).chars = b.chars.tail ∧
      t.reg (SP_CNT_TXCHAR p) = countUp (s.reg (SP_CNT_TXCHAR p))) ∧
  (∀ (s : State) (p : Fin 16) (e : Fin 64), s.canon = true →
    (s.tw p).cycling = true ∧ ((s.tw p).cyc.table.entry e).en = true ∧ s.runs .time = true →
    Completes (.slotEnd p e) s fun t =>
      ((s.tw p).cyc.slotEnd ((s.tw p).cyc.table.entry e) ≤ t.now ∨ t.coarse = true)) ∧
  (∀ (s : State) (p : Fin 16) (e : Fin 64), s.canon = true →
    ∀ x, some ((s.tw p).cyc.table.entry e) = some x →
    tabWf (fun _ => 0) (s.tw p).silent = true →
    (s.tw p).role = true ∧ (s.tw p).phase = .running ∧ x.en = true ∧ x.kind = 2 ∧ (s.tw p).asm = [] ∧ (s.tw p).frames = [] ∧ (s.tw p).bufs = [] →
    (s.tw p).pkt = none ∧ (s.expected p (s.tw p).cyc.table).contains x.owner = true ∧ 0 < s.rd (SF_SILENT.SILENT_CYC p) →
    (s.tw p).cyc.table.slots.all (fun y => y.2.kind == 4 || y.2.kind != 2 || y.2.owner != x.owner || decide (y.2.start ≤ x.start)) = true →
    (s.tw p).cyc.table.slots.all (fun y => y.2.kind != 4) = true →
    Completes (.slotEnd p e) s fun t =>
      (tabGet (fun _ => 0) (t.tw p).silent x.owner = if (s.tw p).cyc.heard.contains x.owner then 0 else tabGet (fun _ => 0) (s.tw p).silent x.owner + 1) ∧
      ((s.tw p).cyc.heard.contains x.owner = false ∧
      s.rd (SF_SILENT.SILENT_CYC p) ≤ tabGet (fun _ => 0) (s.tw p).silent x.owner + 1 → t.regBit (SF_ABSENT p (x.owner / 32)) (x.owner % 32) = true)) ∧
  (∀ (s : State) (p : Fin 16) (e : Fin 64), s.canon = true →
    (s.tw p).cycling = true ∧ ((s.tw p).cyc.table.entry e).en = true ∧ ((s.tw p).asm ≠ [] ∨ (s.tw p).frames ≠ []) ∧ (s.tw p).bufs = [] →
    Completes (.slotEnd p e) s fun t =>
      (t.tw p).cyc.ended = (s.tw p).cyc.ended ++ [e.val]) ∧
  (∀ (s : State) (p : Fin 16), s.canon = true →
    ∀ f, (s.tw p).frames.head? = some f →
    s.twRuns p = true ∧ (s.tw p).frames = [f] ∧ (s.tw p).pkt = none ∧ (s.verdict p f.1 f.2).1 ≠ 0 →
    Completes (.twFrameReceive p) s fun t =>
      (t.tw p).frames = [] ∧
      (t.reg (TW_CNT_CRC p) = (if (s.verdict p f.1 f.2).1 = 6 then countUp (s.reg (TW_CNT_CRC p)) else s.reg (TW_CNT_CRC p))) ∧
      (t.reg (TW_CNT_WINDOW p) = (if (s.verdict p f.1 f.2).1 = 7 then countUp (s.reg (TW_CNT_WINDOW p)) else s.reg (TW_CNT_WINDOW p))) ∧
      (t.reg (TW_CNT_TRUNC p) = (if (s.verdict p f.1 f.2).1 < 6 then countUp (s.reg (TW_CNT_TRUNC p)) else s.reg (TW_CNT_TRUNC p)))) ∧
  (∀ (s : State) (p : Fin 16), s.canon = true →
    ∀ f, (s.tw p).frames.head? = some f →
    ∀ e, ((s.tw p).mode (fieldOf (f.1.map (fun i => i.chr % 256)) 4 1)).run.sync = some e →
    s.twRuns p = true ∧ (s.tw p).role = false ∧ (s.tw p).phase = .listen ∧ (s.tw p).frames = [f] ∧ (s.tw p).asm = [] ∧ (s.tw p).align = false →
    (s.verdict p f.1 f.2).1 = 0 ∧ (f.1.map (fun i => i.chr % 256)).getD 4 0 < 4 →
    Completes (.twFrameReceive p) s fun t =>
      (t.tw p).frames = [] ∧
      (t.tw p).phase = .observe ∧
      (t.tw p).cyc.k = fieldOf (f.1.map (fun i => i.chr % 256)) 2 2 ∧
      (t.tw p).cyc.mode = fieldOf (f.1.map (fun i => i.chr % 256)) 4 1 ∧
      t.reg (TW_CNT_SYNC_RX p) = countUp (s.reg (TW_CNT_SYNC_RX p))) ∧
  (∀ (s : State) (p : Fin 16), s.canon = true →
    ∀ e, (s.tw p).cyc.table.sync = some e →
    (s.tw p).role = false ∧ (s.tw p).cyc.syncOk = false ∧ (s.tw p).phase = .joined ∧ (s.tw p).awaitSync = false →
    s.bit (SF_STAT.BUS_DEAD p) = false ∧ s.rd (SF_STAT.MISS p) < 2 →
    Completes (.syncMiss p) s fun t =>
      t.rd (SF_STAT.MISS p) = s.rd (SF_STAT.MISS p) + 1 ∧
      t.reg (SF_CNT_SYNC_MISS p) = countUp (s.reg (SF_CNT_SYNC_MISS p)) ∧
      t.bit (SF_EVT.SYNC_MISS p) = true ∧
      (t.tw p).phase = .joined ∧
      (s.rd (SF_STAT.MISS p) = 1 → (t.tw p).withholdNext = true)) ∧
  (∀ (s : State) (p : Fin 16), s.canon = true →
    ∀ e, (s.tw p).cyc.table.sync = some e →
    (s.tw p).role = false ∧ (s.tw p).cyc.syncOk = false ∧ (s.tw p).phase = .joined ∧ (s.tw p).awaitSync = false →
    s.bit (SF_STAT.BUS_DEAD p) = false ∧ s.rd (SF_STAT.MISS p) = 2 ∧ (s.port p).de = false →
    Completes (.syncMiss p) s fun t =>
      t.reg (SF_CNT_SYNC_MISS p) = countUp (s.reg (SF_CNT_SYNC_MISS p)) ∧
      t.bit (SF_EVT.SYNC_LOST p) = true ∧
      (t.tw p).phase = .listen ∧
      t.rd (SF_STAT.LEAVE_CAUSE p) = 1)

/-- The guardian checks its copies, predicts boundaries, is muzzled, unmuzzled and cleared, and energy outside slots counts. -/
def Obligations.GuardianComplete : Prop :=
  (∀ (s : State) (p : Fin 16) (m : Fin 4) (upset : Word), s.canon = true →
    ∀ x, tabGet (fun _ => (none : Option (TwTable × Nat))) (s.tw p).guard.loads m = some x →
    tabWf (fun _ => none) (s.tw p).guard.loads = true →
    ((s.tw p).mode m).pend.isSome = true ∧ upset = 0 →
    Completes (.guardianCopyCheck p m upset) s fun t =>
      t.reg (GD_CRC p m) = x.1.crc) ∧
  (∀ (s : State) (p : Fin 16) (m : Fin 4) (upset : Word), s.canon = true →
    ∀ x, tabGet (fun _ => (none : Option (TwTable × Nat))) (s.tw p).guard.loads m = some x →
    upset ≠ 0 ∧ (s.port p).de = false →
    Completes (.guardianCopyCheck p m upset) s fun t =>
      (t.tw p).guard.muzzled = true ∧
      (t.tw p).guard.cause = 2 ∧
      t.bit (SF_EVT.COPY_FAIL p) = true) ∧
  (∀ (s : State) (p : Fin 16) (flips : List (Fin 777 × Word)), s.canon = true →
    (s.tw p).guard.anchored = true ∧ (s.tw p).guard.predicted = false →
    flips = [] ∧ (s.tw p).guard.whole = (s.tw p).guard.ref ∧ (s.port p).de = false →
    Completes (.guardianPredictedBoundary p flips) s fun t =>
      (t.tw p).guard.predicted = true ∧
      (t.tw p).guard.g = (s.tw p).guard.next ∧
      (t.tw p).guard.k = ((s.tw p).guard.k + 1) % 0x10000) ∧
  (∀ (s : State) (o : Origin) (p : Fin 16), s.canon = true →
    s.regExists (GD_CTRL p) = true ∧ (s.port p).de = false →
    Completes (.muzzle o p) s fun t =>
      (t.tw p).guard.muzzled = true ∧
      (t.tw p).guard.openAt t.time.tick = false ∧
      (t.tw p).guard.cause = 4 ∧
      ((s.tw p).guard.muzzled = false → t.bit (SF_EVT.MUZZLED p) = true)) ∧
  (∀ (s : State) (o : Origin) (p : Fin 16), s.canon = true →
    s.regExists (GD_CTRL p) = true →
    (s.tw p).guard.muzzled = true →
    Completes (.unmuzzle o p) s fun t =>
      (t.tw p).guard.unmuzzle = true ∧
      (t.tw p).guard.muzzled = true) ∧
  (∀ (s : State) (o : Origin) (p : Fin 16), s.canon = true →
    s.regExists (GD_CTRL p) = true →
    Completes (.clrHist o p) s fun t =>
      (t.tw p).guard.hist = []) ∧
  (∀ (s : State) (p : Fin 16), s.canon = true →
    ∀ k, (s.tw p).lastEdge = some k →
    s.twRuns p = true →
    (s.tw p).phase = .joined ∨ (s.tw p).phase = .running →
    (s.intruded p k (s.tw p).cyc (s.tw p).cyc.intruded).isSome = true →
    Completes (.foreignEnergy p) s fun t =>
      t.reg (SF_CNT_INTRUDE p) = countUp (s.reg (SF_CNT_INTRUDE p)) ∧
      t.bit (SF_EVT.INTRUDE p) = true)

/-- A push appends its word, a pop advances the read pointer and answers the word, a peek and the status reads only answer. -/
def Obligations.WindowsPushAndPop : Prop :=
  (∀ (s : State) (m : Master) (k : BitVec 16) (v : PushVal), s.canon = true →
    s.runs .core = true ∧ s.takesWord k.toNat = true ∧ (s.queue k.toNat).anyTorn = false →
    Completes (.queuePush m (.num k) v) s fun t =>
      (t.queue k.toNat).words = (s.queue k.toNat).words ++ [pushWord v] ∧
      (t.queue k.toNat).pushed = (s.queue k.toNat).pushed + 1) ∧
  (∀ (s : State) (m : Master) (v : PushVal), s.canon = true →
    s.runs .core = true →
    Completes (.queuePush m .log v) s fun t =>
      t = s) ∧
  (∀ (s : State) (m : Master) (q : QRef) (v : PushVal), s.canon = true →
    s.runs .core = false →
    Completes (.queuePush m q v) s fun t =>
      t.endpoint = s.endpoint ++ [.push m q (pushWord v)]) ∧
  (∀ (s : State) (k : BitVec 16) (ws : List QWord), s.canon = true →
    s.runs .core = true ∧ (s.queue k.toNat).ex = true ∧ (s.queue k.toNat).cfg.mode = 0 ∧ (s.queue k.toNat).anyTorn = false →
    1 ≤ ws.length ∧ ws.length ≤ 16 ∧ (s.storeAll k.toNat (s.queue k.toNat) ws).isSome = true →
    Completes (.queueGroupPush k ws) s fun t =>
      (t.queue k.toNat).words = (s.queue k.toNat).words ++ ws) ∧
  (∀ (s : State) (m : Master) (k : BitVec 16) (part : ReadPart), s.canon = true →
    ∀ w, s.wordAt k.toNat = some w →
    s.runs .core = true ∧ (s.queue k.toNat).anyTorn = false ∧ part ≠ .upper →
    Completes (.queuePop m (.num k) part) s fun t =>
      (t.queue k.toNat).rd = (s.queue k.toNat).rd + 1 ∧
      (t.queue k.toNat).popped = (s.queue k.toNat).popped + 1) ∧
  (∀ (s : State) (m : Master) (q : QRef), s.canon = true →
    Completes (.queuePop m q .upper) s fun t =>
      t.out = s.out ++ [.answer m (tabGet (fun _ => 0) s.windowSnaps m.num >>> 32)]) ∧
  (∀ (s : State) (m : Master) (k : BitVec 16), s.canon = true →
    ∀ w, s.wordAt k.toNat = some w →
    s.runs .core = true ∧ (s.queue k.toNat).anyTorn = false ∧ (s.queue k.toNat).hurt = [] →
    Completes (.queuePop m (.num k) .whole) s fun t =>
      t.out.getLast? = some (.answer m (popWord w (s.queue k.toNat).cut))) ∧
  (∀ (s : State) (m : Master) (k : BitVec 16) (part : ReadPart), s.canon = true →
    ∀ w, s.wordAt k.toNat = some w →
    s.runs .core = true ∧ (s.queue k.toNat).anyTorn = false ∧ (s.queue k.toNat).hurt = [] ∧ part ≠ .upper →
    Completes (.queuePeek m (.num k) part) s fun t =>
      t.queues = s.queues ∧
      (t.out = s.out ++ [.answer m (if part = .whole then popWord w (s.queue k.toNat).cut else popWord w (s.queue k.toNat).cut &&& 0xFFFFFFFF)])) ∧
  (∀ (s : State) (m : Master) (q : QRef), s.canon = true →
    s.runs .core = true ∧ (s.qref q).anyTorn = false →
    Completes (.queueStatRead m q .whole) s fun t =>
      t.out = s.out ++ [.answer m (s.qref q).stat] ∧
      tabGet (fun _ => 0) t.windowSnaps m.num = (s.qref q).stat) ∧
  (∀ (s : State) (m : Master) (q : QRef), s.canon = true →
    s.runs .core = true ∧ (s.qref q).anyTorn = false →
    Completes (.queueLostRead m q .whole) s fun t =>
      t.out = s.out ++ [.answer m (s.qref q).lostWord]) ∧
  (∀ (s : State) (m : Master) (q : QRef), s.canon = true →
    Completes (.badAccess m (WindowAccess.mk q .badRead)) s fun t =>
      t.reg QF_CNT_BADACC = countUp (s.reg QF_CNT_BADACC) ∧
      t.bit QF_EVT.BAD_ACCESS = true ∧
      t.out = s.out ++ [.answer m 0]) ∧
  (∀ (s : State) (m : Master) (q : QRef), s.canon = true →
    Completes (.badAccess m (WindowAccess.mk q .badWrite)) s fun t =>
      t.reg QF_CNT_BADACC = countUp (s.reg QF_CNT_BADACC) ∧
      t.bit QF_EVT.BAD_ACCESS = true ∧
      t.out = s.out) ∧
  (∀ (s : State) (m : Master) (q : QRef), s.canon = true →
    Completes (.badAccess m (WindowAccess.mk q .zeroRead)) s fun t =>
      t = s.emit (.answer m 0)) ∧
  (∀ (s : State) (m : Master) (q : QRef), s.canon = true →
    Completes (.badAccess m (WindowAccess.mk q .deadWrite)) s fun t =>
      t = s) ∧
  (∀ (s : State) (m : Master) (k : BitVec 16), s.canon = true →
    s.runs .core = true ∧ (s.queue k.toNat).anyTorn = false →
    Completes (.badAccess m (WindowAccess.mk (.num k) (.span 3 2))) s fun t =>
      t.out = s.out ++ [.answer m (s.queue k.toNat).stat, .answer m 0] ∧
      t.queues = s.queues)

/-- CMD marks, unmarks, rewinds, releases, resets and clears a queue, and does nothing where its operation is none. -/
def Obligations.WindowCommandsComplete : Prop :=
  (∀ (s : State) (m : Master) (q : QRef) (c : CmdCount), s.canon = true →
    s.runs .core = true ∧ (s.qref q).anyTorn = false →
    Completes (.nop m q c) s fun t =>
      t.queues = s.queues ∧
      t.log = s.log) ∧
  (∀ (s : State) (m : Master) (q : QRef) (c : CmdCount), s.canon = true →
    s.runs .core = true ∧ (s.qref q).ex = true ∧ (s.qref q).anyTorn = false →
    Completes (.mark m q c) s fun t =>
      (t.qref q).mark = some (s.qref q).rd) ∧
  (∀ (s : State) (m : Master) (q : QRef) (c : CmdCount), s.canon = true →
    s.runs .core = true ∧ (s.qref q).ex = true ∧ (s.qref q).anyTorn = false →
    Completes (.unmark m q c) s fun t =>
      (t.qref q).mark = none) ∧
  (∀ (s : State) (m : Master) (q : QRef) (c : CmdCount), s.canon = true →
    s.runs .core = true ∧ (s.qref q).ex = true ∧ (s.qref q).anyTorn = false →
    Completes (.rewind m q c) s fun t =>
      (t.qref q).rd = (s.qref q).mark.getD (s.qref q).rl) ∧
  (∀ (s : State) (m : Master) (k : BitVec 16) (n : Word), s.canon = true →
    s.runs .core = true ∧ (s.queue k.toNat).anyTorn = false ∧ (s.queue k.toNat).ex = true →
    Completes (.release m (.num k) (.whole n)) s fun t =>
      ((t.queue k.toNat).rl = (s.queue k.toNat).rl + (if n = 0 then (s.queue k.toNat).unrel else min n.toNat (s.queue k.toNat).unrel))) ∧
  (∀ (s : State) (m : Master) (n : Word), s.canon = true →
    s.runs .core = true ∧ n ≠ 0 →
    Completes (.release m .log (.whole n)) s fun t =>
      t.log.q.rl = s.log.q.rl + min (n.toNat / 8 * 8) (s.logQueue.unrel / 8 * 8)) ∧
  (∀ (s : State) (m : Master) (q : QRef) (c : CmdCount), s.canon = true →
    s.runs .core = true ∧ (s.qref q).ex = true ∧ (s.qref q).anyTorn = false →
    Completes (.releasePkt m q c) s fun t =>
      (t.qref q).rl = (s.qref q).rl + throughLastEnd ((s.qref q).words.take (s.qref q).unrel)) ∧
  (∀ (s : State) (m : Master) (k : BitVec 16) (c : CmdCount), s.canon = true →
    s.runs .core = true ∧ (s.queue k.toNat).anyTorn = false ∧ (s.queue k.toNat).ex = true →
    Completes (.queueReset m (.num k) c) s fun t =>
      (t.queue k.toNat).words = [] ∧
      (t.queue k.toNat).lost = sat32 ((s.queue k.toNat).lost + (s.queue k.toNat).words.length) ∧
      (t.queue k.toNat).chain = []) ∧
  (∀ (s : State) (m : Master) (c : CmdCount), s.canon = true →
    s.runs .core = true →
    Completes (.queueReset m .log c) s fun t =>
      t.bit EL_EVT.RESET = true) ∧
  (∀ (s : State) (m : Master) (q : QRef) (c : CmdCount), s.canon = true →
    s.runs .core = true ∧ (s.qref q).ex = true ∧ (s.qref q).anyTorn = false →
    Completes (.clrOverrun m q c) s fun t =>
      (t.qref q).overrun = false) ∧
  (∀ (s : State) (m : Master) (k : BitVec 16) (c : CmdCount), s.canon = true →
    s.runs .core = true ∧ (s.queue k.toNat).anyTorn = false ∧ (s.queue k.toNat).ex = true →
    Completes (.clrLost m (.num k) c) s fun t =>
      (t.queue k.toNat).lost = 0 ∧
      (t.queue k.toNat).lostPkt = 0) ∧
  (∀ (s : State) (m : Master) (c : CmdCount), s.canon = true →
    s.runs .core = true ∧ s.log.q.words.length + 16 ≤ s.logCap * 8 →
    Completes (.clrLost m .log c) s fun t =>
      t.log.q.lost = 0) ∧
  (∀ (s : State) (m : Master) (q : QRef) (c : CmdCount), s.canon = true →
    s.runs .core = true ∧ (s.qref q).ex = true ∧ (s.qref q).anyTorn = false →
    Completes (.badCmd m q c) s fun t =>
      t.bit QF_EVT.BAD_CMD = true ∧
      t.queues = s.queues)

/-- CREATE, MODIFY, DELETE, READ and SNAP act on the queue that the origin has staged, and a pointer fault resets its queue. -/
def Obligations.QueueChangesComplete : Prop :=
  (∀ (s : State) (o : Origin), s.canon = true →
    s.fabricUp = true ∧ s.reloading QF_QCMD = false ∧ (s.queue ((s.stage o 0).toNat % 0x10000)).ex = false →
    s.ledger.awaits ((s.stage o 0).toNat % 0x10000) (s.queue ((s.stage o 0).toNat % 0x10000)).gen = false →
    (fitEdge (8388608 - s.edgeUsed) 0 (s.stagedCfg o).edge).isSome = true →
    Completes (.create o) s fun t =>
      (t.queue ((s.stage o 0).toNat % 0x10000)).ex = true ∧
      (t.queue ((s.stage o 0).toNat % 0x10000)).cfg = s.stagedCfg o ∧
      (t.queue ((s.stage o 0).toNat % 0x10000)).words = []) ∧
  (∀ (s : State) (o : Origin), s.canon = true →
    s.fabricUp = true ∧ s.reloading QF_QCMD = false →
    (s.queue ((s.stage o 0).toNat % 0x10000)).ex = true ∧ (s.queue ((s.stage o 0).toNat % 0x10000)).anyTorn = false →
    Completes (.modify o) s fun t =>
      (t.queue ((s.stage o 0).toNat % 0x10000)).cfg = s.stagedCfg o) ∧
  (∀ (s : State) (o : Origin), s.canon = true →
    s.fabricUp = true ∧ s.reloading QF_QCMD = false →
    (s.queue ((s.stage o 0).toNat % 0x10000)).ex = true ∧ (s.queue ((s.stage o 0).toNat % 0x10000)).anyTorn = false →
    Completes (.delete o) s fun t =>
      (t.queue ((s.stage o 0).toNat % 0x10000)).ex = false ∧
      (t.queue ((s.stage o 0).toNat % 0x10000)).gen = ((s.queue ((s.stage o 0).toNat % 0x10000)).gen + 1) % 0x10000 ∧
      (t.queue ((s.stage o 0).toNat % 0x10000)).lost = sat32 ((s.queue ((s.stage o 0).toNat % 0x10000)).lost + (s.queue ((s.stage o 0).toNat % 0x10000)).words.length)) ∧
  (∀ (s : State) (o : Origin), s.canon = true →
    s.fabricUp = true ∧ s.reloading QF_QCMD = false →
    (s.queue ((s.stage o 0).toNat % 0x10000)).ex = true ∧ (s.queue ((s.stage o 0).toNat % 0x10000)).anyTorn = false →
    Completes (.read o) s fun t =>
      t.stagedCfg o = { (s.queue ((s.stage o 0).toNat % 0x10000)).cfg with w0 := (s.queue ((s.stage o 0).toNat % 0x10000)).liveCfg0 }) ∧
  (∀ (s : State) (o : Origin), s.canon = true →
    s.fabricUp = true ∧ s.reloading QF_QCMD = false →
    (s.queue ((s.stage o 0).toNat % 0x10000)).ex = true ∧ (s.queue ((s.stage o 0).toNat % 0x10000)).anyTorn = false →
    Completes (.snap o) s fun t =>
      t.reg QI_HELD_LO = BitVec.ofNat 32 (s.queue ((s.stage o 0).toNat % 0x10000)).held ∧
      t.reg QI_READY_LO = BitVec.ofNat 32 (s.queue ((s.stage o 0).toNat % 0x10000)).ready ∧
      t.reg QI_LOST = BitVec.ofNat 32 (s.queue ((s.stage o 0).toNat % 0x10000)).lost) ∧
  (∀ (s : State) (o : Origin) (op : BitVec 3), s.canon = true →
    s.fabricUp = true ∧ s.reloading QF_QCMD = false →
    Completes (.qcmdIgnored o op) s fun t =>
      t.bit QF_EVT.BAD_CMD = true ∧
      t.queues = s.queues) ∧
  (∀ (s : State) (upsets : List Upset), s.canon = true →
    s.runs .core = true →
    Completes (.pointerScrub upsets) s fun t =>
      upsets.all (fun u => u.late || u.link.isSome || !(s.queue u.queue.toNat).ex || ((t.queue u.queue.toNat).fault && (t.queue u.queue.toNat).words.isEmpty)) = true ∧
      s.queues.all (fun e => !(s.queue e.1).anyTorn || ((t.queue e.1).fault && (t.queue e.1).words.isEmpty)) = true)

/-- A burst moves tail words to the middle and lands there, a read brings a block back, and a snapshot captures a queue. -/
def Obligations.EddyStoreComplete : Prop :=
  (∀ (s : State) (q : BitVec 16), s.canon = true →
    s.runs .core = true ∧ (s.queue q.toNat).ex = true ∧ (s.queue q.toNat).anyTorn = false ∧ 16 ≤ (s.queue q.toNat).settle.tail →
    s.spillReady q.toNat (s.queue q.toNat).settle = false ∨ s.spillTurn = some q.toNat →
    (s.moveBurst q.toNat (s.queue q.toNat).settle).isSome = true →
    Completes (.spillBurst q) s fun t =>
      (t.queue q.toNat).words = (s.queue q.toNat).words ∧
      ((t.queue q.toNat).chain.map (fun b => b.fill + b.flight)).sum = ((s.queue q.toNat).chain.map (fun b => b.fill + b.flight)).sum + 16) ∧
  (∀ (s : State) (q : BitVec 16), s.canon = true →
    ∀ c, landBurst (s.queue q.toNat).chain = some c →
    s.eddyRuns = true ∧ (s.queue q.toNat).anyTorn = false ∧ c.all (fun b => !b.spent) = true →
    Completes (.spillDone q) s fun t =>
      (t.queue q.toNat).chain = c ∧
      t.reg ED_CNT_SPILL = countUp (s.reg ED_CNT_SPILL)) ∧
  (∀ (s : State) (q : BitVec 16) (prefetch : Bool), s.canon = true →
    ∀ i, (if prefetch then (s.queue q.toNat).prefetchNext (s.depth (s.queue q.toNat)) else (s.queue q.toNat).demand) = some i →
    s.refillTurn = some (q.toNat, prefetch) ∧ (s.queue q.toNat).anyTorn = false ∧ (prefetch = true ∨ s.headStuck (s.queue q.toNat) = false) →
    Completes (.refillRead q prefetch) s fun t =>
      t.queue q.toNat = (s.queue q.toNat).startRead i s.now prefetch (!s.bufferFor (s.queue q.toNat)) ∧
      t.ledger.lastRefill = some q.toNat ∧
      (prefetch = true → t.reg ED_CNT_PREFETCH = countUp (s.reg ED_CNT_PREFETCH))) ∧
  (∀ (s : State) (q : BitVec 16) (bad : List (Fin 1024)), s.canon = true →
    ∀ x, readingAt (s.queue q.toNat).chain (s.queue q.toNat).head 0 = some x →
    s.eddyRuns = true ∧ bad = [] ∧ (s.queue q.toNat).hurt = [] →
    Completes (.refillDone q bad) s fun t =>
      ((t.queue q.toNat).chain.getD x.2.2 x.1).buf ≠ x.1.buf ∧
      (t.queue q.toNat).words = (s.queue q.toNat).words ∧
      (t.reg ED_CNT_REFILL = (match x.1.buf with | .reading _ none _ _ => countUp (s.reg ED_CNT_REFILL) | _ => s.reg ED_CNT_REFILL))) ∧
  (∀ (s : State) (m : Master) (q : BitVec 16), s.canon = true →
    s.fabricUp = true →
    Completes (.edQsel m q) s fun t =>
      t.reg ED_QSEL = BitVec.ofNat 32 q.toNat ∧
      (t.reg ED_QRES = BitVec.ofNat 32 (if (s.queue q.toNat).ex then (s.queue q.toNat).grant else 0)))

/-- The ledger finds a pool out of balance and nothing else, sweeps start and end, terms are captured, and bounces counted. -/
def Obligations.LedgerComplete : Prop :=
  (∀ (s : State), s.canon = true →
    s.runs .core = true ∧ s.ledger.fails = [] →
    s.ledger.eddy.free + s.ledger.eddy.held + s.ledger.eddy.flight + s.ledger.eddy.reclaim = s.ledger.eddy.total →
    s.ledger.onChip.free + s.ledger.onChip.held + s.ledger.onChip.flight + s.ledger.onChip.reclaim = s.ledger.onChip.total →
    (s.queues.map (fun e => e.2.ledgerE)).sum = s.ledger.eddy.held ∧ (s.queues.map (fun e => e.2.ledgerO)).sum = s.ledger.onChip.held →
    (List.range 4).all (fun l => s.linkState l != lkUp) = true ∧ (List.range 64).all (fun n => decide ((s.cq n).written + (s.cq n).reserved ≤ s.cqSize n)) = true →
    (s.ledger.tags.length : Int) = (s.ledger.issued : Int) - s.ledger.completed ∧ s.ledger.tagsFree + s.ledger.tags.length = 4096 →
    (List.range 16).all (fun n => s.slotAudit n) = true →
    Completes (.ledgerCheck) s fun t =>
      t = s) ∧
  (∀ (s : State), s.canon = true →
    s.runs .core = true ∧ s.ledger.fails = [] →
    s.ledger.eddy.free + s.ledger.eddy.held + s.ledger.eddy.flight + s.ledger.eddy.reclaim ≠ s.ledger.eddy.total →
    Completes (.ledgerCheck) s fun t =>
      t.regBit LG_EVT 0 = true ∧
      t.ledger.nextSweep = some true) ∧
  (∀ (s : State), s.canon = true →
    ∀ r, s.ledger.nextSweep = some r →
    s.ledger.sweep = none ∧ s.runs .core = true →
    Completes (.sweepStart) s fun t =>
      t.ledger.sweep = some r ∧
      t.ledger.nextSweep = none) ∧
  (∀ (s : State), s.canon = true →
    s.ledger.sweep.isSome = true ∧ s.ledger.createWait = [] ∧ s.runs .core = true →
    Completes (.sweepDone) s fun t =>
      t.ledger.awaiting = [] ∧
      t.ledger.sweep = s.ledger.nextSweep ∧
      t.ledger.onChip.reclaim = 0) ∧
  (∀ (s : State) (o : Origin), s.canon = true →
    s.runs .core = true →
    Completes (.recount o) s fun t =>
      t.ledger.nextSweep = some true) ∧
  (∀ (s : State) (o : Origin), s.canon = true →
    s.runs .core = true →
    Completes (.ledgerSnap o) s fun t =>
      t.reg LG_TAG_OUT = BitVec.ofNat 32 s.ledger.tags.length ∧
      t.reg LG_E_TOTAL = BitVec.ofNat 32 s.ledger.eddy.total) ∧
  (∀ (s : State) (u : DownUnit) (waiting : BitVec 32), s.canon = true →
    (∀ k : Fin 12, u = .cluster k → s.bit (CL_CTRL.PWR_OFF k) = false) →
    Completes (.domainBounce u waiting) s fun t =>
      t.reg LG_CNT_BOUNCE = BitVec.ofNat 32 (sat32 ((s.reg LG_CNT_BOUNCE).toNat + waiting.toNat)) ∧
      t.bit LG_EVT.BOUNCE = true ∧
      t.ledger.bounced.contains u = true)

/-- A submission of the host sets the rate, slews or schedules a step; CANCEL drops both; a step and a slew end as they say. -/
def Obligations.TimeCorrectionsComplete : Prop :=
  (∀ (s : State) (o : Origin), s.canon = true →
    s.hostSteers = true →
    Completes (.tbSubmitRate o) s fun t =>
      t.rdInt TB_ADDEND = clip32 (s.rdInt TB_HADJ_RATE) ∧
      t.srcValid 1 = true) ∧
  (∀ (s : State) (o : Origin), s.canon = true →
    s.coarse = true →
    Completes (.tbSubmitRate o) s fun t =>
      t.reg TB_CNT_ADJIGN = countUp (s.reg TB_CNT_ADJIGN) ∧
      t.bit TB_EVT.ADJ_IGN = true) ∧
  (∀ (s : State) (o : Origin) (add : Bool), s.canon = true →
    s.hostSteers = true ∧ add = false ∧ s.hostOffset.natAbs ≤ 1000000 →
    Completes (.tbSubmitOffset o add) s fun t =>
      t.time.slew = s.hostOffset * unit32 ∧
      t.time.step = none) ∧
  (∀ (s : State) (o : Origin) (add : Bool), s.canon = true →
    s.hostSteers = true ∧ add = false ∧ 1000000 < s.hostOffset ∧ s.hostOffset < second ∧ s.now < timeMax - 10 * second →
    Completes (.tbSubmitOffset o add) s fun t =>
      t.time.step.map (fun x => (x.b, x.theta)) = some (stepBoundary s.now, s.hostOffset) ∧
      t.time.slew = 0) ∧
  (∀ (s : State) (o : Origin), s.canon = true →
    s.hostSteers = true ∧ (s.now : Int) + 1000000 < s.hostSet ∧ s.now < timeMax / 4 ∧ s.hostSet < timeMax / 4 →
    Completes (.tbSubmitSet o) s fun t =>
      t.time.step.map (fun x => (x.b, x.theta)) = some (stepBoundary s.now, (s.hostSet : Int) - s.now)) ∧
  (∀ (s : State) (o : Origin), s.canon = true →
    Completes (.tbCancel o) s fun t =>
      t.time.step = none ∧
      t.time.slew = 0 ∧
      t.time.slewing = false) ∧
  (∀ (s : State), s.canon = true →
    s.time.step.isSome = true →
    Completes (.timeStep) s fun t =>
      t.time.step = none ∧
      t.rd TB_TIME_SH.STEP_SEQ = (s.rd TB_TIME_SH.STEP_SEQ + 1) % 256 ∧
      t.reg TB_CNT_STEP = countUp (s.reg TB_CNT_STEP) ∧
      t.bit TB_EVT.STEP = true) ∧
  (∀ (s : State), s.canon = true →
    s.time.slewing = true ∧ s.coarse = false →
    Completes (.slewDone) s fun t =>
      t.time.slew = 0 ∧
      t.time.slewing = false ∧
      t.bit TB_EVT.SLEW_DONE = true)

/-- A source that times out is not valid, one valid long enough replaces a lower one, holdover expires, MONOSC is measured. -/
def Obligations.TimeSourcesComplete : Prop :=
  (∀ (s : State) (src : TimeSrc), s.canon = true →
    Completes (.sourceTimeout src) s fun t =>
      t.srcValid (srcCode src) = false) ∧
  (∀ (s : State) (src : TimeSrc), s.canon = true →
    s.rd TB_STAT.SRC_SEL ≠ 0 ∧ s.srcList.contains (srcCode src) = true ∧ s.srcValid (srcCode src) = true →
    listedBefore s.srcList (srcCode src) (s.rd TB_STAT.SRC_SEL) = true →
    Completes (.sourceHoldoffExpiry src) s fun t =>
      t.rd TB_STAT.SRC_SEL = srcCode src ∧
      t.reg TB_CNT_SRCSW = countUp (s.reg TB_CNT_SRCSW)) ∧
  (∀ (s : State), s.canon = true →
    s.bit TB_STAT.HOLDOVER = true ∧ s.time.hoFired = false →
    Completes (.tbHoExpired) s fun t =>
      t.time.hoFired = true ∧
      t.bit TB_EVT.HO_EXPIRED = true) ∧
  (∀ (s : State) (ns : BitVec 32), s.canon = true →
    s.bit CK_STAT.REFCLK_OK = true ∧ s.time.step = none ∧ s.time.slew = 0 ∧ s.time.dirty = false →
    Completes (.moncalWindow ns) s fun t =>
      t.time.windows = (ns.toNat :: s.time.windows).take 16 ∧
      (s.time.windows.length < 15 ∨ t.reg TB_MONCAL = BitVec.ofNat 32 ((ns.toNat :: s.time.windows).take 16).sum))

/-- An input stamps its edge, an output takes its setting, pulses start and end, alarms fire, the calendar and leap seconds act. -/
def Obligations.TimeInputsAndOutputsComplete : Prop :=
  (∀ (s : State) (i : Fin 8) (rising : Bool), s.canon = true →
    s.bit (TSI_CFG.EN i) = true ∧ s.tsiSelects i rising = true →
    tabGet noEdge s.time.tsiLast i = 0 ∨ tabGet noEdge s.time.tsiLast i + 16 ≤ s.time.tick + 1 →
    Completes (.tsiEdge i rising) s fun t =>
      t.reg (TSI_CNT_STAMP i) = BitVec.ofNat 32 ((s.reg (TSI_CNT_STAMP i)).toNat + 1) ∧
      tabGet noEdge t.time.tsiLast i = s.time.tick + 1) ∧
  (∀ (s : State) (o : Origin) (i : Fin 8), s.canon = true →
    (s.tpo i).active = none →
    Completes (.tpoApply o i) s fun t =>
      (t.tpo i).cfg = s.reg (TPO_CFG i) ∧
      (t.tpo i).pend = false) ∧
  (∀ (s : State) (o : Origin) (i : Fin 8), s.canon = true →
    (s.tpo i).active.isSome = true →
    Completes (.tpoApply o i) s fun t =>
      t.tpo i = { s.tpo i with pend := true }) ∧
  (∀ (s : State) (i : Fin 8), s.canon = true →
    (s.tpo i).pend = true →
    Completes (.tpoApplyTake i) s fun t =>
      (t.tpo i).cfg = s.reg (TPO_CFG i) ∧
      (t.tpo i).pend = false) ∧
  (∀ (s : State) (i : Fin 8), s.canon = true →
    ∀ due, (s.tpo i).due = some due →
    s.time.tpoCut = false ∧ (s.tpo i).active = none ∧ (s.tpo i).mode ≠ 3 →
    Completes (.tpoPulseStart i) s fun t =>
      (t.tpo i).active = some (due - (s.tpo i).comp + (s.tpo i).wid) ∧
      (t.tpo i).out = true ∧
      ((t.tpo i).due = (if (s.tpo i).mode = 1 then some (due + (s.tpo i).per) else none))) ∧
  (∀ (s : State) (i : Fin 8), s.canon = true →
    (s.tpo i).active.isSome = true →
    Completes (.tpoPulseEnd i) s fun t =>
      (t.tpo i).active = none ∧
      (t.tpo i).out = false) ∧
  (∀ (s : State) (o : Origin) (k : Fin 4) (v : Word), s.canon = true →
    v.getLsbD 31 = true →
    ((v.toNat % 0x10000) * unit32 + (s.reg (ALM_SL k)).toNat) * second + (s.reg (ALM_NS k)).toNat ≤ s.now →
    Completes (.alarmArm o k v) s fun t =>
      t.bit (ALM_SH.FIRED k) = true ∧
      t.bit (ALM_SH.ARM k) = false ∧
      t.regBit TB_EVT (16 + k) = true) ∧
  (∀ (s : State) (k : Fin 4), s.canon = true →
    s.bit (ALM_SH.ARM k) = true →
    Completes (.alarmFire k) s fun t =>
      t.bit (ALM_SH.FIRED k) = true ∧
      t.bit (ALM_SH.ARM k) = false) ∧
  (∀ (s : State) (o : Origin) (v : Word), s.canon = true →
    calError (s.rd CAL_WDATE.YEAR) (s.rd CAL_WDATE.MONTH) (s.rd CAL_WDATE.DAY) (fldOf CAL_WTIME.HOUR v) (fldOf CAL_WTIME.MINUTE v) (fldOf CAL_WTIME.SECOND v) ≠ 0 →
    Completes (.calendarSet o v) s fun t =>
      t.rd CAL_STAT.ERR_FIELD = calError (s.rd CAL_WDATE.YEAR) (s.rd CAL_WDATE.MONTH) (s.rd CAL_WDATE.DAY) (fldOf CAL_WTIME.HOUR v) (fldOf CAL_WTIME.MINUTE v) (fldOf CAL_WTIME.SECOND v) ∧
      t.bit TB_EVT.CAL_ERR = true ∧
      t.time = s.time) ∧
  (∀ (s : State) (o : Origin) (v : Word), s.canon = true →
    calError (s.rd CAL_WDATE.YEAR) (s.rd CAL_WDATE.MONTH) (s.rd CAL_WDATE.DAY) (fldOf CAL_WTIME.HOUR v) (fldOf CAL_WTIME.MINUTE v) (fldOf CAL_WTIME.SECOND v) = 0 →
    s.hostSteers = true ∧ s.now < 100 * second ∧ s.rd TB_UTC.UTC_OFFSET = 0 →
    Completes (.calendarSet o v) s fun t =>
      t.time.step.map (fun x => x.theta + (s.now : Int)) = some (((dayNumber (s.rd CAL_WDATE.YEAR) (s.rd CAL_WDATE.MONTH) (s.rd CAL_WDATE.DAY) * 86400 + fldOf CAL_WTIME.HOUR v * 3600 + fldOf CAL_WTIME.MINUTE v * 60 + fldOf CAL_WTIME.SECOND v) * second : Nat) : Int)) ∧
  (∀ (s : State), s.canon = true →
    s.bit TB_UTC.LEAP_INS = true ∧ s.bit TB_UTC.LEAP_DEL = false →
    Completes (.leapSecond) s fun t =>
      t.bit TB_UTC.LEAP_INS = false ∧
      t.bit TB_EVT.LEAP_DONE = true ∧
      t.rd TB_UTC.UTC_OFFSET = (s.rd TB_UTC.UTC_OFFSET + 1) % 0x10000)

/-- A link trains, exchanges HELLO, comes up or is held, goes down when told, and sleeps with its partner. -/
def Obligations.LinksComplete : Prop :=
  (∀ (s : State) (l : Fin 4), s.canon = true →
    s.linkState l = lkDetect ∧ s.runs .hser = true →
    Completes (.linkSignalDetect l) s fun t =>
      t.linkState l = lkTrain ∧
      (t.link l).slow = decide (s.rd (LK_CTRL.RATE l) = 2)) ∧
  (∀ (s : State) (l : Fin 4), s.canon = true →
    s.linkState l = lkTrain ∧ s.runs .hser = true →
    Completes (.linkBlockLock l) s fun t =>
      t.linkState l = lkHello ∧
      t.out.length = s.out.length + 1) ∧
  (∀ (s : State) (l : Fin 4), s.canon = true →
    s.linkState l = lkTrain ∧ s.runs .hser = true →
    Completes (.linkTrainTimeout l) s fun t =>
      t.linkState l = lkTrain ∧
      ((t.link l).slow = (if s.rd (LK_CTRL.RATE l) = 0 ∨ s.rd (LK_CTRL.RATE l) = 3 then !(s.link l).slow else (s.link l).slow))) ∧
  (∀ (s : State) (l : Fin 4) (h : Hello), s.canon = true →
    s.linkState l = lkHello ∧ s.runs .hser = true →
    (h.role ≠ 1 ∨ s.role ≠ 1) ∧ h.sn ≠ s.chain.sn ∧ h.role ≠ 0 →
    Completes (.helloExchange l (some h)) s fun t =>
      t.linkState l = lkUp ∧
      (t.link l).partner = some h ∧
      t.bit (LK_EVT.UP l) = true) ∧
  (∀ (s : State) (l : Fin 4) (h : Hello), s.canon = true →
    s.linkState l = lkHello ∧ s.runs .hser = true →
    (h.role ≠ 1 ∨ s.role ≠ 1) ∧ h.sn = s.chain.sn →
    Completes (.helloExchange l (some h)) s fun t =>
      t.linkState l = lkHeld ∧
      t.rd (LK_STAT.HOLD_CAUSE l) = 4 ∧
      t.bit CH_EVT.HELD = true) ∧
  (∀ (s : State) (l : Fin 4), s.canon = true →
    s.linkState l = lkHello ∧ s.runs .hser = true →
    Completes (.helloExchange l none) s fun t =>
      t.reg (LK_CNT_HELLOERR l) = countUp (s.reg (LK_CNT_HELLOERR l)) ∧
      t.linkState l = lkHello) ∧
  (∀ (s : State) (l : Fin 4), s.canon = true →
    s.canDrop l = true ∧ s.isMember = false →
    Completes (.linkDown l) s fun t =>
      t.linkState l = lkDetect ∧
      t.reg (LK_CNT_DOWN l) = countUp (s.reg (LK_CNT_DOWN l)) ∧
      (t.link l).waiting = []) ∧
  (∀ (s : State) (o : Origin) (l : Fin 4), s.canon = true →
    s.canDrop l = true ∧ s.isMember = false →
    Completes (.forceDown o l) s fun t =>
      t.linkState l = lkDetect ∧
      t.reg (LK_CNT_DOWN l) = countUp (s.reg (LK_CNT_DOWN l))) ∧
  (∀ (s : State) (l : Fin 4), s.canon = true →
    3 ≤ s.linkState l ∧ s.linkState l ≤ 5 →
    Completes (.linkSleep l) s fun t =>
      t.linkState l = lkSleep ∧
      t.bit (LK_EVT.SLEEP l) = true) ∧
  (∀ (s : State) (o : Origin) (role : BitVec 2), s.canon = true →
    s.regExists CH_CTRL = true →
    Completes (.chainRoleWrite o role) s fun t =>
      t.rd CH_CTRL.ROLE = role.toNat) ∧
  (∀ (s : State) (o : Origin) (l : Fin 4) (en : Bool), s.canon = true →
    s.regExists (LK_CTRL l) = true ∧ s.isMember = false →
    Completes (.linkEnWrite o l en) s fun t =>
      t.bit (LK_CTRL.EN l) = en ∧
      (en = false → t.linkState l = lkDisabled))

/-- A bad cell is counted and a good one counted and taken, credits are told and checked, and link delays are filtered. -/
def Obligations.CellsAndCreditsComplete : Prop :=
  (∀ (s : State) (l : Fin 4) (c : Cell) (credits : List (BitVec 16)), s.canon = true →
    s.linkState l = lkUp →
    Completes (.cellReceive l (some c) false credits) s fun t =>
      t.reg (LK_CNT_CRC l) = countUp (s.reg (LK_CNT_CRC l)) ∧
      t.reg (LK_CNT_RXCELL l) = s.reg (LK_CNT_RXCELL l)) ∧
  (∀ (s : State) (l : Fin 4) (c : Cell) (credits : List (BitVec 16)), s.canon = true →
    s.linkState l = lkUp ∧ s.cellWaits c = true →
    Completes (.cellReceive l (some c) true credits) s fun t =>
      t.reg (LK_CNT_RXCELL l) = countUp (s.reg (LK_CNT_RXCELL l)) ∧
      (t.link l).held = (s.link l).held ++ [c]) ∧
  (∀ (s : State) (l : Fin 4) (c : Cell) (credits : List (BitVec 16)), s.canon = true →
    s.linkState l = lkUp ∧ s.cellWaits c = false ∧ s.role = 2 ∧ s.isMember = false →
    Completes (.cellReceive l (some c) true credits) s fun t =>
      t.reg (LK_CNT_RXCELL l) = countUp (s.reg (LK_CNT_RXCELL l))) ∧
  (∀ (s : State) (l : Fin 4), s.canon = true →
    s.linkState l = lkUp ∨ s.linkState l = lkStandby →
    Completes (.creditSyncSend l) s fun t =>
      t.out = s.out ++ [.creditSync l ((List.range 4).map (fun v => ((s.link l).sent.getD v 0 % 0x1000000, (s.link l).credOut.getD v 0 % 0x1000000)))]) ∧
  (∀ (s : State) (l : Fin 4) (counts : List (BitVec 24 × BitVec 24)), s.canon = true →
    s.linkState l = lkUp →
    (List.range 4).all (fun v => (s.link l).received.getD v 0 % 0x1000000 == (counts.getD v (0, 0)).1.toNat && (s.link l).credIn.getD v 0 % 0x1000000 == (counts.getD v (0, 0)).2.toNat && s.rd (LK_CRED_VC.AVAIL l v) + ((s.link l).sent.getD v 0 - (s.link l).credIn.getD v 0) == s.rd (LK_CRED_VC.INIT l v)) = true →
    Completes (.creditSyncReceive l counts) s fun t =>
      t = s) ∧
  (∀ (s : State) (l : Fin 4) (counts : List (BitVec 24 × BitVec 24)), s.canon = true →
    s.linkState l = lkUp ∧ s.ledger.fails = [] →
    (s.link l).received.getD 0 0 % 0x1000000 ≠ (counts.getD 0 (0, 0)).1.toNat →
    Completes (.creditSyncReceive l counts) s fun t =>
      t.regBit LG_EVT 3 = true) ∧
  (∀ (s : State) (l : Fin 4), s.canon = true →
    s.linkState l = lkUp ∨ s.linkState l = lkStandby →
    Completes (.delayExchange l) s fun t =>
      t.out = s.out ++ [.delayRequest l]) ∧
  (∀ (s : State) (l : Fin 4) (t1 t2 t3 t4 : Nat), s.canon = true →
    s.linkState l = lkUp ∨ s.linkState l = lkStandby →
    (s.link l).samples.length < 8 ∧ (s.link l).restart = false →
    Completes (.linkDelaySample l t1 t2 t3 t4) s fun t =>
      (t.link l).samples = (((((t4 : Int) - t1) - ((t3 : Int) - t2)) / 2) :: (s.link l).samples).take 8 ∧
      t.rd (LK_STAT.DLY_SAMPLES l) = (s.link l).samples.length + 1)

/-- An enumeration begins, ends or is noted as due, a number is taken, a member is lost, and a request of CH_REQ is queued on its
target's link. -/
def Obligations.ChainMembershipComplete : Prop :=
  (∀ (s : State), s.canon = true →
    s.role = 1 ∧ s.partRuns .engines = true ∧ s.bit CH_STAT.ENUM_BUSY = true →
    Completes (.enumerationStart) s fun t =>
      t.chain.again = true ∧
      t.out = s.out) ∧
  (∀ (s : State), s.canon = true →
    ∀ x, s.probeLinks.head? = some x →
    s.role = 1 ∧ s.partRuns .engines = true ∧ s.bit CH_STAT.ENUM_BUSY = false →
    Completes (.enumerationStart) s fun t =>
      t.bit CH_STAT.ENUM_BUSY = true ∧
      t.chain.probes = s.probeLinks ∧
      t.chain.met = [s.chain.sn] ∧
      t.out = s.out ++ [.probe x.1 x.2]) ∧
  (∀ (s : State), s.canon = true →
    s.role = 1 ∧ s.partRuns .engines = true ∧ s.bit CH_STAT.ENUM_BUSY = false ∧ s.probeLinks = [] →
    Completes (.enumerationStart) s fun t =>
      t.bit CH_STAT.ENUM_BUSY = false ∧
      t.bit CH_STAT.ENUM_DONE = true ∧
      t.bit CH_EVT.ENUM_DONE = true) ∧
  (∀ (s : State) (o : Origin) (written : Bool), s.canon = true →
    s.role = 1 ∧ s.partRuns .engines = true ∧ s.bit CH_STAT.ENUM_BUSY = true →
    Completes (.reenum o written) s fun t =>
      t.chain.again = true) ∧
  (∀ (s : State) (o : Origin) (written : Bool), s.canon = true →
    ∀ x, s.probeLinks.head? = some x →
    s.role = 1 ∧ s.partRuns .engines = true ∧ s.bit CH_STAT.ENUM_BUSY = false →
    Completes (.reenum o written) s fun t =>
      t.bit CH_STAT.ENUM_BUSY = true ∧
      t.chain.probes = s.probeLinks ∧
      t.chain.met = [s.chain.sn] ∧
      t.out.getLast? = some (.probe x.1 x.2)) ∧
  (∀ (s : State) (o : Origin) (written : Bool), s.canon = true →
    s.role = 1 ∧ s.partRuns .engines = true ∧ s.bit CH_STAT.ENUM_BUSY = false ∧ s.probeLinks = [] →
    Completes (.reenum o written) s fun t =>
      t.bit CH_STAT.ENUM_BUSY = false ∧
      t.bit CH_STAT.ENUM_DONE = true ∧
      t.bit CH_EVT.ENUM_DONE = true) ∧
  (∀ (s : State) (o : Origin), s.canon = true →
    Completes (.forget o) s fun t =>
      t.chain.sticky = []) ∧
  (∀ (s : State), s.canon = true →
    ∀ x, s.chain.probes.tail.head? = some x →
    s.role = 1 ∧ s.bit CH_STAT.ENUM_BUSY = true →
    Completes (.enumProbeAnswer (.answer none)) s fun t =>
      t.chain.probes = s.chain.probes.tail ∧
      t.out = s.out ++ [.probe x.1 x.2]) ∧
  (∀ (s : State) (l : Fin 4) (num : Fin 64) (hops : Fin 17), s.canon = true →
    s.role = 2 →
    Completes (.enumProbeAnswer (.assigned l num hops)) s fun t =>
      t.rd CH_STAT.DEVNUM = num.val ∧
      t.bit CH_STAT.NUMBERED = true ∧
      t.rd CH_STAT.UPLINK = l.val ∧
      t.rd CH_STAT.HOPS = hops.val) ∧
  (∀ (s : State) (answers : List (Fin 64)), s.canon = true →
    s.role = 1 →
    Completes (.heartbeat answers) s fun t =>
      answers.all (fun d => !s.chain.routed.contains d.val || tabGet noEdge t.chain.answered d == s.time.tick) = true ∧
      t.out = s.out ++ s.chain.routed.map Out.heartbeat) ∧
  (∀ (s : State) (d : Fin 64), s.canon = true →
    s.role = 1 ∧ (s.mapEntry d).present = true ∧ (s.mapEntry d).lost = false ∧ (s.mapEntry d).asleep = false →
    Completes (.memberLost d) s fun t =>
      (t.mapEntry d).lost = true ∧
      t.reg CH_CNT_LOST = countUp (s.reg CH_CNT_LOST) ∧
      t.bit CH_EVT.MEMBER_LOST = true ∧
      tabGet (fun _ => 0) t.eic.members d = 0) ∧
  (∀ (s : State) (o : Origin) (dev : Fin 64) (all : Bool), s.canon = true →
    ∀ l, s.routeTo dev = some l →
    s.role = 1 ∧ dev.val ≠ s.ownNum ∧ all = false ∧ s.rst.request = none ∧ s.rst.asked = none →
    Completes (.chainReqCoreReset o dev all) s fun t =>
      t.rd CH_REQ.OP = 1 ∧
      t.rd CH_REQ.DEV = dev.val ∧
      ((t.link l).waiting ++ (t.link l).replay).count { vc := 3, src := Fin.ofNat 64 s.ownNum, dst := dev, msg := .request 1 } = ((s.link l).waiting ++ (s.link l).replay).count { vc := 3, src := Fin.ofNat 64 s.ownNum, dst := dev, msg := .request 1 } + 1) ∧
  (∀ (s : State) (o : Origin) (dev : Fin 64) (all : Bool), s.canon = true →
    ∀ l, s.routeTo dev = some l →
    s.role = 1 ∧ dev.val ≠ s.ownNum ∧ all = false ∧ s.rst.request = none ∧ s.rst.asked = none →
    Completes (.chainReqSystemReset o dev all) s fun t =>
      t.rd CH_REQ.OP = 2 ∧
      t.rd CH_REQ.DEV = dev.val ∧
      ((t.link l).waiting ++ (t.link l).replay).count { vc := 3, src := Fin.ofNat 64 s.ownNum, dst := dev, msg := .request 2 } = ((s.link l).waiting ++ (s.link l).replay).count { vc := 3, src := Fin.ofNat 64 s.ownNum, dst := dev, msg := .request 2 } + 1) ∧
  (∀ (s : State) (o : Origin) (dev : Fin 64) (all : Bool), s.canon = true →
    ∀ l, s.routeTo dev = some l →
    s.role = 1 ∧ dev.val ≠ s.ownNum ∧ all = false ∧ s.rst.request = none ∧ s.rst.asked = none →
    Completes (.chainReqWake o dev all) s fun t =>
      t.rd CH_REQ.OP = 3 ∧
      t.rd CH_REQ.DEV = dev.val ∧
      ((t.link l).waiting ++ (t.link l).replay).count { vc := 3, src := Fin.ofNat 64 s.ownNum, dst := dev, msg := .request 3 } = ((s.link l).waiting ++ (s.link l).replay).count { vc := 3, src := Fin.ofNat 64 s.ownNum, dst := dev, msg := .request 3 } + 1) ∧
  (∀ (s : State) (o : Origin) (dev : Fin 64) (all : Bool), s.canon = true →
    ∀ l, s.routeLink dev = some l →
    s.role = 1 ∧ dev.val ≠ s.ownNum ∧ all = false ∧ s.rst.request = none ∧ s.rst.asked = none ∧ s.linkState l = lkSleep →
    Completes (.chainReqWake o dev all) s fun t =>
      t.out.contains (.wakeUp l) = true) ∧
  (∀ (s : State) (o : Origin) (dev : Fin 64) (all : Bool), s.canon = true →
    s.rst.request = none ∧ s.rst.asked = none →
    Completes (.chainReqIgnored o dev all) s fun t =>
      t.rd CH_REQ.OP = 0 ∧
      t.rd CH_REQ.DEV = dev.val ∧
      t.links = s.links)

/-- Reads and writes of other devices leave, are answered, fail with their status, and a failed write is logged. -/
def Obligations.RemoteAccessComplete : Prop :=
  (∀ (s : State) (m : Master) (d : Fin 64) (off : BitVec 24) (size : BitVec 4), s.canon = true →
    carried off.toNat size.toNat = false →
    Completes (.bar4Read m d off size) s fun t =>
      t.out = s.out ++ [.answer m 0]) ∧
  (∀ (s : State) (m : Master) (d : Fin 64) (off : BitVec 24) (size : BitVec 4), s.canon = true →
    carried off.toNat size.toNat = true ∧ d.val ≠ s.ownNum ∧ s.unassigned d = false ∧ s.farStop d = none →
    Completes (.bar4Read m d off size) s fun t =>
      t.chain.reads = s.chain.reads ++ [{ m := m, dev := d, off := off.toNat, wide := decide (size = 8), at_ := s.time.tick }]) ∧
  (∀ (s : State) (d : Fin 64) (off : BitVec 24) (v : Word64) (status : BitVec 4), s.canon = true →
    ∀ r, s.chain.reads.find? (fun r => decide (r.dev = d.val) && decide (r.off = off.toNat)) = some r →
    status = 0 ∧ r.m ≠ .calm →
    Completes (.bar4ReadResponse d off v status) s fun t =>
      t.chain.reads = s.chain.reads.erase r ∧
      (t.out = s.out ++ [.answer r.m (if r.wide then v else v &&& 0xFFFFFFFF)])) ∧
  (∀ (s : State) (d : Fin 64) (off : BitVec 24), s.canon = true →
    ∀ r, s.chain.reads.find? (fun r => decide (r.dev = d.val) && decide (r.off = off.toNat)) = some r →
    r.m ≠ .calm →
    Completes (.chainRdFail d off) s fun t =>
      t.chain.reads = s.chain.reads.erase r ∧
      t.reg CH_CNT_RDFAIL = countUp (s.reg CH_CNT_RDFAIL) ∧
      (t.out.getLast? = some (.answer r.m (if r.wide then 0xFFFFFFFFFFFFFFFF else 0xFFFFFFFF)))) ∧
  (∀ (s : State) (m : Master) (d : Fin 64) (off : BitVec 24) (size : BitVec 4) (v : Word64), s.canon = true →
    carried off.toNat size.toNat = true ∧ d.val ≠ s.ownNum ∧ s.unassigned d = false ∧ (s.farStop d).isSome = true →
    Completes (.bar4Write m d off size v) s fun t =>
      t.reg CH_CNT_ORPHAN = countUp (s.reg CH_CNT_ORPHAN) ∧
      t.chain.orphanSeq = s.chain.orphanSeq + 1) ∧
  (∀ (s : State) (m : Master) (d : Fin 64) (off : BitVec 24) (v : Word64), s.canon = true →
    d.val = s.ownNum ∧ off.toNat = SP_BREAK 3 →
    s.committed = true ∧ s.cfg.commit = none ∧ s.rst.request = none ∧ s.rst.asked = none ∧ s.configFull = false ∧ s.waitsRoom m.origin = false →
    Completes (.bar4Write m d off 4 v) s fun t =>
      (regRow? off.toNat).map (fun r => storeValue r 0 (s.reg off.toNat) (v.setWidth 32)) = some (t.reg off.toNat)) ∧
  (∀ (s : State) (status : BitVec 4) (reporter dev : Fin 64) (off : BitVec 24) (wide : Bool) (v : Word64) (origin : BitVec 4), s.canon = true →
    Completes (.orphanWrite status reporter dev off wide v origin) s fun t =>
      t.reg CH_CNT_ORPHAN = countUp (s.reg CH_CNT_ORPHAN) ∧
      t.chain.orphanSeq = s.chain.orphanSeq + 1 ∧
      t.bit CH_EVT.ORPHAN = true)

/-- A forwarder sends a group, the destination takes it, an acceptance ends it, and an unaccepted group is sent again. -/
def Obligations.ForwardingComplete : Prop :=
  (∀ (s : State) (q : BitVec 16), s.canon = true →
    ∀ w, s.wordAt q.toNat = some w →
    (s.queue q.toNat).cfg.fwdEn = true ∧ (s.queue q.toNat).fwd.selfLoop = false ∧ (s.queue q.toNat).fwd.paused = false →
    s.runs .core = true ∧ (s.queue q.toNat).unaccepted < 64 ∧ (s.queue q.toNat).anyTorn = false →
    Completes (.forwardSend q) s fun t =>
      (t.queue q.toNat).fwd.nextSeq = ((s.queue q.toNat).fwd.nextSeq + 1) % 0x100000000 ∧
      (s.queue q.toNat).rd < (t.queue q.toNat).rd) ∧
  (∀ (s : State) (dev : Fin 64) (from_ dest : BitVec 16) (seq : Word) (ws : List QWord) (resent : Bool), s.canon = true →
    s.runs .core = true ∧ (s.queue dest.toNat).ex = true ∧ (s.queue dest.toNat).cfg.mode = 0 ∧ (s.queue dest.toNat).anyTorn = false →
    (s.queue dest.toNat).groupIsOld dev from_.toNat seq.toNat ≠ some true ∧ 1 ≤ ws.length →
    (s.storeAll dest.toNat (s.queue dest.toNat) ws).isSome = true ∧ ws.length ≤ (s.queue dest.toNat).cfg.cap →
    Completes (.forwardGroupReceive dev from_ dest seq ws resent) s fun t =>
      (t.queue dest.toNat).words = (s.queue dest.toNat).words ++ ws) ∧
  (∀ (s : State) (q : BitVec 16) (seq : Word) (status : BitVec 4), s.canon = true →
    (s.queue q.toNat).fwd.groups.any (fun g => decide (g.seq = seq.toNat)) = true ∧ status.toNat = fwdAccepted →
    Completes (.forwardStatus q seq status) s fun t =>
      (t.queue q.toNat).fwd.groups = (s.queue q.toNat).fwd.groups.filter (fun g => decide (g.seq ≠ seq.toNat)) ∧
      (t.queue q.toNat).fwd.paused = false) ∧
  (∀ (s : State) (q : BitVec 16), s.canon = true →
    ∀ g, (s.queue q.toNat).fwd.groups.head? = some g →
    (s.queue q.toNat).ex = true ∧ (s.queue q.toNat).cfg.fwdEn = true ∧ s.runs .core = true →
    (s.queue q.toNat).fwd.groups.length = 1 ∧ (s.queue q.toNat).cfg.fwdDev ≠ s.ownNum →
    Completes (.forwardRetry q) s fun t =>
      some t = (s.sendCell (s.cellTo 1 (s.queue q.toNat).cfg.fwdDev (.group q (BitVec.ofNat 16 (s.queue q.toNat).cfg.fwdQid) (BitVec.ofNat 32 g.seq) g.words true))).or (some (s.forwardAnswer q.toNat g.seq 1)))

/-- SYNCs leave and count, READY is told and noted, a release runs its countdown, and a late member releases at once. -/
def Obligations.ChainTimeAndReleaseComplete : Prop :=
  (∀ (s : State), s.canon = true →
    s.role = 1 →
    Completes (.chainSyncSend) s fun t =>
      t.out = s.out ++ ((List.range 4).filter (fun l => decide (s.linkState l = lkUp))).map (fun l => Out.sync l s.now s.quality (s.rd CH_STAT.HOPS) (s.rd TB_TIME_SH.STEP_SEQ))) ∧
  (∀ (s : State) (l : Fin 4) (sent arrived : Nat) (quality : BitVec 3) (hops : Fin 17) (stepSeq : Byte), s.canon = true →
    s.isMember = true ∧ s.bit CH_STAT.ISOLATED = false ∧ s.rd CH_STAT.UPLINK = l.val ∧ s.linkState l = lkUp →
    Completes (.chainSyncReceive l sent arrived quality hops stepSeq) s fun t =>
      t.reg CH_CNT_SYNCRX = countUp (s.reg CH_CNT_SYNCRX) ∧
      t.reg CH_OFFSET = satInt32 ((sent : Int) + s.linkDelay l - arrived) ∧
      t.rd CH_TSTAT.ROOT_QUALITY = quality.toNat) ∧
  (∀ (s : State), s.canon = true →
    s.isReady = true ∧ s.chain.readySent = false →
    Completes (.releaseReady none) s fun t =>
      t.chain.readySent = true ∧
      (t.out = s.out ++ (if s.role = 2 then [Out.ready] else []))) ∧
  (∀ (s : State) (l : Fin 4), s.canon = true →
    s.linkState l = lkUp →
    Completes (.releaseReady (some l)) s fun t =>
      (t.link l).ready = true) ∧
  (∀ (s : State) (l : Fin 4) (epoch count : Word), s.canon = true →
    s.linkState l = lkUp ∧ s.chain.epoch ≠ some epoch.toNat →
    Completes (.releaseAt (some l) epoch count) s fun t =>
      t.chain.epoch = some epoch.toNat ∧
      t.freeNo = s.freeNo + 1) ∧
  (∀ (s : State) (epoch count : Word), s.canon = true →
    s.role = 1 ∧ s.waitsCount = true ∧ s.chain.epoch = none ∧ s.refclkOk = true →
    Completes (.releaseAt none epoch count) s fun t =>
      t.chain.epoch = some epoch.toNat ∧
      t.chain.countdown.isSome = true) ∧
  (∀ (s : State), s.canon = true →
    s.chain.countdown.isSome = true ∧ s.waitsCount = true →
    Completes (.releaseCountdownEnd) s fun t =>
      t.chain.countdown = none ∧
      t.rst.releaseTick.isSome = true) ∧
  (∀ (s : State), s.canon = true →
    s.waitsCount = true ∧ s.role = 2 ∧ s.refclkOk = true →
    Completes (.lateRelease) s fun t =>
      t.bit CH_STAT.SYNC_MISSED = true ∧
      t.rst.releaseTick.isSome = true)

/-- A load begins, stages its words, is verified and installed or fails with its result, and is cancelled. -/
def Obligations.ImageLoadsComplete : Prop :=
  (∀ (s : State) (o : Origin) (v : Word), s.canon = true →
    s.loading = false ∧ 232 ≤ s.rd LD_LEN.LEN ∧ s.rd LD_LEN.LEN ≤ 131296 ∧ s.rd LD_LEN.LEN % 8 = 0 →
    (s.boundTo (fldOf LD_CTRL.SLOT v)).isEmpty = true →
    Completes (.ldBegin o v) s fun t =>
      t.rd LD_STAT.STATE = ldReceiving ∧
      t.rd LD_STAT.SLOT = fldOf LD_CTRL.SLOT v ∧
      t.reg LD_PROGRESS = 0 ∧
      (t.loader.owner, t.loader.staged, t.loader.len) = (o, [], s.rd LD_LEN.LEN)) ∧
  (∀ (s : State) (o : Origin) (v : Word), s.canon = true →
    s.loading = true →
    Completes (.ldBegin o v) s fun t =>
      t = s.wr LD_STAT.RESULT 13) ∧
  (∀ (s : State) (o : Origin) (v : Word), s.canon = true →
    s.rd LD_STAT.STATE = ldReceiving ∧ s.loader.owner = o ∧ s.loader.dma = false →
    s.loader.staged.length + 4 ≤ s.loader.len →
    Completes (.ldData o v) s fun t =>
      t.loader.staged = s.loader.staged ++ bytesOf [v] ∧
      t.reg LD_PROGRESS = BitVec.ofNat 32 (s.loader.staged.length + 4) ∧
      (t.rd LD_STAT.STATE = (if s.loader.len = s.loader.staged.length + 4 then ldVerifying else ldReceiving))) ∧
  (∀ (s : State) (o : Origin) (v : Word), s.canon = true →
    s.loading = true ∧ s.loader.owner ≠ o →
    Completes (.ldData o v) s fun t =>
      t.reg LD_CNT_FOREIGN = countUp (s.reg LD_CNT_FOREIGN) ∧
      t.loader = s.loader) ∧
  (∀ (s : State) (bytes : List Byte), s.canon = true →
    s.rd LD_STAT.STATE = ldReceiving ∧ s.loader.dma = true ∧ s.loader.staged = [] ∧ bytes.length = s.loader.len →
    Completes (.ldDmaDone bytes) s fun t =>
      t.loader.staged = bytes ∧
      t.rd LD_STAT.STATE = ldVerifying) ∧
  (∀ (s : State), s.canon = true →
    s.rd LD_STAT.STATE = ldVerifying ∧ s.loader.installing = false ∧ s.runs .core = true →
    (s.boundTo (s.rd LD_STAT.SLOT)).isEmpty = true →
    (s.needBanks s.loader.owner (slotBase (s.rd LD_STAT.SLOT)) (slotBase (s.rd LD_STAT.SLOT) + s.loader.staged.length)).1 = true →
    Completes (.imageLoad) s fun t =>
      t.rd LD_STAT.RESULT = s.imageResult s.loader.staged s.loader.len ∧
      (s.imageResult s.loader.staged s.loader.len = 0 → (t.slot (s.rd LD_STAT.SLOT)).len = s.loader.staged.length) ∧
      (s.imageResult s.loader.staged s.loader.len = 0 → memBytes t.mem.scratch (slotBase (s.rd LD_STAT.SLOT)) s.loader.staged.length = s.loader.staged) ∧
      (t.rd LD_STAT.STATE = (if s.imageResult s.loader.staged s.loader.len = 0 then ldDone else ldFailed))) ∧
  (∀ (s : State), s.canon = true →
    s.rd LD_STAT.STATE = ldVerifying ∧ s.loader.installing = true ∧ s.runs .core = true →
    (s.boundTo (s.rd LD_STAT.SLOT)).isEmpty = true →
    (s.needBanks s.loader.owner (slotBase (s.rd LD_STAT.SLOT)) (slotBase (s.rd LD_STAT.SLOT) + s.loader.staged.length)).1 = true →
    Completes (.imageInstall) s fun t =>
      t.rd LD_STAT.STATE = ldDone ∧
      (t.slot (s.rd LD_STAT.SLOT)).len = s.loader.staged.length ∧
      memBytes t.mem.scratch (slotBase (s.rd LD_STAT.SLOT)) s.loader.staged.length = s.loader.staged ∧
      t.loader.installing = false) ∧
  (∀ (s : State) (o : Origin), s.canon = true →
    s.loading = true ∧ (s.boundTo (s.rd LD_STAT.SLOT)).isEmpty = true →
    Completes (.cancel o) s fun t =>
      t.rd LD_STAT.STATE = ldFailed ∧
      t.rd LD_STAT.RESULT = 11 ∧
      t.loader.staged = []) ∧
  (∀ (s : State) (o : Origin) (slot : Fin 16), s.canon = true →
    (s.boundTo slot.val).isEmpty = true →
    Completes (.clearSlot o slot) s fun t =>
      t.slot slot.val = {} ∧
      t.reg LD_STAT = s.reg LD_STAT) ∧
  (∀ (s : State) (slot : Fin 16), s.canon = true →
    Completes (.ldSlotsel slot) s fun t =>
      t.reg LD_SLOTSEL = BitVec.ofNat 32 slot.val ∧
      (t.reg LD_SI_PROTO = (if (s.slot slot.val).len = 0 then 0 else BitVec.ofNat 32 (s.hdr slot.val 0xC 4))) ∧
      t.reg LD_SI_INFO >>> 16 = BitVec.ofNat 32 (s.boundTo slot.val).length)

/-- START, HALT, binding and the abort sequence move an engine through its states, and faults and the watchdog stop it. -/
def Obligations.EngineControlCompletes : Prop :=
  (∀ (s : State) (o : Origin) (e : Fin 48) (v : Word), s.canon = true →
    s.bound e = true ∧ s.committed = true ∧ s.ceState e = ceHalted ∧ s.why e = 0 ∧ s.clustersOff.contains (e.val / 4) = false →
    Completes (.start o e v) s fun t =>
      t.ceState e = ceStarting ∧
      ((t.eng e).started, (t.eng e).slot) = (true, s.slotOf e)) ∧
  (∀ (s : State) (o : Origin) (e : Fin 48) (v : Word), s.canon = true →
    s.ceState e = ceRunning →
    Completes (.halt o e v) s fun t =>
      t.ceState e = ceAborting ∧
      ((t.eng e).phase, (t.eng e).started, (t.eng e).timers) = (.doorbell, false, [])) ∧
  (∀ (s : State) (o : Origin) (e : Fin 48) (v : Word), s.canon = true →
    s.committed = true ∧ s.ceState e = ceUnbound ∧ s.bound e = false ∧ v.getLsbD (CE_BIND.BIND_EN e).lo = true →
    Completes (.ceBindWrite o e v) s fun t =>
      t.bound e = true ∧
      t.ceState e = ceHalted) ∧
  (∀ (s : State) (e : Fin 48), s.canon = true →
    s.ceState e = ceStarting ∧ s.partRuns .engines = true ∧ s.why e = 0 ∧ s.bound e = true ∧ s.stopDue e = none →
    (s.slotDamage (s.eng e).slot).any (·.2) = false ∧ s.hdrShared (s.eng e).slot = 0 →
    (s.needBanks .device (slotBase (s.eng e).slot) (slotBase (s.eng e).slot + (s.slot (s.eng e).slot).len)).1 = true →
    Completes (.engineStarted e) s fun t =>
      (t.ceState e = (if s.rd PW_STAT.STATE = 1 then ceGated else ceRunning)) ∧
      (t.bit (CE_STAT.IN_FULL e) = false ∧
      t.bit (CE_STAT.OUT_FULL e) = false) ∧
      ((t.eng e).wdog = some s.time.tick ∧
      (t.eng e).timers = [] ∧
      (t.eng e).phase = .none)) ∧
  (∀ (s : State) (e : Fin 48), s.canon = true →
    s.ceState e = ceAborting ∧ (s.eng e).phase = .doorbell →
    Completes (.abortEntry e) s fun t =>
      (t.eng e).phase = .handler ∧
      t.regs = s.regs) ∧
  (∀ (s : State) (e : Fin 48), s.canon = true →
    s.ceState e = ceAborting ∧ (s.eng e).phase = .handler →
    Completes (.engineGraceEnd e) s fun t =>
      (t.eng e).phase = .graceOver ∧
      t.reg (CE_CNT_FORCED e) = countUp (s.reg (CE_CNT_FORCED e)) ∧
      t.bit (CE_EVT.FORCED e) = true) ∧
  (∀ (s : State) (e : Fin 48), s.canon = true →
    s.ceState e = ceAborting ∧ (s.eng e).phase = .graceOver →
    Completes (.engineStop e) s fun t =>
      (t.eng e).phase = .stopped ∧
      (t.eng e).packets = [] ∧
      (t.net (e.val / 4)).rx.any (fun f => f.engine == e.val) = false) ∧
  (∀ (s : State) (e : Fin 48), s.canon = true →
    s.ceState e = ceAborting ∧ (s.eng e).phase = .stopped ∧ (s.eng e).after = .halt →
    Completes (.engineHalted e) s fun t =>
      t.ceState e = ceHalted ∧
      t.bit (CE_EVT.HALTED e) = true ∧
      (t.eng e).phase = .none) ∧
  (∀ (s : State) (e : Fin 48) (addr : BitVec 16), s.canon = true →
    ∀ b, (s.eng e).wdog = some b →
    s.ceState e = ceRunning ∧ s.hdrWdog (s.eng e).slot ≠ 0 ∧ s.partRuns .engines = true ∧ s.bit (CE_CTRL.ON_FAULT e) = false →
    Completes (.watchdog e addr) s fun t =>
      t.ceState e = ceFaulted ∧
      t.rd (CE_FAULT.CAUSE e) = 1 ∧
      s.time.tick ≤ t.time.tick) ∧
  (∀ (s : State) (e : Fin 48) (cause : BitVec 3) (addr : BitVec 16), s.canon = true →
    s.ceState e = ceRunning ∧ cause ≠ 0 ∧ s.partRuns .engines = true ∧ s.bit (CE_CTRL.ON_FAULT e) = false →
    Completes (.engineFault e cause addr) s fun t =>
      t.ceState e = ceFaulted ∧
      t.rd (CE_FAULT.CAUSE e) = cause.toNat ∧
      t.rd (CE_FAULT_ADDR.ADDR e) = addr.toNat ∧
      t.reg (CE_CNT_FAULT e) = countUp (s.reg (CE_CNT_FAULT e))) ∧
  (∀ (s : State) (o : Origin) (k : Fin 12) (v : Word), s.canon = true →
    s.committed = true ∧ (List.range 4).all (fun i => s.ceState (4 * k + i) == ceUnbound || s.ceState (4 * k + i) == ceHalted) = true →
    fldOf (CL_CTRL.PWR_OFF k) v = 1 →
    Completes (.clusterPwrOff o k v) s fun t =>
      t.clustersOff.contains k.val = true ∧
      t.bit (CL_CTRL.PWR_OFF k) = true)

/-- A running engine kicks its watchdog, posts and takes mail, uses its queue ports and windows, and raises events. -/
def Obligations.EngineServicesComplete : Prop :=
  (∀ (s : State) (e : Fin 48), s.canon = true →
    s.canAct e = true ∧ s.ceState e = ceRunning →
    Completes (.kick e) s fun t =>
      (t.eng e).wdog = some s.time.tick ∧
      t.out = s.out ++ [.op e .ok []]) ∧
  (∀ (s : State) (e : Fin 48), s.canon = true →
    s.canAct e = true ∧ s.ceState e = ceAborting →
    Completes (.abortDone e) s fun t =>
      (t.eng e).phase = .stopped ∧
      t.out.take (s.out.length + 1) = s.out ++ [.op e .ok []]) ∧
  (∀ (s : State) (e : Fin 48) (ws : List Word), s.canon = true →
    s.canAct e = true ∧ 1 ≤ ws.length ∧ ws.length ≤ 16 ∧ (ws.headD 0).getLsbD 31 = false ∧ s.bit (CE_STAT.OUT_FULL e) = false →
    Completes (.mbxPost e ws) s fun t =>
      t.bit (CE_STAT.OUT_FULL e) = true ∧
      (List.range ws.length).all (fun i => t.reg (CE_MBO e i) == ws.getD i 0) = true ∧
      t.bit (CE_EVT.MBX_OUT e) = true ∧
      t.out = s.out ++ [.op e .ok []]) ∧
  (∀ (s : State) (e : Fin 48), s.canon = true →
    s.canAct e = true ∧ s.bit (CE_STAT.IN_FULL e) = true →
    Completes (.mbxTake e) s fun t =>
      t.bit (CE_STAT.IN_FULL e) = false ∧
      t.out = s.out ++ [.op e .ok ((List.range (s.eng e).inCount).map (fun i => s.reg (CE_MBI e i)))]) ∧
  (∀ (s : State) (e : Fin 48) (count : BitVec 4), s.canon = true →
    s.committed = true ∧ s.bit (CE_STAT.IN_FULL e) = false →
    Completes (.mbiDb e count) s fun t =>
      t.bit (CE_STAT.IN_FULL e) = true ∧
      ((t.eng e).inCount = (if count = 0 then 16 else count.toNat))) ∧
  (∀ (s : State) (e : Fin 48), s.canon = true →
    Completes (.mboAck e) s fun t =>
      t.bit (CE_STAT.OUT_FULL e) = false ∧
      t.out = s.out) ∧
  (∀ (s : State) (e : Fin 48) (p : Fin 16) (ws : List QWord), s.canon = true →
    s.canAct e = true ∧ s.qpStop e p = none ∧ 1 ≤ ws.length ∧ ws.length ≤ 16 →
    (s.queue (s.qpQueue e p)).ex = true ∧ (s.queue (s.qpQueue e p)).anyTorn = false ∧ (s.queue (s.qpQueue e p)).cfg.mode = 0 ∧ ws.length ≤ (s.queue (s.qpQueue e p)).cfg.cap →
    (s.storeAll (s.qpQueue e p) (s.queue (s.qpQueue e p)) ws).isSome = true →
    Completes (.qpPush e p ws) s fun t =>
      (t.queue (s.qpQueue e p)).words = (s.queue (s.qpQueue e p)).words ++ ws ∧
      t.out.getLast? = some (.op e .ok [])) ∧
  (∀ (s : State) (e : Fin 48) (p : Fin 16) (n : BitVec 5) (untilEnd : Bool), s.canon = true →
    ∀ w, s.wordAt (s.qpQueue e p) = some w →
    s.canAct e = true ∧ s.qpStop e p = none ∧ (s.queue (s.qpQueue e p)).ex = true ∧ (s.queue (s.qpQueue e p)).anyTorn = false ∧ n = 1 ∧ (s.queue (s.qpQueue e p)).hurt = [] →
    Completes (.qpPop e p n untilEnd) s fun t =>
      (t.queue (s.qpQueue e p)).rd = (s.queue (s.qpQueue e p)).rd + 1 ∧
      t.out.getLast? = some (.popped e .ok [(w, (s.queue (s.qpQueue e p)).cut)])) ∧
  (∀ (s : State) (e : Fin 48) (p : Fin 16), s.canon = true →
    ∀ w, s.wordAt (s.qpQueue e p) = some w →
    s.canAct e = true ∧ s.qpStop e p = none ∧ (s.queue (s.qpQueue e p)).ex = true ∧ (s.queue (s.qpQueue e p)).anyTorn = false ∧ (s.queue (s.qpQueue e p)).hurt = [] →
    Completes (.qpPeek e p) s fun t =>
      t.queues = s.queues ∧
      t.out = s.out ++ [.popped e .ok [(w, (s.queue (s.qpQueue e p)).cut)]]) ∧
  (∀ (s : State) (e : Fin 48) (p : Fin 16) (op : BitVec 4) (count : Word), s.canon = true →
    s.canAct e = true ∧ s.qpStop e p = none ∧ (s.queue (s.qpQueue e p)).ex = true ∧ (s.queue (s.qpQueue e p)).anyTorn = false ∧ s.runs .core = true →
    op = 1 →
    Completes (.qpCmd e p op count) s fun t =>
      (t.queue (s.qpQueue e p)).mark = some (s.queue (s.qpQueue e p)).rd ∧
      t.out.getLast? = some (.op e .ok [])) ∧
  (∀ (s : State) (e : Fin 48) (p : Fin 16), s.canon = true →
    s.canAct e = true ∧ s.qpStop e p = none →
    Completes (.qpStat e p) s fun t =>
      t.out = s.out ++ [.op e .ok [((s.queue (s.qpQueue e p)).stat).extractLsb' 0 32, ((s.queue (s.qpQueue e p)).stat).extractLsb' 32 32]]) ∧
  (∀ (s : State) (e : Fin 48), s.canon = true →
    ∀ f, (s.net (e.val / 4)).rx.find? (fun f => f.engine == e.val && !f.taken) = some f →
    s.canAct e = true ∧ s.attached e = true ∧ s.ceState e = ceRunning →
    Completes (.descTake e) s fun t =>
      t.out = s.out ++ [.op e .ok f.words] ∧
      (t.net (e.val / 4)).rx.contains { f with taken := true } = true) ∧
  (∀ (s : State) (e : Fin 48) (gs : List (BitVec 11)), s.canon = true →
    s.canAct e = true ∧ s.attached e = true →
    gs.all (fun g => (s.heldGranules e).contains g.toNat) = true ∧ (gs.map (·.toNat)).eraseDups.length = gs.length →
    Completes (.granuleRelease e gs) s fun t =>
      gs.all (fun g => !(t.heldGranules e).contains g.toNat) = true ∧
      t.out = s.out ++ [.op e .ok []]) ∧
  (∀ (s : State) (e : Fin 48) (payload : BitVec 128), s.canon = true →
    s.canAct e = true ∧ s.runs .core = true →
    Completes (.engineEvent e payload) s fun t =>
      (t.out.getLast? = some (.op e .ok []) ∨ t.out.getLast? = some (.op e .suppressed [])) ∧
      (t.engines = s.engines ∧
      t.queues = s.queues))

/-- Timers are armed and expire at their time, the engine declares its time source, submits rates and offsets, and asks the time. -/
def Obligations.EngineTimeCompletes : Prop :=
  (∀ (s : State) (e : Fin 48) (i : Fin 8) (sec : BitVec 48) (ns : Word) (period : Word64), s.canon = true →
    s.canAct e = true ∧ i.val < s.hdrTimers (s.eng e).slot ∧ ns.toNat < second →
    Completes (.timerArm e i sec ns period) s fun t =>
      ((t.timer e i).armed = true ∧
      (t.timer e i).ready = none) ∧
      (t.timer e i).due = sec.toNat * second + ns.toNat ∧
      ((t.timer e i).period = (if period = 0 then 0 else max 100 period.toNat)) ∧
      t.out = s.out ++ [.op e .ok []]) ∧
  (∀ (s : State) (e : Fin 48) (i : Fin 8) (take : Bool), s.canon = true →
    (s.timer e i).armed = true ∧ s.ceState e ≠ ceAborting ∧ take = false ∧ (s.timer e i).ready = none →
    Completes (.timerExpiry e i take) s fun t =>
      (t.timer e i).ready = some ((s.timer e i).due, false, 1) ∧
      (t.timer e i).due = (s.timer e i).due + (s.timer e i).period ∧
      (t.timer e i).armed = decide ((s.timer e i).period ≠ 0)) ∧
  (∀ (s : State) (e : Fin 48) (i : Fin 8), s.canon = true →
    (s.timer e i).armed = true ∧ s.ceState e = ceRunning ∧ s.canAct e = true ∧ (s.timer e i).ready = none →
    Completes (.timerExpiry e i true) s fun t =>
      t.out = s.out ++ [.timer e i (s.timer e i).due false 1 (s.timer e i).missed] ∧
      (t.timer e i).ready = none) ∧
  (∀ (s : State) (e : Fin 48), s.canon = true →
    s.canAct e = true ∧ s.tbPort e = true ∧ s.time.engFresh = false →
    Completes (.declareValid e) s fun t =>
      t.bit (CE_STAT.TB_VALID e) = true ∧
      t.out = s.out ++ [.op e .ok []]) ∧
  (∀ (s : State) (e : Fin 48), s.canon = true →
    s.canAct e = true ∧ s.tbPort e = true →
    Completes (.declareInvalid e) s fun t =>
      t.bit (CE_STAT.TB_VALID e) = false ∧
      t.out.getLast? = some (.op e .ok [])) ∧
  (∀ (s : State) (e : Fin 48) (a : Word), s.canon = true →
    s.canAct e = true ∧ s.tbPort e = true ∧ s.bit (CE_STAT.TB_VALID e) = false →
    Completes (.engineRate e a) s fun t =>
      t.time.engFresh = true ∧
      t.reg TB_CNT_ADJIGN = countUp (s.reg TB_CNT_ADJIGN) ∧
      t.out.getLast? = some (.op e .ok [])) ∧
  (∀ (s : State) (e : Fin 48) (a : Word), s.canon = true →
    s.canAct e = true ∧ s.tbPort e = true ∧ s.bit (CE_STAT.TB_VALID e) = true ∧ s.engineSteers = true →
    Completes (.engineRate e a) s fun t =>
      t.rdInt TB_ADDEND = clip32 a.toInt ∧
      t.time.engFresh = true) ∧
  (∀ (s : State) (e : Fin 48) (theta : Word64) (add : Bool), s.canon = true →
    s.canAct e = true ∧ s.tbPort e = true ∧ s.bit (CE_STAT.TB_VALID e) = true ∧ s.engineSteers = true →
    theta = 0 ∧ add = false ∧ s.time.slew = 0 ∧ s.time.step = none →
    Completes (.engineOffset e theta add) s fun t =>
      t.time.engFresh = true ∧
      t.out.getLast? = some (.op e .ok []) ∧
      t.reg TB_CNT_ADJIGN = s.reg TB_CNT_ADJIGN) ∧
  (∀ (s : State) (e : Fin 48) (sec : BitVec 48) (ns : Word), s.canon = true →
    s.canAct e = true ∧ s.tbPort e = true ∧ s.bit (CE_STAT.TB_VALID e) = true ∧ s.engineSteers = true ∧ s.time.step = none →
    s.now + 1000000 < sec.toNat * second + min ns.toNat 999999999 ∧ s.now < timeMax / 4 ∧ sec.toNat * second < timeMax / 4 →
    Completes (.engineSet e sec ns) s fun t =>
      t.time.engFresh = true ∧
      t.time.step.map (fun x => x.theta) = some ((sec.toNat * second + min ns.toNat 999999999 : Nat) - (s.now : Int)) ∧
      t.out.getLast? = some (.op e .ok [])) ∧
  (∀ (s : State) (e : Fin 48), s.canon = true →
    s.canAct e = true →
    Completes (.timeQuery e) s fun t =>
      t.out = s.out ++ [.op e .ok (timeWords s.now ++ [BitVec.ofNat 32 s.quality, BitVec.ofNat 32 s.stepSeq, BitVec.ofNat 32 (s.rd TB_STAT.SRC_SEL)])])

/-- A port comes up, changes with its partner's word and goes down, an engine reads it, and MDIO frames run. -/
def Obligations.NetworkLinksComplete : Prop :=
  (∀ (s : State) (p : Fin 12) (word : Option (BitVec 16)), s.canon = true →
    s.netOn p = true ∧ s.netUp p = false ∧ s.bit (NP_CTRL.AN_EN p) = false →
    Completes (.netLinkUp p word) s fun t =>
      t.netUp p = true ∧
      (t.rd (NP_STAT.SPEED p) = (if s.sgmii p then min 2 (s.rd (NP_CTRL.FORCE_SPEED p)) else 2)) ∧
      t.bit (NP_EVT.LINK_UP p) = true) ∧
  (∀ (s : State) (p : Fin 12) (word : BitVec 16), s.canon = true →
    s.netOn p = true ∧ s.netUp p = false ∧ s.bit (NP_CTRL.AN_EN p) = true ∧ wordHalf (s.sgmii p) word = false →
    Completes (.netLinkUp p (some word)) s fun t =>
      t.netUp p = true ∧
      t.rd (NP_AN_LP.ABILITY p) = word.toNat ∧
      (t.rd (NP_STAT.SPEED p) = (if s.sgmii p then wordSpeed word else 2))) ∧
  (∀ (s : State) (p : Fin 12) (word : BitVec 16), s.canon = true →
    s.netOn p = true ∧ s.netUp p = false ∧ s.bit (NP_CTRL.AN_EN p) = true ∧ wordHalf (s.sgmii p) word = true →
    Completes (.netLinkUp p (some word)) s fun t =>
      t.netUp p = false ∧
      t.bit (NP_EVT.HD_REFUSED p) = true) ∧
  (∀ (s : State) (p : Fin 12), s.canon = true →
    s.netUp p = true →
    Completes (.netLinkDown p) s fun t =>
      t.netUp p = false ∧
      ((t.net p).wire.isNone ∧
      (t.net p).waiting = [] ∧
      (t.net p).incoming.isNone) ∧
      t.bit (NP_EVT.LINK_DOWN p) = true) ∧
  (∀ (s : State) (p : Fin 12) (word : BitVec 16), s.canon = true →
    s.netOn p = true ∧ s.sgmii p = true ∧ s.bit (NP_CTRL.AN_EN p) = true ∧ s.netUp p = true ∧ wordHalf true word = false →
    Completes (.sgmiiWordChange p word) s fun t =>
      t.rd (NP_AN_LP.ABILITY p) = word.toNat ∧
      t.bit (NP_EVT.PHY_EVT p) = true ∧
      t.rd (NP_STAT.SPEED p) = wordSpeed word ∧
      t.netUp p = true) ∧
  (∀ (s : State) (o : Origin) (p : Fin 12) (v : Word), s.canon = true →
    s.committed = true ∧ fldOf (NP_CTRL.PWR_OFF p) v = 1 ∧ (s.net p).wire = none ∧ (s.net p).drained = false ∧ s.clk.nserStop = false →
    Completes (.npPwrOffWrite o p v) s fun t =>
      t.bit (NP_CTRL.PWR_OFF p) = true ∧
      (t.net p).drained = true ∧
      t.netUp p = false) ∧
  (∀ (s : State) (o : Origin) (p : Fin 12) (v : Word), s.canon = true →
    s.committed = true ∧ fldOf (NP_CTRL.PWR_OFF p) v = 0 →
    Completes (.npPwrOffWrite o p v) s fun t =>
      t.bit (NP_CTRL.PWR_OFF p) = false ∧
      (t.net p).drained = false) ∧
  (∀ (s : State) (e : Fin 48), s.canon = true →
    s.canAct e = true ∧ s.attached e = true →
    Completes (.link e) s fun t =>
      t.out = s.out ++ [.op e .ok [s.npStat (e.val / 4)]]) ∧
  (∀ (s : State) (m : Fin 2) (v : Word), s.canon = true →
    s.committed = true ∧ s.runs .nser = true ∧ s.bit (MD_STAT.BUSY m) = false →
    Completes (.mdCmd m v) s fun t =>
      t.bit (MD_STAT.BUSY m) = true ∧
      t.out = s.out ++ [.mdio m v] ∧
      tabGet (fun _ => 0) t.mdio m = v) ∧
  (∀ (s : State) (m : Fin 2) (data : BitVec 16), s.canon = true →
    s.bit (MD_STAT.BUSY m) = true →
    Completes (.mdioFrameDone m data) s fun t =>
      t.bit (MD_STAT.BUSY m) = false ∧
      t.bit (MD_STAT.DONE m) = true ∧
      (mdioReads (tabGet (fun _ => 0) s.mdio m) = true → t.rd (MD_DATA.RDATA m) = data.toNat))

/-- A frame is received and delivered or counted, submitted, put on the wire in class order, sent with its FCS, and its status
taken. -/
def Obligations.FramesComplete : Prop :=
  (∀ (s : State) (p : Fin 12) (ago : Word) (bs : List Byte), s.canon = true →
    s.netUp p = true ∧ s.netOn p = true ∧ s.bit (NP_CTRL.LOOPBACK p) = false ∧ (s.net p).incoming = none ∧ s.ctMode p = 0 →
    Completes (.frameReceive p ago (.head bs)) s fun t =>
      (t.net p).incoming.map (fun i => (i.stamp, i.bytes)) = some (((s.now : Int) - ago.toNat - s.rdS16 (NP_TSCOMP.RX_COMP p)).toNat, bs.take 64)) ∧
  (∀ (s : State) (p : Fin 12) (ago : Word) (bs : List Byte) (sym : Bool), s.canon = true →
    s.netUp p = true ∧ s.netOn p = true ∧ s.bit (NP_CTRL.LOOPBACK p) = false ∧ (s.net p).incoming = none ∧ s.ctMode p = 0 ∧ bs.length < 64 →
    Completes (.frameReceive p ago (.whole bs sym)) s fun t =>
      t.reg (NP_CNT_RUNT p) = countUp (s.reg (NP_CNT_RUNT p)) ∧
      ((t.net p).incoming = none ∧
      (t.net p).rx = (s.net p).rx)) ∧
  (∀ (s : State) (p : Fin 12) (ago : Word) (bs : List Byte) (sym : Bool), s.canon = true →
    s.netUp p = true ∧ s.netOn p = true ∧ s.bit (NP_CTRL.LOOPBACK p) = false ∧ (s.net p).incoming = none ∧ s.ctMode p = 0 ∧ max 64 (s.rd (NP_RXCFG.MAX_LEN p)) < bs.length →
    Completes (.frameReceive p ago (.whole bs sym)) s fun t =>
      t.reg (NP_CNT_LONG p) = countUp (s.reg (NP_CNT_LONG p)) ∧
      (t.net p).rx = (s.net p).rx) ∧
  (∀ (s : State) (p : Fin 12) (ago : Word) (bs : List Byte), s.canon = true →
    s.netUp p = true ∧ s.netOn p = true ∧ s.bit (NP_CTRL.LOOPBACK p) = false ∧ (s.net p).incoming = none ∧ s.ctMode p = 0 ∧ fcsGood bs = false →
    64 ≤ bs.length ∧ bs.length ≤ max 64 (s.rd (NP_RXCFG.MAX_LEN p)) ∧ s.bit (NP_CTRL.KEEP_BAD p) = false →
    Completes (.frameReceive p ago (.whole bs false)) s fun t =>
      t.reg (NP_CNT_FCS p) = countUp (s.reg (NP_CNT_FCS p)) ∧
      (t.net p).rx = (s.net p).rx) ∧
  (∀ (s : State) (p : Fin 12) (ago : Word) (bs : List Byte), s.canon = true →
    s.netUp p = true ∧ s.netOn p = true ∧ s.bit (NP_CTRL.LOOPBACK p) = false ∧ (s.net p).incoming = none ∧ s.ctMode p = 0 ∧ fcsGood bs = true →
    64 ≤ bs.length ∧ bs.length ≤ max 64 (s.rd (NP_RXCFG.MAX_LEN p)) ∧ (s.serving p) = [] →
    Completes (.frameReceive p ago (.whole bs false)) s fun t =>
      t.reg (NP_CNT_RXFRM p) = countUp (s.reg (NP_CNT_RXFRM p)) ∧
      t.reg (NP_CNT_NOSERV p) = countUp (s.reg (NP_CNT_NOSERV p)) ∧
      t.bit (NP_EVT.RX_DROP p) = true) ∧
  (∀ (s : State) (e : Fin 48) (d0 d1 d2 : Word) (frame : List Byte), s.canon = true →
    s.canAct e = true ∧ s.attached e = true ∧ s.bit (NP_CTRL.PWR_OFF (e.val / 4)) = false ∧ s.netUp (e.val / 4) = true →
    14 ≤ d0.toNat % 0x4000 ∧ d0.toNat % 0x4000 ≤ 16379 ∧ d0.getLsbD 20 = false ∧ frame.length = d0.toNat % 0x4000 →
    (s.net (e.val / 4)).waiting = [] →
    Completes (.txSubmit e d0 d1 d2 frame) s fun t =>
      (t.net (e.val / 4)).waiting.map (fun f => (f.cls, f.engine, f.bytes)) = [(d0.toNat / 0x10000 % 8, some e.val, frame)] ∧
      t.out = s.out ++ [.op e .ok []]) ∧
  (∀ (s : State) (p : Fin 12), s.canon = true →
    ∀ f, (s.net p).waiting.head? = some f →
    s.netUp p = true ∧ (s.net p).wire = none ∧ s.runs .nser = true ∧ s.bit (NP_GCL_CTRL.GATE_EN p) = false →
    (s.net p).waiting = [f] ∧ f.cls < 8 ∧ f.whole = true ∧ f.oneStep = false ∧ (s.net p).gap ≤ s.time.tick →
    Completes (.frameTxStart p) s fun t =>
      (t.net p).wire = some { frame := f, begun := s.time.tick, stamp := ((s.now : Int) + 8 * s.byteNs p + s.rdS16 (NP_TSCOMP.TX_COMP p)).toNat, coarse := s.coarse } ∧
      (t.net p).waiting = []) ∧
  (∀ (s : State) (p : Fin 12), s.canon = true →
    ∀ x, (s.net p).wire = some x →
    x.frame.whole = true ∧ s.bit (NP_CTRL.PWR_OFF p) = false ∧ s.bit (NP_CTRL.LOOPBACK p) = false ∧ s.clk.nserStop = false →
    Completes (.frameTxDone p) s fun t =>
      (t.net p).wire = none ∧
      (t.out = s.out ++ [.frame p (if x.frame.engine.isSome then wireBytes x.frame else x.frame.bytes) x.frame.bad]) ∧
      (x.frame.engine.isSome = true → t.reg (NP_CNT_TXFRM p) = countUp (s.reg (NP_CNT_TXFRM p)))) ∧
  (∀ (s : State) (p : Fin 12), s.canon = true →
    ∀ x, (s.net p).wire = some x →
    x.frame.whole = true ∧ s.bit (NP_CTRL.PWR_OFF p) = false ∧ s.bit (NP_CTRL.LOOPBACK p) = true ∧ s.clk.nserStop = false →
    Completes (.frameTxDone p) s fun t =>
      (t.net p).wire = none ∧
      t.out = s.out) ∧
  (∀ (s : State) (e : Fin 48), s.canon = true →
    ∀ ws, (s.eng e).statuses.head? = some ws →
    s.canAct e = true ∧ s.attached e = true →
    Completes (.txTake e) s fun t =>
      (t.eng e).statuses = (s.eng e).statuses.tail ∧
      t.out = s.out ++ [.op e .ok ws])

/-- A path's mode is set, an engine forwards or declines a frame, and a gate list is written, committed, withdrawn and applied. -/
def Obligations.PathsAndGatesComplete : Prop :=
  (∀ (s : State) (o : Origin) (p : Fin 12) (v : Word), s.canon = true →
    s.committed = true →
    Completes (.ctPath o p v) s fun t =>
      t.rd (NP_CT.MODE p) = fldOf (NP_CT.MODE p) v ∧
      t.rd (NP_CT.CLASS p) = fldOf (NP_CT.CLASS p) v) ∧
  (∀ (s : State) (e : Fin 48) (mode : BitVec 2) (cls : BitVec 3), s.canon = true →
    s.canAct e = true ∧ s.attached e = true ∧ s.imageFlag e 0 = true →
    Completes (.ctSet e mode cls) s fun t =>
      t.rd (NP_CT.MODE (e.val / 4)) = mode.toNat ∧
      t.rd (NP_CT.CLASS (e.val / 4)) = cls.toNat ∧
      t.out.getLast? = some (.op e .ok [])) ∧
  (∀ (s : State) (e : Fin 48) (seq : Byte), s.canon = true →
    ∀ f, (s.net (e.val / 4)).rx.find? (fun f => f.engine == e.val && (f.taken || f.early) && (f.words.getD 1 0).toNat / 0x1000000 == seq.toNat && f.choice == .open_) = some f →
    s.canAct e = true ∧ s.attached e = true ∧ s.imageFlag e 0 = true ∧ s.rd (NP_CT.MODE (e.val / 4)) = 1 →
    f.whole = true ∧ s.netUp (Nat.xor (e.val / 4) 1) = true →
    s.txGranules (Nat.xor (e.val / 4) 1) + granules f.bytes.length ≤ 2048 →
    Completes (.ctCommit e seq) s fun t =>
      t.reg (NP_CNT_CTFWD (e.val / 4)) = countUp (s.reg (NP_CNT_CTFWD (e.val / 4))) ∧
      (t.net (Nat.xor (e.val / 4) 1)).waiting.length = (s.net (Nat.xor (e.val / 4) 1)).waiting.length + 1 ∧
      t.out = s.out ++ [.op e .ok []]) ∧
  (∀ (s : State) (e : Fin 48) (seq : Byte), s.canon = true →
    ∀ f, (s.net (e.val / 4)).rx.find? (fun f => f.engine == e.val && (f.taken || f.early) && (f.words.getD 1 0).toNat / 0x1000000 == seq.toNat && f.choice == .open_) = some f →
    s.canAct e = true ∧ s.attached e = true ∧ s.imageFlag e 0 = true ∧ s.rd (NP_CT.MODE (e.val / 4)) = 1 →
    Completes (.ctDecline e seq) s fun t =>
      ((t.net (e.val / 4)).rx = (s.net (e.val / 4)).rx.map (fun g => if g = f then { g with choice := .declined } else g)) ∧
      t.out = s.out ++ [.op e .ok []]) ∧
  (∀ (s : State) (e : Fin 48) (i g : Byte) (d : Word), s.canon = true →
    s.canAct e = true ∧ s.attached e = true ∧ s.imageFlag e 2 = true →
    Completes (.gclWrite e (.entry i g d)) s fun t =>
      t.out = s.out ++ [.op e .ok []] ∧
      tabGet (fun _ => 0) (t.net (e.val / 4)).adminGates i.toNat = g.toNat ∧
      tabGet (fun _ => 0) (t.net (e.val / 4)).adminTimes i.toNat = d.toNat) ∧
  (∀ (s : State) (e : Fin 48) (ns : Word), s.canon = true →
    s.canAct e = true ∧ s.attached e = true ∧ s.imageFlag e 2 = true →
    Completes (.gclWrite e (.cycle ns)) s fun t =>
      t.rd (NP_GCL_ACYCLE.CYCLE_NS (e.val / 4)) = ns.toNat ∧
      t.out = s.out ++ [.op e .ok []]) ∧
  (∀ (s : State) (e : Fin 48), s.canon = true →
    s.canAct e = true ∧ s.attached e = true ∧ s.imageFlag e 2 = true →
    Completes (.gclCommit e) s fun t =>
      (t.net (e.val / 4)).pend.map (fun x => (x.1.entries, x.2)) = some ((s.adminList (e.val / 4)).entries, .engine e) ∧
      t.bit (NP_GCL_CTRL.CC_PENDING (e.val / 4)) = true ∧
      t.out = s.out ++ [.op e .ok []]) ∧
  (∀ (s : State) (o : Origin) (p : Fin 12), s.canon = true →
    s.committed = true →
    Completes (.configChange o p) s fun t =>
      (t.net p).pend.map (fun x => (x.1.entries, x.2)) = some ((s.adminList p).entries, o) ∧
      (t.net p).pend.map (fun x => decide (s.now + 2000 ≤ x.1.cct)) = some true ∧
      t.bit (NP_GCL_CTRL.CC_PENDING p) = true ∧
      (t.net p).oper = (s.net p).oper) ∧
  (∀ (s : State) (o : Origin) (p : Fin 12), s.canon = true →
    Completes (.ccCancel o p) s fun t =>
      (t.net p).pend = none ∧
      t.bit (NP_GCL_CTRL.CC_PENDING p) = false ∧
      (t.net p).oper = (s.net p).oper) ∧
  (∀ (s : State) (p : Fin 12), s.canon = true →
    ∀ x, (s.net p).pend = some x →
    Completes (.gateChange p) s fun t =>
      (t.net p).oper = x.1 ∧
      (t.net p).pend = none ∧
      t.bit (NP_GCL_CTRL.CC_PENDING p) = false ∧
      t.bit (NP_EVT.CC_DONE p) = true) ∧
  (∀ (s : State) (p : Fin 12), s.canon = true →
    (s.net p).oper.entries.isEmpty = false →
    Completes (.gateEntryBoundary p) s fun t =>
      s.time.tick ≤ t.time.tick ∧
      (t.net p).oper = (s.net p).oper)

/-- An entry is fetched and takes its tag; each opcode does its work and its completion is held with status, COUNT and DETAIL. -/
def Obligations.HostCommandsComplete : Prop :=
  (∀ (s : State) (entry : List Word) (sgl : List (Word64 × Word)), s.canon = true →
    ∀ n, s.nextRing = some n →
    s.hostUp = true ∧ s.partRuns .host = true ∧ s.entryFault entry sgl = none →
    Completes (.sqFetch entry sgl) s fun t =>
      (t.host.cmds = s.host.cmds ++ [{ tag := entryTag entry, away := entryDev entry != s.ownNum, ring := n.1, entry := entry, sgl := if s.sglCmd entry then sgl else [] }]) ∧
      t.sqHead n.1 = (s.sqHead n.1 + 1) % s.sqSize n.1 ∧
      t.ledger.issued = s.ledger.issued + 1) ∧
  (∀ (s : State) (entry : List Word) (sgl : List (Word64 × Word)), s.canon = true →
    ∀ n, s.nextRing = some n →
    s.hostUp = true ∧ s.partRuns .host = true ∧ s.tagOut (entryTag entry) = false ∧ opTime < entryOp entry →
    Completes (.sqFetch entry sgl) s fun t =>
      t.host.cmds = s.host.cmds ∧
      t.reg HI_CNT_REJECT = countUp (s.reg HI_CNT_REJECT) ∧
      (t.host.held ++ t.host.later).any (fun x => x.tag == entryTag entry && x.reject && x.status == stBadOpcode) = true) ∧
  (∀ (s : State) (tag : BitVec 12), s.canon = true →
    ∀ c, s.cmd? none tag.toNat = some c →
    s.startsHere c opNop = true →
    Completes (.hostNop none tag) s fun t =>
      t.host.held.contains (s.finished c stOk 0 0 []) = true) ∧
  (∀ (s : State) (tag : BitVec 12) (payload : List Byte), s.canon = true →
    ∀ c, s.cmd? none tag.toNat = some c →
    s.startsHere c opPush = true ∧ (s.queue c.queue).ex = true ∧ (s.queue c.queue).anyTorn = false ∧ (s.queue c.queue).cfg.mode = 0 →
    0 < entryLen c.entry ∧ payload.length = entryLen c.entry ∧ s.inlineCmd c.entry = false →
    payload.length ≤ min 16 (s.queue c.queue).cfg.cap * c.unit ∧ divUp payload.length c.unit ≤ s.totalCap c.queue →
    (s.storeAll c.queue (s.queue c.queue) (c.words payload)).isSome = true ∧ c.count = 0 ∧ payload.length % c.unit = 0 →
    Completes (.push none tag payload) s fun t =>
      (t.queue c.queue).words = (s.queue c.queue).words ++ c.words payload ∧
      t.host.held.contains (s.finished c stOk payload.length 0 []) = true) ∧
  (∀ (s : State) (tag : BitVec 12), s.canon = true →
    ∀ c, s.cmd? none tag.toNat = some c →
    ∀ w, s.wordAt c.queue = some w →
    s.startsHere c opPop = true ∧ (s.queue c.queue).ex = true ∧ (s.queue c.queue).anyTorn = false ∧ (s.queue c.queue).hurt = [] ∧ entryLen c.entry = c.unit →
    c.count = 0 ∧ c.seen = 0 ∧ c.out = [] →
    Completes (.pop none tag) s fun t =>
      (t.queue c.queue).rd = (s.queue c.queue).rd + 1 ∧
      t.host.held.contains (s.finished c stOk c.unit (w.fin.toNat + (s.queue c.queue).cut.toNat * 2 + w.err.toNat * 4) (c.popBytes w (s.queue c.queue).cut)) = true) ∧
  (∀ (s : State) (tag : BitVec 12), s.canon = true →
    ∀ c, s.cmd? none tag.toNat = some c →
    s.startsHere c opQcmd = true ∧ (s.queue c.queue).ex = true ∧ (s.queue c.queue).anyTorn = false ∧ entryArg c.entry % 16 = 1 →
    Completes (.qcmd none tag) s fun t =>
      (t.queue c.queue).mark = some (s.queue c.queue).rd ∧
      t.host.held.contains (s.finished c stOk 0 0 []) = true) ∧
  (∀ (s : State) (tag : BitVec 12), s.canon = true →
    ∀ c, s.cmd? none tag.toNat = some c →
    s.startsHere c opRegRead = true ∧ entryLen c.entry = 4 →
    [TB_HADJ_RATE, GP_CNT_LOCKWR, LD_LEN, HI_CNT_CMD].contains (entryTarget c.entry) = true ∧ s.regExists (entryTarget c.entry) = true →
    Completes (.regRead none tag) s fun t =>
      t.host.held.any (fun x => x.tag == c.tag && x.status == stOk && x.count == 4 && x.buffer == bufferPieces (entryAddr c.entry) c.sgl (bytesOf [s.reg (entryTarget c.entry)])) = true) ∧
  (∀ (s : State) (tag : BitVec 12) (payload : List Byte), s.canon = true →
    ∀ c, s.cmd? none tag.toNat = some c →
    s.startsHere c opRegWrite = true ∧ entryLen c.entry = 4 ∧ payload.length = 4 ∧ s.inlineCmd c.entry = false →
    entryTarget c.entry = LD_LEN ∧ s.committed = true ∧ s.cfg.commit = none ∧ s.rst.request = none ∧ s.rst.asked = none →
    Completes (.regWrite none tag payload) s fun t =>
      t.rd LD_LEN.LEN = fldOf LD_LEN.LEN (wordOf payload) ∧
      t.host.held.any (fun x => x.tag == c.tag && x.status == stOk && x.count == 4) = true) ∧
  (∀ (s : State) (tag : BitVec 12), s.canon = true →
    ∀ c, s.cmd? none tag.toNat = some c →
    s.startsHere c opCall = true ∧ entryTarget c.entry < 48 ∧ s.bound (entryTarget c.entry) = true →
    s.clustersOff.contains (entryTarget c.entry / 4) = false ∧ s.ceState (entryTarget c.entry) = ceRunning ∧ s.bit (CL_CTRL.PWR_OFF (entryTarget c.entry / 4)) = false →
    s.bit (CE_STAT.IN_FULL (entryTarget c.entry)) = false ∧ c.entry.length = 16 →
    Completes (.engineCall none tag) s fun t =>
      t.bit (CE_STAT.IN_FULL (entryTarget c.entry)) = true ∧
      t.reg (CE_MBI (entryTarget c.entry) 8) = BitVec.ofNat 32 (0x80000000 + c.tag) ∧
      t.host.cmds.any (fun x => x.tag == c.tag && x.posted) = true) ∧
  (∀ (s : State) (tag : BitVec 12), s.canon = true →
    ∀ c, s.cmd? none tag.toNat = some c →
    c.started = true ∧ c.away = false ∧ entryOp c.entry = opCall ∧ c.posted = false ∧ s.partRuns .host = true →
    s.bound (entryTarget c.entry) = true ∧ s.clustersOff.contains (entryTarget c.entry / 4) = false →
    s.ceState (entryTarget c.entry) = ceRunning ∧ s.bit (CE_STAT.IN_FULL (entryTarget c.entry)) = false →
    Completes (.engineCallPost none tag) s fun t =>
      t.bit (CE_STAT.IN_FULL (entryTarget c.entry)) = true ∧
      t.host.cmds.any (fun x => x.tag == c.tag && x.posted) = true) ∧
  (∀ (s : State) (e : Fin 48) (ws : List Word), s.canon = true →
    ∀ c, s.host.cmds.find? (fun c => !c.away && c.posted && entryOp c.entry == opCall && entryTarget c.entry == e.val && c.tag == (ws.headD 0).toNat % 4096) = some c →
    s.canAct e = true ∧ (ws.headD 0).getLsbD 31 = true ∧ c.owner = none ∧ s.host.holds (4 + e.val) < 8 →
    Completes (.engineCallAnswer e ws) s fun t =>
      t.host.held.contains (s.finished c stOk (min (4 * ws.tail.length) (entryLen c.entry)) 0 ((bytesOf (ws.drop 1)).take (entryLen c.entry))) = true) ∧
  (∀ (s : State) (tag : BitVec 12) (payload : List Byte), s.canon = true →
    ∀ c, s.cmd? none tag.toNat = some c →
    s.startsHere c opSection = true ∧ (framesOf (entryLen c.entry)).isSome = true ∧ s.cfg.load = none ∧ s.cfg.line = [] →
    Completes (.sectionLoad none tag payload) s fun t =>
      t.cfg.load.map (fun l => (l.org, l.len)) = some (.host, entryLen c.entry) ∧
      t.rd CF_STAT.STATE = 2) ∧
  (∀ (s : State) (tag : BitVec 12), s.canon = true →
    ∀ c, s.cmd? none tag.toNat = some c →
    s.startsHere c opTime = true →
    Completes (.timeRead none tag) s fun t =>
      t.host.held.contains (s.finished c stOk 0 (s.quality + s.stepSeq * 0x100) []) = true) ∧
  (∀ (s : State) (tag : BitVec 12), s.canon = true →
    ∀ c, s.cmd? none tag.toNat = some c →
    ∀ w, s.wordAt c.queue = some w →
    c.started = true ∧ c.away = false ∧ s.partRuns .host = true ∧ entryOp c.entry = opPop ∧ entryLen c.entry = c.unit →
    (s.queue c.queue).ex = true ∧ (s.queue c.queue).anyTorn = false ∧ (s.queue c.queue).hurt = [] ∧ c.count = 0 ∧ c.seen = 0 ∧ c.out = [] ∧ s.host.holds srcQueue < 8 →
    Completes (.commandWaitResume none tag) s fun t =>
      (t.queue c.queue).rd = (s.queue c.queue).rd + 1 ∧
      t.host.held.contains (s.finished c stOk c.unit (w.fin.toNat + (s.queue c.queue).cut.toNat * 2 + w.err.toNat * 4) (c.popBytes w (s.queue c.queue).cut)) = true) ∧
  (∀ (s : State) (tag : BitVec 12), s.canon = true →
    ∀ c, s.cmd? none tag.toNat = some c →
    ∀ k, c.waits = some k →
    c.started = true ∧ c.away = false ∧ s.partRuns .host = true ∧ entryTmo c.entry ≠ 0xFFFFFFFF ∧ c.count = 0 ∧ s.host.holds c.source < 8 →
    Completes (.commandTimeout none tag) s fun t =>
      t.host.held.any (fun x => x.tag == c.tag && x.status == stTimeout && x.source == c.source) = true ∧
      s.time.tick ≤ t.time.tick)

/-- Rings are enabled, doorbells move their pointers, completions and messages are sent, features fixed, and the link comes and
goes. -/
def Obligations.RingsComplete : Prop :=
  (∀ (s : State) (n : Fin 64) (v : Word), s.canon = true →
    v.toNat % 0x10000 < s.sqSize n ∧ s.bit (SQ_STAT.ENABLED n) = true →
    Completes (.sqTailDb n v) s fun t =>
      t.sqTail n = v.toNat % 0x10000 ∧
      t.regs = s.regs) ∧
  (∀ (s : State) (n : Fin 64) (v : Word), s.canon = true →
    s.sqSize n ≤ v.toNat % 0x10000 ∨ s.bit (SQ_STAT.ENABLED n) = false →
    Completes (.sqTailDb n v) s fun t =>
      t.reg HI_CNT_BADDB = countUp (s.reg HI_CNT_BADDB) ∧
      t.bit HI_EVT.BAD_DB = true ∧
      t.host = s.host) ∧
  (∀ (s : State) (n : Fin 64) (v : Word), s.canon = true →
    v.toNat % 0x10000 < s.cqSize n ∧ s.bit (CQ_STAT.ENABLED n) = true ∧ v.toNat % 0x10000 ≠ (s.cq n).head →
    (v.toNat % 0x10000 + s.cqSize n - (s.cq n).head) % s.cqSize n ≤ (s.cq n).written ∧ (s.cq n).head < s.cqSize n →
    Completes (.cqHeadDb n v) s fun t =>
      (t.cq n).head = v.toNat % 0x10000 ∧
      (t.cq n).written + (v.toNat % 0x10000 + s.cqSize n - (s.cq n).head) % s.cqSize n = (s.cq n).written) ∧
  (∀ (s : State) (n : Fin 64) (en : Bool), s.canon = true →
    s.bit FEAT_STAT.COMMITTED = true ∧ s.bit (SQ_STAT.ENABLED n) = false ∧ s.bit (CQ_STAT.ENABLED (s.rd (SQ_CFG.CQ n))) = true →
    Completes (.sqEnable n en) s fun t =>
      t.bit (SQ_STAT.ENABLED n) = en ∧
      (en = true → t.sqHead n = 0 ∧
      t.sqTail n = 0)) ∧
  (∀ (s : State) (n : Fin 64) (en : Bool), s.canon = true →
    s.bit (CQ_STAT.ENABLED n) = false →
    Completes (.cqEnable n en) s fun t =>
      t.bit (CQ_STAT.ENABLED n) = en ∧
      (en = true → t.rd (CQ_STAT.TAIL n) = 0 ∧
      t.bit (CQ_STAT.PHASE n) = true)) ∧
  (∀ (s : State) (o : Origin), s.canon = true →
    s.bit FEAT_STAT.COMMITTED = false →
    Completes (.featCommit o) s fun t =>
      t.bit FEAT_STAT.COMMITTED = true) ∧
  (∀ (s : State) (o : Origin), s.canon = true →
    s.bit FEAT_STAT.COMMITTED = true →
    Completes (.featCommit o) s fun t =>
      t.bit HI_EVT.FEAT_REPEAT = true ∧
      t.log = s.log) ∧
  (∀ (s : State) (cq : Fin 64), s.canon = true →
    ∀ x, s.nextSource cq = some x →
    s.hostUp = true ∧ s.bit (CQ_STAT.ENABLED cq) = true ∧ (s.cq cq).written < s.cqSize cq ∧ x.abt = false ∧ s.bit (CQ_CFG.IEN cq) = false →
    s.host.later = [] →
    Completes (.completionWrite cq) s fun t =>
      t.out = s.out ++ x.buffer.map (fun b => Out.hostWrite b.1.toNat b.2) ++ [.hostWrite (s.pair (CQ_BASE_LO cq) (CQ_BASE_HI cq) + 32 * s.rd (CQ_STAT.TAIL cq)) (bytesOf (x.words (s.sqHead x.sq) (s.bit (CQ_STAT.PHASE cq))))] ∧
      (t.rd (CQ_STAT.TAIL cq) = (if s.rd (CQ_STAT.TAIL cq) + 1 = s.cqSize cq then 0 else (s.rd (CQ_STAT.TAIL cq) + 1) % 65536)) ∧
      (t.cq cq).written = (s.cq cq).written + 1 ∧
      t.host.held = s.host.held.erase x) ∧
  (∀ (s : State) (cq : Fin 64), s.canon = true →
    (s.cq cq).unsent ≠ 0 ∧ s.coalesces cq = true ∧ s.bit (CQ_CFG.IEN cq) = true →
    Completes (.coalesceTimeout cq) s fun t =>
      (t.cq cq).unsent = 0 ∧
      s.time.tick ≤ t.time.tick) ∧
  (∀ (s : State) (n : Fin 64), s.canon = true →
    Completes (.dmaError (.fetch n)) s fun t =>
      t.rd (SQ_STAT.ERR n) = 3 ∧
      t.bit (SQ_STAT.ENABLED n) = false ∧
      t.reg HI_CNT_DMAERR = countUp (s.reg HI_CNT_DMAERR)) ∧
  (∀ (s : State) (n : Fin 64), s.canon = true →
    ∀ x, s.nextSource n = some x →
    s.host.later = [] →
    Completes (.dmaError (.completion n)) s fun t =>
      t.rd (CQ_STAT.ERR n) = 2 ∧
      t.bit (CQ_STAT.ENABLED n) = false ∧
      t.host.held = s.host.held.erase x) ∧
  (∀ (s : State) (tag : BitVec 12) (got : List Byte), s.canon = true →
    ∀ c, s.cmd? none tag.toNat = some c →
    s.startsHere c opSection = true →
    Completes (.dmaError (.payload tag got)) s fun t =>
      t.host.held.contains (s.finished c stDmaError 0 0 []) = true ∧
      t.bit HI_EVT.DMA_ERR = true) ∧
  (∀ (s : State), s.canon = true →
    s.bit HI_STAT.LINK_UP = true →
    Completes (.hostLinkReset) s fun t =>
      t.reg HI_STAT = 0 ∧
      (t.host.held = [] ∧
      t.host.later = [] ∧
      t.host.tails = []) ∧
      t.bit HI_EVT.LINK_RESET = true ∧
      (List.range 64).all (fun n => t.rd (SQ_STAT.ERR n) == 5 && t.rd (CQ_STAT.ERR n) == 3 && !t.bit (SQ_STAT.ENABLED n)) = true) ∧
  (∀ (s : State) (d3 bme : Bool), s.canon = true →
    s.bit HI_STAT.LINK_UP = true →
    Completes (.hostPowerChange d3 bme) s fun t =>
      (t.rd HI_STAT.DSTATE = (if d3 then 3 else 0)) ∧
      t.bit HI_STAT.BME = bme) ∧
  (∀ (s : State) (gen width : BitVec 3), s.canon = true →
    s.bit HI_STAT.LINK_UP = false ∧ s.runs .hser = true ∧ s.rd RST_STAT.PHASE = 8 →
    Completes (.hostLinkUp gen width) s fun t =>
      t.bit HI_STAT.LINK_UP = true ∧
      (t.rd HI_STAT.GEN = min gen.toNat s.maxGen ∧
      t.rd HI_STAT.WIDTH = min width.toNat s.maxWidth) ∧
      t.bit HI_EVT.LINK_UP = true) ∧
  (∀ (s : State) (v : Fin 64), s.canon = true →
    s.regBit (MSIX_PBA (v.val / 32)) (v.val % 32) = true ∧ s.bit HI_STAT.LINK_UP = true ∧ s.rd HI_STAT.DSTATE = 0 ∧ s.bit HI_STAT.BME = true →
    Completes (.msixUnmask v) s fun t =>
      t.bit (MSIX_CTRL.MASK v) = false ∧
      t.regBit (MSIX_PBA (v.val / 32)) (v.val % 32) = false ∧
      t.out = s.out ++ [.msix v])

/-- An abort stops its port, queue, engine, ring or tag and completes; one of no kind is rejected. -/
def Obligations.AbortsComplete : Prop :=
  (∀ (s : State) (m : Master) (dev : Fin 64) (object : Half) (tag : BitVec 12) (cq : Fin 64), s.canon = true →
    s.abortTaken 1 object.toNat tag.toNat cq = true ∧ dev.val = s.ownNum ∧ s.host.cmds = [] ∧ (s.tw object.toNat).guard.loads = [] →
    Completes (.abortSerialPort m dev object tag cq) s fun t =>
      ((t.port object.toNat).prefetch = [] ∧
      (t.port object.toNat).launches = []) ∧
      t.abortEnded tag.toNat = true) ∧
  (∀ (s : State) (m : Master) (dev : Fin 64) (object : Half) (tag : BitVec 12) (cq : Fin 64), s.canon = true →
    s.abortTaken 2 object.toNat tag.toNat cq = true ∧ dev.val = s.ownNum ∧ s.host.cmds.all (fun c => c.owner.isNone) = true →
    Completes (.abortQueue m dev object tag cq) s fun t =>
      t.host.cmds.any (fun c => c.onQueue object.toNat && !s.host.cmds.contains c) = false ∧
      (s.host.cmds = [] → t.abortEnded tag.toNat = true)) ∧
  (∀ (s : State) (m : Master) (dev : Fin 64) (object : Half) (tag : BitVec 12) (cq : Fin 64), s.canon = true →
    s.abortTaken 3 object.toNat tag.toNat cq = true ∧ dev.val = s.ownNum ∧ s.ceState object.toNat = ceRunning →
    Completes (.abortEngine m dev object tag cq) s fun t =>
      t.ceState object.toNat = ceAborting ∧
      t.host.aborts.any (fun a => a.tag == tag.toNat && a.engine == some object.toNat) = true) ∧
  (∀ (s : State) (m : Master) (dev : Fin 64) (object : Half) (tag : BitVec 12) (cq : Fin 64), s.canon = true →
    s.abortTaken 4 object.toNat tag.toNat cq = true ∧ s.host.cmds = [] →
    Completes (.abortRing m dev object tag cq) s fun t =>
      t.bit (SQ_STAT.ENABLED object.toNat) = false ∧
      t.rd (SQ_STAT.ERR object.toNat) = 4 ∧
      t.abortEnded tag.toNat = true) ∧
  (∀ (s : State) (m : Master) (dev : Fin 64) (object : Half) (tag : BitVec 12) (cq : Fin 64), s.canon = true →
    ∀ c, s.cmd? none object.toNat = some c →
    s.abortTaken 5 object.toNat tag.toNat cq = true ∧ s.host.cmds = [c] ∧ c.away = false ∧ entryOp c.entry ≠ opSection ∧ s.host.holds c.source < 7 →
    c.source ≠ srcAbort ∧ s.cfg.load = none ∧ s.cfg.line = [] →
    Completes (.abortTag m dev object tag cq) s fun t =>
      t.host.cmds = [] ∧
      t.host.held.contains (s.finished c stAborted c.count c.seen c.out) = true ∧
      t.abortEnded tag.toNat = true) ∧
  (∀ (s : State) (m : Master) (kind : Fin 11) (dev : Fin 64) (object : Half) (tag : BitVec 12) (cq : Fin 64), s.canon = true →
    s.bit (CQ_STAT.ENABLED cq) = true ∧ s.abortSlots < 64 ∧ s.tagOut tag.toNat = false →
    Completes (.abortBadKind m kind dev object tag cq) s fun t =>
      t.reg HI_CNT_REJECT = countUp (s.reg HI_CNT_REJECT) ∧
      (t.host.held ++ t.host.later).any (fun x => x.abt && x.reject && x.status == stBadField && x.tag == tag.toNat) = true ∧
      (t.host.cmds = s.host.cmds ∧
      t.host.aborts = s.host.aborts))

/-- A configuration image is announced, streamed, checked and committed, section by section, and ports and targets reach their
boundary. -/
def Obligations.ConfigurationCompletes : Prop :=
  (∀ (s : State) (o : Origin) (v : Word), s.canon = true →
    s.cfg.load = none ∧ (framesOf (s.rd CF_LEN.LEN)).isSome = true →
    Completes (.cfBegin o v) s fun t =>
      t.cfg.load.map (fun l => (l.org, l.len, l.bytes, l.checkOnly)) = some (o, s.rd CF_LEN.LEN, [], decide (fldOf CF_CTRL.CHECK_ONLY v ≠ 0)) ∧
      t.rd CF_STAT.STATE = 1 ∧
      t.rd CF_STAT.OWNER = ownerCode o) ∧
  (∀ (s : State) (o : Origin) (v : Word), s.canon = true →
    s.cfg.load.isSome = true →
    Completes (.cfBegin o v) s fun t =>
      t.reg CF_CNT_BUSY = countUp (s.reg CF_CNT_BUSY) ∧
      t.cfg = s.cfg) ∧
  (∀ (s : State) (o : Origin), s.canon = true →
    ∀ l, s.cfg.load = some l →
    l.src = .stream ∧ s.cfg.line = [] →
    Completes (.cfCancel o) s fun t =>
      t.cfg.load = none ∧
      t.rd CF_STAT.RESULT = 17 ∧
      t.rd CF_STAT.STATE = 6) ∧
  (∀ (s : State) (o : Origin) (v : Word), s.canon = true →
    ∀ l, s.cfg.load = some l →
    l.org = o ∧ l.src = .stream ∧ l.passed = false ∧ l.bytes.length < l.len ∧ (l.bytes.length + 4) % 4096 ≠ 0 →
    Completes (.cfData o v) s fun t =>
      t.cfg.load.map (·.bytes) = some (l.bytes ++ bytesOf [v]) ∧
      (t.rd CF_STAT.STATE = (if l.len ≤ l.bytes.length + 4 then 2 else s.rd CF_STAT.STATE))) ∧
  (∀ (s : State) (o : Origin) (v : Word), s.canon = true →
    ∀ l, s.cfg.load = some l →
    l.org ≠ o →
    Completes (.cfData o v) s fun t =>
      t.reg CF_CNT_BUSY = countUp (s.reg CF_CNT_BUSY) ∧
      t.cfg = s.cfg) ∧
  (∀ (s : State), s.canon = true →
    ∀ l, s.cfg.load = some l →
    l.passed = false ∧ l.len ≤ l.bytes.length ∧ s.partRuns .engines = true ∧ s.cfgWaits = false ∧ l.src = .stream ∧ s.cfg.line = [] →
    Completes (.configLoad) s fun t =>
      (s.cfgCheck l.bytes l.len = none ∨ (s.cfgCheck l.bytes l.len).map CfgFault.code = some (t.rd CF_STAT.RESULT)) ∧
      (s.cfgCheck l.bytes l.len = none → l.checkOnly = false → s.cfg.commit = none → t.cfg.commit.isSome = true) ∧
      (s.cfgCheck l.bytes l.len = none → l.checkOnly = true → t.rd CF_STAT.STATE = 5)) ∧
  (∀ (s : State), s.canon = true →
    ∀ c, s.cfg.commit = some c →
    ∀ k, c.todo.head? = some k →
    s.cfgWaits = false ∧ c.now = 0 ∧ c.first = false →
    Completes (.commitApply) s fun t =>
      t.cfg.commit.map (fun x => (x.now, x.todo)) = some (k, c.todo.tail)) ∧
  (∀ (s : State), s.canon = true →
    ∀ c, s.cfg.commit = some c →
    s.cfgWaits = false ∧ c.now = 0 ∧ c.todo = [] ∧ c.first = false ∧ s.cfg.load = none ∧ s.cfg.line = [] ∧ s.cfg.late = [] →
    Completes (.commitApply) s fun t =>
      t.cfg.commit = none ∧
      t.reg CF_CNT_COMMIT = countUp (s.reg CF_CNT_COMMIT) ∧
      t.rd CF_STAT.STATE = 5) ∧
  (∀ (s : State), s.canon = true →
    ∀ c, s.cfg.commit = some c →
    s.cfgWaits = false ∧ c.now ≠ 0 ∧ c.now ≠ 7 ∧ c.nets = [] ∧ c.todo ≠ [] ∧ s.reached c c.now = true ∧ s.cfg.late = [] →
    Completes (.sectionCommit) s fun t =>
      t.cfg.commit.map (fun x => (x.now, x.todo)) = some (0, c.todo) ∧
      t.rd CF_STAT.STATE = 3) ∧
  (∀ (s : State) (p : Fin 16), s.canon = true →
    ∀ r, (s.port p).reload = some r →
    r.structural = true ∧ r.drained = none ∧ s.twRuns p = false ∧ s.cfgWaits = false ∧ s.runs .port = true →
    Completes (.drainEnd p) s fun t =>
      (t.port p).reload.map (fun x => x.drained.isSome) = some true ∧
      ((t.port p).prefetch = [] ∧
      (t.port p).launches = []) ∧
      s.time.tick ≤ t.time.tick) ∧
  (∀ (s : State) (p : Fin 16), s.canon = true →
    ∀ r, (s.port p).reload = some r →
    ∀ x, r.words.head? = some x →
    r.structural = false ∧ r.words = [x] ∧ x.1 = SP_BREAK p ∧ s.cfg.commit.isSome = true ∧ s.committed = true ∧ s.cfgWaits = false ∧ s.runs .port = true →
    (s.port p).rxChar = none ∧ (s.port p).cand = none →
    Completes (.portRebind p) s fun t =>
      (t.port p).reload = none ∧
      t.rd (SP_BREAK.STUCK_MS p) = fldOf (SP_BREAK.STUCK_MS p) x.2) ∧
  (∀ (s : State) (p : Fin 16), s.canon = true →
    ∀ r, (s.port p).reload = some r →
    r.structural = true ∧ r.drained.isSome = true ∧ s.cfgWaits = false ∧ s.runs .port = true →
    (s.port p).rxChar = none ∧ (s.port p).cand = none →
    Completes (.portRebind p) s fun t =>
      (t.port p).reload = none ∧
      (t.port p).needMark.isSome = true ∧
      (t.port p).openq = none) ∧
  (∀ (s : State) (k : Fin 8), s.canon = true →
    ∀ w, s.eic.waiting.find? (fun x => x.targets.contains k.val) = some w →
    s.cfgWaits = false ∧ s.partRuns .eic = true →
    Completes (.interruptReloadApply k) s fun t =>
      t.eic.waiting.any (fun x => x.targets.contains k.val) = false ∧
      s.time.tick ≤ t.time.tick)

/-- The plane identifies itself, reads and writes its registers and its buffer, pumps, and a cut transaction only clocks. -/
def Obligations.CalmReadsAndBuffersComplete : Prop :=
  (∀ (s : State) (tx : CalmTx), s.canon = true →
    s.calmSilent = false ∧ tx.crcOk = true ∧ s.calm.work = none ∧ txAddr tx = 0 ∧ 1 ≤ txLen tx ∧ txLen tx ≤ 8 →
    Completes (.idRead tx) s fun t =>
      t.out = s.out ++ [.calm (BitVec.ofNat 8 s.stat8) 0x5A (s.idWords.take (txLen tx))] ∧
      t.rd CP_STAT.LAST_ACK = 0x5A) ∧
  (∀ (s : State) (tx : CalmTx), s.canon = true →
    s.calmSilent = false ∧ tx.crcOk = true ∧ s.calm.work = none ∧ 1 ≤ txLen tx ∧ txLen tx ≤ 64 →
    Completes (.planeRead tx) s fun t =>
      t.out = s.out ++ [.calm (BitVec.ofNat 8 s.stat8) 0x5A ((List.range (txLen tx)).map (fun i => s.planeReg (txAddr tx + 4 * i)))] ∧
      t.rd CP_STAT.LAST_ACK = 0x5A) ∧
  (∀ (s : State) (tx : CalmTx) (data : List Word), s.canon = true →
    s.calmSilent = false ∧ tx.crcOk = true ∧ s.calm.work = none ∧ txLen tx = 1 ∧ txAddr tx = 4 ∧ data = [3] →
    Completes (.planeWrite tx data) s fun t =>
      (t.calm.opErr, t.calm.storeErr, t.calm.bufValid, t.calm.buf) = (false, false, false, []) ∧
      t.rd CP_STAT.LAST_ACK = 0x5A) ∧
  (∀ (s : State) (tx : CalmTx) (data : List Word), s.canon = true →
    s.calmSilent = false ∧ tx.crcOk = true ∧ s.calm.work = none ∧ s.memOk = true →
    1 ≤ txLen tx ∧ txAddr tx + txLen tx ≤ 1024 ∧ data.length = txLen tx →
    Completes (.bufWrite tx data) s fun t =>
      memBytes t.calm.buf (4 * txAddr tx) (4 * txLen tx) = bytesOf data ∧
      t.calm.bufValid = true ∧
      t.rd CP_STAT.LAST_ACK = 0x5A) ∧
  (∀ (s : State) (tx : CalmTx), s.canon = true →
    s.calmSilent = false ∧ tx.crcOk = true ∧ s.calm.work = none ∧ 1 ≤ txLen tx ∧ txAddr tx + txLen tx ≤ 1024 →
    Completes (.bufRead tx) s fun t =>
      t.out = s.out ++ [.calm (BitVec.ofNat 8 s.stat8) 0x5A ((List.range (txLen tx)).map (fun i => memWord s.calm.buf (4 * (txAddr tx + i))))] ∧
      t.calm = s.calm) ∧
  (∀ (s : State) (tx : CalmTx), s.canon = true →
    s.calmSilent = false ∧ tx.crcOk = true ∧ s.calm.work = none ∧ txAddr tx = 0 ∧ txLen tx = 0 →
    Completes (.pump tx) s fun t =>
      t.out = s.out ++ [.calm (BitVec.ofNat 8 s.stat8) 0x5A [0]]) ∧
  (∀ (s : State) (tx : CalmTx), s.canon = true →
    ∀ k, s.calm.work = some k →
    s.calmSilent = false ∧ tx.crcOk = true ∧ txAddr tx = 0 ∧ txLen tx = 0 ∧ 80 + 8 * tx.after.toNat < k.left →
    Completes (.pump tx) s fun t =>
      t.out = s.out ++ [.calm (BitVec.ofNat 8 s.stat8) 0x5A [BitVec.ofNat 32 tx.after.toNat]] ∧
      t.calm.work = some { k with left := k.left - (80 + 8 * tx.after.toNat) }) ∧
  (∀ (s : State) (bytes : Half), s.canon = true →
    ∀ k, s.calm.work = some k →
    s.calmSilent = false ∧ 8 * bytes.toNat < k.left →
    Completes (.calmTransactionCut bytes) s fun t =>
      t.rd CP_STAT.LAST_ACK = 0 ∧
      t.calm.work = some { k with left := k.left - 8 * bytes.toNat } ∧
      t.out = s.out) ∧
  (∀ (s : State), s.canon = true →
    s.calmSilent = false ∧ s.calm.work.isSome = true →
    Completes (.workCancel) s fun t =>
      t.calm.work = none) ∧
  (∀ (s : State), s.canon = true →
    s.calmSilent = false →
    Completes (.clrErr) s fun t =>
      (t.calm.opErr, t.calm.storeErr) = (false, false) ∧
      t.regs = s.regs) ∧
  (∀ (s : State), s.canon = true →
    s.calmSilent = false →
    Completes (.bufClr) s fun t =>
      (t.calm.bufValid, t.calm.buf) = (false, []) ∧
      t.calm.store = s.calm.store)

/-- A store operation that passes its checks is posted as work; the mailbox posts its own; the supervisors end it; records are
flushed. -/
def Obligations.StoreOperationsComplete : Prop :=
  (∀ (s : State) (tx : CalmTx), s.canon = true →
    s.calmSilent = false ∧ tx.crcOk = true ∧ tx.after = 0 ∧ s.calm.work = none →
    firstAck (s.storeChecks 0x21 (txAddr tx) (txLen tx)) = 0x5A →
    Completes (.storeProg tx) s fun t =>
      t.calm.work.map (fun k => (k.opc, k.addr, k.arg, k.left)) = some (0x21, txAddr tx, txLen tx, s.storeCost 0x21 (txAddr tx) (txLen tx)) ∧
      t.rd CP_STAT.LAST_ACK = 0x5A) ∧
  (∀ (s : State) (tx : CalmTx), s.canon = true →
    s.calmSilent = false ∧ tx.crcOk = true ∧ tx.after = 0 ∧ s.calm.work = none →
    firstAck (s.storeChecks 0x22 (txAddr tx) (txLen tx)) = 0x5A →
    Completes (.storeLoad tx) s fun t =>
      t.calm.work.map (fun k => (k.opc, k.addr, k.left)) = some (0x22, txAddr tx, 1024) ∧
      t.rd CP_STAT.LAST_ACK = 0x5A) ∧
  (∀ (s : State) (tx : CalmTx) (data : List Word), s.canon = true →
    s.calmSilent = false ∧ tx.crcOk = true ∧ tx.after = 0 ∧ s.calm.work = none →
    firstAck (s.storeChecks 0x23 (txAddr tx) (txLen tx)) = 0x5A →
    Completes (.storeSeal tx data) s fun t =>
      t.calm.work.map (fun k => (k.opc, k.addr, k.arg)) = some (0x23, txAddr tx, (data.headD 0).toNat) ∧
      t.rd CP_STAT.LAST_ACK = 0x5A) ∧
  (∀ (s : State) (tx : CalmTx), s.canon = true →
    s.calmSilent = false ∧ tx.crcOk = true ∧ tx.after = 0 ∧ s.calm.work = none →
    firstAck (s.storeChecks 0x24 (txAddr tx) (txLen tx)) = 0x5A →
    Completes (.storeInval tx) s fun t =>
      t.calm.work.map (fun k => (k.opc, k.addr, k.left)) = some (0x24, txAddr tx, 4096) ∧
      t.rd CP_STAT.LAST_ACK = 0x5A) ∧
  (∀ (s : State) (tx : CalmTx) (data : List Word), s.canon = true →
    s.calmSilent = false ∧ tx.crcOk = true ∧ tx.after = 0 ∧ s.calm.work = none →
    firstAck (s.storeChecks 0x25 (txAddr tx) (txLen tx)) = 0x5A →
    Completes (.storeHdr tx data) s fun t =>
      t.calm.work.map (fun k => (k.opc, k.arg, k.left)) = some (0x25, (data.headD 0).toNat, 4096) ∧
      t.rd CP_STAT.LAST_ACK = 0x5A) ∧
  (∀ (s : State) (o : Origin) (v : Word), s.canon = true →
    0x21 ≤ fldOf ST_CMD.OPC v ∧ fldOf ST_CMD.OPC v ≤ 0x25 ∧ s.calm.work = none →
    firstAck (s.storeChecks (fldOf ST_CMD.OPC v) (s.reg ST_ADDR).toNat (s.rd ST_LEN.LEN)) = 0x5A →
    Completes (.stCmd o v) s fun t =>
      t.rd ST_STAT.ACK = 0x5A ∧
      t.bit ST_STAT.BUSY = true ∧
      t.calm.work.map (fun k => (k.opc, k.addr, k.mail)) = some (fldOf ST_CMD.OPC v, (s.reg ST_ADDR).toNat, true)) ∧
  (∀ (s : State) (o : Origin) (v : Word), s.canon = true →
    s.calm.work.isSome = true ∧ 0x21 ≤ fldOf ST_CMD.OPC v ∧ fldOf ST_CMD.OPC v ≤ 0x25 →
    s.storeBadArg (fldOf ST_CMD.OPC v) (s.reg ST_ADDR).toNat (s.rd ST_LEN.LEN) = false →
    Completes (.stCmd o v) s fun t =>
      t.rd ST_STAT.ACK = 0x54 ∧
      t.calm = s.calm) ∧
  (∀ (s : State), s.canon = true →
    ∀ k, s.calm.work = some k →
    k.mail = true ∧ s.partRuns .engines = true ∧ k.opc = 0x22 →
    Completes (.planeWorkDone) s fun t =>
      t.calm.work = none ∧
      t.bit ST_STAT.BUSY = false ∧
      memBytes t.calm.buf 0 4096 = memBytes s.calm.store (storeSlot k.addr * 0x200000 + storeSector k.addr * 0x1000) 4096 ∧
      s.time.tick ≤ t.time.tick) ∧
  (∀ (s : State), s.canon = true →
    s.runs .core = true →
    Completes (.journalFlush) s fun t =>
      t.calm.notes = [] ∧
      t.calm.store = s.calm.store)

/-- Posted words cross in order, a snapshot is asked for, taken and read, fuses are programmed, and boot tries its slots. -/
def Obligations.PostedWritesAndBootComplete : Prop :=
  (∀ (s : State) (tx : CalmTx) (data : List Word), s.canon = true →
    s.calmSilent = false ∧ tx.crcOk = true ∧ s.calm.work = none ∧ 1 ≤ txLen tx ∧ txLen tx ≤ 64 ∧ txAddr tx % 4 = 0 →
    s.refclkOk = true ∧ s.calm.posted.length + txLen tx ≤ 64 ∧ data.length = txLen tx →
    Completes (.opWrite tx data) s fun t =>
      t.calm.posted = s.calm.posted ++ (data.zipIdx.map (fun e => (opAddr tx.addr e.2, e.1))) ∧
      t.rd CP_STAT.LAST_ACK = 0x5A) ∧
  (∀ (s : State), s.canon = true →
    ∀ x, s.calm.posted.head? = some x →
    s.crosses = true ∧ s.opLocal x.1 = true ∧ s.reachable (opDomain x.1) = true ∧ opBar2 x.1 = false →
    opOffset x.1 = LD_LEN ∧ s.committed = true ∧ s.cfg.commit = none ∧ s.rst.request = none ∧ s.rst.asked = none →
    Completes (.postedWriteApply) s fun t =>
      t.calm.posted = s.calm.posted.tail ∧
      t.rd LD_LEN.LEN = fldOf LD_LEN.LEN x.2) ∧
  (∀ (s : State) (tx : CalmTx), s.canon = true →
    s.calmSilent = false ∧ tx.crcOk = true ∧ s.calm.work = none ∧ 1 ≤ txLen tx ∧ txLen tx ≤ 64 ∧ txAddr tx % 4 = 0 ∧ s.refclkOk = true →
    Completes (.opRead tx) s fun t =>
      t.calm.want = some (tx.addr, txLen tx, s.calm.posted.length) ∧
      t.rd ⟨CP_SNAPTAG, 0, 3⟩ = 1 ∧
      t.rd CP_STAT.LAST_ACK = 0x5A) ∧
  (∀ (s : State), s.canon = true →
    ∀ x, s.calm.want = some x →
    x.2 = (1, 0) ∧ s.calm.taking = none ∧ s.crosses = true ∧ s.opLocal x.1 = true ∧ s.reachable (opDomain x.1) = true →
    opBar2 x.1 = false ∧ opOffset x.1 = LD_LEN ∧ x.1.getLsbD 31 = false ∧ s.regExists LD_LEN = true →
    Completes (.snapshotTake) s fun t =>
      t.calm.snap = [s.reg LD_LEN] ∧
      t.rd ⟨CP_SNAPTAG, 0, 3⟩ = 2 ∧
      t.calm.want = none) ∧
  (∀ (s : State) (tx : CalmTx), s.canon = true →
    s.calmSilent = false ∧ tx.crcOk = true ∧ s.calm.work = none ∧ 1 ≤ txLen tx ∧ txAddr tx + txLen tx ≤ 64 →
    Completes (.snapRead tx) s fun t =>
      t.out = s.out ++ [.calm (BitVec.ofNat 8 s.stat8) 0x5A (s.reg CP_SNAPTAG :: (List.range (txLen tx)).map (fun i => s.snapWord (txAddr tx + i)))] ∧
      t.rd CP_STAT.LAST_ACK = 0x5A) ∧
  (∀ (s : State) (tx : CalmTx) (data : List Word), s.canon = true →
    s.calmSilent = false ∧ tx.crcOk = true ∧ s.calm.work = none ∧ firstAck (s.fuseChecks tx) = 0x5A →
    Completes (.fuseProg tx data) s fun t =>
      t.calm.fuse = some (txAddr tx, data.headD 0, .calm) ∧
      t.bit CP_FUSESTAT.BUSY = true ∧
      t.fuses = s.fuses) ∧
  (∀ (s : State) (back : Word), s.canon = true →
    ∀ f, s.calm.fuse = some f →
    Completes (.fuseProgDone back) s fun t =>
      tabGet (fun _ => 0) t.fuses f.1 = tabGet (fun _ => 0) s.fuses f.1 ||| (f.2.1 &&& back) ∧
      (t.rd CP_FUSESTAT.RESULT = (if f.2.1 &&& back = f.2.1 then 0 else 1)) ∧
      (t.calm.fuse = none ∧
      t.bit CP_FUSESTAT.BUSY = false)) ∧
  (∀ (s : State) (tx : CalmTx), s.canon = true →
    s.calmSilent = false ∧ tx.crcOk = true ∧ s.calm.work = none ∧ firstAck (s.bootChecks (txAddr tx) (txLen tx)) = 0x5A →
    Completes (.boot tx) s fun t =>
      (t.calm.boot.map (fun b => (b.slots, b.asked)) = some (if txAddr tx = 0xF then s.bootOrder else [txAddr tx], some .calm)) ∧
      t.rd CP_STAT.LAST_ACK = 0x5A) ∧
  (∀ (s : State), s.canon = true →
    ∀ b, s.calm.boot = some b →
    ∀ k, (b.slots.dropWhile (fun k => s.slotState k != 2)).head? = some k →
    s.partRuns .engines = true ∧ b.slot = none ∧ b.failed = none ∧ s.cfg.load = none ∧ s.cfg.line = [] ∧ k < 4 →
    Completes (.mramBoot) s fun t =>
      t.calm.boot.map (fun b => b.slot) = some (some k) ∧
      t.rd CP_BOOTSTAT.LAST_SLOT = k ∧
      t.cfg.load.map (fun l => l.src) = some (.boot k)) ∧
  (∀ (s : State), s.canon = true →
    ∀ b, s.calm.boot = some b →
    ∀ r, b.failed = some r →
    b.slot.isSome = true ∧ b.slots = [] ∧ r < 32 →
    Completes (.bootSlotFail) s fun t =>
      t.calm.boot = none ∧
      t.rd CP_BOOTSTAT.LAST_RESULT = r) ∧
  (∀ (s : State), s.canon = true →
    ∀ l, s.routeTo 0 = some l →
    s.isMember = true ∧ s.bootSource = 2 ∧ s.rd CP_BOOTSTAT.STATE = 3 ∧ s.partRuns .engines = true ∧ s.ownNum ≠ 0 →
    Completes (.chainBootRequest .ask) s fun t =>
      ((t.link l).waiting ++ (t.link l).replay).any (fun c => c.msg == .manage [bootCell] && c.dst == 0) = true) ∧
  (∀ (s : State) (bs : List Byte), s.canon = true →
    s.isMember = true ∧ s.bootSource = 2 ∧ s.rd CP_BOOTSTAT.STATE = 3 ∧ s.cfg.load = none ∧ s.cfg.line = [] →
    Completes (.chainBootRequest (.arrived bs)) s fun t =>
      t.rd CP_BOOTSTAT.STATE = 4 ∧
      t.cfg.load.map (fun l => (l.src, l.bytes)) = some (.chain, bs)) ∧
  (∀ (s : State) (d : Fin 64), s.canon = true →
    ∀ k, s.memberSlot = some k →
    ∀ l, s.routeTo d = some l →
    s.role = 1 ∧ s.partRuns .engines = true ∧ d.val ≠ s.ownNum →
    Completes (.chainBootRequest (.stream d)) s fun t =>
      ((t.link l).waiting ++ (t.link l).replay).any (fun c => c.dst == d && c.vc == 3) = true)

/-- Gateways request and withdraw, a target claims and completes, software sets and clears, and members report. -/
def Obligations.InterruptsComplete : Prop :=
  (∀ (s : State) (n : BitVec 11), s.canon = true →
    privileged n.toNat = false ∧ n.toNat ≠ 0 ∧ s.partRuns .eic = true ∧ s.sense n.toNat = 0 ∧ (n.toNat ≤ 16 ∨ s.srcInput n.toNat = true) →
    (s.gate n.toNat).st = .idle →
    Completes (.gatewayRequest n) s fun t =>
      (t.gate n.toNat).st = .pending ∧
      (t.gate n.toNat).input = true) ∧
  (∀ (s : State) (n : BitVec 11), s.canon = true →
    privileged n.toNat = false ∧ n.toNat ≠ 0 ∧ s.partRuns .eic = true ∧ s.sense n.toNat = 0 →
    (1 ≤ n.toNat ∧ n.toNat ≤ 16) ∨ (16 < n.toNat ∧ s.srcInput n.toNat = false) →
    (s.gate n.toNat).st = .pending ∧ (s.gate n.toNat).bySoft = false →
    Completes (.gatewayWithdraw n) s fun t =>
      (t.gate n.toNat).st = .idle ∧
      (t.gate n.toNat).input = false) ∧
  (∀ (s : State) (m : Master) (k : Fin 8) (gust : Bool), s.canon = true →
    s.partRuns .eic = true ∧ s.topEligible k gust ≠ 0 →
    Completes (.claim m k gust) s fun t =>
      ((t.gate (s.topEligible k gust)).st, (t.gate (s.topEligible k gust)).owner, (t.gate (s.topEligible k gust)).gust) = (.claimed, k.val, gust) ∧
      t.out.getLast? = some (.answer m (BitVec.ofNat 64 (s.topEligible k gust)))) ∧
  (∀ (s : State) (m : Master) (k : Fin 8) (gust : Bool), s.canon = true →
    s.partRuns .eic = true ∧ s.topEligible k gust = 0 ∧ (if gust then (s.target k).raisedG else (s.target k).raisedB) = false →
    Completes (.claim m k gust) s fun t =>
      t.out = s.out ++ [.answer m 0] ∧
      t.eic = s.eic) ∧
  (∀ (s : State) (m : Master) (k : Fin 8) (gust : Bool) (v : Word), s.canon = true →
    v.toNat % 2048 ≠ 0 ∧ v.toNat % 2048 ≠ 2047 ∧ s.eic.waiting = [] ∧ s.eic.tcfgs = [] →
    (s.gate (v.toNat % 2048)).st = .claimed ∧ (s.gate (v.toNat % 2048)).owner = k.val ∧ (s.gate (v.toNat % 2048)).gust = gust →
    Completes (.complete m k gust v) s fun t =>
      (t.gate (v.toNat % 2048)).st ≠ .claimed ∧
      t.reg EIC_CNT_BADCMP = s.reg EIC_CNT_BADCMP) ∧
  (∀ (s : State) (m : Master) (k : Fin 8) (gust : Bool) (v : Word), s.canon = true →
    v.toNat % 2048 ≠ 0 ∧ v.toNat % 2048 ≠ 2047 ∧ (s.gate (v.toNat % 2048)).st ≠ .claimed →
    Completes (.complete m k gust v) s fun t =>
      t.reg EIC_CNT_BADCMP = countUp (s.reg EIC_CNT_BADCMP) ∧
      t.eic = s.eic) ∧
  (∀ (s : State) (m : Master) (i : Fin 64) (v : Word), s.canon = true →
    (sourcesIn i v).length = 1 →
    Completes (.pset m i v) s fun t =>
      (sourcesIn i v).all (fun n => (s.gate n).st != .idle || ((t.gate n).st == .pending && (t.gate n).bySoft)) = true ∧
      (sourcesIn i v).all (fun n => (t.gate n).st != .idle) = true) ∧
  (∀ (s : State) (m : Master) (i : Fin 64) (v : Word), s.canon = true →
    (sourcesIn i v).length = 1 ∧ (sourcesIn i v).all (fun n => decide (229 ≤ n) && !privileged n) = true →
    Completes (.pendClear m i v) s fun t =>
      (sourcesIn i v).all (fun n => (t.gate n).st != .pending && !(t.gate n).repend && !(t.gate n).bySoft) = true) ∧
  (∀ (s : State) (d : Fin 64) (lines : BitVec 6), s.canon = true →
    d.val ≠ 0 ∧ s.partRuns .eic = true →
    Completes (.chainIrqReport d lines) s fun t =>
      tabGet (fun _ => 0) t.eic.members d = lines ∧
      (t.gate (165 + d.val)).input = decide (lines ≠ 0))

/-- A record is written with its stamp, code and payload or is suppressed, tokens are refilled, and copies of members are taken. -/
def Obligations.LogCompletes : Prop :=
  (∀ (s : State) (c : Fin 16) (idx : Byte) (o : Origin) (pay : List Word), s.canon = true →
    s.runs .core = true ∧ s.log.held = [] ∧ s.unlimited c = true ∧ pay.length ≤ 4 ∧ s.log.discards = false →
    s.log.q.held + 8 ≤ s.logCap * 8 →
    Completes (.eventRecordWrite c idx o pay) s fun t =>
      t.log.q.words = s.log.q.words ++ (s.record s.now false false (c.val * 256 + idx.toNat) o pay).zipIdx.map (fun x => { data := x.1, fin := x.2 == 7 }) ∧
      t.reg EL_CNT_REC = countUp (s.reg EL_CNT_REC)) ∧
  (∀ (s : State) (c : Fin 16) (idx : Byte) (o : Origin) (pay : List Word), s.canon = true →
    s.runs .core = true ∧ s.log.held = [] ∧ 2 ≤ c.val ∧ s.rd (EL_CLS_CFG.RATE c) = 0 ∧ pay.length ≤ 4 →
    Completes (.eventRecordWrite c idx o pay) s fun t =>
      t.log.q = s.log.q ∧
      t.reg (EL_CLS_SUP c) = countUp (s.reg (EL_CLS_SUP c)) ∧
      (t.cls c).supp = (s.cls c).supp + 1) ∧
  (∀ (s : State), s.canon = true →
    s.runs .core = true ∧ s.log.held = [] ∧ s.isMember = false →
    Completes (.logTimerTick) s fun t =>
      (List.range' 2 14).all (fun c => (t.cls c).tokens == min (s.burst c) ((s.cls c).tokens + s.rd (EL_CLS_CFG.RATE c))) = true ∧
      (List.range 16).all (fun c => (t.cls c).supp == 0) = true) ∧
  (∀ (s : State) (o : Origin) (c : Fin 16) (v : Word), s.canon = true →
    2 ≤ c.val →
    Completes (.elClsCfgWrite o c v) s fun t =>
      t.reg (EL_CLS_CFG c) = v ∧
      (t.cls c).tokens = max 1 (fldOf (EL_CLS_CFG.BURST c) v)) ∧
  (∀ (s : State) (d : Fin 64) (ws : List Word), s.canon = true →
    ws.length = 8 ∧ s.log.discards = false ∧ s.log.q.held + 8 ≤ s.logCap * 8 →
    Completes (.eventCopyReceive d ws) s fun t =>
      t.log.q.words = s.log.q.words ++ ws.zipIdx.map (fun x => { data := x.1, fin := x.2 == 7 }) ∧
      t.reg EL_CNT_RXFWD = countUp (s.reg EL_CNT_RXFWD))

/-- REFCLK is judged good or lost, PLLs lock, lose lock and becalm, and a resumption is acknowledged and steps on. -/
def Obligations.ClocksComplete : Prop :=
  (∀ (s : State) (count : BitVec 9), s.canon = true →
    s.monGood count.toNat = true ∧ s.bit CK_STAT.REFCLK_OK = true →
    Completes (.refclkMonitorWindow count) s fun t =>
      t.rd CK_MON.GOOD = min 8 (s.rd CK_MON.GOOD + 1) ∧
      t.rd CK_MON.COUNT = count.toNat ∧
      t.bit CK_STAT.REFCLK_OK = true) ∧
  (∀ (s : State) (count : BitVec 9), s.canon = true →
    s.monGood count.toNat = false ∧ s.bit CK_STAT.REFCLK_OK = true →
    Completes (.refclkMonitorWindow count) s fun t =>
      t.bit CK_STAT.REFCLK_OK = false ∧
      t.bit CK_STAT.LEVEL1 = true ∧
      t.reg CK_CNT_BADWIN = countUp (s.reg CK_CNT_BADWIN) ∧
      t.reg CK_CNT_LEVEL1 = countUp (s.reg CK_CNT_LEVEL1)) ∧
  (∀ (s : State) (count : BitVec 9), s.canon = true →
    s.monGood count.toNat = true ∧ s.bit CK_STAT.REFCLK_OK = false ∧ 7 ≤ s.rd CK_MON.GOOD →
    Completes (.refclkMonitorWindow count) s fun t =>
      t.bit CK_STAT.REFCLK_OK = true ∧
      t.bit CK_STAT.LEVEL1 = false) ∧
  (∀ (s : State), s.canon = true →
    s.bit CK_STAT.REFCLK_OK = true →
    Completes (.refclkEdgeTimeout) s fun t =>
      t.bit CK_STAT.REFCLK_OK = false ∧
      t.bit CK_STAT.LEVEL1 = true ∧
      t.reg CK_CNT_FORCESW = countUp (s.reg CK_CNT_FORCESW)) ∧
  (∀ (s : State), s.canon = true →
    s.bit CK_STAT.REFCLK_OK = true ∧ s.partRuns .eic = false →
    s.rd (EIC_TCFG.DELIV 0) = 2 ∧ (s.tmask clkFail).testBit 0 = true ∧ s.bit (EIC_SRC_CFG.EN clkFail) = true ∧ (s.target 0).gcount = 0 →
    Completes (.refclkEdgeTimeout) s fun t =>
      t.irqLow 0 = true) ∧
  (∀ (s : State) (n : Fin 5) (c : BitVec 24), s.canon = true →
    1 ≤ s.rd (CK_PLL.STATE n) ∧ s.rd (CK_PLL.STATE n) ≤ 3 →
    (s.pllCount n).1 - (s.pllCount n).2 ≤ c.toNat ∧ c.toNat ≤ (s.pllCount n).1 + (s.pllCount n).2 →
    Completes (.pllWindow n (some c)) s fun t =>
      t.rd (CK_PLL.GOOD n) = min 4 (s.rd (CK_PLL.GOOD n) + 1) ∧
      t.rd (CK_PLL.COUNT n) = c.toNat) ∧
  (∀ (s : State) (n : Fin 5), s.canon = true →
    s.pllInUse n = true →
    Completes (.pllWindow n none) s fun t =>
      t.bit CK_STAT.BECALM = true ∧
      (t.rd (CK_PLL.STATE n) = (if s.bit CK_STAT.REFCLK_OK then 1 else 4)) ∧
      t.reg CK_CNT_LOCKLOST = countUp (s.reg CK_CNT_LOCKLOST)) ∧
  (∀ (s : State) (plls : BitVec 5) (on : Bool), s.canon = true →
    Completes (.pllLockDetect plls on) s fun t =>
      ((List.range 5).all (fun n => if plls.getLsbD n then t.clk.detects.contains n == on else t.clk.detects.contains n == s.clk.detects.contains n) = true)) ∧
  (∀ (s : State) (n : Fin 5) (forced : Bool), s.canon = true →
    s.rd (CK_PLL.STATE n) = 2 →
    Completes (.pllLocked n forced) s fun t =>
      t.rd (CK_PLL.STATE n) = 3 ∧
      t.bit CK_EVT.RELOCKED = true ∧
      s.time.tick ≤ t.time.tick) ∧
  (∀ (s : State) (o : Origin), s.canon = true →
    s.bit CK_STAT.BECALM_READY = true ∧ s.bit CK_STAT.ACK_WAIT = true →
    Completes (.resumeAck o) s fun t =>
      t.bit CK_STAT.ACK_WAIT = false ∧
      t.clk.resume = some 0) ∧
  (∀ (s : State) (o : Origin), s.canon = true →
    s.bit CK_STAT.BECALM_READY = false →
    Completes (.resumeAck o) s fun t =>
      t.bit CK_EVT.ACK_EARLY = true ∧
      t.clk = s.clk) ∧
  (∀ (s : State) (rxd : BitVec 16), s.canon = true →
    ∀ k, s.clk.resume = some k →
    k = 2 ∧ s.rst.coreWaits = none →
    Completes (.becalmResumeStep rxd) s fun t =>
      t.clk.resume = some 3 ∧
      t.clk.timeHold = false ∧
      s.time.tick ≤ t.time.tick) ∧
  (∀ (s : State) (o : Origin) (v : Word), s.canon = true →
    s.bit CK_CFG.SPLL1_EN = false ∧ fldOf CK_CFG.SPLL1_EN v = 1 →
    fldOf CK_CFG.DPLL_EN v = s.rd CK_CFG.DPLL_EN ∧ fldOf CK_CFG.DPLL_RATE v = s.rd CK_CFG.DPLL_RATE →
    Completes (.pllEnableWrite o v) s fun t =>
      t.bit CK_CFG.SPLL1_EN = true ∧
      t.rd (CK_PLL.STATE 3) = 1) ∧
  (∀ (s : State) (o : Origin) (v : Word), s.canon = true →
    s.bit CK_CFG.DPLL_EN = false ∧ fldOf CK_CFG.DPLL_EN v = 0 ∧ fldOf CK_CFG.SPLL1_EN v = s.rd CK_CFG.SPLL1_EN →
    Completes (.dpllRateChange o v) s fun t =>
      t.rd CK_CFG.DPLL_RATE = fldOf CK_CFG.DPLL_RATE v ∧
      t.rd (CK_PLL.STATE 4) = s.rd (CK_PLL.STATE 4))

/-- RESET_N is timed and acts at its thresholds, supplies fail and return, and releases and core resets go step by step. -/
def Obligations.ResetsComplete : Prop :=
  (∀ (s : State), s.canon = true →
    s.rst.low = false →
    Completes (.resetNFall) s fun t =>
      (t.rst.low, t.rst.level, t.rst.monAt) = (true, 0, (s.reg TB_MONCAL).toNat) ∧
      t.regs = s.regs) ∧
  (∀ (s : State), s.canon = true →
    s.rst.low = true ∧ s.rst.level = 0 ∧ s.rst.por = false ∧ s.rst.bring = 0 ∧ s.bit CK_STAT.BECALM = false →
    Completes (.resetThreshold) s fun t =>
      t.rst.level = 1 ∧
      (t.rst.bring = 1 ∧
      t.rst.core = 1) ∧
      t.reg RST_CNT_CORE = countUp (s.reg RST_CNT_CORE)) ∧
  (∀ (s : State) (cycles : Word) (strap : BitVec 4), s.canon = true →
    s.rst.low = true ∧ s.rst.level = 0 ∧ cycles.toNat < 48 →
    Completes (.resetNRise false cycles strap) s fun t =>
      t.rst.low = false ∧
      t.reg RST_CNT_GLITCH = countUp (s.reg RST_CNT_GLITCH) ∧
      t.bit PW_EVT.GLITCH = true) ∧
  (∀ (s : State) (strap : BitVec 4), s.canon = true →
    s.rst.por = true ∧ s.rst.supplies = [] ∧ s.rst.low = false →
    Completes (.powerOnResetEnd strap) s fun t =>
      t.rst.por = false ∧
      t.shadow = s.fuses ∧
      t.reg ID_RCFG = strap.setWidth 32 ∧
      t.rst.toRelease = false) ∧
  (∀ (s : State) (x : Fin 7), s.canon = true →
    Completes (.supplyFail x) s fun t =>
      t.rst.por = true ∧
      t.rst.supplies.contains x.val = true ∧
      (s.rst.por = false → t.regs.all (fun e => keepsReg true e.1 || [DDR_STAT 0, DDR_STAT 1, GP_BANK].contains e.1) = true)) ∧
  (∀ (s : State) (x : Fin 7), s.canon = true →
    s.rst.supplies = [x.val] →
    Completes (.supplyReturn x) s fun t =>
      t.rst.supplies = [] ∧
      t.rst.porAt = s.time.tick) ∧
  (∀ (s : State), s.canon = true →
    2 ≤ s.rst.bring ∧ s.rst.por = false ∧ s.rst.low = false ∧ s.rst.toRelease = true →
    Completes (.releaseStep) s fun t =>
      t.rst.toRelease = false ∧
      t.rd RST_CAUSE.LAST = s.rst.cause % 8) ∧
  (∀ (s : State), s.canon = true →
    2 ≤ s.rst.bring ∧ s.rst.por = false ∧ s.rst.low = false ∧ s.rst.toRelease = false ∧ s.rd RST_STAT.PHASE = 0 →
    s.bit CK_STAT.REFCLK_OK = true →
    Completes (.releaseStep) s fun t =>
      t.rd RST_STAT.PHASE = 1 ∧
      (List.range 5).all (fun n => !s.pllEnabled n || t.rd (CK_PLL.STATE n) == 1) = true) ∧
  (∀ (s : State), s.canon = true →
    2 ≤ s.rst.bring ∧ s.rst.por = false ∧ s.rst.low = false ∧ s.rst.toRelease = false ∧ s.rd RST_STAT.PHASE = 6 →
    Completes (.releaseStep) s fun t =>
      t.rd RST_STAT.PHASE = 8 ∧
      t.rst.bring = 0 ∧
      t.bit PW_EVT.RESET_DONE = true) ∧
  (∀ (s : State), s.canon = true →
    s.rst.core = 1 →
    Completes (.coreResetStep) s fun t =>
      t.rst.core = 2 ∧
      (s.host.cmds = [] ∧
      s.host.aborts = [] → t.host = s.host)) ∧
  (∀ (s : State), s.canon = true →
    s.rst.core = 4 →
    Completes (.coreResetStep) s fun t =>
      (t.rst.core = 0 ∧
      t.rst.bring = 0) ∧
      t.bit PW_EVT.RESET_DONE = true ∧
      s.time.tick ≤ t.time.tick) ∧
  (∀ (s : State) (o : Origin), s.canon = true →
    s.rst.request = none ∧ s.rst.asked = none ∧ s.rst.por = false ∧ s.rst.bring = 0 ∧ s.bit CK_STAT.BECALM = false →
    Completes (.rstCtrlCore o) s fun t =>
      (t.rst.bring = 1 ∧
      t.rst.core = 1 ∧
      t.rst.cause = 6) ∧
      t.reg RST_CNT_CORE = countUp (s.reg RST_CNT_CORE)) ∧
  (∀ (s : State) (o : Origin) (core : Bool), s.canon = true →
    s.rst.request = none ∧ s.rst.asked = none ∧ s.rst.por = false ∧ s.rst.bring = 0 →
    Completes (.rstCtrlSystem o core) s fun t =>
      (t.rst.bring = 2 ∧
      t.rst.toRelease = true ∧
      t.rst.cause = 5) ∧
      (t.queues = [] ∧
      t.engines = [] ∧
      t.mem.scratch = []))

/-- RUN, LULL, STILL and OFF are asked for and reached, a wake ends STILL, and retained storage is read. -/
def Obligations.PowerStatesComplete : Prop :=
  (∀ (s : State) (o : Origin), s.canon = true →
    s.rst.request = none ∧ s.rst.asked = none ∧ s.rst.bring = 0 ∧ s.rd PW_STAT.STATE = 0 →
    Completes (.reqLull o) s fun t =>
      t.rd PW_STAT.STATE = 1 ∧
      (List.range 48).all (fun e => s.ceState e != ceRunning || t.ceState e == ceGated) = true) ∧
  (∀ (s : State) (o : Origin), s.canon = true →
    s.rst.request = none ∧ s.rst.asked = none ∧ s.rst.bring = 0 ∧ s.rd PW_STAT.STATE = 1 →
    Completes (.reqRun o) s fun t =>
      t.rd PW_STAT.STATE = 0 ∧
      t.bit PW_EVT.LULL_CHANGE = true) ∧
  (∀ (s : State) (o : Origin), s.canon = true →
    s.rst.request = none ∧ s.rst.bring = 0 ∧ s.rd PW_STAT.STATE = 0 →
    Completes (.reqStill o) s fun t =>
      t.rd PW_STAT.STATE = 2 ∧
      (t.rst.entered, t.rst.offAfter) = (0, false) ∧
      t.rd PW_CTRL.REQ = 2) ∧
  (∀ (s : State) (o : Origin), s.canon = true →
    s.rst.request = none ∧ s.rst.bring = 0 ∧ s.rd PW_STAT.STATE = 0 →
    Completes (.reqOff o) s fun t =>
      t.rd PW_STAT.STATE = 2 ∧
      (t.rst.entered, t.rst.offAfter) = (0, true)) ∧
  (∀ (s : State) (o : Origin), s.canon = true →
    s.rst.request = none ∧ s.rd PW_STAT.STATE = 3 →
    Completes (.reqOff o) s fun t =>
      t.rd PW_STAT.STATE = 5) ∧
  (∀ (s : State), s.canon = true →
    s.rd PW_STAT.STATE = 2 ∧ s.rst.entered = 3 →
    Completes (.stillEntryStep) s fun t =>
      t.rst.entered = 4 ∧
      t.stopped.power.contains .core = true ∧
      t.rd PW_STAT.STEP = 3) ∧
  (∀ (s : State) (causes : BitVec 14), s.canon = true →
    s.rd PW_STAT.STATE = 3 ∧ causes &&& (s.reg PW_WAKE_EN).setWidth 14 ≠ 0 ∧ s.rst.entered = 6 →
    Completes (.wake causes) s fun t =>
      t.rd PW_STAT.STATE = 4 ∧
      t.rd PW_WAKE_CAUSE.CAUSE = (causes &&& (s.reg PW_WAKE_EN).setWidth 14).toNat ∧
      t.reg PW_CNT_WAKE = countUp (s.reg PW_CNT_WAKE) ∧
      t.rst.exitStep = 1) ∧
  (∀ (s : State) (rxd : BitVec 16), s.canon = true →
    s.rd PW_STAT.STATE = 4 ∧ s.rst.exitStep = 6 ∧ s.rst.entered ≠ 6 ∧ s.rst.bring = 0 ∧ s.rst.asked = none ∧ s.rst.request = none →
    Completes (.stillExitStep rxd) s fun t =>
      (t.rd PW_STAT.STATE = (if s.bit PW_CFG.WAKE_TO then 1 else 0)) ∧
      (t.rst.exitStep, t.rst.entered) = (0, 0) ∧
      t.stopped.power.contains .hser = false) ∧
  (∀ (s : State) (m : Master) (off : BitVec 12) (perr : BitVec 2), s.canon = true →
    Completes (.retmemRead m off false perr) s fun t =>
      t.out = s.out ++ [.answer m ((s.reg (RETMEM off.toNat)).setWidth 64)] ∧
      (perr.getLsbD 0 = true → t.bit PW_EVT.RET_PERR = true)) ∧
  (∀ (s : State) (m : Master) (off : BitVec 12), s.canon = true →
    Completes (.retmemRead m off true 0) s fun t =>
      t.out = s.out ++ [.answer m (s.reg (RETMEM (off.toNat / 2 * 2 + 1)) ++ s.reg (RETMEM (off.toNat / 2 * 2)))] ∧
      t.regs = s.regs)

/-- Pins are locked by the key's sequence, configured, driven and sensed, and the test port takes its instructions. -/
def Obligations.PinsComplete : Prop :=
  (∀ (s : State) (m : Master) (w : Word), s.canon = true →
    tabGet (fun _ => 0) s.pins.seqs m.origin.num = 0 →
    Completes (.pinlock m (.lower w)) s fun t =>
      (tabGet (fun _ => 0) t.pins.seqs m.origin.num = (if w = 0x57 then 1 else 0)) ∧
      (w ≠ 0x57 → t.reg GP_CNT_LOCKSEQ = countUp (s.reg GP_CNT_LOCKSEQ))) ∧
  (∀ (s : State) (m : Master) (w : Word), s.canon = true →
    tabGet (fun _ => 0) s.pins.seqs m.origin.num = 1 ∧ w = 0xA8 →
    Completes (.pinlock m (.lower w)) s fun t =>
      tabGet (fun _ => 0) t.pins.seqs m.origin.num = 2 ∧
      t.regs = s.regs) ∧
  (∀ (s : State) (m : Master) (x : Word64), s.canon = true →
    tabGet (fun _ => 0) s.pins.seqs m.origin.num = 2 →
    Completes (.pinlock m (.whole x)) s fun t =>
      t.reg GP_LOCKED_LO = s.reg GP_LOCKED_LO ||| x.setWidth 32 ∧
      t.reg GP_LOCKED_HI = s.reg GP_LOCKED_HI ||| (x >>> 32).setWidth 32 ∧
      tabGet (fun _ => 0) t.pins.seqs m.origin.num = 0) ∧
  (∀ (s : State) (o : Origin) (n : Fin 64) (v : Word), s.canon = true →
    s.committed = true ∧ s.pinLocked n = false →
    Completes (.pinCfgWrite o (some n) v) s fun t =>
      t.rd (PIN_CFG.FSEL n) = fldOf (PIN_CFG.FSEL n) v ∧
      t.rd (PIN_CFG.PULL n) = fldOf (PIN_CFG.PULL n) v ∧
      t.pins.startHold.getLsbD n = false) ∧
  (∀ (s : State) (o : Origin) (v : Word), s.canon = true →
    s.committed = true ∧ s.reg GP_LOCKED_LO = 0 ∧ s.reg GP_LOCKED_HI = 0 →
    Completes (.pinCfgWrite o none v) s fun t =>
      t.reg GP_EXTL_SEL = v) ∧
  (∀ (s : State) (hi : Bool) (v : Word), s.canon = true →
    Completes (.gpSet hi v) s fun t =>
      t.reg (gpOut hi) = s.reg (gpOut hi) ||| v) ∧
  (∀ (s : State) (hi : Bool) (v : Word), s.canon = true →
    Completes (.gpClr hi v) s fun t =>
      t.reg (gpOut hi) = s.reg (gpOut hi) &&& ~~~v) ∧
  (∀ (s : State) (b : Fin 5) (level : BitVec 2), s.canon = true →
    s.bankLevel b ≠ level.toNat →
    Completes (.bankSupplyChange b level) s fun t =>
      t.bankLevel b = level.toNat ∧
      t.bit GP_EVT.BANK = true) ∧
  (∀ (s : State), s.canon = true →
    Completes (.tapReset) s fun t =>
      t.pins.ir = .idcode ∧
      t.tapCapture = (32, 0x016487AB) ∧
      (t.pins.cellEn, t.pins.cellLevel) = (s.pins.cellEn, s.pins.cellLevel)) ∧
  (∀ (s : State) (ir : TapIr) (en level : BitVec 64), s.canon = true →
    Completes (.tapInstruction ir en level) s fun t =>
      t.pins.ir = ir ∧
      (t.pins.cellEn, t.pins.cellLevel) = (en, level)) ∧
  (∀ p q : Fin 64, (Signal.gpio p).balls = (Signal.gpio q).balls → p = q) ∧
  ((Signal.netRx 11 true).balls = [⟨8, 36⟩] ∧ (Signal.dqs true 5 true).balls = [⟨16, 37⟩] ∧ (Signal.gpio 63).balls = [⟨39, 37⟩])

/-- Banks change state, the interleave is set, errors are scrubbed and injected, the window reads a word, and DRAM is initialised. -/
def Obligations.MemoriesComplete : Prop :=
  (∀ (s : State) (o : Origin) (v : Word), s.canon = true →
    s.committed = true ∧ v.toNat % 4 ≠ s.rd MEM_CFG.ILV ∧ (List.range 64).all (fun b => s.bankState b == 0 && s.busyWhy b == 0) = true →
    Completes (.ilvWrite o v) s fun t =>
      t.rd MEM_CFG.ILV = v.toNat % 4 ∧
      t.mem.scratch = []) ∧
  (∀ (s : State) (o : Origin) (v : Word), s.canon = true →
    s.committed = true ∧ v.toNat % 4 ≠ s.rd MEM_CFG.ILV ∧ (List.range 64).any (fun b => s.bankState b != 0) = true →
    Completes (.ilvWrite o v) s fun t =>
      t.rd MEM_CFG.ILV = s.rd MEM_CFG.ILV ∧
      t.bit MEM_EVT.ILV_REFUSED = true ∧
      t.mem = s.mem) ∧
  (∀ (s : State) (o : Origin) (i : Fin 4) (v : Word), s.canon = true →
    (List.range 16).all (fun k => s.busyWhy (16 * i + k) == 0 && s.bankState (16 * i + k) == 0 && s.bankWant (16 * i + k) == 0) = true →
    s.mem.changing = [] ∧ s.reg (MEM_BANK i) = 0 ∧ v.toNat = 2 →
    Completes (.bankStateRequest o i v) s fun t =>
      t.bankWant (16 * i) = 2 ∧
      t.bankState (16 * i) = 3 ∧
      t.mem.changing = [(16 * i.val, 2)]) ∧
  (∀ (s : State) (b : Fin 64), s.canon = true →
    ∀ x, s.mem.changing.find? (fun x => x.1 == b.val) = some x →
    s.bankWant b = x.2 ∧ x.2 < 3 →
    Completes (.bankTransitionDone b) s fun t =>
      t.bankState b = x.2 ∧
      t.mem.changing = s.mem.changing.filter (fun y => y.1 != b.val)) ∧
  (∀ (s : State) (errs : List (BitVec 2 × BitVec 25 × Bool)), s.canon = true →
    s.runs .core = true ∧ s.mem.damaged = [] ∧ s.queues = [] ∧ s.log.q.hurt = [] ∧ errs.length = 1 ∧ errs.all (fun e => !e.2.2) = true →
    Completes (.memScrubPass errs) s fun t =>
      t.reg MEM_CNT_CE = countUp (s.reg MEM_CNT_CE) ∧
      t.bit MEM_EVT.CE = true ∧
      t.mem.scratch = s.mem.scratch) ∧
  (∀ (s : State) (o : Origin) (v : Word), s.canon = true →
    s.committed = true →
    Completes (.memInj o v) s fun t =>
      t.bit MEM_INJ.ARM = decide (fldOf MEM_INJ.ARM v ≠ 0) ∧
      t.rd MEM_INJ.TARGET = fldOf MEM_INJ.TARGET v) ∧
  (∀ (s : State) (v : Word), s.canon = true →
    s.runs .core = true ∧ s.bankState (s.bankOf (v.toNat / 4 % 0x800000 * 4)) = 0 ∧ s.scratchKnown (v.toNat / 4 % 0x800000 * 4) = true →
    s.mem.damaged = [] →
    Completes (.memWinAddr v) s fun t =>
      t.reg MEM_WIN_DATA = memWord s.mem.scratch (v.toNat / 4 % 0x800000 * 4) ∧
      t.rd MEM_WIN_ADDR.ADDR = v.toNat / 4 % 0x800000) ∧
  (∀ (s : State) (v : Word), s.canon = true →
    s.runs .core = true ∧ s.bankState (s.bankOf (v.toNat / 4 % 0x800000 * 4)) ≠ 0 →
    Completes (.memWinAddr v) s fun t =>
      t.reg MEM_WIN_DATA = 0 ∧
      t.bit MEM_WIN_ADDR.NOT_ON = true) ∧
  (∀ (s : State) (o : Origin) (c : Fin 2), s.canon = true →
    s.committed = true ∧ s.bit (DDR_CFG.EN c) = true ∧ s.runs .ddr = true ∧ s.clk.dpllStop = false →
    Completes (.ddrInit o c) s fun t =>
      (t.rd (DDR_STAT.STATE c) = (if s.rd (DDR_STAT.STATE c) = ddrReady ∨ s.rd (DDR_STAT.STATE c) = ddrSelfRefresh then ddrTraining else ddrInitState))) ∧
  (∀ (s : State) (c : Fin 2) (failed : Fin 7), s.canon = true →
    (s.rd (DDR_STAT.STATE c) = ddrInitState ∨ s.rd (DDR_STAT.STATE c) = ddrTraining) ∧ s.runs .ddr = true →
    Completes (.ddrInitDone c failed) s fun t =>
      (t.rd (DDR_STAT.STATE c) = (if failed.val = 0 then ddrReady else ddrFailed)) ∧
      (failed.val ≠ 0 → t.rd (DDR_STAT.FAIL_STEP c) = failed.val)) ∧
  (∀ (s : State) (c : Fin 2) (hot : Bool), s.canon = true →
    s.rd (DDR_STAT.STATE c) = ddrReady ∧ s.runs .ddr = true →
    Completes (.ddrRefresh c hot) s fun t =>
      t.bit (DDR_STAT.HOT c) = hot) ∧
  (∀ (s : State) (c : Fin 2) (errs : List (BitVec 37 × Bool)), s.canon = true →
    s.bit (DDR_SCRUB.EN c) = true ∧ s.rd (DDR_STAT.STATE c) = ddrReady ∧ s.bit (DDR_STAT.ZEROED c) = true ∧ s.runs .ddr = true →
    s.queues = [] ∧ s.log.q.hurt = [] ∧ errs.length = 1 ∧ errs.all (fun e => !e.2) = true →
    Completes (.ddrPatrolScrub c errs) s fun t =>
      t.reg (DDR_CNT_CE c) = countUp (s.reg (DDR_CNT_CE c)) ∧
      t.bit MEM_EVT.CE = true)

/-- What the commands of the serial lines leave as it is. -/
def Obligations.SerialFrames : Prop :=
  (∀ (p : Fin 16), Frame (.rxStartEdge p) fun _ => told ++ raised ++ pushed ++ received p.val ++ guarded p.val ++ regsAt [SP_CNT_GAP p.val, SP_CNT_SETTLE_MISS p.val, TW_CNT_OPEN_DEFER p.val] ++ parts [.time]) ∧
  (∀ (p : Fin 16), Frame (.rxFalseStart p) fun _ => regsAt [SP_CNT_FALSESTART p.val, SP_EVT p.val, SP_STAT p.val] ++ keyOf .ports p.val ++ parts [.time]) ∧
  (∀ (p : Fin 16) (samples : List (BitVec 3)), Frame (.rxCharAccept p samples) fun _ => told ++ pushed ++ received p.val ++ regsAt [SP_ASTAT p.val, SP_CNT_ADDRERR p.val, SP_CNT_COLL p.val, SP_CNT_COLLDISC p.val, SP_CNT_FALSESTART p.val, SP_CNT_FERR p.val, SP_CNT_FOREIGN p.val, SP_CNT_NOISE p.val, SP_CNT_PERR p.val, SP_CNT_UNADDR p.val, SP_STR_LAST p.val] ++ keyOf .tws p.val ++ parts [.time]) ∧
  (∀ (p : Fin 16), Frame (.breakStart p) fun _ => told ++ pushed ++ received p.val ++ regsAt [SP_ASTAT p.val, SP_CNT_BREAK p.val] ++ keyOf .tws p.val ++ parts [.time]) ∧
  (∀ (p : Fin 16), Frame (.breakEnd p) fun _ => told ++ pushed ++ received p.val ++ regsAt [SF_EVT p.val, SF_STAT p.val] ++ parts [.time]) ∧
  (∀ (p : Fin 16), Frame (.lineStuck p) fun _ => told ++ regsAt [SP_EVT p.val, SP_STAT p.val] ++ parts [.time]) ∧
  (∀ (p : Fin 16) (mark : Bool), Frame (.rxMaskEnd p mark) fun _ => told ++ pushed ++ received p.val ++ regsAt [SF_EVT p.val, SF_STAT p.val] ++ parts [.time]) ∧
  (∀ (o : Origin) (p : Fin 16) (en : Bool) (mark : Bool), Frame (.rxEnWrite o p en mark) fun _ => told ++ pushed ++ received p.val ++ regsAt [SF_EVT p.val, SF_STAT p.val, SP_ASTAT p.val, SP_CTRL p.val]) ∧
  (∀ (o : Origin) (p : Fin 16) (en : Bool), Frame (.txEnWrite o p en) fun _ => told ++ raised ++ guarded p.val ++ regsAt [SP_CTRL p.val] ++ keyOf .ports p.val ++ parts [.time]) ∧
  (∀ (o : Origin) (p : Fin 16) (v : Word), Frame (.baudcfgWrite o p v) fun _ => told ++ regsAt [SP_BAUDCFG p.val] ++ keyOf .ports p.val) ∧
  (∀ (p : Fin 16), Frame (.baudChangeApply p) fun _ => regsAt [SP_BAUD_ACT p.val, SP_EVT p.val, SP_STAT p.val] ++ keyOf .ports p.val ++ parts [.time]) ∧
  (∀ (p : Fin 16), Frame (.baudSettlingEnd p) fun _ => regsAt [SP_STAT p.val] ++ keyOf .ports p.val) ∧
  (∀ (p : Fin 16) (tx : Bool), Frame (.frameFormatApply p tx) fun _ => keyOf .ports p.val ++ parts [.time]) ∧
  (∀ (p : Fin 16), Frame (.txPrefetchPop p) fun _ => told ++ raised ++ memTold ++ regsAt [ED_CNT_ECCW, ED_CNT_WAITRD, ED_EVT, QF_EVT, SP_CNT_COLLDISC p.val, SP_CNT_TXBAD p.val, SP_EVT p.val] ++ keyOf .ports p.val ++ parts [.freeNo, .queues, .fullness, .flow, .ledger]) ∧
  (∀ (p : Fin 16), Frame (.txCharStart p) fun _ => told ++ pushed ++ regsAt [SP_CNT_STAMPDROP p.val, SP_CNT_TXCHAR p.val, SP_CNT_TXSPLIT p.val, SP_STAT p.val, SP_TEVT p.val, SP_TXSTAMP_NS p.val, SP_TXSTAMP_SH p.val, SP_TXSTAMP_SL p.val, SP_TX_SEQ p.val, TW_CNT_FRAME_TX p.val, TW_CNT_SYNC_TX p.val] ++ keyOf .ports p.val ++ keyOf .tws p.val ++ parts [.time, .queues, .out]) ∧
  (∀ (p : Fin 16), Frame (.deRise p) fun _ => told ++ raised ++ guarded p.val ++ keyOf .ports p.val ++ parts [.time]) ∧
  (∀ (p : Fin 16), Frame (.deFall p) fun _ => told ++ raised ++ memTold ++ guarded p.val ++ regsAt [ED_CNT_ECCW, ED_CNT_WAITRD, ED_EVT, QF_EVT, SP_CNT_LAUNCH_TW p.val, SP_CNT_TXBAD p.val, SP_EVT p.val, SP_TEVT p.val, TW_CNT_EMPTY p.val, TW_CNT_FRAG p.val, TW_CNT_SHORT p.val] ++ keyOf .ports p.val ++ parts [.freeNo, .time, .queues, .fullness, .flow, .ledger]) ∧
  (∀ (p : Fin 16) (asserted : Bool), Frame (.ctsChange p asserted) fun _ => regsAt [SP_STAT p.val] ++ keyOf .ports p.val) ∧
  (∀ (p : Fin 16), Frame (.xonXoffSend p) fun _ => told ++ pushed ++ regsAt [SP_CNT_STAMPDROP p.val, SP_CNT_TXCHAR p.val, SP_STAT p.val, SP_TEVT p.val, SP_TXSTAMP_NS p.val, SP_TXSTAMP_SH p.val, SP_TXSTAMP_SL p.val, SP_TX_SEQ p.val] ++ keyOf .ports p.val ++ parts [.time, .queues, .out]) ∧
  (∀ (p : Fin 16), Frame (.echoWindowClose p) fun _ => told ++ regsAt [SP_CNT_COLL p.val, SP_CNT_COLLDISC p.val, SP_EVT p.val, SP_STAT p.val] ++ keyOf .ports p.val ++ keyOf .tws p.val ++ parts [.time]) ∧
  (∀ (o : Origin) (p : Fin 16), Frame (.collResume o p) fun _ => regsAt [SP_STAT p.val] ++ keyOf .ports p.val) ∧
  (∀ (p : Fin 16), Frame (.sendBreak p) fun _ => regsAt [SP_CNT_TXSPLIT p.val, SP_STAT p.val, SP_TEVT p.val] ++ keyOf .ports p.val ++ parts [.time, .out]) ∧
  (∀ (p : Fin 16), Frame (.deHoldEnd p) fun _ => told ++ raised ++ guarded p.val ++ keyOf .ports p.val ++ parts [.time]) ∧
  (∀ (o : Origin) (p : Fin 16) (apply : Bool), Frame (.autobaudStart o p apply) fun _ => told ++ regsAt [SP_AUTOBAUD p.val, SP_STAT p.val] ++ keyOf .ports p.val) ∧
  (∀ (p : Fin 16), Frame (.autobaudEdge p) fun _ => regsAt [SP_AUTOBAUD p.val, SP_BAUD p.val, SP_BAUDCFG p.val, SP_BAUD_MEAS p.val, SP_EVT p.val, SP_STAT p.val] ++ keyOf .ports p.val ++ parts [.time]) ∧
  (∀ (o : Origin) (p : Fin 16), Frame (.autobaudCancel o p) fun _ => told ++ regsAt [SP_AUTOBAUD p.val, SP_STAT p.val] ++ keyOf .ports p.val) ∧
  (∀ (o : Origin) (p : Fin 16) (b : Fin 7) (v : Word), Frame (.bindingWrite o p b v) fun _ => told ++ pushed ++ received p.val ++ regsAt [SP_QRX p.val, SP_QSTAMP_RX p.val, SP_QSTAMP_TX p.val, TW_CNT_STOPDISC p.val] ++ regsOf 4 (SP_QTX p.val) ++ keyOf .tws p.val) ∧
  (∀ (m : Master) (p : Fin 16) (v : Word), Frame (.strangerSelect m p v) fun _ => regsAt [SP_STR_CHARS p.val, SP_STR_FRAMES p.val, SP_STR_SEL p.val] ++ keyOf .ports p.val) ∧
  (∀ (p : Fin 16), Frame (.gapExpiry p) fun _ => told ++ pushed ++ received p.val ++ regsAt [SP_CNT_GAP p.val] ++ parts [.time]) ∧
  (∀ (p : Fin 16), Frame (.launchRegisterLoad p) fun _ => regsAt [SP_CNT_FAR p.val, SP_TEVT p.val] ++ keyOf .ports p.val) ∧
  (∀ (p : Fin 16) (k : Fin 4), Frame (.farHoldEnd p k) fun _ => keyOf .ports p.val ++ parts [.time]) ∧
  (∀ (p : Fin 16) (k : Fin 4), Frame (.launchOnTime p k) fun _ => told ++ raised ++ pushed ++ guarded p.val ++ regsAt [SP_CNT_STAMPDROP p.val, SP_CNT_TXCHAR p.val, SP_STAT p.val, SP_TEVT p.val, SP_TXSTAMP_NS p.val, SP_TXSTAMP_SH p.val, SP_TXSTAMP_SL p.val, SP_TX_SEQ p.val] ++ keyOf .ports p.val ++ parts [.time, .queues]) ∧
  (∀ (p : Fin 16) (k : Fin 4), Frame (.launchLate p k) fun _ => told ++ raised ++ pushed ++ guarded p.val ++ regsAt [SP_CNT_LATE p.val, SP_CNT_STAMPDROP p.val, SP_CNT_TXCHAR p.val, SP_STAT p.val, SP_TEVT p.val, SP_TTX_LATEBY p.val, SP_TXSTAMP_NS p.val, SP_TXSTAMP_SH p.val, SP_TXSTAMP_SL p.val, SP_TX_SEQ p.val] ++ keyOf .ports p.val ++ parts [.time, .queues]) ∧
  (∀ (p : Fin 16), Frame (.rxLineMark p) fun _ => told ++ pushed ++ received p.val ++ regsAt [SP_ASTAT p.val, SP_CNT_ADDRERR p.val, SP_CNT_COLL p.val, SP_CNT_COLLDISC p.val, SP_CNT_FERR p.val, SP_CNT_FOREIGN p.val, SP_CNT_NOISE p.val, SP_CNT_PERR p.val, SP_CNT_UNADDR p.val, SP_STR_LAST p.val] ++ keyOf .tws p.val ++ parts [.time])

/-- What the commands of the trade wind leave as it is. -/
def Obligations.ScheduleFrames : Prop :=
  (∀ (o : Origin) (p : Fin 16), Frame (.twRunStart o p) fun _ => told ++ regsAt [SP_STAT p.val, TW_CTRL p.val, TW_DRIFT p.val] ++ keyOf .ports p.val ++ keyOf .tws p.val) ∧
  (∀ (o : Origin) (p : Fin 16), Frame (.twRunStop o p) fun _ => told ++ raised ++ pushed ++ received p.val ++ guarded p.val ++ regsAt [SF_BABBLE p.val, SF_CNT_ANCHOR p.val, SF_CNT_BABBLE p.val, SF_CNT_CYC_JUMP p.val, SF_CNT_INTRUDE p.val, SF_CNT_SKEW p.val, SP_CNT_FERR p.val, SP_CNT_NOISE p.val, SP_CNT_PERR p.val, TW_CNT_CRC p.val, TW_CNT_CYCLES p.val, TW_CNT_DLY_BAD p.val, TW_CNT_DLY_MEAS p.val, TW_CNT_FOREIGN p.val, TW_CNT_FRAME_RX p.val, TW_CNT_STOPDISC p.val, TW_CNT_SYNC_RX p.val, TW_CNT_TRUNC p.val, TW_CNT_WINDOW p.val, TW_CTRL p.val, TW_CYC_NS p.val, TW_CYC_SH p.val, TW_CYC_SL p.val, TW_DRIFT p.val, TW_OFFSET p.val, TW_TURN p.val] ++ regsOf 8 (SF_ABSENT p.val) ++ regsOf 8 (TW_ACK_SEEN p.val)) ∧
  (∀ (p : Fin 16), Frame (.fnListenTimeout p) fun _ => keyOf .tws p.val ++ parts [.time]) ∧
  (∀ (p : Fin 16), Frame (.twFirstCycleStart p) fun _ => told ++ raised ++ guarded p.val ++ regsAt [SF_CNT_ANCHOR p.val, SP_BAUD_ACT p.val, SP_EVT p.val, SP_STAT p.val, TW_CNT_CYCLES p.val, TW_CYC_NS p.val, TW_CYC_SH p.val, TW_CYC_SL p.val] ++ keyOf .ports p.val ++ parts [.time]) ∧
  (∀ (p : Fin 16) (flips : List (Fin 777 × Word)), Frame (.cycleBoundary p flips) fun _ => told ++ raised ++ pushed ++ routed ++ received p.val ++ guarded p.val ++ regsAt [LG_CNT_STALL, LG_EVT, SF_BABBLE p.val, SF_CNT_ANCHOR p.val, SF_CNT_BABBLE p.val, SF_CNT_BUS_DEAD p.val, SF_CNT_CYC_JUMP p.val, SF_CNT_INTRUDE p.val, SF_CNT_SKEW p.val, SP_BAUD_ACT p.val, SP_CNT_FERR p.val, SP_CNT_NOISE p.val, SP_CNT_PERR p.val, TW_CNT_CRC p.val, TW_CNT_CYCLES p.val, TW_CNT_DLY_BAD p.val, TW_CNT_DLY_MEAS p.val, TW_CNT_FOREIGN p.val, TW_CNT_FRAME_RX p.val, TW_CNT_STOPDISC p.val, TW_CNT_SW_DONE p.val, TW_CNT_SW_WDRAW p.val, TW_CNT_SYNC_RX p.val, TW_CNT_TRUNC p.val, TW_CNT_WINDOW p.val, TW_CYC_NS p.val, TW_CYC_SH p.val, TW_CYC_SL p.val, TW_DLY p.val, TW_DRIFT p.val, TW_OFFSET p.val, TW_TURN p.val] ++ regsOf 8 (SF_ABSENT p.val) ++ regsOf 8 (TW_ACK_SEEN p.val) ++ parts [.freeNo, .time, .host]) ∧
  (∀ (o : Origin) (p : Fin 16) (modes : BitVec 4), Frame (.twTableCommit o p modes) fun _ => told ++ regsAt [TW_EVT p.val] ++ regsOf 8 (TW_TCLIP p.val) ++ keyOf .tws p.val) ∧
  (∀ (p : Fin 16) (e : Fin 64), Frame (.slotCommitDeadline p e) fun _ => told ++ raised ++ memTold ++ guarded p.val ++ regsAt [ED_CNT_ECCW, ED_CNT_WAITRD, ED_EVT, QF_EVT, SF_CNT_WITHHELD p.val, SP_CNT_LATE p.val, SP_CNT_LAUNCH_TW p.val, SP_CNT_TXBAD p.val, SP_EVT p.val, SP_TEVT p.val, TW_CNT_EMPTY p.val, TW_CNT_FRAG p.val, TW_CNT_NODLY p.val, TW_CNT_SHORT p.val] ++ keyOf .ports p.val ++ parts [.freeNo, .time, .queues, .fullness, .flow, .ledger]) ∧
  (∀ (p : Fin 16) (e : Fin 64) (edge : Bool), Frame (.slotStart p e edge) fun _ => told ++ raised ++ pushed ++ guarded p.val ++ regsAt [SF_CNT_WITHHELD p.val, SP_CNT_LATE p.val, SP_CNT_STAMPDROP p.val, SP_CNT_TXCHAR p.val, SP_TEVT p.val, SP_TXSTAMP_NS p.val, SP_TXSTAMP_SH p.val, SP_TXSTAMP_SL p.val, SP_TX_SEQ p.val, TW_CNT_FRAME_TX p.val, TW_CNT_NOBUF p.val, TW_CNT_NODLY p.val, TW_CNT_OPEN_DEFER p.val, TW_CNT_SETTLE p.val, TW_CNT_SHORT p.val, TW_CNT_SYNC_TX p.val, TW_TURN p.val] ++ keyOf .ports p.val ++ parts [.time, .queues]) ∧
  (∀ (p : Fin 16) (e : Fin 64), Frame (.slotEnd p e) fun _ => told ++ raised ++ pushed ++ received p.val ++ guarded p.val ++ regsAt [TW_CNT_TRUNC p.val] ++ regsOf 8 (SF_ABSENT p.val) ++ parts [.time]) ∧
  (∀ (p : Fin 16), Frame (.twFrameReceive p) fun _ => told ++ raised ++ pushed ++ received p.val ++ guarded p.val ++ regsAt [SF_BABBLE p.val, SF_CNT_ANCHOR p.val, SF_CNT_BABBLE p.val, SF_CNT_BUS_DEAD p.val, SF_CNT_CYC_JUMP p.val, SF_CNT_INTRUDE p.val, SF_CNT_SKEW p.val, SP_BAUD_ACT p.val, SP_CNT_FERR p.val, SP_CNT_NOISE p.val, SP_CNT_PERR p.val, TW_CNT_CRC p.val, TW_CNT_CYCLES p.val, TW_CNT_DLY_BAD p.val, TW_CNT_DLY_MEAS p.val, TW_CNT_FOREIGN p.val, TW_CNT_FRAME_RX p.val, TW_CNT_STOPDISC p.val, TW_CNT_SW_DONE p.val, TW_CNT_SW_WDRAW p.val, TW_CNT_SYNC_RX p.val, TW_CNT_TRUNC p.val, TW_CNT_WINDOW p.val, TW_CYC_NS p.val, TW_CYC_SH p.val, TW_CYC_SL p.val, TW_DLY p.val, TW_DRIFT p.val, TW_OFFSET p.val, TW_TURN p.val] ++ regsOf 8 (SF_ABSENT p.val) ++ regsOf 8 (TW_ACK_SEEN p.val)) ∧
  (∀ (p : Fin 16), Frame (.syncMiss p) fun _ => told ++ raised ++ guarded p.val ++ regsAt [SF_CNT_SYNC_MISS p.val] ++ keyOf .ports p.val ++ parts [.time]) ∧
  (∀ (o : Origin) (p : Fin 16) (v : Word), Frame (.twSwitch o p v) fun _ => told ++ regsAt [TW_EVT p.val, TW_SWITCH p.val] ++ regsOf 8 (TW_ACK_SEEN p.val) ++ keyOf .tws p.val) ∧
  (∀ (p : Fin 16), Frame (.switchDecision p) fun _ => told ++ regsAt [TW_CNT_SW_DONE p.val, TW_CNT_SW_WDRAW p.val, TW_EVT p.val] ++ regsOf 8 (TW_ACK_SEEN p.val) ++ keyOf .tws p.val ++ parts [.time]) ∧
  (∀ (p : Fin 16) (m : Fin 4) (upset : Word), Frame (.guardianCopyCheck p m upset) fun _ => told ++ raised ++ routed ++ guarded p.val ++ regsAt [LG_CNT_STALL, LG_EVT] ++ keyOf .ports p.val ++ parts [.freeNo, .host]) ∧
  (∀ (p : Fin 16) (flips : List (Fin 777 × Word)), Frame (.guardianPredictedBoundary p flips) fun _ => told ++ raised ++ guarded p.val ++ keyOf .ports p.val ++ parts [.time]) ∧
  (∀ (o : Origin) (p : Fin 16), Frame (.muzzle o p) fun _ => told ++ raised ++ guarded p.val ++ keyOf .ports p.val) ∧
  (∀ (o : Origin) (p : Fin 16), Frame (.unmuzzle o p) fun _ => told ++ keyOf .tws p.val) ∧
  (∀ (o : Origin) (p : Fin 16), Frame (.clrHist o p) fun _ => told ++ keyOf .tws p.val) ∧
  (∀ (p : Fin 16), Frame (.foreignEnergy p) fun _ => told ++ regsAt [SF_BABBLE p.val, SF_CNT_BABBLE p.val, SF_CNT_INTRUDE p.val, SF_EVT p.val, TW_CNT_FOREIGN p.val] ++ keyOf .tws p.val)

/-- What the commands of queues, eddies and the ledger leave as it is. -/
def Obligations.QueueFrames : Prop :=
  (∀ (m : Master) (q : QRef) (v : PushVal), Frame (.queuePush m q v) fun _ => told ++ pushed ++ queueOf q ++ parts [.endpoint]) ∧
  (∀ (q : BitVec 16) (ws : List QWord), Frame (.queueGroupPush q ws) fun _ => told ++ pushed ++ keyOf .queues q.toNat) ∧
  (∀ (m : Master) (q : QRef) (part : ReadPart), Frame (.queuePop m q part) fun _ => told ++ raised ++ memTold ++ regsAt [ED_CNT_ECCW, ED_CNT_WAITRD, ED_EVT, QF_EVT] ++ queueOf q ++ parts [.freeNo, .windowSnaps, .fullness, .flow, .ledger]) ∧
  (∀ (m : Master) (q : QRef) (part : ReadPart), Frame (.queuePeek m q part) fun _ => told ++ raised ++ memTold ++ regsAt [ED_CNT_ECCW, ED_CNT_WAITRD, ED_EVT, QF_EVT] ++ queueOf q ++ parts [.freeNo, .windowSnaps, .flow, .ledger]) ∧
  (∀ (m : Master) (q : QRef) (part : ReadPart), Frame (.queueStatRead m q part) fun _ => told ++ regsAt [QF_EVT] ++ queueOf q ++ parts [.windowSnaps, .flow, .ledger, .out]) ∧
  (∀ (m : Master) (q : QRef) (part : ReadPart), Frame (.queueLostRead m q part) fun _ => parts [.log, .windowSnaps, .out]) ∧
  (∀ (m : Master) (x : WindowAccess), Frame (.badAccess m x) fun _ => told ++ raised ++ memTold ++ regsAt [ED_CNT_ECCW, ED_CNT_WAITRD, ED_EVT, QF_CNT_BADACC, QF_EVT] ++ parts [.freeNo, .windowSnaps, .queues, .fullness, .flow, .ledger]) ∧
  (∀ (m : Master) (q : QRef) (c : CmdCount), Frame (.nop m q c) fun _ => told ++ regsAt [QF_EVT] ++ queueOf q ++ parts [.cmdHeld, .fullness, .flow, .ledger, .endpoint]) ∧
  (∀ (m : Master) (q : QRef) (c : CmdCount), Frame (.mark m q c) fun _ => told ++ regsAt [QF_EVT] ++ queueOf q ++ parts [.cmdHeld, .fullness, .flow, .ledger, .endpoint]) ∧
  (∀ (m : Master) (q : QRef) (c : CmdCount), Frame (.unmark m q c) fun _ => told ++ regsAt [QF_EVT] ++ queueOf q ++ parts [.cmdHeld, .fullness, .flow, .ledger, .endpoint]) ∧
  (∀ (m : Master) (q : QRef) (c : CmdCount), Frame (.rewind m q c) fun _ => told ++ regsAt [QF_EVT] ++ queueOf q ++ parts [.cmdHeld, .fullness, .flow, .ledger, .endpoint]) ∧
  (∀ (m : Master) (q : QRef) (c : CmdCount), Frame (.release m q c) fun _ => told ++ regsAt [QF_EVT] ++ queueOf q ++ parts [.cmdHeld, .fullness, .flow, .ledger, .endpoint]) ∧
  (∀ (m : Master) (q : QRef) (c : CmdCount), Frame (.releasePkt m q c) fun _ => told ++ regsAt [QF_EVT] ++ queueOf q ++ parts [.cmdHeld, .fullness, .flow, .ledger, .endpoint]) ∧
  (∀ (m : Master) (q : QRef) (c : CmdCount), Frame (.queueReset m q c) fun _ => told ++ regsAt [QF_EVT] ++ queueOf q ++ parts [.cmdHeld, .fullness, .flow, .ledger, .endpoint]) ∧
  (∀ (m : Master) (q : QRef) (c : CmdCount), Frame (.clrOverrun m q c) fun _ => told ++ regsAt [QF_EVT] ++ queueOf q ++ parts [.cmdHeld, .fullness, .flow, .ledger, .endpoint]) ∧
  (∀ (m : Master) (q : QRef) (c : CmdCount), Frame (.clrLost m q c) fun _ => told ++ regsAt [QF_EVT] ++ queueOf q ++ parts [.cmdHeld, .fullness, .flow, .ledger, .endpoint]) ∧
  (∀ (m : Master) (q : QRef) (c : CmdCount), Frame (.badCmd m q c) fun _ => told ++ regsAt [QF_EVT] ++ queueOf q ++ parts [.cmdHeld, .fullness, .flow, .ledger, .endpoint]) ∧
  (∀ (o : Origin), Frame (.create o) fun _ => told ++ regsAt [CH_EVT, ED_EVT, QF_EVT] ++ parts [.queues, .fullness, .flow, .ledger, .cfg]) ∧
  (∀ (o : Origin), Frame (.modify o) fun _ => told ++ regsAt [CH_EVT, ED_EVT, QF_EVT] ++ parts [.queues, .fullness, .flow, .ledger, .cfg]) ∧
  (∀ (o : Origin), Frame (.delete o) fun _ => told ++ regsAt [QF_CNT_DELWORDS, QF_EVT] ++ regsOf 16 SP_TEVT ++ parts [.queues, .fullness, .flow, .ledger, .cfg]) ∧
  (∀ (o : Origin), Frame (.read o) fun _ => told ++ regsAt [QF_EVT] ++ parts [.staged, .cfg]) ∧
  (∀ (o : Origin), Frame (.snap o) fun _ => told ++ regsAt [QF_EVT, QI_BLOCKS, QI_FAULTS, QI_FLAGS, QI_HELD_HI, QI_HELD_LO, QI_HWM_HI, QI_HWM_LO, QI_LOST, QI_LOST_PKT, QI_PKTS_HI, QI_PKTS_LO, QI_POPPED_HI, QI_POPPED_LO, QI_PUSHED_HI, QI_PUSHED_LO, QI_READY_HI, QI_READY_LO, QI_REFUSED, QI_UNREL_HI, QI_UNREL_LO] ++ parts [.queues, .flow, .ledger, .cfg]) ∧
  (∀ (o : Origin) (op : BitVec 3), Frame (.qcmdIgnored o op) fun _ => told ++ regsAt [QF_EVT] ++ parts [.cfg]) ∧
  (∀ (upsets : List Upset), Frame (.pointerScrub upsets) fun _ => told ++ regsAt [QF_EVT] ++ parts [.queues, .fullness, .flow, .ledger]) ∧
  (∀ (q : BitVec 16), Frame (.spillBurst q) fun _ => told ++ regsAt [ED_EVT, MEM_INJ, QF_EVT] ++ keyOf .queues q.toNat ++ parts [.fullness, .flow, .ledger]) ∧
  (∀ (q : BitVec 16), Frame (.spillDone q) fun _ => told ++ regsAt [ED_CNT_SPILL, QF_EVT] ++ regsOf 2 DDR_STAT ++ regsOf 5 CK_PLL ++ keyOf .queues q.toNat ++ parts [.stopped, .fullness, .flow, .ledger, .clk]) ∧
  (∀ (q : BitVec 16) (prefetch : Bool), Frame (.refillRead q prefetch) fun _ => told ++ regsAt [ED_CNT_PREFETCH, ED_EVT, QF_EVT] ++ keyOf .queues q.toNat ++ parts [.fullness, .flow, .ledger]) ∧
  (∀ (q : BitVec 16) (bad : List (Fin 1024)), Frame (.refillDone q bad) fun _ => told ++ raised ++ memTold ++ regsAt [ED_CNT_ECCW, ED_CNT_REFILL, ED_EVT] ++ regsOf 2 DDR_STAT ++ regsOf 5 CK_PLL ++ keyOf .queues q.toNat ++ parts [.freeNo, .stopped, .fullness, .flow, .clk]) ∧
  (Frame (.ledgerCheck) fun _ => told ++ raised ++ routed ++ regsAt [LG_CNT_FAULT, LG_CNT_STALL, LG_EVT, LG_FAULT0, LG_FAULT1] ++ regsOf 4 LK_CNT_RESYNC ++ regsOf 4 LK_EVT ++ regsOf 16 GD_BLK_INFO ++ regsOf 16 GD_BLK_NS ++ regsOf 16 SF_CNT_BLOCKED ++ regsOf 16 SF_CNT_MUZZLE ++ regsOf 16 SF_EVT ++ regsOf 16 SF_STAT ++ regsOf 16 TW_EVT ++ regsOf2 16 4 GD_CRC ++ regsOf2 16 8 TW_TCLIP ++ parts [.ledger, .ports, .tws, .host]) ∧
  (Frame (.sweepStart) fun _ => parts [.ledger]) ∧
  (Frame (.sweepDone) fun _ => told ++ regsAt [CH_EVT, ED_EVT, LG_CNT_RECLAIM, LG_EVT, QF_EVT] ++ parts [.queues, .fullness, .flow, .ledger]) ∧
  (∀ (o : Origin), Frame (.recount o) fun _ => told ++ regsAt [LG_E_FLIGHT, LG_E_FREE, LG_E_HELD, LG_E_RECLAIM, LG_E_RESFREE, LG_E_TOTAL, LG_O_FLIGHT, LG_O_FREE, LG_O_HELD, LG_O_RECLAIM, LG_O_RESFREE, LG_O_TOTAL, LG_TAG_CMP_HI, LG_TAG_CMP_LO, LG_TAG_ISS_HI, LG_TAG_ISS_LO, LG_TAG_OUT] ++ parts [.ledger]) ∧
  (∀ (o : Origin), Frame (.ledgerSnap o) fun _ => told ++ regsAt [LG_E_FLIGHT, LG_E_FREE, LG_E_HELD, LG_E_RECLAIM, LG_E_RESFREE, LG_E_TOTAL, LG_O_FLIGHT, LG_O_FREE, LG_O_HELD, LG_O_RECLAIM, LG_O_RESFREE, LG_O_TOTAL, LG_TAG_CMP_HI, LG_TAG_CMP_LO, LG_TAG_ISS_HI, LG_TAG_ISS_LO, LG_TAG_OUT] ++ parts [.ledger]) ∧
  (∀ (u : DownUnit) (waiting : BitVec 32), Frame (.domainBounce u waiting) fun _ => told ++ routed ++ regsAt [LG_CNT_BOUNCE, LG_CNT_STALL, LG_EVT] ++ parts [.freeNo, .ledger, .host, .out]) ∧
  (∀ (m : Master) (q : BitVec 16), Frame (.edQsel m q) fun _ => regsAt [ED_QBLK_E, ED_QBLK_O, ED_QCAP_HI, ED_QCAP_LO, ED_QINFO, ED_QRES, ED_QSEL])

/-- What the commands of the time base and of the chain leave as it is. -/
def Obligations.TimeAndChainFrames : Prop :=
  (∀ (o : Origin), Frame (.tbSubmitRate o) fun _ => told ++ steered ++ regsAt [TB_CNT_ADJIGN, TB_SRCSTAT]) ∧
  (∀ (o : Origin) (add : Bool), Frame (.tbSubmitOffset o add) fun _ => told ++ steered ++ regsAt [TB_CNT_ADJIGN, TB_SRCSTAT]) ∧
  (∀ (o : Origin), Frame (.tbSubmitSet o) fun _ => told ++ steered ++ regsAt [TB_CNT_ADJIGN, TB_SRCSTAT]) ∧
  (∀ (o : Origin), Frame (.tbCancel o) fun _ => parts [.time]) ∧
  (Frame (.timeStep) fun _ => told ++ regsAt [TB_CNT_STEP, TB_CNT_TPOMISS, TB_CNT_TPOSUP, TB_EVT, TB_TIME_SH] ++ regsOf 4 ALM_SH ++ regsOf 12 NP_CNT_GATEOVR ++ regsOf 12 NP_EVT ++ regsOf 12 NP_GCL_CTRL ++ regsOf 12 NP_GCL_OCYCLE ++ regsOf 12 NP_GCL_OLEN ++ regsOf 16 SP_CNT_FAR ++ regsOf 16 SP_TEVT ++ regsOf 16 TW_CYC_NS ++ regsOf 16 TW_CYC_SH ++ regsOf 16 TW_CYC_SL ++ regsOf 16 TW_EVT ++ parts [.time, .ports, .tws, .engines, .nets]) ∧
  (Frame (.slewDone) fun _ => regsAt [TB_EVT] ++ parts [.time]) ∧
  (∀ (src : TimeSrc), Frame (.sourceTimeout src) fun _ => told ++ steered ++ regsAt [TB_SRCSTAT]) ∧
  (∀ (src : TimeSrc), Frame (.sourceHoldoffExpiry src) fun _ => told ++ steered) ∧
  (Frame (.tbHoExpired) fun _ => told ++ regsAt [TB_EVT] ++ parts [.time]) ∧
  (∀ (ns : BitVec 32), Frame (.moncalWindow ns) fun _ => regsAt [TB_MONCAL] ++ parts [.time]) ∧
  (∀ (i : Fin 8) (rising : Bool), Frame (.tsiEdge i rising) fun _ => told ++ pushed ++ steered ++ regsAt [TB_CNT_ADJIGN, TB_CNT_PPSREJ, TB_PPS_ERR, TB_PPS_OFF, TB_SRCSTAT, TSI_CNT_DROP i.val, TSI_CNT_MISS i.val, TSI_CNT_STAMP i.val, TSI_NS i.val, TSI_SH i.val, TSI_SL i.val] ++ parts [.queues]) ∧
  (∀ (o : Origin) (i : Fin 8), Frame (.tpoApply o i) fun _ => told ++ regsAt [TB_CNT_TPOMISS, TB_EVT] ++ parts [.time, .cfg]) ∧
  (∀ (i : Fin 8), Frame (.tpoApplyTake i) fun _ => regsAt [TB_CNT_TPOMISS, TB_EVT] ++ parts [.time]) ∧
  (∀ (i : Fin 8), Frame (.tpoPulseStart i) fun _ => regsAt [TB_CNT_TPOSUP] ++ parts [.time]) ∧
  (∀ (i : Fin 8), Frame (.tpoPulseEnd i) fun _ => parts [.time]) ∧
  (∀ (o : Origin) (k : Fin 4) (v : Word), Frame (.alarmArm o k v) fun _ => regsAt [ALM_SH k.val, TB_EVT]) ∧
  (∀ (k : Fin 4), Frame (.alarmFire k) fun _ => regsAt [ALM_SH k.val, TB_EVT] ++ parts [.time]) ∧
  (∀ (o : Origin) (v : Word), Frame (.calendarSet o v) fun _ => told ++ steered ++ regsAt [CAL_STAT, CAL_WTIME, TB_CNT_ADJIGN, TB_SRCSTAT]) ∧
  (Frame (.leapSecond) fun _ => told ++ regsAt [CAL_STAT, TB_EVT, TB_UTC] ++ parts [.time]) ∧
  (∀ (l : Fin 4), Frame (.linkSignalDetect l) fun _ => regsAt [LK_STAT l.val] ++ keyOf .links l.val) ∧
  (∀ (l : Fin 4), Frame (.linkBlockLock l) fun _ => regsAt [LK_STAT l.val] ++ keyOf .links l.val ++ parts [.out]) ∧
  (∀ (l : Fin 4), Frame (.linkTrainTimeout l) fun _ => regsAt [LK_STAT l.val] ++ keyOf .links l.val ++ parts [.time]) ∧
  (∀ (l : Fin 4) (h : Option Hello), Frame (.helloExchange l h) fun _ => told ++ routed ++ regsAt [CH_CNT_REROUTE, CH_EVT, CH_STAT, LK_CNT_HELLOERR l.val, LK_EVT l.val, LK_STAT l.val] ++ regsOf 4 (LK_PSN l.val) ++ regsOf 4 CH_RTE ++ parts [.chain, .out]) ∧
  (∀ (l : Fin 4), Frame (.linkDown l) fun _ => told ++ raised ++ routed ++ regsAt [CH_CNT_FWDRET, CH_CNT_ORPHAN, CH_CNT_RDFAIL, CH_CNT_REROUTE, CH_EVT, CH_ORPH_LOST, CH_ORPH_STAT, CH_STAT, CP_SNAPTAG, LG_CNT_BOUNCE, LG_EVT, LK_CNT_DOWN l.val, LK_EVT l.val, LK_STAT l.val, QF_EVT] ++ regsOf 4 CH_RTE ++ parts [.queues, .fullness, .flow, .ledger, .chain, .calm]) ∧
  (∀ (o : Origin) (l : Fin 4), Frame (.forceDown o l) fun _ => told ++ raised ++ routed ++ regsAt [CH_CNT_FWDRET, CH_CNT_ORPHAN, CH_CNT_RDFAIL, CH_CNT_REROUTE, CH_EVT, CH_ORPH_LOST, CH_ORPH_STAT, CH_STAT, CP_SNAPTAG, LG_CNT_BOUNCE, LG_EVT, LK_CNT_DOWN l.val, LK_EVT l.val, LK_STAT l.val, QF_EVT] ++ regsOf 4 CH_RTE ++ parts [.queues, .fullness, .flow, .ledger, .chain, .calm]) ∧
  (∀ (l : Fin 4), Frame (.linkSleep l) fun _ => told ++ raised ++ routed ++ regsAt [CH_CNT_FWDRET, CH_CNT_ORPHAN, CH_CNT_RDFAIL, CH_CNT_REROUTE, CH_EVT, CH_ORPH_LOST, CH_ORPH_STAT, CH_STAT, CP_SNAPTAG, LG_CNT_BOUNCE, LG_EVT, LK_EVT l.val, LK_STAT l.val, QF_EVT] ++ regsOf 4 CH_RTE ++ parts [.queues, .fullness, .flow, .ledger, .chain, .calm]) ∧
  (∀ (l : Fin 4) (c : Option Cell) (crcOk : Bool) (credits : List (BitVec 16)), Frame (.cellReceive l c crcOk credits) fun _ => partsBut [.shadow]) ∧
  (∀ (l : Fin 4), Frame (.creditSyncSend l) fun _ => parts [.out]) ∧
  (∀ (l : Fin 4) (counts : List (BitVec 24 × BitVec 24)), Frame (.creditSyncReceive l counts) fun _ => told ++ raised ++ regsAt [LG_CNT_FAULT, LG_EVT, LG_FAULT0, LG_FAULT1, LK_CNT_RESYNC l.val, LK_CNT_TXCELL l.val, LK_EVT l.val] ++ regsOf 4 (LK_CRED_VC l.val) ++ keyOf .links l.val ++ parts [.ledger]) ∧
  (Frame (.enumerationStart) fun _ => told ++ routed ++ regsAt [CH_CNT_REROUTE, CH_EVT, CH_STAT] ++ regsOf 4 CH_RTE ++ parts [.chain, .out]) ∧
  (∀ (e : ProbeEvent), Frame (.enumProbeAnswer e) fun _ => told ++ raised ++ routed ++ regsAt [CH_CNT_FWDRET, CH_CNT_LOST, CH_CNT_ORPHAN, CH_CNT_RDFAIL, CH_CNT_REROUTE, CH_EVT, CH_ORPH_LOST, CH_ORPH_STAT, CH_STAT, CP_SNAPTAG, LG_CNT_BOUNCE, LG_CNT_STALL, LG_EVT, QF_EVT] ++ regsOf 4 CH_RTE ++ regsOf 4 LK_EVT ++ regsOf 4 LK_STAT ++ parts [.freeNo, .queues, .fullness, .flow, .ledger, .chain, .host, .calm]) ∧
  (∀ (o : Origin) (written : Bool), Frame (.reenum o written) fun _ => told ++ routed ++ regsAt [CH_CNT_REROUTE, CH_CTRL, CH_EVT, CH_STAT] ++ regsOf 4 CH_RTE ++ parts [.chain, .out]) ∧
  (∀ (o : Origin), Frame (.forget o) fun _ => told ++ regsAt [CH_CTRL] ++ parts [.chain]) ∧
  (∀ (m : Master) (d : Fin 64) (off : BitVec 24) (size : BitVec 4), Frame (.bar4Read m d off size) fun _ => parts [.regs, .freeNo, .log, .eic, .snaps, .windowSnaps, .queues, .fullness, .flow, .ledger, .links, .chain, .calm, .out]) ∧
  (∀ (d : Fin 64) (off : BitVec 24) (v : Word64) (status : BitVec 4), Frame (.bar4ReadResponse d off v status) fun _ => told ++ regsAt [CH_CNT_RDFAIL, CH_EVT, CP_SNAPTAG] ++ parts [.chain, .calm, .out]) ∧
  (∀ (d : Fin 64) (off : BitVec 24), Frame (.chainRdFail d off) fun _ => told ++ regsAt [CH_CNT_RDFAIL, CH_EVT, CP_SNAPTAG] ++ parts [.time, .chain, .calm, .out]) ∧
  (∀ (m : Master) (d : Fin 64) (off : BitVec 24) (size : BitVec 4) (v : Word64), Frame (.bar4Write m d off size v) fun _ => partsBut [.shadow]) ∧
  (∀ (q : BitVec 16), Frame (.forwardSend q) fun _ => told ++ raised ++ memTold ++ pushed ++ routed ++ regsAt [CH_CNT_DUP, CH_CNT_DUPUNK, CH_CNT_FWDRET, CH_EVT, ED_CNT_ECCW, ED_CNT_WAITRD, LG_CNT_BOUNCE, LG_EVT] ++ parts [.freeNo, .queues]) ∧
  (∀ (dev : Fin 64) (from_ : BitVec 16) (dest : BitVec 16) (seq : Word) (ws : List QWord) (resent : Bool), Frame (.forwardGroupReceive dev from_ dest seq ws resent) fun _ => told ++ pushed ++ routed ++ regsAt [CH_CNT_DUP, CH_CNT_DUPUNK, CH_EVT] ++ keyOf .queues dest.toNat ++ parts [.out]) ∧
  (∀ (q : BitVec 16) (seq : Word) (status : BitVec 4), Frame (.forwardStatus q seq status) fun _ => told ++ pushed ++ routed ++ regsAt [CH_CNT_DUP, CH_CNT_DUPUNK, CH_CNT_FWDRET, CH_EVT, LG_CNT_BOUNCE, LG_EVT] ++ parts [.queues, .out]) ∧
  (∀ (q : BitVec 16), Frame (.forwardRetry q) fun _ => told ++ pushed ++ routed ++ regsAt [CH_CNT_DUP, CH_CNT_DUPUNK, CH_CNT_FWDRET, CH_EVT, LG_CNT_BOUNCE, LG_EVT] ++ parts [.queues, .out]) ∧
  (∀ (status : BitVec 4) (reporter : Fin 64) (dev : Fin 64) (off : BitVec 24) (wide : Bool) (v : Word64) (origin : BitVec 4), Frame (.orphanWrite status reporter dev off wide v origin) fun _ => told ++ regsAt [CH_CNT_ORPHAN, CH_EVT, CH_ORPH_LOST, CH_ORPH_STAT] ++ parts [.chain]) ∧
  (∀ (answers : List (Fin 64)), Frame (.heartbeat answers) fun _ => parts [.chain, .out]) ∧
  (∀ (d : Fin 64), Frame (.memberLost d) fun _ => told ++ raised ++ routed ++ regsAt [CH_CNT_FWDRET, CH_CNT_LOST, CH_CNT_ORPHAN, CH_CNT_RDFAIL, CH_EVT, CH_ORPH_LOST, CH_ORPH_STAT, CH_STAT, CP_SNAPTAG, LG_CNT_BOUNCE, LG_CNT_STALL, LG_EVT, QF_EVT] ++ parts [.freeNo, .time, .queues, .fullness, .flow, .ledger, .chain, .host, .calm]) ∧
  (∀ (o : Origin) (dev : Fin 64) (all : Bool), Frame (.chainReqCoreReset o dev all) fun _ => partsBut [.shadow]) ∧
  (∀ (o : Origin) (dev : Fin 64) (all : Bool), Frame (.chainReqSystemReset o dev all) fun _ => partsBut [.shadow]) ∧
  (∀ (o : Origin) (dev : Fin 64) (all : Bool), Frame (.chainReqWake o dev all) fun _ => partsBut [.shadow]) ∧
  (∀ (o : Origin) (dev : Fin 64) (all : Bool), Frame (.chainReqIgnored o dev all) fun _ => partsBut [.shadow]) ∧
  (∀ (l : Fin 4), Frame (.delayExchange l) fun _ => parts [.out]) ∧
  (∀ (l : Fin 4) (t1 : Nat) (t2 : Nat) (t3 : Nat) (t4 : Nat), Frame (.linkDelaySample l t1 t2 t3 t4) fun _ => regsAt [LK_CNT_DLYREJ l.val, LK_DELAY l.val, LK_DLY_LAST l.val, LK_EVT l.val, LK_STAT l.val] ++ keyOf .links l.val) ∧
  (Frame (.chainSyncSend) fun _ => parts [.out]) ∧
  (∀ (l : Fin 4) (sent : Nat) (arrived : Nat) (quality : BitVec 3) (hops : Fin 17) (stepSeq : Byte), Frame (.chainSyncReceive l sent arrived quality hops stepSeq) fun _ => told ++ steered ++ regsAt [CH_CNT_SYNCRX, CH_OFFSET, CH_TSTAT, TB_CNT_ADJIGN, TB_SRCSTAT] ++ parts [.chain]) ∧
  (∀ (l : Option (Fin 4)), Frame (.releaseReady l) fun _ => parts [.links, .chain, .out]) ∧
  (∀ (l : Option (Fin 4)) (epoch : Word) (count : Word), Frame (.releaseAt l epoch count) fun _ => parts [.freeNo, .time, .chain, .out]) ∧
  (Frame (.releaseCountdownEnd) fun _ => regsAt [MEM_STAT, RST_STAT] ++ parts [.stopped, .time, .chain, .mem, .rst]) ∧
  (Frame (.lateRelease) fun _ => regsAt [CH_EVT, CH_STAT, MEM_STAT, RST_STAT] ++ parts [.stopped, .chain, .mem, .rst]) ∧
  (∀ (o : Origin) (role : BitVec 2), Frame (.chainRoleWrite o role) fun _ => told ++ raised ++ routed ++ steered ++ regsAt [CH_CNT_FWDRET, CH_CNT_ORPHAN, CH_CNT_RDFAIL, CH_CNT_REROUTE, CH_CTRL, CH_EVT, CH_ORPH_LOST, CH_ORPH_STAT, CH_STAT, CP_SNAPTAG, LG_CNT_BOUNCE, LG_EVT, QF_EVT, TB_SRCSTAT] ++ regsOf 4 CH_RTE ++ regsOf 4 LK_CNT_DOWN ++ regsOf 4 LK_EVT ++ regsOf 4 LK_STAT ++ parts [.queues, .fullness, .flow, .ledger, .chain, .calm]) ∧
  (∀ (o : Origin) (l : Fin 4) (en : Bool), Frame (.linkEnWrite o l en) fun _ => told ++ raised ++ routed ++ regsAt [CH_CNT_FWDRET, CH_CNT_ORPHAN, CH_CNT_RDFAIL, CH_CNT_REROUTE, CH_EVT, CH_ORPH_LOST, CH_ORPH_STAT, CH_STAT, CP_SNAPTAG, LG_CNT_BOUNCE, LG_EVT, LK_CNT_DOWN l.val, LK_CTRL l.val, LK_EVT l.val, LK_STAT l.val, QF_EVT] ++ regsOf 4 CH_RTE ++ parts [.queues, .fullness, .flow, .ledger, .chain, .calm])

/-- What the commands of engines and network ports leave as it is. -/
def Obligations.EngineAndNetworkFrames : Prop :=
  (∀ (o : Origin) (v : Word), Frame (.ldBegin o v) fun _ => told ++ regsAt [LD_PROGRESS, LD_STAT] ++ parts [.loader]) ∧
  (∀ (o : Origin), Frame (.cancel o) fun _ => told ++ regsAt [LD_STAT] ++ regsOf 12 NP_EVT ++ regsOf 48 CE_STAT ++ parts [.engines, .loader, .nets]) ∧
  (∀ (o : Origin) (slot : Fin 16), Frame (.clearSlot o slot) fun _ => told ++ regsAt [LD_STAT] ++ parts [.mem]) ∧
  (∀ (o : Origin) (v : Word), Frame (.ldData o v) fun _ => told ++ regsAt [LD_CNT_FOREIGN, LD_PROGRESS, LD_STAT] ++ parts [.loader]) ∧
  (∀ (bytes : List Byte), Frame (.ldDmaDone bytes) fun _ => regsAt [LD_PROGRESS, LD_STAT] ++ parts [.loader]) ∧
  (Frame (.imageLoad) fun s => told ++ regsAt [ED_EVT, LD_STAT, MEM_INJ] ++ regsOf 4 MEM_BANK ++ regsOf 4 MEM_BSTAT ++ regsOf 12 NP_EVT ++ regsOf 48 CE_STAT ++ [.keys .scratch (slotBase (s.rd LD_STAT.SLOT)) (slotBase (s.rd LD_STAT.SLOT) + s.loader.staged.length)] ++ parts [.ledger, .mem, .engines, .loader, .nets]) ∧
  (Frame (.imageInstall) fun s => told ++ regsAt [ED_EVT, LD_STAT, MEM_INJ] ++ regsOf 4 MEM_BANK ++ regsOf 4 MEM_BSTAT ++ regsOf 12 NP_EVT ++ regsOf 48 CE_STAT ++ [.keys .scratch (slotBase (s.rd LD_STAT.SLOT)) (slotBase (s.rd LD_STAT.SLOT) + s.loader.staged.length)] ++ parts [.ledger, .mem, .engines, .loader, .nets]) ∧
  (∀ (slot : Fin 16), Frame (.ldSlotsel slot) fun _ => regsAt [LD_SI_INFO, LD_SI_LEN, LD_SI_PROTO, LD_SI_VER, LD_SLOTSEL]) ∧
  (∀ (o : Origin) (e : Fin 48) (v : Word), Frame (.start o e v) fun _ => told ++ regsAt [CE_CTRL e.val, CE_STAT e.val] ++ regsOf 12 NP_EVT ++ keyOf .engines e.val ++ parts [.nets]) ∧
  (∀ (o : Origin) (e : Fin 48) (v : Word), Frame (.halt o e v) fun _ => told ++ regsAt [CE_CTRL e.val, CE_STAT e.val] ++ regsOf 12 NP_EVT ++ keyOf .engines e.val ++ parts [.nets]) ∧
  (∀ (o : Origin) (e : Fin 48) (v : Word), Frame (.ceBindWrite o e v) fun _ => told ++ regsAt [CE_BIND e.val, CE_STAT e.val] ++ regsOf 12 NP_EVT ++ keyOf .engines e.val ++ parts [.mem, .nets]) ∧
  (∀ (e : Fin 48), Frame (.engineStarted e) fun _ => told ++ raised ++ regsAt [CE_MBO_STAT e.val, CE_STAT e.val, ED_EVT, MEM_CNT_UE, MEM_EVT, MEM_UE_ADDR, MEM_UE_INFO] ++ regsOf 4 MEM_BANK ++ regsOf 4 MEM_BSTAT ++ regsOf 12 NP_EVT ++ regsOf 16 (CE_MBI e.val) ++ regsOf 16 (CE_MBO e.val) ++ keyOf .engines e.val ++ parts [.ledger, .mem, .nets]) ∧
  (∀ (e : Fin 48), Frame (.abortEntry e) fun _ => keyOf .engines e.val) ∧
  (∀ (e : Fin 48), Frame (.engineGraceEnd e) fun _ => regsAt [CE_CNT_FORCED e.val, CE_EVT e.val] ++ keyOf .engines e.val) ∧
  (∀ (e : Fin 48), Frame (.engineStop e) fun _ => told ++ pushed ++ routed ++ steered ++ regsAt [CE_CNT_STOPREF e.val, CE_STAT e.val, LG_CNT_STALL, LG_EVT, TB_SRCSTAT] ++ keyOf .engines e.val ++ parts [.freeNo, .queues, .host, .nets, .out]) ∧
  (∀ (e : Fin 48), Frame (.engineHalted e) fun _ => told ++ routed ++ regsAt [CE_EVT e.val, CE_STAT e.val, LG_CNT_STALL, LG_EVT] ++ regsOf 12 NP_EVT ++ keyOf .engines e.val ++ parts [.freeNo, .host, .clustersOff, .nets, .out]) ∧
  (∀ (e : Fin 48), Frame (.kick e) fun _ => regsAt [CE_CNT_BADOP e.val] ++ keyOf .engines e.val ++ parts [.out]) ∧
  (∀ (e : Fin 48), Frame (.abortDone e) fun _ => told ++ pushed ++ routed ++ steered ++ regsAt [CE_CNT_BADOP e.val, CE_CNT_STOPREF e.val, CE_STAT e.val, LG_CNT_STALL, LG_EVT, TB_SRCSTAT] ++ keyOf .engines e.val ++ parts [.freeNo, .queues, .host, .nets, .out]) ∧
  (∀ (e : Fin 48) (ws : List Word), Frame (.mbxPost e ws) fun _ => told ++ routed ++ regsAt [CE_CNT_BADOP e.val, CE_EVT e.val, CE_MBO_STAT e.val, CE_STAT e.val, HI_CNT_STALE, LG_CNT_STALL, LG_EVT] ++ regsOf 16 (CE_MBO e.val) ++ parts [.freeNo, .host, .out]) ∧
  (∀ (e : Fin 48), Frame (.mbxTake e) fun _ => regsAt [CE_CNT_BADOP e.val, CE_STAT e.val] ++ parts [.out]) ∧
  (∀ (e : Fin 48) (count : BitVec 4), Frame (.mbiDb e count) fun _ => regsAt [CE_CNT_MBXOVR e.val, CE_EVT e.val, CE_STAT e.val] ++ keyOf .engines e.val) ∧
  (∀ (e : Fin 48), Frame (.mboAck e) fun _ => regsAt [CE_STAT e.val]) ∧
  (∀ (e : Fin 48) (p : Fin 16) (ws : List QWord), Frame (.qpPush e p ws) fun _ => told ++ pushed ++ regsAt [CE_CNT_BADOP e.val, LG_CNT_BOUNCE, LG_EVT] ++ keyOf .engines e.val ++ parts [.queues, .out]) ∧
  (∀ (e : Fin 48) (p : Fin 16) (n : BitVec 5) (untilEnd : Bool), Frame (.qpPop e p n untilEnd) fun _ => told ++ raised ++ memTold ++ regsAt [CE_CNT_BADOP e.val, ED_CNT_ECCW, ED_CNT_WAITRD, ED_EVT, LG_CNT_BOUNCE, LG_EVT, QF_EVT] ++ parts [.freeNo, .queues, .fullness, .flow, .ledger]) ∧
  (∀ (e : Fin 48) (p : Fin 16), Frame (.qpPeek e p) fun _ => told ++ raised ++ memTold ++ regsAt [CE_CNT_BADOP e.val, ED_CNT_ECCW, ED_CNT_WAITRD, ED_EVT, LG_CNT_BOUNCE, LG_EVT] ++ parts [.freeNo, .queues, .ledger]) ∧
  (∀ (e : Fin 48) (p : Fin 16) (op : BitVec 4) (count : Word), Frame (.qpCmd e p op count) fun _ => told ++ regsAt [CE_CNT_BADOP e.val, LG_CNT_BOUNCE, LG_EVT, QF_EVT] ++ parts [.queues, .fullness, .flow, .ledger, .out]) ∧
  (∀ (e : Fin 48) (p : Fin 16), Frame (.qpStat e p) fun _ => told ++ regsAt [CE_CNT_BADOP e.val, LG_CNT_BOUNCE, LG_EVT] ++ parts [.ledger, .out]) ∧
  (∀ (e : Fin 48), Frame (.descTake e) fun _ => regsAt [CE_CNT_BADOP e.val] ++ parts [.nets, .out]) ∧
  (∀ (e : Fin 48) (gs : List (BitVec 11)), Frame (.granuleRelease e gs) fun _ => told ++ pushed ++ routed ++ steered ++ regsAt [CE_CNT_BADOP e.val, CE_CNT_FAULT e.val, CE_CNT_STOPREF e.val, CE_EVT e.val, CE_FAULT e.val, CE_FAULT_ADDR e.val, CE_STAT e.val, LG_CNT_STALL, LG_EVT, TB_SRCSTAT] ++ regsOf 12 NP_EVT ++ keyOf .engines e.val ++ parts [.freeNo, .queues, .host, .clustersOff, .nets, .out]) ∧
  (∀ (e : Fin 48) (i : Fin 8) (sec : BitVec 48) (ns : Word) (period : Word64), Frame (.timerArm e i sec ns period) fun _ => regsAt [CE_CNT_BADOP e.val] ++ keyOf .engines e.val ++ parts [.out]) ∧
  (∀ (e : Fin 48) (i : Fin 8) (take : Bool), Frame (.timerExpiry e i take) fun _ => keyOf .engines e.val ++ parts [.time, .out]) ∧
  (∀ (e : Fin 48), Frame (.declareValid e) fun _ => told ++ steered ++ regsAt [CE_CNT_BADOP e.val, CE_STAT e.val, TB_SRCSTAT] ++ parts [.out]) ∧
  (∀ (e : Fin 48), Frame (.declareInvalid e) fun _ => told ++ steered ++ regsAt [CE_CNT_BADOP e.val, CE_STAT e.val, TB_SRCSTAT] ++ parts [.out]) ∧
  (∀ (e : Fin 48) (a : Word), Frame (.engineRate e a) fun _ => told ++ steered ++ regsAt [CE_CNT_BADOP e.val, TB_CNT_ADJIGN, TB_SRCSTAT] ++ parts [.out]) ∧
  (∀ (e : Fin 48) (theta : Word64) (add : Bool), Frame (.engineOffset e theta add) fun _ => told ++ steered ++ regsAt [CE_CNT_BADOP e.val, TB_CNT_ADJIGN, TB_SRCSTAT] ++ parts [.out]) ∧
  (∀ (e : Fin 48) (sec : BitVec 48) (ns : Word), Frame (.engineSet e sec ns) fun _ => told ++ steered ++ regsAt [CE_CNT_BADOP e.val, TB_CNT_ADJIGN, TB_SRCSTAT] ++ parts [.out]) ∧
  (∀ (e : Fin 48), Frame (.timeQuery e) fun _ => regsAt [CE_CNT_BADOP e.val] ++ parts [.out]) ∧
  (∀ (e : Fin 48) (payload : BitVec 128), Frame (.engineEvent e payload) fun _ => told ++ regsAt [CE_CNT_BADOP e.val] ++ parts [.out]) ∧
  (∀ (e : Fin 48) (addr : BitVec 16), Frame (.watchdog e addr) fun _ => told ++ pushed ++ routed ++ steered ++ regsAt [CE_CNT_FAULT e.val, CE_CNT_STOPREF e.val, CE_EVT e.val, CE_FAULT e.val, CE_FAULT_ADDR e.val, CE_STAT e.val, LG_CNT_STALL, LG_EVT, TB_SRCSTAT] ++ regsOf 12 NP_EVT ++ keyOf .engines e.val ++ parts [.freeNo, .queues, .host, .clustersOff, .nets, .out]) ∧
  (∀ (e : Fin 48) (cause : BitVec 3) (addr : BitVec 16), Frame (.engineFault e cause addr) fun _ => told ++ pushed ++ routed ++ steered ++ regsAt [CE_CNT_FAULT e.val, CE_CNT_STOPREF e.val, CE_EVT e.val, CE_FAULT e.val, CE_FAULT_ADDR e.val, CE_STAT e.val, LG_CNT_STALL, LG_EVT, TB_SRCSTAT] ++ regsOf 12 NP_EVT ++ keyOf .engines e.val ++ parts [.freeNo, .queues, .host, .clustersOff, .nets, .out]) ∧
  (∀ (o : Origin) (k : Fin 12) (v : Word), Frame (.clusterPwrOff o k v) fun _ => told ++ regsAt [CL_CTRL k.val] ++ regsOf 12 NP_EVT ++ regsOf 48 CE_STAT ++ parts [.ledger, .engines, .clustersOff, .nets]) ∧
  (∀ (p : Fin 12) (ago : Word) (part : FramePart), Frame (.frameReceive p ago part) fun _ => regsAt [NP_CNT_CTBUF p.val, NP_CNT_CTDROP p.val, NP_CNT_CTFWD p.val, NP_CNT_CTSTOMP p.val, NP_CNT_FCS p.val, NP_CNT_LONG p.val, NP_CNT_NOSERV p.val, NP_CNT_RUNT p.val, NP_CNT_RXFRM p.val, NP_CNT_RXOCT p.val, NP_CNT_SYMERR p.val, NP_CNT_WINDROP p.val, NP_EVT p.val] ++ parts [.freeNo, .nets]) ∧
  (∀ (p : Fin 12), Frame (.frameTxStart p) fun _ => regsAt [NP_CNT_TOOLONG p.val, NP_CNT_TXDOWN p.val, NP_EVT p.val] ++ regsOf 12 NP_CNT_CTDROP ++ keyOf .nets p.val ++ parts [.time, .engines]) ∧
  (∀ (p : Fin 12), Frame (.frameTxDone p) fun _ => told ++ regsAt [NP_CNT_CTBUF p.val, NP_CNT_CTFWD p.val, NP_CNT_CTSTOMP p.val, NP_CNT_FCS p.val, NP_CNT_LONG p.val, NP_CNT_NOSERV p.val, NP_CNT_RUNT p.val, NP_CNT_RXFRM p.val, NP_CNT_RXOCT p.val, NP_CNT_SYMERR p.val, NP_CNT_TOOLONG p.val, NP_CNT_TXDOWN p.val, NP_CNT_TXFRM p.val, NP_CNT_TXOCT p.val, NP_CNT_WINDROP p.val, NP_EVT p.val, NP_STAT p.val] ++ regsOf 5 CK_PLL ++ regsOf 12 NP_CNT_CTDROP ++ parts [.freeNo, .stopped, .time, .engines, .nets, .clk, .out]) ∧
  (∀ (p : Fin 12) (word : Option (BitVec 16)), Frame (.netLinkUp p word) fun _ => told ++ regsAt [NP_AN_LP p.val, NP_EVT p.val, NP_STAT p.val]) ∧
  (∀ (p : Fin 12), Frame (.netLinkDown p) fun _ => told ++ regsAt [NP_CNT_CTSTOMP p.val, NP_CNT_TOOLONG p.val, NP_CNT_TXDOWN p.val, NP_EVT p.val, NP_STAT p.val] ++ regsOf 12 NP_CNT_CTDROP ++ parts [.freeNo, .engines, .nets]) ∧
  (∀ (e : Fin 48), Frame (.link e) fun _ => regsAt [CE_CNT_BADOP e.val] ++ parts [.out]) ∧
  (∀ (e : Fin 48) (d0 : Word) (d1 : Word) (d2 : Word) (frame : List Byte), Frame (.txSubmit e d0 d1 d2 frame) fun _ => told ++ regsAt [CE_CNT_BADOP e.val, LG_CNT_BOUNCE, LG_EVT] ++ regsOf 12 NP_CNT_CTDROP ++ regsOf 12 NP_CNT_TOOLONG ++ regsOf 12 NP_CNT_TXDOWN ++ regsOf 12 NP_EVT ++ parts [.ledger, .engines, .nets, .out]) ∧
  (∀ (e : Fin 48), Frame (.txTake e) fun _ => regsAt [CE_CNT_BADOP e.val] ++ keyOf .engines e.val ++ parts [.nets, .out]) ∧
  (∀ (e : Fin 48) (mode : BitVec 2) (cls : BitVec 3), Frame (.ctSet e mode cls) fun _ => told ++ regsAt [CE_CNT_BADOP e.val] ++ regsOf 12 NP_CT ++ regsOf 12 NP_EVT ++ parts [.nets, .out]) ∧
  (∀ (e : Fin 48) (seq : Byte), Frame (.ctCommit e seq) fun _ => regsAt [CE_CNT_BADOP e.val] ++ regsOf 12 NP_CNT_CTBUF ++ regsOf 12 NP_CNT_CTDROP ++ regsOf 12 NP_CNT_CTFWD ++ parts [.nets, .out]) ∧
  (∀ (e : Fin 48) (seq : Byte), Frame (.ctDecline e seq) fun _ => regsAt [CE_CNT_BADOP e.val] ++ regsOf 12 NP_CNT_CTBUF ++ regsOf 12 NP_CNT_CTDROP ++ regsOf 12 NP_CNT_CTFWD ++ parts [.nets, .out]) ∧
  (∀ (o : Origin) (p : Fin 12) (v : Word), Frame (.ctPath o p v) fun _ => told ++ regsAt [NP_CT p.val, NP_EVT p.val] ++ keyOf .nets p.val) ∧
  (∀ (e : Fin 48) (x : GclValue), Frame (.gclWrite e x) fun _ => regsAt [CE_CNT_BADOP e.val] ++ regsOf 12 NP_GCL_ABASE_NS ++ regsOf 12 NP_GCL_ABASE_SH ++ regsOf 12 NP_GCL_ABASE_SL ++ regsOf 12 NP_GCL_ACYCLE ++ regsOf 12 NP_GCL_AEXT ++ regsOf 12 NP_GCL_ALEN ++ parts [.nets, .out]) ∧
  (∀ (e : Fin 48), Frame (.gclCommit e) fun _ => regsAt [CE_CNT_BADOP e.val] ++ regsOf 12 NP_GCL_CCT_NS ++ regsOf 12 NP_GCL_CCT_SH ++ regsOf 12 NP_GCL_CCT_SL ++ regsOf 12 NP_GCL_CTRL ++ parts [.nets, .out]) ∧
  (∀ (o : Origin) (p : Fin 12), Frame (.configChange o p) fun _ => regsAt [NP_GCL_CCT_NS p.val, NP_GCL_CCT_SH p.val, NP_GCL_CCT_SL p.val, NP_GCL_CTRL p.val] ++ keyOf .nets p.val) ∧
  (∀ (o : Origin) (p : Fin 12), Frame (.ccCancel o p) fun _ => regsAt [NP_GCL_CTRL p.val] ++ keyOf .nets p.val) ∧
  (∀ (p : Fin 12), Frame (.gateChange p) fun _ => told ++ regsAt [NP_CNT_GATEOVR p.val, NP_EVT p.val, NP_GCL_CTRL p.val, NP_GCL_OCYCLE p.val, NP_GCL_OLEN p.val] ++ keyOf .nets p.val ++ parts [.time]) ∧
  (∀ (p : Fin 12), Frame (.gateEntryBoundary p) fun _ => regsAt [NP_CNT_GATEOVR p.val, NP_EVT p.val] ++ keyOf .nets p.val ++ parts [.time]) ∧
  (∀ (m : Fin 2) (v : Word), Frame (.mdCmd m v) fun _ => regsAt [MD_STAT m.val] ++ parts [.mdio, .out]) ∧
  (∀ (m : Fin 2) (data : BitVec 16), Frame (.mdioFrameDone m data) fun _ => regsAt [MD_DATA m.val, MD_STAT m.val]) ∧
  (∀ (p : Fin 12) (word : BitVec 16), Frame (.sgmiiWordChange p word) fun _ => told ++ regsAt [NP_AN_LP p.val, NP_CNT_CTSTOMP p.val, NP_CNT_TOOLONG p.val, NP_CNT_TXDOWN p.val, NP_EVT p.val, NP_STAT p.val] ++ regsOf 12 NP_CNT_CTDROP ++ parts [.engines, .nets]) ∧
  (∀ (o : Origin) (p : Fin 12) (v : Word), Frame (.npPwrOffWrite o p v) fun _ => told ++ regsAt [NP_CNT_CTSTOMP p.val, NP_CNT_TOOLONG p.val, NP_CNT_TXDOWN p.val, NP_CTRL p.val, NP_EVT p.val, NP_STAT p.val] ++ regsOf 5 CK_PLL ++ regsOf 12 NP_CNT_CTDROP ++ parts [.stopped, .ledger, .engines, .nets, .clk])

/-- What the commands of the host, the configuration and the calm port leave as it is. -/
def Obligations.HostAndConfigurationFrames : Prop :=
  (∀ (n : Fin 64) (v : Word), Frame (.sqTailDb n v) fun _ => regsAt [HI_CNT_BADDB, HI_EVT] ++ parts [.host]) ∧
  (∀ (n : Fin 64) (v : Word), Frame (.cqHeadDb n v) fun _ => regsAt [HI_CNT_BADDB, HI_EVT] ++ regsOf 2 MSIX_PBA ++ parts [.host, .out]) ∧
  (∀ (entry : List Word) (sgl : List (Word64 × Word)), Frame (.sqFetch entry sgl) fun _ => told ++ regsAt [HI_CNT_CMD, HI_CNT_REJECT, HI_EVT, LG_CNT_STALL, LG_EVT] ++ regsOf 64 SQ_STAT ++ parts [.ledger, .host]) ∧
  (∀ (own : Option (Fin 64)) (tag : BitVec 12), Frame (.hostNop own tag) fun _ => told ++ routed ++ regsAt [LG_CNT_BOUNCE, LG_CNT_STALL, LG_EVT] ++ parts [.freeNo, .ledger, .host, .out]) ∧
  (∀ (own : Option (Fin 64)) (tag : BitVec 12) (payload : List Byte), Frame (.push own tag payload) fun _ => told ++ pushed ++ routed ++ regsAt [LG_CNT_BOUNCE, LG_CNT_STALL, LG_EVT] ++ parts [.freeNo, .queues, .host, .out]) ∧
  (∀ (own : Option (Fin 64)) (tag : BitVec 12), Frame (.pop own tag) fun _ => told ++ raised ++ memTold ++ routed ++ regsAt [ED_CNT_ECCW, ED_CNT_WAITRD, ED_EVT, LG_CNT_BOUNCE, LG_CNT_STALL, LG_EVT, QF_EVT] ++ parts [.freeNo, .queues, .fullness, .flow, .ledger, .host]) ∧
  (∀ (own : Option (Fin 64)) (tag : BitVec 12), Frame (.qcmd own tag) fun _ => told ++ routed ++ regsAt [LG_CNT_BOUNCE, LG_CNT_STALL, LG_EVT, QF_EVT] ++ parts [.freeNo, .queues, .fullness, .flow, .ledger, .host, .out]) ∧
  (∀ (own : Option (Fin 64)) (tag : BitVec 12), Frame (.regRead own tag) fun _ => parts [.regs, .freeNo, .log, .eic, .snaps, .windowSnaps, .queues, .fullness, .flow, .ledger, .links, .chain, .host, .out]) ∧
  (∀ (own : Option (Fin 64)) (tag : BitVec 12) (payload : List Byte), Frame (.regWrite own tag payload) fun _ => partsBut [.shadow]) ∧
  (∀ (own : Option (Fin 64)) (tag : BitVec 12), Frame (.engineCall own tag) fun _ => told ++ routed ++ regsAt [LG_CNT_BOUNCE, LG_CNT_STALL, LG_EVT] ++ regsOf 48 CE_STAT ++ regsOf2 48 16 CE_MBI ++ parts [.freeNo, .ledger, .host, .engines, .out]) ∧
  (∀ (own : Option (Fin 64)) (tag : BitVec 12), Frame (.engineCallPost own tag) fun _ => told ++ routed ++ regsAt [LG_CNT_BOUNCE, LG_CNT_STALL, LG_EVT] ++ regsOf 48 CE_STAT ++ regsOf2 48 16 CE_MBI ++ parts [.freeNo, .ledger, .host, .engines, .out]) ∧
  (∀ (e : Fin 48) (ws : List Word), Frame (.engineCallAnswer e ws) fun _ => told ++ routed ++ regsAt [HI_CNT_STALE, LG_CNT_STALL, LG_EVT] ++ parts [.freeNo, .host, .out]) ∧
  (∀ (own : Option (Fin 64)) (tag : BitVec 12) (payload : List Byte), Frame (.sectionLoad own tag payload) fun _ => told ++ routed ++ regsAt [CF_FAIL, CF_PROGRESS, CF_SKIPPED, CF_STAT, LG_CNT_BOUNCE, LG_CNT_STALL, LG_EVT] ++ parts [.freeNo, .ledger, .host, .cfg, .out]) ∧
  (∀ (own : Option (Fin 64)) (tag : BitVec 12), Frame (.timeRead own tag) fun _ => told ++ routed ++ regsAt [LG_CNT_BOUNCE, LG_CNT_STALL, LG_EVT] ++ parts [.freeNo, .ledger, .host, .out]) ∧
  (∀ (own : Option (Fin 64)) (tag : BitVec 12), Frame (.commandWaitResume own tag) fun _ => told ++ raised ++ memTold ++ pushed ++ routed ++ regsAt [ED_CNT_ECCW, ED_CNT_WAITRD, LG_CNT_STALL, LG_EVT] ++ parts [.freeNo, .queues, .host]) ∧
  (∀ (own : Option (Fin 64)) (tag : BitVec 12), Frame (.commandTimeout own tag) fun _ => told ++ routed ++ regsAt [LG_CNT_STALL, LG_EVT] ++ parts [.freeNo, .time, .host, .out]) ∧
  (∀ (cq : Fin 64), Frame (.completionWrite cq) fun _ => told ++ regsAt [CQ_STAT cq.val, LG_CNT_STALL, LG_EVT] ++ regsOf 2 MSIX_PBA ++ parts [.freeNo, .ledger, .host, .out]) ∧
  (∀ (cq : Fin 64), Frame (.coalesceTimeout cq) fun _ => regsOf 2 MSIX_PBA ++ parts [.time, .host, .out]) ∧
  (∀ (m : Master) (dev : Fin 64) (object : Half) (tag : BitVec 12) (cq : Fin 64), Frame (.abortSerialPort m dev object tag cq) fun _ => told ++ routed ++ loadEnded ++ regsAt [HI_CNT_BADDB, HI_CNT_CMD, HI_CNT_REJECT, HI_EVT, LG_CNT_BOUNCE, LG_CNT_STALL, LG_EVT] ++ regsOf 12 NP_EVT ++ regsOf 16 SP_STAT ++ regsOf 16 TW_CNT_STOPDISC ++ regsOf 48 CE_STAT ++ regsOf 64 SQ_CTRL ++ regsOf 64 SQ_STAT ++ parts [.freeNo, .ledger, .ports, .tws, .host, .engines, .nets, .out]) ∧
  (∀ (m : Master) (dev : Fin 64) (object : Half) (tag : BitVec 12) (cq : Fin 64), Frame (.abortQueue m dev object tag cq) fun _ => told ++ routed ++ loadEnded ++ regsAt [HI_CNT_BADDB, HI_CNT_CMD, HI_CNT_REJECT, HI_EVT, LG_CNT_BOUNCE, LG_CNT_STALL, LG_EVT] ++ regsOf 12 NP_EVT ++ regsOf 16 SP_STAT ++ regsOf 16 TW_CNT_STOPDISC ++ regsOf 48 CE_STAT ++ regsOf 64 SQ_CTRL ++ regsOf 64 SQ_STAT ++ parts [.freeNo, .ledger, .ports, .tws, .host, .engines, .nets, .out]) ∧
  (∀ (m : Master) (dev : Fin 64) (object : Half) (tag : BitVec 12) (cq : Fin 64), Frame (.abortEngine m dev object tag cq) fun _ => told ++ routed ++ loadEnded ++ regsAt [HI_CNT_BADDB, HI_CNT_CMD, HI_CNT_REJECT, HI_EVT, LG_CNT_BOUNCE, LG_CNT_STALL, LG_EVT] ++ regsOf 12 NP_EVT ++ regsOf 16 SP_STAT ++ regsOf 16 TW_CNT_STOPDISC ++ regsOf 48 CE_STAT ++ regsOf 64 SQ_CTRL ++ regsOf 64 SQ_STAT ++ parts [.freeNo, .ledger, .ports, .tws, .host, .engines, .nets, .out]) ∧
  (∀ (m : Master) (dev : Fin 64) (object : Half) (tag : BitVec 12) (cq : Fin 64), Frame (.abortRing m dev object tag cq) fun _ => told ++ routed ++ loadEnded ++ regsAt [HI_CNT_BADDB, HI_CNT_CMD, HI_CNT_REJECT, HI_EVT, LG_CNT_BOUNCE, LG_CNT_STALL, LG_EVT] ++ regsOf 12 NP_EVT ++ regsOf 16 SP_STAT ++ regsOf 16 TW_CNT_STOPDISC ++ regsOf 48 CE_STAT ++ regsOf 64 SQ_CTRL ++ regsOf 64 SQ_STAT ++ parts [.freeNo, .ledger, .ports, .tws, .host, .engines, .nets, .out]) ∧
  (∀ (m : Master) (dev : Fin 64) (object : Half) (tag : BitVec 12) (cq : Fin 64), Frame (.abortTag m dev object tag cq) fun _ => told ++ routed ++ loadEnded ++ regsAt [HI_CNT_BADDB, HI_CNT_CMD, HI_CNT_REJECT, HI_EVT, LG_CNT_BOUNCE, LG_CNT_STALL, LG_EVT] ++ regsOf 12 NP_EVT ++ regsOf 16 SP_STAT ++ regsOf 16 TW_CNT_STOPDISC ++ regsOf 48 CE_STAT ++ regsOf 64 SQ_CTRL ++ regsOf 64 SQ_STAT ++ parts [.freeNo, .ledger, .ports, .tws, .host, .engines, .nets, .out]) ∧
  (∀ (m : Master) (kind : Fin 11) (dev : Fin 64) (object : Half) (tag : BitVec 12) (cq : Fin 64), Frame (.abortBadKind m kind dev object tag cq) fun _ => told ++ routed ++ loadEnded ++ regsAt [HI_CNT_BADDB, HI_CNT_CMD, HI_CNT_REJECT, HI_EVT, LG_CNT_BOUNCE, LG_CNT_STALL, LG_EVT] ++ regsOf 12 NP_EVT ++ regsOf 16 SP_STAT ++ regsOf 16 TW_CNT_STOPDISC ++ regsOf 48 CE_STAT ++ regsOf 64 SQ_CTRL ++ regsOf 64 SQ_STAT ++ parts [.freeNo, .ledger, .ports, .tws, .host, .engines, .nets, .out]) ∧
  (∀ (n : Fin 64) (en : Bool), Frame (.sqEnable n en) fun _ => regsAt [SQ_CTRL n.val, SQ_STAT n.val] ++ parts [.host]) ∧
  (∀ (n : Fin 64) (en : Bool), Frame (.cqEnable n en) fun _ => regsAt [CQ_CTRL n.val, CQ_STAT n.val] ++ parts [.host]) ∧
  (∀ (o : Origin), Frame (.featCommit o) fun _ => told ++ regsAt [FEAT_STAT, HI_EVT]) ∧
  (Frame (.hostLinkReset) fun _ => told ++ routed ++ loadEnded ++ regsAt [HI_CNT_LINKDROP, HI_EVT, HI_STAT, LG_CNT_STALL, LG_EVT] ++ regsOf 64 CQ_STAT ++ regsOf 64 SQ_STAT ++ [.keys .regs (SQ_BASE_LO 0) (MSIX_PBA 1 + 4)] ++ parts [.freeNo, .ledger, .host, .out]) ∧
  (∀ (d3 : Bool) (bme : Bool), Frame (.hostPowerChange d3 bme) fun _ => regsAt [HI_STAT]) ∧
  (∀ (what : DmaFault), Frame (.dmaError what) fun _ => partsBut [.shadow]) ∧
  (∀ (o : Origin) (v : Word), Frame (.cfBegin o v) fun _ => told ++ routed ++ loadEnded ++ regsAt [CF_CNT_BUSY, LG_CNT_STALL, LG_EVT] ++ parts [.freeNo, .host, .out]) ∧
  (∀ (o : Origin), Frame (.cfCancel o) fun _ => told ++ routed ++ loadEnded ++ regsAt [LG_CNT_STALL, LG_EVT] ++ parts [.freeNo, .host, .out]) ∧
  (∀ (o : Origin) (v : Word), Frame (.cfData o v) fun _ => told ++ routed ++ loadEnded ++ regsAt [CF_CNT_BUSY, LG_CNT_STALL, LG_EVT] ++ parts [.freeNo, .host, .out]) ∧
  (Frame (.configLoad) fun _ => told ++ routed ++ loadEnded ++ regsAt [LG_CNT_STALL, LG_EVT] ++ parts [.freeNo, .time, .host, .out]) ∧
  (Frame (.commitApply) fun _ => partsBut [.shadow]) ∧
  (∀ (p : Fin 16), Frame (.drainEnd p) fun _ => regsAt [CF_CNT_QDISC, CF_EVT] ++ keyOf .ports p.val ++ parts [.time, .cfg]) ∧
  (∀ (p : Fin 16), Frame (.portRebind p) fun _ => partsBut [.snaps, .windowSnaps, .fuses, .shadow, .buf, .store]) ∧
  (Frame (.sectionCommit) fun _ => partsBut [.shadow]) ∧
  (∀ (t : Fin 8), Frame (.interruptReloadApply t) fun _ => raised ++ regsAt [EIC_TCFG t.val] ++ regsOf 2046 EIC_SRC_CFG ++ parts [.time]) ∧
  (∀ (tx : CalmTx), Frame (.idRead tx) fun s => s.worked ++ parts [.out]) ∧
  (∀ (tx : CalmTx), Frame (.planeRead tx) fun s => s.worked ++ parts [.out]) ∧
  (∀ (tx : CalmTx) (data : List Word), Frame (.planeWrite tx data) fun s => s.worked ++ parts [.freeNo, .buf, .out]) ∧
  (∀ (tx : CalmTx) (data : List Word), Frame (.bufWrite tx data) fun s => s.worked ++ [.keys .buf (4 * txAddr tx) (4 * txAddr tx + 4 * txLen tx)] ++ parts [.out]) ∧
  (∀ (tx : CalmTx), Frame (.bufRead tx) fun s => s.worked ++ parts [.out]) ∧
  (∀ (tx : CalmTx), Frame (.pump tx) fun s => s.worked ++ parts [.out]) ∧
  (∀ (tx : CalmTx), Frame (.storeProg tx) fun s => s.worked ++ regsAt [CP_JOURNAL] ++ storeTouched 0x21 (txAddr tx) ++ parts [.out]) ∧
  (∀ (tx : CalmTx), Frame (.storeLoad tx) fun s => s.worked ++ regsAt [CP_JOURNAL] ++ storeTouched 0x22 (txAddr tx) ++ parts [.out]) ∧
  (∀ (tx : CalmTx) (data : List Word), Frame (.storeSeal tx data) fun s => s.worked ++ regsAt [CP_JOURNAL] ++ storeTouched 0x23 (txAddr tx) ++ parts [.out]) ∧
  (∀ (tx : CalmTx), Frame (.storeInval tx) fun s => s.worked ++ regsAt [CP_JOURNAL] ++ storeTouched 0x24 (txAddr tx) ++ parts [.out]) ∧
  (∀ (tx : CalmTx) (data : List Word), Frame (.storeHdr tx data) fun s => s.worked ++ regsAt [CP_JOURNAL] ++ storeTouched 0x25 (txAddr tx) ++ parts [.out]) ∧
  (∀ (tx : CalmTx) (data : List Word), Frame (.opWrite tx data) fun s => s.worked ++ parts [.out]) ∧
  (∀ (tx : CalmTx), Frame (.opRead tx) fun s => s.worked ++ regsAt [CP_SNAPTAG] ++ parts [.chain, .out]) ∧
  (∀ (tx : CalmTx), Frame (.snapRead tx) fun s => s.worked ++ parts [.freeNo, .out]) ∧
  (∀ (tx : CalmTx) (data : List Word), Frame (.fuseProg tx data) fun s => s.worked ++ regsAt [CP_FUSESTAT] ++ parts [.out]) ∧
  (∀ (tx : CalmTx), Frame (.boot tx) fun s => s.worked ++ regsAt [CP_BOOTSTAT] ++ parts [.out]) ∧
  (∀ (bytes : Half), Frame (.calmTransactionCut bytes) fun s => s.worked) ∧
  (Frame (.planeWorkDone) fun s => s.worked ++ parts [.time]) ∧
  (Frame (.workCancel) fun s => s.worked ++ parts [.freeNo]) ∧
  (Frame (.clrErr) fun _ => parts [.calm]) ∧
  (Frame (.bufClr) fun _ => parts [.calm, .buf]) ∧
  (Frame (.postedWriteApply) fun _ => partsBut [.shadow]) ∧
  (Frame (.snapshotTake) fun _ => parts [.regs, .freeNo, .log, .eic, .snaps, .windowSnaps, .queues, .fullness, .flow, .ledger, .links, .chain, .calm, .out]) ∧
  (∀ (o : Origin) (v : Word), Frame (.stCmd o v) fun _ => told ++ regsAt [CP_BOOTSTAT, CP_JOURNAL, CP_WEAR, ST_STAT] ++ parts [.calm]) ∧
  (∀ (back : Word), Frame (.fuseProgDone back) fun _ => told ++ regsAt [CP_FUSESTAT] ++ parts [.fuses, .calm]) ∧
  (Frame (.mramBoot) fun _ => told ++ regsAt [CF_FAIL, CF_PROGRESS, CF_SKIPPED, CF_STAT, CP_BOOTSTAT] ++ parts [.cfg, .calm]) ∧
  (Frame (.bootSlotFail) fun _ => told ++ regsAt [CF_FAIL, CF_PROGRESS, CF_SKIPPED, CF_STAT, CP_BOOTSTAT] ++ parts [.cfg, .calm]) ∧
  (∀ (e : BootEvent), Frame (.chainBootRequest e) fun _ => routed ++ regsAt [CF_FAIL, CF_PROGRESS, CF_SKIPPED, CF_STAT, CP_BOOTSTAT, CP_WEAR] ++ parts [.cfg, .out]) ∧
  (Frame (.journalFlush) fun _ => told ++ parts [.calm]) ∧
  (∀ (gen : BitVec 3) (width : BitVec 3), Frame (.hostLinkUp gen width) fun _ => regsAt [HI_EVT, HI_STAT] ++ regsOf 2 MSIX_PBA ++ parts [.out]) ∧
  (∀ (v : Fin 64), Frame (.msixUnmask v) fun _ => regsAt [MSIX_CTRL v.val] ++ regsOf 2 MSIX_PBA ++ parts [.out])

/-- What the commands of events, clocks, resets, pins and memories leave as it is. -/
def Obligations.EventResetPinMemoryFrames : Prop :=
  (∀ (m : Master) (a : RegTarget) (v : Word), Frame (.registerWrite m a v) fun _ => partsBut [.shadow]) ∧
  (∀ (m : Master) (off : BitVec 24), Frame (.snapshotRead m off) fun _ => told ++ raised ++ memTold ++ regsAt [ED_CNT_ECCW, ED_CNT_WAITRD, ED_EVT, EIC_CNT_SPUR, QF_EVT] ++ [.keys .regs off.toNat (off.toNat + 8)] ++ parts [.freeNo, .snaps, .windowSnaps, .queues, .fullness, .flow, .ledger, .chain]) ∧
  (∀ (m : Master) (off : BitVec 24), Frame (.counterRead m off) fun _ => told ++ raised ++ memTold ++ regsAt [ED_CNT_ECCW, ED_CNT_WAITRD, ED_EVT, EIC_CNT_SPUR, QF_EVT] ++ [.keys .regs off.toNat (off.toNat + 8)] ++ parts [.freeNo, .snaps, .windowSnaps, .queues, .fullness, .flow, .ledger, .chain]) ∧
  (∀ (n : BitVec 11), Frame (.gatewayRequest n) fun _ => raised ++ parts [.pins]) ∧
  (∀ (n : BitVec 11), Frame (.gatewayWithdraw n) fun _ => raised ++ parts [.pins]) ∧
  (∀ (m : Master) (t : Fin 8) (gust : Bool), Frame (.claim m t gust) fun _ => raised ++ regsAt [EIC_CNT_SPUR]) ∧
  (∀ (m : Master) (t : Fin 8) (gust : Bool) (v : Word), Frame (.complete m t gust v) fun _ => raised ++ regsAt [EIC_CNT_BADCMP] ++ regsOf 8 EIC_TCFG ++ regsOf 2046 EIC_SRC_CFG) ∧
  (∀ (m : Master) (i : Fin 64) (v : Word), Frame (.pset m i v) fun _ => raised) ∧
  (∀ (m : Master) (i : Fin 64) (v : Word), Frame (.pendClear m i v) fun _ => raised) ∧
  (∀ (cls : Fin 16) (idx : Byte) (o : Origin) (payload : List Word), Frame (.eventRecordWrite cls idx o payload) fun _ => told) ∧
  (Frame (.logTimerTick) fun _ => told ++ regsAt [EL_CNT_FWD, EL_CNT_SUMM] ++ parts [.out]) ∧
  (∀ (o : Origin) (c : Fin 16) (v : Word), Frame (.elClsCfgWrite o c v) fun _ => told ++ regsAt [EL_CLS_CFG c.val]) ∧
  (∀ (d : Fin 64) (lines : BitVec 6), Frame (.chainIrqReport d lines) fun _ => raised) ∧
  (∀ (d : Fin 64) (ws : List Word), Frame (.eventCopyReceive d ws) fun _ => regsAt [EL_CNT_REC, EL_CNT_RXFWD, EL_EVT] ++ parts [.log]) ∧
  (∀ (count : BitVec 9), Frame (.refclkMonitorWindow count) fun _ => told ++ raised ++ regsAt [CK_CNT_BADWIN, CK_CNT_FORCESW, CK_CNT_LEVEL1, CK_EVT, CK_MON, CK_STAT, TB_EVT, TB_STAT] ++ regsOf 5 CK_PLL ++ parts [.time, .clk]) ∧
  (Frame (.refclkEdgeTimeout) fun _ => told ++ raised ++ regsAt [CK_CNT_FORCESW, CK_CNT_LEVEL1, CK_EVT, CK_MON, CK_STAT, TB_EVT, TB_STAT] ++ parts [.time, .clk]) ∧
  (∀ (n : Fin 5) (count : Option (BitVec 24)), Frame (.pllWindow n count) fun _ => told ++ raised ++ routed ++ loadEnded ++ regsAt [CH_CNT_FWDRET, CH_CNT_ORPHAN, CH_CNT_RDFAIL, CH_CNT_REROUTE, CH_EVT, CH_ORPH_LOST, CH_ORPH_STAT, CH_STAT, CK_BECALM, CK_CLKOUT, CK_CNT_BECALM, CK_CNT_LOCKLOST, CK_EVT, CK_STAT, CP_SNAPTAG, HI_CNT_LINKDROP, HI_EVT, HI_STAT, LG_CNT_BOUNCE, LG_CNT_STALL, LG_EVT, QF_EVT, TB_CNT_TPOCUT, TB_EVT, TB_STAT] ++ regsOf 2 DDR_STAT ++ regsOf 4 CH_RTE ++ regsOf 4 LK_CNT_DOWN ++ regsOf 4 LK_EVT ++ regsOf 4 LK_STAT ++ regsOf 5 CK_PLL ++ regsOf 12 NP_CNT_CTDROP ++ regsOf 12 NP_CNT_CTSTOMP ++ regsOf 12 NP_CNT_CUT ++ regsOf 12 NP_CNT_TOOLONG ++ regsOf 12 NP_CNT_TXDOWN ++ regsOf 12 NP_EVT ++ regsOf 12 NP_STAT ++ regsOf 64 CQ_STAT ++ regsOf 64 SQ_STAT ++ [.keys .regs (SQ_BASE_LO 0) (MSIX_PBA 1 + 4)] ++ parts [.freeNo, .stopped, .time, .queues, .fullness, .flow, .ledger, .ports, .tws, .chain, .host, .engines, .nets, .clk]) ∧
  (∀ (plls : BitVec 5) (on : Bool), Frame (.pllLockDetect plls on) fun _ => told ++ raised ++ routed ++ loadEnded ++ regsAt [CH_CNT_FWDRET, CH_CNT_ORPHAN, CH_CNT_RDFAIL, CH_CNT_REROUTE, CH_EVT, CH_ORPH_LOST, CH_ORPH_STAT, CH_STAT, CK_BECALM, CK_CLKOUT, CK_CNT_BECALM, CK_CNT_LOCKLOST, CK_EVT, CK_STAT, CP_SNAPTAG, HI_CNT_LINKDROP, HI_EVT, HI_STAT, LG_CNT_BOUNCE, LG_CNT_STALL, LG_EVT, QF_EVT, TB_CNT_TPOCUT, TB_EVT, TB_STAT] ++ regsOf 2 DDR_STAT ++ regsOf 4 CH_RTE ++ regsOf 4 LK_CNT_DOWN ++ regsOf 4 LK_EVT ++ regsOf 4 LK_STAT ++ regsOf 5 CK_PLL ++ regsOf 12 NP_CNT_CTDROP ++ regsOf 12 NP_CNT_CTSTOMP ++ regsOf 12 NP_CNT_CUT ++ regsOf 12 NP_CNT_TOOLONG ++ regsOf 12 NP_CNT_TXDOWN ++ regsOf 12 NP_EVT ++ regsOf 12 NP_STAT ++ regsOf 64 CQ_STAT ++ regsOf 64 SQ_STAT ++ [.keys .regs (SQ_BASE_LO 0) (MSIX_PBA 1 + 4)] ++ parts [.freeNo, .stopped, .time, .queues, .fullness, .flow, .ledger, .ports, .tws, .chain, .host, .engines, .nets, .clk]) ∧
  (∀ (n : Fin 5) (forced : Bool), Frame (.pllLocked n forced) fun _ => told ++ raised ++ routed ++ regsAt [CH_CNT_FWDRET, CH_CNT_ORPHAN, CH_CNT_RDFAIL, CH_CNT_REROUTE, CH_EVT, CH_ORPH_LOST, CH_ORPH_STAT, CH_STAT, CK_CLKOUT, CK_CNT_FORCESW, CK_EVT, CK_PLL n.val, CK_STAT, CP_SNAPTAG, LG_CNT_BOUNCE, LG_EVT, QF_EVT, TB_EVT, TB_STAT] ++ regsOf 2 DDR_SIZE_HI ++ regsOf 2 DDR_SIZE_LO ++ regsOf 2 DDR_STAT ++ regsOf 4 CH_RTE ++ regsOf 4 LK_CNT_DOWN ++ regsOf 4 LK_EVT ++ regsOf 4 LK_STAT ++ parts [.stopped, .time, .queues, .fullness, .flow, .ledger, .chain, .mem, .nets, .clk, .calm]) ∧
  (∀ (o : Origin), Frame (.resumeAck o) fun _ => told ++ regsAt [CK_EVT, CK_STAT] ++ parts [.clk]) ∧
  (∀ (rxd : BitVec 16), Frame (.becalmResumeStep rxd) fun _ => partsBut [.shadow]) ∧
  (∀ (o : Origin) (v : Word), Frame (.pllEnableWrite o v) fun _ => told ++ regsAt [CK_CFG, CK_CLKOUT, CK_EVT, CK_STAT] ++ regsOf 2 DDR_STAT ++ regsOf 5 CK_PLL ++ regsOf 12 NP_CNT_CTDROP ++ regsOf 12 NP_CNT_CTSTOMP ++ regsOf 12 NP_CNT_TOOLONG ++ regsOf 12 NP_CNT_TXDOWN ++ regsOf 12 NP_EVT ++ regsOf 12 NP_STAT ++ parts [.stopped, .fullness, .flow, .engines, .nets, .clk]) ∧
  (∀ (o : Origin) (v : Word), Frame (.dpllRateChange o v) fun _ => told ++ regsAt [CK_CFG, CK_CLKOUT, CK_EVT, CK_STAT] ++ regsOf 2 DDR_STAT ++ regsOf 5 CK_PLL ++ regsOf 12 NP_CNT_CTDROP ++ regsOf 12 NP_CNT_CTSTOMP ++ regsOf 12 NP_CNT_TOOLONG ++ regsOf 12 NP_CNT_TXDOWN ++ regsOf 12 NP_EVT ++ regsOf 12 NP_STAT ++ parts [.stopped, .fullness, .flow, .engines, .nets, .clk]) ∧
  (Frame (.resetNFall) fun _ => parts [.rst]) ∧
  (Frame (.resetThreshold) fun _ => partsBut [.shadow]) ∧
  (∀ (brief : Bool) (cycles : Word) (strap : BitVec 4), Frame (.resetNRise brief cycles strap) fun _ => partsBut []) ∧
  (∀ (strap : BitVec 4), Frame (.powerOnResetEnd strap) fun _ => raised ++ regsAt [CH_CTRL, CH_STAT, ID_RCFG, RST_CAUSE, RST_STAT] ++ regsOf 4 ID_SN ++ parts [.time, .chain, .rst, .pins, .shadow]) ∧
  (∀ (x : Fin 7), Frame (.supplyFail x) fun _ => partsBut [.freeNo, .shadow]) ∧
  (∀ (x : Fin 7), Frame (.supplyReturn x) fun _ => parts [.rst]) ∧
  (Frame (.releaseStep) fun _ => told ++ raised ++ pushed ++ routed ++ regsAt [CH_CNT_FWDRET, CH_CNT_ORPHAN, CH_CNT_RDFAIL, CH_CNT_REROUTE, CH_CTRL, CH_EVT, CH_ORPH_LOST, CH_ORPH_STAT, CH_STAT, CK_STAT, CP_BOOTSTAT, CP_SNAPTAG, CP_WEAR, LG_CNT_BOUNCE, LG_EVT, MEM_STAT, PW_EVT, RST_CAUSE, RST_STAT, TB_EVT, TB_STAT] ++ regsOf 4 CH_RTE ++ regsOf 4 LK_CNT_DOWN ++ regsOf 4 LK_EVT ++ regsOf 4 LK_STAT ++ regsOf 5 CK_PLL ++ parts [.stopped, .time, .queues, .endpoint, .chain, .mem, .clk, .rst, .pins, .calm]) ∧
  (Frame (.coreResetStep) fun _ => told ++ raised ++ routed ++ regsAt [LG_CNT_STALL, LG_EVT, PW_EVT, PW_STAT, RST_CAUSE] ++ regsOf 5 CK_PLL ++ regsOf 12 NP_EVT ++ regsOf 48 CE_STAT ++ parts [.freeNo, .stopped, .time, .host, .engines, .nets, .clk, .rst, .calm]) ∧
  (∀ (o : Origin), Frame (.rstCtrlCore o) fun _ => partsBut [.shadow]) ∧
  (∀ (o : Origin) (core : Bool), Frame (.rstCtrlSystem o core) fun _ => partsBut [.shadow]) ∧
  (∀ (o : Origin), Frame (.reqRun o) fun _ => partsBut [.shadow]) ∧
  (∀ (o : Origin), Frame (.reqLull o) fun _ => partsBut [.shadow]) ∧
  (∀ (o : Origin), Frame (.reqStill o) fun _ => partsBut [.shadow]) ∧
  (∀ (o : Origin), Frame (.reqOff o) fun _ => partsBut [.shadow]) ∧
  (Frame (.stillEntryStep) fun _ => partsBut [.shadow]) ∧
  (∀ (causes : BitVec 14), Frame (.wake causes) fun _ => partsBut [.shadow]) ∧
  (∀ (rxd : BitVec 16), Frame (.stillExitStep rxd) fun _ => partsBut [.shadow]) ∧
  (∀ (m : Master) (off : BitVec 12) (wide : Bool) (perr : BitVec 2), Frame (.retmemRead m off wide perr) fun _ => regsAt [PW_EVT, PW_RETERR] ++ parts [.out]) ∧
  (∀ (m : Master) (v : PushVal), Frame (.pinlock m v) fun _ => told ++ regsAt [GP_CNT_LOCKSEQ, GP_EVT, GP_LOCKED_HI, GP_LOCKED_LO] ++ parts [.pins]) ∧
  (∀ (o : Origin) (p : Option (Fin 64)) (v : Word), Frame (.pinCfgWrite o p v) fun _ => told ++ raised ++ regsAt [GP_CNT_LOCKWR, GP_EVT, GP_EXTL_SEL] ++ regsOf 64 PIN_CFG ++ parts [.pins]) ∧
  (∀ (hi : Bool) (v : Word), Frame (.gpSet hi v) fun _ => raised ++ regsAt [GP_OUT_HI, GP_OUT_LO] ++ parts [.pins]) ∧
  (∀ (hi : Bool) (v : Word), Frame (.gpClr hi v) fun _ => raised ++ regsAt [GP_OUT_HI, GP_OUT_LO] ++ parts [.pins]) ∧
  (∀ (b : Fin 5) (level : BitVec 2), Frame (.bankSupplyChange b level) fun _ => raised ++ regsAt [GP_BANK, GP_EVT] ++ parts [.pins]) ∧
  (Frame (.tapReset) fun _ => raised ++ parts [.pins]) ∧
  (∀ (ir : TapIr) (en : BitVec 64) (level : BitVec 64), Frame (.tapInstruction ir en level) fun _ => raised ++ parts [.pins]) ∧
  (∀ (o : Origin) (v : Word), Frame (.ilvWrite o v) fun _ => told ++ regsAt [MEM_CFG, MEM_EVT] ++ parts [.mem, .scratch]) ∧
  (∀ (o : Origin) (i : Fin 4) (v : Word), Frame (.bankStateRequest o i v) fun _ => told ++ regsAt [ED_EVT, MEM_CNT_BUSY, MEM_EVT] ++ regsOf 4 MEM_BANK ++ regsOf 4 MEM_BSTAT ++ parts [.ledger, .mem]) ∧
  (∀ (b : Fin 64), Frame (.bankTransitionDone b) fun _ => regsAt [ED_EVT] ++ regsOf 4 MEM_BSTAT ++ parts [.fullness, .flow, .ledger, .mem, .scratch]) ∧
  (∀ (errs : List (BitVec 2 × BitVec 25 × Bool)), Frame (.memScrubPass errs) fun _ => told ++ raised ++ memTold ++ parts [.freeNo, .queues, .mem]) ∧
  (∀ (o : Origin) (v : Word), Frame (.memInj o v) fun _ => told ++ regsAt [MEM_INJ]) ∧
  (∀ (v : Word), Frame (.memWinAddr v) fun _ => told ++ raised ++ regsAt [MEM_CNT_CE, MEM_CNT_UE, MEM_EVT, MEM_UE_ADDR, MEM_UE_INFO, MEM_WIN_ADDR, MEM_WIN_DATA] ++ regsOf 2 DDR_CNT_CE ++ parts [.freeNo, .mem]) ∧
  (∀ (o : Origin) (c : Fin 2), Frame (.ddrInit o c) fun _ => told ++ regsAt [DDR_CTRL c.val, DDR_SIZE_HI c.val, DDR_SIZE_LO c.val, DDR_STAT c.val] ++ parts [.mem]) ∧
  (∀ (c : Fin 2) (failed : Fin 7), Frame (.ddrInitDone c failed) fun _ => regsAt [DDR_CNT_TRAINFAIL c.val, DDR_SIZE_HI c.val, DDR_SIZE_LO c.val, DDR_STAT c.val, ED_EVT, EL_EVT, MEM_EVT] ++ parts [.log, .fullness, .flow, .ledger, .mem]) ∧
  (∀ (c : Fin 2) (hot : Bool), Frame (.ddrRefresh c hot) fun _ => regsAt [DDR_STAT c.val]) ∧
  (∀ (c : Fin 2) (errs : List (BitVec 37 × Bool)), Frame (.ddrPatrolScrub c errs) fun _ => told ++ raised ++ memTold ++ parts [.freeNo, .queues])

end
end

