-- ==== Sys2Proof/Laws/State.lean ====
section
/-!
SUPPORT. What each update of the state leaves as it is, field by field, and what the tables that it does not touch then hold.
-/
namespace Sys2Proof.Machine

variable (s : State)

/-! ## setReg -/

@[simp] theorem State.setReg_pending (a : Nat) (v : Word) : (s.setReg a v).pending = s.pending := rfl
@[simp] theorem State.setReg_freeNo (a : Nat) (v : Word) : (s.setReg a v).freeNo = s.freeNo := rfl
@[simp] theorem State.setReg_stopped (a : Nat) (v : Word) : (s.setReg a v).stopped = s.stopped := rfl
@[simp] theorem State.setReg_time (a : Nat) (v : Word) : (s.setReg a v).time = s.time := rfl
@[simp] theorem State.setReg_log (a : Nat) (v : Word) : (s.setReg a v).log = s.log := rfl
@[simp] theorem State.setReg_eic (a : Nat) (v : Word) : (s.setReg a v).eic = s.eic := rfl
@[simp] theorem State.setReg_snaps (a : Nat) (v : Word) : (s.setReg a v).snaps = s.snaps := rfl
@[simp] theorem State.setReg_windowSnaps (a : Nat) (v : Word) : (s.setReg a v).windowSnaps = s.windowSnaps := rfl
@[simp] theorem State.setReg_cmdHeld (a : Nat) (v : Word) : (s.setReg a v).cmdHeld = s.cmdHeld := rfl
@[simp] theorem State.setReg_staged (a : Nat) (v : Word) : (s.setReg a v).staged = s.staged := rfl
@[simp] theorem State.setReg_queues (a : Nat) (v : Word) : (s.setReg a v).queues = s.queues := rfl
@[simp] theorem State.setReg_ledger (a : Nat) (v : Word) : (s.setReg a v).ledger = s.ledger := rfl
@[simp] theorem State.setReg_endpoint (a : Nat) (v : Word) : (s.setReg a v).endpoint = s.endpoint := rfl
@[simp] theorem State.setReg_ports (a : Nat) (v : Word) : (s.setReg a v).ports = s.ports := rfl
@[simp] theorem State.setReg_tws (a : Nat) (v : Word) : (s.setReg a v).tws = s.tws := rfl
@[simp] theorem State.setReg_links (a : Nat) (v : Word) : (s.setReg a v).links = s.links := rfl
@[simp] theorem State.setReg_chain (a : Nat) (v : Word) : (s.setReg a v).chain = s.chain := rfl
@[simp] theorem State.setReg_mem (a : Nat) (v : Word) : (s.setReg a v).mem = s.mem := rfl
@[simp] theorem State.setReg_host (a : Nat) (v : Word) : (s.setReg a v).host = s.host := rfl
@[simp] theorem State.setReg_engines (a : Nat) (v : Word) : (s.setReg a v).engines = s.engines := rfl
@[simp] theorem State.setReg_clustersOff (a : Nat) (v : Word) : (s.setReg a v).clustersOff = s.clustersOff := rfl
@[simp] theorem State.setReg_loader (a : Nat) (v : Word) : (s.setReg a v).loader = s.loader := rfl
@[simp] theorem State.setReg_nets (a : Nat) (v : Word) : (s.setReg a v).nets = s.nets := rfl
@[simp] theorem State.setReg_mdio (a : Nat) (v : Word) : (s.setReg a v).mdio = s.mdio := rfl
@[simp] theorem State.setReg_clk (a : Nat) (v : Word) : (s.setReg a v).clk = s.clk := rfl
@[simp] theorem State.setReg_rst (a : Nat) (v : Word) : (s.setReg a v).rst = s.rst := rfl
@[simp] theorem State.setReg_pins (a : Nat) (v : Word) : (s.setReg a v).pins = s.pins := rfl
@[simp] theorem State.setReg_fuses (a : Nat) (v : Word) : (s.setReg a v).fuses = s.fuses := rfl
@[simp] theorem State.setReg_shadow (a : Nat) (v : Word) : (s.setReg a v).shadow = s.shadow := rfl
@[simp] theorem State.setReg_cfg (a : Nat) (v : Word) : (s.setReg a v).cfg = s.cfg := rfl
@[simp] theorem State.setReg_calm (a : Nat) (v : Word) : (s.setReg a v).calm = s.calm := rfl
@[simp] theorem State.setReg_out (a : Nat) (v : Word) : (s.setReg a v).out = s.out := rfl
@[simp] theorem State.setReg_queue_at (a : Nat) (v : Word) (j : Nat) : (s.setReg a v).queue j = s.queue j := rfl
@[simp] theorem State.setReg_port_at (a : Nat) (v : Word) (j : Nat) : (s.setReg a v).port j = s.port j := rfl
@[simp] theorem State.setReg_tw_at (a : Nat) (v : Word) (j : Nat) : (s.setReg a v).tw j = s.tw j := rfl
@[simp] theorem State.setReg_link_at (a : Nat) (v : Word) (j : Nat) : (s.setReg a v).link j = s.link j := rfl
@[simp] theorem State.setReg_eng_at (a : Nat) (v : Word) (j : Nat) : (s.setReg a v).eng j = s.eng j := rfl
@[simp] theorem State.setReg_net_at (a : Nat) (v : Word) (j : Nat) : (s.setReg a v).net j = s.net j := rfl
@[simp] theorem State.setReg_runs (a : Nat) (v : Word) (dom : Domain) : (s.setReg a v).runs dom = s.runs dom := rfl

/-! ## wr -/

@[simp] theorem State.wr_pending (f : Fld) (x : Nat) : (s.wr f x).pending = s.pending := rfl
@[simp] theorem State.wr_freeNo (f : Fld) (x : Nat) : (s.wr f x).freeNo = s.freeNo := rfl
@[simp] theorem State.wr_stopped (f : Fld) (x : Nat) : (s.wr f x).stopped = s.stopped := rfl
@[simp] theorem State.wr_time (f : Fld) (x : Nat) : (s.wr f x).time = s.time := rfl
@[simp] theorem State.wr_log (f : Fld) (x : Nat) : (s.wr f x).log = s.log := rfl
@[simp] theorem State.wr_eic (f : Fld) (x : Nat) : (s.wr f x).eic = s.eic := rfl
@[simp] theorem State.wr_snaps (f : Fld) (x : Nat) : (s.wr f x).snaps = s.snaps := rfl
@[simp] theorem State.wr_windowSnaps (f : Fld) (x : Nat) : (s.wr f x).windowSnaps = s.windowSnaps := rfl
@[simp] theorem State.wr_cmdHeld (f : Fld) (x : Nat) : (s.wr f x).cmdHeld = s.cmdHeld := rfl
@[simp] theorem State.wr_staged (f : Fld) (x : Nat) : (s.wr f x).staged = s.staged := rfl
@[simp] theorem State.wr_queues (f : Fld) (x : Nat) : (s.wr f x).queues = s.queues := rfl
@[simp] theorem State.wr_ledger (f : Fld) (x : Nat) : (s.wr f x).ledger = s.ledger := rfl
@[simp] theorem State.wr_endpoint (f : Fld) (x : Nat) : (s.wr f x).endpoint = s.endpoint := rfl
@[simp] theorem State.wr_ports (f : Fld) (x : Nat) : (s.wr f x).ports = s.ports := rfl
@[simp] theorem State.wr_tws (f : Fld) (x : Nat) : (s.wr f x).tws = s.tws := rfl
@[simp] theorem State.wr_links (f : Fld) (x : Nat) : (s.wr f x).links = s.links := rfl
@[simp] theorem State.wr_chain (f : Fld) (x : Nat) : (s.wr f x).chain = s.chain := rfl
@[simp] theorem State.wr_mem (f : Fld) (x : Nat) : (s.wr f x).mem = s.mem := rfl
@[simp] theorem State.wr_host (f : Fld) (x : Nat) : (s.wr f x).host = s.host := rfl
@[simp] theorem State.wr_engines (f : Fld) (x : Nat) : (s.wr f x).engines = s.engines := rfl
@[simp] theorem State.wr_clustersOff (f : Fld) (x : Nat) : (s.wr f x).clustersOff = s.clustersOff := rfl
@[simp] theorem State.wr_loader (f : Fld) (x : Nat) : (s.wr f x).loader = s.loader := rfl
@[simp] theorem State.wr_nets (f : Fld) (x : Nat) : (s.wr f x).nets = s.nets := rfl
@[simp] theorem State.wr_mdio (f : Fld) (x : Nat) : (s.wr f x).mdio = s.mdio := rfl
@[simp] theorem State.wr_clk (f : Fld) (x : Nat) : (s.wr f x).clk = s.clk := rfl
@[simp] theorem State.wr_rst (f : Fld) (x : Nat) : (s.wr f x).rst = s.rst := rfl
@[simp] theorem State.wr_pins (f : Fld) (x : Nat) : (s.wr f x).pins = s.pins := rfl
@[simp] theorem State.wr_fuses (f : Fld) (x : Nat) : (s.wr f x).fuses = s.fuses := rfl
@[simp] theorem State.wr_shadow (f : Fld) (x : Nat) : (s.wr f x).shadow = s.shadow := rfl
@[simp] theorem State.wr_cfg (f : Fld) (x : Nat) : (s.wr f x).cfg = s.cfg := rfl
@[simp] theorem State.wr_calm (f : Fld) (x : Nat) : (s.wr f x).calm = s.calm := rfl
@[simp] theorem State.wr_out (f : Fld) (x : Nat) : (s.wr f x).out = s.out := rfl
@[simp] theorem State.wr_queue_at (f : Fld) (x : Nat) (j : Nat) : (s.wr f x).queue j = s.queue j := rfl
@[simp] theorem State.wr_port_at (f : Fld) (x : Nat) (j : Nat) : (s.wr f x).port j = s.port j := rfl
@[simp] theorem State.wr_tw_at (f : Fld) (x : Nat) (j : Nat) : (s.wr f x).tw j = s.tw j := rfl
@[simp] theorem State.wr_link_at (f : Fld) (x : Nat) (j : Nat) : (s.wr f x).link j = s.link j := rfl
@[simp] theorem State.wr_eng_at (f : Fld) (x : Nat) (j : Nat) : (s.wr f x).eng j = s.eng j := rfl
@[simp] theorem State.wr_net_at (f : Fld) (x : Nat) (j : Nat) : (s.wr f x).net j = s.net j := rfl
@[simp] theorem State.wr_runs (f : Fld) (x : Nat) (dom : Domain) : (s.wr f x).runs dom = s.runs dom := rfl

/-! ## on -/

@[simp] theorem State.on_pending (f : Fld) : (s.on f).pending = s.pending := rfl
@[simp] theorem State.on_freeNo (f : Fld) : (s.on f).freeNo = s.freeNo := rfl
@[simp] theorem State.on_stopped (f : Fld) : (s.on f).stopped = s.stopped := rfl
@[simp] theorem State.on_time (f : Fld) : (s.on f).time = s.time := rfl
@[simp] theorem State.on_log (f : Fld) : (s.on f).log = s.log := rfl
@[simp] theorem State.on_eic (f : Fld) : (s.on f).eic = s.eic := rfl
@[simp] theorem State.on_snaps (f : Fld) : (s.on f).snaps = s.snaps := rfl
@[simp] theorem State.on_windowSnaps (f : Fld) : (s.on f).windowSnaps = s.windowSnaps := rfl
@[simp] theorem State.on_cmdHeld (f : Fld) : (s.on f).cmdHeld = s.cmdHeld := rfl
@[simp] theorem State.on_staged (f : Fld) : (s.on f).staged = s.staged := rfl
@[simp] theorem State.on_queues (f : Fld) : (s.on f).queues = s.queues := rfl
@[simp] theorem State.on_ledger (f : Fld) : (s.on f).ledger = s.ledger := rfl
@[simp] theorem State.on_endpoint (f : Fld) : (s.on f).endpoint = s.endpoint := rfl
@[simp] theorem State.on_ports (f : Fld) : (s.on f).ports = s.ports := rfl
@[simp] theorem State.on_tws (f : Fld) : (s.on f).tws = s.tws := rfl
@[simp] theorem State.on_links (f : Fld) : (s.on f).links = s.links := rfl
@[simp] theorem State.on_chain (f : Fld) : (s.on f).chain = s.chain := rfl
@[simp] theorem State.on_mem (f : Fld) : (s.on f).mem = s.mem := rfl
@[simp] theorem State.on_host (f : Fld) : (s.on f).host = s.host := rfl
@[simp] theorem State.on_engines (f : Fld) : (s.on f).engines = s.engines := rfl
@[simp] theorem State.on_clustersOff (f : Fld) : (s.on f).clustersOff = s.clustersOff := rfl
@[simp] theorem State.on_loader (f : Fld) : (s.on f).loader = s.loader := rfl
@[simp] theorem State.on_nets (f : Fld) : (s.on f).nets = s.nets := rfl
@[simp] theorem State.on_mdio (f : Fld) : (s.on f).mdio = s.mdio := rfl
@[simp] theorem State.on_clk (f : Fld) : (s.on f).clk = s.clk := rfl
@[simp] theorem State.on_rst (f : Fld) : (s.on f).rst = s.rst := rfl
@[simp] theorem State.on_pins (f : Fld) : (s.on f).pins = s.pins := rfl
@[simp] theorem State.on_fuses (f : Fld) : (s.on f).fuses = s.fuses := rfl
@[simp] theorem State.on_shadow (f : Fld) : (s.on f).shadow = s.shadow := rfl
@[simp] theorem State.on_cfg (f : Fld) : (s.on f).cfg = s.cfg := rfl
@[simp] theorem State.on_calm (f : Fld) : (s.on f).calm = s.calm := rfl
@[simp] theorem State.on_out (f : Fld) : (s.on f).out = s.out := rfl
@[simp] theorem State.on_queue_at (f : Fld) (j : Nat) : (s.on f).queue j = s.queue j := rfl
@[simp] theorem State.on_port_at (f : Fld) (j : Nat) : (s.on f).port j = s.port j := rfl
@[simp] theorem State.on_tw_at (f : Fld) (j : Nat) : (s.on f).tw j = s.tw j := rfl
@[simp] theorem State.on_link_at (f : Fld) (j : Nat) : (s.on f).link j = s.link j := rfl
@[simp] theorem State.on_eng_at (f : Fld) (j : Nat) : (s.on f).eng j = s.eng j := rfl
@[simp] theorem State.on_net_at (f : Fld) (j : Nat) : (s.on f).net j = s.net j := rfl
@[simp] theorem State.on_runs (f : Fld) (dom : Domain) : (s.on f).runs dom = s.runs dom := rfl

/-! ## off -/

@[simp] theorem State.off_pending (f : Fld) : (s.off f).pending = s.pending := rfl
@[simp] theorem State.off_freeNo (f : Fld) : (s.off f).freeNo = s.freeNo := rfl
@[simp] theorem State.off_stopped (f : Fld) : (s.off f).stopped = s.stopped := rfl
@[simp] theorem State.off_time (f : Fld) : (s.off f).time = s.time := rfl
@[simp] theorem State.off_log (f : Fld) : (s.off f).log = s.log := rfl
@[simp] theorem State.off_eic (f : Fld) : (s.off f).eic = s.eic := rfl
@[simp] theorem State.off_snaps (f : Fld) : (s.off f).snaps = s.snaps := rfl
@[simp] theorem State.off_windowSnaps (f : Fld) : (s.off f).windowSnaps = s.windowSnaps := rfl
@[simp] theorem State.off_cmdHeld (f : Fld) : (s.off f).cmdHeld = s.cmdHeld := rfl
@[simp] theorem State.off_staged (f : Fld) : (s.off f).staged = s.staged := rfl
@[simp] theorem State.off_queues (f : Fld) : (s.off f).queues = s.queues := rfl
@[simp] theorem State.off_ledger (f : Fld) : (s.off f).ledger = s.ledger := rfl
@[simp] theorem State.off_endpoint (f : Fld) : (s.off f).endpoint = s.endpoint := rfl
@[simp] theorem State.off_ports (f : Fld) : (s.off f).ports = s.ports := rfl
@[simp] theorem State.off_tws (f : Fld) : (s.off f).tws = s.tws := rfl
@[simp] theorem State.off_links (f : Fld) : (s.off f).links = s.links := rfl
@[simp] theorem State.off_chain (f : Fld) : (s.off f).chain = s.chain := rfl
@[simp] theorem State.off_mem (f : Fld) : (s.off f).mem = s.mem := rfl
@[simp] theorem State.off_host (f : Fld) : (s.off f).host = s.host := rfl
@[simp] theorem State.off_engines (f : Fld) : (s.off f).engines = s.engines := rfl
@[simp] theorem State.off_clustersOff (f : Fld) : (s.off f).clustersOff = s.clustersOff := rfl
@[simp] theorem State.off_loader (f : Fld) : (s.off f).loader = s.loader := rfl
@[simp] theorem State.off_nets (f : Fld) : (s.off f).nets = s.nets := rfl
@[simp] theorem State.off_mdio (f : Fld) : (s.off f).mdio = s.mdio := rfl
@[simp] theorem State.off_clk (f : Fld) : (s.off f).clk = s.clk := rfl
@[simp] theorem State.off_rst (f : Fld) : (s.off f).rst = s.rst := rfl
@[simp] theorem State.off_pins (f : Fld) : (s.off f).pins = s.pins := rfl
@[simp] theorem State.off_fuses (f : Fld) : (s.off f).fuses = s.fuses := rfl
@[simp] theorem State.off_shadow (f : Fld) : (s.off f).shadow = s.shadow := rfl
@[simp] theorem State.off_cfg (f : Fld) : (s.off f).cfg = s.cfg := rfl
@[simp] theorem State.off_calm (f : Fld) : (s.off f).calm = s.calm := rfl
@[simp] theorem State.off_out (f : Fld) : (s.off f).out = s.out := rfl
@[simp] theorem State.off_queue_at (f : Fld) (j : Nat) : (s.off f).queue j = s.queue j := rfl
@[simp] theorem State.off_port_at (f : Fld) (j : Nat) : (s.off f).port j = s.port j := rfl
@[simp] theorem State.off_tw_at (f : Fld) (j : Nat) : (s.off f).tw j = s.tw j := rfl
@[simp] theorem State.off_link_at (f : Fld) (j : Nat) : (s.off f).link j = s.link j := rfl
@[simp] theorem State.off_eng_at (f : Fld) (j : Nat) : (s.off f).eng j = s.eng j := rfl
@[simp] theorem State.off_net_at (f : Fld) (j : Nat) : (s.off f).net j = s.net j := rfl
@[simp] theorem State.off_runs (f : Fld) (dom : Domain) : (s.off f).runs dom = s.runs dom := rfl

/-! ## put -/

@[simp] theorem State.put_pending (f : Fld) (b : Bool) : (s.put f b).pending = s.pending := rfl
@[simp] theorem State.put_freeNo (f : Fld) (b : Bool) : (s.put f b).freeNo = s.freeNo := rfl
@[simp] theorem State.put_stopped (f : Fld) (b : Bool) : (s.put f b).stopped = s.stopped := rfl
@[simp] theorem State.put_time (f : Fld) (b : Bool) : (s.put f b).time = s.time := rfl
@[simp] theorem State.put_log (f : Fld) (b : Bool) : (s.put f b).log = s.log := rfl
@[simp] theorem State.put_eic (f : Fld) (b : Bool) : (s.put f b).eic = s.eic := rfl
@[simp] theorem State.put_snaps (f : Fld) (b : Bool) : (s.put f b).snaps = s.snaps := rfl
@[simp] theorem State.put_windowSnaps (f : Fld) (b : Bool) : (s.put f b).windowSnaps = s.windowSnaps := rfl
@[simp] theorem State.put_cmdHeld (f : Fld) (b : Bool) : (s.put f b).cmdHeld = s.cmdHeld := rfl
@[simp] theorem State.put_staged (f : Fld) (b : Bool) : (s.put f b).staged = s.staged := rfl
@[simp] theorem State.put_queues (f : Fld) (b : Bool) : (s.put f b).queues = s.queues := rfl
@[simp] theorem State.put_ledger (f : Fld) (b : Bool) : (s.put f b).ledger = s.ledger := rfl
@[simp] theorem State.put_endpoint (f : Fld) (b : Bool) : (s.put f b).endpoint = s.endpoint := rfl
@[simp] theorem State.put_ports (f : Fld) (b : Bool) : (s.put f b).ports = s.ports := rfl
@[simp] theorem State.put_tws (f : Fld) (b : Bool) : (s.put f b).tws = s.tws := rfl
@[simp] theorem State.put_links (f : Fld) (b : Bool) : (s.put f b).links = s.links := rfl
@[simp] theorem State.put_chain (f : Fld) (b : Bool) : (s.put f b).chain = s.chain := rfl
@[simp] theorem State.put_mem (f : Fld) (b : Bool) : (s.put f b).mem = s.mem := rfl
@[simp] theorem State.put_host (f : Fld) (b : Bool) : (s.put f b).host = s.host := rfl
@[simp] theorem State.put_engines (f : Fld) (b : Bool) : (s.put f b).engines = s.engines := rfl
@[simp] theorem State.put_clustersOff (f : Fld) (b : Bool) : (s.put f b).clustersOff = s.clustersOff := rfl
@[simp] theorem State.put_loader (f : Fld) (b : Bool) : (s.put f b).loader = s.loader := rfl
@[simp] theorem State.put_nets (f : Fld) (b : Bool) : (s.put f b).nets = s.nets := rfl
@[simp] theorem State.put_mdio (f : Fld) (b : Bool) : (s.put f b).mdio = s.mdio := rfl
@[simp] theorem State.put_clk (f : Fld) (b : Bool) : (s.put f b).clk = s.clk := rfl
@[simp] theorem State.put_rst (f : Fld) (b : Bool) : (s.put f b).rst = s.rst := rfl
@[simp] theorem State.put_pins (f : Fld) (b : Bool) : (s.put f b).pins = s.pins := rfl
@[simp] theorem State.put_fuses (f : Fld) (b : Bool) : (s.put f b).fuses = s.fuses := rfl
@[simp] theorem State.put_shadow (f : Fld) (b : Bool) : (s.put f b).shadow = s.shadow := rfl
@[simp] theorem State.put_cfg (f : Fld) (b : Bool) : (s.put f b).cfg = s.cfg := rfl
@[simp] theorem State.put_calm (f : Fld) (b : Bool) : (s.put f b).calm = s.calm := rfl
@[simp] theorem State.put_out (f : Fld) (b : Bool) : (s.put f b).out = s.out := rfl
@[simp] theorem State.put_queue_at (f : Fld) (b : Bool) (j : Nat) : (s.put f b).queue j = s.queue j := rfl
@[simp] theorem State.put_port_at (f : Fld) (b : Bool) (j : Nat) : (s.put f b).port j = s.port j := rfl
@[simp] theorem State.put_tw_at (f : Fld) (b : Bool) (j : Nat) : (s.put f b).tw j = s.tw j := rfl
@[simp] theorem State.put_link_at (f : Fld) (b : Bool) (j : Nat) : (s.put f b).link j = s.link j := rfl
@[simp] theorem State.put_eng_at (f : Fld) (b : Bool) (j : Nat) : (s.put f b).eng j = s.eng j := rfl
@[simp] theorem State.put_net_at (f : Fld) (b : Bool) (j : Nat) : (s.put f b).net j = s.net j := rfl
@[simp] theorem State.put_runs (f : Fld) (b : Bool) (dom : Domain) : (s.put f b).runs dom = s.runs dom := rfl

/-! ## incBy -/

@[simp] theorem State.incBy_pending (a n : Nat) : (s.incBy a n).pending = s.pending := rfl
@[simp] theorem State.incBy_freeNo (a n : Nat) : (s.incBy a n).freeNo = s.freeNo := rfl
@[simp] theorem State.incBy_stopped (a n : Nat) : (s.incBy a n).stopped = s.stopped := rfl
@[simp] theorem State.incBy_time (a n : Nat) : (s.incBy a n).time = s.time := rfl
@[simp] theorem State.incBy_log (a n : Nat) : (s.incBy a n).log = s.log := rfl
@[simp] theorem State.incBy_eic (a n : Nat) : (s.incBy a n).eic = s.eic := rfl
@[simp] theorem State.incBy_snaps (a n : Nat) : (s.incBy a n).snaps = s.snaps := rfl
@[simp] theorem State.incBy_windowSnaps (a n : Nat) : (s.incBy a n).windowSnaps = s.windowSnaps := rfl
@[simp] theorem State.incBy_cmdHeld (a n : Nat) : (s.incBy a n).cmdHeld = s.cmdHeld := rfl
@[simp] theorem State.incBy_staged (a n : Nat) : (s.incBy a n).staged = s.staged := rfl
@[simp] theorem State.incBy_queues (a n : Nat) : (s.incBy a n).queues = s.queues := rfl
@[simp] theorem State.incBy_ledger (a n : Nat) : (s.incBy a n).ledger = s.ledger := rfl
@[simp] theorem State.incBy_endpoint (a n : Nat) : (s.incBy a n).endpoint = s.endpoint := rfl
@[simp] theorem State.incBy_ports (a n : Nat) : (s.incBy a n).ports = s.ports := rfl
@[simp] theorem State.incBy_tws (a n : Nat) : (s.incBy a n).tws = s.tws := rfl
@[simp] theorem State.incBy_links (a n : Nat) : (s.incBy a n).links = s.links := rfl
@[simp] theorem State.incBy_chain (a n : Nat) : (s.incBy a n).chain = s.chain := rfl
@[simp] theorem State.incBy_mem (a n : Nat) : (s.incBy a n).mem = s.mem := rfl
@[simp] theorem State.incBy_host (a n : Nat) : (s.incBy a n).host = s.host := rfl
@[simp] theorem State.incBy_engines (a n : Nat) : (s.incBy a n).engines = s.engines := rfl
@[simp] theorem State.incBy_clustersOff (a n : Nat) : (s.incBy a n).clustersOff = s.clustersOff := rfl
@[simp] theorem State.incBy_loader (a n : Nat) : (s.incBy a n).loader = s.loader := rfl
@[simp] theorem State.incBy_nets (a n : Nat) : (s.incBy a n).nets = s.nets := rfl
@[simp] theorem State.incBy_mdio (a n : Nat) : (s.incBy a n).mdio = s.mdio := rfl
@[simp] theorem State.incBy_clk (a n : Nat) : (s.incBy a n).clk = s.clk := rfl
@[simp] theorem State.incBy_rst (a n : Nat) : (s.incBy a n).rst = s.rst := rfl
@[simp] theorem State.incBy_pins (a n : Nat) : (s.incBy a n).pins = s.pins := rfl
@[simp] theorem State.incBy_fuses (a n : Nat) : (s.incBy a n).fuses = s.fuses := rfl
@[simp] theorem State.incBy_shadow (a n : Nat) : (s.incBy a n).shadow = s.shadow := rfl
@[simp] theorem State.incBy_cfg (a n : Nat) : (s.incBy a n).cfg = s.cfg := rfl
@[simp] theorem State.incBy_calm (a n : Nat) : (s.incBy a n).calm = s.calm := rfl
@[simp] theorem State.incBy_out (a n : Nat) : (s.incBy a n).out = s.out := rfl
@[simp] theorem State.incBy_queue_at (a n : Nat) (j : Nat) : (s.incBy a n).queue j = s.queue j := rfl
@[simp] theorem State.incBy_port_at (a n : Nat) (j : Nat) : (s.incBy a n).port j = s.port j := rfl
@[simp] theorem State.incBy_tw_at (a n : Nat) (j : Nat) : (s.incBy a n).tw j = s.tw j := rfl
@[simp] theorem State.incBy_link_at (a n : Nat) (j : Nat) : (s.incBy a n).link j = s.link j := rfl
@[simp] theorem State.incBy_eng_at (a n : Nat) (j : Nat) : (s.incBy a n).eng j = s.eng j := rfl
@[simp] theorem State.incBy_net_at (a n : Nat) (j : Nat) : (s.incBy a n).net j = s.net j := rfl
@[simp] theorem State.incBy_runs (a n : Nat) (dom : Domain) : (s.incBy a n).runs dom = s.runs dom := rfl

/-! ## inc -/

@[simp] theorem State.inc_pending (a : Nat) : (s.inc a).pending = s.pending := rfl
@[simp] theorem State.inc_freeNo (a : Nat) : (s.inc a).freeNo = s.freeNo := rfl
@[simp] theorem State.inc_stopped (a : Nat) : (s.inc a).stopped = s.stopped := rfl
@[simp] theorem State.inc_time (a : Nat) : (s.inc a).time = s.time := rfl
@[simp] theorem State.inc_log (a : Nat) : (s.inc a).log = s.log := rfl
@[simp] theorem State.inc_eic (a : Nat) : (s.inc a).eic = s.eic := rfl
@[simp] theorem State.inc_snaps (a : Nat) : (s.inc a).snaps = s.snaps := rfl
@[simp] theorem State.inc_windowSnaps (a : Nat) : (s.inc a).windowSnaps = s.windowSnaps := rfl
@[simp] theorem State.inc_cmdHeld (a : Nat) : (s.inc a).cmdHeld = s.cmdHeld := rfl
@[simp] theorem State.inc_staged (a : Nat) : (s.inc a).staged = s.staged := rfl
@[simp] theorem State.inc_queues (a : Nat) : (s.inc a).queues = s.queues := rfl
@[simp] theorem State.inc_ledger (a : Nat) : (s.inc a).ledger = s.ledger := rfl
@[simp] theorem State.inc_endpoint (a : Nat) : (s.inc a).endpoint = s.endpoint := rfl
@[simp] theorem State.inc_ports (a : Nat) : (s.inc a).ports = s.ports := rfl
@[simp] theorem State.inc_tws (a : Nat) : (s.inc a).tws = s.tws := rfl
@[simp] theorem State.inc_links (a : Nat) : (s.inc a).links = s.links := rfl
@[simp] theorem State.inc_chain (a : Nat) : (s.inc a).chain = s.chain := rfl
@[simp] theorem State.inc_mem (a : Nat) : (s.inc a).mem = s.mem := rfl
@[simp] theorem State.inc_host (a : Nat) : (s.inc a).host = s.host := rfl
@[simp] theorem State.inc_engines (a : Nat) : (s.inc a).engines = s.engines := rfl
@[simp] theorem State.inc_clustersOff (a : Nat) : (s.inc a).clustersOff = s.clustersOff := rfl
@[simp] theorem State.inc_loader (a : Nat) : (s.inc a).loader = s.loader := rfl
@[simp] theorem State.inc_nets (a : Nat) : (s.inc a).nets = s.nets := rfl
@[simp] theorem State.inc_mdio (a : Nat) : (s.inc a).mdio = s.mdio := rfl
@[simp] theorem State.inc_clk (a : Nat) : (s.inc a).clk = s.clk := rfl
@[simp] theorem State.inc_rst (a : Nat) : (s.inc a).rst = s.rst := rfl
@[simp] theorem State.inc_pins (a : Nat) : (s.inc a).pins = s.pins := rfl
@[simp] theorem State.inc_fuses (a : Nat) : (s.inc a).fuses = s.fuses := rfl
@[simp] theorem State.inc_shadow (a : Nat) : (s.inc a).shadow = s.shadow := rfl
@[simp] theorem State.inc_cfg (a : Nat) : (s.inc a).cfg = s.cfg := rfl
@[simp] theorem State.inc_calm (a : Nat) : (s.inc a).calm = s.calm := rfl
@[simp] theorem State.inc_out (a : Nat) : (s.inc a).out = s.out := rfl
@[simp] theorem State.inc_queue_at (a : Nat) (j : Nat) : (s.inc a).queue j = s.queue j := rfl
@[simp] theorem State.inc_port_at (a : Nat) (j : Nat) : (s.inc a).port j = s.port j := rfl
@[simp] theorem State.inc_tw_at (a : Nat) (j : Nat) : (s.inc a).tw j = s.tw j := rfl
@[simp] theorem State.inc_link_at (a : Nat) (j : Nat) : (s.inc a).link j = s.link j := rfl
@[simp] theorem State.inc_eng_at (a : Nat) (j : Nat) : (s.inc a).eng j = s.eng j := rfl
@[simp] theorem State.inc_net_at (a : Nat) (j : Nat) : (s.inc a).net j = s.net j := rfl
@[simp] theorem State.inc_runs (a : Nat) (dom : Domain) : (s.inc a).runs dom = s.runs dom := rfl

/-! ## setPair -/

@[simp] theorem State.setPair_pending (lo hi x : Nat) : (s.setPair lo hi x).pending = s.pending := rfl
@[simp] theorem State.setPair_freeNo (lo hi x : Nat) : (s.setPair lo hi x).freeNo = s.freeNo := rfl
@[simp] theorem State.setPair_stopped (lo hi x : Nat) : (s.setPair lo hi x).stopped = s.stopped := rfl
@[simp] theorem State.setPair_time (lo hi x : Nat) : (s.setPair lo hi x).time = s.time := rfl
@[simp] theorem State.setPair_log (lo hi x : Nat) : (s.setPair lo hi x).log = s.log := rfl
@[simp] theorem State.setPair_eic (lo hi x : Nat) : (s.setPair lo hi x).eic = s.eic := rfl
@[simp] theorem State.setPair_snaps (lo hi x : Nat) : (s.setPair lo hi x).snaps = s.snaps := rfl
@[simp] theorem State.setPair_windowSnaps (lo hi x : Nat) : (s.setPair lo hi x).windowSnaps = s.windowSnaps := rfl
@[simp] theorem State.setPair_cmdHeld (lo hi x : Nat) : (s.setPair lo hi x).cmdHeld = s.cmdHeld := rfl
@[simp] theorem State.setPair_staged (lo hi x : Nat) : (s.setPair lo hi x).staged = s.staged := rfl
@[simp] theorem State.setPair_queues (lo hi x : Nat) : (s.setPair lo hi x).queues = s.queues := rfl
@[simp] theorem State.setPair_ledger (lo hi x : Nat) : (s.setPair lo hi x).ledger = s.ledger := rfl
@[simp] theorem State.setPair_endpoint (lo hi x : Nat) : (s.setPair lo hi x).endpoint = s.endpoint := rfl
@[simp] theorem State.setPair_ports (lo hi x : Nat) : (s.setPair lo hi x).ports = s.ports := rfl
@[simp] theorem State.setPair_tws (lo hi x : Nat) : (s.setPair lo hi x).tws = s.tws := rfl
@[simp] theorem State.setPair_links (lo hi x : Nat) : (s.setPair lo hi x).links = s.links := rfl
@[simp] theorem State.setPair_chain (lo hi x : Nat) : (s.setPair lo hi x).chain = s.chain := rfl
@[simp] theorem State.setPair_mem (lo hi x : Nat) : (s.setPair lo hi x).mem = s.mem := rfl
@[simp] theorem State.setPair_host (lo hi x : Nat) : (s.setPair lo hi x).host = s.host := rfl
@[simp] theorem State.setPair_engines (lo hi x : Nat) : (s.setPair lo hi x).engines = s.engines := rfl
@[simp] theorem State.setPair_clustersOff (lo hi x : Nat) : (s.setPair lo hi x).clustersOff = s.clustersOff := rfl
@[simp] theorem State.setPair_loader (lo hi x : Nat) : (s.setPair lo hi x).loader = s.loader := rfl
@[simp] theorem State.setPair_nets (lo hi x : Nat) : (s.setPair lo hi x).nets = s.nets := rfl
@[simp] theorem State.setPair_mdio (lo hi x : Nat) : (s.setPair lo hi x).mdio = s.mdio := rfl
@[simp] theorem State.setPair_clk (lo hi x : Nat) : (s.setPair lo hi x).clk = s.clk := rfl
@[simp] theorem State.setPair_rst (lo hi x : Nat) : (s.setPair lo hi x).rst = s.rst := rfl
@[simp] theorem State.setPair_pins (lo hi x : Nat) : (s.setPair lo hi x).pins = s.pins := rfl
@[simp] theorem State.setPair_fuses (lo hi x : Nat) : (s.setPair lo hi x).fuses = s.fuses := rfl
@[simp] theorem State.setPair_shadow (lo hi x : Nat) : (s.setPair lo hi x).shadow = s.shadow := rfl
@[simp] theorem State.setPair_cfg (lo hi x : Nat) : (s.setPair lo hi x).cfg = s.cfg := rfl
@[simp] theorem State.setPair_calm (lo hi x : Nat) : (s.setPair lo hi x).calm = s.calm := rfl
@[simp] theorem State.setPair_out (lo hi x : Nat) : (s.setPair lo hi x).out = s.out := rfl
@[simp] theorem State.setPair_queue_at (lo hi x : Nat) (j : Nat) : (s.setPair lo hi x).queue j = s.queue j := rfl
@[simp] theorem State.setPair_port_at (lo hi x : Nat) (j : Nat) : (s.setPair lo hi x).port j = s.port j := rfl
@[simp] theorem State.setPair_tw_at (lo hi x : Nat) (j : Nat) : (s.setPair lo hi x).tw j = s.tw j := rfl
@[simp] theorem State.setPair_link_at (lo hi x : Nat) (j : Nat) : (s.setPair lo hi x).link j = s.link j := rfl
@[simp] theorem State.setPair_eng_at (lo hi x : Nat) (j : Nat) : (s.setPair lo hi x).eng j = s.eng j := rfl
@[simp] theorem State.setPair_net_at (lo hi x : Nat) (j : Nat) : (s.setPair lo hi x).net j = s.net j := rfl
@[simp] theorem State.setPair_runs (lo hi x : Nat) (dom : Domain) : (s.setPair lo hi x).runs dom = s.runs dom := rfl

/-! ## setRegBit -/

@[simp] theorem State.setRegBit_pending (a b : Nat) (x : Bool) : (s.setRegBit a b x).pending = s.pending := rfl
@[simp] theorem State.setRegBit_freeNo (a b : Nat) (x : Bool) : (s.setRegBit a b x).freeNo = s.freeNo := rfl
@[simp] theorem State.setRegBit_stopped (a b : Nat) (x : Bool) : (s.setRegBit a b x).stopped = s.stopped := rfl
@[simp] theorem State.setRegBit_time (a b : Nat) (x : Bool) : (s.setRegBit a b x).time = s.time := rfl
@[simp] theorem State.setRegBit_log (a b : Nat) (x : Bool) : (s.setRegBit a b x).log = s.log := rfl
@[simp] theorem State.setRegBit_eic (a b : Nat) (x : Bool) : (s.setRegBit a b x).eic = s.eic := rfl
@[simp] theorem State.setRegBit_snaps (a b : Nat) (x : Bool) : (s.setRegBit a b x).snaps = s.snaps := rfl
@[simp] theorem State.setRegBit_windowSnaps (a b : Nat) (x : Bool) : (s.setRegBit a b x).windowSnaps = s.windowSnaps := rfl
@[simp] theorem State.setRegBit_cmdHeld (a b : Nat) (x : Bool) : (s.setRegBit a b x).cmdHeld = s.cmdHeld := rfl
@[simp] theorem State.setRegBit_staged (a b : Nat) (x : Bool) : (s.setRegBit a b x).staged = s.staged := rfl
@[simp] theorem State.setRegBit_queues (a b : Nat) (x : Bool) : (s.setRegBit a b x).queues = s.queues := rfl
@[simp] theorem State.setRegBit_ledger (a b : Nat) (x : Bool) : (s.setRegBit a b x).ledger = s.ledger := rfl
@[simp] theorem State.setRegBit_endpoint (a b : Nat) (x : Bool) : (s.setRegBit a b x).endpoint = s.endpoint := rfl
@[simp] theorem State.setRegBit_ports (a b : Nat) (x : Bool) : (s.setRegBit a b x).ports = s.ports := rfl
@[simp] theorem State.setRegBit_tws (a b : Nat) (x : Bool) : (s.setRegBit a b x).tws = s.tws := rfl
@[simp] theorem State.setRegBit_links (a b : Nat) (x : Bool) : (s.setRegBit a b x).links = s.links := rfl
@[simp] theorem State.setRegBit_chain (a b : Nat) (x : Bool) : (s.setRegBit a b x).chain = s.chain := rfl
@[simp] theorem State.setRegBit_mem (a b : Nat) (x : Bool) : (s.setRegBit a b x).mem = s.mem := rfl
@[simp] theorem State.setRegBit_host (a b : Nat) (x : Bool) : (s.setRegBit a b x).host = s.host := rfl
@[simp] theorem State.setRegBit_engines (a b : Nat) (x : Bool) : (s.setRegBit a b x).engines = s.engines := rfl
@[simp] theorem State.setRegBit_clustersOff (a b : Nat) (x : Bool) : (s.setRegBit a b x).clustersOff = s.clustersOff := rfl
@[simp] theorem State.setRegBit_loader (a b : Nat) (x : Bool) : (s.setRegBit a b x).loader = s.loader := rfl
@[simp] theorem State.setRegBit_nets (a b : Nat) (x : Bool) : (s.setRegBit a b x).nets = s.nets := rfl
@[simp] theorem State.setRegBit_mdio (a b : Nat) (x : Bool) : (s.setRegBit a b x).mdio = s.mdio := rfl
@[simp] theorem State.setRegBit_clk (a b : Nat) (x : Bool) : (s.setRegBit a b x).clk = s.clk := rfl
@[simp] theorem State.setRegBit_rst (a b : Nat) (x : Bool) : (s.setRegBit a b x).rst = s.rst := rfl
@[simp] theorem State.setRegBit_pins (a b : Nat) (x : Bool) : (s.setRegBit a b x).pins = s.pins := rfl
@[simp] theorem State.setRegBit_fuses (a b : Nat) (x : Bool) : (s.setRegBit a b x).fuses = s.fuses := rfl
@[simp] theorem State.setRegBit_shadow (a b : Nat) (x : Bool) : (s.setRegBit a b x).shadow = s.shadow := rfl
@[simp] theorem State.setRegBit_cfg (a b : Nat) (x : Bool) : (s.setRegBit a b x).cfg = s.cfg := rfl
@[simp] theorem State.setRegBit_calm (a b : Nat) (x : Bool) : (s.setRegBit a b x).calm = s.calm := rfl
@[simp] theorem State.setRegBit_out (a b : Nat) (x : Bool) : (s.setRegBit a b x).out = s.out := rfl
@[simp] theorem State.setRegBit_queue_at (a b : Nat) (x : Bool) (j : Nat) : (s.setRegBit a b x).queue j = s.queue j := rfl
@[simp] theorem State.setRegBit_port_at (a b : Nat) (x : Bool) (j : Nat) : (s.setRegBit a b x).port j = s.port j := rfl
@[simp] theorem State.setRegBit_tw_at (a b : Nat) (x : Bool) (j : Nat) : (s.setRegBit a b x).tw j = s.tw j := rfl
@[simp] theorem State.setRegBit_link_at (a b : Nat) (x : Bool) (j : Nat) : (s.setRegBit a b x).link j = s.link j := rfl
@[simp] theorem State.setRegBit_eng_at (a b : Nat) (x : Bool) (j : Nat) : (s.setRegBit a b x).eng j = s.eng j := rfl
@[simp] theorem State.setRegBit_net_at (a b : Nat) (x : Bool) (j : Nat) : (s.setRegBit a b x).net j = s.net j := rfl
@[simp] theorem State.setRegBit_runs (a b : Nat) (x : Bool) (dom : Domain) : (s.setRegBit a b x).runs dom = s.runs dom := rfl

/-! ## setStamp -/

@[simp] theorem State.setStamp_pending (a b c x : Nat) : (s.setStamp a b c x).pending = s.pending := rfl
@[simp] theorem State.setStamp_freeNo (a b c x : Nat) : (s.setStamp a b c x).freeNo = s.freeNo := rfl
@[simp] theorem State.setStamp_stopped (a b c x : Nat) : (s.setStamp a b c x).stopped = s.stopped := rfl
@[simp] theorem State.setStamp_time (a b c x : Nat) : (s.setStamp a b c x).time = s.time := rfl
@[simp] theorem State.setStamp_log (a b c x : Nat) : (s.setStamp a b c x).log = s.log := rfl
@[simp] theorem State.setStamp_eic (a b c x : Nat) : (s.setStamp a b c x).eic = s.eic := rfl
@[simp] theorem State.setStamp_snaps (a b c x : Nat) : (s.setStamp a b c x).snaps = s.snaps := rfl
@[simp] theorem State.setStamp_windowSnaps (a b c x : Nat) : (s.setStamp a b c x).windowSnaps = s.windowSnaps := rfl
@[simp] theorem State.setStamp_cmdHeld (a b c x : Nat) : (s.setStamp a b c x).cmdHeld = s.cmdHeld := rfl
@[simp] theorem State.setStamp_staged (a b c x : Nat) : (s.setStamp a b c x).staged = s.staged := rfl
@[simp] theorem State.setStamp_queues (a b c x : Nat) : (s.setStamp a b c x).queues = s.queues := rfl
@[simp] theorem State.setStamp_ledger (a b c x : Nat) : (s.setStamp a b c x).ledger = s.ledger := rfl
@[simp] theorem State.setStamp_endpoint (a b c x : Nat) : (s.setStamp a b c x).endpoint = s.endpoint := rfl
@[simp] theorem State.setStamp_ports (a b c x : Nat) : (s.setStamp a b c x).ports = s.ports := rfl
@[simp] theorem State.setStamp_tws (a b c x : Nat) : (s.setStamp a b c x).tws = s.tws := rfl
@[simp] theorem State.setStamp_links (a b c x : Nat) : (s.setStamp a b c x).links = s.links := rfl
@[simp] theorem State.setStamp_chain (a b c x : Nat) : (s.setStamp a b c x).chain = s.chain := rfl
@[simp] theorem State.setStamp_mem (a b c x : Nat) : (s.setStamp a b c x).mem = s.mem := rfl
@[simp] theorem State.setStamp_host (a b c x : Nat) : (s.setStamp a b c x).host = s.host := rfl
@[simp] theorem State.setStamp_engines (a b c x : Nat) : (s.setStamp a b c x).engines = s.engines := rfl
@[simp] theorem State.setStamp_clustersOff (a b c x : Nat) : (s.setStamp a b c x).clustersOff = s.clustersOff := rfl
@[simp] theorem State.setStamp_loader (a b c x : Nat) : (s.setStamp a b c x).loader = s.loader := rfl
@[simp] theorem State.setStamp_nets (a b c x : Nat) : (s.setStamp a b c x).nets = s.nets := rfl
@[simp] theorem State.setStamp_mdio (a b c x : Nat) : (s.setStamp a b c x).mdio = s.mdio := rfl
@[simp] theorem State.setStamp_clk (a b c x : Nat) : (s.setStamp a b c x).clk = s.clk := rfl
@[simp] theorem State.setStamp_rst (a b c x : Nat) : (s.setStamp a b c x).rst = s.rst := rfl
@[simp] theorem State.setStamp_pins (a b c x : Nat) : (s.setStamp a b c x).pins = s.pins := rfl
@[simp] theorem State.setStamp_fuses (a b c x : Nat) : (s.setStamp a b c x).fuses = s.fuses := rfl
@[simp] theorem State.setStamp_shadow (a b c x : Nat) : (s.setStamp a b c x).shadow = s.shadow := rfl
@[simp] theorem State.setStamp_cfg (a b c x : Nat) : (s.setStamp a b c x).cfg = s.cfg := rfl
@[simp] theorem State.setStamp_calm (a b c x : Nat) : (s.setStamp a b c x).calm = s.calm := rfl
@[simp] theorem State.setStamp_out (a b c x : Nat) : (s.setStamp a b c x).out = s.out := rfl
@[simp] theorem State.setStamp_queue_at (a b c x : Nat) (j : Nat) : (s.setStamp a b c x).queue j = s.queue j := rfl
@[simp] theorem State.setStamp_port_at (a b c x : Nat) (j : Nat) : (s.setStamp a b c x).port j = s.port j := rfl
@[simp] theorem State.setStamp_tw_at (a b c x : Nat) (j : Nat) : (s.setStamp a b c x).tw j = s.tw j := rfl
@[simp] theorem State.setStamp_link_at (a b c x : Nat) (j : Nat) : (s.setStamp a b c x).link j = s.link j := rfl
@[simp] theorem State.setStamp_eng_at (a b c x : Nat) (j : Nat) : (s.setStamp a b c x).eng j = s.eng j := rfl
@[simp] theorem State.setStamp_net_at (a b c x : Nat) (j : Nat) : (s.setStamp a b c x).net j = s.net j := rfl
@[simp] theorem State.setStamp_runs (a b c x : Nat) (dom : Domain) : (s.setStamp a b c x).runs dom = s.runs dom := rfl

/-! ## emit -/

@[simp] theorem State.emit_pending (o : Out) : (s.emit o).pending = s.pending := rfl
@[simp] theorem State.emit_regs (o : Out) : (s.emit o).regs = s.regs := rfl
@[simp] theorem State.emit_freeNo (o : Out) : (s.emit o).freeNo = s.freeNo := rfl
@[simp] theorem State.emit_stopped (o : Out) : (s.emit o).stopped = s.stopped := rfl
@[simp] theorem State.emit_time (o : Out) : (s.emit o).time = s.time := rfl
@[simp] theorem State.emit_log (o : Out) : (s.emit o).log = s.log := rfl
@[simp] theorem State.emit_eic (o : Out) : (s.emit o).eic = s.eic := rfl
@[simp] theorem State.emit_snaps (o : Out) : (s.emit o).snaps = s.snaps := rfl
@[simp] theorem State.emit_windowSnaps (o : Out) : (s.emit o).windowSnaps = s.windowSnaps := rfl
@[simp] theorem State.emit_cmdHeld (o : Out) : (s.emit o).cmdHeld = s.cmdHeld := rfl
@[simp] theorem State.emit_staged (o : Out) : (s.emit o).staged = s.staged := rfl
@[simp] theorem State.emit_queues (o : Out) : (s.emit o).queues = s.queues := rfl
@[simp] theorem State.emit_ledger (o : Out) : (s.emit o).ledger = s.ledger := rfl
@[simp] theorem State.emit_endpoint (o : Out) : (s.emit o).endpoint = s.endpoint := rfl
@[simp] theorem State.emit_ports (o : Out) : (s.emit o).ports = s.ports := rfl
@[simp] theorem State.emit_tws (o : Out) : (s.emit o).tws = s.tws := rfl
@[simp] theorem State.emit_links (o : Out) : (s.emit o).links = s.links := rfl
@[simp] theorem State.emit_chain (o : Out) : (s.emit o).chain = s.chain := rfl
@[simp] theorem State.emit_mem (o : Out) : (s.emit o).mem = s.mem := rfl
@[simp] theorem State.emit_host (o : Out) : (s.emit o).host = s.host := rfl
@[simp] theorem State.emit_engines (o : Out) : (s.emit o).engines = s.engines := rfl
@[simp] theorem State.emit_clustersOff (o : Out) : (s.emit o).clustersOff = s.clustersOff := rfl
@[simp] theorem State.emit_loader (o : Out) : (s.emit o).loader = s.loader := rfl
@[simp] theorem State.emit_nets (o : Out) : (s.emit o).nets = s.nets := rfl
@[simp] theorem State.emit_mdio (o : Out) : (s.emit o).mdio = s.mdio := rfl
@[simp] theorem State.emit_clk (o : Out) : (s.emit o).clk = s.clk := rfl
@[simp] theorem State.emit_rst (o : Out) : (s.emit o).rst = s.rst := rfl
@[simp] theorem State.emit_pins (o : Out) : (s.emit o).pins = s.pins := rfl
@[simp] theorem State.emit_fuses (o : Out) : (s.emit o).fuses = s.fuses := rfl
@[simp] theorem State.emit_shadow (o : Out) : (s.emit o).shadow = s.shadow := rfl
@[simp] theorem State.emit_cfg (o : Out) : (s.emit o).cfg = s.cfg := rfl
@[simp] theorem State.emit_calm (o : Out) : (s.emit o).calm = s.calm := rfl
@[simp] theorem State.emit_reg_at (o : Out) (j : Nat) : (s.emit o).reg j = s.reg j := rfl
@[simp] theorem State.emit_queue_at (o : Out) (j : Nat) : (s.emit o).queue j = s.queue j := rfl
@[simp] theorem State.emit_port_at (o : Out) (j : Nat) : (s.emit o).port j = s.port j := rfl
@[simp] theorem State.emit_tw_at (o : Out) (j : Nat) : (s.emit o).tw j = s.tw j := rfl
@[simp] theorem State.emit_link_at (o : Out) (j : Nat) : (s.emit o).link j = s.link j := rfl
@[simp] theorem State.emit_eng_at (o : Out) (j : Nat) : (s.emit o).eng j = s.eng j := rfl
@[simp] theorem State.emit_net_at (o : Out) (j : Nat) : (s.emit o).net j = s.net j := rfl
@[simp] theorem State.emit_now (o : Out) : (s.emit o).now = s.now := rfl
@[simp] theorem State.emit_runs (o : Out) (dom : Domain) : (s.emit o).runs dom = s.runs dom := rfl

/-! ## usedFree -/

@[simp] theorem State.usedFree_pending : (s.usedFree).pending = s.pending := rfl
@[simp] theorem State.usedFree_regs : (s.usedFree).regs = s.regs := rfl
@[simp] theorem State.usedFree_stopped : (s.usedFree).stopped = s.stopped := rfl
@[simp] theorem State.usedFree_time : (s.usedFree).time = s.time := rfl
@[simp] theorem State.usedFree_log : (s.usedFree).log = s.log := rfl
@[simp] theorem State.usedFree_eic : (s.usedFree).eic = s.eic := rfl
@[simp] theorem State.usedFree_snaps : (s.usedFree).snaps = s.snaps := rfl
@[simp] theorem State.usedFree_windowSnaps : (s.usedFree).windowSnaps = s.windowSnaps := rfl
@[simp] theorem State.usedFree_cmdHeld : (s.usedFree).cmdHeld = s.cmdHeld := rfl
@[simp] theorem State.usedFree_staged : (s.usedFree).staged = s.staged := rfl
@[simp] theorem State.usedFree_queues : (s.usedFree).queues = s.queues := rfl
@[simp] theorem State.usedFree_ledger : (s.usedFree).ledger = s.ledger := rfl
@[simp] theorem State.usedFree_endpoint : (s.usedFree).endpoint = s.endpoint := rfl
@[simp] theorem State.usedFree_ports : (s.usedFree).ports = s.ports := rfl
@[simp] theorem State.usedFree_tws : (s.usedFree).tws = s.tws := rfl
@[simp] theorem State.usedFree_links : (s.usedFree).links = s.links := rfl
@[simp] theorem State.usedFree_chain : (s.usedFree).chain = s.chain := rfl
@[simp] theorem State.usedFree_mem : (s.usedFree).mem = s.mem := rfl
@[simp] theorem State.usedFree_host : (s.usedFree).host = s.host := rfl
@[simp] theorem State.usedFree_engines : (s.usedFree).engines = s.engines := rfl
@[simp] theorem State.usedFree_clustersOff : (s.usedFree).clustersOff = s.clustersOff := rfl
@[simp] theorem State.usedFree_loader : (s.usedFree).loader = s.loader := rfl
@[simp] theorem State.usedFree_nets : (s.usedFree).nets = s.nets := rfl
@[simp] theorem State.usedFree_mdio : (s.usedFree).mdio = s.mdio := rfl
@[simp] theorem State.usedFree_clk : (s.usedFree).clk = s.clk := rfl
@[simp] theorem State.usedFree_rst : (s.usedFree).rst = s.rst := rfl
@[simp] theorem State.usedFree_pins : (s.usedFree).pins = s.pins := rfl
@[simp] theorem State.usedFree_fuses : (s.usedFree).fuses = s.fuses := rfl
@[simp] theorem State.usedFree_shadow : (s.usedFree).shadow = s.shadow := rfl
@[simp] theorem State.usedFree_cfg : (s.usedFree).cfg = s.cfg := rfl
@[simp] theorem State.usedFree_calm : (s.usedFree).calm = s.calm := rfl
@[simp] theorem State.usedFree_out : (s.usedFree).out = s.out := rfl
@[simp] theorem State.usedFree_reg_at (j : Nat) : (s.usedFree).reg j = s.reg j := rfl
@[simp] theorem State.usedFree_queue_at (j : Nat) : (s.usedFree).queue j = s.queue j := rfl
@[simp] theorem State.usedFree_port_at (j : Nat) : (s.usedFree).port j = s.port j := rfl
@[simp] theorem State.usedFree_tw_at (j : Nat) : (s.usedFree).tw j = s.tw j := rfl
@[simp] theorem State.usedFree_link_at (j : Nat) : (s.usedFree).link j = s.link j := rfl
@[simp] theorem State.usedFree_eng_at (j : Nat) : (s.usedFree).eng j = s.eng j := rfl
@[simp] theorem State.usedFree_net_at (j : Nat) : (s.usedFree).net j = s.net j := rfl
@[simp] theorem State.usedFree_now : (s.usedFree).now = s.now := rfl
@[simp] theorem State.usedFree_runs (dom : Domain) : (s.usedFree).runs dom = s.runs dom := rfl

/-! ## setQueue -/

@[simp] theorem State.setQueue_pending (n : Nat) (q : Queue) : (s.setQueue n q).pending = s.pending := rfl
@[simp] theorem State.setQueue_regs (n : Nat) (q : Queue) : (s.setQueue n q).regs = s.regs := rfl
@[simp] theorem State.setQueue_freeNo (n : Nat) (q : Queue) : (s.setQueue n q).freeNo = s.freeNo := rfl
@[simp] theorem State.setQueue_stopped (n : Nat) (q : Queue) : (s.setQueue n q).stopped = s.stopped := rfl
@[simp] theorem State.setQueue_time (n : Nat) (q : Queue) : (s.setQueue n q).time = s.time := rfl
@[simp] theorem State.setQueue_log (n : Nat) (q : Queue) : (s.setQueue n q).log = s.log := rfl
@[simp] theorem State.setQueue_eic (n : Nat) (q : Queue) : (s.setQueue n q).eic = s.eic := rfl
@[simp] theorem State.setQueue_snaps (n : Nat) (q : Queue) : (s.setQueue n q).snaps = s.snaps := rfl
@[simp] theorem State.setQueue_windowSnaps (n : Nat) (q : Queue) : (s.setQueue n q).windowSnaps = s.windowSnaps := rfl
@[simp] theorem State.setQueue_cmdHeld (n : Nat) (q : Queue) : (s.setQueue n q).cmdHeld = s.cmdHeld := rfl
@[simp] theorem State.setQueue_staged (n : Nat) (q : Queue) : (s.setQueue n q).staged = s.staged := rfl
@[simp] theorem State.setQueue_ledger (n : Nat) (q : Queue) : (s.setQueue n q).ledger = s.ledger := rfl
@[simp] theorem State.setQueue_endpoint (n : Nat) (q : Queue) : (s.setQueue n q).endpoint = s.endpoint := rfl
@[simp] theorem State.setQueue_ports (n : Nat) (q : Queue) : (s.setQueue n q).ports = s.ports := rfl
@[simp] theorem State.setQueue_tws (n : Nat) (q : Queue) : (s.setQueue n q).tws = s.tws := rfl
@[simp] theorem State.setQueue_links (n : Nat) (q : Queue) : (s.setQueue n q).links = s.links := rfl
@[simp] theorem State.setQueue_chain (n : Nat) (q : Queue) : (s.setQueue n q).chain = s.chain := rfl
@[simp] theorem State.setQueue_mem (n : Nat) (q : Queue) : (s.setQueue n q).mem = s.mem := rfl
@[simp] theorem State.setQueue_host (n : Nat) (q : Queue) : (s.setQueue n q).host = s.host := rfl
@[simp] theorem State.setQueue_engines (n : Nat) (q : Queue) : (s.setQueue n q).engines = s.engines := rfl
@[simp] theorem State.setQueue_clustersOff (n : Nat) (q : Queue) : (s.setQueue n q).clustersOff = s.clustersOff := rfl
@[simp] theorem State.setQueue_loader (n : Nat) (q : Queue) : (s.setQueue n q).loader = s.loader := rfl
@[simp] theorem State.setQueue_nets (n : Nat) (q : Queue) : (s.setQueue n q).nets = s.nets := rfl
@[simp] theorem State.setQueue_mdio (n : Nat) (q : Queue) : (s.setQueue n q).mdio = s.mdio := rfl
@[simp] theorem State.setQueue_clk (n : Nat) (q : Queue) : (s.setQueue n q).clk = s.clk := rfl
@[simp] theorem State.setQueue_rst (n : Nat) (q : Queue) : (s.setQueue n q).rst = s.rst := rfl
@[simp] theorem State.setQueue_pins (n : Nat) (q : Queue) : (s.setQueue n q).pins = s.pins := rfl
@[simp] theorem State.setQueue_fuses (n : Nat) (q : Queue) : (s.setQueue n q).fuses = s.fuses := rfl
@[simp] theorem State.setQueue_shadow (n : Nat) (q : Queue) : (s.setQueue n q).shadow = s.shadow := rfl
@[simp] theorem State.setQueue_cfg (n : Nat) (q : Queue) : (s.setQueue n q).cfg = s.cfg := rfl
@[simp] theorem State.setQueue_calm (n : Nat) (q : Queue) : (s.setQueue n q).calm = s.calm := rfl
@[simp] theorem State.setQueue_out (n : Nat) (q : Queue) : (s.setQueue n q).out = s.out := rfl
@[simp] theorem State.setQueue_reg_at (n : Nat) (q : Queue) (j : Nat) : (s.setQueue n q).reg j = s.reg j := rfl
@[simp] theorem State.setQueue_port_at (n : Nat) (q : Queue) (j : Nat) : (s.setQueue n q).port j = s.port j := rfl
@[simp] theorem State.setQueue_tw_at (n : Nat) (q : Queue) (j : Nat) : (s.setQueue n q).tw j = s.tw j := rfl
@[simp] theorem State.setQueue_link_at (n : Nat) (q : Queue) (j : Nat) : (s.setQueue n q).link j = s.link j := rfl
@[simp] theorem State.setQueue_eng_at (n : Nat) (q : Queue) (j : Nat) : (s.setQueue n q).eng j = s.eng j := rfl
@[simp] theorem State.setQueue_net_at (n : Nat) (q : Queue) (j : Nat) : (s.setQueue n q).net j = s.net j := rfl
@[simp] theorem State.setQueue_now (n : Nat) (q : Queue) : (s.setQueue n q).now = s.now := rfl
@[simp] theorem State.setQueue_runs (n : Nat) (q : Queue) (dom : Domain) : (s.setQueue n q).runs dom = s.runs dom := rfl

/-! ## setPort -/

@[simp] theorem State.setPort_pending (n : Nat) (p : Port) : (s.setPort n p).pending = s.pending := rfl
@[simp] theorem State.setPort_regs (n : Nat) (p : Port) : (s.setPort n p).regs = s.regs := rfl
@[simp] theorem State.setPort_freeNo (n : Nat) (p : Port) : (s.setPort n p).freeNo = s.freeNo := rfl
@[simp] theorem State.setPort_stopped (n : Nat) (p : Port) : (s.setPort n p).stopped = s.stopped := rfl
@[simp] theorem State.setPort_time (n : Nat) (p : Port) : (s.setPort n p).time = s.time := rfl
@[simp] theorem State.setPort_log (n : Nat) (p : Port) : (s.setPort n p).log = s.log := rfl
@[simp] theorem State.setPort_eic (n : Nat) (p : Port) : (s.setPort n p).eic = s.eic := rfl
@[simp] theorem State.setPort_snaps (n : Nat) (p : Port) : (s.setPort n p).snaps = s.snaps := rfl
@[simp] theorem State.setPort_windowSnaps (n : Nat) (p : Port) : (s.setPort n p).windowSnaps = s.windowSnaps := rfl
@[simp] theorem State.setPort_cmdHeld (n : Nat) (p : Port) : (s.setPort n p).cmdHeld = s.cmdHeld := rfl
@[simp] theorem State.setPort_staged (n : Nat) (p : Port) : (s.setPort n p).staged = s.staged := rfl
@[simp] theorem State.setPort_queues (n : Nat) (p : Port) : (s.setPort n p).queues = s.queues := rfl
@[simp] theorem State.setPort_ledger (n : Nat) (p : Port) : (s.setPort n p).ledger = s.ledger := rfl
@[simp] theorem State.setPort_endpoint (n : Nat) (p : Port) : (s.setPort n p).endpoint = s.endpoint := rfl
@[simp] theorem State.setPort_tws (n : Nat) (p : Port) : (s.setPort n p).tws = s.tws := rfl
@[simp] theorem State.setPort_links (n : Nat) (p : Port) : (s.setPort n p).links = s.links := rfl
@[simp] theorem State.setPort_chain (n : Nat) (p : Port) : (s.setPort n p).chain = s.chain := rfl
@[simp] theorem State.setPort_mem (n : Nat) (p : Port) : (s.setPort n p).mem = s.mem := rfl
@[simp] theorem State.setPort_host (n : Nat) (p : Port) : (s.setPort n p).host = s.host := rfl
@[simp] theorem State.setPort_engines (n : Nat) (p : Port) : (s.setPort n p).engines = s.engines := rfl
@[simp] theorem State.setPort_clustersOff (n : Nat) (p : Port) : (s.setPort n p).clustersOff = s.clustersOff := rfl
@[simp] theorem State.setPort_loader (n : Nat) (p : Port) : (s.setPort n p).loader = s.loader := rfl
@[simp] theorem State.setPort_nets (n : Nat) (p : Port) : (s.setPort n p).nets = s.nets := rfl
@[simp] theorem State.setPort_mdio (n : Nat) (p : Port) : (s.setPort n p).mdio = s.mdio := rfl
@[simp] theorem State.setPort_clk (n : Nat) (p : Port) : (s.setPort n p).clk = s.clk := rfl
@[simp] theorem State.setPort_rst (n : Nat) (p : Port) : (s.setPort n p).rst = s.rst := rfl
@[simp] theorem State.setPort_pins (n : Nat) (p : Port) : (s.setPort n p).pins = s.pins := rfl
@[simp] theorem State.setPort_fuses (n : Nat) (p : Port) : (s.setPort n p).fuses = s.fuses := rfl
@[simp] theorem State.setPort_shadow (n : Nat) (p : Port) : (s.setPort n p).shadow = s.shadow := rfl
@[simp] theorem State.setPort_cfg (n : Nat) (p : Port) : (s.setPort n p).cfg = s.cfg := rfl
@[simp] theorem State.setPort_calm (n : Nat) (p : Port) : (s.setPort n p).calm = s.calm := rfl
@[simp] theorem State.setPort_out (n : Nat) (p : Port) : (s.setPort n p).out = s.out := rfl
@[simp] theorem State.setPort_reg_at (n : Nat) (p : Port) (j : Nat) : (s.setPort n p).reg j = s.reg j := rfl
@[simp] theorem State.setPort_queue_at (n : Nat) (p : Port) (j : Nat) : (s.setPort n p).queue j = s.queue j := rfl
@[simp] theorem State.setPort_tw_at (n : Nat) (p : Port) (j : Nat) : (s.setPort n p).tw j = s.tw j := rfl
@[simp] theorem State.setPort_link_at (n : Nat) (p : Port) (j : Nat) : (s.setPort n p).link j = s.link j := rfl
@[simp] theorem State.setPort_eng_at (n : Nat) (p : Port) (j : Nat) : (s.setPort n p).eng j = s.eng j := rfl
@[simp] theorem State.setPort_net_at (n : Nat) (p : Port) (j : Nat) : (s.setPort n p).net j = s.net j := rfl
@[simp] theorem State.setPort_now (n : Nat) (p : Port) : (s.setPort n p).now = s.now := rfl
@[simp] theorem State.setPort_runs (n : Nat) (p : Port) (dom : Domain) : (s.setPort n p).runs dom = s.runs dom := rfl

/-! ## setTw -/

@[simp] theorem State.setTw_pending (n : Nat) (x : Tw) : (s.setTw n x).pending = s.pending := rfl
@[simp] theorem State.setTw_regs (n : Nat) (x : Tw) : (s.setTw n x).regs = s.regs := rfl
@[simp] theorem State.setTw_freeNo (n : Nat) (x : Tw) : (s.setTw n x).freeNo = s.freeNo := rfl
@[simp] theorem State.setTw_stopped (n : Nat) (x : Tw) : (s.setTw n x).stopped = s.stopped := rfl
@[simp] theorem State.setTw_time (n : Nat) (x : Tw) : (s.setTw n x).time = s.time := rfl
@[simp] theorem State.setTw_log (n : Nat) (x : Tw) : (s.setTw n x).log = s.log := rfl
@[simp] theorem State.setTw_eic (n : Nat) (x : Tw) : (s.setTw n x).eic = s.eic := rfl
@[simp] theorem State.setTw_snaps (n : Nat) (x : Tw) : (s.setTw n x).snaps = s.snaps := rfl
@[simp] theorem State.setTw_windowSnaps (n : Nat) (x : Tw) : (s.setTw n x).windowSnaps = s.windowSnaps := rfl
@[simp] theorem State.setTw_cmdHeld (n : Nat) (x : Tw) : (s.setTw n x).cmdHeld = s.cmdHeld := rfl
@[simp] theorem State.setTw_staged (n : Nat) (x : Tw) : (s.setTw n x).staged = s.staged := rfl
@[simp] theorem State.setTw_queues (n : Nat) (x : Tw) : (s.setTw n x).queues = s.queues := rfl
@[simp] theorem State.setTw_ledger (n : Nat) (x : Tw) : (s.setTw n x).ledger = s.ledger := rfl
@[simp] theorem State.setTw_endpoint (n : Nat) (x : Tw) : (s.setTw n x).endpoint = s.endpoint := rfl
@[simp] theorem State.setTw_ports (n : Nat) (x : Tw) : (s.setTw n x).ports = s.ports := rfl
@[simp] theorem State.setTw_links (n : Nat) (x : Tw) : (s.setTw n x).links = s.links := rfl
@[simp] theorem State.setTw_chain (n : Nat) (x : Tw) : (s.setTw n x).chain = s.chain := rfl
@[simp] theorem State.setTw_mem (n : Nat) (x : Tw) : (s.setTw n x).mem = s.mem := rfl
@[simp] theorem State.setTw_host (n : Nat) (x : Tw) : (s.setTw n x).host = s.host := rfl
@[simp] theorem State.setTw_engines (n : Nat) (x : Tw) : (s.setTw n x).engines = s.engines := rfl
@[simp] theorem State.setTw_clustersOff (n : Nat) (x : Tw) : (s.setTw n x).clustersOff = s.clustersOff := rfl
@[simp] theorem State.setTw_loader (n : Nat) (x : Tw) : (s.setTw n x).loader = s.loader := rfl
@[simp] theorem State.setTw_nets (n : Nat) (x : Tw) : (s.setTw n x).nets = s.nets := rfl
@[simp] theorem State.setTw_mdio (n : Nat) (x : Tw) : (s.setTw n x).mdio = s.mdio := rfl
@[simp] theorem State.setTw_clk (n : Nat) (x : Tw) : (s.setTw n x).clk = s.clk := rfl
@[simp] theorem State.setTw_rst (n : Nat) (x : Tw) : (s.setTw n x).rst = s.rst := rfl
@[simp] theorem State.setTw_pins (n : Nat) (x : Tw) : (s.setTw n x).pins = s.pins := rfl
@[simp] theorem State.setTw_fuses (n : Nat) (x : Tw) : (s.setTw n x).fuses = s.fuses := rfl
@[simp] theorem State.setTw_shadow (n : Nat) (x : Tw) : (s.setTw n x).shadow = s.shadow := rfl
@[simp] theorem State.setTw_cfg (n : Nat) (x : Tw) : (s.setTw n x).cfg = s.cfg := rfl
@[simp] theorem State.setTw_calm (n : Nat) (x : Tw) : (s.setTw n x).calm = s.calm := rfl
@[simp] theorem State.setTw_out (n : Nat) (x : Tw) : (s.setTw n x).out = s.out := rfl
@[simp] theorem State.setTw_reg_at (n : Nat) (x : Tw) (j : Nat) : (s.setTw n x).reg j = s.reg j := rfl
@[simp] theorem State.setTw_queue_at (n : Nat) (x : Tw) (j : Nat) : (s.setTw n x).queue j = s.queue j := rfl
@[simp] theorem State.setTw_port_at (n : Nat) (x : Tw) (j : Nat) : (s.setTw n x).port j = s.port j := rfl
@[simp] theorem State.setTw_link_at (n : Nat) (x : Tw) (j : Nat) : (s.setTw n x).link j = s.link j := rfl
@[simp] theorem State.setTw_eng_at (n : Nat) (x : Tw) (j : Nat) : (s.setTw n x).eng j = s.eng j := rfl
@[simp] theorem State.setTw_net_at (n : Nat) (x : Tw) (j : Nat) : (s.setTw n x).net j = s.net j := rfl
@[simp] theorem State.setTw_now (n : Nat) (x : Tw) : (s.setTw n x).now = s.now := rfl
@[simp] theorem State.setTw_runs (n : Nat) (x : Tw) (dom : Domain) : (s.setTw n x).runs dom = s.runs dom := rfl

/-! ## setGuard -/

@[simp] theorem State.setGuard_pending (n : Nat) (x : Guardian) : (s.setGuard n x).pending = s.pending := rfl
@[simp] theorem State.setGuard_regs (n : Nat) (x : Guardian) : (s.setGuard n x).regs = s.regs := rfl
@[simp] theorem State.setGuard_freeNo (n : Nat) (x : Guardian) : (s.setGuard n x).freeNo = s.freeNo := rfl
@[simp] theorem State.setGuard_stopped (n : Nat) (x : Guardian) : (s.setGuard n x).stopped = s.stopped := rfl
@[simp] theorem State.setGuard_time (n : Nat) (x : Guardian) : (s.setGuard n x).time = s.time := rfl
@[simp] theorem State.setGuard_log (n : Nat) (x : Guardian) : (s.setGuard n x).log = s.log := rfl
@[simp] theorem State.setGuard_eic (n : Nat) (x : Guardian) : (s.setGuard n x).eic = s.eic := rfl
@[simp] theorem State.setGuard_snaps (n : Nat) (x : Guardian) : (s.setGuard n x).snaps = s.snaps := rfl
@[simp] theorem State.setGuard_windowSnaps (n : Nat) (x : Guardian) : (s.setGuard n x).windowSnaps = s.windowSnaps := rfl
@[simp] theorem State.setGuard_cmdHeld (n : Nat) (x : Guardian) : (s.setGuard n x).cmdHeld = s.cmdHeld := rfl
@[simp] theorem State.setGuard_staged (n : Nat) (x : Guardian) : (s.setGuard n x).staged = s.staged := rfl
@[simp] theorem State.setGuard_queues (n : Nat) (x : Guardian) : (s.setGuard n x).queues = s.queues := rfl
@[simp] theorem State.setGuard_ledger (n : Nat) (x : Guardian) : (s.setGuard n x).ledger = s.ledger := rfl
@[simp] theorem State.setGuard_endpoint (n : Nat) (x : Guardian) : (s.setGuard n x).endpoint = s.endpoint := rfl
@[simp] theorem State.setGuard_ports (n : Nat) (x : Guardian) : (s.setGuard n x).ports = s.ports := rfl
@[simp] theorem State.setGuard_links (n : Nat) (x : Guardian) : (s.setGuard n x).links = s.links := rfl
@[simp] theorem State.setGuard_chain (n : Nat) (x : Guardian) : (s.setGuard n x).chain = s.chain := rfl
@[simp] theorem State.setGuard_mem (n : Nat) (x : Guardian) : (s.setGuard n x).mem = s.mem := rfl
@[simp] theorem State.setGuard_host (n : Nat) (x : Guardian) : (s.setGuard n x).host = s.host := rfl
@[simp] theorem State.setGuard_engines (n : Nat) (x : Guardian) : (s.setGuard n x).engines = s.engines := rfl
@[simp] theorem State.setGuard_clustersOff (n : Nat) (x : Guardian) : (s.setGuard n x).clustersOff = s.clustersOff := rfl
@[simp] theorem State.setGuard_loader (n : Nat) (x : Guardian) : (s.setGuard n x).loader = s.loader := rfl
@[simp] theorem State.setGuard_nets (n : Nat) (x : Guardian) : (s.setGuard n x).nets = s.nets := rfl
@[simp] theorem State.setGuard_mdio (n : Nat) (x : Guardian) : (s.setGuard n x).mdio = s.mdio := rfl
@[simp] theorem State.setGuard_clk (n : Nat) (x : Guardian) : (s.setGuard n x).clk = s.clk := rfl
@[simp] theorem State.setGuard_rst (n : Nat) (x : Guardian) : (s.setGuard n x).rst = s.rst := rfl
@[simp] theorem State.setGuard_pins (n : Nat) (x : Guardian) : (s.setGuard n x).pins = s.pins := rfl
@[simp] theorem State.setGuard_fuses (n : Nat) (x : Guardian) : (s.setGuard n x).fuses = s.fuses := rfl
@[simp] theorem State.setGuard_shadow (n : Nat) (x : Guardian) : (s.setGuard n x).shadow = s.shadow := rfl
@[simp] theorem State.setGuard_cfg (n : Nat) (x : Guardian) : (s.setGuard n x).cfg = s.cfg := rfl
@[simp] theorem State.setGuard_calm (n : Nat) (x : Guardian) : (s.setGuard n x).calm = s.calm := rfl
@[simp] theorem State.setGuard_out (n : Nat) (x : Guardian) : (s.setGuard n x).out = s.out := rfl
@[simp] theorem State.setGuard_reg_at (n : Nat) (x : Guardian) (j : Nat) : (s.setGuard n x).reg j = s.reg j := rfl
@[simp] theorem State.setGuard_queue_at (n : Nat) (x : Guardian) (j : Nat) : (s.setGuard n x).queue j = s.queue j := rfl
@[simp] theorem State.setGuard_port_at (n : Nat) (x : Guardian) (j : Nat) : (s.setGuard n x).port j = s.port j := rfl
@[simp] theorem State.setGuard_link_at (n : Nat) (x : Guardian) (j : Nat) : (s.setGuard n x).link j = s.link j := rfl
@[simp] theorem State.setGuard_eng_at (n : Nat) (x : Guardian) (j : Nat) : (s.setGuard n x).eng j = s.eng j := rfl
@[simp] theorem State.setGuard_net_at (n : Nat) (x : Guardian) (j : Nat) : (s.setGuard n x).net j = s.net j := rfl
@[simp] theorem State.setGuard_now (n : Nat) (x : Guardian) : (s.setGuard n x).now = s.now := rfl
@[simp] theorem State.setGuard_runs (n : Nat) (x : Guardian) (dom : Domain) : (s.setGuard n x).runs dom = s.runs dom := rfl

/-! ## setLink -/

@[simp] theorem State.setLink_pending (l : Nat) (x : Link) : (s.setLink l x).pending = s.pending := rfl
@[simp] theorem State.setLink_regs (l : Nat) (x : Link) : (s.setLink l x).regs = s.regs := rfl
@[simp] theorem State.setLink_freeNo (l : Nat) (x : Link) : (s.setLink l x).freeNo = s.freeNo := rfl
@[simp] theorem State.setLink_stopped (l : Nat) (x : Link) : (s.setLink l x).stopped = s.stopped := rfl
@[simp] theorem State.setLink_time (l : Nat) (x : Link) : (s.setLink l x).time = s.time := rfl
@[simp] theorem State.setLink_log (l : Nat) (x : Link) : (s.setLink l x).log = s.log := rfl
@[simp] theorem State.setLink_eic (l : Nat) (x : Link) : (s.setLink l x).eic = s.eic := rfl
@[simp] theorem State.setLink_snaps (l : Nat) (x : Link) : (s.setLink l x).snaps = s.snaps := rfl
@[simp] theorem State.setLink_windowSnaps (l : Nat) (x : Link) : (s.setLink l x).windowSnaps = s.windowSnaps := rfl
@[simp] theorem State.setLink_cmdHeld (l : Nat) (x : Link) : (s.setLink l x).cmdHeld = s.cmdHeld := rfl
@[simp] theorem State.setLink_staged (l : Nat) (x : Link) : (s.setLink l x).staged = s.staged := rfl
@[simp] theorem State.setLink_queues (l : Nat) (x : Link) : (s.setLink l x).queues = s.queues := rfl
@[simp] theorem State.setLink_ledger (l : Nat) (x : Link) : (s.setLink l x).ledger = s.ledger := rfl
@[simp] theorem State.setLink_endpoint (l : Nat) (x : Link) : (s.setLink l x).endpoint = s.endpoint := rfl
@[simp] theorem State.setLink_ports (l : Nat) (x : Link) : (s.setLink l x).ports = s.ports := rfl
@[simp] theorem State.setLink_tws (l : Nat) (x : Link) : (s.setLink l x).tws = s.tws := rfl
@[simp] theorem State.setLink_chain (l : Nat) (x : Link) : (s.setLink l x).chain = s.chain := rfl
@[simp] theorem State.setLink_mem (l : Nat) (x : Link) : (s.setLink l x).mem = s.mem := rfl
@[simp] theorem State.setLink_host (l : Nat) (x : Link) : (s.setLink l x).host = s.host := rfl
@[simp] theorem State.setLink_engines (l : Nat) (x : Link) : (s.setLink l x).engines = s.engines := rfl
@[simp] theorem State.setLink_clustersOff (l : Nat) (x : Link) : (s.setLink l x).clustersOff = s.clustersOff := rfl
@[simp] theorem State.setLink_loader (l : Nat) (x : Link) : (s.setLink l x).loader = s.loader := rfl
@[simp] theorem State.setLink_nets (l : Nat) (x : Link) : (s.setLink l x).nets = s.nets := rfl
@[simp] theorem State.setLink_mdio (l : Nat) (x : Link) : (s.setLink l x).mdio = s.mdio := rfl
@[simp] theorem State.setLink_clk (l : Nat) (x : Link) : (s.setLink l x).clk = s.clk := rfl
@[simp] theorem State.setLink_rst (l : Nat) (x : Link) : (s.setLink l x).rst = s.rst := rfl
@[simp] theorem State.setLink_pins (l : Nat) (x : Link) : (s.setLink l x).pins = s.pins := rfl
@[simp] theorem State.setLink_fuses (l : Nat) (x : Link) : (s.setLink l x).fuses = s.fuses := rfl
@[simp] theorem State.setLink_shadow (l : Nat) (x : Link) : (s.setLink l x).shadow = s.shadow := rfl
@[simp] theorem State.setLink_cfg (l : Nat) (x : Link) : (s.setLink l x).cfg = s.cfg := rfl
@[simp] theorem State.setLink_calm (l : Nat) (x : Link) : (s.setLink l x).calm = s.calm := rfl
@[simp] theorem State.setLink_out (l : Nat) (x : Link) : (s.setLink l x).out = s.out := rfl
@[simp] theorem State.setLink_reg_at (l : Nat) (x : Link) (j : Nat) : (s.setLink l x).reg j = s.reg j := rfl
@[simp] theorem State.setLink_queue_at (l : Nat) (x : Link) (j : Nat) : (s.setLink l x).queue j = s.queue j := rfl
@[simp] theorem State.setLink_port_at (l : Nat) (x : Link) (j : Nat) : (s.setLink l x).port j = s.port j := rfl
@[simp] theorem State.setLink_tw_at (l : Nat) (x : Link) (j : Nat) : (s.setLink l x).tw j = s.tw j := rfl
@[simp] theorem State.setLink_eng_at (l : Nat) (x : Link) (j : Nat) : (s.setLink l x).eng j = s.eng j := rfl
@[simp] theorem State.setLink_net_at (l : Nat) (x : Link) (j : Nat) : (s.setLink l x).net j = s.net j := rfl
@[simp] theorem State.setLink_now (l : Nat) (x : Link) : (s.setLink l x).now = s.now := rfl
@[simp] theorem State.setLink_runs (l : Nat) (x : Link) (dom : Domain) : (s.setLink l x).runs dom = s.runs dom := rfl

/-! ## setEng -/

@[simp] theorem State.setEng_pending (e : Nat) (x : Engine) : (s.setEng e x).pending = s.pending := rfl
@[simp] theorem State.setEng_regs (e : Nat) (x : Engine) : (s.setEng e x).regs = s.regs := rfl
@[simp] theorem State.setEng_freeNo (e : Nat) (x : Engine) : (s.setEng e x).freeNo = s.freeNo := rfl
@[simp] theorem State.setEng_stopped (e : Nat) (x : Engine) : (s.setEng e x).stopped = s.stopped := rfl
@[simp] theorem State.setEng_time (e : Nat) (x : Engine) : (s.setEng e x).time = s.time := rfl
@[simp] theorem State.setEng_log (e : Nat) (x : Engine) : (s.setEng e x).log = s.log := rfl
@[simp] theorem State.setEng_eic (e : Nat) (x : Engine) : (s.setEng e x).eic = s.eic := rfl
@[simp] theorem State.setEng_snaps (e : Nat) (x : Engine) : (s.setEng e x).snaps = s.snaps := rfl
@[simp] theorem State.setEng_windowSnaps (e : Nat) (x : Engine) : (s.setEng e x).windowSnaps = s.windowSnaps := rfl
@[simp] theorem State.setEng_cmdHeld (e : Nat) (x : Engine) : (s.setEng e x).cmdHeld = s.cmdHeld := rfl
@[simp] theorem State.setEng_staged (e : Nat) (x : Engine) : (s.setEng e x).staged = s.staged := rfl
@[simp] theorem State.setEng_queues (e : Nat) (x : Engine) : (s.setEng e x).queues = s.queues := rfl
@[simp] theorem State.setEng_ledger (e : Nat) (x : Engine) : (s.setEng e x).ledger = s.ledger := rfl
@[simp] theorem State.setEng_endpoint (e : Nat) (x : Engine) : (s.setEng e x).endpoint = s.endpoint := rfl
@[simp] theorem State.setEng_ports (e : Nat) (x : Engine) : (s.setEng e x).ports = s.ports := rfl
@[simp] theorem State.setEng_tws (e : Nat) (x : Engine) : (s.setEng e x).tws = s.tws := rfl
@[simp] theorem State.setEng_links (e : Nat) (x : Engine) : (s.setEng e x).links = s.links := rfl
@[simp] theorem State.setEng_chain (e : Nat) (x : Engine) : (s.setEng e x).chain = s.chain := rfl
@[simp] theorem State.setEng_mem (e : Nat) (x : Engine) : (s.setEng e x).mem = s.mem := rfl
@[simp] theorem State.setEng_host (e : Nat) (x : Engine) : (s.setEng e x).host = s.host := rfl
@[simp] theorem State.setEng_clustersOff (e : Nat) (x : Engine) : (s.setEng e x).clustersOff = s.clustersOff := rfl
@[simp] theorem State.setEng_loader (e : Nat) (x : Engine) : (s.setEng e x).loader = s.loader := rfl
@[simp] theorem State.setEng_nets (e : Nat) (x : Engine) : (s.setEng e x).nets = s.nets := rfl
@[simp] theorem State.setEng_mdio (e : Nat) (x : Engine) : (s.setEng e x).mdio = s.mdio := rfl
@[simp] theorem State.setEng_clk (e : Nat) (x : Engine) : (s.setEng e x).clk = s.clk := rfl
@[simp] theorem State.setEng_rst (e : Nat) (x : Engine) : (s.setEng e x).rst = s.rst := rfl
@[simp] theorem State.setEng_pins (e : Nat) (x : Engine) : (s.setEng e x).pins = s.pins := rfl
@[simp] theorem State.setEng_fuses (e : Nat) (x : Engine) : (s.setEng e x).fuses = s.fuses := rfl
@[simp] theorem State.setEng_shadow (e : Nat) (x : Engine) : (s.setEng e x).shadow = s.shadow := rfl
@[simp] theorem State.setEng_cfg (e : Nat) (x : Engine) : (s.setEng e x).cfg = s.cfg := rfl
@[simp] theorem State.setEng_calm (e : Nat) (x : Engine) : (s.setEng e x).calm = s.calm := rfl
@[simp] theorem State.setEng_out (e : Nat) (x : Engine) : (s.setEng e x).out = s.out := rfl
@[simp] theorem State.setEng_reg_at (e : Nat) (x : Engine) (j : Nat) : (s.setEng e x).reg j = s.reg j := rfl
@[simp] theorem State.setEng_queue_at (e : Nat) (x : Engine) (j : Nat) : (s.setEng e x).queue j = s.queue j := rfl
@[simp] theorem State.setEng_port_at (e : Nat) (x : Engine) (j : Nat) : (s.setEng e x).port j = s.port j := rfl
@[simp] theorem State.setEng_tw_at (e : Nat) (x : Engine) (j : Nat) : (s.setEng e x).tw j = s.tw j := rfl
@[simp] theorem State.setEng_link_at (e : Nat) (x : Engine) (j : Nat) : (s.setEng e x).link j = s.link j := rfl
@[simp] theorem State.setEng_net_at (e : Nat) (x : Engine) (j : Nat) : (s.setEng e x).net j = s.net j := rfl
@[simp] theorem State.setEng_now (e : Nat) (x : Engine) : (s.setEng e x).now = s.now := rfl
@[simp] theorem State.setEng_runs (e : Nat) (x : Engine) (dom : Domain) : (s.setEng e x).runs dom = s.runs dom := rfl

/-! ## setNet -/

@[simp] theorem State.setNet_pending (p : Nat) (x : NetPort) : (s.setNet p x).pending = s.pending := rfl
@[simp] theorem State.setNet_regs (p : Nat) (x : NetPort) : (s.setNet p x).regs = s.regs := rfl
@[simp] theorem State.setNet_freeNo (p : Nat) (x : NetPort) : (s.setNet p x).freeNo = s.freeNo := rfl
@[simp] theorem State.setNet_stopped (p : Nat) (x : NetPort) : (s.setNet p x).stopped = s.stopped := rfl
@[simp] theorem State.setNet_time (p : Nat) (x : NetPort) : (s.setNet p x).time = s.time := rfl
@[simp] theorem State.setNet_log (p : Nat) (x : NetPort) : (s.setNet p x).log = s.log := rfl
@[simp] theorem State.setNet_eic (p : Nat) (x : NetPort) : (s.setNet p x).eic = s.eic := rfl
@[simp] theorem State.setNet_snaps (p : Nat) (x : NetPort) : (s.setNet p x).snaps = s.snaps := rfl
@[simp] theorem State.setNet_windowSnaps (p : Nat) (x : NetPort) : (s.setNet p x).windowSnaps = s.windowSnaps := rfl
@[simp] theorem State.setNet_cmdHeld (p : Nat) (x : NetPort) : (s.setNet p x).cmdHeld = s.cmdHeld := rfl
@[simp] theorem State.setNet_staged (p : Nat) (x : NetPort) : (s.setNet p x).staged = s.staged := rfl
@[simp] theorem State.setNet_queues (p : Nat) (x : NetPort) : (s.setNet p x).queues = s.queues := rfl
@[simp] theorem State.setNet_ledger (p : Nat) (x : NetPort) : (s.setNet p x).ledger = s.ledger := rfl
@[simp] theorem State.setNet_endpoint (p : Nat) (x : NetPort) : (s.setNet p x).endpoint = s.endpoint := rfl
@[simp] theorem State.setNet_ports (p : Nat) (x : NetPort) : (s.setNet p x).ports = s.ports := rfl
@[simp] theorem State.setNet_tws (p : Nat) (x : NetPort) : (s.setNet p x).tws = s.tws := rfl
@[simp] theorem State.setNet_links (p : Nat) (x : NetPort) : (s.setNet p x).links = s.links := rfl
@[simp] theorem State.setNet_chain (p : Nat) (x : NetPort) : (s.setNet p x).chain = s.chain := rfl
@[simp] theorem State.setNet_mem (p : Nat) (x : NetPort) : (s.setNet p x).mem = s.mem := rfl
@[simp] theorem State.setNet_host (p : Nat) (x : NetPort) : (s.setNet p x).host = s.host := rfl
@[simp] theorem State.setNet_engines (p : Nat) (x : NetPort) : (s.setNet p x).engines = s.engines := rfl
@[simp] theorem State.setNet_clustersOff (p : Nat) (x : NetPort) : (s.setNet p x).clustersOff = s.clustersOff := rfl
@[simp] theorem State.setNet_loader (p : Nat) (x : NetPort) : (s.setNet p x).loader = s.loader := rfl
@[simp] theorem State.setNet_mdio (p : Nat) (x : NetPort) : (s.setNet p x).mdio = s.mdio := rfl
@[simp] theorem State.setNet_clk (p : Nat) (x : NetPort) : (s.setNet p x).clk = s.clk := rfl
@[simp] theorem State.setNet_rst (p : Nat) (x : NetPort) : (s.setNet p x).rst = s.rst := rfl
@[simp] theorem State.setNet_pins (p : Nat) (x : NetPort) : (s.setNet p x).pins = s.pins := rfl
@[simp] theorem State.setNet_fuses (p : Nat) (x : NetPort) : (s.setNet p x).fuses = s.fuses := rfl
@[simp] theorem State.setNet_shadow (p : Nat) (x : NetPort) : (s.setNet p x).shadow = s.shadow := rfl
@[simp] theorem State.setNet_cfg (p : Nat) (x : NetPort) : (s.setNet p x).cfg = s.cfg := rfl
@[simp] theorem State.setNet_calm (p : Nat) (x : NetPort) : (s.setNet p x).calm = s.calm := rfl
@[simp] theorem State.setNet_out (p : Nat) (x : NetPort) : (s.setNet p x).out = s.out := rfl
@[simp] theorem State.setNet_reg_at (p : Nat) (x : NetPort) (j : Nat) : (s.setNet p x).reg j = s.reg j := rfl
@[simp] theorem State.setNet_queue_at (p : Nat) (x : NetPort) (j : Nat) : (s.setNet p x).queue j = s.queue j := rfl
@[simp] theorem State.setNet_port_at (p : Nat) (x : NetPort) (j : Nat) : (s.setNet p x).port j = s.port j := rfl
@[simp] theorem State.setNet_tw_at (p : Nat) (x : NetPort) (j : Nat) : (s.setNet p x).tw j = s.tw j := rfl
@[simp] theorem State.setNet_link_at (p : Nat) (x : NetPort) (j : Nat) : (s.setNet p x).link j = s.link j := rfl
@[simp] theorem State.setNet_eng_at (p : Nat) (x : NetPort) (j : Nat) : (s.setNet p x).eng j = s.eng j := rfl
@[simp] theorem State.setNet_now (p : Nat) (x : NetPort) : (s.setNet p x).now = s.now := rfl
@[simp] theorem State.setNet_runs (p : Nat) (x : NetPort) (dom : Domain) : (s.setNet p x).runs dom = s.runs dom := rfl

/-! ## setGate -/

@[simp] theorem State.setGate_pending (n : Nat) (g : Gateway) : (s.setGate n g).pending = s.pending := rfl
@[simp] theorem State.setGate_regs (n : Nat) (g : Gateway) : (s.setGate n g).regs = s.regs := rfl
@[simp] theorem State.setGate_freeNo (n : Nat) (g : Gateway) : (s.setGate n g).freeNo = s.freeNo := rfl
@[simp] theorem State.setGate_stopped (n : Nat) (g : Gateway) : (s.setGate n g).stopped = s.stopped := rfl
@[simp] theorem State.setGate_time (n : Nat) (g : Gateway) : (s.setGate n g).time = s.time := rfl
@[simp] theorem State.setGate_log (n : Nat) (g : Gateway) : (s.setGate n g).log = s.log := rfl
@[simp] theorem State.setGate_snaps (n : Nat) (g : Gateway) : (s.setGate n g).snaps = s.snaps := rfl
@[simp] theorem State.setGate_windowSnaps (n : Nat) (g : Gateway) : (s.setGate n g).windowSnaps = s.windowSnaps := rfl
@[simp] theorem State.setGate_cmdHeld (n : Nat) (g : Gateway) : (s.setGate n g).cmdHeld = s.cmdHeld := rfl
@[simp] theorem State.setGate_staged (n : Nat) (g : Gateway) : (s.setGate n g).staged = s.staged := rfl
@[simp] theorem State.setGate_queues (n : Nat) (g : Gateway) : (s.setGate n g).queues = s.queues := rfl
@[simp] theorem State.setGate_ledger (n : Nat) (g : Gateway) : (s.setGate n g).ledger = s.ledger := rfl
@[simp] theorem State.setGate_endpoint (n : Nat) (g : Gateway) : (s.setGate n g).endpoint = s.endpoint := rfl
@[simp] theorem State.setGate_ports (n : Nat) (g : Gateway) : (s.setGate n g).ports = s.ports := rfl
@[simp] theorem State.setGate_tws (n : Nat) (g : Gateway) : (s.setGate n g).tws = s.tws := rfl
@[simp] theorem State.setGate_links (n : Nat) (g : Gateway) : (s.setGate n g).links = s.links := rfl
@[simp] theorem State.setGate_chain (n : Nat) (g : Gateway) : (s.setGate n g).chain = s.chain := rfl
@[simp] theorem State.setGate_mem (n : Nat) (g : Gateway) : (s.setGate n g).mem = s.mem := rfl
@[simp] theorem State.setGate_host (n : Nat) (g : Gateway) : (s.setGate n g).host = s.host := rfl
@[simp] theorem State.setGate_engines (n : Nat) (g : Gateway) : (s.setGate n g).engines = s.engines := rfl
@[simp] theorem State.setGate_clustersOff (n : Nat) (g : Gateway) : (s.setGate n g).clustersOff = s.clustersOff := rfl
@[simp] theorem State.setGate_loader (n : Nat) (g : Gateway) : (s.setGate n g).loader = s.loader := rfl
@[simp] theorem State.setGate_nets (n : Nat) (g : Gateway) : (s.setGate n g).nets = s.nets := rfl
@[simp] theorem State.setGate_mdio (n : Nat) (g : Gateway) : (s.setGate n g).mdio = s.mdio := rfl
@[simp] theorem State.setGate_clk (n : Nat) (g : Gateway) : (s.setGate n g).clk = s.clk := rfl
@[simp] theorem State.setGate_rst (n : Nat) (g : Gateway) : (s.setGate n g).rst = s.rst := rfl
@[simp] theorem State.setGate_pins (n : Nat) (g : Gateway) : (s.setGate n g).pins = s.pins := rfl
@[simp] theorem State.setGate_fuses (n : Nat) (g : Gateway) : (s.setGate n g).fuses = s.fuses := rfl
@[simp] theorem State.setGate_shadow (n : Nat) (g : Gateway) : (s.setGate n g).shadow = s.shadow := rfl
@[simp] theorem State.setGate_cfg (n : Nat) (g : Gateway) : (s.setGate n g).cfg = s.cfg := rfl
@[simp] theorem State.setGate_calm (n : Nat) (g : Gateway) : (s.setGate n g).calm = s.calm := rfl
@[simp] theorem State.setGate_out (n : Nat) (g : Gateway) : (s.setGate n g).out = s.out := rfl
@[simp] theorem State.setGate_reg_at (n : Nat) (g : Gateway) (j : Nat) : (s.setGate n g).reg j = s.reg j := rfl
@[simp] theorem State.setGate_queue_at (n : Nat) (g : Gateway) (j : Nat) : (s.setGate n g).queue j = s.queue j := rfl
@[simp] theorem State.setGate_port_at (n : Nat) (g : Gateway) (j : Nat) : (s.setGate n g).port j = s.port j := rfl
@[simp] theorem State.setGate_tw_at (n : Nat) (g : Gateway) (j : Nat) : (s.setGate n g).tw j = s.tw j := rfl
@[simp] theorem State.setGate_link_at (n : Nat) (g : Gateway) (j : Nat) : (s.setGate n g).link j = s.link j := rfl
@[simp] theorem State.setGate_eng_at (n : Nat) (g : Gateway) (j : Nat) : (s.setGate n g).eng j = s.eng j := rfl
@[simp] theorem State.setGate_net_at (n : Nat) (g : Gateway) (j : Nat) : (s.setGate n g).net j = s.net j := rfl
@[simp] theorem State.setGate_now (n : Nat) (g : Gateway) : (s.setGate n g).now = s.now := rfl
@[simp] theorem State.setGate_runs (n : Nat) (g : Gateway) (dom : Domain) : (s.setGate n g).runs dom = s.runs dom := rfl

/-! ## setTarget -/

@[simp] theorem State.setTarget_pending (n : Nat) (x : Target) : (s.setTarget n x).pending = s.pending := rfl
@[simp] theorem State.setTarget_regs (n : Nat) (x : Target) : (s.setTarget n x).regs = s.regs := rfl
@[simp] theorem State.setTarget_freeNo (n : Nat) (x : Target) : (s.setTarget n x).freeNo = s.freeNo := rfl
@[simp] theorem State.setTarget_stopped (n : Nat) (x : Target) : (s.setTarget n x).stopped = s.stopped := rfl
@[simp] theorem State.setTarget_time (n : Nat) (x : Target) : (s.setTarget n x).time = s.time := rfl
@[simp] theorem State.setTarget_log (n : Nat) (x : Target) : (s.setTarget n x).log = s.log := rfl
@[simp] theorem State.setTarget_snaps (n : Nat) (x : Target) : (s.setTarget n x).snaps = s.snaps := rfl
@[simp] theorem State.setTarget_windowSnaps (n : Nat) (x : Target) : (s.setTarget n x).windowSnaps = s.windowSnaps := rfl
@[simp] theorem State.setTarget_cmdHeld (n : Nat) (x : Target) : (s.setTarget n x).cmdHeld = s.cmdHeld := rfl
@[simp] theorem State.setTarget_staged (n : Nat) (x : Target) : (s.setTarget n x).staged = s.staged := rfl
@[simp] theorem State.setTarget_queues (n : Nat) (x : Target) : (s.setTarget n x).queues = s.queues := rfl
@[simp] theorem State.setTarget_ledger (n : Nat) (x : Target) : (s.setTarget n x).ledger = s.ledger := rfl
@[simp] theorem State.setTarget_endpoint (n : Nat) (x : Target) : (s.setTarget n x).endpoint = s.endpoint := rfl
@[simp] theorem State.setTarget_ports (n : Nat) (x : Target) : (s.setTarget n x).ports = s.ports := rfl
@[simp] theorem State.setTarget_tws (n : Nat) (x : Target) : (s.setTarget n x).tws = s.tws := rfl
@[simp] theorem State.setTarget_links (n : Nat) (x : Target) : (s.setTarget n x).links = s.links := rfl
@[simp] theorem State.setTarget_chain (n : Nat) (x : Target) : (s.setTarget n x).chain = s.chain := rfl
@[simp] theorem State.setTarget_mem (n : Nat) (x : Target) : (s.setTarget n x).mem = s.mem := rfl
@[simp] theorem State.setTarget_host (n : Nat) (x : Target) : (s.setTarget n x).host = s.host := rfl
@[simp] theorem State.setTarget_engines (n : Nat) (x : Target) : (s.setTarget n x).engines = s.engines := rfl
@[simp] theorem State.setTarget_clustersOff (n : Nat) (x : Target) : (s.setTarget n x).clustersOff = s.clustersOff := rfl
@[simp] theorem State.setTarget_loader (n : Nat) (x : Target) : (s.setTarget n x).loader = s.loader := rfl
@[simp] theorem State.setTarget_nets (n : Nat) (x : Target) : (s.setTarget n x).nets = s.nets := rfl
@[simp] theorem State.setTarget_mdio (n : Nat) (x : Target) : (s.setTarget n x).mdio = s.mdio := rfl
@[simp] theorem State.setTarget_clk (n : Nat) (x : Target) : (s.setTarget n x).clk = s.clk := rfl
@[simp] theorem State.setTarget_rst (n : Nat) (x : Target) : (s.setTarget n x).rst = s.rst := rfl
@[simp] theorem State.setTarget_pins (n : Nat) (x : Target) : (s.setTarget n x).pins = s.pins := rfl
@[simp] theorem State.setTarget_fuses (n : Nat) (x : Target) : (s.setTarget n x).fuses = s.fuses := rfl
@[simp] theorem State.setTarget_shadow (n : Nat) (x : Target) : (s.setTarget n x).shadow = s.shadow := rfl
@[simp] theorem State.setTarget_cfg (n : Nat) (x : Target) : (s.setTarget n x).cfg = s.cfg := rfl
@[simp] theorem State.setTarget_calm (n : Nat) (x : Target) : (s.setTarget n x).calm = s.calm := rfl
@[simp] theorem State.setTarget_out (n : Nat) (x : Target) : (s.setTarget n x).out = s.out := rfl
@[simp] theorem State.setTarget_reg_at (n : Nat) (x : Target) (j : Nat) : (s.setTarget n x).reg j = s.reg j := rfl
@[simp] theorem State.setTarget_queue_at (n : Nat) (x : Target) (j : Nat) : (s.setTarget n x).queue j = s.queue j := rfl
@[simp] theorem State.setTarget_port_at (n : Nat) (x : Target) (j : Nat) : (s.setTarget n x).port j = s.port j := rfl
@[simp] theorem State.setTarget_tw_at (n : Nat) (x : Target) (j : Nat) : (s.setTarget n x).tw j = s.tw j := rfl
@[simp] theorem State.setTarget_link_at (n : Nat) (x : Target) (j : Nat) : (s.setTarget n x).link j = s.link j := rfl
@[simp] theorem State.setTarget_eng_at (n : Nat) (x : Target) (j : Nat) : (s.setTarget n x).eng j = s.eng j := rfl
@[simp] theorem State.setTarget_net_at (n : Nat) (x : Target) (j : Nat) : (s.setTarget n x).net j = s.net j := rfl
@[simp] theorem State.setTarget_now (n : Nat) (x : Target) : (s.setTarget n x).now = s.now := rfl
@[simp] theorem State.setTarget_runs (n : Nat) (x : Target) (dom : Domain) : (s.setTarget n x).runs dom = s.runs dom := rfl

/-! ## setMapEntry -/

@[simp] theorem State.setMapEntry_pending (d : Nat) (e : MapEntry) : (s.setMapEntry d e).pending = s.pending := rfl
@[simp] theorem State.setMapEntry_regs (d : Nat) (e : MapEntry) : (s.setMapEntry d e).regs = s.regs := rfl
@[simp] theorem State.setMapEntry_freeNo (d : Nat) (e : MapEntry) : (s.setMapEntry d e).freeNo = s.freeNo := rfl
@[simp] theorem State.setMapEntry_stopped (d : Nat) (e : MapEntry) : (s.setMapEntry d e).stopped = s.stopped := rfl
@[simp] theorem State.setMapEntry_time (d : Nat) (e : MapEntry) : (s.setMapEntry d e).time = s.time := rfl
@[simp] theorem State.setMapEntry_log (d : Nat) (e : MapEntry) : (s.setMapEntry d e).log = s.log := rfl
@[simp] theorem State.setMapEntry_eic (d : Nat) (e : MapEntry) : (s.setMapEntry d e).eic = s.eic := rfl
@[simp] theorem State.setMapEntry_snaps (d : Nat) (e : MapEntry) : (s.setMapEntry d e).snaps = s.snaps := rfl
@[simp] theorem State.setMapEntry_windowSnaps (d : Nat) (e : MapEntry) : (s.setMapEntry d e).windowSnaps = s.windowSnaps := rfl
@[simp] theorem State.setMapEntry_cmdHeld (d : Nat) (e : MapEntry) : (s.setMapEntry d e).cmdHeld = s.cmdHeld := rfl
@[simp] theorem State.setMapEntry_staged (d : Nat) (e : MapEntry) : (s.setMapEntry d e).staged = s.staged := rfl
@[simp] theorem State.setMapEntry_queues (d : Nat) (e : MapEntry) : (s.setMapEntry d e).queues = s.queues := rfl
@[simp] theorem State.setMapEntry_ledger (d : Nat) (e : MapEntry) : (s.setMapEntry d e).ledger = s.ledger := rfl
@[simp] theorem State.setMapEntry_endpoint (d : Nat) (e : MapEntry) : (s.setMapEntry d e).endpoint = s.endpoint := rfl
@[simp] theorem State.setMapEntry_ports (d : Nat) (e : MapEntry) : (s.setMapEntry d e).ports = s.ports := rfl
@[simp] theorem State.setMapEntry_tws (d : Nat) (e : MapEntry) : (s.setMapEntry d e).tws = s.tws := rfl
@[simp] theorem State.setMapEntry_links (d : Nat) (e : MapEntry) : (s.setMapEntry d e).links = s.links := rfl
@[simp] theorem State.setMapEntry_mem (d : Nat) (e : MapEntry) : (s.setMapEntry d e).mem = s.mem := rfl
@[simp] theorem State.setMapEntry_host (d : Nat) (e : MapEntry) : (s.setMapEntry d e).host = s.host := rfl
@[simp] theorem State.setMapEntry_engines (d : Nat) (e : MapEntry) : (s.setMapEntry d e).engines = s.engines := rfl
@[simp] theorem State.setMapEntry_clustersOff (d : Nat) (e : MapEntry) : (s.setMapEntry d e).clustersOff = s.clustersOff := rfl
@[simp] theorem State.setMapEntry_loader (d : Nat) (e : MapEntry) : (s.setMapEntry d e).loader = s.loader := rfl
@[simp] theorem State.setMapEntry_nets (d : Nat) (e : MapEntry) : (s.setMapEntry d e).nets = s.nets := rfl
@[simp] theorem State.setMapEntry_mdio (d : Nat) (e : MapEntry) : (s.setMapEntry d e).mdio = s.mdio := rfl
@[simp] theorem State.setMapEntry_clk (d : Nat) (e : MapEntry) : (s.setMapEntry d e).clk = s.clk := rfl
@[simp] theorem State.setMapEntry_rst (d : Nat) (e : MapEntry) : (s.setMapEntry d e).rst = s.rst := rfl
@[simp] theorem State.setMapEntry_pins (d : Nat) (e : MapEntry) : (s.setMapEntry d e).pins = s.pins := rfl
@[simp] theorem State.setMapEntry_fuses (d : Nat) (e : MapEntry) : (s.setMapEntry d e).fuses = s.fuses := rfl
@[simp] theorem State.setMapEntry_shadow (d : Nat) (e : MapEntry) : (s.setMapEntry d e).shadow = s.shadow := rfl
@[simp] theorem State.setMapEntry_cfg (d : Nat) (e : MapEntry) : (s.setMapEntry d e).cfg = s.cfg := rfl
@[simp] theorem State.setMapEntry_calm (d : Nat) (e : MapEntry) : (s.setMapEntry d e).calm = s.calm := rfl
@[simp] theorem State.setMapEntry_out (d : Nat) (e : MapEntry) : (s.setMapEntry d e).out = s.out := rfl
@[simp] theorem State.setMapEntry_reg_at (d : Nat) (e : MapEntry) (j : Nat) : (s.setMapEntry d e).reg j = s.reg j := rfl
@[simp] theorem State.setMapEntry_queue_at (d : Nat) (e : MapEntry) (j : Nat) : (s.setMapEntry d e).queue j = s.queue j := rfl
@[simp] theorem State.setMapEntry_port_at (d : Nat) (e : MapEntry) (j : Nat) : (s.setMapEntry d e).port j = s.port j := rfl
@[simp] theorem State.setMapEntry_tw_at (d : Nat) (e : MapEntry) (j : Nat) : (s.setMapEntry d e).tw j = s.tw j := rfl
@[simp] theorem State.setMapEntry_link_at (d : Nat) (e : MapEntry) (j : Nat) : (s.setMapEntry d e).link j = s.link j := rfl
@[simp] theorem State.setMapEntry_eng_at (d : Nat) (e : MapEntry) (j : Nat) : (s.setMapEntry d e).eng j = s.eng j := rfl
@[simp] theorem State.setMapEntry_net_at (d : Nat) (e : MapEntry) (j : Nat) : (s.setMapEntry d e).net j = s.net j := rfl
@[simp] theorem State.setMapEntry_now (d : Nat) (e : MapEntry) : (s.setMapEntry d e).now = s.now := rfl
@[simp] theorem State.setMapEntry_runs (d : Nat) (e : MapEntry) (dom : Domain) : (s.setMapEntry d e).runs dom = s.runs dom := rfl

/-! ## setCq -/

@[simp] theorem State.setCq_pending (n : Nat) (x : CqState) : (s.setCq n x).pending = s.pending := rfl
@[simp] theorem State.setCq_regs (n : Nat) (x : CqState) : (s.setCq n x).regs = s.regs := rfl
@[simp] theorem State.setCq_freeNo (n : Nat) (x : CqState) : (s.setCq n x).freeNo = s.freeNo := rfl
@[simp] theorem State.setCq_stopped (n : Nat) (x : CqState) : (s.setCq n x).stopped = s.stopped := rfl
@[simp] theorem State.setCq_time (n : Nat) (x : CqState) : (s.setCq n x).time = s.time := rfl
@[simp] theorem State.setCq_log (n : Nat) (x : CqState) : (s.setCq n x).log = s.log := rfl
@[simp] theorem State.setCq_eic (n : Nat) (x : CqState) : (s.setCq n x).eic = s.eic := rfl
@[simp] theorem State.setCq_snaps (n : Nat) (x : CqState) : (s.setCq n x).snaps = s.snaps := rfl
@[simp] theorem State.setCq_windowSnaps (n : Nat) (x : CqState) : (s.setCq n x).windowSnaps = s.windowSnaps := rfl
@[simp] theorem State.setCq_cmdHeld (n : Nat) (x : CqState) : (s.setCq n x).cmdHeld = s.cmdHeld := rfl
@[simp] theorem State.setCq_staged (n : Nat) (x : CqState) : (s.setCq n x).staged = s.staged := rfl
@[simp] theorem State.setCq_queues (n : Nat) (x : CqState) : (s.setCq n x).queues = s.queues := rfl
@[simp] theorem State.setCq_ledger (n : Nat) (x : CqState) : (s.setCq n x).ledger = s.ledger := rfl
@[simp] theorem State.setCq_endpoint (n : Nat) (x : CqState) : (s.setCq n x).endpoint = s.endpoint := rfl
@[simp] theorem State.setCq_ports (n : Nat) (x : CqState) : (s.setCq n x).ports = s.ports := rfl
@[simp] theorem State.setCq_tws (n : Nat) (x : CqState) : (s.setCq n x).tws = s.tws := rfl
@[simp] theorem State.setCq_links (n : Nat) (x : CqState) : (s.setCq n x).links = s.links := rfl
@[simp] theorem State.setCq_chain (n : Nat) (x : CqState) : (s.setCq n x).chain = s.chain := rfl
@[simp] theorem State.setCq_mem (n : Nat) (x : CqState) : (s.setCq n x).mem = s.mem := rfl
@[simp] theorem State.setCq_engines (n : Nat) (x : CqState) : (s.setCq n x).engines = s.engines := rfl
@[simp] theorem State.setCq_clustersOff (n : Nat) (x : CqState) : (s.setCq n x).clustersOff = s.clustersOff := rfl
@[simp] theorem State.setCq_loader (n : Nat) (x : CqState) : (s.setCq n x).loader = s.loader := rfl
@[simp] theorem State.setCq_nets (n : Nat) (x : CqState) : (s.setCq n x).nets = s.nets := rfl
@[simp] theorem State.setCq_mdio (n : Nat) (x : CqState) : (s.setCq n x).mdio = s.mdio := rfl
@[simp] theorem State.setCq_clk (n : Nat) (x : CqState) : (s.setCq n x).clk = s.clk := rfl
@[simp] theorem State.setCq_rst (n : Nat) (x : CqState) : (s.setCq n x).rst = s.rst := rfl
@[simp] theorem State.setCq_pins (n : Nat) (x : CqState) : (s.setCq n x).pins = s.pins := rfl
@[simp] theorem State.setCq_fuses (n : Nat) (x : CqState) : (s.setCq n x).fuses = s.fuses := rfl
@[simp] theorem State.setCq_shadow (n : Nat) (x : CqState) : (s.setCq n x).shadow = s.shadow := rfl
@[simp] theorem State.setCq_cfg (n : Nat) (x : CqState) : (s.setCq n x).cfg = s.cfg := rfl
@[simp] theorem State.setCq_calm (n : Nat) (x : CqState) : (s.setCq n x).calm = s.calm := rfl
@[simp] theorem State.setCq_out (n : Nat) (x : CqState) : (s.setCq n x).out = s.out := rfl
@[simp] theorem State.setCq_reg_at (n : Nat) (x : CqState) (j : Nat) : (s.setCq n x).reg j = s.reg j := rfl
@[simp] theorem State.setCq_queue_at (n : Nat) (x : CqState) (j : Nat) : (s.setCq n x).queue j = s.queue j := rfl
@[simp] theorem State.setCq_port_at (n : Nat) (x : CqState) (j : Nat) : (s.setCq n x).port j = s.port j := rfl
@[simp] theorem State.setCq_tw_at (n : Nat) (x : CqState) (j : Nat) : (s.setCq n x).tw j = s.tw j := rfl
@[simp] theorem State.setCq_link_at (n : Nat) (x : CqState) (j : Nat) : (s.setCq n x).link j = s.link j := rfl
@[simp] theorem State.setCq_eng_at (n : Nat) (x : CqState) (j : Nat) : (s.setCq n x).eng j = s.eng j := rfl
@[simp] theorem State.setCq_net_at (n : Nat) (x : CqState) (j : Nat) : (s.setCq n x).net j = s.net j := rfl
@[simp] theorem State.setCq_now (n : Nat) (x : CqState) : (s.setCq n x).now = s.now := rfl
@[simp] theorem State.setCq_runs (n : Nat) (x : CqState) (dom : Domain) : (s.setCq n x).runs dom = s.runs dom := rfl

/-! ## setCls -/

@[simp] theorem State.setCls_pending (c : Nat) (x : ClassState) : (s.setCls c x).pending = s.pending := rfl
@[simp] theorem State.setCls_regs (c : Nat) (x : ClassState) : (s.setCls c x).regs = s.regs := rfl
@[simp] theorem State.setCls_freeNo (c : Nat) (x : ClassState) : (s.setCls c x).freeNo = s.freeNo := rfl
@[simp] theorem State.setCls_stopped (c : Nat) (x : ClassState) : (s.setCls c x).stopped = s.stopped := rfl
@[simp] theorem State.setCls_time (c : Nat) (x : ClassState) : (s.setCls c x).time = s.time := rfl
@[simp] theorem State.setCls_eic (c : Nat) (x : ClassState) : (s.setCls c x).eic = s.eic := rfl
@[simp] theorem State.setCls_snaps (c : Nat) (x : ClassState) : (s.setCls c x).snaps = s.snaps := rfl
@[simp] theorem State.setCls_windowSnaps (c : Nat) (x : ClassState) : (s.setCls c x).windowSnaps = s.windowSnaps := rfl
@[simp] theorem State.setCls_cmdHeld (c : Nat) (x : ClassState) : (s.setCls c x).cmdHeld = s.cmdHeld := rfl
@[simp] theorem State.setCls_staged (c : Nat) (x : ClassState) : (s.setCls c x).staged = s.staged := rfl
@[simp] theorem State.setCls_queues (c : Nat) (x : ClassState) : (s.setCls c x).queues = s.queues := rfl
@[simp] theorem State.setCls_ledger (c : Nat) (x : ClassState) : (s.setCls c x).ledger = s.ledger := rfl
@[simp] theorem State.setCls_endpoint (c : Nat) (x : ClassState) : (s.setCls c x).endpoint = s.endpoint := rfl
@[simp] theorem State.setCls_ports (c : Nat) (x : ClassState) : (s.setCls c x).ports = s.ports := rfl
@[simp] theorem State.setCls_tws (c : Nat) (x : ClassState) : (s.setCls c x).tws = s.tws := rfl
@[simp] theorem State.setCls_links (c : Nat) (x : ClassState) : (s.setCls c x).links = s.links := rfl
@[simp] theorem State.setCls_chain (c : Nat) (x : ClassState) : (s.setCls c x).chain = s.chain := rfl
@[simp] theorem State.setCls_mem (c : Nat) (x : ClassState) : (s.setCls c x).mem = s.mem := rfl
@[simp] theorem State.setCls_host (c : Nat) (x : ClassState) : (s.setCls c x).host = s.host := rfl
@[simp] theorem State.setCls_engines (c : Nat) (x : ClassState) : (s.setCls c x).engines = s.engines := rfl
@[simp] theorem State.setCls_clustersOff (c : Nat) (x : ClassState) : (s.setCls c x).clustersOff = s.clustersOff := rfl
@[simp] theorem State.setCls_loader (c : Nat) (x : ClassState) : (s.setCls c x).loader = s.loader := rfl
@[simp] theorem State.setCls_nets (c : Nat) (x : ClassState) : (s.setCls c x).nets = s.nets := rfl
@[simp] theorem State.setCls_mdio (c : Nat) (x : ClassState) : (s.setCls c x).mdio = s.mdio := rfl
@[simp] theorem State.setCls_clk (c : Nat) (x : ClassState) : (s.setCls c x).clk = s.clk := rfl
@[simp] theorem State.setCls_rst (c : Nat) (x : ClassState) : (s.setCls c x).rst = s.rst := rfl
@[simp] theorem State.setCls_pins (c : Nat) (x : ClassState) : (s.setCls c x).pins = s.pins := rfl
@[simp] theorem State.setCls_fuses (c : Nat) (x : ClassState) : (s.setCls c x).fuses = s.fuses := rfl
@[simp] theorem State.setCls_shadow (c : Nat) (x : ClassState) : (s.setCls c x).shadow = s.shadow := rfl
@[simp] theorem State.setCls_cfg (c : Nat) (x : ClassState) : (s.setCls c x).cfg = s.cfg := rfl
@[simp] theorem State.setCls_calm (c : Nat) (x : ClassState) : (s.setCls c x).calm = s.calm := rfl
@[simp] theorem State.setCls_out (c : Nat) (x : ClassState) : (s.setCls c x).out = s.out := rfl
@[simp] theorem State.setCls_reg_at (c : Nat) (x : ClassState) (j : Nat) : (s.setCls c x).reg j = s.reg j := rfl
@[simp] theorem State.setCls_queue_at (c : Nat) (x : ClassState) (j : Nat) : (s.setCls c x).queue j = s.queue j := rfl
@[simp] theorem State.setCls_port_at (c : Nat) (x : ClassState) (j : Nat) : (s.setCls c x).port j = s.port j := rfl
@[simp] theorem State.setCls_tw_at (c : Nat) (x : ClassState) (j : Nat) : (s.setCls c x).tw j = s.tw j := rfl
@[simp] theorem State.setCls_link_at (c : Nat) (x : ClassState) (j : Nat) : (s.setCls c x).link j = s.link j := rfl
@[simp] theorem State.setCls_eng_at (c : Nat) (x : ClassState) (j : Nat) : (s.setCls c x).eng j = s.eng j := rfl
@[simp] theorem State.setCls_net_at (c : Nat) (x : ClassState) (j : Nat) : (s.setCls c x).net j = s.net j := rfl
@[simp] theorem State.setCls_now (c : Nat) (x : ClassState) : (s.setCls c x).now = s.now := rfl
@[simp] theorem State.setCls_runs (c : Nat) (x : ClassState) (dom : Domain) : (s.setCls c x).runs dom = s.runs dom := rfl

/-! ## setLogQueue -/

@[simp] theorem State.setLogQueue_pending (q : Queue) : (s.setLogQueue q).pending = s.pending := rfl
@[simp] theorem State.setLogQueue_regs (q : Queue) : (s.setLogQueue q).regs = s.regs := rfl
@[simp] theorem State.setLogQueue_freeNo (q : Queue) : (s.setLogQueue q).freeNo = s.freeNo := rfl
@[simp] theorem State.setLogQueue_stopped (q : Queue) : (s.setLogQueue q).stopped = s.stopped := rfl
@[simp] theorem State.setLogQueue_time (q : Queue) : (s.setLogQueue q).time = s.time := rfl
@[simp] theorem State.setLogQueue_eic (q : Queue) : (s.setLogQueue q).eic = s.eic := rfl
@[simp] theorem State.setLogQueue_snaps (q : Queue) : (s.setLogQueue q).snaps = s.snaps := rfl
@[simp] theorem State.setLogQueue_windowSnaps (q : Queue) : (s.setLogQueue q).windowSnaps = s.windowSnaps := rfl
@[simp] theorem State.setLogQueue_cmdHeld (q : Queue) : (s.setLogQueue q).cmdHeld = s.cmdHeld := rfl
@[simp] theorem State.setLogQueue_staged (q : Queue) : (s.setLogQueue q).staged = s.staged := rfl
@[simp] theorem State.setLogQueue_queues (q : Queue) : (s.setLogQueue q).queues = s.queues := rfl
@[simp] theorem State.setLogQueue_ledger (q : Queue) : (s.setLogQueue q).ledger = s.ledger := rfl
@[simp] theorem State.setLogQueue_endpoint (q : Queue) : (s.setLogQueue q).endpoint = s.endpoint := rfl
@[simp] theorem State.setLogQueue_ports (q : Queue) : (s.setLogQueue q).ports = s.ports := rfl
@[simp] theorem State.setLogQueue_tws (q : Queue) : (s.setLogQueue q).tws = s.tws := rfl
@[simp] theorem State.setLogQueue_links (q : Queue) : (s.setLogQueue q).links = s.links := rfl
@[simp] theorem State.setLogQueue_chain (q : Queue) : (s.setLogQueue q).chain = s.chain := rfl
@[simp] theorem State.setLogQueue_mem (q : Queue) : (s.setLogQueue q).mem = s.mem := rfl
@[simp] theorem State.setLogQueue_host (q : Queue) : (s.setLogQueue q).host = s.host := rfl
@[simp] theorem State.setLogQueue_engines (q : Queue) : (s.setLogQueue q).engines = s.engines := rfl
@[simp] theorem State.setLogQueue_clustersOff (q : Queue) : (s.setLogQueue q).clustersOff = s.clustersOff := rfl
@[simp] theorem State.setLogQueue_loader (q : Queue) : (s.setLogQueue q).loader = s.loader := rfl
@[simp] theorem State.setLogQueue_nets (q : Queue) : (s.setLogQueue q).nets = s.nets := rfl
@[simp] theorem State.setLogQueue_mdio (q : Queue) : (s.setLogQueue q).mdio = s.mdio := rfl
@[simp] theorem State.setLogQueue_clk (q : Queue) : (s.setLogQueue q).clk = s.clk := rfl
@[simp] theorem State.setLogQueue_rst (q : Queue) : (s.setLogQueue q).rst = s.rst := rfl
@[simp] theorem State.setLogQueue_pins (q : Queue) : (s.setLogQueue q).pins = s.pins := rfl
@[simp] theorem State.setLogQueue_fuses (q : Queue) : (s.setLogQueue q).fuses = s.fuses := rfl
@[simp] theorem State.setLogQueue_shadow (q : Queue) : (s.setLogQueue q).shadow = s.shadow := rfl
@[simp] theorem State.setLogQueue_cfg (q : Queue) : (s.setLogQueue q).cfg = s.cfg := rfl
@[simp] theorem State.setLogQueue_calm (q : Queue) : (s.setLogQueue q).calm = s.calm := rfl
@[simp] theorem State.setLogQueue_out (q : Queue) : (s.setLogQueue q).out = s.out := rfl
@[simp] theorem State.setLogQueue_reg_at (q : Queue) (j : Nat) : (s.setLogQueue q).reg j = s.reg j := rfl
@[simp] theorem State.setLogQueue_queue_at (q : Queue) (j : Nat) : (s.setLogQueue q).queue j = s.queue j := rfl
@[simp] theorem State.setLogQueue_port_at (q : Queue) (j : Nat) : (s.setLogQueue q).port j = s.port j := rfl
@[simp] theorem State.setLogQueue_tw_at (q : Queue) (j : Nat) : (s.setLogQueue q).tw j = s.tw j := rfl
@[simp] theorem State.setLogQueue_link_at (q : Queue) (j : Nat) : (s.setLogQueue q).link j = s.link j := rfl
@[simp] theorem State.setLogQueue_eng_at (q : Queue) (j : Nat) : (s.setLogQueue q).eng j = s.eng j := rfl
@[simp] theorem State.setLogQueue_net_at (q : Queue) (j : Nat) : (s.setLogQueue q).net j = s.net j := rfl
@[simp] theorem State.setLogQueue_now (q : Queue) : (s.setLogQueue q).now = s.now := rfl
@[simp] theorem State.setLogQueue_runs (q : Queue) (dom : Domain) : (s.setLogQueue q).runs dom = s.runs dom := rfl

/-! ## setStage -/

@[simp] theorem State.setStage_pending (o : Origin) (k : Nat) (v : Word) : (s.setStage o k v).pending = s.pending := rfl
@[simp] theorem State.setStage_regs (o : Origin) (k : Nat) (v : Word) : (s.setStage o k v).regs = s.regs := rfl
@[simp] theorem State.setStage_freeNo (o : Origin) (k : Nat) (v : Word) : (s.setStage o k v).freeNo = s.freeNo := rfl
@[simp] theorem State.setStage_stopped (o : Origin) (k : Nat) (v : Word) : (s.setStage o k v).stopped = s.stopped := rfl
@[simp] theorem State.setStage_time (o : Origin) (k : Nat) (v : Word) : (s.setStage o k v).time = s.time := rfl
@[simp] theorem State.setStage_log (o : Origin) (k : Nat) (v : Word) : (s.setStage o k v).log = s.log := rfl
@[simp] theorem State.setStage_eic (o : Origin) (k : Nat) (v : Word) : (s.setStage o k v).eic = s.eic := rfl
@[simp] theorem State.setStage_snaps (o : Origin) (k : Nat) (v : Word) : (s.setStage o k v).snaps = s.snaps := rfl
@[simp] theorem State.setStage_windowSnaps (o : Origin) (k : Nat) (v : Word) : (s.setStage o k v).windowSnaps = s.windowSnaps := rfl
@[simp] theorem State.setStage_cmdHeld (o : Origin) (k : Nat) (v : Word) : (s.setStage o k v).cmdHeld = s.cmdHeld := rfl
@[simp] theorem State.setStage_queues (o : Origin) (k : Nat) (v : Word) : (s.setStage o k v).queues = s.queues := rfl
@[simp] theorem State.setStage_ledger (o : Origin) (k : Nat) (v : Word) : (s.setStage o k v).ledger = s.ledger := rfl
@[simp] theorem State.setStage_endpoint (o : Origin) (k : Nat) (v : Word) : (s.setStage o k v).endpoint = s.endpoint := rfl
@[simp] theorem State.setStage_ports (o : Origin) (k : Nat) (v : Word) : (s.setStage o k v).ports = s.ports := rfl
@[simp] theorem State.setStage_tws (o : Origin) (k : Nat) (v : Word) : (s.setStage o k v).tws = s.tws := rfl
@[simp] theorem State.setStage_links (o : Origin) (k : Nat) (v : Word) : (s.setStage o k v).links = s.links := rfl
@[simp] theorem State.setStage_chain (o : Origin) (k : Nat) (v : Word) : (s.setStage o k v).chain = s.chain := rfl
@[simp] theorem State.setStage_mem (o : Origin) (k : Nat) (v : Word) : (s.setStage o k v).mem = s.mem := rfl
@[simp] theorem State.setStage_host (o : Origin) (k : Nat) (v : Word) : (s.setStage o k v).host = s.host := rfl
@[simp] theorem State.setStage_engines (o : Origin) (k : Nat) (v : Word) : (s.setStage o k v).engines = s.engines := rfl
@[simp] theorem State.setStage_clustersOff (o : Origin) (k : Nat) (v : Word) : (s.setStage o k v).clustersOff = s.clustersOff := rfl
@[simp] theorem State.setStage_loader (o : Origin) (k : Nat) (v : Word) : (s.setStage o k v).loader = s.loader := rfl
@[simp] theorem State.setStage_nets (o : Origin) (k : Nat) (v : Word) : (s.setStage o k v).nets = s.nets := rfl
@[simp] theorem State.setStage_mdio (o : Origin) (k : Nat) (v : Word) : (s.setStage o k v).mdio = s.mdio := rfl
@[simp] theorem State.setStage_clk (o : Origin) (k : Nat) (v : Word) : (s.setStage o k v).clk = s.clk := rfl
@[simp] theorem State.setStage_rst (o : Origin) (k : Nat) (v : Word) : (s.setStage o k v).rst = s.rst := rfl
@[simp] theorem State.setStage_pins (o : Origin) (k : Nat) (v : Word) : (s.setStage o k v).pins = s.pins := rfl
@[simp] theorem State.setStage_fuses (o : Origin) (k : Nat) (v : Word) : (s.setStage o k v).fuses = s.fuses := rfl
@[simp] theorem State.setStage_shadow (o : Origin) (k : Nat) (v : Word) : (s.setStage o k v).shadow = s.shadow := rfl
@[simp] theorem State.setStage_cfg (o : Origin) (k : Nat) (v : Word) : (s.setStage o k v).cfg = s.cfg := rfl
@[simp] theorem State.setStage_calm (o : Origin) (k : Nat) (v : Word) : (s.setStage o k v).calm = s.calm := rfl
@[simp] theorem State.setStage_out (o : Origin) (k : Nat) (v : Word) : (s.setStage o k v).out = s.out := rfl
@[simp] theorem State.setStage_reg_at (o : Origin) (k : Nat) (v : Word) (j : Nat) : (s.setStage o k v).reg j = s.reg j := rfl
@[simp] theorem State.setStage_queue_at (o : Origin) (k : Nat) (v : Word) (j : Nat) : (s.setStage o k v).queue j = s.queue j := rfl
@[simp] theorem State.setStage_port_at (o : Origin) (k : Nat) (v : Word) (j : Nat) : (s.setStage o k v).port j = s.port j := rfl
@[simp] theorem State.setStage_tw_at (o : Origin) (k : Nat) (v : Word) (j : Nat) : (s.setStage o k v).tw j = s.tw j := rfl
@[simp] theorem State.setStage_link_at (o : Origin) (k : Nat) (v : Word) (j : Nat) : (s.setStage o k v).link j = s.link j := rfl
@[simp] theorem State.setStage_eng_at (o : Origin) (k : Nat) (v : Word) (j : Nat) : (s.setStage o k v).eng j = s.eng j := rfl
@[simp] theorem State.setStage_net_at (o : Origin) (k : Nat) (v : Word) (j : Nat) : (s.setStage o k v).net j = s.net j := rfl
@[simp] theorem State.setStage_now (o : Origin) (k : Nat) (v : Word) : (s.setStage o k v).now = s.now := rfl
@[simp] theorem State.setStage_runs (o : Origin) (k : Nat) (v : Word) (dom : Domain) : (s.setStage o k v).runs dom = s.runs dom := rfl

/-! ## setTpo -/

@[simp] theorem State.setTpo_pending (i : Nat) (x : Tpo) : (s.setTpo i x).pending = s.pending := rfl
@[simp] theorem State.setTpo_regs (i : Nat) (x : Tpo) : (s.setTpo i x).regs = s.regs := rfl
@[simp] theorem State.setTpo_freeNo (i : Nat) (x : Tpo) : (s.setTpo i x).freeNo = s.freeNo := rfl
@[simp] theorem State.setTpo_stopped (i : Nat) (x : Tpo) : (s.setTpo i x).stopped = s.stopped := rfl
@[simp] theorem State.setTpo_log (i : Nat) (x : Tpo) : (s.setTpo i x).log = s.log := rfl
@[simp] theorem State.setTpo_eic (i : Nat) (x : Tpo) : (s.setTpo i x).eic = s.eic := rfl
@[simp] theorem State.setTpo_snaps (i : Nat) (x : Tpo) : (s.setTpo i x).snaps = s.snaps := rfl
@[simp] theorem State.setTpo_windowSnaps (i : Nat) (x : Tpo) : (s.setTpo i x).windowSnaps = s.windowSnaps := rfl
@[simp] theorem State.setTpo_cmdHeld (i : Nat) (x : Tpo) : (s.setTpo i x).cmdHeld = s.cmdHeld := rfl
@[simp] theorem State.setTpo_staged (i : Nat) (x : Tpo) : (s.setTpo i x).staged = s.staged := rfl
@[simp] theorem State.setTpo_queues (i : Nat) (x : Tpo) : (s.setTpo i x).queues = s.queues := rfl
@[simp] theorem State.setTpo_ledger (i : Nat) (x : Tpo) : (s.setTpo i x).ledger = s.ledger := rfl
@[simp] theorem State.setTpo_endpoint (i : Nat) (x : Tpo) : (s.setTpo i x).endpoint = s.endpoint := rfl
@[simp] theorem State.setTpo_ports (i : Nat) (x : Tpo) : (s.setTpo i x).ports = s.ports := rfl
@[simp] theorem State.setTpo_tws (i : Nat) (x : Tpo) : (s.setTpo i x).tws = s.tws := rfl
@[simp] theorem State.setTpo_links (i : Nat) (x : Tpo) : (s.setTpo i x).links = s.links := rfl
@[simp] theorem State.setTpo_chain (i : Nat) (x : Tpo) : (s.setTpo i x).chain = s.chain := rfl
@[simp] theorem State.setTpo_mem (i : Nat) (x : Tpo) : (s.setTpo i x).mem = s.mem := rfl
@[simp] theorem State.setTpo_host (i : Nat) (x : Tpo) : (s.setTpo i x).host = s.host := rfl
@[simp] theorem State.setTpo_engines (i : Nat) (x : Tpo) : (s.setTpo i x).engines = s.engines := rfl
@[simp] theorem State.setTpo_clustersOff (i : Nat) (x : Tpo) : (s.setTpo i x).clustersOff = s.clustersOff := rfl
@[simp] theorem State.setTpo_loader (i : Nat) (x : Tpo) : (s.setTpo i x).loader = s.loader := rfl
@[simp] theorem State.setTpo_nets (i : Nat) (x : Tpo) : (s.setTpo i x).nets = s.nets := rfl
@[simp] theorem State.setTpo_mdio (i : Nat) (x : Tpo) : (s.setTpo i x).mdio = s.mdio := rfl
@[simp] theorem State.setTpo_clk (i : Nat) (x : Tpo) : (s.setTpo i x).clk = s.clk := rfl
@[simp] theorem State.setTpo_rst (i : Nat) (x : Tpo) : (s.setTpo i x).rst = s.rst := rfl
@[simp] theorem State.setTpo_pins (i : Nat) (x : Tpo) : (s.setTpo i x).pins = s.pins := rfl
@[simp] theorem State.setTpo_fuses (i : Nat) (x : Tpo) : (s.setTpo i x).fuses = s.fuses := rfl
@[simp] theorem State.setTpo_shadow (i : Nat) (x : Tpo) : (s.setTpo i x).shadow = s.shadow := rfl
@[simp] theorem State.setTpo_cfg (i : Nat) (x : Tpo) : (s.setTpo i x).cfg = s.cfg := rfl
@[simp] theorem State.setTpo_calm (i : Nat) (x : Tpo) : (s.setTpo i x).calm = s.calm := rfl
@[simp] theorem State.setTpo_out (i : Nat) (x : Tpo) : (s.setTpo i x).out = s.out := rfl
@[simp] theorem State.setTpo_reg_at (i : Nat) (x : Tpo) (j : Nat) : (s.setTpo i x).reg j = s.reg j := rfl
@[simp] theorem State.setTpo_queue_at (i : Nat) (x : Tpo) (j : Nat) : (s.setTpo i x).queue j = s.queue j := rfl
@[simp] theorem State.setTpo_port_at (i : Nat) (x : Tpo) (j : Nat) : (s.setTpo i x).port j = s.port j := rfl
@[simp] theorem State.setTpo_tw_at (i : Nat) (x : Tpo) (j : Nat) : (s.setTpo i x).tw j = s.tw j := rfl
@[simp] theorem State.setTpo_link_at (i : Nat) (x : Tpo) (j : Nat) : (s.setTpo i x).link j = s.link j := rfl
@[simp] theorem State.setTpo_eng_at (i : Nat) (x : Tpo) (j : Nat) : (s.setTpo i x).eng j = s.eng j := rfl
@[simp] theorem State.setTpo_net_at (i : Nat) (x : Tpo) (j : Nat) : (s.setTpo i x).net j = s.net j := rfl
@[simp] theorem State.setTpo_runs (i : Nat) (x : Tpo) (dom : Domain) : (s.setTpo i x).runs dom = s.runs dom := rfl

/-! ## setScratch -/

@[simp] theorem State.setScratch_pending (m : Mem) : (s.setScratch m).pending = s.pending := rfl
@[simp] theorem State.setScratch_regs (m : Mem) : (s.setScratch m).regs = s.regs := rfl
@[simp] theorem State.setScratch_freeNo (m : Mem) : (s.setScratch m).freeNo = s.freeNo := rfl
@[simp] theorem State.setScratch_stopped (m : Mem) : (s.setScratch m).stopped = s.stopped := rfl
@[simp] theorem State.setScratch_time (m : Mem) : (s.setScratch m).time = s.time := rfl
@[simp] theorem State.setScratch_log (m : Mem) : (s.setScratch m).log = s.log := rfl
@[simp] theorem State.setScratch_eic (m : Mem) : (s.setScratch m).eic = s.eic := rfl
@[simp] theorem State.setScratch_snaps (m : Mem) : (s.setScratch m).snaps = s.snaps := rfl
@[simp] theorem State.setScratch_windowSnaps (m : Mem) : (s.setScratch m).windowSnaps = s.windowSnaps := rfl
@[simp] theorem State.setScratch_cmdHeld (m : Mem) : (s.setScratch m).cmdHeld = s.cmdHeld := rfl
@[simp] theorem State.setScratch_staged (m : Mem) : (s.setScratch m).staged = s.staged := rfl
@[simp] theorem State.setScratch_queues (m : Mem) : (s.setScratch m).queues = s.queues := rfl
@[simp] theorem State.setScratch_ledger (m : Mem) : (s.setScratch m).ledger = s.ledger := rfl
@[simp] theorem State.setScratch_endpoint (m : Mem) : (s.setScratch m).endpoint = s.endpoint := rfl
@[simp] theorem State.setScratch_ports (m : Mem) : (s.setScratch m).ports = s.ports := rfl
@[simp] theorem State.setScratch_tws (m : Mem) : (s.setScratch m).tws = s.tws := rfl
@[simp] theorem State.setScratch_links (m : Mem) : (s.setScratch m).links = s.links := rfl
@[simp] theorem State.setScratch_chain (m : Mem) : (s.setScratch m).chain = s.chain := rfl
@[simp] theorem State.setScratch_host (m : Mem) : (s.setScratch m).host = s.host := rfl
@[simp] theorem State.setScratch_engines (m : Mem) : (s.setScratch m).engines = s.engines := rfl
@[simp] theorem State.setScratch_clustersOff (m : Mem) : (s.setScratch m).clustersOff = s.clustersOff := rfl
@[simp] theorem State.setScratch_loader (m : Mem) : (s.setScratch m).loader = s.loader := rfl
@[simp] theorem State.setScratch_nets (m : Mem) : (s.setScratch m).nets = s.nets := rfl
@[simp] theorem State.setScratch_mdio (m : Mem) : (s.setScratch m).mdio = s.mdio := rfl
@[simp] theorem State.setScratch_clk (m : Mem) : (s.setScratch m).clk = s.clk := rfl
@[simp] theorem State.setScratch_rst (m : Mem) : (s.setScratch m).rst = s.rst := rfl
@[simp] theorem State.setScratch_pins (m : Mem) : (s.setScratch m).pins = s.pins := rfl
@[simp] theorem State.setScratch_fuses (m : Mem) : (s.setScratch m).fuses = s.fuses := rfl
@[simp] theorem State.setScratch_shadow (m : Mem) : (s.setScratch m).shadow = s.shadow := rfl
@[simp] theorem State.setScratch_cfg (m : Mem) : (s.setScratch m).cfg = s.cfg := rfl
@[simp] theorem State.setScratch_calm (m : Mem) : (s.setScratch m).calm = s.calm := rfl
@[simp] theorem State.setScratch_out (m : Mem) : (s.setScratch m).out = s.out := rfl
@[simp] theorem State.setScratch_reg_at (m : Mem) (j : Nat) : (s.setScratch m).reg j = s.reg j := rfl
@[simp] theorem State.setScratch_queue_at (m : Mem) (j : Nat) : (s.setScratch m).queue j = s.queue j := rfl
@[simp] theorem State.setScratch_port_at (m : Mem) (j : Nat) : (s.setScratch m).port j = s.port j := rfl
@[simp] theorem State.setScratch_tw_at (m : Mem) (j : Nat) : (s.setScratch m).tw j = s.tw j := rfl
@[simp] theorem State.setScratch_link_at (m : Mem) (j : Nat) : (s.setScratch m).link j = s.link j := rfl
@[simp] theorem State.setScratch_eng_at (m : Mem) (j : Nat) : (s.setScratch m).eng j = s.eng j := rfl
@[simp] theorem State.setScratch_net_at (m : Mem) (j : Nat) : (s.setScratch m).net j = s.net j := rfl
@[simp] theorem State.setScratch_now (m : Mem) : (s.setScratch m).now = s.now := rfl
@[simp] theorem State.setScratch_runs (m : Mem) (dom : Domain) : (s.setScratch m).runs dom = s.runs dom := rfl

/-! ## setSlot -/

@[simp] theorem State.setSlot_pending (k : Nat) (x : Slot) : (s.setSlot k x).pending = s.pending := rfl
@[simp] theorem State.setSlot_regs (k : Nat) (x : Slot) : (s.setSlot k x).regs = s.regs := rfl
@[simp] theorem State.setSlot_freeNo (k : Nat) (x : Slot) : (s.setSlot k x).freeNo = s.freeNo := rfl
@[simp] theorem State.setSlot_stopped (k : Nat) (x : Slot) : (s.setSlot k x).stopped = s.stopped := rfl
@[simp] theorem State.setSlot_time (k : Nat) (x : Slot) : (s.setSlot k x).time = s.time := rfl
@[simp] theorem State.setSlot_log (k : Nat) (x : Slot) : (s.setSlot k x).log = s.log := rfl
@[simp] theorem State.setSlot_eic (k : Nat) (x : Slot) : (s.setSlot k x).eic = s.eic := rfl
@[simp] theorem State.setSlot_snaps (k : Nat) (x : Slot) : (s.setSlot k x).snaps = s.snaps := rfl
@[simp] theorem State.setSlot_windowSnaps (k : Nat) (x : Slot) : (s.setSlot k x).windowSnaps = s.windowSnaps := rfl
@[simp] theorem State.setSlot_cmdHeld (k : Nat) (x : Slot) : (s.setSlot k x).cmdHeld = s.cmdHeld := rfl
@[simp] theorem State.setSlot_staged (k : Nat) (x : Slot) : (s.setSlot k x).staged = s.staged := rfl
@[simp] theorem State.setSlot_queues (k : Nat) (x : Slot) : (s.setSlot k x).queues = s.queues := rfl
@[simp] theorem State.setSlot_ledger (k : Nat) (x : Slot) : (s.setSlot k x).ledger = s.ledger := rfl
@[simp] theorem State.setSlot_endpoint (k : Nat) (x : Slot) : (s.setSlot k x).endpoint = s.endpoint := rfl
@[simp] theorem State.setSlot_ports (k : Nat) (x : Slot) : (s.setSlot k x).ports = s.ports := rfl
@[simp] theorem State.setSlot_tws (k : Nat) (x : Slot) : (s.setSlot k x).tws = s.tws := rfl
@[simp] theorem State.setSlot_links (k : Nat) (x : Slot) : (s.setSlot k x).links = s.links := rfl
@[simp] theorem State.setSlot_chain (k : Nat) (x : Slot) : (s.setSlot k x).chain = s.chain := rfl
@[simp] theorem State.setSlot_host (k : Nat) (x : Slot) : (s.setSlot k x).host = s.host := rfl
@[simp] theorem State.setSlot_engines (k : Nat) (x : Slot) : (s.setSlot k x).engines = s.engines := rfl
@[simp] theorem State.setSlot_clustersOff (k : Nat) (x : Slot) : (s.setSlot k x).clustersOff = s.clustersOff := rfl
@[simp] theorem State.setSlot_loader (k : Nat) (x : Slot) : (s.setSlot k x).loader = s.loader := rfl
@[simp] theorem State.setSlot_nets (k : Nat) (x : Slot) : (s.setSlot k x).nets = s.nets := rfl
@[simp] theorem State.setSlot_mdio (k : Nat) (x : Slot) : (s.setSlot k x).mdio = s.mdio := rfl
@[simp] theorem State.setSlot_clk (k : Nat) (x : Slot) : (s.setSlot k x).clk = s.clk := rfl
@[simp] theorem State.setSlot_rst (k : Nat) (x : Slot) : (s.setSlot k x).rst = s.rst := rfl
@[simp] theorem State.setSlot_pins (k : Nat) (x : Slot) : (s.setSlot k x).pins = s.pins := rfl
@[simp] theorem State.setSlot_fuses (k : Nat) (x : Slot) : (s.setSlot k x).fuses = s.fuses := rfl
@[simp] theorem State.setSlot_shadow (k : Nat) (x : Slot) : (s.setSlot k x).shadow = s.shadow := rfl
@[simp] theorem State.setSlot_cfg (k : Nat) (x : Slot) : (s.setSlot k x).cfg = s.cfg := rfl
@[simp] theorem State.setSlot_calm (k : Nat) (x : Slot) : (s.setSlot k x).calm = s.calm := rfl
@[simp] theorem State.setSlot_out (k : Nat) (x : Slot) : (s.setSlot k x).out = s.out := rfl
@[simp] theorem State.setSlot_reg_at (k : Nat) (x : Slot) (j : Nat) : (s.setSlot k x).reg j = s.reg j := rfl
@[simp] theorem State.setSlot_queue_at (k : Nat) (x : Slot) (j : Nat) : (s.setSlot k x).queue j = s.queue j := rfl
@[simp] theorem State.setSlot_port_at (k : Nat) (x : Slot) (j : Nat) : (s.setSlot k x).port j = s.port j := rfl
@[simp] theorem State.setSlot_tw_at (k : Nat) (x : Slot) (j : Nat) : (s.setSlot k x).tw j = s.tw j := rfl
@[simp] theorem State.setSlot_link_at (k : Nat) (x : Slot) (j : Nat) : (s.setSlot k x).link j = s.link j := rfl
@[simp] theorem State.setSlot_eng_at (k : Nat) (x : Slot) (j : Nat) : (s.setSlot k x).eng j = s.eng j := rfl
@[simp] theorem State.setSlot_net_at (k : Nat) (x : Slot) (j : Nat) : (s.setSlot k x).net j = s.net j := rfl
@[simp] theorem State.setSlot_now (k : Nat) (x : Slot) : (s.setSlot k x).now = s.now := rfl
@[simp] theorem State.setSlot_runs (k : Nat) (x : Slot) (dom : Domain) : (s.setSlot k x).runs dom = s.runs dom := rfl

/-! ## setRst -/

@[simp] theorem State.setRst_pending (x : ResetSys) : (s.setRst x).pending = s.pending := rfl
@[simp] theorem State.setRst_regs (x : ResetSys) : (s.setRst x).regs = s.regs := rfl
@[simp] theorem State.setRst_freeNo (x : ResetSys) : (s.setRst x).freeNo = s.freeNo := rfl
@[simp] theorem State.setRst_stopped (x : ResetSys) : (s.setRst x).stopped = s.stopped := rfl
@[simp] theorem State.setRst_time (x : ResetSys) : (s.setRst x).time = s.time := rfl
@[simp] theorem State.setRst_log (x : ResetSys) : (s.setRst x).log = s.log := rfl
@[simp] theorem State.setRst_eic (x : ResetSys) : (s.setRst x).eic = s.eic := rfl
@[simp] theorem State.setRst_snaps (x : ResetSys) : (s.setRst x).snaps = s.snaps := rfl
@[simp] theorem State.setRst_windowSnaps (x : ResetSys) : (s.setRst x).windowSnaps = s.windowSnaps := rfl
@[simp] theorem State.setRst_cmdHeld (x : ResetSys) : (s.setRst x).cmdHeld = s.cmdHeld := rfl
@[simp] theorem State.setRst_staged (x : ResetSys) : (s.setRst x).staged = s.staged := rfl
@[simp] theorem State.setRst_queues (x : ResetSys) : (s.setRst x).queues = s.queues := rfl
@[simp] theorem State.setRst_ledger (x : ResetSys) : (s.setRst x).ledger = s.ledger := rfl
@[simp] theorem State.setRst_endpoint (x : ResetSys) : (s.setRst x).endpoint = s.endpoint := rfl
@[simp] theorem State.setRst_ports (x : ResetSys) : (s.setRst x).ports = s.ports := rfl
@[simp] theorem State.setRst_tws (x : ResetSys) : (s.setRst x).tws = s.tws := rfl
@[simp] theorem State.setRst_links (x : ResetSys) : (s.setRst x).links = s.links := rfl
@[simp] theorem State.setRst_chain (x : ResetSys) : (s.setRst x).chain = s.chain := rfl
@[simp] theorem State.setRst_mem (x : ResetSys) : (s.setRst x).mem = s.mem := rfl
@[simp] theorem State.setRst_host (x : ResetSys) : (s.setRst x).host = s.host := rfl
@[simp] theorem State.setRst_engines (x : ResetSys) : (s.setRst x).engines = s.engines := rfl
@[simp] theorem State.setRst_clustersOff (x : ResetSys) : (s.setRst x).clustersOff = s.clustersOff := rfl
@[simp] theorem State.setRst_loader (x : ResetSys) : (s.setRst x).loader = s.loader := rfl
@[simp] theorem State.setRst_nets (x : ResetSys) : (s.setRst x).nets = s.nets := rfl
@[simp] theorem State.setRst_mdio (x : ResetSys) : (s.setRst x).mdio = s.mdio := rfl
@[simp] theorem State.setRst_clk (x : ResetSys) : (s.setRst x).clk = s.clk := rfl
@[simp] theorem State.setRst_pins (x : ResetSys) : (s.setRst x).pins = s.pins := rfl
@[simp] theorem State.setRst_fuses (x : ResetSys) : (s.setRst x).fuses = s.fuses := rfl
@[simp] theorem State.setRst_shadow (x : ResetSys) : (s.setRst x).shadow = s.shadow := rfl
@[simp] theorem State.setRst_cfg (x : ResetSys) : (s.setRst x).cfg = s.cfg := rfl
@[simp] theorem State.setRst_calm (x : ResetSys) : (s.setRst x).calm = s.calm := rfl
@[simp] theorem State.setRst_out (x : ResetSys) : (s.setRst x).out = s.out := rfl
@[simp] theorem State.setRst_reg_at (x : ResetSys) (j : Nat) : (s.setRst x).reg j = s.reg j := rfl
@[simp] theorem State.setRst_queue_at (x : ResetSys) (j : Nat) : (s.setRst x).queue j = s.queue j := rfl
@[simp] theorem State.setRst_port_at (x : ResetSys) (j : Nat) : (s.setRst x).port j = s.port j := rfl
@[simp] theorem State.setRst_tw_at (x : ResetSys) (j : Nat) : (s.setRst x).tw j = s.tw j := rfl
@[simp] theorem State.setRst_link_at (x : ResetSys) (j : Nat) : (s.setRst x).link j = s.link j := rfl
@[simp] theorem State.setRst_eng_at (x : ResetSys) (j : Nat) : (s.setRst x).eng j = s.eng j := rfl
@[simp] theorem State.setRst_net_at (x : ResetSys) (j : Nat) : (s.setRst x).net j = s.net j := rfl
@[simp] theorem State.setRst_now (x : ResetSys) : (s.setRst x).now = s.now := rfl
@[simp] theorem State.setRst_runs (x : ResetSys) (dom : Domain) : (s.setRst x).runs dom = s.runs dom := rfl

/-! ## setStranger -/

@[simp] theorem State.setStranger_pending (n v : Nat) (x : Nat × Nat) : (s.setStranger n v x).pending = s.pending := rfl
@[simp] theorem State.setStranger_regs (n v : Nat) (x : Nat × Nat) : (s.setStranger n v x).regs = s.regs := rfl
@[simp] theorem State.setStranger_freeNo (n v : Nat) (x : Nat × Nat) : (s.setStranger n v x).freeNo = s.freeNo := rfl
@[simp] theorem State.setStranger_stopped (n v : Nat) (x : Nat × Nat) : (s.setStranger n v x).stopped = s.stopped := rfl
@[simp] theorem State.setStranger_time (n v : Nat) (x : Nat × Nat) : (s.setStranger n v x).time = s.time := rfl
@[simp] theorem State.setStranger_log (n v : Nat) (x : Nat × Nat) : (s.setStranger n v x).log = s.log := rfl
@[simp] theorem State.setStranger_eic (n v : Nat) (x : Nat × Nat) : (s.setStranger n v x).eic = s.eic := rfl
@[simp] theorem State.setStranger_snaps (n v : Nat) (x : Nat × Nat) : (s.setStranger n v x).snaps = s.snaps := rfl
@[simp] theorem State.setStranger_windowSnaps (n v : Nat) (x : Nat × Nat) : (s.setStranger n v x).windowSnaps = s.windowSnaps := rfl
@[simp] theorem State.setStranger_cmdHeld (n v : Nat) (x : Nat × Nat) : (s.setStranger n v x).cmdHeld = s.cmdHeld := rfl
@[simp] theorem State.setStranger_staged (n v : Nat) (x : Nat × Nat) : (s.setStranger n v x).staged = s.staged := rfl
@[simp] theorem State.setStranger_queues (n v : Nat) (x : Nat × Nat) : (s.setStranger n v x).queues = s.queues := rfl
@[simp] theorem State.setStranger_ledger (n v : Nat) (x : Nat × Nat) : (s.setStranger n v x).ledger = s.ledger := rfl
@[simp] theorem State.setStranger_endpoint (n v : Nat) (x : Nat × Nat) : (s.setStranger n v x).endpoint = s.endpoint := rfl
@[simp] theorem State.setStranger_tws (n v : Nat) (x : Nat × Nat) : (s.setStranger n v x).tws = s.tws := rfl
@[simp] theorem State.setStranger_links (n v : Nat) (x : Nat × Nat) : (s.setStranger n v x).links = s.links := rfl
@[simp] theorem State.setStranger_chain (n v : Nat) (x : Nat × Nat) : (s.setStranger n v x).chain = s.chain := rfl
@[simp] theorem State.setStranger_mem (n v : Nat) (x : Nat × Nat) : (s.setStranger n v x).mem = s.mem := rfl
@[simp] theorem State.setStranger_host (n v : Nat) (x : Nat × Nat) : (s.setStranger n v x).host = s.host := rfl
@[simp] theorem State.setStranger_engines (n v : Nat) (x : Nat × Nat) : (s.setStranger n v x).engines = s.engines := rfl
@[simp] theorem State.setStranger_clustersOff (n v : Nat) (x : Nat × Nat) : (s.setStranger n v x).clustersOff = s.clustersOff := rfl
@[simp] theorem State.setStranger_loader (n v : Nat) (x : Nat × Nat) : (s.setStranger n v x).loader = s.loader := rfl
@[simp] theorem State.setStranger_nets (n v : Nat) (x : Nat × Nat) : (s.setStranger n v x).nets = s.nets := rfl
@[simp] theorem State.setStranger_mdio (n v : Nat) (x : Nat × Nat) : (s.setStranger n v x).mdio = s.mdio := rfl
@[simp] theorem State.setStranger_clk (n v : Nat) (x : Nat × Nat) : (s.setStranger n v x).clk = s.clk := rfl
@[simp] theorem State.setStranger_rst (n v : Nat) (x : Nat × Nat) : (s.setStranger n v x).rst = s.rst := rfl
@[simp] theorem State.setStranger_pins (n v : Nat) (x : Nat × Nat) : (s.setStranger n v x).pins = s.pins := rfl
@[simp] theorem State.setStranger_fuses (n v : Nat) (x : Nat × Nat) : (s.setStranger n v x).fuses = s.fuses := rfl
@[simp] theorem State.setStranger_shadow (n v : Nat) (x : Nat × Nat) : (s.setStranger n v x).shadow = s.shadow := rfl
@[simp] theorem State.setStranger_cfg (n v : Nat) (x : Nat × Nat) : (s.setStranger n v x).cfg = s.cfg := rfl
@[simp] theorem State.setStranger_calm (n v : Nat) (x : Nat × Nat) : (s.setStranger n v x).calm = s.calm := rfl
@[simp] theorem State.setStranger_out (n v : Nat) (x : Nat × Nat) : (s.setStranger n v x).out = s.out := rfl
@[simp] theorem State.setStranger_reg_at (n v : Nat) (x : Nat × Nat) (j : Nat) : (s.setStranger n v x).reg j = s.reg j := rfl
@[simp] theorem State.setStranger_queue_at (n v : Nat) (x : Nat × Nat) (j : Nat) : (s.setStranger n v x).queue j = s.queue j := rfl
@[simp] theorem State.setStranger_tw_at (n v : Nat) (x : Nat × Nat) (j : Nat) : (s.setStranger n v x).tw j = s.tw j := rfl
@[simp] theorem State.setStranger_link_at (n v : Nat) (x : Nat × Nat) (j : Nat) : (s.setStranger n v x).link j = s.link j := rfl
@[simp] theorem State.setStranger_eng_at (n v : Nat) (x : Nat × Nat) (j : Nat) : (s.setStranger n v x).eng j = s.eng j := rfl
@[simp] theorem State.setStranger_net_at (n v : Nat) (x : Nat × Nat) (j : Nat) : (s.setStranger n v x).net j = s.net j := rfl
@[simp] theorem State.setStranger_now (n v : Nat) (x : Nat × Nat) : (s.setStranger n v x).now = s.now := rfl
@[simp] theorem State.setStranger_runs (n v : Nat) (x : Nat × Nat) (dom : Domain) : (s.setStranger n v x).runs dom = s.runs dom := rfl

end Sys2Proof.Machine
end

