-- ==== Sys2Proof/Laws/Tab.lean ====
section
/-!
SUPPORT. Sparse tables: reading after writing, every operation keeps the canonical form, and tables of that form with equal readings
are equal. The same for byte memories, with every operation that the model makes on one.
-/
namespace Sys2Proof.Machine

variable {α : Type} [DecidableEq α] {d : Nat → α}

/-! ## Tables -/

omit [DecidableEq α] in
@[simp] theorem tabGet_nil (k : Nat) : tabGet d [] k = d k := rfl
@[simp] theorem tabWf_nil : tabWf d [] = true := rfl

theorem tabWfFrom_cons {lo j : Nat} {v : α} {r : Tab α} :
    tabWfFrom d lo ((j, v) :: r) = true ↔ lo ≤ j ∧ v ≠ d j ∧ tabWfFrom d (j + 1) r = true := by
  simp [tabWfFrom, and_assoc]

/-- A table whose keys start at hi also starts at any lower bound. -/
theorem tabWfFrom_mono {lo hi : Nat} (h : lo ≤ hi) {t : Tab α} (w : tabWfFrom d hi t = true) : tabWfFrom d lo t = true := by
  cases t with
  | nil => rfl
  | cons e r => exact tabWfFrom_cons.2 ⟨Nat.le_trans h (tabWfFrom_cons.1 w).1, (tabWfFrom_cons.1 w).2⟩

/-- A key below every listed one reads as unlisted. -/
theorem tabGet_of_lt {lo k : Nat} (h : k < lo) {t : Tab α} (w : tabWfFrom d lo t = true) : tabGet d t k = d k := by
  induction t generalizing lo with
  | nil => rfl
  | cons e r ih =>
    have w := tabWfFrom_cons.1 w
    have : e.1 ≠ k := by omega
    simpa [tabGet, this] using ih (by omega) w.2.2

theorem tabPut_wfFrom {lo k : Nat} (h : lo ≤ k) (v : α) {t : Tab α} (w : tabWfFrom d lo t = true) :
    tabWfFrom d lo (tabPut d t k v) = true := by
  induction t generalizing lo with
  | nil => by_cases e : v = d k <;> simp [tabPut, tabWfFrom, e, h]
  | cons e r ih =>
    have c := tabWfFrom_cons.1 w
    unfold tabPut
    split_ifs with h1 h2 h3 h4
    · exact w
    · exact tabWfFrom_cons.2 ⟨h, h2, tabWfFrom_cons.2 ⟨h1, c.2⟩⟩
    · exact tabWfFrom_mono (by omega) c.2.2
    · exact tabWfFrom_cons.2 ⟨h, h4, h3 ▸ c.2.2⟩
    · exact tabWfFrom_cons.2 ⟨c.1, c.2.1, ih (by omega) c.2.2⟩

/-- A write keeps the canonical form. -/
theorem tabPut_wf (k : Nat) (v : α) {t : Tab α} (w : tabWf d t = true) : tabWf d (tabPut d t k v) = true :=
  tabPut_wfFrom k.zero_le v w

/-- A write leaves the other keys alone, whatever the table's form. -/
theorem tabGet_tabPut_ne {k j : Nat} (v : α) (h : j ≠ k) (t : Tab α) : tabGet d (tabPut d t k v) j = tabGet d t j := by
  induction t with
  | nil => by_cases e : v = d k <;> simp [tabPut, tabGet, e, h.symm]
  | cons e r ih =>
    unfold tabPut
    split_ifs with h1 h2 h3 h4 <;> simp [tabGet, ih, h.symm]
    all_goals exact fun x => absurd (h3.trans x) h.symm

theorem tabGet_tabPut_self {lo : Nat} (k : Nat) (v : α) {t : Tab α} (w : tabWfFrom d lo t = true) : tabGet d (tabPut d t k v) k = v := by
  induction t generalizing lo with
  | nil => by_cases e : v = d k <;> simp [tabPut, tabGet, e]
  | cons e r ih =>
    have c := tabWfFrom_cons.1 w
    unfold tabPut
    split_ifs with h1 h2 h3 h4
    · exact (tabGet_of_lt h1 (tabWfFrom_cons.2 ⟨Nat.le_refl _, c.2⟩)).trans h2.symm
    · simp [tabGet]
    · exact (tabGet_of_lt (by omega) c.2.2).trans h4.symm
    · simp [tabGet]
    · simpa [tabGet, Ne.symm h3] using ih c.2.2

/-- What a table reads after a write. -/
theorem tabGet_tabPut (k : Nat) (v : α) (j : Nat) {t : Tab α} (w : tabWf d t = true) :
    tabGet d (tabPut d t k v) j = if j = k then v else tabGet d t j := by
  split_ifs with h
  · exact h ▸ tabGet_tabPut_self k v w
  · exact tabGet_tabPut_ne v h t

theorem tabFilter_wfFrom {lo : Nat} (p : Nat × α → Bool) {t : Tab α} (w : tabWfFrom d lo t = true) :
    tabWfFrom d lo (t.filter p) = true := by
  induction t generalizing lo with
  | nil => rfl
  | cons e r ih =>
    have c := tabWfFrom_cons.1 w
    cases h : p e
    · simpa [List.filter, h] using tabWfFrom_mono (by omega) (ih c.2.2)
    · simpa [List.filter, h] using tabWfFrom_cons.2 ⟨c.1, c.2.1, ih c.2.2⟩

/-- Taking pairs out keeps the canonical form. -/
theorem tabFilter_wf (p : Nat × α → Bool) {t : Tab α} (w : tabWf d t = true) : tabWf d (t.filter p) = true := tabFilter_wfFrom p w

theorem tabMap_wfFrom {lo : Nat} (f : Nat → α → α) {t : Tab α} (w : tabWfFrom d lo t = true) :
    tabWfFrom d lo (tabMap d f t) = true := by
  induction t generalizing lo with
  | nil => rfl
  | cons e r ih =>
    have c := tabWfFrom_cons.1 w
    have i := ih c.2.2
    unfold tabMap at i ⊢
    by_cases h : f e.1 e.2 = d e.1
    · simpa [h] using tabWfFrom_mono (by omega) i
    · simpa [h] using tabWfFrom_cons.2 ⟨c.1, h, i⟩

/-- A map over the listed values keeps the canonical form. -/
theorem tabMap_wf (f : Nat → α → α) {t : Tab α} (w : tabWf d t = true) : tabWf d (tabMap d f t) = true := tabMap_wfFrom f w

theorem tabGet_head {lo j : Nat} {v : α} {r : Tab α} (w : tabWfFrom d lo ((j, v) :: r) = true) :
    tabGet d ((j, v) :: r) j ≠ d j := by
  simpa [tabGet] using (tabWfFrom_cons.1 w).2.1

theorem tab_ext_from {lo : Nat} {t u : Tab α} (a : tabWfFrom d lo t = true) (b : tabWfFrom d lo u = true)
    (h : ∀ k, tabGet d t k = tabGet d u k) : t = u := by
  induction t generalizing lo u with
  | nil =>
    cases u with
    | nil => rfl
    | cons e r => exact absurd (h e.1).symm (tabGet_head b)
  | cons e r ih =>
    cases u with
    | nil => exact absurd (h e.1) (tabGet_head a)
    | cons f q =>
      have a' := tabWfFrom_cons.1 a
      have b' := tabWfFrom_cons.1 b
      have key : e.1 = f.1 := by
        rcases Nat.lt_trichotomy e.1 f.1 with l | l | l
        · exact absurd ((h e.1).trans (tabGet_of_lt l (tabWfFrom_cons.2 ⟨Nat.le_refl _, b'.2⟩))) (tabGet_head a)
        · exact l
        · exact absurd ((h f.1).symm.trans (tabGet_of_lt l (tabWfFrom_cons.2 ⟨Nat.le_refl _, a'.2⟩))) (tabGet_head b)
      have val : e.2 = f.2 := by simpa [tabGet, key] using h e.1
      have rest : r = q := ih a'.2.2 (key ▸ b'.2.2) (fun k => by
        rcases Nat.lt_or_ge e.1 k with l | l
        · simpa [tabGet, Nat.ne_of_lt l, key ▸ Nat.ne_of_lt l] using h k
        · rw [tabGet_of_lt (Nat.lt_succ_of_le l) a'.2.2, tabGet_of_lt (Nat.lt_succ_of_le (key ▸ l)) b'.2.2])
      rw [Prod.ext key val, rest]

/-- Tables in canonical form that read the same everywhere are equal. -/
theorem tab_ext {t u : Tab α} (a : tabWf d t = true) (b : tabWf d u = true) (h : ∀ k, tabGet d t k = tabGet d u k) : t = u :=
  tab_ext_from a b h

/-! ## Byte memories -/

theorem memByte_memSetByte (a : Nat) (v : Byte) (b : Nat) {m : Mem} (w : Memory.wf m = true) :
    memByte (memSetByte m a v) b = if b = a then v else memByte m b := tabGet_tabPut a v b w

theorem memByte_memSetByte_ne {a b : Nat} (v : Byte) (h : b ≠ a) (m : Mem) : memByte (memSetByte m a v) b = memByte m b :=
  tabGet_tabPut_ne v h m

theorem memSetByte_wf (a : Nat) (v : Byte) {m : Mem} (w : Memory.wf m = true) : Memory.wf (memSetByte m a v) = true := tabPut_wf a v w

theorem memSetWord_wf (a : Nat) (v : Word) {m : Mem} (w : Memory.wf m = true) : Memory.wf (memSetWord m a v) = true :=
  memSetByte_wf _ _ (memSetByte_wf _ _ (memSetByte_wf _ _ (memSetByte_wf _ _ w)))

theorem memSetBytes_wf (bs : List Byte) (a : Nat) {m : Mem} (w : Memory.wf m = true) : Memory.wf (memSetBytes m a bs) = true := by
  induction bs generalizing a m with
  | nil => exact w
  | cons b bs ih => exact ih (a + 1) (memSetByte_wf a b w)

/-- A run of bytes written reads back in its range, and nothing else changes. -/
theorem memByte_memSetBytes (bs : List Byte) (a b : Nat) {m : Mem} (w : Memory.wf m = true) :
    memByte (memSetBytes m a bs) b = if a ≤ b ∧ b < a + bs.length then bs.getD (b - a) 0 else memByte m b := by
  induction bs generalizing a m with
  | nil => simp [memSetBytes]
  | cons x bs ih =>
    rw [memSetBytes, ih (a + 1) (memSetByte_wf a x w), memByte_memSetByte a x b w, List.length_cons]
    by_cases h : b = a
    · subst h
      simp
    · by_cases l : a + 1 ≤ b ∧ b < a + 1 + bs.length
      · obtain ⟨k, rfl⟩ : ∃ k, b = a + 1 + k := ⟨b - (a + 1), by omega⟩
        rw [if_pos l, if_pos (by omega), Nat.add_sub_cancel_left, show a + 1 + k - a = k + 1 by omega]
        rfl
      · rw [if_neg l, if_neg h, if_neg (by omega)]

theorem memClear_wf (lo hi : Nat) {m : Mem} (w : Memory.wf m = true) : Memory.wf (memClear m lo hi) = true := tabFilter_wf _ w

theorem listBytes_wfFrom (bs : List Byte) (a : Nat) : tabWfFrom memDefault a (listBytes a bs) = true := by
  induction bs generalizing a with
  | nil => rfl
  | cons b bs ih =>
    unfold listBytes
    split_ifs with h
    · exact tabWfFrom_mono (Nat.le_succ a) (ih (a + 1))
    · exact tabWfFrom_cons.2 ⟨Nat.le_refl a, h, ih (a + 1)⟩

/-- The bytes that a run of bytes lists are in canonical form. -/
theorem listBytes_wf (bs : List Byte) (a : Nat) : Memory.wf (listBytes a bs) = true := tabWfFrom_mono a.zero_le (listBytes_wfFrom bs a)

/-- Two tables one behind the other are in canonical form, if the first ends below the second. -/
theorem tabAppend_wfFrom {lo mid : Nat} (h : lo ≤ mid) {t u : Tab α} (a : tabWfFrom d lo t = true) (b : tabWfFrom d mid u = true)
    (c : ∀ e ∈ t, e.1 < mid) : tabWfFrom d lo (t ++ u) = true := by
  induction t generalizing lo with
  | nil => exact tabWfFrom_mono h b
  | cons e r ih =>
    have a' := tabWfFrom_cons.1 a
    exact tabWfFrom_cons.2 ⟨a'.1, a'.2.1, ih (c e (List.mem_cons_self ..)) a'.2.2 (fun x m => c x (List.mem_cons_of_mem _ m))⟩

theorem listBytes_lt (bs : List Byte) (a : Nat) : ∀ e ∈ listBytes a bs, e.1 < a + bs.length := by
  induction bs generalizing a with
  | nil => simp [listBytes]
  | cons b bs ih =>
    intro e m
    unfold listBytes at m
    split_ifs at m
    · have := ih (a + 1) e m; simp; omega
    · rcases List.mem_cons.1 m with rfl | m
      · simp
      · have := ih (a + 1) e m; simp; omega

/-- The pairs of a table in canonical form at or above a bound are in canonical form from it. -/
theorem tabFrom_wf {lo : Nat} (hi : Nat) {t : Tab α} (w : tabWfFrom d lo t = true) :
    tabWfFrom d hi (t.filter (fun c => decide (hi ≤ c.1))) = true := by
  induction t generalizing lo with
  | nil => rfl
  | cons e r ih =>
    have c := tabWfFrom_cons.1 w
    by_cases h : hi ≤ e.1
    · simpa [List.filter, h] using tabWfFrom_cons.2 ⟨h, c.2.1, tabFilter_wfFrom _ c.2.2⟩
    · simpa [List.filter, h] using ih c.2.2

/-- A write of a range in one pass keeps the canonical form. -/
theorem memWriteRange_wf (a : Nat) (bs : List Byte) {m : Mem} (w : Memory.wf m = true) : Memory.wf (memWriteRange m a bs) = true := by
  unfold memWriteRange Memory.wf tabWf
  rw [List.append_assoc]
  refine tabAppend_wfFrom (Nat.zero_le a) (tabFilter_wf _ w)
    (tabAppend_wfFrom (Nat.le_add_right a bs.length) (listBytes_wfFrom bs a) (tabFrom_wf _ w) (listBytes_lt bs a)) ?_
  intro e h
  simpa using (List.mem_filter.1 h).2

/-- The memories of the state after reset are in canonical form. -/
theorem reset_memories_wf : Memory.wf State.reset.mem.scratch = true ∧ Memory.wf State.reset.calm.buf = true
    ∧ Memory.wf State.reset.calm.store = true := ⟨rfl, rfl, rfl⟩

/-! ## The tables of the state -/

/-- A register reads what was written to it; the others keep their values. -/
theorem reg_setReg {s : State} (w : tabWf regReset s.regs = true) (a : Nat) (v : Word) (b : Nat) :
    (s.setReg a v).reg b = if b = a then v else s.reg b := tabGet_tabPut a v b w

theorem reg_setReg_ne {a b : Nat} (h : b ≠ a) (v : Word) (s : State) : (s.setReg a v).reg b = s.reg b := tabGet_tabPut_ne v h s.regs

theorem setReg_wf (a : Nat) (v : Word) {s : State} (w : tabWf regReset s.regs = true) : tabWf regReset (s.setReg a v).regs = true :=
  tabPut_wf a v w

theorem queue_setQueue {s : State} (w : tabWf (fun _ => Queue.absent) s.queues = true) (k : Nat) (q : Queue) (j : Nat) :
    (s.setQueue k q).queue j = if j = k then q else s.queue j := tabGet_tabPut k q j w

theorem queue_setQueue_ne {k j : Nat} (h : j ≠ k) (q : Queue) (s : State) : (s.setQueue k q).queue j = s.queue j :=
  tabGet_tabPut_ne q h s.queues

theorem port_setPort {s : State} (w : tabWf Port.reset s.ports = true) (n : Nat) (p : Port) (j : Nat) :
    (s.setPort n p).port j = if j = n then p else s.port j := tabGet_tabPut n p j w

theorem port_setPort_ne {n j : Nat} (h : j ≠ n) (p : Port) (s : State) : (s.setPort n p).port j = s.port j :=
  tabGet_tabPut_ne p h s.ports

end Sys2Proof.Machine
end

