-- ==== Sys2Proof/Tests/Slice0.lean ====
section
/-!
SUPPORT. States and operands that meet the hypotheses of each statement, ill-formed commands that the check refuses, and worked values of
the spec. The theorems are elaborated one after another: each evaluates a step in the kernel.
-/
namespace Sys2Proof.Tests

set_option Elab.async false

open Sys2Proof.Machine

/-- A committed device that runs, at 100 s of device time. -/
def live : State :=
  let s : State := { State.reset with
    stopped := {}
    time := { cyc := 100000000000, tick := 100000000000 }
    rst := { por := false, bring := 0, cause := 0, toRelease := false, committed := true } }
  let s := (((s.on CF_STAT.COMMITTED).off TB_STAT.COARSE).on CK_STAT.REFCLK_OK).wr RST_STAT.PHASE 8
  ((s.wr (CK_PLL.STATE 0) 3).wr (CK_PLL.STATE 1) 3).wr (CK_PLL.STATE 2) 3

/-! ## Serial ports -/

/-- s with port 3 changed by f. -/
def tPort (s : State) (f : Port → Port) : State := s.setPort 3 (f (s.port 3))

/-- Port 3 receives and transmits. -/
def livePort : State := (live.on (SP_CTRL.RX_EN 3)).on (SP_CTRL.TX_EN 3)

/-- Port 3 receives a character. -/
def liveChar : State :=
  tPort (livePort.wr (SP_PKT.GAP16 3) 32) fun p =>
    { p with rxChar := some { stamp := 99999999000, tick := 99999999000, osr := 16, d := 0x100000, fmt := p.rxFmt } }

/-- Port 3 is in a break. -/
def liveBreak : State := tPort (livePort.on (SP_STAT.IN_BREAK 3)) fun p => { p with brk := some (99999000000, 99999000000) }

/-- Port 3's receiver is masked after a transmission. -/
def liveMask : State := tPort livePort fun p => { p with masked := true, maskEnd := some 100000000000 }

/-- A rate waits at port 3. -/
def liveRate : State := tPort livePort fun p => { p with rate := some (0x200000, 0x21) }

/-- A gap runs on port 3. -/
def liveGap : State :=
  tPort livePort fun p => { p with gapAt := some (100000000100 * 65536), held := some { words := [{ data := 0x41 }] } }

/-- Queue 5 exists and holds words. -/
def tQueue (s : State) (ws : List QWord) : State :=
  s.setQueue 5 { Queue.absent with ex := true, words := ws, head := ws.length, gen := 1, pushed := ws.length, hwm := ws.length }

/-- Transmit queue 0 of port 3 is queue 5. -/
def liveTx : State := (tQueue livePort [{ data := 0x41, fin := true }]).setReg (SP_QTX 3 0) 0x80000005

/-- Port 3's prefetch holds ps. -/
def tPrefetch (ps : List PreItem) : State := tPort livePort fun p => { p with prefetch := ps }
def liveItem : State := tPrefetch [{ word := { data := 0x41 }, q := 0 }]
def liveBrkItem : State := tPrefetch [{ word := { data := 0x141000 }, q := 0 }]
def liveXoff : State := tPort livePort fun p => { p with xpend := [true] }
def liveDe : State := tPort liveItem fun p => { p with txFmt := { p.txFmt with line := 2 } }
def liveDeUp : State := tPort livePort fun p => { p with txFmt := { p.txFmt with line := 2 }, de := true, txEnd := 0 }
def liveDeHold : State := tPort liveDeUp fun p => { p with deHold := some 100000000000 }

/-- Port 3 awaits the echo of a character. -/
def liveEcho : State :=
  tPort (livePort.on (SP_ECHO.ECHO_EN 3)) fun p =>
    { p with echoes := [{ stamp := 99999990000, tick := 99999990000, chr := 0x41, q := some 0, fin := false, matched := false }] }

/-- A LAUNCH_AT with its time words is in port 3's prefetch. -/
def liveLaunchItem : State := tPrefetch [{ word := { data := 0x2041 }, q := 0, times := [5000, 100] }]

/-- Launch register 1 of port 3 holds l. -/
def tLaunch (l : Launch) : State := tPort livePort fun p => p.setLaunch 1 (some l)
def liveFar : State := tLaunch { word := { data := 0x2041 }, at_ := 200000000000, far := true, loaded := 100000000000 }
def liveLate : State := tLaunch { word := { data := 0x2041 }, at_ := 100000000010, far := false, loaded := 100000000000 }
def liveLaunch : State := tLaunch { word := { data := 0x2041 }, at_ := 100000005000, far := false, loaded := 99999999000 }

/-! ## Trade winds -/

/-- s with port 3's schedule changed by f. -/
def tTw (s : State) (f : Tw → Tw) : State := s.setTw 3 (f (s.tw 3))

/-- A table of 1 ms: SYNC of node 0, DATA of node 1 in entry 2, GAP in entry 5. -/
def tTable : TwTable :=
  { entries := [(0, { d0 := 0, d1 := 100000, d2 := 0x8100 }), (2, { d0 := 300000, d1 := 200000, d2 := 0x58201 })] }

/-- The schedule of port 3 in phase ph as a first node or a member of address 1. -/
def tSched (ph : TwPhase) (role : Bool) : State :=
  tTw (livePort.on (SP_STAT.FC_IGNORED 3)) fun w =>
    { w with phase := ph, role := role, addr := 1, from_ := 100000000000,
             modes := [(0, { run := tTable })], cyc := { table := tTable, start := 100000000000, k := 7 } }
def liveListen : State := tSched .listen true
def liveStarting : State := tSched .starting true
def liveRunning : State := tSched .running true
def liveJoined : State := tSched .joined false
def liveDecide : State :=
  tTw ((List.range 8).foldl (fun s i => s.setReg (TW_ACK_SEEN 3 i) 0xFFFFFFFF) liveRunning) fun w =>
    { w with request := some { mode := 1, from_ := 0, at_ := 8 } }
def liveMuzzledSlot : State := tTw liveRunning fun w => { w with guard := { w.guard with muzzled := true, cause := 4 } }
def liveSlotSettle : State := liveRunning.on (SP_STAT.BAUD_SETTLING 3)
def liveSlotFrame : State :=
  tTw liveRunning fun w => { w with bufs := [{ entry := 2, next := false, kind := 2, head := [1, 2, 3, 4], payload := [{ data := 0x41 }] }] }
def liveSyncSlot : State := tTw (liveRunning.setReg (SP_BAUD_ACT 3) 0x10000) fun w => { w with cyc := { w.cyc with start := 100000100000 } }
def liveSilent : State := tTw (liveRunning.wr (SF_SILENT.SILENT_CYC 3) 1) fun w => { w with addr := 3 }
/-- A character that was voted 10 µs ago. -/
def anItem : RxItem :=
  { chr := 0x41, perr := false, ferr := false, noise := false, stamp := 99999990000, tick := 99999990000, bit := 65536000, n := 10 }
def liveArrival : State :=
  tTw liveRunning fun w =>
    { w with asm := [anItem] }
def liveTwoMissed : State := liveJoined.wr (SF_STAT.MISS 3) 2
/-- The SYNC frame of cycle 9, mode 0, back to back at a bit time of 100 ns. -/
def syncItems : List RxItem :=
  let body : List Nat := [0xFF, 1, 0, 9, 0, 0, 0, 0] ++ List.replicate 10 0
  ((body ++ beBytes (crc16 body) 2).zipIdx).map (fun x =>
    { chr := x.1 + (if x.2 = 0 then 0x100 else 0), perr := false, ferr := false, noise := false, stamp := 99999900000 + 1100 * x.2,
      tick := 99999900000 + 1100 * x.2, bit := 6553600, n := 11 })
def liveSync : State := tTw (tSched .listen false) fun w => { w with frames := [(syncItems, false)] }
def liveFrame : State :=
  tTw (livePort.on (SP_STAT.FC_IGNORED 3)) fun w =>
    { w with phase := .listen, frames := [([anItem], false)] }
def liveLoad : State :=
  tTw livePort fun w =>
    { w with modes := [(1, { pend := some (tTable, 0, 99999999000) })],
             guard := { w.guard with loads := [(1, some (tTable, 100000000100))] } }
def liveAnchored : State :=
  tTw livePort fun w =>
    let g : Guardian := { copies := [(0, tTable)], valid := [0], g := 100000000000, k := 7, anchored := true }
    { w with guard := { g with ref := g.whole } }
def liveMuzzled : State := tTw livePort fun w => { w with guard := { w.guard with muzzled := true, cause := 4 } }
def liveIntrude : State := tTw liveRunning fun w => { w with lastEdge := some 100000299500 }

/-! ## Queues -/

/-- Queue 5 exists and is empty; its reset configuration is STOP with 1024 words. -/
def liveQ : State := tQueue live []
def liveQWord : State := tQueue live [{ data := 7 }, { data := 8, fin := true }]
/-- Queue 0, the one that nothing staged names, exists. -/
def liveQ0 : State := live.setQueue 0 { Queue.absent with ex := true, gen := 1 }

/-- The eddy store has blocks: the pool of channel D0. -/
def tPool (s : State) : State := { s with ledger := { s.ledger with eddy := { total := 8, free := 8, total0 := 8, free0 := 8 } } }
/-- Queue 5 holds 40 words, 16 of them in its head, the rest in its tail, and spills to the eddy store. -/
def liveSpill : State :=
  tPool (live.setQueue 5 { Queue.absent with ex := true, gen := 1, words := List.replicate 40 { data := 9 }, head := 16 })
/-- Queue 5 with a block b of 32 words in its middle. -/
def tBlock (b : Block) : State :=
  tPool (live.setQueue 5 { Queue.absent with ex := true, gen := 1, words := List.replicate 40 { data := 9 }, chain := [b], ledgerE := 1, depth := 2 })
def liveFlight : State := tBlock { pool := .eddy, fill := 16, flight := 16 }
def liveAway : State := tBlock { pool := .eddy, fill := 32 }
def liveReading : State := tBlock { pool := .eddy, fill := 32, buf := .reading 99999999000 none false false }
def liveBadPool : State := { live with ledger := { live.ledger with eddy := { live.ledger.eddy with total := 8, free := 7 } } }

/-! ## Time -/

/-- The time base of a device 50 s after the epoch, steered by its host. -/
def liveTime : State := { live with time := { cyc := 50000000000, tick := 50000000000 } }
def liveStep : State :=
  { liveTime with time := { liveTime.time with step := some { b := 51000000000, theta := 1000000000, src := 1, org := .host } } }
/-- Time-pulse output 2 in period mode. -/
def tTpo (t : Tpo) : State := liveTime.setTpo 2 { t with cfg := 1, width := 100, period := 1000 }
def livePulse : State := tTpo { active := some 50000000500, out := true, due := some 50000001000 }
def liveDue : State := tTpo { due := some 50000005000 }

/-! ## The chain -/

/-- Link 1 in state st, its partner and its credits there once it is up. -/
def tLink (s : State) (st : Nat) : State :=
  let s := (List.range 4).foldl (fun s v => s.setReg (LK_CRED_VC 1 v) 0x400040) (s.wr (LK_STAT.STATE 1) st)
  { s with links := [(1, { since := 1, split := [1024, 2560, 256, 256] })] }
def liveLink (st : Nat) : State := tLink live st
def aHello : Hello := { sn := 77, role := 2, link := 0, num := none, split := 0x04042810, slow := false }
def aCell : Cell := { vc := 0, src := 3, dst := 0, msg := .write 0 false 5 1 }
/-- Link 1 is up and CORE becalmed. -/
def liveLinkBecalm : State := { liveLink lkUp with stopped := { becalm := [.core] } }
def liveLinkUnnumbered : State := (liveLink lkUp).wr CH_CTRL.ROLE 2
/-- The root of a chain, device 3 behind link 1. -/
def liveRoot : State :=
  let s := (tLink live lkUp).wr CH_CTRL.ROLE 1 |>.setReg (CH_RTE 0) 0x40
  { s with chain := { s.chain with routed := [3], map := [(3, { sn := 77, present := true, hops := 1, parentLink := 1 })] } }
def liveProbes : State :=
  let s := liveRoot.on CH_STAT.ENUM_BUSY
  { s with chain := { s.chain with probes := [(0, 1), (0, 2)] } }
/-- Member 5, its uplink link 1. -/
def liveMember : State :=
  ((((tLink live lkUp).wr CH_CTRL.ROLE 2).on CH_STAT.NUMBERED).wr CH_STAT.DEVNUM 5).wr CH_STAT.UPLINK 1
def liveReads : State :=
  { liveRoot with chain := { liveRoot.chain with reads := [{ m := .host, dev := 3, off := 0, wide := false, at_ := 99999999000 }] } }
/-- s with queue 5 that forwards to queue 9 of device 3. -/
def tFwd (s : State) (f : Forwarder) : State :=
  s.setQueue 5 { Queue.absent with ex := true, gen := 1, cfg := { w4 := 0x80030009 }, words := [{ data := 7, fin := true }], head := 1, fwd := f }
def liveFwd : State := tFwd liveRoot {}
def liveGroup : State := tFwd liveRoot { groups := [{ seq := 0, pos := 0, words := [{ data := 6 }] }], nextSeq := 1 }
def liveReady : State := (live.on CK_STAT.REFCLK_OK).setReg CH_CTRL 2
/-- A device in release, waiting for the count of a chain-synchronous release. -/
def liveWaits : State := (((live.on CK_STAT.REFCLK_OK).setReg CH_CTRL 1).on RST_STAT.WAIT_COUNT).wr RST_STAT.PHASE 1

/-! ## Engines -/

/-- Slot 2 holds an image of KIND 1 with 4 timers, 8 queue ports, every flag and a watchdog. -/
def liveSlot : State :=
  let a := slotBase 2
  let bytes : Mem := [(a + 0xC, 7), (a + 0x34, 1), (a + 0x35, 4), (a + 0x36, 1), (a + 0x37, 4), (a + 0x38, 8), (a + 0x3A, 0xFF), (a + 0x40, 100)]
  { live with mem := { live.mem with slots := [(2, { len := 1000 })], scratch := bytes } }
/-- Engine 4 bound to slot 2, in state st, its group serving network port 1. -/
def tEng (st : Nat) (x : Engine) : State :=
  let s := ((liveSlot.on (CE_BIND.BIND_EN 4)).wr (CE_BIND.SLOT 4) 2).on (CE_BIND.NP_EN 4)
  (s.wr (CE_STAT.STATE 4) st).setEng 4 { x with slot := 2 }
def liveEngHalted : State := tEng ceHalted {}
def liveEngStarting : State := tEng ceStarting { started := true }
def liveEng : State := tEng ceRunning { started := true, wdog := some 99999990000 }
def liveEngAbort (ph : AbortPhase) : State := tEng ceAborting { phase := ph }
def tQport (s : State) : State := (s.on (CE_QPORT.BIND_EN 4 2)).wr (CE_QPORT.QID 4 2) 5
def liveEngQ : State := tQport (tQueue liveEng [])
def liveEngQWord : State := tQport (tQueue liveEng [{ data := 7 }, { data := 8, fin := true }])
/-- A frame of one granule for engine 4 waits on port 1. -/
def tFrame (f : RxFrame) : State := liveEng.setNet 1 { rx := [f], next := 4, seq := 1 }
def liveRx : State := tFrame { words := [1, 2, 3, 4], engine := 4, grans := [3], bytes := [], whole := true }
def liveRxTaken : State := tFrame { words := [1, 2, 3, 4], engine := 4, taken := true, grans := [3], bytes := [], whole := true }
def liveTimer : State := liveEng.setTimer 4 1 { armed := true, due := 100000000500, period := 1000 }
/-- Engine 4 is the engine that TB_SRCCFG names; then also declared and selected. -/
def liveTbEng : State := liveEng.wr TB_SRCCFG.ENG 4
def liveTbSteer : State := ((liveTbEng.on (CE_STAT.TB_VALID 4)).wr TB_STAT.SRC_SEL 2).wr TB_SRCCFG.PRIO 0x12
def liveLen : State := live.wr LD_LEN.LEN 232
/-- A load into slot 1 by the host. -/
def tLoad (st : Nat) (l : Loader) : State := { (live.wr LD_STAT.STATE st).wr LD_STAT.SLOT 1 with loader := l }
def liveLd : State := tLoad ldReceiving { owner := .host, len := 232 }
def liveDma : State := tLoad ldReceiving { owner := .host, len := 4, dma := true }
def liveVerify : State := tLoad ldVerifying { owner := .host, len := 8, staged := [1, 2, 3, 4, 5, 6, 7, 8] }

/-! ## Network ports -/

/-- Port 1 is enabled and served by engine 4, its link down; and up. -/
def liveNetDown : State := (liveEng.on (NP_CTRL.EN 1)).off (NP_CTRL.AN_EN 1)
def liveNet : State := (liveNetDown.on (NP_STAT.LINK_UP 1)).wr (NP_STAT.SPEED 1) 2
def liveNetAlone : State := liveNet.off (CE_BIND.NP_EN 4)
def aTx : TxFrame := { cls := 1, engine := some 4, bytes := List.replicate 60 7 }
def liveTxWait : State := liveNet.setNet 1 { waiting := [aTx] }
def liveWire : State := liveNet.setNet 1 { wire := some { frame := aTx, begun := 99999999000, stamp := 99999999000, coarse := false } }
/-- Port 1 is a mode-1 path to port 0, and engine 4 has an open frame. -/
def livePath : State :=
  ((liveNet.wr (NP_CT.MODE 1) 1).on (NP_STAT.LINK_UP 0)).setNet 1
    { rx := [{ words := [1, 2, 3, 4], engine := 4, taken := true, grans := [3], bytes := List.replicate 60 7, whole := true, choice := .open_ }],
      next := 4, seq := 1 }
/-- Port 1 has a gate list; and one that is to come. -/
def aList : GateList := { entries := [(1, 5000), (255, 5000)], cycle := 10000, cct := 100000000000 }
def liveGates : State := liveNet.setNet 1 { oper := aList }
def livePendGates : State := (liveNet.on (NP_GCL_CTRL.CC_PENDING 1)).setNet 1 { pend := some ({ aList with cct := 100000005000 }, .host) }

/-! ## The host interface -/

/-- The host's link is up; SQ2 and CQ1 are enabled, and entries 0 to 2 of SQ2 wait. -/
def tHost (s : State) : State :=
  let s := (((s.on HI_STAT.LINK_UP).on HI_STAT.BME).on FEAT_STAT.COMMITTED).wr RST_STAT.PHASE 8
  let s := (((s.wr (SQ_CFG.SIZE 2) 6).wr (SQ_CFG.CQ 2) 1).on (SQ_STAT.ENABLED 2)).wr (CQ_CFG.SIZE 1) 6
  let s := (s.on (CQ_STAT.ENABLED 1)).on (CQ_STAT.PHASE 1)
  { s with host := { s.host with tails := [(2, 3)] } }
def liveHost : State := tHost (tQueue live [])
/-- An entry of opcode op. -/
def entryOf (op tag target len : Nat) (arg : Nat := 0) : List Word :=
  [BitVec.ofNat 32 (op + tag * 65536), 0, BitVec.ofNat 32 target, BitVec.ofNat 32 len, 0x1000, 0, 0, BitVec.ofNat 32 arg] ++ List.replicate 8 0
def cmdOf (e : List Word) : Cmd := { tag := entryTag e, ring := 2, entry := e }
def tCmd (s : State) (c : Cmd) : State :=
  { s with host := { s.host with cmds := [c] }, ledger := { s.ledger with issued := 1 } }
def liveCmd (e : List Word) : State := tCmd liveHost (cmdOf e)
def liveCmdQ (e : List Word) : State := tCmd (tHost (tQueue live [{ data := 7 }, { data := 8, fin := true }])) (cmdOf e)
def liveHostEng : State := tHost liveEng
def liveCall (c : Cmd) : State := tCmd liveHostEng c
def liveWaiting : State := tCmd (tHost (tQueue live [{ data := 7 }])) { cmdOf (entryOf 2 7 5 4) with started := true, waits := some 99999990000 }
/-- A completion for CQ1 is held. -/
def aDone : Completion := { source := 1, cq := 1, tag := 7, status := 0, sq := 2, dev := 0, stamp := 99999999000, stepSeq := 0 }
def liveHeld : State := { liveHost with host := { liveHost.host with held := [aDone] } }
def liveCoalesce : State :=
  ((((liveHost.setRegBit (FEAT_ACCEPT 0) 1 true).wr (CQ_COAL.COUNT 1) 4).on (CQ_CFG.IEN 1)).setCq 1 { written := 2, unsent := 2, since := 99999990000 })

/-! ## Configuration -/

def aCfLoad : CfgLoad := { org := .host, code := 1, src := .stream, len := 4100 }
def tCf (c : CfgSys) : State := { live with cfg := c }
def liveCf : State := tCf { load := some aCfLoad }
def liveCfWhole : State := tCf { load := some { aCfLoad with bytes := List.replicate 4100 0 } }
def aCommit : Commit := { load := aCfLoad, image := [], first := false, todo := [11] }
def liveCommit : State := tCf { commit := some aCommit }
def liveCommitEnd : State := tCf { commit := some { aCommit with todo := [] } }
def liveSection : State := tCf { commit := some { aCommit with now := 11, todo := [12] } }
def liveReload (structural : Bool) (drained : Option Nat) : State :=
  tPort { livePort with cfg := { commit := some { aCommit with now := 5, todo := [] } } } fun p => { p with reload := some { structural := structural, since := 0, drained := drained, words := [(SP_BREAK 3, 5)] } }
def liveRoute : State := { live with eic := { live.eic with waiting := [{ src := 300, v := 0, targets := [2], own := false, since := 0 }] } }

/-! ## The calm port -/

def tx (addr : Word) (len : Half) : CalmTx := { crcOk := true, addr := addr, len := len, after := 0 }
def tCalm (f : CalmSys → CalmSys) : State := { live with calm := f live.calm }
def aWork : PlaneWork := { opc := 0x22, addr := 0x10003, arg := 0, left := 1024, total := 1024, org := .calm, since := 99999990000 }
def liveWork : State := tCalm fun c => { c with work := some aWork }
def liveMail : State := tCalm fun c => { c with work := some { aWork with mail := true } }
def liveBuf : State := tCalm fun c => { c with buf := [(0, 1)], bufValid := true }
def liveNotes : State := tCalm fun c => { c with notes := [{ opc := 0x22, addr := 0x10003, arg := 0, at_ := 99999990000, org := .calm }] }
def livePosted : State := tCalm fun c => { c with posted := [(BitVec.ofNat 32 LD_LEN, 300)] }
def liveWant : State := tCalm fun c => { c with want := some (BitVec.ofNat 32 LD_LEN, 1, 0) }
def liveRecovery : State := live.setReg ID_RCFG 8
def liveFuse : State := ({ live with calm := { live.calm with fuse := some (100, 5, .calm) } } : State).on CP_FUSESTAT.BUSY

/-- Slot 1 of the store is SEALED with an image of 4100 bytes, and is the members' slot. -/
def tSealed (s : State) : State :=
  let d := sealedRecord [0x44535757, 2, 4100]
  let h := sealedRecord [0x48535757, 1, 0, 0x13210]
  { s with calm := { s.calm with store := memSetBytes (memSetBytes [] (sector511 0 0xE00) h) (sector511 1 0xF00) d } }
def liveSealed : State := { tSealed live with calm := { (tSealed live).calm with boot := some { slots := [1], all := [1] } } }
def liveBootFailed : State := tCalm fun c => { c with boot := some { slots := [], all := [1], slot := some 1, failed := some 4 } }
def liveBootMember : State := (liveMember.setReg ID_RCFG 9).wr CP_BOOTSTAT.STATE 3
def liveRootSealed : State := tSealed liveRoot

/-! ## Interrupts -/

/-- Source 300 is pending and routed to target 0. -/
def liveEligible : State :=
  let s := ((live.on (EIC_SRC_CFG.EN 300)).wr (EIC_SRC_CFG.TMASK 300) 1).on (EIC_TCFG.BREEZE_EN 0)
  s.setGate 300 { st := .pending, bySoft := true }

/-! ## Clocks, reset and power -/

/-- A becalm that is ready to end and waits for its acknowledgement. -/
def liveAck : State :=
  let s := ((live.on CK_STAT.BECALM).on CK_STAT.BECALM_READY).on CK_STAT.ACK_WAIT
  { s with stopped := { s.stopped with becalm := [.core, .hser, .nser, .port] }, clk := { s.clk with forced := true } }
/-- RESET_N is low. -/
def liveLow : State := { live with rst := { live.rst with low := true, monAt := 0 } }
/-- A release before its first step; and before its last. -/
def liveAon : State := ({ State.reset with rst := { State.reset.rst with por := false, toRelease := false } } : State).on CK_STAT.REFCLK_OK
def livePhase6 : State := { live.wr RST_STAT.PHASE 6 with rst := { live.rst with bring := 2 } }
/-- On the way to STILL; in STILL, source 0 enabled to wake; and on the way out of it. -/
def liveEntering : State := { live.wr PW_STAT.STATE 2 with rst := { live.rst with entered := 3 } }
def liveStill : State := { (live.wr PW_STAT.STATE 3).setReg PW_WAKE_EN 1 with rst := { live.rst with entered := 6 }, stopped := { power := [.core, .port, .hser, .nser, .ddr] } }
def liveLeaving : State := { live.wr PW_STAT.STATE 4 with rst := { live.rst with exitStep := 6 } }
/-- Bank 16 goes to OFF. -/
def liveChanging : State := { (live.setReg (MEM_BANK 1) 2).setBank 16 3 with mem := { live.mem with changing := [(16, 2)] } }
/-- States and operands that meet the hypotheses of StepRunsTheFrontCommand. -/
theorem witness_StepRunsTheFrontCommand :
    (∃ (c : Instr) (rest : List Instr) (s : State), s.pending = c :: rest) ∧
    (∃ s : State, s.pending = []) :=
  ⟨⟨.clrErr, [.bufClr], { State.reset with pending := [.clrErr, .bufClr] }, rfl⟩,
    ⟨State.reset, rfl⟩⟩

/-- States and operands that meet the hypotheses of EveryStepKeepsTheTables. -/
theorem witness_EveryStepKeepsTheTables :
    (∃ s t : State, s.canon = true ∧ s.memOk = true ∧ step s = .next t) :=
  ⟨State.reset, State.reset.tick1, by decide, by decide, rfl⟩

/-- States and operands that meet the hypotheses of NoStepClearsAFuseOrTakesBackAnOutput. -/
theorem witness_NoStepClearsAFuseOrTakesBackAnOutput :
    (∃ s t : State, s.canon = true ∧ step s = .next t) :=
  ⟨State.reset, State.reset.tick1, by decide, rfl⟩

/-- States and operands that meet the hypotheses of FalseStartsAreDiscarded. -/
theorem witness_FalseStartsAreDiscarded :
    (∃ (s : State) (p : Fin 16), s.canon = true ∧
      ((s.port p).rxChar.isSome = true) ∧
      (({ s with ports := tabPut Port.reset s.ports p { s.port p with rxChar := none } } : State).hunting p = true ∧ (s.port p).abAfter = false)) ∧
    (∃ (s : State) (p : Fin 16) (samples : List (BitVec 3)), s.canon = true ∧
      ((s.port p).rxChar.isSome = true ∧ vote (samples.getD 0 7) = true) ∧
      (({ s with ports := tabPut Port.reset s.ports p { s.port p with rxChar := none } } : State).hunting p = true ∧ (s.port p).abAfter = false)) :=
  ⟨⟨liveChar, 3, by decide +kernel⟩,
    ⟨liveChar, 3, [7], by decide +kernel⟩⟩

/-- States and operands that meet the hypotheses of TheErrBitSendsAFault. -/
theorem witness_TheErrBitSendsAFault :
    (∃ f : CharFmt, f.parity ≠ 0) ∧
    (∃ f : CharFmt, f.parity = 0) :=
  ⟨⟨frameFmt 0x18, by decide⟩,
    ⟨frameFmt 0, by decide⟩⟩

/-- States and operands that meet the hypotheses of RegisterAccessesComplete. -/
theorem witness_RegisterAccessesComplete :
    (∃ (s : State) (m : Master) (off : BitVec 24) (_v : Word), s.canon = true ∧
      (busMaster m = true) ∧
      (0x80000 ≤ off.toNat ∧ off.toNat < 0x90000) ∧
      ([SP_BAUD 0, SP_DE_PRE 0, SP_DE_POST 0, SP_ECHO 0, SP_BREAK 0, SP_ADDR 0, SP_PKT 0, SP_PKT_TERM 0, SP_RXSTAMP_CFG 0, SP_TXARB 0, SP_EVT_EN 0, SP_TEVT_EN 0].contains (0x80000 + off.toNat % 0x1000) = true) ∧
      (s.committed = true ∧ s.cfg.commit = none ∧ s.configFull = false ∧ s.waitsRoom m.origin = false) ∧
      (s.rst.request = none ∧ s.rst.asked = none)) ∧
    (∃ (s : State) (_m : Master) (_q : QRef) (_v : Word), s.canon = true) ∧
    (∃ (s : State) (m : Master) (off : BitVec 24), s.canon = true ∧
      (busMaster m = true) ∧
      (off.toNat = TB_TIME_NS)) ∧
    (∃ (s : State) (m : Master) (off : BitVec 24), s.canon = true ∧
      (busMaster m = true) ∧
      (off.toNat % 4 = 0 ∧ (wideAt off.toNat).map (·.2) = some false)) ∧
    (∃ (s : State) (m : Master) (off : BitVec 24), s.canon = true ∧
      (busMaster m = true ∧ s.committed = true) ∧
      (0x80000 ≤ off.toNat ∧ off.toNat < 0x400000 ∧ off.toNat % 4 = 0 ∧ wideAt off.toNat = none) ∧
      ((regRow? off.toNat).any fun r => decide (True ∧
      (r.rc ≠ 0)) = true)) :=
  ⟨⟨live, .host, (BitVec.ofNat 24 (SP_BREAK 15)), 0xFFFFFFFF, by decide +kernel⟩,
    ⟨live, .host, .log, 7, by decide +kernel⟩,
    ⟨live, .calm, (BitVec.ofNat 24 TB_TIME_NS), by decide +kernel⟩,
    ⟨live, .host, (BitVec.ofNat 24 TB_TIME_SH), by decide +kernel⟩,
    ⟨live, .host, (BitVec.ofNat 24 (SP_CNT_NOISE 3)), by decide +kernel⟩⟩

/-- States and operands that meet the hypotheses of ReceiveStartsAndVotes. -/
theorem witness_ReceiveStartsAndVotes :
    (∃ (s : State) (p : Fin 16), s.canon = true ∧
      ((s.rxdEdge p true).any fun e => decide (True ∧
      (e.1.hunting p = true ∧ s.bit (SP_STAT.BAUD_SETTLING p) = false ∧ (s.port p).masked = false) ∧
      ((e.1.port p).markSeen e.2.2 = true ∧ s.twRuns p = false)) = true)) ∧
    (∃ (s : State) (p : Fin 16), s.canon = true ∧
      ((s.rxdEdge p true).any fun e => decide (True ∧
      (e.1.hunting p = true ∧ (s.port p).masked = false ∧ s.bit (SP_STAT.BAUD_SETTLING p) = true)) = true)) ∧
    (∃ (s : State) (p : Fin 16), s.canon = true ∧
      ((s.port p).rxChar.isSome = true)) ∧
    (∃ (s : State) (p : Fin 16) (samples : List (BitVec 3)), s.canon = true ∧
      (((s.port p).rxChar).any fun ch => decide (True ∧
      (vote (samples.getD 0 7) = true)) = true)) ∧
    (∃ (s : State) (p : Fin 16) (samples : List (BitVec 3)), s.canon = true ∧
      (((s.port p).rxChar).any fun ch => decide (True ∧
      (vote (samples.getD 0 7) = false ∧ (samples.all (fun b => b == 0)) = false ∧ samples.length = (frameFmt ch.fmt.frame).len) ∧
      (s.bit (SP_CTRL.LOOPBACK p) = false ∧ ch.gone = false ∧ s.twRuns p = false ∧ s.bit (SP_STAT.HOLD_FULL p) = false ∧ s.bit (SP_ECHO.ECHO_EN p) = false) ∧
      (s.bit (SP_FLOW.XTX_EN p) = false ∧ s.rd (SP_ADDR.ADDR_MODE p) = 0 ∧ s.rd (SP_PKT.GAP16 p) ≠ 0) ∧
      (s.rd (SP_PKT.PKT_LEN p) = 0 ∧ s.bit (SP_PKT_TERM.TERM_EN p) = false)) = true)) :=
  ⟨⟨livePort, 3, by decide +kernel⟩,
    ⟨(livePort.on (SP_STAT.BAUD_SETTLING 3)), 3, by decide +kernel⟩,
    ⟨liveChar, 3, by decide +kernel⟩,
    ⟨liveChar, 3, [7], by decide +kernel⟩,
    ⟨liveChar, 3, [0, 7, 0, 7, 0, 7, 0, 0, 7, 7], by decide +kernel⟩⟩

/-- States and operands that meet the hypotheses of LineConditionsComplete. -/
theorem witness_LineConditionsComplete :
    (∃ (s : State) (p : Fin 16), s.canon = true ∧
      (((s.port p).rxChar.isSome = true ∨ (s.port p).watch.isSome = true) ∧ s.bit (SP_CTRL.LOOPBACK p) = false)) ∧
    (∃ (s : State) (p : Fin 16), s.canon = true ∧
      ((s.port p).brk.isSome = true ∧ (s.port p).masked = false ∧ (s.rxdEdge p false).isSome = true)) ∧
    (∃ (s : State) (p : Fin 16), s.canon = true ∧
      ((s.port p).brk.isSome = true) ∧
      (s.rd (SP_BREAK.STUCK_MS p) ≠ 0 ∧ s.bit (SP_STAT.LINE_STUCK p) = false)) ∧
    (∃ (s : State) (p : Fin 16) (_mark : Bool), s.canon = true ∧
      ((s.port p).maskEnd.isSome = true)) ∧
    (∃ (s : State) (p : Fin 16), s.canon = true ∧
      ((s.port p).brk = none ∧ (s.port p).rxChar = none ∧ (s.port p).masked = false ∧ (s.rxdEdge p false).isSome = true)) :=
  ⟨⟨liveChar, 3, by decide +kernel⟩,
    ⟨liveBreak, 3, by decide +kernel⟩,
    ⟨(liveBreak.wr (SP_BREAK.STUCK_MS 3) 5), 3, by decide +kernel⟩,
    ⟨liveMask, 3, false, by decide +kernel⟩,
    ⟨livePort, 3, by decide +kernel⟩⟩

/-- States and operands that meet the hypotheses of SerialSettingsComplete. -/
theorem witness_SerialSettingsComplete :
    (∃ (s : State) (_o : Origin) (p : Fin 16) (_en : Bool) (_mark : Bool), s.canon = true ∧
      (s.regExists (SP_CTRL p) = true)) ∧
    (∃ (s : State) (_o : Origin) (p : Fin 16) (_en : Bool), s.canon = true ∧
      (s.regExists (SP_CTRL p) = true)) ∧
    (∃ (s : State) (_o : Origin) (p : Fin 16) (_v : Word), s.canon = true ∧
      (s.regExists (SP_BAUDCFG p) = true)) ∧
    (∃ (s : State) (p : Fin 16), s.canon = true ∧
      (((s.port p).rate).any fun r => decide (True ∧
      ((s.port p).rxChar = none ∧ (s.port p).cand = none) ∧
      (s.bit (SP_STAT.BAUD_SETTLING p) = false ∧ s.twRuns p = false ∧ s.runs .port = true)) = true)) ∧
    (∃ (s : State) (p : Fin 16), s.canon = true ∧
      (s.bit (SP_STAT.BAUD_SETTLING p) = true)) ∧
    (∃ (s : State) (p : Fin 16) (tx : Bool), s.canon = true ∧
      (tx = true ∨ (s.port p).rxChar = none)) ∧
    (∃ (s : State) (_o : Origin) (p : Fin 16) (_apply : Bool), s.canon = true ∧
      (s.regExists (SP_AUTOBAUD p) = true ∧ (s.port p).rxChar = none)) ∧
    (∃ (s : State) (p : Fin 16), s.canon = true ∧
      ((s.rxdEdge p (s.port p).markSince.isSome).any fun e => decide (True ∧
      (s.bit (SP_STAT.WARMING p) = true ∧ s.runs .port = true ∧ (s.port p).masked = false ∧ (s.port p).abEdges.length < 7)) = true)) ∧
    (∃ (s : State) (_o : Origin) (p : Fin 16), s.canon = true ∧
      (s.regExists (SP_AUTOBAUD p) = true)) ∧
    (∃ (s : State) (_o : Origin) (p : Fin 16) (b : Fin 7) (_v : Word), s.canon = true ∧
      (s.regExists (bindingReg p b) = true)) ∧
    (∃ (s : State) (_m : Master) (p : Fin 16) (_v : Word), s.canon = true ∧
      (s.regExists (SP_STR_SEL p) = true) ∧
      (tabWf (fun _ => (0, 0)) (s.port p).strangers = true)) ∧
    (∃ (s : State) (p : Fin 16), s.canon = true ∧
      ((s.port p).gapAt.isSome = true ∧ (s.port p).rxChar = none ∧ s.runs .port = true)) :=
  ⟨⟨livePort, .host, 3, false, true, by decide +kernel⟩,
    ⟨livePort, .calm, 3, true, by decide +kernel⟩,
    ⟨livePort, .host, 3, 0x21, by decide +kernel⟩,
    ⟨liveRate, 3, by decide +kernel⟩,
    ⟨(livePort.on (SP_STAT.BAUD_SETTLING 3)), 3, by decide +kernel⟩,
    ⟨livePort, 3, true, by decide +kernel⟩,
    ⟨livePort, .host, 3, true, by decide +kernel⟩,
    ⟨(livePort.on (SP_STAT.WARMING 3)), 3, by decide +kernel⟩,
    ⟨livePort, .host, 3, by decide +kernel⟩,
    ⟨livePort, .host, 3, 6, 0x80000005, by decide +kernel⟩,
    ⟨livePort, .host, 3, 0x40000007, by decide +kernel⟩,
    ⟨liveGap, 3, by decide +kernel⟩⟩

/-- States and operands that meet the hypotheses of TransmitComplete. -/
theorem witness_TransmitComplete :
    (∃ (s : State) (p : Fin 16), s.canon = true ∧
      (s.txOn p = true ∧ s.runs .core = true ∧ (s.port p).reload = none ∧ (s.port p).prefetch = [] ∧ (s.port p).discardq = none) ∧
      ((s.port p).launchCount < 4) ∧
      ((s.txChoose p).any fun k => decide (True ∧
      ((s.boundQueue (SP_QTX p k)).any fun q => decide (True ∧
      ((s.wordAt q).any fun w => decide (True ∧
      (txCtrl w < 2 ∧ (s.queue q).anyTorn = false)) = true)) = true)) = true)) ∧
    (∃ (s : State) (p : Fin 16), s.canon = true ∧
      (s.twRuns p = false ∧ s.txOn p = true ∧ s.txHeld p false = false ∧ (s.port p).xpend = [] ∧ s.deReady p = true) ∧
      ((s.txNext p).any fun i => decide (True ∧
      (txCtrl i.word ≠ 1 ∧ (s.bit (SP_TXARB.LAUNCH_GUARD p) = false ∨ (s.port p).launchCount = 0))) = true)) ∧
    (∃ (s : State) (p : Fin 16), s.canon = true ∧
      (s.twRuns p = false ∧ s.txOn p = true ∧ s.txHeld p false = false ∧ (s.port p).xpend = [] ∧ s.deReady p = true) ∧
      ((s.txNext p).any fun i => decide (True ∧
      (txCtrl i.word = 1 ∧ (s.bit (SP_TXARB.LAUNCH_GUARD p) = false ∨ (s.port p).launchCount = 0))) = true)) ∧
    (∃ (s : State) (p : Fin 16), s.canon = true ∧
      (((s.port p).xpend.head?).any fun stop => decide (True ∧
      (s.txOn p = true ∧ s.txHeld p true = false ∧ s.deReady p = true)) = true)) ∧
    (∃ (s : State) (p : Fin 16), s.canon = true ∧
      (s.twRuns p = false ∧ s.lineMode p = 2 ∧ (s.port p).de = false ∧ s.txWants p = true)) ∧
    (∃ (s : State) (p : Fin 16), s.canon = true ∧
      ((s.port p).de = true ∧ (s.port p).deHold = none ∧ s.txWants p = false ∧ s.twRuns p = false) ∧
      ((s.tw p).chars = [] ∧ (s.tw p).raised = false)) ∧
    (∃ (s : State) (p : Fin 16), s.canon = true ∧
      ((s.port p).deHold.isSome = true)) ∧
    (∃ (s : State) (_p : Fin 16) (_low : Bool), s.canon = true) ∧
    (∃ (s : State) (p : Fin 16) (low : Bool), s.canon = true ∧
      (s.bit (SP_FLOW.CTS_EN p) = true ∧ s.txOn p = true ∧ low = (s.port p).txFmt.line.getLsbD 7) ∧
      ((s.port p).txEnd ≤ s.time.tick * 65536 ∧ (s.txNext p).isSome = true ∧ s.txBarred p false = false)) ∧
    (∃ (s : State) (p : Fin 16), s.canon = true ∧
      (((s.port p).echoes.head?).any fun e => decide (True ∧
      (e.matched = false ∧ s.echoOpen p e = false ∧ s.bit (SP_ECHO.ECHO_EN p) = true ∧ s.echoBlind p = false ∧ s.twRuns p = false)) = true)) ∧
    (∃ (s : State) (_o : Origin) (p : Fin 16), s.canon = true ∧
      (s.regExists (SP_CTRL p) = true)) :=
  ⟨⟨liveTx, 3, by decide +kernel⟩,
    ⟨liveItem, 3, by decide +kernel⟩,
    ⟨liveBrkItem, 3, by decide +kernel⟩,
    ⟨liveXoff, 3, by decide +kernel⟩,
    ⟨liveDe, 3, by decide +kernel⟩,
    ⟨liveDeUp, 3, by decide +kernel⟩,
    ⟨liveDeHold, 3, by decide +kernel⟩,
    ⟨livePort, 3, false, by decide +kernel⟩,
    ⟨(liveItem.on (SP_FLOW.CTS_EN 3)), 3, false, by decide +kernel⟩,
    ⟨liveEcho, 3, by decide +kernel⟩,
    ⟨livePort, .host, 3, by decide +kernel⟩⟩

/-- States and operands that meet the hypotheses of LaunchesComplete. -/
theorem witness_LaunchesComplete :
    (∃ (s : State) (p : Fin 16), s.canon = true ∧
      (((s.port p).prefetch.head?).any fun i => decide (True ∧
      (tabWf (fun _ => none) (s.port p).launches = true) ∧
      (txCtrl i.word = 2 ∧ i.times.length = 2 ∧ (s.port p).launch i.q = none)) = true)) ∧
    (∃ (s : State) (p : Fin 16) (k : Fin 4), s.canon = true ∧
      (((s.port p).launch k).any fun l => decide (True ∧
      (tabWf (fun _ => none) (s.port p).launches = true) ∧
      (l.far = true)) = true)) ∧
    (∃ (s : State) (p : Fin 16) (k : Fin 4), s.canon = true ∧
      (((s.port p).launch k).any fun l => decide (True ∧
      (tabWf (fun _ => none) (s.port p).launches = true) ∧
      (s.onTime p k l = true ∧ ((s.port p).de = false ∨ (s.port p).deFor ≠ some k.val))) = true)) ∧
    (∃ (s : State) (p : Fin 16) (k : Fin 4), s.canon = true ∧
      (((s.port p).launch k).any fun l => decide (True ∧
      (tabWf (fun _ => none) (s.port p).launches = true) ∧
      (s.txOn p = true ∧ l.far = false ∧ s.txHeld p false = false ∧ (s.port p).xpend = [] ∧ l.behind = none ∧ s.onTime p k l = false)) = true)) :=
  ⟨⟨liveLaunchItem, 3, by decide +kernel⟩,
    ⟨liveFar, 3, 1, by decide +kernel⟩,
    ⟨liveLaunch, 3, 1, by decide +kernel⟩,
    ⟨liveLate, 3, 1, by decide +kernel⟩⟩

/-- States and operands that meet the hypotheses of ScheduleStartsAndStops. -/
theorem witness_ScheduleStartsAndStops :
    (∃ (s : State) (_o : Origin) (p : Fin 16), s.canon = true ∧
      (s.regExists (TW_CTRL p) = true) ∧
      ((s.tw p).phase = .off)) ∧
    (∃ (s : State) (p : Fin 16), s.canon = true ∧
      ((s.tw p).role = true ∧ (s.tw p).phase = .listen)) ∧
    (∃ (s : State) (p : Fin 16), s.canon = true ∧
      ((s.tw p).phase = .starting)) ∧
    (∃ (s : State) (p : Fin 16) (flips : List (Fin 777 × Word)), s.canon = true ∧
      ((s.tw p).phase = .running ∧ (s.tw p).role = true ∧ s.runs .port = true ∧ flips = []) ∧
      ((s.tw p).stop = false ∧ (s.tw p).restart = false ∧ (s.port p).reload = none ∧ (s.port p).brk = none) ∧
      ((s.tw p).sending = none ∧ (s.tw p).bufs = [] ∧ (s.tw p).request = none)) ∧
    (∃ (s : State) (_o : Origin) (p : Fin 16), s.canon = true ∧
      (s.regExists (TW_CTRL p) = true) ∧
      ((s.tw p).cycling = true)) :=
  ⟨⟨livePort, .host, 3, by decide +kernel⟩,
    ⟨liveListen, 3, by decide +kernel⟩,
    ⟨liveStarting, 3, by decide +kernel⟩,
    ⟨liveRunning, 3, [], by decide +kernel⟩,
    ⟨liveRunning, .host, 3, by decide +kernel⟩⟩

/-- States and operands that meet the hypotheses of ModeSwitchesComplete. -/
theorem witness_ModeSwitchesComplete :
    (∃ (s : State) (_o : Origin) (p : Fin 16) (_modes : BitVec 4), s.canon = true ∧
      (s.regExists (TW_TCOMMIT p) = true) ∧
      (tabWf (fun _ => {}) (s.tw p).modes = true)) ∧
    (∃ (s : State) (_o : Origin) (p : Fin 16) (_v : Word), s.canon = true ∧
      (s.regExists (TW_SWITCH p) = true) ∧
      ((s.tw p).role = false ∨ (s.tw p).phase ≠ .running)) ∧
    (∃ (s : State) (_o : Origin) (p : Fin 16) (v : Word), s.canon = true ∧
      (s.regExists (TW_SWITCH p) = true) ∧
      ((s.tw p).role = true ∧ (s.tw p).phase = .running ∧ (s.tw p).request = none ∧ (s.tw p).decided = none) ∧
      (fldOf (TW_SWITCH.NEXT_MODE p) v ≠ (s.tw p).cyc.mode)) ∧
    (∃ (s : State) (p : Fin 16), s.canon = true ∧
      (((s.tw p).request).any fun r => decide (True ∧
      ((s.tw p).phase = .running ∧ r.at_ = ((s.tw p).cyc.k + 1) % 0x10000 ∧ (s.tw p).heldSwitch = none) ∧
      ((List.range 8).all (fun i => s.reg (TW_ACK_SEEN p i) == 0xFFFFFFFF) = true)) = true)) :=
  ⟨⟨livePort, .host, 3, 3, by decide +kernel⟩,
    ⟨livePort, .host, 3, 1, by decide +kernel⟩,
    ⟨liveRunning, .host, 3, 1, by decide +kernel⟩,
    ⟨liveDecide, 3, by decide +kernel⟩⟩

/-- States and operands that meet the hypotheses of SlotsComplete. -/
theorem witness_SlotsComplete :
    (∃ (s : State) (p : Fin 16) (e : Fin 64), s.canon = true ∧
      ((s.slotToCommit p e).any fun c => decide (True ∧
      ((s.tw p).ownsIn c.1 c.2.1 = true ∧ s.runs .port = true ∧ c.2.2 = false) ∧
      ((s.tw p).guard.muzzled = true ∧ (s.tw p).forfeit = false ∧ (s.tw p).bufs = [])) = true)) ∧
    (∃ (s : State) (p : Fin 16) (e : Fin 64), s.canon = true ∧
      ((s.slotToCommit p e).any fun c => decide (True ∧
      ((s.tw p).role = true ∧ (s.tw p).phase = .running ∧ s.runs .port = true ∧ c.2.2 = false ∧ c.2.1.kind = 1) ∧
      ((s.tw p).guard.muzzled = false ∧ (s.tw p).forfeit = false ∧ (s.tw p).bufs = [] ∧ s.slotFits p 20 c.2.1 = true)) = true)) ∧
    (∃ (s : State) (p : Fin 16) (e : Fin 64) (_edge : Bool), s.canon = true ∧
      ((s.tw p).cycling = true ∧ ((s.tw p).cyc.table.entry e).en = true ∧ (s.tw p).owns ((s.tw p).cyc.table.entry e) = true) ∧
      (s.runs .port = true ∧ (s.tw p).waiting = [] ∧ (s.tw p).sending = none) ∧
      ((s.tw p).bufs = [] ∧ s.bit (SP_STAT.BAUD_SETTLING p) = true)) ∧
    (∃ (s : State) (p : Fin 16) (e : Fin 64) (_edge : Bool), s.canon = true ∧
      (((s.tw p).bufs.head?).any fun b => decide (True ∧
      ((s.tw p).cycling = true ∧ ((s.tw p).cyc.table.entry e).en = true ∧ (s.tw p).owns ((s.tw p).cyc.table.entry e) = true) ∧
      (s.runs .port = true ∧ (s.tw p).waiting = [] ∧ (s.tw p).sending = none ∧ b.entry = e.val ∧ b.next = false ∧ b.kept = false) ∧
      (s.bit (SP_STAT.BAUD_SETTLING p) = false ∧ s.bit (SP_CTRL.TX_PAUSE p) = false ∧ (s.tw p).forfeit = false ∧ (s.tw p).guard.muzzled = false) ∧
      ((s.tw p).role = true ∧ ((s.tw p).cyc.table.entry e).kind = 2 ∧ (s.tw p).elder b = none ∧ s.frameFits p ((s.tw p).cyc.table.entry e) b = true) ∧
      (b.head ≠ [])) = true)) ∧
    (∃ (s : State) (p : Fin 16) (e : Fin 64), s.canon = true ∧
      ((s.tw p).cycling = true ∧ ((s.tw p).cyc.table.entry e).en = true ∧ s.runs .time = true)) ∧
    (∃ (s : State) (p : Fin 16) (e : Fin 64), s.canon = true ∧
      ((some ((s.tw p).cyc.table.entry e)).any fun x => decide (True ∧
      (tabWf (fun _ => 0) (s.tw p).silent = true) ∧
      ((s.tw p).role = true ∧ (s.tw p).phase = .running ∧ x.en = true ∧ x.kind = 2 ∧ (s.tw p).asm = [] ∧ (s.tw p).frames = [] ∧ (s.tw p).bufs = []) ∧
      ((s.tw p).pkt = none ∧ (s.expected p (s.tw p).cyc.table).contains x.owner = true ∧ 0 < s.rd (SF_SILENT.SILENT_CYC p)) ∧
      ((s.tw p).cyc.table.slots.all (fun y => y.2.kind == 4 || y.2.kind != 2 || y.2.owner != x.owner || decide (y.2.start ≤ x.start)) = true) ∧
      ((s.tw p).cyc.table.slots.all (fun y => y.2.kind != 4) = true)) = true)) ∧
    (∃ (s : State) (p : Fin 16) (e : Fin 64), s.canon = true ∧
      ((s.tw p).cycling = true ∧ ((s.tw p).cyc.table.entry e).en = true ∧ ((s.tw p).asm ≠ [] ∨ (s.tw p).frames ≠ []) ∧ (s.tw p).bufs = [])) ∧
    (∃ (s : State) (p : Fin 16), s.canon = true ∧
      (((s.tw p).frames.head?).any fun f => decide (True ∧
      (s.twRuns p = true ∧ (s.tw p).frames = [f] ∧ (s.tw p).pkt = none ∧ (s.verdict p f.1 f.2).1 ≠ 0)) = true)) ∧
    (∃ (s : State) (p : Fin 16), s.canon = true ∧
      (((s.tw p).frames.head?).any fun f => decide (True ∧
      ((((s.tw p).mode (fieldOf (f.1.map (fun i => i.chr % 256)) 4 1)).run.sync).any fun e => decide (True ∧
      (s.twRuns p = true ∧ (s.tw p).role = false ∧ (s.tw p).phase = .listen ∧ (s.tw p).frames = [f] ∧ (s.tw p).asm = [] ∧ (s.tw p).align = false) ∧
      ((s.verdict p f.1 f.2).1 = 0 ∧ (f.1.map (fun i => i.chr % 256)).getD 4 0 < 4)) = true)) = true)) ∧
    (∃ (s : State) (p : Fin 16), s.canon = true ∧
      (((s.tw p).cyc.table.sync).any fun e => decide (True ∧
      ((s.tw p).role = false ∧ (s.tw p).cyc.syncOk = false ∧ (s.tw p).phase = .joined ∧ (s.tw p).awaitSync = false) ∧
      (s.bit (SF_STAT.BUS_DEAD p) = false ∧ s.rd (SF_STAT.MISS p) < 2)) = true)) ∧
    (∃ (s : State) (p : Fin 16), s.canon = true ∧
      (((s.tw p).cyc.table.sync).any fun e => decide (True ∧
      ((s.tw p).role = false ∧ (s.tw p).cyc.syncOk = false ∧ (s.tw p).phase = .joined ∧ (s.tw p).awaitSync = false) ∧
      (s.bit (SF_STAT.BUS_DEAD p) = false ∧ s.rd (SF_STAT.MISS p) = 2 ∧ (s.port p).de = false)) = true)) :=
  ⟨⟨liveMuzzledSlot, 3, 2, by decide +kernel⟩,
    ⟨liveSyncSlot, 3, 0, by decide +kernel⟩,
    ⟨liveSlotSettle, 3, 2, false, by decide +kernel⟩,
    ⟨liveSlotFrame, 3, 2, false, by decide +kernel⟩,
    ⟨liveRunning, 3, 0, by decide +kernel⟩,
    ⟨liveSilent, 3, 2, by decide +kernel⟩,
    ⟨liveArrival, 3, 2, by decide +kernel⟩,
    ⟨liveFrame, 3, by decide +kernel⟩,
    ⟨liveSync, 3, by decide +kernel⟩,
    ⟨liveJoined, 3, by decide +kernel⟩,
    ⟨liveTwoMissed, 3, by decide +kernel⟩⟩

/-- States and operands that meet the hypotheses of GuardianComplete. -/
theorem witness_GuardianComplete :
    (∃ (s : State) (p : Fin 16) (m : Fin 4) (upset : Word), s.canon = true ∧
      ((tabGet (fun _ => (none : Option (TwTable × Nat))) (s.tw p).guard.loads m).any fun x => decide (True ∧
      (tabWf (fun _ => none) (s.tw p).guard.loads = true) ∧
      (((s.tw p).mode m).pend.isSome = true ∧ upset = 0)) = true)) ∧
    (∃ (s : State) (p : Fin 16) (m : Fin 4) (upset : Word), s.canon = true ∧
      ((tabGet (fun _ => (none : Option (TwTable × Nat))) (s.tw p).guard.loads m).any fun x => decide (True ∧
      (upset ≠ 0 ∧ (s.port p).de = false)) = true)) ∧
    (∃ (s : State) (p : Fin 16) (flips : List (Fin 777 × Word)), s.canon = true ∧
      ((s.tw p).guard.anchored = true ∧ (s.tw p).guard.predicted = false) ∧
      (flips = [] ∧ (s.tw p).guard.whole = (s.tw p).guard.ref ∧ (s.port p).de = false)) ∧
    (∃ (s : State) (_o : Origin) (p : Fin 16), s.canon = true ∧
      (s.regExists (GD_CTRL p) = true ∧ (s.port p).de = false)) ∧
    (∃ (s : State) (_o : Origin) (p : Fin 16), s.canon = true ∧
      (s.regExists (GD_CTRL p) = true) ∧
      ((s.tw p).guard.muzzled = true)) ∧
    (∃ (s : State) (_o : Origin) (p : Fin 16), s.canon = true ∧
      (s.regExists (GD_CTRL p) = true)) ∧
    (∃ (s : State) (p : Fin 16), s.canon = true ∧
      (((s.tw p).lastEdge).any fun k => decide (True ∧
      (s.twRuns p = true) ∧
      ((s.tw p).phase = .joined ∨ (s.tw p).phase = .running) ∧
      ((s.intruded p k (s.tw p).cyc (s.tw p).cyc.intruded).isSome = true)) = true)) :=
  ⟨⟨liveLoad, 3, 1, 0, by decide +kernel⟩,
    ⟨liveLoad, 3, 1, 5, by decide +kernel⟩,
    ⟨liveAnchored, 3, [], by decide +kernel⟩,
    ⟨livePort, .host, 3, by decide +kernel⟩,
    ⟨liveMuzzled, .host, 3, by decide +kernel⟩,
    ⟨livePort, .host, 3, by decide +kernel⟩,
    ⟨liveIntrude, 3, by decide +kernel⟩⟩

/-- States and operands that meet the hypotheses of WindowsPushAndPop. -/
theorem witness_WindowsPushAndPop :
    (∃ (s : State) (_m : Master) (k : BitVec 16) (_v : PushVal), s.canon = true ∧
      (s.runs .core = true ∧ s.takesWord k.toNat = true ∧ (s.queue k.toNat).anyTorn = false)) ∧
    (∃ (s : State) (_m : Master) (_v : PushVal), s.canon = true ∧
      (s.runs .core = true)) ∧
    (∃ (s : State) (_m : Master) (_q : QRef) (_v : PushVal), s.canon = true ∧
      (s.runs .core = false)) ∧
    (∃ (s : State) (k : BitVec 16) (ws : List QWord), s.canon = true ∧
      (s.runs .core = true ∧ (s.queue k.toNat).ex = true ∧ (s.queue k.toNat).cfg.mode = 0 ∧ (s.queue k.toNat).anyTorn = false) ∧
      (1 ≤ ws.length ∧ ws.length ≤ 16 ∧ (s.storeAll k.toNat (s.queue k.toNat) ws).isSome = true)) ∧
    (∃ (s : State) (_m : Master) (k : BitVec 16) (part : ReadPart), s.canon = true ∧
      ((s.wordAt k.toNat).any fun w => decide (True ∧
      (s.runs .core = true ∧ (s.queue k.toNat).anyTorn = false ∧ part ≠ .upper)) = true)) ∧
    (∃ (s : State) (_m : Master) (_q : QRef), s.canon = true) ∧
    (∃ (s : State) (_m : Master) (k : BitVec 16), s.canon = true ∧
      ((s.wordAt k.toNat).any fun w => decide (True ∧
      (s.runs .core = true ∧ (s.queue k.toNat).anyTorn = false ∧ (s.queue k.toNat).hurt = [])) = true)) ∧
    (∃ (s : State) (_m : Master) (k : BitVec 16) (part : ReadPart), s.canon = true ∧
      ((s.wordAt k.toNat).any fun w => decide (True ∧
      (s.runs .core = true ∧ (s.queue k.toNat).anyTorn = false ∧ (s.queue k.toNat).hurt = [] ∧ part ≠ .upper)) = true)) ∧
    (∃ (s : State) (_m : Master) (q : QRef), s.canon = true ∧
      (s.runs .core = true ∧ (s.qref q).anyTorn = false)) ∧
    (∃ (s : State) (_m : Master) (q : QRef), s.canon = true ∧
      (s.runs .core = true ∧ (s.qref q).anyTorn = false)) ∧
    (∃ (s : State) (_m : Master) (_q : QRef), s.canon = true) ∧
    (∃ (s : State) (_m : Master) (_q : QRef), s.canon = true) ∧
    (∃ (s : State) (_m : Master) (_q : QRef), s.canon = true) ∧
    (∃ (s : State) (_m : Master) (_q : QRef), s.canon = true) ∧
    (∃ (s : State) (_m : Master) (k : BitVec 16), s.canon = true ∧
      (s.runs .core = true ∧ (s.queue k.toNat).anyTorn = false)) :=
  ⟨⟨liveQ, .host, 5, (.lower 7), by decide +kernel⟩,
    ⟨live, .host, (.lower 7), by decide +kernel⟩,
    ⟨State.reset, .host, .log, (.lower 7), by decide +kernel⟩,
    ⟨liveQ, 5, [{ data := 1 }, { data := 2, fin := true }], by decide +kernel⟩,
    ⟨liveQWord, .host, 5, .whole, by decide +kernel⟩,
    ⟨live, .host, .log, by decide +kernel⟩,
    ⟨liveQWord, .host, 5, by decide +kernel⟩,
    ⟨liveQWord, .host, 5, .lower, by decide +kernel⟩,
    ⟨liveQ, .host, (.num 5), by decide +kernel⟩,
    ⟨liveQ, .host, .log, by decide +kernel⟩,
    ⟨live, .host, .log, by decide +kernel⟩,
    ⟨live, .host, .log, by decide +kernel⟩,
    ⟨live, .host, (.num 5), by decide +kernel⟩,
    ⟨live, .calm, (.num 5), by decide +kernel⟩,
    ⟨liveQ, .host, 5, by decide +kernel⟩⟩

/-- States and operands that meet the hypotheses of WindowCommandsComplete. -/
theorem witness_WindowCommandsComplete :
    (∃ (s : State) (_m : Master) (q : QRef) (_c : CmdCount), s.canon = true ∧
      (s.runs .core = true ∧ (s.qref q).anyTorn = false)) ∧
    (∃ (s : State) (_m : Master) (q : QRef) (_c : CmdCount), s.canon = true ∧
      (s.runs .core = true ∧ (s.qref q).ex = true ∧ (s.qref q).anyTorn = false)) ∧
    (∃ (s : State) (_m : Master) (q : QRef) (_c : CmdCount), s.canon = true ∧
      (s.runs .core = true ∧ (s.qref q).ex = true ∧ (s.qref q).anyTorn = false)) ∧
    (∃ (s : State) (_m : Master) (q : QRef) (_c : CmdCount), s.canon = true ∧
      (s.runs .core = true ∧ (s.qref q).ex = true ∧ (s.qref q).anyTorn = false)) ∧
    (∃ (s : State) (_m : Master) (k : BitVec 16) (_n : Word), s.canon = true ∧
      (s.runs .core = true ∧ (s.queue k.toNat).anyTorn = false ∧ (s.queue k.toNat).ex = true)) ∧
    (∃ (s : State) (_m : Master) (n : Word), s.canon = true ∧
      (s.runs .core = true ∧ n ≠ 0)) ∧
    (∃ (s : State) (_m : Master) (q : QRef) (_c : CmdCount), s.canon = true ∧
      (s.runs .core = true ∧ (s.qref q).ex = true ∧ (s.qref q).anyTorn = false)) ∧
    (∃ (s : State) (_m : Master) (k : BitVec 16) (_c : CmdCount), s.canon = true ∧
      (s.runs .core = true ∧ (s.queue k.toNat).anyTorn = false ∧ (s.queue k.toNat).ex = true)) ∧
    (∃ (s : State) (_m : Master) (_c : CmdCount), s.canon = true ∧
      (s.runs .core = true)) ∧
    (∃ (s : State) (_m : Master) (q : QRef) (_c : CmdCount), s.canon = true ∧
      (s.runs .core = true ∧ (s.qref q).ex = true ∧ (s.qref q).anyTorn = false)) ∧
    (∃ (s : State) (_m : Master) (k : BitVec 16) (_c : CmdCount), s.canon = true ∧
      (s.runs .core = true ∧ (s.queue k.toNat).anyTorn = false ∧ (s.queue k.toNat).ex = true)) ∧
    (∃ (s : State) (_m : Master) (_c : CmdCount), s.canon = true ∧
      (s.runs .core = true ∧ s.log.q.words.length + 16 ≤ s.logCap * 8)) ∧
    (∃ (s : State) (_m : Master) (q : QRef) (_c : CmdCount), s.canon = true ∧
      (s.runs .core = true ∧ (s.qref q).ex = true ∧ (s.qref q).anyTorn = false)) :=
  ⟨⟨liveQ, .host, (.num 5), .held, by decide +kernel⟩,
    ⟨liveQ, .host, .log, .held, by decide +kernel⟩,
    ⟨liveQ, .host, (.num 5), (.whole 3), by decide +kernel⟩,
    ⟨liveQWord, .host, (.num 5), .held, by decide +kernel⟩,
    ⟨liveQWord, .host, 5, 0, by decide +kernel⟩,
    ⟨live, .host, 8, by decide +kernel⟩,
    ⟨liveQWord, .host, (.num 5), .held, by decide +kernel⟩,
    ⟨liveQWord, .host, 5, .held, by decide +kernel⟩,
    ⟨live, .host, .held, by decide +kernel⟩,
    ⟨liveQ, .host, (.num 5), .held, by decide +kernel⟩,
    ⟨liveQ, .host, 5, .held, by decide +kernel⟩,
    ⟨live, .host, .held, by decide +kernel⟩,
    ⟨liveQ, .host, (.num 5), .held, by decide +kernel⟩⟩

/-- States and operands that meet the hypotheses of QueueChangesComplete. -/
theorem witness_QueueChangesComplete :
    (∃ (s : State) (o : Origin), s.canon = true ∧
      (s.fabricUp = true ∧ s.reloading QF_QCMD = false ∧ (s.queue ((s.stage o 0).toNat % 0x10000)).ex = false) ∧
      (s.ledger.awaits ((s.stage o 0).toNat % 0x10000) (s.queue ((s.stage o 0).toNat % 0x10000)).gen = false) ∧
      ((fitEdge (8388608 - s.edgeUsed) 0 (s.stagedCfg o).edge).isSome = true)) ∧
    (∃ (s : State) (o : Origin), s.canon = true ∧
      (s.fabricUp = true ∧ s.reloading QF_QCMD = false) ∧
      ((s.queue ((s.stage o 0).toNat % 0x10000)).ex = true ∧ (s.queue ((s.stage o 0).toNat % 0x10000)).anyTorn = false)) ∧
    (∃ (s : State) (o : Origin), s.canon = true ∧
      (s.fabricUp = true ∧ s.reloading QF_QCMD = false) ∧
      ((s.queue ((s.stage o 0).toNat % 0x10000)).ex = true ∧ (s.queue ((s.stage o 0).toNat % 0x10000)).anyTorn = false)) ∧
    (∃ (s : State) (o : Origin), s.canon = true ∧
      (s.fabricUp = true ∧ s.reloading QF_QCMD = false) ∧
      ((s.queue ((s.stage o 0).toNat % 0x10000)).ex = true ∧ (s.queue ((s.stage o 0).toNat % 0x10000)).anyTorn = false)) ∧
    (∃ (s : State) (o : Origin), s.canon = true ∧
      (s.fabricUp = true ∧ s.reloading QF_QCMD = false) ∧
      ((s.queue ((s.stage o 0).toNat % 0x10000)).ex = true ∧ (s.queue ((s.stage o 0).toNat % 0x10000)).anyTorn = false)) ∧
    (∃ (s : State) (_o : Origin) (_op : BitVec 3), s.canon = true ∧
      (s.fabricUp = true ∧ s.reloading QF_QCMD = false)) ∧
    (∃ (s : State) (_upsets : List Upset), s.canon = true ∧
      (s.runs .core = true)) :=
  ⟨⟨live, .host, by decide +kernel⟩,
    ⟨liveQ0, .host, by decide +kernel⟩,
    ⟨liveQ0, .host, by decide +kernel⟩,
    ⟨liveQ0, .host, by decide +kernel⟩,
    ⟨liveQ0, .host, by decide +kernel⟩,
    ⟨live, .host, 7, by decide +kernel⟩,
    ⟨liveQ, [{ queue := 5 }], by decide +kernel⟩⟩

/-- States and operands that meet the hypotheses of EddyStoreComplete. -/
theorem witness_EddyStoreComplete :
    (∃ (s : State) (q : BitVec 16), s.canon = true ∧
      (s.runs .core = true ∧ (s.queue q.toNat).ex = true ∧ (s.queue q.toNat).anyTorn = false ∧ 16 ≤ (s.queue q.toNat).settle.tail) ∧
      (s.spillReady q.toNat (s.queue q.toNat).settle = false ∨ s.spillTurn = some q.toNat) ∧
      ((s.moveBurst q.toNat (s.queue q.toNat).settle).isSome = true)) ∧
    (∃ (s : State) (q : BitVec 16), s.canon = true ∧
      ((landBurst (s.queue q.toNat).chain).any fun c => decide (True ∧
      (s.eddyRuns = true ∧ (s.queue q.toNat).anyTorn = false ∧ c.all (fun b => !b.spent) = true)) = true)) ∧
    (∃ (s : State) (q : BitVec 16) (prefetch : Bool), s.canon = true ∧
      (((if prefetch then (s.queue q.toNat).prefetchNext (s.depth (s.queue q.toNat)) else (s.queue q.toNat).demand)).any fun i => decide (True ∧
      (s.refillTurn = some (q.toNat, prefetch) ∧ (s.queue q.toNat).anyTorn = false ∧ (prefetch = true ∨ s.headStuck (s.queue q.toNat) = false))) = true)) ∧
    (∃ (s : State) (q : BitVec 16) (bad : List (Fin 1024)), s.canon = true ∧
      ((readingAt (s.queue q.toNat).chain (s.queue q.toNat).head 0).any fun x => decide (True ∧
      (s.eddyRuns = true ∧ bad = [] ∧ (s.queue q.toNat).hurt = [])) = true)) ∧
    (∃ (s : State) (_m : Master) (_q : BitVec 16), s.canon = true ∧
      (s.fabricUp = true)) :=
  ⟨⟨liveSpill, 5, by decide +kernel⟩,
    ⟨liveFlight, 5, by decide +kernel⟩,
    ⟨liveAway, 5, false, by decide +kernel⟩,
    ⟨liveReading, 5, [], by decide +kernel⟩,
    ⟨liveQ, .host, 5, by decide +kernel⟩⟩

/-- States and operands that meet the hypotheses of LedgerComplete. -/
theorem witness_LedgerComplete :
    (∃ (s : State), s.canon = true ∧
      (s.runs .core = true ∧ s.ledger.fails = []) ∧
      (s.ledger.eddy.free + s.ledger.eddy.held + s.ledger.eddy.flight + s.ledger.eddy.reclaim = s.ledger.eddy.total) ∧
      (s.ledger.onChip.free + s.ledger.onChip.held + s.ledger.onChip.flight + s.ledger.onChip.reclaim = s.ledger.onChip.total) ∧
      ((s.queues.map (fun e => e.2.ledgerE)).sum = s.ledger.eddy.held ∧ (s.queues.map (fun e => e.2.ledgerO)).sum = s.ledger.onChip.held) ∧
      ((List.range 4).all (fun l => s.linkState l != lkUp) = true ∧ (List.range 64).all (fun n => decide ((s.cq n).written + (s.cq n).reserved ≤ s.cqSize n)) = true) ∧
      ((s.ledger.tags.length : Int) = (s.ledger.issued : Int) - s.ledger.completed ∧ s.ledger.tagsFree + s.ledger.tags.length = 4096) ∧
      ((List.range 16).all (fun n => s.slotAudit n) = true)) ∧
    (∃ (s : State), s.canon = true ∧
      (s.runs .core = true ∧ s.ledger.fails = []) ∧
      (s.ledger.eddy.free + s.ledger.eddy.held + s.ledger.eddy.flight + s.ledger.eddy.reclaim ≠ s.ledger.eddy.total)) ∧
    (∃ (s : State), s.canon = true ∧
      ((s.ledger.nextSweep).any fun r => decide (True ∧
      (s.ledger.sweep = none ∧ s.runs .core = true)) = true)) ∧
    (∃ (s : State), s.canon = true ∧
      (s.ledger.sweep.isSome = true ∧ s.ledger.createWait = [] ∧ s.runs .core = true)) ∧
    (∃ (s : State) (_o : Origin), s.canon = true ∧
      (s.runs .core = true)) ∧
    (∃ (s : State) (_o : Origin), s.canon = true ∧
      (s.runs .core = true)) ∧
    (∃ (s : State) (u : DownUnit) (_waiting : BitVec 32), s.canon = true ∧
      ((∀ k : Fin 12, u = .cluster k → s.bit (CL_CTRL.PWR_OFF k) = false))) :=
  ⟨⟨live, by decide +kernel⟩,
    ⟨liveBadPool, by decide +kernel⟩,
    ⟨{ live with ledger := { live.ledger with nextSweep := some true } }, by decide +kernel⟩,
    ⟨{ live with ledger := { live.ledger with sweep := some false } }, by decide +kernel⟩,
    ⟨live, .host, by decide +kernel⟩,
    ⟨live, .host, by decide +kernel⟩,
    ⟨live, (.netPort 3), 2, by decide +kernel⟩⟩

/-- States and operands that meet the hypotheses of TimeCorrectionsComplete. -/
theorem witness_TimeCorrectionsComplete :
    (∃ (s : State) (_o : Origin), s.canon = true ∧
      (s.hostSteers = true)) ∧
    (∃ (s : State) (_o : Origin), s.canon = true ∧
      (s.coarse = true)) ∧
    (∃ (s : State) (_o : Origin) (add : Bool), s.canon = true ∧
      (s.hostSteers = true ∧ add = false ∧ s.hostOffset.natAbs ≤ 1000000)) ∧
    (∃ (s : State) (_o : Origin) (add : Bool), s.canon = true ∧
      (s.hostSteers = true ∧ add = false ∧ 1000000 < s.hostOffset ∧ s.hostOffset < second ∧ s.now < timeMax - 10 * second)) ∧
    (∃ (s : State) (_o : Origin), s.canon = true ∧
      (s.hostSteers = true ∧ (s.now : Int) + 1000000 < s.hostSet ∧ s.now < timeMax / 4 ∧ s.hostSet < timeMax / 4)) ∧
    (∃ (s : State) (_o : Origin), s.canon = true) ∧
    (∃ (s : State), s.canon = true ∧
      (s.time.step.isSome = true)) ∧
    (∃ (s : State), s.canon = true ∧
      (s.time.slewing = true ∧ s.coarse = false)) :=
  ⟨⟨liveTime, .host, by decide +kernel⟩,
    ⟨{ liveTime with regs := (liveTime.on TB_STAT.COARSE).regs }, .host, by decide +kernel⟩,
    ⟨liveTime, .host, false, by decide +kernel⟩,
    ⟨(liveTime.setReg TB_HADJ_OFF_LO 2000000), .host, false, by decide +kernel⟩,
    ⟨(liveTime.setReg TB_SET_SL 2000000000), .host, by decide +kernel⟩,
    ⟨live, .host, by decide +kernel⟩,
    ⟨liveStep, by decide +kernel⟩,
    ⟨{ liveTime with time := { liveTime.time with slew := 5, slewing := true } }, by decide +kernel⟩⟩

/-- States and operands that meet the hypotheses of TimeSourcesComplete. -/
theorem witness_TimeSourcesComplete :
    (∃ (s : State) (_src : TimeSrc), s.canon = true) ∧
    (∃ (s : State) (src : TimeSrc), s.canon = true ∧
      (s.rd TB_STAT.SRC_SEL ≠ 0 ∧ s.srcList.contains (srcCode src) = true ∧ s.srcValid (srcCode src) = true) ∧
      (listedBefore s.srcList (srcCode src) (s.rd TB_STAT.SRC_SEL) = true)) ∧
    (∃ (s : State), s.canon = true ∧
      (s.bit TB_STAT.HOLDOVER = true ∧ s.time.hoFired = false)) ∧
    (∃ (s : State) (_ns : BitVec 32), s.canon = true ∧
      (s.bit CK_STAT.REFCLK_OK = true ∧ s.time.step = none ∧ s.time.slew = 0 ∧ s.time.dirty = false)) :=
  ⟨⟨liveTime, .pps, by decide +kernel⟩,
    ⟨((liveTime.setReg TB_SRCCFG 0x12).setReg TB_SRCSTAT 3 |>.wr TB_STAT.SRC_SEL 1), .engine, by decide +kernel⟩,
    ⟨(liveTime.on TB_STAT.HOLDOVER), by decide +kernel⟩,
    ⟨{ liveTime with regs := (liveTime.on CK_STAT.REFCLK_OK).regs }, 21845333, by decide +kernel⟩⟩

/-- States and operands that meet the hypotheses of TimeInputsAndOutputsComplete. -/
theorem witness_TimeInputsAndOutputsComplete :
    (∃ (s : State) (i : Fin 8) (rising : Bool), s.canon = true ∧
      (s.bit (TSI_CFG.EN i) = true ∧ s.tsiSelects i rising = true) ∧
      (tabGet noEdge s.time.tsiLast i = 0 ∨ tabGet noEdge s.time.tsiLast i + 16 ≤ s.time.tick + 1)) ∧
    (∃ (s : State) (_o : Origin) (i : Fin 8), s.canon = true ∧
      ((s.tpo i).active = none)) ∧
    (∃ (s : State) (_o : Origin) (i : Fin 8), s.canon = true ∧
      ((s.tpo i).active.isSome = true)) ∧
    (∃ (s : State) (i : Fin 8), s.canon = true ∧
      ((s.tpo i).pend = true)) ∧
    (∃ (s : State) (i : Fin 8), s.canon = true ∧
      (((s.tpo i).due).any fun due => decide (True ∧
      (s.time.tpoCut = false ∧ (s.tpo i).active = none ∧ (s.tpo i).mode ≠ 3)) = true)) ∧
    (∃ (s : State) (i : Fin 8), s.canon = true ∧
      ((s.tpo i).active.isSome = true)) ∧
    (∃ (s : State) (_o : Origin) (k : Fin 4) (v : Word), s.canon = true ∧
      (v.getLsbD 31 = true) ∧
      (((v.toNat % 0x10000) * unit32 + (s.reg (ALM_SL k)).toNat) * second + (s.reg (ALM_NS k)).toNat ≤ s.now)) ∧
    (∃ (s : State) (k : Fin 4), s.canon = true ∧
      (s.bit (ALM_SH.ARM k) = true)) ∧
    (∃ (s : State) (_o : Origin) (v : Word), s.canon = true ∧
      (calError (s.rd CAL_WDATE.YEAR) (s.rd CAL_WDATE.MONTH) (s.rd CAL_WDATE.DAY) (fldOf CAL_WTIME.HOUR v) (fldOf CAL_WTIME.MINUTE v) (fldOf CAL_WTIME.SECOND v) ≠ 0)) ∧
    (∃ (s : State) (_o : Origin) (v : Word), s.canon = true ∧
      (calError (s.rd CAL_WDATE.YEAR) (s.rd CAL_WDATE.MONTH) (s.rd CAL_WDATE.DAY) (fldOf CAL_WTIME.HOUR v) (fldOf CAL_WTIME.MINUTE v) (fldOf CAL_WTIME.SECOND v) = 0) ∧
      (s.hostSteers = true ∧ s.now < 100 * second ∧ s.rd TB_UTC.UTC_OFFSET = 0)) ∧
    (∃ (s : State), s.canon = true ∧
      (s.bit TB_UTC.LEAP_INS = true ∧ s.bit TB_UTC.LEAP_DEL = false)) :=
  ⟨⟨(liveTime.on (TSI_CFG.EN 2)), 2, true, by decide +kernel⟩,
    ⟨liveTime, .host, 2, by decide +kernel⟩,
    ⟨livePulse, .host, 2, by decide +kernel⟩,
    ⟨(livePulse.setTpo 2 { livePulse.tpo 2 with pend := true }), 2, by decide +kernel⟩,
    ⟨liveDue, 2, by decide +kernel⟩,
    ⟨livePulse, 2, by decide +kernel⟩,
    ⟨liveTime, .host, 1, 0x80000000, by decide +kernel⟩,
    ⟨(liveTime.on (ALM_SH.ARM 1)), 1, by decide +kernel⟩,
    ⟨liveTime, .host, 0, by decide +kernel⟩,
    ⟨((liveTime.setReg CAL_WDATE 0x07E80105).setReg TB_UTC 0), .host, 0, by decide +kernel⟩,
    ⟨(liveTime.on TB_UTC.LEAP_INS), by decide +kernel⟩⟩

/-- States and operands that meet the hypotheses of LinksComplete. -/
theorem witness_LinksComplete :
    (∃ (s : State) (l : Fin 4), s.canon = true ∧
      (s.linkState l = lkDetect ∧ s.runs .hser = true)) ∧
    (∃ (s : State) (l : Fin 4), s.canon = true ∧
      (s.linkState l = lkTrain ∧ s.runs .hser = true)) ∧
    (∃ (s : State) (l : Fin 4), s.canon = true ∧
      (s.linkState l = lkTrain ∧ s.runs .hser = true)) ∧
    (∃ (s : State) (l : Fin 4) (h : Hello), s.canon = true ∧
      (s.linkState l = lkHello ∧ s.runs .hser = true) ∧
      ((h.role ≠ 1 ∨ s.role ≠ 1) ∧ h.sn ≠ s.chain.sn ∧ h.role ≠ 0)) ∧
    (∃ (s : State) (l : Fin 4) (h : Hello), s.canon = true ∧
      (s.linkState l = lkHello ∧ s.runs .hser = true) ∧
      ((h.role ≠ 1 ∨ s.role ≠ 1) ∧ h.sn = s.chain.sn)) ∧
    (∃ (s : State) (l : Fin 4), s.canon = true ∧
      (s.linkState l = lkHello ∧ s.runs .hser = true)) ∧
    (∃ (s : State) (l : Fin 4), s.canon = true ∧
      (s.canDrop l = true ∧ s.isMember = false)) ∧
    (∃ (s : State) (_o : Origin) (l : Fin 4), s.canon = true ∧
      (s.canDrop l = true ∧ s.isMember = false)) ∧
    (∃ (s : State) (l : Fin 4), s.canon = true ∧
      (3 ≤ s.linkState l ∧ s.linkState l ≤ 5)) ∧
    (∃ (s : State) (_o : Origin) (_role : BitVec 2), s.canon = true ∧
      (s.regExists CH_CTRL = true)) ∧
    (∃ (s : State) (_o : Origin) (l : Fin 4) (_en : Bool), s.canon = true ∧
      (s.regExists (LK_CTRL l) = true ∧ s.isMember = false)) :=
  ⟨⟨liveLink lkDetect, 1, by decide +kernel⟩,
    ⟨liveLink lkTrain, 1, by decide +kernel⟩,
    ⟨liveLink lkTrain, 1, by decide +kernel⟩,
    ⟨liveLink lkHello, 1, aHello, by decide +kernel⟩,
    ⟨liveLink lkHello, 1, { aHello with sn := 0 }, by decide +kernel⟩,
    ⟨liveLink lkHello, 1, by decide +kernel⟩,
    ⟨liveLink lkUp, 1, by decide +kernel⟩,
    ⟨liveLink lkUp, .host, 1, by decide +kernel⟩,
    ⟨liveLink lkUp, 1, by decide +kernel⟩,
    ⟨live, .host, 1, by decide +kernel⟩,
    ⟨liveLink lkUp, .host, 1, false, by decide +kernel⟩⟩

/-- States and operands that meet the hypotheses of CellsAndCreditsComplete. -/
theorem witness_CellsAndCreditsComplete :
    (∃ (s : State) (l : Fin 4) (_c : Cell) (_credits : List (BitVec 16)), s.canon = true ∧
      (s.linkState l = lkUp)) ∧
    (∃ (s : State) (l : Fin 4) (c : Cell) (_credits : List (BitVec 16)), s.canon = true ∧
      (s.linkState l = lkUp ∧ s.cellWaits c = true)) ∧
    (∃ (s : State) (l : Fin 4) (c : Cell) (_credits : List (BitVec 16)), s.canon = true ∧
      (s.linkState l = lkUp ∧ s.cellWaits c = false ∧ s.role = 2 ∧ s.isMember = false)) ∧
    (∃ (s : State) (l : Fin 4), s.canon = true ∧
      (s.linkState l = lkUp ∨ s.linkState l = lkStandby)) ∧
    (∃ (s : State) (l : Fin 4) (counts : List (BitVec 24 × BitVec 24)), s.canon = true ∧
      (s.linkState l = lkUp) ∧
      ((List.range 4).all (fun v => (s.link l).received.getD v 0 % 0x1000000 == (counts.getD v (0, 0)).1.toNat && (s.link l).credIn.getD v 0 % 0x1000000 == (counts.getD v (0, 0)).2.toNat && s.rd (LK_CRED_VC.AVAIL l v) + ((s.link l).sent.getD v 0 - (s.link l).credIn.getD v 0) == s.rd (LK_CRED_VC.INIT l v)) = true)) ∧
    (∃ (s : State) (l : Fin 4) (counts : List (BitVec 24 × BitVec 24)), s.canon = true ∧
      (s.linkState l = lkUp ∧ s.ledger.fails = []) ∧
      ((s.link l).received.getD 0 0 % 0x1000000 ≠ (counts.getD 0 (0, 0)).1.toNat)) ∧
    (∃ (s : State) (l : Fin 4), s.canon = true ∧
      (s.linkState l = lkUp ∨ s.linkState l = lkStandby)) ∧
    (∃ (s : State) (l : Fin 4) (_t1 : Nat) (_t2 : Nat) (_t3 : Nat) (_t4 : Nat), s.canon = true ∧
      (s.linkState l = lkUp ∨ s.linkState l = lkStandby) ∧
      ((s.link l).samples.length < 8 ∧ (s.link l).restart = false)) :=
  ⟨⟨liveLink lkUp, 1, aCell, [0, 0, 0, 0], by decide +kernel⟩,
    ⟨liveLinkBecalm, 1, aCell, [0, 0, 0, 0], by decide +kernel⟩,
    ⟨liveLinkUnnumbered, 1, aCell, [0, 0, 0, 0], by decide +kernel⟩,
    ⟨liveLink lkUp, 1, by decide +kernel⟩,
    ⟨liveLink lkUp, 1, [(0, 0), (0, 0), (0, 0), (0, 0)], by decide +kernel⟩,
    ⟨liveLink lkUp, 1, [(1, 0), (0, 0), (0, 0), (0, 0)], by decide +kernel⟩,
    ⟨liveLink lkUp, 1, by decide +kernel⟩,
    ⟨liveLink lkUp, 1, 0, 10, 20, 30, by decide +kernel⟩⟩

/-- States and operands that meet the hypotheses of ChainMembershipComplete. -/
theorem witness_ChainMembershipComplete :
    (∃ (s : State), s.canon = true ∧
      (s.role = 1 ∧ s.partRuns .engines = true ∧ s.bit CH_STAT.ENUM_BUSY = true)) ∧
    (∃ (s : State), s.canon = true ∧
      ((s.probeLinks.head?).any fun x => decide (True ∧
      (s.role = 1 ∧ s.partRuns .engines = true ∧ s.bit CH_STAT.ENUM_BUSY = false)) = true)) ∧
    (∃ (s : State), s.canon = true ∧
      (s.role = 1 ∧ s.partRuns .engines = true ∧ s.bit CH_STAT.ENUM_BUSY = false ∧ s.probeLinks = [])) ∧
    (∃ (s : State) (_o : Origin) (_written : Bool), s.canon = true ∧
      (s.role = 1 ∧ s.partRuns .engines = true ∧ s.bit CH_STAT.ENUM_BUSY = true)) ∧
    (∃ (s : State) (_o : Origin) (_written : Bool), s.canon = true ∧
      ((s.probeLinks.head?).any fun x => decide (True ∧
      (s.role = 1 ∧ s.partRuns .engines = true ∧ s.bit CH_STAT.ENUM_BUSY = false)) = true)) ∧
    (∃ (s : State) (_o : Origin) (_written : Bool), s.canon = true ∧
      (s.role = 1 ∧ s.partRuns .engines = true ∧ s.bit CH_STAT.ENUM_BUSY = false ∧ s.probeLinks = [])) ∧
    (∃ (s : State) (_o : Origin), s.canon = true) ∧
    (∃ (s : State), s.canon = true ∧
      ((s.chain.probes.tail.head?).any fun x => decide (True ∧
      (s.role = 1 ∧ s.bit CH_STAT.ENUM_BUSY = true)) = true)) ∧
    (∃ (s : State) (_l : Fin 4) (_num : Fin 64) (_hops : Fin 17), s.canon = true ∧
      (s.role = 2)) ∧
    (∃ (s : State) (_answers : List (Fin 64)), s.canon = true ∧
      (s.role = 1)) ∧
    (∃ (s : State) (d : Fin 64), s.canon = true ∧
      (s.role = 1 ∧ (s.mapEntry d).present = true ∧ (s.mapEntry d).lost = false ∧ (s.mapEntry d).asleep = false)) ∧
    (∃ (s : State) (_o : Origin) (dev : Fin 64) (all : Bool), s.canon = true ∧
      ((s.routeTo dev).any fun l => decide (True ∧
      (s.role = 1 ∧ dev.val ≠ s.ownNum ∧ all = false ∧ s.rst.request = none ∧ s.rst.asked = none)) = true)) ∧
    (∃ (s : State) (_o : Origin) (dev : Fin 64) (all : Bool), s.canon = true ∧
      ((s.routeTo dev).any fun l => decide (True ∧
      (s.role = 1 ∧ dev.val ≠ s.ownNum ∧ all = false ∧ s.rst.request = none ∧ s.rst.asked = none)) = true)) ∧
    (∃ (s : State) (_o : Origin) (dev : Fin 64) (all : Bool), s.canon = true ∧
      ((s.routeTo dev).any fun l => decide (True ∧
      (s.role = 1 ∧ dev.val ≠ s.ownNum ∧ all = false ∧ s.rst.request = none ∧ s.rst.asked = none)) = true)) ∧
    (∃ (s : State) (_o : Origin) (dev : Fin 64) (all : Bool), s.canon = true ∧
      ((s.routeLink dev).any fun l => decide (True ∧
      (s.role = 1 ∧ dev.val ≠ s.ownNum ∧ all = false ∧ s.rst.request = none ∧ s.rst.asked = none ∧ s.linkState l = lkSleep)) = true)) ∧
    (∃ (s : State) (_o : Origin) (_dev : Fin 64) (_all : Bool), s.canon = true ∧
      (s.rst.request = none ∧ s.rst.asked = none)) :=
  ⟨⟨{ liveRoot with regs := (liveRoot.on CH_STAT.ENUM_BUSY).regs }, by decide +kernel⟩,
    ⟨liveRoot, by decide +kernel⟩,
    ⟨(live.wr CH_CTRL.ROLE 1), by decide +kernel⟩,
    ⟨{ liveRoot with regs := (liveRoot.on CH_STAT.ENUM_BUSY).regs }, .host, true, by decide +kernel⟩,
    ⟨liveRoot, .host, false, by decide +kernel⟩,
    ⟨(live.wr CH_CTRL.ROLE 1), .host, true, by decide +kernel⟩,
    ⟨live, .host, by decide +kernel⟩,
    ⟨liveProbes, by decide +kernel⟩,
    ⟨liveMember, 1, 5, 2, by decide +kernel⟩,
    ⟨liveRoot, [3], by decide +kernel⟩,
    ⟨liveRoot, 3, by decide +kernel⟩,
    ⟨liveRoot, .host, 3, false, by decide +kernel⟩,
    ⟨liveRoot, .host, 3, false, by decide +kernel⟩,
    ⟨liveRoot, .host, 3, false, by decide +kernel⟩,
    ⟨(liveRoot.wr (LK_STAT.STATE 1) lkSleep), .host, 3, false, by decide +kernel⟩,
    ⟨liveRoot, .host, 3, true, by decide +kernel⟩⟩

/-- States and operands that meet the hypotheses of RemoteAccessComplete. -/
theorem witness_RemoteAccessComplete :
    (∃ (s : State) (_m : Master) (_d : Fin 64) (off : BitVec 24) (size : BitVec 4), s.canon = true ∧
      (carried off.toNat size.toNat = false)) ∧
    (∃ (s : State) (_m : Master) (d : Fin 64) (off : BitVec 24) (size : BitVec 4), s.canon = true ∧
      (carried off.toNat size.toNat = true ∧ d.val ≠ s.ownNum ∧ s.unassigned d = false ∧ s.farStop d = none)) ∧
    (∃ (s : State) (d : Fin 64) (off : BitVec 24) (_v : Word64) (status : BitVec 4), s.canon = true ∧
      ((s.chain.reads.find? (fun r => decide (r.dev = d.val) && decide (r.off = off.toNat))).any fun r => decide (True ∧
      (status = 0 ∧ r.m ≠ .calm)) = true)) ∧
    (∃ (s : State) (d : Fin 64) (off : BitVec 24), s.canon = true ∧
      ((s.chain.reads.find? (fun r => decide (r.dev = d.val) && decide (r.off = off.toNat))).any fun r => decide (True ∧
      (r.m ≠ .calm)) = true)) ∧
    (∃ (s : State) (_m : Master) (d : Fin 64) (off : BitVec 24) (size : BitVec 4) (_v : Word64), s.canon = true ∧
      (carried off.toNat size.toNat = true ∧ d.val ≠ s.ownNum ∧ s.unassigned d = false ∧ (s.farStop d).isSome = true)) ∧
    (∃ (s : State) (m : Master) (d : Fin 64) (off : BitVec 24) (_v : Word64), s.canon = true ∧
      (d.val = s.ownNum ∧ off.toNat = SP_BREAK 3) ∧
      (s.committed = true ∧ s.cfg.commit = none ∧ s.rst.request = none ∧ s.rst.asked = none ∧ s.configFull = false ∧ s.waitsRoom m.origin = false)) ∧
    (∃ (s : State) (_status : BitVec 4) (_reporter : Fin 64) (_dev : Fin 64) (_off : BitVec 24) (_wide : Bool) (_v : Word64) (_origin : BitVec 4), s.canon = true) :=
  ⟨⟨live, .host, 3, 2, 4, by decide +kernel⟩,
    ⟨liveRoot, .host, 3, 0, 4, by decide +kernel⟩,
    ⟨liveReads, 3, 0, 77, 0, by decide +kernel⟩,
    ⟨liveReads, 3, 0, by decide +kernel⟩,
    ⟨(liveRoot.wr (LK_STAT.STATE 1) lkSleep), .host, 3, 0, 4, 7, by decide +kernel⟩,
    ⟨live, .host, 0, (BitVec.ofNat 24 (SP_BREAK 3)), 0xFFFF, by decide +kernel⟩,
    ⟨live, 1, 2, 3, 0, false, 7, 1, by decide +kernel⟩⟩

/-- States and operands that meet the hypotheses of ForwardingComplete. -/
theorem witness_ForwardingComplete :
    (∃ (s : State) (q : BitVec 16), s.canon = true ∧
      ((s.wordAt q.toNat).any fun w => decide (True ∧
      ((s.queue q.toNat).cfg.fwdEn = true ∧ (s.queue q.toNat).fwd.selfLoop = false ∧ (s.queue q.toNat).fwd.paused = false) ∧
      (s.runs .core = true ∧ (s.queue q.toNat).unaccepted < 64 ∧ (s.queue q.toNat).anyTorn = false)) = true)) ∧
    (∃ (s : State) (dev : Fin 64) (from_ : BitVec 16) (dest : BitVec 16) (seq : Word) (ws : List QWord) (_resent : Bool), s.canon = true ∧
      (s.runs .core = true ∧ (s.queue dest.toNat).ex = true ∧ (s.queue dest.toNat).cfg.mode = 0 ∧ (s.queue dest.toNat).anyTorn = false) ∧
      ((s.queue dest.toNat).groupIsOld dev from_.toNat seq.toNat ≠ some true ∧ 1 ≤ ws.length) ∧
      ((s.storeAll dest.toNat (s.queue dest.toNat) ws).isSome = true ∧ ws.length ≤ (s.queue dest.toNat).cfg.cap)) ∧
    (∃ (s : State) (q : BitVec 16) (seq : Word) (status : BitVec 4), s.canon = true ∧
      ((s.queue q.toNat).fwd.groups.any (fun g => decide (g.seq = seq.toNat)) = true ∧ status.toNat = fwdAccepted)) ∧
    (∃ (s : State) (q : BitVec 16), s.canon = true ∧
      (((s.queue q.toNat).fwd.groups.head?).any fun g => decide (True ∧
      ((s.queue q.toNat).ex = true ∧ (s.queue q.toNat).cfg.fwdEn = true ∧ s.runs .core = true) ∧
      ((s.queue q.toNat).fwd.groups.length = 1 ∧ (s.queue q.toNat).cfg.fwdDev ≠ s.ownNum)) = true)) :=
  ⟨⟨liveFwd, 5, by decide +kernel⟩,
    ⟨liveQ, 3, 9, 5, 0, [{ data := 4 }], false, by decide +kernel⟩,
    ⟨liveGroup, 5, 0, 0, by decide +kernel⟩,
    ⟨liveGroup, 5, by decide +kernel⟩⟩

/-- States and operands that meet the hypotheses of ChainTimeAndReleaseComplete. -/
theorem witness_ChainTimeAndReleaseComplete :
    (∃ (s : State), s.canon = true ∧
      (s.role = 1)) ∧
    (∃ (s : State) (l : Fin 4) (_sent : Nat) (_arrived : Nat) (_quality : BitVec 3) (_hops : Fin 17) (_stepSeq : Byte), s.canon = true ∧
      (s.isMember = true ∧ s.bit CH_STAT.ISOLATED = false ∧ s.rd CH_STAT.UPLINK = l.val ∧ s.linkState l = lkUp)) ∧
    (∃ (s : State), s.canon = true ∧
      (s.isReady = true ∧ s.chain.readySent = false)) ∧
    (∃ (s : State) (l : Fin 4), s.canon = true ∧
      (s.linkState l = lkUp)) ∧
    (∃ (s : State) (l : Fin 4) (epoch : Word) (_count : Word), s.canon = true ∧
      (s.linkState l = lkUp ∧ s.chain.epoch ≠ some epoch.toNat)) ∧
    (∃ (s : State) (_epoch : Word) (_count : Word), s.canon = true ∧
      (s.role = 1 ∧ s.waitsCount = true ∧ s.chain.epoch = none ∧ s.refclkOk = true)) ∧
    (∃ (s : State), s.canon = true ∧
      (s.chain.countdown.isSome = true ∧ s.waitsCount = true)) ∧
    (∃ (s : State), s.canon = true ∧
      (s.waitsCount = true ∧ s.role = 2 ∧ s.refclkOk = true)) :=
  ⟨⟨liveRoot, by decide +kernel⟩,
    ⟨liveMember, 1, 1000, 900, 2, 3, 0, by decide +kernel⟩,
    ⟨liveReady, by decide +kernel⟩,
    ⟨liveLink lkUp, 1, by decide +kernel⟩,
    ⟨liveLink lkUp, 1, 5, 100, by decide +kernel⟩,
    ⟨liveWaits, 5, 0, by decide +kernel⟩,
    ⟨{ liveWaits with chain := { liveWaits.chain with countdown := some 5 } }, by decide +kernel⟩,
    ⟨(liveWaits.setReg CH_CTRL 2), by decide +kernel⟩⟩

/-- States and operands that meet the hypotheses of ImageLoadsComplete. -/
theorem witness_ImageLoadsComplete :
    (∃ (s : State) (_o : Origin) (v : Word), s.canon = true ∧
      (s.loading = false ∧ 232 ≤ s.rd LD_LEN.LEN ∧ s.rd LD_LEN.LEN ≤ 131296 ∧ s.rd LD_LEN.LEN % 8 = 0) ∧
      ((s.boundTo (fldOf LD_CTRL.SLOT v)).isEmpty = true)) ∧
    (∃ (s : State) (_o : Origin) (_v : Word), s.canon = true ∧
      (s.loading = true)) ∧
    (∃ (s : State) (o : Origin) (_v : Word), s.canon = true ∧
      (s.rd LD_STAT.STATE = ldReceiving ∧ s.loader.owner = o ∧ s.loader.dma = false) ∧
      (s.loader.staged.length + 4 ≤ s.loader.len)) ∧
    (∃ (s : State) (o : Origin) (_v : Word), s.canon = true ∧
      (s.loading = true ∧ s.loader.owner ≠ o)) ∧
    (∃ (s : State) (bytes : List Byte), s.canon = true ∧
      (s.rd LD_STAT.STATE = ldReceiving ∧ s.loader.dma = true ∧ s.loader.staged = [] ∧ bytes.length = s.loader.len)) ∧
    (∃ (s : State), s.canon = true ∧
      (s.rd LD_STAT.STATE = ldVerifying ∧ s.loader.installing = false ∧ s.runs .core = true) ∧
      ((s.boundTo (s.rd LD_STAT.SLOT)).isEmpty = true) ∧
      ((s.needBanks s.loader.owner (slotBase (s.rd LD_STAT.SLOT)) (slotBase (s.rd LD_STAT.SLOT) + s.loader.staged.length)).1 = true)) ∧
    (∃ (s : State), s.canon = true ∧
      (s.rd LD_STAT.STATE = ldVerifying ∧ s.loader.installing = true ∧ s.runs .core = true) ∧
      ((s.boundTo (s.rd LD_STAT.SLOT)).isEmpty = true) ∧
      ((s.needBanks s.loader.owner (slotBase (s.rd LD_STAT.SLOT)) (slotBase (s.rd LD_STAT.SLOT) + s.loader.staged.length)).1 = true)) ∧
    (∃ (s : State) (_o : Origin), s.canon = true ∧
      (s.loading = true ∧ (s.boundTo (s.rd LD_STAT.SLOT)).isEmpty = true)) ∧
    (∃ (s : State) (_o : Origin) (slot : Fin 16), s.canon = true ∧
      ((s.boundTo slot.val).isEmpty = true)) ∧
    (∃ (s : State) (_slot : Fin 16), s.canon = true) :=
  ⟨⟨liveLen, .host, 0x101, by decide +kernel⟩,
    ⟨liveLd, .host, 0x101, by decide +kernel⟩,
    ⟨liveLd, .host, 0x49505757, by decide +kernel⟩,
    ⟨liveLd, .calm, 5, by decide +kernel⟩,
    ⟨liveDma, [0, 0, 0, 0], by decide +kernel⟩,
    ⟨liveVerify, by decide +kernel⟩,
    ⟨{ liveVerify with loader := { liveVerify.loader with installing := true } }, by decide +kernel⟩,
    ⟨liveLd, .host, by decide +kernel⟩,
    ⟨liveSlot, .host, 2, by decide +kernel⟩,
    ⟨liveSlot, 2, by decide +kernel⟩⟩

/-- States and operands that meet the hypotheses of EngineControlCompletes. -/
theorem witness_EngineControlCompletes :
    (∃ (s : State) (_o : Origin) (e : Fin 48) (_v : Word), s.canon = true ∧
      (s.bound e = true ∧ s.committed = true ∧ s.ceState e = ceHalted ∧ s.why e = 0 ∧ s.clustersOff.contains (e.val / 4) = false)) ∧
    (∃ (s : State) (_o : Origin) (e : Fin 48) (_v : Word), s.canon = true ∧
      (s.ceState e = ceRunning)) ∧
    (∃ (s : State) (_o : Origin) (e : Fin 48) (v : Word), s.canon = true ∧
      (s.committed = true ∧ s.ceState e = ceUnbound ∧ s.bound e = false ∧ v.getLsbD (CE_BIND.BIND_EN e).lo = true)) ∧
    (∃ (s : State) (e : Fin 48), s.canon = true ∧
      (s.ceState e = ceStarting ∧ s.partRuns .engines = true ∧ s.why e = 0 ∧ s.bound e = true ∧ s.stopDue e = none) ∧
      ((s.slotDamage (s.eng e).slot).any (·.2) = false ∧ s.hdrShared (s.eng e).slot = 0) ∧
      ((s.needBanks .device (slotBase (s.eng e).slot) (slotBase (s.eng e).slot + (s.slot (s.eng e).slot).len)).1 = true)) ∧
    (∃ (s : State) (e : Fin 48), s.canon = true ∧
      (s.ceState e = ceAborting ∧ (s.eng e).phase = .doorbell)) ∧
    (∃ (s : State) (e : Fin 48), s.canon = true ∧
      (s.ceState e = ceAborting ∧ (s.eng e).phase = .handler)) ∧
    (∃ (s : State) (e : Fin 48), s.canon = true ∧
      (s.ceState e = ceAborting ∧ (s.eng e).phase = .graceOver)) ∧
    (∃ (s : State) (e : Fin 48), s.canon = true ∧
      (s.ceState e = ceAborting ∧ (s.eng e).phase = .stopped ∧ (s.eng e).after = .halt)) ∧
    (∃ (s : State) (e : Fin 48) (_addr : BitVec 16), s.canon = true ∧
      (((s.eng e).wdog).any fun b => decide (True ∧
      (s.ceState e = ceRunning ∧ s.hdrWdog (s.eng e).slot ≠ 0 ∧ s.partRuns .engines = true ∧ s.bit (CE_CTRL.ON_FAULT e) = false)) = true)) ∧
    (∃ (s : State) (e : Fin 48) (cause : BitVec 3) (_addr : BitVec 16), s.canon = true ∧
      (s.ceState e = ceRunning ∧ cause ≠ 0 ∧ s.partRuns .engines = true ∧ s.bit (CE_CTRL.ON_FAULT e) = false)) ∧
    (∃ (s : State) (_o : Origin) (k : Fin 12) (v : Word), s.canon = true ∧
      (s.committed = true ∧ (List.range 4).all (fun i => s.ceState (4 * k + i) == ceUnbound || s.ceState (4 * k + i) == ceHalted) = true) ∧
      (fldOf (CL_CTRL.PWR_OFF k) v = 1)) :=
  ⟨⟨liveEngHalted, .host, 4, 1, by decide +kernel⟩,
    ⟨liveEng, .host, 4, 2, by decide +kernel⟩,
    ⟨live, .host, 4, 0x81, by decide +kernel⟩,
    ⟨liveEngStarting, 4, by decide +kernel⟩,
    ⟨liveEngAbort .doorbell, 4, by decide +kernel⟩,
    ⟨liveEngAbort .handler, 4, by decide +kernel⟩,
    ⟨liveEngAbort .graceOver, 4, by decide +kernel⟩,
    ⟨liveEngAbort .stopped, 4, by decide +kernel⟩,
    ⟨liveEng, 4, 0x10, by decide +kernel⟩,
    ⟨liveEng, 4, 2, 0x1234, by decide +kernel⟩,
    ⟨live, .host, 1, 1, by decide +kernel⟩⟩

/-- States and operands that meet the hypotheses of EngineServicesComplete. -/
theorem witness_EngineServicesComplete :
    (∃ (s : State) (e : Fin 48), s.canon = true ∧
      (s.canAct e = true ∧ s.ceState e = ceRunning)) ∧
    (∃ (s : State) (e : Fin 48), s.canon = true ∧
      (s.canAct e = true ∧ s.ceState e = ceAborting)) ∧
    (∃ (s : State) (e : Fin 48) (ws : List Word), s.canon = true ∧
      (s.canAct e = true ∧ 1 ≤ ws.length ∧ ws.length ≤ 16 ∧ (ws.headD 0).getLsbD 31 = false ∧ s.bit (CE_STAT.OUT_FULL e) = false)) ∧
    (∃ (s : State) (e : Fin 48), s.canon = true ∧
      (s.canAct e = true ∧ s.bit (CE_STAT.IN_FULL e) = true)) ∧
    (∃ (s : State) (e : Fin 48) (_count : BitVec 4), s.canon = true ∧
      (s.committed = true ∧ s.bit (CE_STAT.IN_FULL e) = false)) ∧
    (∃ (s : State) (_e : Fin 48), s.canon = true) ∧
    (∃ (s : State) (e : Fin 48) (p : Fin 16) (ws : List QWord), s.canon = true ∧
      (s.canAct e = true ∧ s.qpStop e p = none ∧ 1 ≤ ws.length ∧ ws.length ≤ 16) ∧
      ((s.queue (s.qpQueue e p)).ex = true ∧ (s.queue (s.qpQueue e p)).anyTorn = false ∧ (s.queue (s.qpQueue e p)).cfg.mode = 0 ∧ ws.length ≤ (s.queue (s.qpQueue e p)).cfg.cap) ∧
      ((s.storeAll (s.qpQueue e p) (s.queue (s.qpQueue e p)) ws).isSome = true)) ∧
    (∃ (s : State) (e : Fin 48) (p : Fin 16) (n : BitVec 5) (_untilEnd : Bool), s.canon = true ∧
      ((s.wordAt (s.qpQueue e p)).any fun w => decide (True ∧
      (s.canAct e = true ∧ s.qpStop e p = none ∧ (s.queue (s.qpQueue e p)).ex = true ∧ (s.queue (s.qpQueue e p)).anyTorn = false ∧ n = 1 ∧ (s.queue (s.qpQueue e p)).hurt = [])) = true)) ∧
    (∃ (s : State) (e : Fin 48) (p : Fin 16), s.canon = true ∧
      ((s.wordAt (s.qpQueue e p)).any fun w => decide (True ∧
      (s.canAct e = true ∧ s.qpStop e p = none ∧ (s.queue (s.qpQueue e p)).ex = true ∧ (s.queue (s.qpQueue e p)).anyTorn = false ∧ (s.queue (s.qpQueue e p)).hurt = [])) = true)) ∧
    (∃ (s : State) (e : Fin 48) (p : Fin 16) (op : BitVec 4) (_count : Word), s.canon = true ∧
      (s.canAct e = true ∧ s.qpStop e p = none ∧ (s.queue (s.qpQueue e p)).ex = true ∧ (s.queue (s.qpQueue e p)).anyTorn = false ∧ s.runs .core = true) ∧
      (op = 1)) ∧
    (∃ (s : State) (e : Fin 48) (p : Fin 16), s.canon = true ∧
      (s.canAct e = true ∧ s.qpStop e p = none)) ∧
    (∃ (s : State) (e : Fin 48), s.canon = true ∧
      (((s.net (e.val / 4)).rx.find? (fun f => f.engine == e.val && !f.taken)).any fun f => decide (True ∧
      (s.canAct e = true ∧ s.attached e = true ∧ s.ceState e = ceRunning)) = true)) ∧
    (∃ (s : State) (e : Fin 48) (gs : List (BitVec 11)), s.canon = true ∧
      (s.canAct e = true ∧ s.attached e = true) ∧
      (gs.all (fun g => (s.heldGranules e).contains g.toNat) = true ∧ (gs.map (·.toNat)).eraseDups.length = gs.length)) ∧
    (∃ (s : State) (e : Fin 48) (_payload : BitVec 128), s.canon = true ∧
      (s.canAct e = true ∧ s.runs .core = true)) :=
  ⟨⟨liveEng, 4, by decide +kernel⟩,
    ⟨liveEngAbort .handler, 4, by decide +kernel⟩,
    ⟨liveEng, 4, [7, 8], by decide +kernel⟩,
    ⟨(liveEng.on (CE_STAT.IN_FULL 4)), 4, by decide +kernel⟩,
    ⟨liveEng, 4, 0, by decide +kernel⟩,
    ⟨(liveEng.on (CE_STAT.OUT_FULL 4)), 4, by decide +kernel⟩,
    ⟨liveEngQ, 4, 2, [{ data := 4, fin := true }], by decide +kernel⟩,
    ⟨liveEngQWord, 4, 2, 1, false, by decide +kernel⟩,
    ⟨liveEngQWord, 4, 2, by decide +kernel⟩,
    ⟨liveEngQ, 4, 2, 1, 0, by decide +kernel⟩,
    ⟨liveEngQ, 4, 2, by decide +kernel⟩,
    ⟨liveRx, 4, by decide +kernel⟩,
    ⟨liveRxTaken, 4, [3], by decide +kernel⟩,
    ⟨liveEng, 4, 0x123, by decide +kernel⟩⟩

/-- States and operands that meet the hypotheses of EngineTimeCompletes. -/
theorem witness_EngineTimeCompletes :
    (∃ (s : State) (e : Fin 48) (i : Fin 8) (_sec : BitVec 48) (ns : Word) (_period : Word64), s.canon = true ∧
      (s.canAct e = true ∧ i.val < s.hdrTimers (s.eng e).slot ∧ ns.toNat < second)) ∧
    (∃ (s : State) (e : Fin 48) (i : Fin 8) (take : Bool), s.canon = true ∧
      ((s.timer e i).armed = true ∧ s.ceState e ≠ ceAborting ∧ take = false ∧ (s.timer e i).ready = none)) ∧
    (∃ (s : State) (e : Fin 48) (i : Fin 8), s.canon = true ∧
      ((s.timer e i).armed = true ∧ s.ceState e = ceRunning ∧ s.canAct e = true ∧ (s.timer e i).ready = none)) ∧
    (∃ (s : State) (e : Fin 48), s.canon = true ∧
      (s.canAct e = true ∧ s.tbPort e = true ∧ s.time.engFresh = false)) ∧
    (∃ (s : State) (e : Fin 48), s.canon = true ∧
      (s.canAct e = true ∧ s.tbPort e = true)) ∧
    (∃ (s : State) (e : Fin 48) (_a : Word), s.canon = true ∧
      (s.canAct e = true ∧ s.tbPort e = true ∧ s.bit (CE_STAT.TB_VALID e) = false)) ∧
    (∃ (s : State) (e : Fin 48) (_a : Word), s.canon = true ∧
      (s.canAct e = true ∧ s.tbPort e = true ∧ s.bit (CE_STAT.TB_VALID e) = true ∧ s.engineSteers = true)) ∧
    (∃ (s : State) (e : Fin 48) (theta : Word64) (add : Bool), s.canon = true ∧
      (s.canAct e = true ∧ s.tbPort e = true ∧ s.bit (CE_STAT.TB_VALID e) = true ∧ s.engineSteers = true) ∧
      (theta = 0 ∧ add = false ∧ s.time.slew = 0 ∧ s.time.step = none)) ∧
    (∃ (s : State) (e : Fin 48) (sec : BitVec 48) (ns : Word), s.canon = true ∧
      (s.canAct e = true ∧ s.tbPort e = true ∧ s.bit (CE_STAT.TB_VALID e) = true ∧ s.engineSteers = true ∧ s.time.step = none) ∧
      (s.now + 1000000 < sec.toNat * second + min ns.toNat 999999999 ∧ s.now < timeMax / 4 ∧ sec.toNat * second < timeMax / 4)) ∧
    (∃ (s : State) (e : Fin 48), s.canon = true ∧
      (s.canAct e = true)) :=
  ⟨⟨liveEng, 4, 1, 0, 500, 20, by decide +kernel⟩,
    ⟨liveTimer, 4, 1, false, by decide +kernel⟩,
    ⟨liveTimer, 4, 1, by decide +kernel⟩,
    ⟨liveTbEng, 4, by decide +kernel⟩,
    ⟨(liveTbEng.on (CE_STAT.TB_VALID 4)), 4, by decide +kernel⟩,
    ⟨liveTbEng, 4, 5, by decide +kernel⟩,
    ⟨liveTbSteer, 4, 5, by decide +kernel⟩,
    ⟨liveTbSteer, 4, 0, false, by decide +kernel⟩,
    ⟨liveTbSteer, 4, 200, 5, by decide +kernel⟩,
    ⟨liveEng, 4, by decide +kernel⟩⟩

/-- States and operands that meet the hypotheses of NetworkLinksComplete. -/
theorem witness_NetworkLinksComplete :
    (∃ (s : State) (p : Fin 12) (_word : Option (BitVec 16)), s.canon = true ∧
      (s.netOn p = true ∧ s.netUp p = false ∧ s.bit (NP_CTRL.AN_EN p) = false)) ∧
    (∃ (s : State) (p : Fin 12) (word : BitVec 16), s.canon = true ∧
      (s.netOn p = true ∧ s.netUp p = false ∧ s.bit (NP_CTRL.AN_EN p) = true ∧ wordHalf (s.sgmii p) word = false)) ∧
    (∃ (s : State) (p : Fin 12) (word : BitVec 16), s.canon = true ∧
      (s.netOn p = true ∧ s.netUp p = false ∧ s.bit (NP_CTRL.AN_EN p) = true ∧ wordHalf (s.sgmii p) word = true)) ∧
    (∃ (s : State) (p : Fin 12), s.canon = true ∧
      (s.netUp p = true)) ∧
    (∃ (s : State) (p : Fin 12) (word : BitVec 16), s.canon = true ∧
      (s.netOn p = true ∧ s.sgmii p = true ∧ s.bit (NP_CTRL.AN_EN p) = true ∧ s.netUp p = true ∧ wordHalf true word = false)) ∧
    (∃ (s : State) (_o : Origin) (p : Fin 12) (v : Word), s.canon = true ∧
      (s.committed = true ∧ fldOf (NP_CTRL.PWR_OFF p) v = 1 ∧ (s.net p).wire = none ∧ (s.net p).drained = false ∧ s.clk.nserStop = false)) ∧
    (∃ (s : State) (_o : Origin) (p : Fin 12) (v : Word), s.canon = true ∧
      (s.committed = true ∧ fldOf (NP_CTRL.PWR_OFF p) v = 0)) ∧
    (∃ (s : State) (e : Fin 48), s.canon = true ∧
      (s.canAct e = true ∧ s.attached e = true)) ∧
    (∃ (s : State) (m : Fin 2) (_v : Word), s.canon = true ∧
      (s.committed = true ∧ s.runs .nser = true ∧ s.bit (MD_STAT.BUSY m) = false)) ∧
    (∃ (s : State) (m : Fin 2) (_data : BitVec 16), s.canon = true ∧
      (s.bit (MD_STAT.BUSY m) = true)) :=
  ⟨⟨liveNetDown, 1, none, by decide +kernel⟩,
    ⟨(liveNetDown.on (NP_CTRL.AN_EN 1)), 1, 0x1800, by decide +kernel⟩,
    ⟨(liveNetDown.on (NP_CTRL.AN_EN 1)), 1, 0x800, by decide +kernel⟩,
    ⟨liveNet, 1, by decide +kernel⟩,
    ⟨(liveNet.on (NP_CTRL.AN_EN 1)), 1, 0x1400, by decide +kernel⟩,
    ⟨liveNet, .host, 1, 3, by decide +kernel⟩,
    ⟨liveNet, .host, 1, 1, by decide +kernel⟩,
    ⟨liveNet, 4, by decide +kernel⟩,
    ⟨live, 1, 0x20000, by decide +kernel⟩,
    ⟨(live.on (MD_STAT.BUSY 1)), 1, 0xABCD, by decide +kernel⟩⟩

/-- States and operands that meet the hypotheses of FramesComplete. -/
theorem witness_FramesComplete :
    (∃ (s : State) (p : Fin 12) (_ago : Word) (_bs : List Byte), s.canon = true ∧
      (s.netUp p = true ∧ s.netOn p = true ∧ s.bit (NP_CTRL.LOOPBACK p) = false ∧ (s.net p).incoming = none ∧ s.ctMode p = 0)) ∧
    (∃ (s : State) (p : Fin 12) (_ago : Word) (bs : List Byte) (_sym : Bool), s.canon = true ∧
      (s.netUp p = true ∧ s.netOn p = true ∧ s.bit (NP_CTRL.LOOPBACK p) = false ∧ (s.net p).incoming = none ∧ s.ctMode p = 0 ∧ bs.length < 64)) ∧
    (∃ (s : State) (p : Fin 12) (_ago : Word) (bs : List Byte) (_sym : Bool), s.canon = true ∧
      (s.netUp p = true ∧ s.netOn p = true ∧ s.bit (NP_CTRL.LOOPBACK p) = false ∧ (s.net p).incoming = none ∧ s.ctMode p = 0 ∧ max 64 (s.rd (NP_RXCFG.MAX_LEN p)) < bs.length)) ∧
    (∃ (s : State) (p : Fin 12) (_ago : Word) (bs : List Byte), s.canon = true ∧
      (s.netUp p = true ∧ s.netOn p = true ∧ s.bit (NP_CTRL.LOOPBACK p) = false ∧ (s.net p).incoming = none ∧ s.ctMode p = 0 ∧ fcsGood bs = false) ∧
      (64 ≤ bs.length ∧ bs.length ≤ max 64 (s.rd (NP_RXCFG.MAX_LEN p)) ∧ s.bit (NP_CTRL.KEEP_BAD p) = false)) ∧
    (∃ (s : State) (p : Fin 12) (_ago : Word) (bs : List Byte), s.canon = true ∧
      (s.netUp p = true ∧ s.netOn p = true ∧ s.bit (NP_CTRL.LOOPBACK p) = false ∧ (s.net p).incoming = none ∧ s.ctMode p = 0 ∧ fcsGood bs = true) ∧
      (64 ≤ bs.length ∧ bs.length ≤ max 64 (s.rd (NP_RXCFG.MAX_LEN p)) ∧ (s.serving p) = [])) ∧
    (∃ (s : State) (e : Fin 48) (d0 : Word) (_d1 : Word) (_d2 : Word) (frame : List Byte), s.canon = true ∧
      (s.canAct e = true ∧ s.attached e = true ∧ s.bit (NP_CTRL.PWR_OFF (e.val / 4)) = false ∧ s.netUp (e.val / 4) = true) ∧
      (14 ≤ d0.toNat % 0x4000 ∧ d0.toNat % 0x4000 ≤ 16379 ∧ d0.getLsbD 20 = false ∧ frame.length = d0.toNat % 0x4000) ∧
      ((s.net (e.val / 4)).waiting = [])) ∧
    (∃ (s : State) (p : Fin 12), s.canon = true ∧
      (((s.net p).waiting.head?).any fun f => decide (True ∧
      (s.netUp p = true ∧ (s.net p).wire = none ∧ s.runs .nser = true ∧ s.bit (NP_GCL_CTRL.GATE_EN p) = false) ∧
      ((s.net p).waiting = [f] ∧ f.cls < 8 ∧ f.whole = true ∧ f.oneStep = false ∧ (s.net p).gap ≤ s.time.tick)) = true)) ∧
    (∃ (s : State) (p : Fin 12), s.canon = true ∧
      (((s.net p).wire).any fun x => decide (True ∧
      (x.frame.whole = true ∧ s.bit (NP_CTRL.PWR_OFF p) = false ∧ s.bit (NP_CTRL.LOOPBACK p) = false ∧ s.clk.nserStop = false)) = true)) ∧
    (∃ (s : State) (p : Fin 12), s.canon = true ∧
      (((s.net p).wire).any fun x => decide (True ∧
      (x.frame.whole = true ∧ s.bit (NP_CTRL.PWR_OFF p) = false ∧ s.bit (NP_CTRL.LOOPBACK p) = true ∧ s.clk.nserStop = false)) = true)) ∧
    (∃ (s : State) (e : Fin 48), s.canon = true ∧
      (((s.eng e).statuses.head?).any fun ws => decide (True ∧
      (s.canAct e = true ∧ s.attached e = true)) = true)) :=
  ⟨⟨liveNet, 1, 8, [1, 2], by decide +kernel⟩,
    ⟨liveNet, 1, 8, [1, 2, 3], false, by decide +kernel⟩,
    ⟨(liveNet.wr (NP_RXCFG.MAX_LEN 1) 64), 1, 8, (List.replicate 70 0), false, by decide +kernel⟩,
    ⟨liveNet, 1, 8, (List.replicate 64 0), by decide +kernel⟩,
    ⟨liveNetAlone, 1, 8, (List.replicate 60 0 ++ fcsOf (List.replicate 60 0)), by decide +kernel⟩,
    ⟨liveNet, 4, 0x1000E, 0, 0, (List.replicate 14 7), by decide +kernel⟩,
    ⟨liveTxWait, 1, by decide +kernel⟩,
    ⟨liveWire, 1, by decide +kernel⟩,
    ⟨{ liveWire with regs := (liveWire.on (NP_CTRL.LOOPBACK 1)).regs }, 1, by decide +kernel⟩,
    ⟨{ liveNet with engines := (liveNet.setEng 4 { liveNet.eng 4 with statuses := [[9, 0, 0, 0]] }).engines }, 4, by decide +kernel⟩⟩

/-- States and operands that meet the hypotheses of PathsAndGatesComplete. -/
theorem witness_PathsAndGatesComplete :
    (∃ (s : State) (_o : Origin) (_p : Fin 12) (_v : Word), s.canon = true ∧
      (s.committed = true)) ∧
    (∃ (s : State) (e : Fin 48) (_mode : BitVec 2) (_cls : BitVec 3), s.canon = true ∧
      (s.canAct e = true ∧ s.attached e = true ∧ s.imageFlag e 0 = true)) ∧
    (∃ (s : State) (e : Fin 48) (seq : Byte), s.canon = true ∧
      (((s.net (e.val / 4)).rx.find? (fun f => f.engine == e.val && (f.taken || f.early) && (f.words.getD 1 0).toNat / 0x1000000 == seq.toNat && f.choice == .open_)).any fun f => decide (True ∧
      (s.canAct e = true ∧ s.attached e = true ∧ s.imageFlag e 0 = true ∧ s.rd (NP_CT.MODE (e.val / 4)) = 1) ∧
      (f.whole = true ∧ s.netUp (Nat.xor (e.val / 4) 1) = true) ∧
      (s.txGranules (Nat.xor (e.val / 4) 1) + granules f.bytes.length ≤ 2048)) = true)) ∧
    (∃ (s : State) (e : Fin 48) (seq : Byte), s.canon = true ∧
      (((s.net (e.val / 4)).rx.find? (fun f => f.engine == e.val && (f.taken || f.early) && (f.words.getD 1 0).toNat / 0x1000000 == seq.toNat && f.choice == .open_)).any fun f => decide (True ∧
      (s.canAct e = true ∧ s.attached e = true ∧ s.imageFlag e 0 = true ∧ s.rd (NP_CT.MODE (e.val / 4)) = 1)) = true)) ∧
    (∃ (s : State) (e : Fin 48) (_i : Byte) (_g : Byte) (_d : Word), s.canon = true ∧
      (s.canAct e = true ∧ s.attached e = true ∧ s.imageFlag e 2 = true)) ∧
    (∃ (s : State) (e : Fin 48) (_ns : Word), s.canon = true ∧
      (s.canAct e = true ∧ s.attached e = true ∧ s.imageFlag e 2 = true)) ∧
    (∃ (s : State) (e : Fin 48), s.canon = true ∧
      (s.canAct e = true ∧ s.attached e = true ∧ s.imageFlag e 2 = true)) ∧
    (∃ (s : State) (_o : Origin) (_p : Fin 12), s.canon = true ∧
      (s.committed = true)) ∧
    (∃ (s : State) (_o : Origin) (_p : Fin 12), s.canon = true) ∧
    (∃ (s : State) (p : Fin 12), s.canon = true ∧
      (((s.net p).pend).any fun x => decide (True) = true)) ∧
    (∃ (s : State) (p : Fin 12), s.canon = true ∧
      ((s.net p).oper.entries.isEmpty = false)) :=
  ⟨⟨liveNet, .host, 1, 0x12, by decide +kernel⟩,
    ⟨liveNet, 4, 1, 3, by decide +kernel⟩,
    ⟨livePath, 4, 0, by decide +kernel⟩,
    ⟨livePath, 4, 0, by decide +kernel⟩,
    ⟨liveNet, 4, 3, 0x81, 1000, by decide +kernel⟩,
    ⟨liveNet, 4, 5000, by decide +kernel⟩,
    ⟨liveNet, 4, by decide +kernel⟩,
    ⟨liveGates, .host, 1, by decide +kernel⟩,
    ⟨liveGates, .host, 1, by decide +kernel⟩,
    ⟨livePendGates, 1, by decide +kernel⟩,
    ⟨liveGates, 1, by decide +kernel⟩⟩

/-- States and operands that meet the hypotheses of HostCommandsComplete. -/
theorem witness_HostCommandsComplete :
    (∃ (s : State) (entry : List Word) (sgl : List (Word64 × Word)), s.canon = true ∧
      ((s.nextRing).any fun n => decide (True ∧
      (s.hostUp = true ∧ s.partRuns .host = true ∧ s.entryFault entry sgl = none)) = true)) ∧
    (∃ (s : State) (entry : List Word) (_sgl : List (Word64 × Word)), s.canon = true ∧
      ((s.nextRing).any fun n => decide (True ∧
      (s.hostUp = true ∧ s.partRuns .host = true ∧ s.tagOut (entryTag entry) = false ∧ opTime < entryOp entry)) = true)) ∧
    (∃ (s : State) (tag : BitVec 12), s.canon = true ∧
      ((s.cmd? none tag.toNat).any fun c => decide (True ∧
      (s.startsHere c opNop = true)) = true)) ∧
    (∃ (s : State) (tag : BitVec 12) (payload : List Byte), s.canon = true ∧
      ((s.cmd? none tag.toNat).any fun c => decide (True ∧
      (s.startsHere c opPush = true ∧ (s.queue c.queue).ex = true ∧ (s.queue c.queue).anyTorn = false ∧ (s.queue c.queue).cfg.mode = 0) ∧
      (0 < entryLen c.entry ∧ payload.length = entryLen c.entry ∧ s.inlineCmd c.entry = false) ∧
      (payload.length ≤ min 16 (s.queue c.queue).cfg.cap * c.unit ∧ divUp payload.length c.unit ≤ s.totalCap c.queue) ∧
      ((s.storeAll c.queue (s.queue c.queue) (c.words payload)).isSome = true ∧ c.count = 0 ∧ payload.length % c.unit = 0)) = true)) ∧
    (∃ (s : State) (tag : BitVec 12), s.canon = true ∧
      ((s.cmd? none tag.toNat).any fun c => decide (True ∧
      ((s.wordAt c.queue).any fun w => decide (True ∧
      (s.startsHere c opPop = true ∧ (s.queue c.queue).ex = true ∧ (s.queue c.queue).anyTorn = false ∧ (s.queue c.queue).hurt = [] ∧ entryLen c.entry = c.unit) ∧
      (c.count = 0 ∧ c.seen = 0 ∧ c.out = [])) = true)) = true)) ∧
    (∃ (s : State) (tag : BitVec 12), s.canon = true ∧
      ((s.cmd? none tag.toNat).any fun c => decide (True ∧
      (s.startsHere c opQcmd = true ∧ (s.queue c.queue).ex = true ∧ (s.queue c.queue).anyTorn = false ∧ entryArg c.entry % 16 = 1)) = true)) ∧
    (∃ (s : State) (tag : BitVec 12), s.canon = true ∧
      ((s.cmd? none tag.toNat).any fun c => decide (True ∧
      (s.startsHere c opRegRead = true ∧ entryLen c.entry = 4) ∧
      ([TB_HADJ_RATE, GP_CNT_LOCKWR, LD_LEN, HI_CNT_CMD].contains (entryTarget c.entry) = true ∧ s.regExists (entryTarget c.entry) = true)) = true)) ∧
    (∃ (s : State) (tag : BitVec 12) (payload : List Byte), s.canon = true ∧
      ((s.cmd? none tag.toNat).any fun c => decide (True ∧
      (s.startsHere c opRegWrite = true ∧ entryLen c.entry = 4 ∧ payload.length = 4 ∧ s.inlineCmd c.entry = false) ∧
      (entryTarget c.entry = LD_LEN ∧ s.committed = true ∧ s.cfg.commit = none ∧ s.rst.request = none ∧ s.rst.asked = none)) = true)) ∧
    (∃ (s : State) (tag : BitVec 12), s.canon = true ∧
      ((s.cmd? none tag.toNat).any fun c => decide (True ∧
      (s.startsHere c opCall = true ∧ entryTarget c.entry < 48 ∧ s.bound (entryTarget c.entry) = true) ∧
      (s.clustersOff.contains (entryTarget c.entry / 4) = false ∧ s.ceState (entryTarget c.entry) = ceRunning ∧ s.bit (CL_CTRL.PWR_OFF (entryTarget c.entry / 4)) = false) ∧
      (s.bit (CE_STAT.IN_FULL (entryTarget c.entry)) = false ∧ c.entry.length = 16)) = true)) ∧
    (∃ (s : State) (tag : BitVec 12), s.canon = true ∧
      ((s.cmd? none tag.toNat).any fun c => decide (True ∧
      (c.started = true ∧ c.away = false ∧ entryOp c.entry = opCall ∧ c.posted = false ∧ s.partRuns .host = true) ∧
      (s.bound (entryTarget c.entry) = true ∧ s.clustersOff.contains (entryTarget c.entry / 4) = false) ∧
      (s.ceState (entryTarget c.entry) = ceRunning ∧ s.bit (CE_STAT.IN_FULL (entryTarget c.entry)) = false)) = true)) ∧
    (∃ (s : State) (e : Fin 48) (ws : List Word), s.canon = true ∧
      ((s.host.cmds.find? (fun c => !c.away && c.posted && entryOp c.entry == opCall && entryTarget c.entry == e.val && c.tag == (ws.headD 0).toNat % 4096)).any fun c => decide (True ∧
      (s.canAct e = true ∧ (ws.headD 0).getLsbD 31 = true ∧ c.owner = none ∧ s.host.holds (4 + e.val) < 8)) = true)) ∧
    (∃ (s : State) (tag : BitVec 12) (_payload : List Byte), s.canon = true ∧
      ((s.cmd? none tag.toNat).any fun c => decide (True ∧
      (s.startsHere c opSection = true ∧ (framesOf (entryLen c.entry)).isSome = true ∧ s.cfg.load = none ∧ s.cfg.line = [])) = true)) ∧
    (∃ (s : State) (tag : BitVec 12), s.canon = true ∧
      ((s.cmd? none tag.toNat).any fun c => decide (True ∧
      (s.startsHere c opTime = true)) = true)) ∧
    (∃ (s : State) (tag : BitVec 12), s.canon = true ∧
      ((s.cmd? none tag.toNat).any fun c => decide (True ∧
      ((s.wordAt c.queue).any fun w => decide (True ∧
      (c.started = true ∧ c.away = false ∧ s.partRuns .host = true ∧ entryOp c.entry = opPop ∧ entryLen c.entry = c.unit) ∧
      ((s.queue c.queue).ex = true ∧ (s.queue c.queue).anyTorn = false ∧ (s.queue c.queue).hurt = [] ∧ c.count = 0 ∧ c.seen = 0 ∧ c.out = [] ∧ s.host.holds srcQueue < 8)) = true)) = true)) ∧
    (∃ (s : State) (tag : BitVec 12), s.canon = true ∧
      ((s.cmd? none tag.toNat).any fun c => decide (True ∧
      ((c.waits).any fun k => decide (True ∧
      (c.started = true ∧ c.away = false ∧ s.partRuns .host = true ∧ entryTmo c.entry ≠ 0xFFFFFFFF ∧ c.count = 0 ∧ s.host.holds c.source < 8)) = true)) = true)) :=
  ⟨⟨liveHost, (entryOf 0 7 0 0), [], by decide +kernel⟩,
    ⟨liveHost, (entryOf 99 7 0 0), [], by decide +kernel⟩,
    ⟨liveCmd (entryOf 0 7 0 0), 7, by decide +kernel⟩,
    ⟨liveCmd (entryOf 1 7 5 8), 7, [1, 0, 0, 0, 2, 0, 0, 0], by decide +kernel⟩,
    ⟨liveCmdQ (entryOf 2 7 5 4), 7, by decide +kernel⟩,
    ⟨liveCmd (entryOf 3 7 5 0 1), 7, by decide +kernel⟩,
    ⟨liveCmd (entryOf 4 7 LD_LEN 4), 7, by decide +kernel⟩,
    ⟨liveCmd (entryOf 5 7 LD_LEN 4), 7, [1, 2, 0, 0], by decide +kernel⟩,
    ⟨liveCall (cmdOf (entryOf 6 7 4 0)), 7, by decide +kernel⟩,
    ⟨liveCall { cmdOf (entryOf 6 7 4 0) with started := true, waits := some 0 }, 7, by decide +kernel⟩,
    ⟨liveCall { cmdOf (entryOf 6 7 4 8) with started := true, posted := true }, 4, [0x80000007, 5, 6], by decide +kernel⟩,
    ⟨liveCmd (entryOf 7 7 0 4100), 7, [], by decide +kernel⟩,
    ⟨liveCmd (entryOf 8 7 0 0), 7, by decide +kernel⟩,
    ⟨liveWaiting, 7, by decide +kernel⟩,
    ⟨liveWaiting, 7, by decide +kernel⟩⟩

/-- States and operands that meet the hypotheses of RingsComplete. -/
theorem witness_RingsComplete :
    (∃ (s : State) (n : Fin 64) (v : Word), s.canon = true ∧
      (v.toNat % 0x10000 < s.sqSize n ∧ s.bit (SQ_STAT.ENABLED n) = true)) ∧
    (∃ (s : State) (n : Fin 64) (v : Word), s.canon = true ∧
      (s.sqSize n ≤ v.toNat % 0x10000 ∨ s.bit (SQ_STAT.ENABLED n) = false)) ∧
    (∃ (s : State) (n : Fin 64) (v : Word), s.canon = true ∧
      (v.toNat % 0x10000 < s.cqSize n ∧ s.bit (CQ_STAT.ENABLED n) = true ∧ v.toNat % 0x10000 ≠ (s.cq n).head) ∧
      ((v.toNat % 0x10000 + s.cqSize n - (s.cq n).head) % s.cqSize n ≤ (s.cq n).written ∧ (s.cq n).head < s.cqSize n)) ∧
    (∃ (s : State) (n : Fin 64) (_en : Bool), s.canon = true ∧
      (s.bit FEAT_STAT.COMMITTED = true ∧ s.bit (SQ_STAT.ENABLED n) = false ∧ s.bit (CQ_STAT.ENABLED (s.rd (SQ_CFG.CQ n))) = true)) ∧
    (∃ (s : State) (n : Fin 64) (_en : Bool), s.canon = true ∧
      (s.bit (CQ_STAT.ENABLED n) = false)) ∧
    (∃ (s : State) (_o : Origin), s.canon = true ∧
      (s.bit FEAT_STAT.COMMITTED = false)) ∧
    (∃ (s : State) (_o : Origin), s.canon = true ∧
      (s.bit FEAT_STAT.COMMITTED = true)) ∧
    (∃ (s : State) (cq : Fin 64), s.canon = true ∧
      ((s.nextSource cq).any fun x => decide (True ∧
      (s.hostUp = true ∧ s.bit (CQ_STAT.ENABLED cq) = true ∧ (s.cq cq).written < s.cqSize cq ∧ x.abt = false ∧ s.bit (CQ_CFG.IEN cq) = false) ∧
      (s.host.later = [])) = true)) ∧
    (∃ (s : State) (cq : Fin 64), s.canon = true ∧
      ((s.cq cq).unsent ≠ 0 ∧ s.coalesces cq = true ∧ s.bit (CQ_CFG.IEN cq) = true)) ∧
    (∃ (s : State) (_n : Fin 64), s.canon = true) ∧
    (∃ (s : State) (n : Fin 64), s.canon = true ∧
      ((s.nextSource n).any fun x => decide (True ∧
      (s.host.later = [])) = true)) ∧
    (∃ (s : State) (tag : BitVec 12) (_got : List Byte), s.canon = true ∧
      ((s.cmd? none tag.toNat).any fun c => decide (True ∧
      (s.startsHere c opSection = true)) = true)) ∧
    (∃ (s : State), s.canon = true ∧
      (s.bit HI_STAT.LINK_UP = true)) ∧
    (∃ (s : State) (_d3 : Bool) (_bme : Bool), s.canon = true ∧
      (s.bit HI_STAT.LINK_UP = true)) ∧
    (∃ (s : State) (_gen : BitVec 3) (_width : BitVec 3), s.canon = true ∧
      (s.bit HI_STAT.LINK_UP = false ∧ s.runs .hser = true ∧ s.rd RST_STAT.PHASE = 8)) ∧
    (∃ (s : State) (v : Fin 64), s.canon = true ∧
      (s.regBit (MSIX_PBA (v.val / 32)) (v.val % 32) = true ∧ s.bit HI_STAT.LINK_UP = true ∧ s.rd HI_STAT.DSTATE = 0 ∧ s.bit HI_STAT.BME = true)) :=
  ⟨⟨liveHost, 2, 3, by decide +kernel⟩,
    ⟨liveHost, 3, 3, by decide +kernel⟩,
    ⟨(liveHost.setCq 1 { written := 2 }), 1, 1, by decide +kernel⟩,
    ⟨(liveHost.wr (SQ_CFG.CQ 3) 1), 3, true, by decide +kernel⟩,
    ⟨liveHost, 3, true, by decide +kernel⟩,
    ⟨live, .host, by decide +kernel⟩,
    ⟨liveHost, .host, by decide +kernel⟩,
    ⟨liveHeld, 1, by decide +kernel⟩,
    ⟨liveCoalesce, 1, by decide +kernel⟩,
    ⟨liveHost, 2, by decide +kernel⟩,
    ⟨liveHeld, 1, by decide +kernel⟩,
    ⟨liveCmd (entryOf 7 7 0 4100), 7, [], by decide +kernel⟩,
    ⟨liveHost, by decide +kernel⟩,
    ⟨liveHost, true, false, by decide +kernel⟩,
    ⟨live, 4, 2, by decide +kernel⟩,
    ⟨(liveHost.setReg (MSIX_PBA 0) 0x20), 5, by decide +kernel⟩⟩

/-- States and operands that meet the hypotheses of AbortsComplete. -/
theorem witness_AbortsComplete :
    (∃ (s : State) (_m : Master) (dev : Fin 64) (object : Half) (tag : BitVec 12) (cq : Fin 64), s.canon = true ∧
      (s.abortTaken 1 object.toNat tag.toNat cq = true ∧ dev.val = s.ownNum ∧ s.host.cmds = [] ∧ (s.tw object.toNat).guard.loads = [])) ∧
    (∃ (s : State) (_m : Master) (dev : Fin 64) (object : Half) (tag : BitVec 12) (cq : Fin 64), s.canon = true ∧
      (s.abortTaken 2 object.toNat tag.toNat cq = true ∧ dev.val = s.ownNum ∧ s.host.cmds.all (fun c => c.owner.isNone) = true)) ∧
    (∃ (s : State) (_m : Master) (dev : Fin 64) (object : Half) (tag : BitVec 12) (cq : Fin 64), s.canon = true ∧
      (s.abortTaken 3 object.toNat tag.toNat cq = true ∧ dev.val = s.ownNum ∧ s.ceState object.toNat = ceRunning)) ∧
    (∃ (s : State) (_m : Master) (_dev : Fin 64) (object : Half) (tag : BitVec 12) (cq : Fin 64), s.canon = true ∧
      (s.abortTaken 4 object.toNat tag.toNat cq = true ∧ s.host.cmds = [])) ∧
    (∃ (s : State) (_m : Master) (_dev : Fin 64) (object : Half) (tag : BitVec 12) (cq : Fin 64), s.canon = true ∧
      ((s.cmd? none object.toNat).any fun c => decide (True ∧
      (s.abortTaken 5 object.toNat tag.toNat cq = true ∧ s.host.cmds = [c] ∧ c.away = false ∧ entryOp c.entry ≠ opSection ∧ s.host.holds c.source < 7) ∧
      (c.source ≠ srcAbort ∧ s.cfg.load = none ∧ s.cfg.line = [])) = true)) ∧
    (∃ (s : State) (_m : Master) (_kind : Fin 11) (_dev : Fin 64) (_object : Half) (tag : BitVec 12) (cq : Fin 64), s.canon = true ∧
      (s.bit (CQ_STAT.ENABLED cq) = true ∧ s.abortSlots < 64 ∧ s.tagOut tag.toNat = false)) :=
  ⟨⟨liveHost, .host, 0, 3, 9, 1, by decide +kernel⟩,
    ⟨liveHost, .host, 0, 5, 9, 1, by decide +kernel⟩,
    ⟨liveHostEng, .host, 0, 4, 9, 1, by decide +kernel⟩,
    ⟨liveHost, .host, 0, 2, 9, 1, by decide +kernel⟩,
    ⟨liveCmd (entryOf 0 7 0 0), .host, 0, 7, 9, 1, by decide +kernel⟩,
    ⟨liveHost, .host, 3, 0, 0, 9, 1, by decide +kernel⟩⟩

/-- States and operands that meet the hypotheses of ConfigurationCompletes. -/
theorem witness_ConfigurationCompletes :
    (∃ (s : State) (_o : Origin) (_v : Word), s.canon = true ∧
      (s.cfg.load = none ∧ (framesOf (s.rd CF_LEN.LEN)).isSome = true)) ∧
    (∃ (s : State) (_o : Origin) (_v : Word), s.canon = true ∧
      (s.cfg.load.isSome = true)) ∧
    (∃ (s : State) (_o : Origin), s.canon = true ∧
      ((s.cfg.load).any fun l => decide (True ∧
      (l.src = .stream ∧ s.cfg.line = [])) = true)) ∧
    (∃ (s : State) (o : Origin) (_v : Word), s.canon = true ∧
      ((s.cfg.load).any fun l => decide (True ∧
      (l.org = o ∧ l.src = .stream ∧ l.passed = false ∧ l.bytes.length < l.len ∧ (l.bytes.length + 4) % 4096 ≠ 0)) = true)) ∧
    (∃ (s : State) (o : Origin) (_v : Word), s.canon = true ∧
      ((s.cfg.load).any fun l => decide (True ∧
      (l.org ≠ o)) = true)) ∧
    (∃ (s : State), s.canon = true ∧
      ((s.cfg.load).any fun l => decide (True ∧
      (l.passed = false ∧ l.len ≤ l.bytes.length ∧ s.partRuns .engines = true ∧ s.cfgWaits = false ∧ l.src = .stream ∧ s.cfg.line = [])) = true)) ∧
    (∃ (s : State), s.canon = true ∧
      ((s.cfg.commit).any fun c => decide (True ∧
      ((c.todo.head?).any fun k => decide (True ∧
      (s.cfgWaits = false ∧ c.now = 0 ∧ c.first = false)) = true)) = true)) ∧
    (∃ (s : State), s.canon = true ∧
      ((s.cfg.commit).any fun c => decide (True ∧
      (s.cfgWaits = false ∧ c.now = 0 ∧ c.todo = [] ∧ c.first = false ∧ s.cfg.load = none ∧ s.cfg.line = [] ∧ s.cfg.late = [])) = true)) ∧
    (∃ (s : State), s.canon = true ∧
      ((s.cfg.commit).any fun c => decide (True ∧
      (s.cfgWaits = false ∧ c.now ≠ 0 ∧ c.now ≠ 7 ∧ c.nets = [] ∧ c.todo ≠ [] ∧ s.reached c c.now = true ∧ s.cfg.late = [])) = true)) ∧
    (∃ (s : State) (p : Fin 16), s.canon = true ∧
      (((s.port p).reload).any fun r => decide (True ∧
      (r.structural = true ∧ r.drained = none ∧ s.twRuns p = false ∧ s.cfgWaits = false ∧ s.runs .port = true)) = true)) ∧
    (∃ (s : State) (p : Fin 16), s.canon = true ∧
      (((s.port p).reload).any fun r => decide (True ∧
      ((r.words.head?).any fun x => decide (True ∧
      (r.structural = false ∧ r.words = [x] ∧ x.1 = SP_BREAK p ∧ s.cfg.commit.isSome = true ∧ s.committed = true ∧ s.cfgWaits = false ∧ s.runs .port = true) ∧
      ((s.port p).rxChar = none ∧ (s.port p).cand = none)) = true)) = true)) ∧
    (∃ (s : State) (p : Fin 16), s.canon = true ∧
      (((s.port p).reload).any fun r => decide (True ∧
      (r.structural = true ∧ r.drained.isSome = true ∧ s.cfgWaits = false ∧ s.runs .port = true) ∧
      ((s.port p).rxChar = none ∧ (s.port p).cand = none)) = true)) ∧
    (∃ (s : State) (k : Fin 8), s.canon = true ∧
      ((s.eic.waiting.find? (fun x => x.targets.contains k.val)).any fun w => decide (True ∧
      (s.cfgWaits = false ∧ s.partRuns .eic = true)) = true)) :=
  ⟨⟨(live.wr CF_LEN.LEN 4100), .host, 1, by decide +kernel⟩,
    ⟨liveCf, .host, 1, by decide +kernel⟩,
    ⟨liveCf, .host, by decide +kernel⟩,
    ⟨liveCf, .host, 0x12345678, by decide +kernel⟩,
    ⟨liveCf, .calm, 7, by decide +kernel⟩,
    ⟨liveCfWhole, by decide +kernel⟩,
    ⟨liveCommit, by decide +kernel⟩,
    ⟨liveCommitEnd, by decide +kernel⟩,
    ⟨liveSection, by decide +kernel⟩,
    ⟨liveReload true none, 3, by decide +kernel⟩,
    ⟨liveReload false none, 3, by decide +kernel⟩,
    ⟨liveReload true (some 0), 3, by decide +kernel⟩,
    ⟨liveRoute, 2, by decide +kernel⟩⟩

/-- States and operands that meet the hypotheses of CalmReadsAndBuffersComplete. -/
theorem witness_CalmReadsAndBuffersComplete :
    (∃ (s : State) (tx : CalmTx), s.canon = true ∧
      (s.calmSilent = false ∧ tx.crcOk = true ∧ s.calm.work = none ∧ txAddr tx = 0 ∧ 1 ≤ txLen tx ∧ txLen tx ≤ 8)) ∧
    (∃ (s : State) (tx : CalmTx), s.canon = true ∧
      (s.calmSilent = false ∧ tx.crcOk = true ∧ s.calm.work = none ∧ 1 ≤ txLen tx ∧ txLen tx ≤ 64)) ∧
    (∃ (s : State) (tx : CalmTx) (data : List Word), s.canon = true ∧
      (s.calmSilent = false ∧ tx.crcOk = true ∧ s.calm.work = none ∧ txLen tx = 1 ∧ txAddr tx = 4 ∧ data = [3])) ∧
    (∃ (s : State) (tx : CalmTx) (data : List Word), s.canon = true ∧
      (s.calmSilent = false ∧ tx.crcOk = true ∧ s.calm.work = none ∧ s.memOk = true) ∧
      (1 ≤ txLen tx ∧ txAddr tx + txLen tx ≤ 1024 ∧ data.length = txLen tx)) ∧
    (∃ (s : State) (tx : CalmTx), s.canon = true ∧
      (s.calmSilent = false ∧ tx.crcOk = true ∧ s.calm.work = none ∧ 1 ≤ txLen tx ∧ txAddr tx + txLen tx ≤ 1024)) ∧
    (∃ (s : State) (tx : CalmTx), s.canon = true ∧
      (s.calmSilent = false ∧ tx.crcOk = true ∧ s.calm.work = none ∧ txAddr tx = 0 ∧ txLen tx = 0)) ∧
    (∃ (s : State) (tx : CalmTx), s.canon = true ∧
      ((s.calm.work).any fun k => decide (True ∧
      (s.calmSilent = false ∧ tx.crcOk = true ∧ txAddr tx = 0 ∧ txLen tx = 0 ∧ 80 + 8 * tx.after.toNat < k.left)) = true)) ∧
    (∃ (s : State) (bytes : Half), s.canon = true ∧
      ((s.calm.work).any fun k => decide (True ∧
      (s.calmSilent = false ∧ 8 * bytes.toNat < k.left)) = true)) ∧
    (∃ (s : State), s.canon = true ∧
      (s.calmSilent = false ∧ s.calm.work.isSome = true)) ∧
    (∃ (s : State), s.canon = true ∧
      (s.calmSilent = false)) ∧
    (∃ (s : State), s.canon = true ∧
      (s.calmSilent = false)) :=
  ⟨⟨live, (tx 0 8), by decide +kernel⟩,
    ⟨live, (tx 4 2), by decide +kernel⟩,
    ⟨live, (tx 4 1), [3], by decide +kernel⟩,
    ⟨live, (tx 1022 2), [5, 6], by decide +kernel⟩,
    ⟨live, (tx 0 3), by decide +kernel⟩,
    ⟨live, (tx 0 0), by decide +kernel⟩,
    ⟨liveWork, { tx 0 0 with after := 3 }, by decide +kernel⟩,
    ⟨liveWork, 5, by decide +kernel⟩,
    ⟨liveWork, by decide +kernel⟩,
    ⟨live, by decide +kernel⟩,
    ⟨live, by decide +kernel⟩⟩

/-- States and operands that meet the hypotheses of StoreOperationsComplete. -/
theorem witness_StoreOperationsComplete :
    (∃ (s : State) (tx : CalmTx), s.canon = true ∧
      (s.calmSilent = false ∧ tx.crcOk = true ∧ tx.after = 0 ∧ s.calm.work = none) ∧
      (firstAck (s.storeChecks 0x21 (txAddr tx) (txLen tx)) = 0x5A)) ∧
    (∃ (s : State) (tx : CalmTx), s.canon = true ∧
      (s.calmSilent = false ∧ tx.crcOk = true ∧ tx.after = 0 ∧ s.calm.work = none) ∧
      (firstAck (s.storeChecks 0x22 (txAddr tx) (txLen tx)) = 0x5A)) ∧
    (∃ (s : State) (tx : CalmTx) (_data : List Word), s.canon = true ∧
      (s.calmSilent = false ∧ tx.crcOk = true ∧ tx.after = 0 ∧ s.calm.work = none) ∧
      (firstAck (s.storeChecks 0x23 (txAddr tx) (txLen tx)) = 0x5A)) ∧
    (∃ (s : State) (tx : CalmTx), s.canon = true ∧
      (s.calmSilent = false ∧ tx.crcOk = true ∧ tx.after = 0 ∧ s.calm.work = none) ∧
      (firstAck (s.storeChecks 0x24 (txAddr tx) (txLen tx)) = 0x5A)) ∧
    (∃ (s : State) (tx : CalmTx) (_data : List Word), s.canon = true ∧
      (s.calmSilent = false ∧ tx.crcOk = true ∧ tx.after = 0 ∧ s.calm.work = none) ∧
      (firstAck (s.storeChecks 0x25 (txAddr tx) (txLen tx)) = 0x5A)) ∧
    (∃ (s : State) (_o : Origin) (v : Word), s.canon = true ∧
      (0x21 ≤ fldOf ST_CMD.OPC v ∧ fldOf ST_CMD.OPC v ≤ 0x25 ∧ s.calm.work = none) ∧
      (firstAck (s.storeChecks (fldOf ST_CMD.OPC v) (s.reg ST_ADDR).toNat (s.rd ST_LEN.LEN)) = 0x5A)) ∧
    (∃ (s : State) (_o : Origin) (v : Word), s.canon = true ∧
      (s.calm.work.isSome = true ∧ 0x21 ≤ fldOf ST_CMD.OPC v ∧ fldOf ST_CMD.OPC v ≤ 0x25) ∧
      (s.storeBadArg (fldOf ST_CMD.OPC v) (s.reg ST_ADDR).toNat (s.rd ST_LEN.LEN) = false)) ∧
    (∃ (s : State), s.canon = true ∧
      ((s.calm.work).any fun k => decide (True ∧
      (k.mail = true ∧ s.partRuns .engines = true ∧ k.opc = 0x22)) = true)) ∧
    (∃ (s : State), s.canon = true ∧
      (s.runs .core = true)) :=
  ⟨⟨liveBuf, (tx 0x10003 2), by decide +kernel⟩,
    ⟨live, (tx 0x10003 0), by decide +kernel⟩,
    ⟨live, (tx 0x20000 1), [4100], by decide +kernel⟩,
    ⟨live, (tx 0x30000 0), by decide +kernel⟩,
    ⟨live, (tx 0 1), [0xF3210], by decide +kernel⟩,
    ⟨live, .host, 0x22, by decide +kernel⟩,
    ⟨liveWork, .host, 0x22, by decide +kernel⟩,
    ⟨liveMail, by decide +kernel⟩,
    ⟨liveNotes, by decide +kernel⟩⟩

/-- States and operands that meet the hypotheses of PostedWritesAndBootComplete. -/
theorem witness_PostedWritesAndBootComplete :
    (∃ (s : State) (tx : CalmTx) (data : List Word), s.canon = true ∧
      (s.calmSilent = false ∧ tx.crcOk = true ∧ s.calm.work = none ∧ 1 ≤ txLen tx ∧ txLen tx ≤ 64 ∧ txAddr tx % 4 = 0) ∧
      (s.refclkOk = true ∧ s.calm.posted.length + txLen tx ≤ 64 ∧ data.length = txLen tx)) ∧
    (∃ (s : State), s.canon = true ∧
      ((s.calm.posted.head?).any fun x => decide (True ∧
      (s.crosses = true ∧ s.opLocal x.1 = true ∧ s.reachable (opDomain x.1) = true ∧ opBar2 x.1 = false) ∧
      (opOffset x.1 = LD_LEN ∧ s.committed = true ∧ s.cfg.commit = none ∧ s.rst.request = none ∧ s.rst.asked = none)) = true)) ∧
    (∃ (s : State) (tx : CalmTx), s.canon = true ∧
      (s.calmSilent = false ∧ tx.crcOk = true ∧ s.calm.work = none ∧ 1 ≤ txLen tx ∧ txLen tx ≤ 64 ∧ txAddr tx % 4 = 0 ∧ s.refclkOk = true)) ∧
    (∃ (s : State), s.canon = true ∧
      ((s.calm.want).any fun x => decide (True ∧
      (x.2 = (1, 0) ∧ s.calm.taking = none ∧ s.crosses = true ∧ s.opLocal x.1 = true ∧ s.reachable (opDomain x.1) = true) ∧
      (opBar2 x.1 = false ∧ opOffset x.1 = LD_LEN ∧ x.1.getLsbD 31 = false ∧ s.regExists LD_LEN = true)) = true)) ∧
    (∃ (s : State) (tx : CalmTx), s.canon = true ∧
      (s.calmSilent = false ∧ tx.crcOk = true ∧ s.calm.work = none ∧ 1 ≤ txLen tx ∧ txAddr tx + txLen tx ≤ 64)) ∧
    (∃ (s : State) (tx : CalmTx) (_data : List Word), s.canon = true ∧
      (s.calmSilent = false ∧ tx.crcOk = true ∧ s.calm.work = none ∧ firstAck (s.fuseChecks tx) = 0x5A)) ∧
    (∃ (s : State) (_back : Word), s.canon = true ∧
      ((s.calm.fuse).any fun f => decide (True) = true)) ∧
    (∃ (s : State) (tx : CalmTx), s.canon = true ∧
      (s.calmSilent = false ∧ tx.crcOk = true ∧ s.calm.work = none ∧ firstAck (s.bootChecks (txAddr tx) (txLen tx)) = 0x5A)) ∧
    (∃ (s : State), s.canon = true ∧
      ((s.calm.boot).any fun b => decide (True ∧
      (((b.slots.dropWhile (fun k => s.slotState k != 2)).head?).any fun k => decide (True ∧
      (s.partRuns .engines = true ∧ b.slot = none ∧ b.failed = none ∧ s.cfg.load = none ∧ s.cfg.line = [] ∧ k < 4)) = true)) = true)) ∧
    (∃ (s : State), s.canon = true ∧
      ((s.calm.boot).any fun b => decide (True ∧
      ((b.failed).any fun r => decide (True ∧
      (b.slot.isSome = true ∧ b.slots = [] ∧ r < 32)) = true)) = true)) ∧
    (∃ (s : State), s.canon = true ∧
      ((s.routeTo 0).any fun l => decide (True ∧
      (s.isMember = true ∧ s.bootSource = 2 ∧ s.rd CP_BOOTSTAT.STATE = 3 ∧ s.partRuns .engines = true ∧ s.ownNum ≠ 0)) = true)) ∧
    (∃ (s : State) (_bs : List Byte), s.canon = true ∧
      (s.isMember = true ∧ s.bootSource = 2 ∧ s.rd CP_BOOTSTAT.STATE = 3 ∧ s.cfg.load = none ∧ s.cfg.line = [])) ∧
    (∃ (s : State) (d : Fin 64), s.canon = true ∧
      ((s.memberSlot).any fun k => decide (True ∧
      ((s.routeTo d).any fun l => decide (True ∧
      (s.role = 1 ∧ s.partRuns .engines = true ∧ d.val ≠ s.ownNum)) = true)) = true)) :=
  ⟨⟨live, (tx 0x360004 2), [5, 6], by decide +kernel⟩,
    ⟨livePosted, by decide +kernel⟩,
    ⟨live, (tx 0x360004 2), by decide +kernel⟩,
    ⟨liveWant, by decide +kernel⟩,
    ⟨live, (tx 0 4), by decide +kernel⟩,
    ⟨liveRecovery, (tx 100 1), [5], by decide +kernel⟩,
    ⟨liveFuse, 5, by decide +kernel⟩,
    ⟨live, (tx 2 0), by decide +kernel⟩,
    ⟨liveSealed, by decide +kernel⟩,
    ⟨liveBootFailed, by decide +kernel⟩,
    ⟨liveBootMember, by decide +kernel⟩,
    ⟨liveBootMember, [1, 2], by decide +kernel⟩,
    ⟨liveRootSealed, 3, by decide +kernel⟩⟩

/-- States and operands that meet the hypotheses of InterruptsComplete. -/
theorem witness_InterruptsComplete :
    (∃ (s : State) (n : BitVec 11), s.canon = true ∧
      (privileged n.toNat = false ∧ n.toNat ≠ 0 ∧ s.partRuns .eic = true ∧ s.sense n.toNat = 0 ∧ (n.toNat ≤ 16 ∨ s.srcInput n.toNat = true)) ∧
      ((s.gate n.toNat).st = .idle)) ∧
    (∃ (s : State) (n : BitVec 11), s.canon = true ∧
      (privileged n.toNat = false ∧ n.toNat ≠ 0 ∧ s.partRuns .eic = true ∧ s.sense n.toNat = 0) ∧
      ((1 ≤ n.toNat ∧ n.toNat ≤ 16) ∨ (16 < n.toNat ∧ s.srcInput n.toNat = false)) ∧
      ((s.gate n.toNat).st = .pending ∧ (s.gate n.toNat).bySoft = false)) ∧
    (∃ (s : State) (_m : Master) (k : Fin 8) (gust : Bool), s.canon = true ∧
      (s.partRuns .eic = true ∧ s.topEligible k gust ≠ 0)) ∧
    (∃ (s : State) (_m : Master) (k : Fin 8) (gust : Bool), s.canon = true ∧
      (s.partRuns .eic = true ∧ s.topEligible k gust = 0 ∧ (if gust then (s.target k).raisedG else (s.target k).raisedB) = false)) ∧
    (∃ (s : State) (_m : Master) (k : Fin 8) (gust : Bool) (v : Word), s.canon = true ∧
      (v.toNat % 2048 ≠ 0 ∧ v.toNat % 2048 ≠ 2047 ∧ s.eic.waiting = [] ∧ s.eic.tcfgs = []) ∧
      ((s.gate (v.toNat % 2048)).st = .claimed ∧ (s.gate (v.toNat % 2048)).owner = k.val ∧ (s.gate (v.toNat % 2048)).gust = gust)) ∧
    (∃ (s : State) (_m : Master) (_k : Fin 8) (_gust : Bool) (v : Word), s.canon = true ∧
      (v.toNat % 2048 ≠ 0 ∧ v.toNat % 2048 ≠ 2047 ∧ (s.gate (v.toNat % 2048)).st ≠ .claimed)) ∧
    (∃ (s : State) (_m : Master) (i : Fin 64) (v : Word), s.canon = true ∧
      ((sourcesIn i v).length = 1)) ∧
    (∃ (s : State) (_m : Master) (i : Fin 64) (v : Word), s.canon = true ∧
      ((sourcesIn i v).length = 1 ∧ (sourcesIn i v).all (fun n => decide (229 ≤ n) && !privileged n) = true)) ∧
    (∃ (s : State) (d : Fin 64) (_lines : BitVec 6), s.canon = true ∧
      (d.val ≠ 0 ∧ s.partRuns .eic = true)) :=
  ⟨⟨live, 3, by decide +kernel⟩,
    ⟨(live.setGate 3 { st := .pending, input := true }), 3, by decide +kernel⟩,
    ⟨liveEligible, .host, 0, false, by decide +kernel⟩,
    ⟨live, .host, 0, false, by decide +kernel⟩,
    ⟨(live.setGate 300 { st := .claimed, owner := 2 }), .host, 2, false, 300, by decide +kernel⟩,
    ⟨live, .host, 2, false, 300, by decide +kernel⟩,
    ⟨live, .host, 10, 16, by decide +kernel⟩,
    ⟨(live.setGate 324 { st := .pending, bySoft := true }), .host, 10, 16, by decide +kernel⟩,
    ⟨liveRoot, 3, 5, by decide +kernel⟩⟩

/-- States and operands that meet the hypotheses of LogCompletes. -/
theorem witness_LogCompletes :
    (∃ (s : State) (c : Fin 16) (_idx : Byte) (_o : Origin) (pay : List Word), s.canon = true ∧
      (s.runs .core = true ∧ s.log.held = [] ∧ s.unlimited c = true ∧ pay.length ≤ 4 ∧ s.log.discards = false) ∧
      (s.log.q.held + 8 ≤ s.logCap * 8)) ∧
    (∃ (s : State) (c : Fin 16) (_idx : Byte) (_o : Origin) (pay : List Word), s.canon = true ∧
      (s.runs .core = true ∧ s.log.held = [] ∧ 2 ≤ c.val ∧ s.rd (EL_CLS_CFG.RATE c) = 0 ∧ pay.length ≤ 4)) ∧
    (∃ (s : State), s.canon = true ∧
      (s.runs .core = true ∧ s.log.held = [] ∧ s.isMember = false)) ∧
    (∃ (s : State) (_o : Origin) (c : Fin 16) (_v : Word), s.canon = true ∧
      (2 ≤ c.val)) ∧
    (∃ (s : State) (_d : Fin 64) (ws : List Word), s.canon = true ∧
      (ws.length = 8 ∧ s.log.discards = false ∧ s.log.q.held + 8 ≤ s.logCap * 8)) :=
  ⟨⟨live, 1, 9, .host, [1, 2], by decide +kernel⟩,
    ⟨(live.setReg (EL_CLS_CFG 5) 0), 5, 9, .host, [1, 2], by decide +kernel⟩,
    ⟨live, by decide +kernel⟩,
    ⟨live, .host, 5, 0x200010, by decide +kernel⟩,
    ⟨liveRoot, 3, [1, 2, 3, 4, 5, 6, 7, 8], by decide +kernel⟩⟩

/-- States and operands that meet the hypotheses of ClocksComplete. -/
theorem witness_ClocksComplete :
    (∃ (s : State) (count : BitVec 9), s.canon = true ∧
      (s.monGood count.toNat = true ∧ s.bit CK_STAT.REFCLK_OK = true)) ∧
    (∃ (s : State) (count : BitVec 9), s.canon = true ∧
      (s.monGood count.toNat = false ∧ s.bit CK_STAT.REFCLK_OK = true)) ∧
    (∃ (s : State) (count : BitVec 9), s.canon = true ∧
      (s.monGood count.toNat = true ∧ s.bit CK_STAT.REFCLK_OK = false ∧ 7 ≤ s.rd CK_MON.GOOD)) ∧
    (∃ (s : State), s.canon = true ∧
      (s.bit CK_STAT.REFCLK_OK = true)) ∧
    (∃ (s : State), s.canon = true ∧
      (s.bit CK_STAT.REFCLK_OK = true ∧ s.partRuns .eic = false) ∧
      (s.rd (EIC_TCFG.DELIV 0) = 2 ∧ (s.tmask clkFail).testBit 0 = true ∧ s.bit (EIC_SRC_CFG.EN clkFail) = true ∧ (s.target 0).gcount = 0)) ∧
    (∃ (s : State) (n : Fin 5) (c : BitVec 24), s.canon = true ∧
      (1 ≤ s.rd (CK_PLL.STATE n) ∧ s.rd (CK_PLL.STATE n) ≤ 3) ∧
      ((s.pllCount n).1 - (s.pllCount n).2 ≤ c.toNat ∧ c.toNat ≤ (s.pllCount n).1 + (s.pllCount n).2)) ∧
    (∃ (s : State) (n : Fin 5), s.canon = true ∧
      (s.pllInUse n = true)) ∧
    (∃ (s : State) (_plls : BitVec 5) (_on : Bool), s.canon = true) ∧
    (∃ (s : State) (n : Fin 5) (_forced : Bool), s.canon = true ∧
      (s.rd (CK_PLL.STATE n) = 2)) ∧
    (∃ (s : State) (_o : Origin), s.canon = true ∧
      (s.bit CK_STAT.BECALM_READY = true ∧ s.bit CK_STAT.ACK_WAIT = true)) ∧
    (∃ (s : State) (_o : Origin), s.canon = true ∧
      (s.bit CK_STAT.BECALM_READY = false)) ∧
    (∃ (s : State) (_rxd : BitVec 16), s.canon = true ∧
      ((s.clk.resume).any fun k => decide (True ∧
      (k = 2 ∧ s.rst.coreWaits = none)) = true)) ∧
    (∃ (s : State) (_o : Origin) (v : Word), s.canon = true ∧
      (s.bit CK_CFG.SPLL1_EN = false ∧ fldOf CK_CFG.SPLL1_EN v = 1) ∧
      (fldOf CK_CFG.DPLL_EN v = s.rd CK_CFG.DPLL_EN ∧ fldOf CK_CFG.DPLL_RATE v = s.rd CK_CFG.DPLL_RATE)) ∧
    (∃ (s : State) (_o : Origin) (v : Word), s.canon = true ∧
      (s.bit CK_CFG.DPLL_EN = false ∧ fldOf CK_CFG.DPLL_EN v = 0 ∧ fldOf CK_CFG.SPLL1_EN v = s.rd CK_CFG.SPLL1_EN)) :=
  ⟨⟨live, 250, by decide +kernel⟩,
    ⟨live, 100, by decide +kernel⟩,
    ⟨((live.off CK_STAT.REFCLK_OK).wr CK_MON.GOOD 7), 250, by decide +kernel⟩,
    ⟨live, by decide +kernel⟩,
    ⟨{ (live.wr (EIC_TCFG.DELIV 0) 2) with stopped := { live.stopped with becalm := [.core] } }, by decide +kernel⟩,
    ⟨live, 0, 40960, by decide +kernel⟩,
    ⟨live, 1, by decide +kernel⟩,
    ⟨live, 3, true, by decide +kernel⟩,
    ⟨((live.wr (CK_PLL.STATE 4) 2)), 4, false, by decide +kernel⟩,
    ⟨liveAck, .host, by decide +kernel⟩,
    ⟨live, .host, by decide +kernel⟩,
    ⟨{ liveAck with clk := { liveAck.clk with resume := some 2 } }, 0, by decide +kernel⟩,
    ⟨(live.setReg CK_CFG 0x60), .host, 0x62, by decide +kernel⟩,
    ⟨live, .host, 0x32, by decide +kernel⟩⟩

/-- States and operands that meet the hypotheses of ResetsComplete. -/
theorem witness_ResetsComplete :
    (∃ (s : State), s.canon = true ∧
      (s.rst.low = false)) ∧
    (∃ (s : State), s.canon = true ∧
      (s.rst.low = true ∧ s.rst.level = 0 ∧ s.rst.por = false ∧ s.rst.bring = 0 ∧ s.bit CK_STAT.BECALM = false)) ∧
    (∃ (s : State) (cycles : Word) (_strap : BitVec 4), s.canon = true ∧
      (s.rst.low = true ∧ s.rst.level = 0 ∧ cycles.toNat < 48)) ∧
    (∃ (s : State) (_strap : BitVec 4), s.canon = true ∧
      (s.rst.por = true ∧ s.rst.supplies = [] ∧ s.rst.low = false)) ∧
    (∃ (s : State) (_x : Fin 7), s.canon = true) ∧
    (∃ (s : State) (x : Fin 7), s.canon = true ∧
      (s.rst.supplies = [x.val])) ∧
    (∃ (s : State), s.canon = true ∧
      (2 ≤ s.rst.bring ∧ s.rst.por = false ∧ s.rst.low = false ∧ s.rst.toRelease = true)) ∧
    (∃ (s : State), s.canon = true ∧
      (2 ≤ s.rst.bring ∧ s.rst.por = false ∧ s.rst.low = false ∧ s.rst.toRelease = false ∧ s.rd RST_STAT.PHASE = 0) ∧
      (s.bit CK_STAT.REFCLK_OK = true)) ∧
    (∃ (s : State), s.canon = true ∧
      (2 ≤ s.rst.bring ∧ s.rst.por = false ∧ s.rst.low = false ∧ s.rst.toRelease = false ∧ s.rd RST_STAT.PHASE = 6)) ∧
    (∃ (s : State), s.canon = true ∧
      (s.rst.core = 1)) ∧
    (∃ (s : State), s.canon = true ∧
      (s.rst.core = 4)) ∧
    (∃ (s : State) (_o : Origin), s.canon = true ∧
      (s.rst.request = none ∧ s.rst.asked = none ∧ s.rst.por = false ∧ s.rst.bring = 0 ∧ s.bit CK_STAT.BECALM = false)) ∧
    (∃ (s : State) (_o : Origin) (_core : Bool), s.canon = true ∧
      (s.rst.request = none ∧ s.rst.asked = none ∧ s.rst.por = false ∧ s.rst.bring = 0)) :=
  ⟨⟨live, by decide +kernel⟩,
    ⟨liveLow, by decide +kernel⟩,
    ⟨liveLow, 10, 0, by decide +kernel⟩,
    ⟨State.reset, 4, by decide +kernel⟩,
    ⟨live, 3, by decide +kernel⟩,
    ⟨{ State.reset with rst := { State.reset.rst with supplies := [3] } }, 3, by decide +kernel⟩,
    ⟨{ State.reset with rst := { State.reset.rst with por := false, bring := 2, cause := 5, toRelease := true } }, by decide +kernel⟩,
    ⟨liveAon, by decide +kernel⟩,
    ⟨livePhase6, by decide +kernel⟩,
    ⟨{ live with rst := { live.rst with core := 1, bring := 1 } }, by decide +kernel⟩,
    ⟨{ live with rst := { live.rst with core := 4, bring := 1 } }, by decide +kernel⟩,
    ⟨live, .host, by decide +kernel⟩,
    ⟨live, .host, false, by decide +kernel⟩⟩

/-- States and operands that meet the hypotheses of PowerStatesComplete. -/
theorem witness_PowerStatesComplete :
    (∃ (s : State) (_o : Origin), s.canon = true ∧
      (s.rst.request = none ∧ s.rst.asked = none ∧ s.rst.bring = 0 ∧ s.rd PW_STAT.STATE = 0)) ∧
    (∃ (s : State) (_o : Origin), s.canon = true ∧
      (s.rst.request = none ∧ s.rst.asked = none ∧ s.rst.bring = 0 ∧ s.rd PW_STAT.STATE = 1)) ∧
    (∃ (s : State) (_o : Origin), s.canon = true ∧
      (s.rst.request = none ∧ s.rst.bring = 0 ∧ s.rd PW_STAT.STATE = 0)) ∧
    (∃ (s : State) (_o : Origin), s.canon = true ∧
      (s.rst.request = none ∧ s.rst.bring = 0 ∧ s.rd PW_STAT.STATE = 0)) ∧
    (∃ (s : State) (_o : Origin), s.canon = true ∧
      (s.rst.request = none ∧ s.rd PW_STAT.STATE = 3)) ∧
    (∃ (s : State), s.canon = true ∧
      (s.rd PW_STAT.STATE = 2 ∧ s.rst.entered = 3)) ∧
    (∃ (s : State) (causes : BitVec 14), s.canon = true ∧
      (s.rd PW_STAT.STATE = 3 ∧ causes &&& (s.reg PW_WAKE_EN).setWidth 14 ≠ 0 ∧ s.rst.entered = 6)) ∧
    (∃ (s : State) (_rxd : BitVec 16), s.canon = true ∧
      (s.rd PW_STAT.STATE = 4 ∧ s.rst.exitStep = 6 ∧ s.rst.entered ≠ 6 ∧ s.rst.bring = 0 ∧ s.rst.asked = none ∧ s.rst.request = none)) ∧
    (∃ (s : State) (_m : Master) (_off : BitVec 12) (_perr : BitVec 2), s.canon = true) ∧
    (∃ (s : State) (_m : Master) (_off : BitVec 12), s.canon = true) :=
  ⟨⟨live, .host, by decide +kernel⟩,
    ⟨(live.wr PW_STAT.STATE 1), .host, by decide +kernel⟩,
    ⟨live, .host, by decide +kernel⟩,
    ⟨live, .host, by decide +kernel⟩,
    ⟨(live.wr PW_STAT.STATE 3), .host, by decide +kernel⟩,
    ⟨liveEntering, by decide +kernel⟩,
    ⟨liveStill, 1, by decide +kernel⟩,
    ⟨liveLeaving, 0, by decide +kernel⟩,
    ⟨live, .host, 5, 1, by decide +kernel⟩,
    ⟨live, .host, 5, by decide +kernel⟩⟩

/-- States and operands that meet the hypotheses of PinsComplete. -/
theorem witness_PinsComplete :
    (∃ (s : State) (m : Master) (_w : Word), s.canon = true ∧
      (tabGet (fun _ => 0) s.pins.seqs m.origin.num = 0)) ∧
    (∃ (s : State) (m : Master) (w : Word), s.canon = true ∧
      (tabGet (fun _ => 0) s.pins.seqs m.origin.num = 1 ∧ w = 0xA8)) ∧
    (∃ (s : State) (m : Master) (_x : Word64), s.canon = true ∧
      (tabGet (fun _ => 0) s.pins.seqs m.origin.num = 2)) ∧
    (∃ (s : State) (_o : Origin) (n : Fin 64) (_v : Word), s.canon = true ∧
      (s.committed = true ∧ s.pinLocked n = false)) ∧
    (∃ (s : State) (_o : Origin) (_v : Word), s.canon = true ∧
      (s.committed = true ∧ s.reg GP_LOCKED_LO = 0 ∧ s.reg GP_LOCKED_HI = 0)) ∧
    (∃ (s : State) (_hi : Bool) (_v : Word), s.canon = true) ∧
    (∃ (s : State) (_hi : Bool) (_v : Word), s.canon = true) ∧
    (∃ (s : State) (b : Fin 5) (level : BitVec 2), s.canon = true ∧
      (s.bankLevel b ≠ level.toNat)) ∧
    (∃ (s : State), s.canon = true) ∧
    (∃ (s : State) (_ir : TapIr) (_en : BitVec 64) (_level : BitVec 64), s.canon = true) :=
  ⟨⟨live, .host, 0x57, by decide +kernel⟩,
    ⟨{ live with pins := { live.pins with seqs := [(0, 0), (1, 1)].filter (fun e => e.2 != 0) } }, .host, 0xA8, by decide +kernel⟩,
    ⟨{ live with pins := { live.pins with seqs := [(1, 2)] } }, .host, 0x100000001, by decide +kernel⟩,
    ⟨live, .host, 5, 1, by decide +kernel⟩,
    ⟨live, .host, 0x5, by decide +kernel⟩,
    ⟨live, false, 5, by decide +kernel⟩,
    ⟨live, true, 5, by decide +kernel⟩,
    ⟨live, 1, 3, by decide +kernel⟩,
    ⟨live, by decide +kernel⟩,
    ⟨live, .extest, 5, 1, by decide +kernel⟩⟩

/-- States and operands that meet the hypotheses of MemoriesComplete. -/
theorem witness_MemoriesComplete :
    (∃ (s : State) (_o : Origin) (v : Word), s.canon = true ∧
      (s.committed = true ∧ v.toNat % 4 ≠ s.rd MEM_CFG.ILV ∧ (List.range 64).all (fun b => s.bankState b == 0 && s.busyWhy b == 0) = true)) ∧
    (∃ (s : State) (_o : Origin) (v : Word), s.canon = true ∧
      (s.committed = true ∧ v.toNat % 4 ≠ s.rd MEM_CFG.ILV ∧ (List.range 64).any (fun b => s.bankState b != 0) = true)) ∧
    (∃ (s : State) (_o : Origin) (i : Fin 4) (v : Word), s.canon = true ∧
      ((List.range 16).all (fun k => s.busyWhy (16 * i + k) == 0 && s.bankState (16 * i + k) == 0 && s.bankWant (16 * i + k) == 0) = true) ∧
      (s.mem.changing = [] ∧ s.reg (MEM_BANK i) = 0 ∧ v.toNat = 2)) ∧
    (∃ (s : State) (b : Fin 64), s.canon = true ∧
      ((s.mem.changing.find? (fun x => x.1 == b.val)).any fun x => decide (True ∧
      (s.bankWant b = x.2 ∧ x.2 < 3)) = true)) ∧
    (∃ (s : State) (errs : List (BitVec 2 × BitVec 25 × Bool)), s.canon = true ∧
      (s.runs .core = true ∧ s.mem.damaged = [] ∧ s.queues = [] ∧ s.log.q.hurt = [] ∧ errs.length = 1 ∧ errs.all (fun e => !e.2.2) = true)) ∧
    (∃ (s : State) (_o : Origin) (_v : Word), s.canon = true ∧
      (s.committed = true)) ∧
    (∃ (s : State) (v : Word), s.canon = true ∧
      (s.runs .core = true ∧ s.bankState (s.bankOf (v.toNat / 4 % 0x800000 * 4)) = 0 ∧ s.scratchKnown (v.toNat / 4 % 0x800000 * 4) = true) ∧
      (s.mem.damaged = [])) ∧
    (∃ (s : State) (v : Word), s.canon = true ∧
      (s.runs .core = true ∧ s.bankState (s.bankOf (v.toNat / 4 % 0x800000 * 4)) ≠ 0)) ∧
    (∃ (s : State) (_o : Origin) (c : Fin 2), s.canon = true ∧
      (s.committed = true ∧ s.bit (DDR_CFG.EN c) = true ∧ s.runs .ddr = true ∧ s.clk.dpllStop = false)) ∧
    (∃ (s : State) (c : Fin 2) (_failed : Fin 7), s.canon = true ∧
      ((s.rd (DDR_STAT.STATE c) = ddrInitState ∨ s.rd (DDR_STAT.STATE c) = ddrTraining) ∧ s.runs .ddr = true)) ∧
    (∃ (s : State) (c : Fin 2) (_hot : Bool), s.canon = true ∧
      (s.rd (DDR_STAT.STATE c) = ddrReady ∧ s.runs .ddr = true)) ∧
    (∃ (s : State) (c : Fin 2) (errs : List (BitVec 37 × Bool)), s.canon = true ∧
      (s.bit (DDR_SCRUB.EN c) = true ∧ s.rd (DDR_STAT.STATE c) = ddrReady ∧ s.bit (DDR_STAT.ZEROED c) = true ∧ s.runs .ddr = true) ∧
      (s.queues = [] ∧ s.log.q.hurt = [] ∧ errs.length = 1 ∧ errs.all (fun e => !e.2) = true)) :=
  ⟨⟨live, .host, 1, by decide +kernel⟩,
    ⟨(live.setBank 3 1), .host, 1, by decide +kernel⟩,
    ⟨live, .host, 1, 2, by decide +kernel⟩,
    ⟨liveChanging, 16, by decide +kernel⟩,
    ⟨live, [(0, 100, false)], by decide +kernel⟩,
    ⟨live, .host, 1, by decide +kernel⟩,
    ⟨liveSlot, 0x50000, by decide +kernel⟩,
    ⟨(live.setReg (MEM_BSTAT 0) 0xAAAAAAAA |>.setReg (MEM_BSTAT 1) 0xAAAAAAAA |>.setReg (MEM_BSTAT 2) 0xAAAAAAAA |>.setReg (MEM_BSTAT 3) 0xAAAAAAAA), 0x50000, by decide +kernel⟩,
    ⟨(live.on (DDR_CFG.EN 1)), .host, 1, by decide +kernel⟩,
    ⟨(live.wr (DDR_STAT.STATE 1) ddrInitState), 1, 3, by decide +kernel⟩,
    ⟨(live.wr (DDR_STAT.STATE 1) ddrReady), 1, true, by decide +kernel⟩,
    ⟨(((live.wr (DDR_STAT.STATE 1) ddrReady).on (DDR_STAT.ZEROED 1)).on (DDR_SCRUB.EN 1)), 1, [(100, false)], by decide +kernel⟩⟩

/-- States and operands that meet the hypotheses of SerialFrames. -/
theorem witness_SerialFrames :
    (∃ (s : State) (p : Fin 16), s.canon = true ∧ isNext (exec (.rxStartEdge p) s) = true) ∧
    (∃ (s : State) (p : Fin 16), s.canon = true ∧ isNext (exec (.rxFalseStart p) s) = true) ∧
    (∃ (s : State) (p : Fin 16) (samples : List (BitVec 3)), s.canon = true ∧ isNext (exec (.rxCharAccept p samples) s) = true) ∧
    (∃ (s : State) (p : Fin 16), s.canon = true ∧ isNext (exec (.breakStart p) s) = true) ∧
    (∃ (s : State) (p : Fin 16), s.canon = true ∧ isNext (exec (.breakEnd p) s) = true) ∧
    (∃ (s : State) (p : Fin 16), s.canon = true ∧ isNext (exec (.lineStuck p) s) = true) ∧
    (∃ (s : State) (p : Fin 16) (mark : Bool), s.canon = true ∧ isNext (exec (.rxMaskEnd p mark) s) = true) ∧
    (∃ (s : State) (o : Origin) (p : Fin 16) (en : Bool) (mark : Bool), s.canon = true ∧ isNext (exec (.rxEnWrite o p en mark) s) = true) ∧
    (∃ (s : State) (o : Origin) (p : Fin 16) (en : Bool), s.canon = true ∧ isNext (exec (.txEnWrite o p en) s) = true) ∧
    (∃ (s : State) (o : Origin) (p : Fin 16) (v : Word), s.canon = true ∧ isNext (exec (.baudcfgWrite o p v) s) = true) ∧
    (∃ (s : State) (p : Fin 16), s.canon = true ∧ isNext (exec (.baudChangeApply p) s) = true) ∧
    (∃ (s : State) (p : Fin 16), s.canon = true ∧ isNext (exec (.baudSettlingEnd p) s) = true) ∧
    (∃ (s : State) (p : Fin 16) (tx : Bool), s.canon = true ∧ isNext (exec (.frameFormatApply p tx) s) = true) ∧
    (∃ (s : State) (p : Fin 16), s.canon = true ∧ isNext (exec (.txPrefetchPop p) s) = true) ∧
    (∃ (s : State) (p : Fin 16), s.canon = true ∧ isNext (exec (.txCharStart p) s) = true) ∧
    (∃ (s : State) (p : Fin 16), s.canon = true ∧ isNext (exec (.deRise p) s) = true) ∧
    (∃ (s : State) (p : Fin 16), s.canon = true ∧ isNext (exec (.deFall p) s) = true) ∧
    (∃ (s : State) (p : Fin 16) (low : Bool), s.canon = true ∧ isNext (exec (.ctsChange p low) s) = true) ∧
    (∃ (s : State) (p : Fin 16), s.canon = true ∧ isNext (exec (.xonXoffSend p) s) = true) ∧
    (∃ (s : State) (p : Fin 16), s.canon = true ∧ isNext (exec (.echoWindowClose p) s) = true) ∧
    (∃ (s : State) (o : Origin) (p : Fin 16), s.canon = true ∧ isNext (exec (.collResume o p) s) = true) ∧
    (∃ (s : State) (p : Fin 16), s.canon = true ∧ isNext (exec (.sendBreak p) s) = true) ∧
    (∃ (s : State) (p : Fin 16), s.canon = true ∧ isNext (exec (.deHoldEnd p) s) = true) ∧
    (∃ (s : State) (o : Origin) (p : Fin 16) (apply : Bool), s.canon = true ∧ isNext (exec (.autobaudStart o p apply) s) = true) ∧
    (∃ (s : State) (p : Fin 16), s.canon = true ∧ isNext (exec (.autobaudEdge p) s) = true) ∧
    (∃ (s : State) (o : Origin) (p : Fin 16), s.canon = true ∧ isNext (exec (.autobaudCancel o p) s) = true) ∧
    (∃ (s : State) (o : Origin) (p : Fin 16) (b : Fin 7) (v : Word), s.canon = true ∧ isNext (exec (.bindingWrite o p b v) s) = true) ∧
    (∃ (s : State) (m : Master) (p : Fin 16) (v : Word), s.canon = true ∧ isNext (exec (.strangerSelect m p v) s) = true) ∧
    (∃ (s : State) (p : Fin 16), s.canon = true ∧ isNext (exec (.gapExpiry p) s) = true) ∧
    (∃ (s : State) (p : Fin 16), s.canon = true ∧ isNext (exec (.launchRegisterLoad p) s) = true) ∧
    (∃ (s : State) (p : Fin 16) (k : Fin 4), s.canon = true ∧ isNext (exec (.farHoldEnd p k) s) = true) ∧
    (∃ (s : State) (p : Fin 16) (k : Fin 4), s.canon = true ∧ isNext (exec (.launchOnTime p k) s) = true) ∧
    (∃ (s : State) (p : Fin 16) (k : Fin 4), s.canon = true ∧ isNext (exec (.launchLate p k) s) = true) ∧
    (∃ (s : State) (p : Fin 16), s.canon = true ∧ isNext (exec (.rxLineMark p) s) = true) :=
  ⟨⟨livePort, 3, by decide +kernel⟩,
    ⟨liveChar, 3, by decide +kernel⟩,
    ⟨liveChar, 3, [7], by decide +kernel⟩,
    ⟨liveChar, 3, by decide +kernel⟩,
    ⟨liveBreak, 3, by decide +kernel⟩,
    ⟨(liveBreak.wr (SP_BREAK.STUCK_MS 3) 5), 3, by decide +kernel⟩,
    ⟨liveMask, 3, false, by decide +kernel⟩,
    ⟨livePort, .host, 3, false, true, by decide +kernel⟩,
    ⟨livePort, .calm, 3, true, by decide +kernel⟩,
    ⟨livePort, .host, 3, 0x21, by decide +kernel⟩,
    ⟨liveRate, 3, by decide +kernel⟩,
    ⟨(livePort.on (SP_STAT.BAUD_SETTLING 3)), 3, by decide +kernel⟩,
    ⟨livePort, 3, true, by decide +kernel⟩,
    ⟨liveTx, 3, by decide +kernel⟩,
    ⟨liveItem, 3, by decide +kernel⟩,
    ⟨liveDe, 3, by decide +kernel⟩,
    ⟨liveDeUp, 3, by decide +kernel⟩,
    ⟨livePort, 3, false, by decide +kernel⟩,
    ⟨liveXoff, 3, by decide +kernel⟩,
    ⟨liveEcho, 3, by decide +kernel⟩,
    ⟨livePort, .host, 3, by decide +kernel⟩,
    ⟨liveBrkItem, 3, by decide +kernel⟩,
    ⟨liveDeHold, 3, by decide +kernel⟩,
    ⟨livePort, .host, 3, true, by decide +kernel⟩,
    ⟨(livePort.on (SP_STAT.WARMING 3)), 3, by decide +kernel⟩,
    ⟨livePort, .host, 3, by decide +kernel⟩,
    ⟨livePort, .host, 3, 6, 0x80000005, by decide +kernel⟩,
    ⟨livePort, .host, 3, 0x40000007, by decide +kernel⟩,
    ⟨liveGap, 3, by decide +kernel⟩,
    ⟨liveLaunchItem, 3, by decide +kernel⟩,
    ⟨liveFar, 3, 1, by decide +kernel⟩,
    ⟨liveLaunch, 3, 1, by decide +kernel⟩,
    ⟨liveLate, 3, 1, by decide +kernel⟩,
    ⟨livePort, 3, by decide +kernel⟩⟩

/-- States and operands that meet the hypotheses of ScheduleFrames. -/
theorem witness_ScheduleFrames :
    (∃ (s : State) (o : Origin) (p : Fin 16), s.canon = true ∧ isNext (exec (.twRunStart o p) s) = true) ∧
    (∃ (s : State) (o : Origin) (p : Fin 16), s.canon = true ∧ isNext (exec (.twRunStop o p) s) = true) ∧
    (∃ (s : State) (p : Fin 16), s.canon = true ∧ isNext (exec (.fnListenTimeout p) s) = true) ∧
    (∃ (s : State) (p : Fin 16), s.canon = true ∧ isNext (exec (.twFirstCycleStart p) s) = true) ∧
    (∃ (s : State) (p : Fin 16) (flips : List (Fin 777 × Word)), s.canon = true ∧ isNext (exec (.cycleBoundary p flips) s) = true) ∧
    (∃ (s : State) (o : Origin) (p : Fin 16) (modes : BitVec 4), s.canon = true ∧ isNext (exec (.twTableCommit o p modes) s) = true) ∧
    (∃ (s : State) (p : Fin 16) (e : Fin 64), s.canon = true ∧ isNext (exec (.slotCommitDeadline p e) s) = true) ∧
    (∃ (s : State) (p : Fin 16) (e : Fin 64) (edge : Bool), s.canon = true ∧ isNext (exec (.slotStart p e edge) s) = true) ∧
    (∃ (s : State) (p : Fin 16) (e : Fin 64), s.canon = true ∧ isNext (exec (.slotEnd p e) s) = true) ∧
    (∃ (s : State) (p : Fin 16), s.canon = true ∧ isNext (exec (.twFrameReceive p) s) = true) ∧
    (∃ (s : State) (p : Fin 16), s.canon = true ∧ isNext (exec (.syncMiss p) s) = true) ∧
    (∃ (s : State) (o : Origin) (p : Fin 16) (v : Word), s.canon = true ∧ isNext (exec (.twSwitch o p v) s) = true) ∧
    (∃ (s : State) (p : Fin 16), s.canon = true ∧ isNext (exec (.switchDecision p) s) = true) ∧
    (∃ (s : State) (p : Fin 16) (m : Fin 4) (upset : Word), s.canon = true ∧ isNext (exec (.guardianCopyCheck p m upset) s) = true) ∧
    (∃ (s : State) (p : Fin 16) (flips : List (Fin 777 × Word)), s.canon = true ∧ isNext (exec (.guardianPredictedBoundary p flips) s) = true) ∧
    (∃ (s : State) (o : Origin) (p : Fin 16), s.canon = true ∧ isNext (exec (.muzzle o p) s) = true) ∧
    (∃ (s : State) (o : Origin) (p : Fin 16), s.canon = true ∧ isNext (exec (.unmuzzle o p) s) = true) ∧
    (∃ (s : State) (o : Origin) (p : Fin 16), s.canon = true ∧ isNext (exec (.clrHist o p) s) = true) ∧
    (∃ (s : State) (p : Fin 16), s.canon = true ∧ isNext (exec (.foreignEnergy p) s) = true) :=
  ⟨⟨livePort, .host, 3, by decide +kernel⟩,
    ⟨liveRunning, .host, 3, by decide +kernel⟩,
    ⟨liveListen, 3, by decide +kernel⟩,
    ⟨liveStarting, 3, by decide +kernel⟩,
    ⟨liveRunning, 3, [], by decide +kernel⟩,
    ⟨livePort, .host, 3, 3, by decide +kernel⟩,
    ⟨liveMuzzledSlot, 3, 2, by decide +kernel⟩,
    ⟨liveSlotSettle, 3, 2, false, by decide +kernel⟩,
    ⟨liveRunning, 3, 0, by decide +kernel⟩,
    ⟨liveFrame, 3, by decide +kernel⟩,
    ⟨liveJoined, 3, by decide +kernel⟩,
    ⟨livePort, .host, 3, 1, by decide +kernel⟩,
    ⟨liveDecide, 3, by decide +kernel⟩,
    ⟨liveLoad, 3, 1, 0, by decide +kernel⟩,
    ⟨liveAnchored, 3, [], by decide +kernel⟩,
    ⟨livePort, .host, 3, by decide +kernel⟩,
    ⟨liveMuzzled, .host, 3, by decide +kernel⟩,
    ⟨livePort, .host, 3, by decide +kernel⟩,
    ⟨liveIntrude, 3, by decide +kernel⟩⟩

/-- States and operands that meet the hypotheses of QueueFrames. -/
theorem witness_QueueFrames :
    (∃ (s : State) (m : Master) (k : BitVec 16) (v : PushVal), s.canon = true ∧ isNext (exec (.queuePush m (.num k) v) s) = true) ∧
    (∃ (s : State) (k : BitVec 16) (ws : List QWord), s.canon = true ∧ isNext (exec (.queueGroupPush k ws) s) = true) ∧
    (∃ (s : State) (m : Master) (k : BitVec 16) (part : ReadPart), s.canon = true ∧ isNext (exec (.queuePop m (.num k) part) s) = true) ∧
    (∃ (s : State) (m : Master) (k : BitVec 16) (part : ReadPart), s.canon = true ∧ isNext (exec (.queuePeek m (.num k) part) s) = true) ∧
    (∃ (s : State) (m : Master) (q : QRef), s.canon = true ∧ isNext (exec (.queueStatRead m q .whole) s) = true) ∧
    (∃ (s : State) (m : Master) (q : QRef), s.canon = true ∧ isNext (exec (.queueLostRead m q .whole) s) = true) ∧
    (∃ (s : State) (m : Master) (q : QRef), s.canon = true ∧ isNext (exec (.badAccess m (WindowAccess.mk q .badRead)) s) = true) ∧
    (∃ (s : State) (m : Master) (q : QRef) (c : CmdCount), s.canon = true ∧ isNext (exec (.nop m q c) s) = true) ∧
    (∃ (s : State) (m : Master) (q : QRef) (c : CmdCount), s.canon = true ∧ isNext (exec (.mark m q c) s) = true) ∧
    (∃ (s : State) (m : Master) (q : QRef) (c : CmdCount), s.canon = true ∧ isNext (exec (.unmark m q c) s) = true) ∧
    (∃ (s : State) (m : Master) (q : QRef) (c : CmdCount), s.canon = true ∧ isNext (exec (.rewind m q c) s) = true) ∧
    (∃ (s : State) (m : Master) (k : BitVec 16) (n : Word), s.canon = true ∧ isNext (exec (.release m (.num k) (.whole n)) s) = true) ∧
    (∃ (s : State) (m : Master) (q : QRef) (c : CmdCount), s.canon = true ∧ isNext (exec (.releasePkt m q c) s) = true) ∧
    (∃ (s : State) (m : Master) (k : BitVec 16) (c : CmdCount), s.canon = true ∧ isNext (exec (.queueReset m (.num k) c) s) = true) ∧
    (∃ (s : State) (m : Master) (q : QRef) (c : CmdCount), s.canon = true ∧ isNext (exec (.clrOverrun m q c) s) = true) ∧
    (∃ (s : State) (m : Master) (k : BitVec 16) (c : CmdCount), s.canon = true ∧ isNext (exec (.clrLost m (.num k) c) s) = true) ∧
    (∃ (s : State) (m : Master) (q : QRef) (c : CmdCount), s.canon = true ∧ isNext (exec (.badCmd m q c) s) = true) ∧
    (∃ (s : State) (o : Origin), s.canon = true ∧ isNext (exec (.create o) s) = true) ∧
    (∃ (s : State) (o : Origin), s.canon = true ∧ isNext (exec (.modify o) s) = true) ∧
    (∃ (s : State) (o : Origin), s.canon = true ∧ isNext (exec (.delete o) s) = true) ∧
    (∃ (s : State) (o : Origin), s.canon = true ∧ isNext (exec (.read o) s) = true) ∧
    (∃ (s : State) (o : Origin), s.canon = true ∧ isNext (exec (.snap o) s) = true) ∧
    (∃ (s : State) (o : Origin) (op : BitVec 3), s.canon = true ∧ isNext (exec (.qcmdIgnored o op) s) = true) ∧
    (∃ (s : State) (upsets : List Upset), s.canon = true ∧ isNext (exec (.pointerScrub upsets) s) = true) ∧
    (∃ (s : State) (q : BitVec 16), s.canon = true ∧ isNext (exec (.spillBurst q) s) = true) ∧
    (∃ (s : State) (q : BitVec 16), s.canon = true ∧ isNext (exec (.spillDone q) s) = true) ∧
    (∃ (s : State) (q : BitVec 16) (prefetch : Bool), s.canon = true ∧ isNext (exec (.refillRead q prefetch) s) = true) ∧
    (∃ (s : State) (q : BitVec 16) (bad : List (Fin 1024)), s.canon = true ∧ isNext (exec (.refillDone q bad) s) = true) ∧
    (∃ (s : State), s.canon = true ∧ isNext (exec (.ledgerCheck) s) = true) ∧
    (∃ (s : State), s.canon = true ∧ isNext (exec (.sweepStart) s) = true) ∧
    (∃ (s : State), s.canon = true ∧ isNext (exec (.sweepDone) s) = true) ∧
    (∃ (s : State) (o : Origin), s.canon = true ∧ isNext (exec (.recount o) s) = true) ∧
    (∃ (s : State) (o : Origin), s.canon = true ∧ isNext (exec (.ledgerSnap o) s) = true) ∧
    (∃ (s : State) (u : DownUnit) (waiting : BitVec 32), s.canon = true ∧ isNext (exec (.domainBounce u waiting) s) = true) ∧
    (∃ (s : State) (m : Master) (q : BitVec 16), s.canon = true ∧ isNext (exec (.edQsel m q) s) = true) :=
  ⟨⟨liveQ, .host, 5, (.lower 7), by decide +kernel⟩,
    ⟨liveQ, 5, [{ data := 1 }, { data := 2, fin := true }], by decide +kernel⟩,
    ⟨liveQWord, .host, 5, .whole, by decide +kernel⟩,
    ⟨liveQWord, .host, 5, .lower, by decide +kernel⟩,
    ⟨liveQ, .host, (.num 5), by decide +kernel⟩,
    ⟨liveQ, .host, .log, by decide +kernel⟩,
    ⟨live, .host, .log, by decide +kernel⟩,
    ⟨liveQ, .host, (.num 5), .held, by decide +kernel⟩,
    ⟨liveQ, .host, .log, .held, by decide +kernel⟩,
    ⟨liveQ, .host, (.num 5), (.whole 3), by decide +kernel⟩,
    ⟨liveQWord, .host, (.num 5), .held, by decide +kernel⟩,
    ⟨liveQWord, .host, 5, 0, by decide +kernel⟩,
    ⟨liveQWord, .host, (.num 5), .held, by decide +kernel⟩,
    ⟨liveQWord, .host, 5, .held, by decide +kernel⟩,
    ⟨liveQ, .host, (.num 5), .held, by decide +kernel⟩,
    ⟨liveQ, .host, 5, .held, by decide +kernel⟩,
    ⟨liveQ, .host, (.num 5), .held, by decide +kernel⟩,
    ⟨live, .host, by decide +kernel⟩,
    ⟨liveQ0, .host, by decide +kernel⟩,
    ⟨liveQ0, .host, by decide +kernel⟩,
    ⟨liveQ0, .host, by decide +kernel⟩,
    ⟨liveQ0, .host, by decide +kernel⟩,
    ⟨live, .host, 7, by decide +kernel⟩,
    ⟨liveQ, [{ queue := 5 }], by decide +kernel⟩,
    ⟨liveSpill, 5, by decide +kernel⟩,
    ⟨liveFlight, 5, by decide +kernel⟩,
    ⟨liveAway, 5, false, by decide +kernel⟩,
    ⟨liveReading, 5, [], by decide +kernel⟩,
    ⟨live, by decide +kernel⟩,
    ⟨{ live with ledger := { live.ledger with nextSweep := some true } }, by decide +kernel⟩,
    ⟨{ live with ledger := { live.ledger with sweep := some false } }, by decide +kernel⟩,
    ⟨live, .host, by decide +kernel⟩,
    ⟨live, .host, by decide +kernel⟩,
    ⟨live, (.netPort 3), 2, by decide +kernel⟩,
    ⟨liveQ, .host, 5, by decide +kernel⟩⟩

/-- States and operands that meet the hypotheses of TimeAndChainFrames. -/
theorem witness_TimeAndChainFrames :
    (∃ (s : State) (o : Origin), s.canon = true ∧ isNext (exec (.tbSubmitRate o) s) = true) ∧
    (∃ (s : State) (o : Origin) (add : Bool), s.canon = true ∧ isNext (exec (.tbSubmitOffset o add) s) = true) ∧
    (∃ (s : State) (o : Origin), s.canon = true ∧ isNext (exec (.tbSubmitSet o) s) = true) ∧
    (∃ (s : State) (o : Origin), s.canon = true ∧ isNext (exec (.tbCancel o) s) = true) ∧
    (∃ (s : State), s.canon = true ∧ isNext (exec (.timeStep) s) = true) ∧
    (∃ (s : State), s.canon = true ∧ isNext (exec (.slewDone) s) = true) ∧
    (∃ (s : State) (src : TimeSrc), s.canon = true ∧ isNext (exec (.sourceTimeout src) s) = true) ∧
    (∃ (s : State) (src : TimeSrc), s.canon = true ∧ isNext (exec (.sourceHoldoffExpiry src) s) = true) ∧
    (∃ (s : State), s.canon = true ∧ isNext (exec (.tbHoExpired) s) = true) ∧
    (∃ (s : State) (ns : BitVec 32), s.canon = true ∧ isNext (exec (.moncalWindow ns) s) = true) ∧
    (∃ (s : State) (i : Fin 8) (rising : Bool), s.canon = true ∧ isNext (exec (.tsiEdge i rising) s) = true) ∧
    (∃ (s : State) (o : Origin) (i : Fin 8), s.canon = true ∧ isNext (exec (.tpoApply o i) s) = true) ∧
    (∃ (s : State) (i : Fin 8), s.canon = true ∧ isNext (exec (.tpoApplyTake i) s) = true) ∧
    (∃ (s : State) (i : Fin 8), s.canon = true ∧ isNext (exec (.tpoPulseStart i) s) = true) ∧
    (∃ (s : State) (i : Fin 8), s.canon = true ∧ isNext (exec (.tpoPulseEnd i) s) = true) ∧
    (∃ (s : State) (o : Origin) (k : Fin 4) (v : Word), s.canon = true ∧ isNext (exec (.alarmArm o k v) s) = true) ∧
    (∃ (s : State) (k : Fin 4), s.canon = true ∧ isNext (exec (.alarmFire k) s) = true) ∧
    (∃ (s : State) (o : Origin) (v : Word), s.canon = true ∧ isNext (exec (.calendarSet o v) s) = true) ∧
    (∃ (s : State), s.canon = true ∧ isNext (exec (.leapSecond) s) = true) ∧
    (∃ (s : State) (l : Fin 4), s.canon = true ∧ isNext (exec (.linkSignalDetect l) s) = true) ∧
    (∃ (s : State) (l : Fin 4), s.canon = true ∧ isNext (exec (.linkBlockLock l) s) = true) ∧
    (∃ (s : State) (l : Fin 4), s.canon = true ∧ isNext (exec (.linkTrainTimeout l) s) = true) ∧
    (∃ (s : State) (l : Fin 4) (h : Hello), s.canon = true ∧ isNext (exec (.helloExchange l (some h)) s) = true) ∧
    (∃ (s : State) (l : Fin 4), s.canon = true ∧ isNext (exec (.linkDown l) s) = true) ∧
    (∃ (s : State) (o : Origin) (l : Fin 4), s.canon = true ∧ isNext (exec (.forceDown o l) s) = true) ∧
    (∃ (s : State) (l : Fin 4), s.canon = true ∧ isNext (exec (.linkSleep l) s) = true) ∧
    (∃ (s : State) (l : Fin 4) (c : Cell) (credits : List (BitVec 16)), s.canon = true ∧ isNext (exec (.cellReceive l (some c) false credits) s) = true) ∧
    (∃ (s : State) (l : Fin 4), s.canon = true ∧ isNext (exec (.creditSyncSend l) s) = true) ∧
    (∃ (s : State) (l : Fin 4) (counts : List (BitVec 24 × BitVec 24)), s.canon = true ∧ isNext (exec (.creditSyncReceive l counts) s) = true) ∧
    (∃ (s : State), s.canon = true ∧ isNext (exec (.enumerationStart) s) = true) ∧
    (∃ (s : State), s.canon = true ∧ isNext (exec (.enumProbeAnswer (.answer none)) s) = true) ∧
    (∃ (s : State) (o : Origin) (written : Bool), s.canon = true ∧ isNext (exec (.reenum o written) s) = true) ∧
    (∃ (s : State) (o : Origin), s.canon = true ∧ isNext (exec (.forget o) s) = true) ∧
    (∃ (s : State) (m : Master) (d : Fin 64) (off : BitVec 24) (size : BitVec 4), s.canon = true ∧ isNext (exec (.bar4Read m d off size) s) = true) ∧
    (∃ (s : State) (d : Fin 64) (off : BitVec 24) (v : Word64) (status : BitVec 4), s.canon = true ∧ isNext (exec (.bar4ReadResponse d off v status) s) = true) ∧
    (∃ (s : State) (d : Fin 64) (off : BitVec 24), s.canon = true ∧ isNext (exec (.chainRdFail d off) s) = true) ∧
    (∃ (s : State) (m : Master) (d : Fin 64) (off : BitVec 24) (size : BitVec 4) (v : Word64), s.canon = true ∧ isNext (exec (.bar4Write m d off size v) s) = true) ∧
    (∃ (s : State) (q : BitVec 16), s.canon = true ∧ isNext (exec (.forwardSend q) s) = true) ∧
    (∃ (s : State) (dev : Fin 64) (from_ : BitVec 16) (dest : BitVec 16) (seq : Word) (ws : List QWord) (resent : Bool), s.canon = true ∧ isNext (exec (.forwardGroupReceive dev from_ dest seq ws resent) s) = true) ∧
    (∃ (s : State) (q : BitVec 16) (seq : Word) (status : BitVec 4), s.canon = true ∧ isNext (exec (.forwardStatus q seq status) s) = true) ∧
    (∃ (s : State) (q : BitVec 16), s.canon = true ∧ isNext (exec (.forwardRetry q) s) = true) ∧
    (∃ (s : State) (status : BitVec 4) (reporter : Fin 64) (dev : Fin 64) (off : BitVec 24) (wide : Bool) (v : Word64) (origin : BitVec 4), s.canon = true ∧ isNext (exec (.orphanWrite status reporter dev off wide v origin) s) = true) ∧
    (∃ (s : State) (answers : List (Fin 64)), s.canon = true ∧ isNext (exec (.heartbeat answers) s) = true) ∧
    (∃ (s : State) (d : Fin 64), s.canon = true ∧ isNext (exec (.memberLost d) s) = true) ∧
    (∃ (s : State) (o : Origin) (dev : Fin 64) (all : Bool), s.canon = true ∧ isNext (exec (.chainReqCoreReset o dev all) s) = true) ∧
    (∃ (s : State) (o : Origin) (dev : Fin 64) (all : Bool), s.canon = true ∧ isNext (exec (.chainReqSystemReset o dev all) s) = true) ∧
    (∃ (s : State) (o : Origin) (dev : Fin 64) (all : Bool), s.canon = true ∧ isNext (exec (.chainReqWake o dev all) s) = true) ∧
    (∃ (s : State) (o : Origin) (dev : Fin 64) (all : Bool), s.canon = true ∧ isNext (exec (.chainReqIgnored o dev all) s) = true) ∧
    (∃ (s : State) (l : Fin 4), s.canon = true ∧ isNext (exec (.delayExchange l) s) = true) ∧
    (∃ (s : State) (l : Fin 4) (t1 : Nat) (t2 : Nat) (t3 : Nat) (t4 : Nat), s.canon = true ∧ isNext (exec (.linkDelaySample l t1 t2 t3 t4) s) = true) ∧
    (∃ (s : State), s.canon = true ∧ isNext (exec (.chainSyncSend) s) = true) ∧
    (∃ (s : State) (l : Fin 4) (sent : Nat) (arrived : Nat) (quality : BitVec 3) (hops : Fin 17) (stepSeq : Byte), s.canon = true ∧ isNext (exec (.chainSyncReceive l sent arrived quality hops stepSeq) s) = true) ∧
    (∃ (s : State), s.canon = true ∧ isNext (exec (.releaseReady none) s) = true) ∧
    (∃ (s : State) (l : Fin 4) (epoch : Word) (count : Word), s.canon = true ∧ isNext (exec (.releaseAt (some l) epoch count) s) = true) ∧
    (∃ (s : State), s.canon = true ∧ isNext (exec (.releaseCountdownEnd) s) = true) ∧
    (∃ (s : State), s.canon = true ∧ isNext (exec (.lateRelease) s) = true) ∧
    (∃ (s : State) (o : Origin) (role : BitVec 2), s.canon = true ∧ isNext (exec (.chainRoleWrite o role) s) = true) ∧
    (∃ (s : State) (o : Origin) (l : Fin 4) (en : Bool), s.canon = true ∧ isNext (exec (.linkEnWrite o l en) s) = true) :=
  ⟨⟨liveTime, .host, by decide +kernel⟩,
    ⟨liveTime, .host, false, by decide +kernel⟩,
    ⟨(liveTime.setReg TB_SET_SL 2000000000), .host, by decide +kernel⟩,
    ⟨live, .host, by decide +kernel⟩,
    ⟨liveStep, by decide +kernel⟩,
    ⟨{ liveTime with time := { liveTime.time with slew := 5, slewing := true } }, by decide +kernel⟩,
    ⟨liveTime, .pps, by decide +kernel⟩,
    ⟨((liveTime.setReg TB_SRCCFG 0x12).setReg TB_SRCSTAT 3 |>.wr TB_STAT.SRC_SEL 1), .engine, by decide +kernel⟩,
    ⟨(liveTime.on TB_STAT.HOLDOVER), by decide +kernel⟩,
    ⟨{ liveTime with regs := (liveTime.on CK_STAT.REFCLK_OK).regs }, 21845333, by decide +kernel⟩,
    ⟨(liveTime.on (TSI_CFG.EN 2)), 2, true, by decide +kernel⟩,
    ⟨liveTime, .host, 2, by decide +kernel⟩,
    ⟨(livePulse.setTpo 2 { livePulse.tpo 2 with pend := true }), 2, by decide +kernel⟩,
    ⟨liveDue, 2, by decide +kernel⟩,
    ⟨livePulse, 2, by decide +kernel⟩,
    ⟨liveTime, .host, 1, 0x80000000, by decide +kernel⟩,
    ⟨(liveTime.on (ALM_SH.ARM 1)), 1, by decide +kernel⟩,
    ⟨liveTime, .host, 0, by decide +kernel⟩,
    ⟨(liveTime.on TB_UTC.LEAP_INS), by decide +kernel⟩,
    ⟨liveLink lkDetect, 1, by decide +kernel⟩,
    ⟨liveLink lkTrain, 1, by decide +kernel⟩,
    ⟨liveLink lkTrain, 1, by decide +kernel⟩,
    ⟨liveLink lkHello, 1, aHello, by decide +kernel⟩,
    ⟨liveLink lkUp, 1, by decide +kernel⟩,
    ⟨liveLink lkUp, .host, 1, by decide +kernel⟩,
    ⟨liveLink lkUp, 1, by decide +kernel⟩,
    ⟨liveLink lkUp, 1, aCell, [0, 0, 0, 0], by decide +kernel⟩,
    ⟨liveLink lkUp, 1, by decide +kernel⟩,
    ⟨liveLink lkUp, 1, [(0, 0), (0, 0), (0, 0), (0, 0)], by decide +kernel⟩,
    ⟨{ liveRoot with regs := (liveRoot.on CH_STAT.ENUM_BUSY).regs }, by decide +kernel⟩,
    ⟨liveProbes, by decide +kernel⟩,
    ⟨{ liveRoot with regs := (liveRoot.on CH_STAT.ENUM_BUSY).regs }, .host, true, by decide +kernel⟩,
    ⟨live, .host, by decide +kernel⟩,
    ⟨live, .host, 3, 2, 4, by decide +kernel⟩,
    ⟨liveReads, 3, 0, 77, 0, by decide +kernel⟩,
    ⟨liveReads, 3, 0, by decide +kernel⟩,
    ⟨(liveRoot.wr (LK_STAT.STATE 1) lkSleep), .host, 3, 0, 4, 7, by decide +kernel⟩,
    ⟨liveFwd, 5, by decide +kernel⟩,
    ⟨liveQ, 3, 9, 5, 0, [{ data := 4 }], false, by decide +kernel⟩,
    ⟨liveGroup, 5, 0, 0, by decide +kernel⟩,
    ⟨liveGroup, 5, by decide +kernel⟩,
    ⟨live, 1, 2, 3, 0, false, 7, 1, by decide +kernel⟩,
    ⟨liveRoot, [3], by decide +kernel⟩,
    ⟨liveRoot, 3, by decide +kernel⟩,
    ⟨liveRoot, .host, 3, false, by decide +kernel⟩,
    ⟨liveRoot, .host, 3, false, by decide +kernel⟩,
    ⟨liveRoot, .host, 3, false, by decide +kernel⟩,
    ⟨liveRoot, .host, 3, true, by decide +kernel⟩,
    ⟨liveLink lkUp, 1, by decide +kernel⟩,
    ⟨liveLink lkUp, 1, 0, 10, 20, 30, by decide +kernel⟩,
    ⟨liveRoot, by decide +kernel⟩,
    ⟨liveMember, 1, 1000, 900, 2, 3, 0, by decide +kernel⟩,
    ⟨liveReady, by decide +kernel⟩,
    ⟨liveLink lkUp, 1, 5, 100, by decide +kernel⟩,
    ⟨{ liveWaits with chain := { liveWaits.chain with countdown := some 5 } }, by decide +kernel⟩,
    ⟨(liveWaits.setReg CH_CTRL 2), by decide +kernel⟩,
    ⟨live, .host, 1, by decide +kernel⟩,
    ⟨liveLink lkUp, .host, 1, false, by decide +kernel⟩⟩

/-- States and operands that meet the hypotheses of EngineAndNetworkFrames. -/
theorem witness_EngineAndNetworkFrames :
    (∃ (s : State) (o : Origin) (v : Word), s.canon = true ∧ isNext (exec (.ldBegin o v) s) = true) ∧
    (∃ (s : State) (o : Origin), s.canon = true ∧ isNext (exec (.cancel o) s) = true) ∧
    (∃ (s : State) (o : Origin) (slot : Fin 16), s.canon = true ∧ isNext (exec (.clearSlot o slot) s) = true) ∧
    (∃ (s : State) (o : Origin) (v : Word), s.canon = true ∧ isNext (exec (.ldData o v) s) = true) ∧
    (∃ (s : State) (bytes : List Byte), s.canon = true ∧ isNext (exec (.ldDmaDone bytes) s) = true) ∧
    (∃ (s : State), s.canon = true ∧ isNext (exec (.imageLoad) s) = true) ∧
    (∃ (s : State), s.canon = true ∧ isNext (exec (.imageInstall) s) = true) ∧
    (∃ (s : State) (slot : Fin 16), s.canon = true ∧ isNext (exec (.ldSlotsel slot) s) = true) ∧
    (∃ (s : State) (o : Origin) (e : Fin 48) (v : Word), s.canon = true ∧ isNext (exec (.start o e v) s) = true) ∧
    (∃ (s : State) (o : Origin) (e : Fin 48) (v : Word), s.canon = true ∧ isNext (exec (.halt o e v) s) = true) ∧
    (∃ (s : State) (o : Origin) (e : Fin 48) (v : Word), s.canon = true ∧ isNext (exec (.ceBindWrite o e v) s) = true) ∧
    (∃ (s : State) (e : Fin 48), s.canon = true ∧ isNext (exec (.engineStarted e) s) = true) ∧
    (∃ (s : State) (e : Fin 48), s.canon = true ∧ isNext (exec (.abortEntry e) s) = true) ∧
    (∃ (s : State) (e : Fin 48), s.canon = true ∧ isNext (exec (.engineGraceEnd e) s) = true) ∧
    (∃ (s : State) (e : Fin 48), s.canon = true ∧ isNext (exec (.engineStop e) s) = true) ∧
    (∃ (s : State) (e : Fin 48), s.canon = true ∧ isNext (exec (.engineHalted e) s) = true) ∧
    (∃ (s : State) (e : Fin 48), s.canon = true ∧ isNext (exec (.kick e) s) = true) ∧
    (∃ (s : State) (e : Fin 48), s.canon = true ∧ isNext (exec (.abortDone e) s) = true) ∧
    (∃ (s : State) (e : Fin 48) (ws : List Word), s.canon = true ∧ isNext (exec (.mbxPost e ws) s) = true) ∧
    (∃ (s : State) (e : Fin 48), s.canon = true ∧ isNext (exec (.mbxTake e) s) = true) ∧
    (∃ (s : State) (e : Fin 48) (count : BitVec 4), s.canon = true ∧ isNext (exec (.mbiDb e count) s) = true) ∧
    (∃ (s : State) (e : Fin 48), s.canon = true ∧ isNext (exec (.mboAck e) s) = true) ∧
    (∃ (s : State) (e : Fin 48) (p : Fin 16) (ws : List QWord), s.canon = true ∧ isNext (exec (.qpPush e p ws) s) = true) ∧
    (∃ (s : State) (e : Fin 48) (p : Fin 16) (n : BitVec 5) (untilEnd : Bool), s.canon = true ∧ isNext (exec (.qpPop e p n untilEnd) s) = true) ∧
    (∃ (s : State) (e : Fin 48) (p : Fin 16), s.canon = true ∧ isNext (exec (.qpPeek e p) s) = true) ∧
    (∃ (s : State) (e : Fin 48) (p : Fin 16) (op : BitVec 4) (count : Word), s.canon = true ∧ isNext (exec (.qpCmd e p op count) s) = true) ∧
    (∃ (s : State) (e : Fin 48) (p : Fin 16), s.canon = true ∧ isNext (exec (.qpStat e p) s) = true) ∧
    (∃ (s : State) (e : Fin 48), s.canon = true ∧ isNext (exec (.descTake e) s) = true) ∧
    (∃ (s : State) (e : Fin 48) (gs : List (BitVec 11)), s.canon = true ∧ isNext (exec (.granuleRelease e gs) s) = true) ∧
    (∃ (s : State) (e : Fin 48) (i : Fin 8) (sec : BitVec 48) (ns : Word) (period : Word64), s.canon = true ∧ isNext (exec (.timerArm e i sec ns period) s) = true) ∧
    (∃ (s : State) (e : Fin 48) (i : Fin 8) (take : Bool), s.canon = true ∧ isNext (exec (.timerExpiry e i take) s) = true) ∧
    (∃ (s : State) (e : Fin 48), s.canon = true ∧ isNext (exec (.declareValid e) s) = true) ∧
    (∃ (s : State) (e : Fin 48), s.canon = true ∧ isNext (exec (.declareInvalid e) s) = true) ∧
    (∃ (s : State) (e : Fin 48) (a : Word), s.canon = true ∧ isNext (exec (.engineRate e a) s) = true) ∧
    (∃ (s : State) (e : Fin 48) (theta : Word64) (add : Bool), s.canon = true ∧ isNext (exec (.engineOffset e theta add) s) = true) ∧
    (∃ (s : State) (e : Fin 48) (sec : BitVec 48) (ns : Word), s.canon = true ∧ isNext (exec (.engineSet e sec ns) s) = true) ∧
    (∃ (s : State) (e : Fin 48), s.canon = true ∧ isNext (exec (.timeQuery e) s) = true) ∧
    (∃ (s : State) (e : Fin 48) (payload : BitVec 128), s.canon = true ∧ isNext (exec (.engineEvent e payload) s) = true) ∧
    (∃ (s : State) (e : Fin 48) (addr : BitVec 16), s.canon = true ∧ isNext (exec (.watchdog e addr) s) = true) ∧
    (∃ (s : State) (e : Fin 48) (cause : BitVec 3) (addr : BitVec 16), s.canon = true ∧ isNext (exec (.engineFault e cause addr) s) = true) ∧
    (∃ (s : State) (o : Origin) (k : Fin 12) (v : Word), s.canon = true ∧ isNext (exec (.clusterPwrOff o k v) s) = true) ∧
    (∃ (s : State) (p : Fin 12) (ago : Word) (bs : List Byte), s.canon = true ∧ isNext (exec (.frameReceive p ago (.head bs)) s) = true) ∧
    (∃ (s : State) (p : Fin 12), s.canon = true ∧ isNext (exec (.frameTxStart p) s) = true) ∧
    (∃ (s : State) (p : Fin 12), s.canon = true ∧ isNext (exec (.frameTxDone p) s) = true) ∧
    (∃ (s : State) (p : Fin 12) (word : Option (BitVec 16)), s.canon = true ∧ isNext (exec (.netLinkUp p word) s) = true) ∧
    (∃ (s : State) (p : Fin 12), s.canon = true ∧ isNext (exec (.netLinkDown p) s) = true) ∧
    (∃ (s : State) (e : Fin 48), s.canon = true ∧ isNext (exec (.link e) s) = true) ∧
    (∃ (s : State) (e : Fin 48) (d0 : Word) (d1 : Word) (d2 : Word) (frame : List Byte), s.canon = true ∧ isNext (exec (.txSubmit e d0 d1 d2 frame) s) = true) ∧
    (∃ (s : State) (e : Fin 48), s.canon = true ∧ isNext (exec (.txTake e) s) = true) ∧
    (∃ (s : State) (e : Fin 48) (mode : BitVec 2) (cls : BitVec 3), s.canon = true ∧ isNext (exec (.ctSet e mode cls) s) = true) ∧
    (∃ (s : State) (e : Fin 48) (seq : Byte), s.canon = true ∧ isNext (exec (.ctCommit e seq) s) = true) ∧
    (∃ (s : State) (e : Fin 48) (seq : Byte), s.canon = true ∧ isNext (exec (.ctDecline e seq) s) = true) ∧
    (∃ (s : State) (o : Origin) (p : Fin 12) (v : Word), s.canon = true ∧ isNext (exec (.ctPath o p v) s) = true) ∧
    (∃ (s : State) (e : Fin 48) (i : Byte) (g : Byte) (d : Word), s.canon = true ∧ isNext (exec (.gclWrite e (.entry i g d)) s) = true) ∧
    (∃ (s : State) (e : Fin 48), s.canon = true ∧ isNext (exec (.gclCommit e) s) = true) ∧
    (∃ (s : State) (o : Origin) (p : Fin 12), s.canon = true ∧ isNext (exec (.configChange o p) s) = true) ∧
    (∃ (s : State) (o : Origin) (p : Fin 12), s.canon = true ∧ isNext (exec (.ccCancel o p) s) = true) ∧
    (∃ (s : State) (p : Fin 12), s.canon = true ∧ isNext (exec (.gateChange p) s) = true) ∧
    (∃ (s : State) (p : Fin 12), s.canon = true ∧ isNext (exec (.gateEntryBoundary p) s) = true) ∧
    (∃ (s : State) (m : Fin 2) (v : Word), s.canon = true ∧ isNext (exec (.mdCmd m v) s) = true) ∧
    (∃ (s : State) (m : Fin 2) (data : BitVec 16), s.canon = true ∧ isNext (exec (.mdioFrameDone m data) s) = true) ∧
    (∃ (s : State) (p : Fin 12) (word : BitVec 16), s.canon = true ∧ isNext (exec (.sgmiiWordChange p word) s) = true) ∧
    (∃ (s : State) (o : Origin) (p : Fin 12) (v : Word), s.canon = true ∧ isNext (exec (.npPwrOffWrite o p v) s) = true) :=
  ⟨⟨liveLen, .host, 0x101, by decide +kernel⟩,
    ⟨liveLd, .host, by decide +kernel⟩,
    ⟨liveSlot, .host, 2, by decide +kernel⟩,
    ⟨liveLd, .host, 0x49505757, by decide +kernel⟩,
    ⟨liveDma, [0, 0, 0, 0], by decide +kernel⟩,
    ⟨liveVerify, by decide +kernel⟩,
    ⟨{ liveVerify with loader := { liveVerify.loader with installing := true } }, by decide +kernel⟩,
    ⟨liveSlot, 2, by decide +kernel⟩,
    ⟨liveEngHalted, .host, 4, 1, by decide +kernel⟩,
    ⟨liveEng, .host, 4, 2, by decide +kernel⟩,
    ⟨live, .host, 4, 0x81, by decide +kernel⟩,
    ⟨liveEngStarting, 4, by decide +kernel⟩,
    ⟨liveEngAbort .doorbell, 4, by decide +kernel⟩,
    ⟨liveEngAbort .handler, 4, by decide +kernel⟩,
    ⟨liveEngAbort .graceOver, 4, by decide +kernel⟩,
    ⟨liveEngAbort .stopped, 4, by decide +kernel⟩,
    ⟨liveEng, 4, by decide +kernel⟩,
    ⟨liveEngAbort .handler, 4, by decide +kernel⟩,
    ⟨liveEng, 4, [7, 8], by decide +kernel⟩,
    ⟨(liveEng.on (CE_STAT.IN_FULL 4)), 4, by decide +kernel⟩,
    ⟨liveEng, 4, 0, by decide +kernel⟩,
    ⟨(liveEng.on (CE_STAT.OUT_FULL 4)), 4, by decide +kernel⟩,
    ⟨liveEngQ, 4, 2, [{ data := 4, fin := true }], by decide +kernel⟩,
    ⟨liveEngQWord, 4, 2, 1, false, by decide +kernel⟩,
    ⟨liveEngQWord, 4, 2, by decide +kernel⟩,
    ⟨liveEngQ, 4, 2, 1, 0, by decide +kernel⟩,
    ⟨liveEngQ, 4, 2, by decide +kernel⟩,
    ⟨liveRx, 4, by decide +kernel⟩,
    ⟨liveRxTaken, 4, [3], by decide +kernel⟩,
    ⟨liveEng, 4, 1, 0, 500, 20, by decide +kernel⟩,
    ⟨liveTimer, 4, 1, false, by decide +kernel⟩,
    ⟨liveTbEng, 4, by decide +kernel⟩,
    ⟨(liveTbEng.on (CE_STAT.TB_VALID 4)), 4, by decide +kernel⟩,
    ⟨liveTbEng, 4, 5, by decide +kernel⟩,
    ⟨liveTbSteer, 4, 0, false, by decide +kernel⟩,
    ⟨liveTbSteer, 4, 200, 5, by decide +kernel⟩,
    ⟨liveEng, 4, by decide +kernel⟩,
    ⟨liveEng, 4, 0x123, by decide +kernel⟩,
    ⟨liveEng, 4, 0x10, by decide +kernel⟩,
    ⟨liveEng, 4, 2, 0x1234, by decide +kernel⟩,
    ⟨live, .host, 1, 1, by decide +kernel⟩,
    ⟨liveNet, 1, 8, [1, 2], by decide +kernel⟩,
    ⟨liveTxWait, 1, by decide +kernel⟩,
    ⟨liveWire, 1, by decide +kernel⟩,
    ⟨liveNetDown, 1, none, by decide +kernel⟩,
    ⟨liveNet, 1, by decide +kernel⟩,
    ⟨liveNet, 4, by decide +kernel⟩,
    ⟨liveNet, 4, 0x1000E, 0, 0, (List.replicate 14 7), by decide +kernel⟩,
    ⟨{ liveNet with engines := (liveNet.setEng 4 { liveNet.eng 4 with statuses := [[9, 0, 0, 0]] }).engines }, 4, by decide +kernel⟩,
    ⟨liveNet, 4, 1, 3, by decide +kernel⟩,
    ⟨livePath, 4, 0, by decide +kernel⟩,
    ⟨livePath, 4, 0, by decide +kernel⟩,
    ⟨liveNet, .host, 1, 0x12, by decide +kernel⟩,
    ⟨liveNet, 4, 3, 0x81, 1000, by decide +kernel⟩,
    ⟨liveNet, 4, by decide +kernel⟩,
    ⟨liveGates, .host, 1, by decide +kernel⟩,
    ⟨liveGates, .host, 1, by decide +kernel⟩,
    ⟨livePendGates, 1, by decide +kernel⟩,
    ⟨liveGates, 1, by decide +kernel⟩,
    ⟨live, 1, 0x20000, by decide +kernel⟩,
    ⟨(live.on (MD_STAT.BUSY 1)), 1, 0xABCD, by decide +kernel⟩,
    ⟨(liveNet.on (NP_CTRL.AN_EN 1)), 1, 0x1400, by decide +kernel⟩,
    ⟨liveNet, .host, 1, 3, by decide +kernel⟩⟩

/-- States and operands that meet the hypotheses of HostAndConfigurationFrames. -/
theorem witness_HostAndConfigurationFrames :
    (∃ (s : State) (n : Fin 64) (v : Word), s.canon = true ∧ isNext (exec (.sqTailDb n v) s) = true) ∧
    (∃ (s : State) (n : Fin 64) (v : Word), s.canon = true ∧ isNext (exec (.cqHeadDb n v) s) = true) ∧
    (∃ (s : State) (entry : List Word) (sgl : List (Word64 × Word)), s.canon = true ∧ isNext (exec (.sqFetch entry sgl) s) = true) ∧
    (∃ (s : State) (tag : BitVec 12), s.canon = true ∧ isNext (exec (.hostNop none tag) s) = true) ∧
    (∃ (s : State) (tag : BitVec 12) (payload : List Byte), s.canon = true ∧ isNext (exec (.push none tag payload) s) = true) ∧
    (∃ (s : State) (tag : BitVec 12), s.canon = true ∧ isNext (exec (.pop none tag) s) = true) ∧
    (∃ (s : State) (tag : BitVec 12), s.canon = true ∧ isNext (exec (.qcmd none tag) s) = true) ∧
    (∃ (s : State) (tag : BitVec 12), s.canon = true ∧ isNext (exec (.regRead none tag) s) = true) ∧
    (∃ (s : State) (tag : BitVec 12) (payload : List Byte), s.canon = true ∧ isNext (exec (.regWrite none tag payload) s) = true) ∧
    (∃ (s : State) (tag : BitVec 12), s.canon = true ∧ isNext (exec (.engineCall none tag) s) = true) ∧
    (∃ (s : State) (tag : BitVec 12), s.canon = true ∧ isNext (exec (.engineCallPost none tag) s) = true) ∧
    (∃ (s : State) (e : Fin 48) (ws : List Word), s.canon = true ∧ isNext (exec (.engineCallAnswer e ws) s) = true) ∧
    (∃ (s : State) (tag : BitVec 12) (payload : List Byte), s.canon = true ∧ isNext (exec (.sectionLoad none tag payload) s) = true) ∧
    (∃ (s : State) (tag : BitVec 12), s.canon = true ∧ isNext (exec (.timeRead none tag) s) = true) ∧
    (∃ (s : State) (tag : BitVec 12), s.canon = true ∧ isNext (exec (.commandWaitResume none tag) s) = true) ∧
    (∃ (s : State) (tag : BitVec 12), s.canon = true ∧ isNext (exec (.commandTimeout none tag) s) = true) ∧
    (∃ (s : State) (cq : Fin 64), s.canon = true ∧ isNext (exec (.completionWrite cq) s) = true) ∧
    (∃ (s : State) (cq : Fin 64), s.canon = true ∧ isNext (exec (.coalesceTimeout cq) s) = true) ∧
    (∃ (s : State) (m : Master) (dev : Fin 64) (object : Half) (tag : BitVec 12) (cq : Fin 64), s.canon = true ∧ isNext (exec (.abortSerialPort m dev object tag cq) s) = true) ∧
    (∃ (s : State) (m : Master) (dev : Fin 64) (object : Half) (tag : BitVec 12) (cq : Fin 64), s.canon = true ∧ isNext (exec (.abortQueue m dev object tag cq) s) = true) ∧
    (∃ (s : State) (m : Master) (dev : Fin 64) (object : Half) (tag : BitVec 12) (cq : Fin 64), s.canon = true ∧ isNext (exec (.abortEngine m dev object tag cq) s) = true) ∧
    (∃ (s : State) (m : Master) (dev : Fin 64) (object : Half) (tag : BitVec 12) (cq : Fin 64), s.canon = true ∧ isNext (exec (.abortRing m dev object tag cq) s) = true) ∧
    (∃ (s : State) (m : Master) (dev : Fin 64) (object : Half) (tag : BitVec 12) (cq : Fin 64), s.canon = true ∧ isNext (exec (.abortTag m dev object tag cq) s) = true) ∧
    (∃ (s : State) (m : Master) (kind : Fin 11) (dev : Fin 64) (object : Half) (tag : BitVec 12) (cq : Fin 64), s.canon = true ∧ isNext (exec (.abortBadKind m kind dev object tag cq) s) = true) ∧
    (∃ (s : State) (n : Fin 64) (en : Bool), s.canon = true ∧ isNext (exec (.sqEnable n en) s) = true) ∧
    (∃ (s : State) (n : Fin 64) (en : Bool), s.canon = true ∧ isNext (exec (.cqEnable n en) s) = true) ∧
    (∃ (s : State) (o : Origin), s.canon = true ∧ isNext (exec (.featCommit o) s) = true) ∧
    (∃ (s : State), s.canon = true ∧ isNext (exec (.hostLinkReset) s) = true) ∧
    (∃ (s : State) (d3 : Bool) (bme : Bool), s.canon = true ∧ isNext (exec (.hostPowerChange d3 bme) s) = true) ∧
    (∃ (s : State) (n : Fin 64), s.canon = true ∧ isNext (exec (.dmaError (.fetch n)) s) = true) ∧
    (∃ (s : State) (o : Origin) (v : Word), s.canon = true ∧ isNext (exec (.cfBegin o v) s) = true) ∧
    (∃ (s : State) (o : Origin), s.canon = true ∧ isNext (exec (.cfCancel o) s) = true) ∧
    (∃ (s : State) (o : Origin) (v : Word), s.canon = true ∧ isNext (exec (.cfData o v) s) = true) ∧
    (∃ (s : State), s.canon = true ∧ isNext (exec (.configLoad) s) = true) ∧
    (∃ (s : State), s.canon = true ∧ isNext (exec (.commitApply) s) = true) ∧
    (∃ (s : State) (p : Fin 16), s.canon = true ∧ isNext (exec (.drainEnd p) s) = true) ∧
    (∃ (s : State) (p : Fin 16), s.canon = true ∧ isNext (exec (.portRebind p) s) = true) ∧
    (∃ (s : State), s.canon = true ∧ isNext (exec (.sectionCommit) s) = true) ∧
    (∃ (s : State) (k : Fin 8), s.canon = true ∧ isNext (exec (.interruptReloadApply k) s) = true) ∧
    (∃ (s : State) (tx : CalmTx), s.canon = true ∧ isNext (exec (.idRead tx) s) = true) ∧
    (∃ (s : State) (tx : CalmTx), s.canon = true ∧ isNext (exec (.planeRead tx) s) = true) ∧
    (∃ (s : State) (tx : CalmTx) (data : List Word), s.canon = true ∧ isNext (exec (.planeWrite tx data) s) = true) ∧
    (∃ (s : State) (tx : CalmTx) (data : List Word), s.canon = true ∧ isNext (exec (.bufWrite tx data) s) = true) ∧
    (∃ (s : State) (tx : CalmTx), s.canon = true ∧ isNext (exec (.bufRead tx) s) = true) ∧
    (∃ (s : State) (tx : CalmTx), s.canon = true ∧ isNext (exec (.pump tx) s) = true) ∧
    (∃ (s : State) (tx : CalmTx), s.canon = true ∧ isNext (exec (.storeProg tx) s) = true) ∧
    (∃ (s : State) (tx : CalmTx), s.canon = true ∧ isNext (exec (.storeLoad tx) s) = true) ∧
    (∃ (s : State) (tx : CalmTx) (data : List Word), s.canon = true ∧ isNext (exec (.storeSeal tx data) s) = true) ∧
    (∃ (s : State) (tx : CalmTx), s.canon = true ∧ isNext (exec (.storeInval tx) s) = true) ∧
    (∃ (s : State) (tx : CalmTx) (data : List Word), s.canon = true ∧ isNext (exec (.storeHdr tx data) s) = true) ∧
    (∃ (s : State) (tx : CalmTx) (data : List Word), s.canon = true ∧ isNext (exec (.opWrite tx data) s) = true) ∧
    (∃ (s : State) (tx : CalmTx), s.canon = true ∧ isNext (exec (.opRead tx) s) = true) ∧
    (∃ (s : State) (tx : CalmTx), s.canon = true ∧ isNext (exec (.snapRead tx) s) = true) ∧
    (∃ (s : State) (tx : CalmTx) (data : List Word), s.canon = true ∧ isNext (exec (.fuseProg tx data) s) = true) ∧
    (∃ (s : State) (tx : CalmTx), s.canon = true ∧ isNext (exec (.boot tx) s) = true) ∧
    (∃ (s : State) (bytes : Half), s.canon = true ∧ isNext (exec (.calmTransactionCut bytes) s) = true) ∧
    (∃ (s : State), s.canon = true ∧ isNext (exec (.planeWorkDone) s) = true) ∧
    (∃ (s : State), s.canon = true ∧ isNext (exec (.workCancel) s) = true) ∧
    (∃ (s : State), s.canon = true ∧ isNext (exec (.clrErr) s) = true) ∧
    (∃ (s : State), s.canon = true ∧ isNext (exec (.bufClr) s) = true) ∧
    (∃ (s : State), s.canon = true ∧ isNext (exec (.postedWriteApply) s) = true) ∧
    (∃ (s : State), s.canon = true ∧ isNext (exec (.snapshotTake) s) = true) ∧
    (∃ (s : State) (o : Origin) (v : Word), s.canon = true ∧ isNext (exec (.stCmd o v) s) = true) ∧
    (∃ (s : State) (back : Word), s.canon = true ∧ isNext (exec (.fuseProgDone back) s) = true) ∧
    (∃ (s : State), s.canon = true ∧ isNext (exec (.mramBoot) s) = true) ∧
    (∃ (s : State), s.canon = true ∧ isNext (exec (.bootSlotFail) s) = true) ∧
    (∃ (s : State), s.canon = true ∧ isNext (exec (.chainBootRequest .ask) s) = true) ∧
    (∃ (s : State), s.canon = true ∧ isNext (exec (.journalFlush) s) = true) ∧
    (∃ (s : State) (gen : BitVec 3) (width : BitVec 3), s.canon = true ∧ isNext (exec (.hostLinkUp gen width) s) = true) ∧
    (∃ (s : State) (v : Fin 64), s.canon = true ∧ isNext (exec (.msixUnmask v) s) = true) :=
  ⟨⟨liveHost, 2, 3, by decide +kernel⟩,
    ⟨(liveHost.setCq 1 { written := 2 }), 1, 1, by decide +kernel⟩,
    ⟨liveHost, (entryOf 0 7 0 0), [], by decide +kernel⟩,
    ⟨liveCmd (entryOf 0 7 0 0), 7, by decide +kernel⟩,
    ⟨liveCmd (entryOf 1 7 5 8), 7, [1, 0, 0, 0, 2, 0, 0, 0], by decide +kernel⟩,
    ⟨liveCmdQ (entryOf 2 7 5 4), 7, by decide +kernel⟩,
    ⟨liveCmd (entryOf 3 7 5 0 1), 7, by decide +kernel⟩,
    ⟨liveCmd (entryOf 4 7 LD_LEN 4), 7, by decide +kernel⟩,
    ⟨liveCmd (entryOf 5 7 LD_LEN 4), 7, [1, 2, 0, 0], by decide +kernel⟩,
    ⟨liveCall (cmdOf (entryOf 6 7 4 0)), 7, by decide +kernel⟩,
    ⟨liveCall { cmdOf (entryOf 6 7 4 0) with started := true, waits := some 0 }, 7, by decide +kernel⟩,
    ⟨liveCall { cmdOf (entryOf 6 7 4 8) with started := true, posted := true }, 4, [0x80000007, 5, 6], by decide +kernel⟩,
    ⟨liveCmd (entryOf 7 7 0 4100), 7, [], by decide +kernel⟩,
    ⟨liveCmd (entryOf 8 7 0 0), 7, by decide +kernel⟩,
    ⟨liveWaiting, 7, by decide +kernel⟩,
    ⟨liveWaiting, 7, by decide +kernel⟩,
    ⟨liveHeld, 1, by decide +kernel⟩,
    ⟨liveCoalesce, 1, by decide +kernel⟩,
    ⟨liveHost, .host, 0, 3, 9, 1, by decide +kernel⟩,
    ⟨liveHost, .host, 0, 5, 9, 1, by decide +kernel⟩,
    ⟨liveHostEng, .host, 0, 4, 9, 1, by decide +kernel⟩,
    ⟨liveHost, .host, 0, 2, 9, 1, by decide +kernel⟩,
    ⟨liveCmd (entryOf 0 7 0 0), .host, 0, 7, 9, 1, by decide +kernel⟩,
    ⟨liveHost, .host, 3, 0, 0, 9, 1, by decide +kernel⟩,
    ⟨(liveHost.wr (SQ_CFG.CQ 3) 1), 3, true, by decide +kernel⟩,
    ⟨liveHost, 3, true, by decide +kernel⟩,
    ⟨live, .host, by decide +kernel⟩,
    ⟨liveHost, by decide +kernel⟩,
    ⟨liveHost, true, false, by decide +kernel⟩,
    ⟨liveHost, 2, by decide +kernel⟩,
    ⟨(live.wr CF_LEN.LEN 4100), .host, 1, by decide +kernel⟩,
    ⟨liveCf, .host, by decide +kernel⟩,
    ⟨liveCf, .host, 0x12345678, by decide +kernel⟩,
    ⟨liveCfWhole, by decide +kernel⟩,
    ⟨liveCommit, by decide +kernel⟩,
    ⟨liveReload true none, 3, by decide +kernel⟩,
    ⟨liveReload false none, 3, by decide +kernel⟩,
    ⟨liveSection, by decide +kernel⟩,
    ⟨liveRoute, 2, by decide +kernel⟩,
    ⟨live, (tx 0 8), by decide +kernel⟩,
    ⟨live, (tx 4 2), by decide +kernel⟩,
    ⟨live, (tx 4 1), [3], by decide +kernel⟩,
    ⟨live, (tx 1022 2), [5, 6], by decide +kernel⟩,
    ⟨live, (tx 0 3), by decide +kernel⟩,
    ⟨live, (tx 0 0), by decide +kernel⟩,
    ⟨liveBuf, (tx 0x10003 2), by decide +kernel⟩,
    ⟨live, (tx 0x10003 0), by decide +kernel⟩,
    ⟨live, (tx 0x20000 1), [4100], by decide +kernel⟩,
    ⟨live, (tx 0x30000 0), by decide +kernel⟩,
    ⟨live, (tx 0 1), [0xF3210], by decide +kernel⟩,
    ⟨live, (tx 0x360004 2), [5, 6], by decide +kernel⟩,
    ⟨live, (tx 0x360004 2), by decide +kernel⟩,
    ⟨live, (tx 0 4), by decide +kernel⟩,
    ⟨liveRecovery, (tx 100 1), [5], by decide +kernel⟩,
    ⟨live, (tx 2 0), by decide +kernel⟩,
    ⟨liveWork, 5, by decide +kernel⟩,
    ⟨liveMail, by decide +kernel⟩,
    ⟨liveWork, by decide +kernel⟩,
    ⟨live, by decide +kernel⟩,
    ⟨live, by decide +kernel⟩,
    ⟨livePosted, by decide +kernel⟩,
    ⟨liveWant, by decide +kernel⟩,
    ⟨live, .host, 0x22, by decide +kernel⟩,
    ⟨liveFuse, 5, by decide +kernel⟩,
    ⟨liveSealed, by decide +kernel⟩,
    ⟨liveBootFailed, by decide +kernel⟩,
    ⟨liveBootMember, by decide +kernel⟩,
    ⟨liveNotes, by decide +kernel⟩,
    ⟨live, 4, 2, by decide +kernel⟩,
    ⟨(liveHost.setReg (MSIX_PBA 0) 0x20), 5, by decide +kernel⟩⟩

/-- States and operands that meet the hypotheses of EventResetPinMemoryFrames. -/
theorem witness_EventResetPinMemoryFrames :
    (∃ (s : State) (m : Master) (off : BitVec 24) (v : Word), s.canon = true ∧ isNext (exec (.registerWrite m (.bar0 off) v) s) = true) ∧
    (∃ (s : State) (m : Master) (off : BitVec 24), s.canon = true ∧ isNext (exec (.snapshotRead m off) s) = true) ∧
    (∃ (s : State) (m : Master) (off : BitVec 24), s.canon = true ∧ isNext (exec (.counterRead m off) s) = true) ∧
    (∃ (s : State) (n : BitVec 11), s.canon = true ∧ isNext (exec (.gatewayRequest n) s) = true) ∧
    (∃ (s : State) (n : BitVec 11), s.canon = true ∧ isNext (exec (.gatewayWithdraw n) s) = true) ∧
    (∃ (s : State) (m : Master) (k : Fin 8) (gust : Bool), s.canon = true ∧ isNext (exec (.claim m k gust) s) = true) ∧
    (∃ (s : State) (m : Master) (k : Fin 8) (gust : Bool) (v : Word), s.canon = true ∧ isNext (exec (.complete m k gust v) s) = true) ∧
    (∃ (s : State) (m : Master) (i : Fin 64) (v : Word), s.canon = true ∧ isNext (exec (.pset m i v) s) = true) ∧
    (∃ (s : State) (m : Master) (i : Fin 64) (v : Word), s.canon = true ∧ isNext (exec (.pendClear m i v) s) = true) ∧
    (∃ (s : State) (c : Fin 16) (idx : Byte) (o : Origin) (pay : List Word), s.canon = true ∧ isNext (exec (.eventRecordWrite c idx o pay) s) = true) ∧
    (∃ (s : State), s.canon = true ∧ isNext (exec (.logTimerTick) s) = true) ∧
    (∃ (s : State) (o : Origin) (c : Fin 16) (v : Word), s.canon = true ∧ isNext (exec (.elClsCfgWrite o c v) s) = true) ∧
    (∃ (s : State) (d : Fin 64) (lines : BitVec 6), s.canon = true ∧ isNext (exec (.chainIrqReport d lines) s) = true) ∧
    (∃ (s : State) (d : Fin 64) (ws : List Word), s.canon = true ∧ isNext (exec (.eventCopyReceive d ws) s) = true) ∧
    (∃ (s : State) (count : BitVec 9), s.canon = true ∧ isNext (exec (.refclkMonitorWindow count) s) = true) ∧
    (∃ (s : State), s.canon = true ∧ isNext (exec (.refclkEdgeTimeout) s) = true) ∧
    (∃ (s : State) (n : Fin 5) (c : BitVec 24), s.canon = true ∧ isNext (exec (.pllWindow n (some c)) s) = true) ∧
    (∃ (s : State) (plls : BitVec 5) (on : Bool), s.canon = true ∧ isNext (exec (.pllLockDetect plls on) s) = true) ∧
    (∃ (s : State) (n : Fin 5) (forced : Bool), s.canon = true ∧ isNext (exec (.pllLocked n forced) s) = true) ∧
    (∃ (s : State) (o : Origin), s.canon = true ∧ isNext (exec (.resumeAck o) s) = true) ∧
    (∃ (s : State) (rxd : BitVec 16), s.canon = true ∧ isNext (exec (.becalmResumeStep rxd) s) = true) ∧
    (∃ (s : State) (o : Origin) (v : Word), s.canon = true ∧ isNext (exec (.pllEnableWrite o v) s) = true) ∧
    (∃ (s : State) (o : Origin) (v : Word), s.canon = true ∧ isNext (exec (.dpllRateChange o v) s) = true) ∧
    (∃ (s : State), s.canon = true ∧ isNext (exec (.resetNFall) s) = true) ∧
    (∃ (s : State), s.canon = true ∧ isNext (exec (.resetThreshold) s) = true) ∧
    (∃ (s : State) (cycles : Word) (strap : BitVec 4), s.canon = true ∧ isNext (exec (.resetNRise false cycles strap) s) = true) ∧
    (∃ (s : State) (strap : BitVec 4), s.canon = true ∧ isNext (exec (.powerOnResetEnd strap) s) = true) ∧
    (∃ (s : State) (x : Fin 7), s.canon = true ∧ isNext (exec (.supplyFail x) s) = true) ∧
    (∃ (s : State) (x : Fin 7), s.canon = true ∧ isNext (exec (.supplyReturn x) s) = true) ∧
    (∃ (s : State), s.canon = true ∧ isNext (exec (.releaseStep) s) = true) ∧
    (∃ (s : State), s.canon = true ∧ isNext (exec (.coreResetStep) s) = true) ∧
    (∃ (s : State) (o : Origin), s.canon = true ∧ isNext (exec (.rstCtrlCore o) s) = true) ∧
    (∃ (s : State) (o : Origin) (core : Bool), s.canon = true ∧ isNext (exec (.rstCtrlSystem o core) s) = true) ∧
    (∃ (s : State) (o : Origin), s.canon = true ∧ isNext (exec (.reqRun o) s) = true) ∧
    (∃ (s : State) (o : Origin), s.canon = true ∧ isNext (exec (.reqLull o) s) = true) ∧
    (∃ (s : State) (o : Origin), s.canon = true ∧ isNext (exec (.reqStill o) s) = true) ∧
    (∃ (s : State) (o : Origin), s.canon = true ∧ isNext (exec (.reqOff o) s) = true) ∧
    (∃ (s : State), s.canon = true ∧ isNext (exec (.stillEntryStep) s) = true) ∧
    (∃ (s : State) (causes : BitVec 14), s.canon = true ∧ isNext (exec (.wake causes) s) = true) ∧
    (∃ (s : State) (rxd : BitVec 16), s.canon = true ∧ isNext (exec (.stillExitStep rxd) s) = true) ∧
    (∃ (s : State) (m : Master) (off : BitVec 12) (perr : BitVec 2), s.canon = true ∧ isNext (exec (.retmemRead m off false perr) s) = true) ∧
    (∃ (s : State) (m : Master) (w : Word), s.canon = true ∧ isNext (exec (.pinlock m (.lower w)) s) = true) ∧
    (∃ (s : State) (o : Origin) (n : Fin 64) (v : Word), s.canon = true ∧ isNext (exec (.pinCfgWrite o (some n) v) s) = true) ∧
    (∃ (s : State) (hi : Bool) (v : Word), s.canon = true ∧ isNext (exec (.gpSet hi v) s) = true) ∧
    (∃ (s : State) (hi : Bool) (v : Word), s.canon = true ∧ isNext (exec (.gpClr hi v) s) = true) ∧
    (∃ (s : State) (b : Fin 5) (level : BitVec 2), s.canon = true ∧ isNext (exec (.bankSupplyChange b level) s) = true) ∧
    (∃ (s : State), s.canon = true ∧ isNext (exec (.tapReset) s) = true) ∧
    (∃ (s : State) (ir : TapIr) (en : BitVec 64) (level : BitVec 64), s.canon = true ∧ isNext (exec (.tapInstruction ir en level) s) = true) ∧
    (∃ (s : State) (o : Origin) (v : Word), s.canon = true ∧ isNext (exec (.ilvWrite o v) s) = true) ∧
    (∃ (s : State) (o : Origin) (i : Fin 4) (v : Word), s.canon = true ∧ isNext (exec (.bankStateRequest o i v) s) = true) ∧
    (∃ (s : State) (b : Fin 64), s.canon = true ∧ isNext (exec (.bankTransitionDone b) s) = true) ∧
    (∃ (s : State) (errs : List (BitVec 2 × BitVec 25 × Bool)), s.canon = true ∧ isNext (exec (.memScrubPass errs) s) = true) ∧
    (∃ (s : State) (o : Origin) (v : Word), s.canon = true ∧ isNext (exec (.memInj o v) s) = true) ∧
    (∃ (s : State) (v : Word), s.canon = true ∧ isNext (exec (.memWinAddr v) s) = true) ∧
    (∃ (s : State) (o : Origin) (c : Fin 2), s.canon = true ∧ isNext (exec (.ddrInit o c) s) = true) ∧
    (∃ (s : State) (c : Fin 2) (failed : Fin 7), s.canon = true ∧ isNext (exec (.ddrInitDone c failed) s) = true) ∧
    (∃ (s : State) (c : Fin 2) (hot : Bool), s.canon = true ∧ isNext (exec (.ddrRefresh c hot) s) = true) ∧
    (∃ (s : State) (c : Fin 2) (errs : List (BitVec 37 × Bool)), s.canon = true ∧ isNext (exec (.ddrPatrolScrub c errs) s) = true) :=
  ⟨⟨live, .host, (BitVec.ofNat 24 (SP_BREAK 15)), 0xFFFFFFFF, by decide +kernel⟩,
    ⟨live, .calm, (BitVec.ofNat 24 TB_TIME_NS), by decide +kernel⟩,
    ⟨live, .host, (BitVec.ofNat 24 (SP_CNT_NOISE 3)), by decide +kernel⟩,
    ⟨live, 3, by decide +kernel⟩,
    ⟨(live.setGate 3 { st := .pending, input := true }), 3, by decide +kernel⟩,
    ⟨liveEligible, .host, 0, false, by decide +kernel⟩,
    ⟨(live.setGate 300 { st := .claimed, owner := 2 }), .host, 2, false, 300, by decide +kernel⟩,
    ⟨live, .host, 10, 16, by decide +kernel⟩,
    ⟨(live.setGate 324 { st := .pending, bySoft := true }), .host, 10, 16, by decide +kernel⟩,
    ⟨live, 1, 9, .host, [1, 2], by decide +kernel⟩,
    ⟨live, by decide +kernel⟩,
    ⟨live, .host, 5, 0x200010, by decide +kernel⟩,
    ⟨liveRoot, 3, 5, by decide +kernel⟩,
    ⟨liveRoot, 3, [1, 2, 3, 4, 5, 6, 7, 8], by decide +kernel⟩,
    ⟨live, 250, by decide +kernel⟩,
    ⟨live, by decide +kernel⟩,
    ⟨live, 0, 40960, by decide +kernel⟩,
    ⟨live, 3, true, by decide +kernel⟩,
    ⟨((live.wr (CK_PLL.STATE 4) 2)), 4, false, by decide +kernel⟩,
    ⟨liveAck, .host, by decide +kernel⟩,
    ⟨{ liveAck with clk := { liveAck.clk with resume := some 2 } }, 0, by decide +kernel⟩,
    ⟨(live.setReg CK_CFG 0x60), .host, 0x62, by decide +kernel⟩,
    ⟨live, .host, 0x32, by decide +kernel⟩,
    ⟨live, by decide +kernel⟩,
    ⟨liveLow, by decide +kernel⟩,
    ⟨liveLow, 10, 0, by decide +kernel⟩,
    ⟨State.reset, 4, by decide +kernel⟩,
    ⟨live, 3, by decide +kernel⟩,
    ⟨{ State.reset with rst := { State.reset.rst with supplies := [3] } }, 3, by decide +kernel⟩,
    ⟨{ State.reset with rst := { State.reset.rst with por := false, bring := 2, cause := 5, toRelease := true } }, by decide +kernel⟩,
    ⟨{ live with rst := { live.rst with core := 1, bring := 1 } }, by decide +kernel⟩,
    ⟨live, .host, by decide +kernel⟩,
    ⟨live, .host, false, by decide +kernel⟩,
    ⟨(live.wr PW_STAT.STATE 1), .host, by decide +kernel⟩,
    ⟨live, .host, by decide +kernel⟩,
    ⟨live, .host, by decide +kernel⟩,
    ⟨live, .host, by decide +kernel⟩,
    ⟨liveEntering, by decide +kernel⟩,
    ⟨liveStill, 1, by decide +kernel⟩,
    ⟨liveLeaving, 0, by decide +kernel⟩,
    ⟨live, .host, 5, 1, by decide +kernel⟩,
    ⟨live, .host, 0x57, by decide +kernel⟩,
    ⟨live, .host, 5, 1, by decide +kernel⟩,
    ⟨live, false, 5, by decide +kernel⟩,
    ⟨live, true, 5, by decide +kernel⟩,
    ⟨live, 1, 3, by decide +kernel⟩,
    ⟨live, by decide +kernel⟩,
    ⟨live, .extest, 5, 1, by decide +kernel⟩,
    ⟨live, .host, 1, by decide +kernel⟩,
    ⟨live, .host, 1, 2, by decide +kernel⟩,
    ⟨liveChanging, 16, by decide +kernel⟩,
    ⟨live, [(0, 100, false)], by decide +kernel⟩,
    ⟨live, .host, 1, by decide +kernel⟩,
    ⟨liveSlot, 0x50000, by decide +kernel⟩,
    ⟨(live.on (DDR_CFG.EN 1)), .host, 1, by decide +kernel⟩,
    ⟨(live.wr (DDR_STAT.STATE 1) ddrInitState), 1, 3, by decide +kernel⟩,
    ⟨(live.wr (DDR_STAT.STATE 1) ddrReady), 1, true, by decide +kernel⟩,
    ⟨(((live.wr (DDR_STAT.STATE 1) ddrReady).on (DDR_STAT.ZEROED 1)).on (DDR_SCRUB.EN 1)), 1, [(100, false)], by decide +kernel⟩⟩


/-! ## Ill-formed commands are refused by the check, and well-formed ones pass -/

/-- A calm-port transaction of LEN 2. -/
def tTx : CalmTx := { crcOk := true, addr := 0x400100, len := 2, after := 0 }

theorem test_wf_register_offset :
    (Instr.registerWrite .host (.bar0 0x400102) 0).wf = false ∧ (Instr.registerWrite .host (.bar0 0x400100) 0).wf = true := by decide
theorem test_wf_character_without_samples : (Instr.rxCharAccept 3 []).wf = false ∧ (Instr.rxCharAccept 3 [7]).wf = true := by decide
theorem test_wf_group_empty : (Instr.queueGroupPush 5 []).wf = false := by decide
theorem test_wf_group_of_17 :
    (Instr.queueGroupPush 5 (List.replicate 17 { data := 1 })).wf = false
      ∧ (Instr.queueGroupPush 5 (List.replicate 16 { data := 1 })).wf = true := by decide
theorem test_wf_forwarded_group :
    (Instr.forwardGroupReceive 1 5 6 0 [] false).wf = false ∧ (Instr.forwardGroupReceive 1 5 6 0 [{ data := 1 }] false).wf = true := by decide
theorem test_wf_cell_credits :
    (Instr.cellReceive 0 none true [0, 0, 0]).wf = false ∧ (Instr.cellReceive 0 none true [0, 0, 0, 0]).wf = true := by decide
theorem test_wf_cell_group :
    (Instr.cellReceive 0 (some { vc := 1, src := 1, dst := 0, msg := .group 1 2 0 [] false }) true [0, 0, 0, 0]).wf = false := by decide
theorem test_wf_cell_routes :
    (Instr.cellReceive 0 (some { vc := 3, src := 1, dst := 0, msg := .routes [0] 0 }) true [0, 0, 0, 0]).wf = false := by decide
theorem test_wf_cell_command :
    (Instr.cellReceive 0 (some { vc := 1, src := 1, dst := 0, msg := .command 1 0 [0] [] }) true [0, 0, 0, 0]).wf = false := by decide
theorem test_wf_credit_sync :
    (Instr.creditSyncReceive 0 []).wf = false ∧ (Instr.creditSyncReceive 0 (List.replicate 4 (0, 0))).wf = true := by decide
theorem test_wf_frame_head :
    (Instr.frameReceive 0 0 (.head [1])).wf = false ∧ (Instr.frameReceive 0 0 (.head (List.replicate 64 1))).wf = true := by decide
theorem test_wf_ring_entry : (Instr.sqFetch [0] []).wf = false ∧ (Instr.sqFetch (List.replicate 16 0) []).wf = true := by decide
theorem test_wf_calm_data :
    (Instr.planeWrite tTx [1]).wf = false ∧ (Instr.bufWrite tTx [1]).wf = false ∧ (Instr.storeSeal tTx [1]).wf = false
      ∧ (Instr.storeHdr tTx [1]).wf = false ∧ (Instr.opWrite tTx [1]).wf = false ∧ (Instr.fuseProg tTx [1]).wf = false
      ∧ (Instr.planeWrite tTx [1, 2]).wf = true := by decide
theorem test_wf_event_payload :
    (Instr.eventRecordWrite 0 0 .device [0, 0, 0, 0, 0]).wf = false ∧ (Instr.eventRecordWrite 0 0 .device [0, 0, 0, 0]).wf = true := by
  decide
theorem test_wf_event_copy : (Instr.eventCopyReceive 1 [0]).wf = false ∧ (Instr.eventCopyReceive 1 (List.replicate 8 0)).wf = true := by decide
theorem test_wf_call_answer :
    (Instr.engineCallAnswer 0 []).wf = false ∧ (Instr.engineCallAnswer 0 [1]).wf = false
      ∧ (Instr.engineCallAnswer 0 (List.replicate 17 0x80000000)).wf = false ∧ (Instr.engineCallAnswer 0 [0x80000000]).wf = true := by decide
theorem test_wf_scrub_pass : (Instr.memScrubPass [(3, 0, false)]).wf = false ∧ (Instr.memScrubPass []).wf = true := by decide

/-- No row of the table has bits. -/
theorem test_no_word_spells_a_command : decodeTableWord 32 0 = none ∧ decodeTableWord 0 0 = none := by decide

/-! ## Worked values of the spec -/

/-- Whether an outcome is a next state that p accepts. -/
def nextHas (r : Res) (p : State → Bool) : Bool := match r with | .next t => p t | _ => false

/-- A device at device time t. -/
def tAt (t : Nat) : State := { live with time := { live.time with cyc := t, tick := t } }

/-- R326's example: SP3_CTRL of device 5 lies at BAR4 0x0508_3000. -/
theorem test_bar4_address_of_sp3_ctrl : 5 * 0x1000000 + SP_CTRL 3 = 0x05083000 := by decide

/-- R133: over the nine ASCII bytes 123456789 the CRC is 0x29B1. -/
theorem test_crc16_of_nine_digits : crc16 [0x31, 0x32, 0x33, 0x34, 0x35, 0x36, 0x37, 0x38, 0x39] = 0x29B1 := by decide

/-- The worked set-up of SP2 at 9,600 baud: SP_BAUD_ACT reads 0x196E_6AAB. -/
theorem test_rate_of_9600_baud :
    nextHas (exec (.baudChangeApply 2) (live.setPort 2 { live.port 2 with rate := some (0x196E6AAB, 0) }))
      (fun t => t.reg (SP_BAUD_ACT 2) == 0x196E6AAB) = true := by decide

/-- The end of February 2100: the calendar's write makes a step of 2,307,542,434.6 s at the next second. -/
theorem test_calendar_steps_to_2100 :
    nextHas (exec (.calendarSet .host 0x00173B3A) (((tAt 1800000000400000000).setReg TB_SRCCFG 0x40000000).setReg CAL_WDATE 0x0834021C))
      (fun t => t.time.step.map (fun p => (p.b, p.theta)) == some (1800000001000000000, 2307542434600000000)) = true := by decide

/-- The 500 µs gate cycle on NP3: NP_GCL_CCT_NS reads 0x075C_75E0. -/
theorem test_gate_cycle_start_time :
    nextHas (exec (.configChange .host 3)
        (((((tAt 1800000000123456789).setReg (NP_GCL_ALEN 3) 3).setReg (NP_GCL_ABASE_SL 3) 0x6B49D200).setReg (NP_GCL_ACYCLE 3) 0x7A120).setNet 3
          { live.net 3 with adminGates := [(0, 0x80), (1, 0x7F)], adminTimes := [(0, 0xC350), (1, 0x6B6C0), (2, 0x2710)] }))
      (fun t => t.reg (NP_GCL_CCT_NS 3) == 0x075C75E0) = true := by decide

/-- Losing a packet under OVERWRITE_PACKET: the pop of B1 after A3 answers CUT. -/
theorem test_pop_after_lost_packet_is_cut :
    nextHas (exec (.queuePop .host (.num 5) .whole)
        (live.setQueue 5 { Queue.absent with
          ex := true, gen := 1, words := [{ data := 0xB1 }, { data := 0xB6, fin := true }], head := 2, pushed := 2, hwm := 2, lastEnd := false, cut := true }))
      (fun t => match t.out with | [.answer .host v] => v.toNat == 0x80000004000000B1 | _ => false) = true := by decide +kernel

/-- Parking one quarter of the scratchpad: with ILV 1, address 0x0123_4568 lies in bank 42. -/
theorem test_bank_of_address : (live.wr MEM_CFG.ILV 1).bankOf 0x1234568 = 42 := by decide
end Sys2Proof.Tests
end

section
/-!
SUPPORT. The statements of 00_scope.md: the tables of the state after reset, the slot table that a core reset takes from a commit, and the
read of the upper word of an alarm.
-/
namespace Sys2Proof.Machine

/-! ## The tables after reset -/

/-- Settles O3: after reset every table and every byte memory lists nothing. -/
theorem resetKeepsTheTables : Obligations.ResetKeepsTheTables := by
  unfold Obligations.ResetKeepsTheTables
  obtain ⟨hscratch, hbuf, hstore⟩ := reset_memories_wf
  exact ⟨by decide, by simp [State.memOk, hscratch, hbuf, hstore]⟩

/-! ## What leaves the slot table as it is -/

/-- The slot table of s is x. As a predicate of the state, so that a proof follows the updates of s and does not evaluate them. -/
structure State.HasSlots (s : State) (x : Tab Slot) : Prop where
  slots_eq : s.mem.slots = x

section
variable {s : State} {x : Tab Slot}

theorem State.HasSlots.ite {c : Prop} [Decidable c] {t : State} (hs : s.HasSlots x) (ht : t.HasSlots x) :
    (if c then s else t).HasSlots x := by
  split_ifs
  · exact hs
  · exact ht

theorem State.HasSlots.foldl {α : Type} {f : State → α → State} (hf : ∀ s a, s.HasSlots x → (f s a).HasSlots x) (l : List α)
    (h : s.HasSlots x) : (l.foldl f s).HasSlots x :=
  List.foldlRecOn l f h fun t ht a _ => hf t a ht

theorem State.HasSlots.setReg (a : Nat) (v : Word) (h : s.HasSlots x) : (s.setReg a v).HasSlots x := ⟨h.slots_eq⟩
theorem State.HasSlots.wr (f : Fld) (n : Nat) (h : s.HasSlots x) : (s.wr f n).HasSlots x := ⟨h.slots_eq⟩
theorem State.HasSlots.setCls (c : Nat) (y : ClassState) (h : s.HasSlots x) : (s.setCls c y).HasSlots x := ⟨h.slots_eq⟩
theorem State.HasSlots.setRst (y : ResetSys) (h : s.HasSlots x) : (s.setRst y).HasSlots x := ⟨h.slots_eq⟩
theorem State.HasSlots.setEng (e : Nat) (y : Engine) (h : s.HasSlots x) : (s.setEng e y).HasSlots x := ⟨h.slots_eq⟩
theorem State.HasSlots.emit (o : Out) (h : s.HasSlots x) : (s.emit o).HasSlots x := ⟨h.slots_eq⟩
theorem State.HasSlots.withEic (y : Eic) (h : s.HasSlots x) : ({ s with eic := y } : State).HasSlots x := ⟨h.slots_eq⟩
theorem State.HasSlots.withStopped (y : Stopped) (h : s.HasSlots x) : ({ s with stopped := y } : State).HasSlots x := ⟨h.slots_eq⟩
theorem State.HasSlots.dropSnapshots (h : s.HasSlots x) : s.dropSnapshots.HasSlots x := ⟨h.slots_eq⟩

theorem State.HasSlots.logRecord (r : List Word) (h : s.HasSlots x) : (s.logRecord r).HasSlots x := by
  have hroom : (if s.logCap * 8 ≤ s.log.q.held then s.logDiscard else s).HasSlots x := .ite ⟨h.slots_eq⟩ h
  unfold State.logRecord
  generalize (if s.logCap * 8 ≤ s.log.q.held then s.logDiscard else s) = t at hroom ⊢
  exact .setReg _ _ (.ite (.wr _ _ ⟨hroom.slots_eq⟩) ⟨hroom.slots_eq⟩)

theorem State.HasSlots.forwardCopy (c : Nat) (r : List Word) (h : s.HasSlots x) : (s.forwardCopy c r).HasSlots x := by
  unfold State.forwardCopy
  exact .ite (.ite (.wr _ _ (.setReg _ _ (.setCls _ _ h))) ⟨h.slots_eq⟩) h

theorem State.HasSlots.logSet (c : Nat) (rs : List (List Word)) (h : s.HasSlots x) : (s.logSet c rs).HasSlots x :=
  .foldl (fun _ r ht => (ht.logRecord r).forwardCopy c r) rs h

theorem State.HasSlots.suppress (c code n : Nat) (h : s.HasSlots x) : (s.suppress c code n).HasSlots x :=
  .setReg _ _ (.setCls _ _ h)

theorem State.HasSlots.pushSet (c code : Nat) (rs : List (List Word)) (h : s.HasSlots x) : (s.pushSet c code rs).HasSlots x := by
  unfold State.pushSet
  exact .ite (h.logSet c rs) (.ite (.logSet c rs (.setCls _ _ h)) (h.suppress c code _))

/-- An event changes the log alone, and its counters (R547). -/
theorem State.HasSlots.event (code : Nat) (pay : List Nat) (o : Origin) (h : s.HasSlots x) : (s.event code pay o).HasSlots x := by
  unfold State.event State.eventAt
  exact .ite (h.pushSet _ _ _) (.ite (h.suppress _ _ _) ⟨h.slots_eq⟩)

theorem State.HasSlots.clearMail (e : Nat) (h : s.HasSlots x) : (s.clearMail e).HasSlots x := by
  unfold State.clearMail
  exact .setEng _ _ (.setReg _ _ (.wr _ _ (.wr _ _ (.foldl (fun _ _ ht => .setReg _ _ (.setReg _ _ ht)) _ h))))

theorem State.HasSlots.endLoad (result : Nat) (h : s.HasSlots x) : (s.endLoad result).HasSlots x := by
  have hdone : ((s.wr LD_STAT.STATE (if result = 0 then ldDone else ldFailed)).wr LD_STAT.RESULT result).HasSlots x :=
    .wr _ _ (.wr _ _ h)
  unfold State.endLoad
  exact .event _ _ _ ⟨hdone.slots_eq⟩

/-- Where no engine is to start again, the stop of the engines leaves the slot table alone. -/
theorem State.HasSlots.stopEngines (hnone : s.enginesToRestart = []) (h : s.HasSlots x) : s.stopEngines.HasSlots x := by
  unfold State.stopEngines
  rw [hnone]
  refine .setRst _ (.ite (.endLoad 11 ?_) ?_)
  all_goals exact .foldl (fun _ e ht => .setEng _ _ (ht.clearMail e)) _ h

theorem State.HasSlots.routePart (w : RouteWait) (ts : List Nat) (own : Bool) (h : s.HasSlots x) :
    (s.routePart w ts own).HasSlots x := ⟨h.slots_eq⟩

theorem State.HasSlots.routeTarget (t : Nat) (h : s.HasSlots x) : (s.routeTarget t).HasSlots x := by
  unfold State.routeTarget
  have hparts (l : List RouteWait) :
      (l.foldl (fun s w => s.routePart w (w.targets.filter (· != t)) w.own) s).HasSlots x :=
    .foldl (fun _ w ht => ht.routePart w _ _) l h
  dsimp only
  split
  · exact .setReg _ _ ⟨(hparts _).slots_eq⟩
  · exact hparts _

theorem State.HasSlots.routeSource (n : Nat) (h : s.HasSlots x) : (s.routeSource n).HasSlots x := by
  unfold State.routeSource
  split
  · exact h.routePart _ _ _
  · exact h

theorem State.HasSlots.eicReset (h : s.HasSlots x) : s.eicReset.HasSlots x := by
  unfold State.eicReset
  refine .ite (.emit _ ?_) ?_
  all_goals
    exact .foldl (fun _ n ht => ht.routeSource n) _ (.foldl (fun _ t ht => ht.routeTarget t) _ (.withEic _ (.setReg _ _ h)))

/-- Where no engine is to start again, a core reset leaves the slot table that the end of the commit leaves (R496, R591). -/
theorem State.HasSlots.coreAssert (hnone : s.cfgReset.enginesToRestart = []) (h : s.cfgReset.HasSlots x) :
    s.coreAssert.HasSlots x := by
  have hdropped : s.cfgReset.stopEngines.eicReset.dropSnapshots.HasSlots x := (h.stopEngines hnone).eicReset.dropSnapshots
  unfold State.coreAssert
  exact .setRst _ (.setReg _ _ (.ite (.wr _ _ (.wr _ _ (.withStopped _ hdropped))) (.withStopped _ hdropped)))

/-- A core reset of a device that no other reset holds (R590). -/
theorem State.HasSlots.assertReset (cause : Nat) (hpor : s.rst.por = false) (hbring : s.rst.bring = 0)
    (hbecalm : (s.off RST_CAUSE.DEEPENED).bit CK_STAT.BECALM = false)
    (h : (s.off RST_CAUSE.DEEPENED).coreAssert.HasSlots x) : (s.assertReset 1 cause).HasSlots x := by
  unfold State.assertReset
  simp only [hpor, Bool.false_eq_true, ↓reduceIte, Nat.not_ofNat_le_one, hbring, nonpos_iff_eq_zero, OfNat.ofNat_ne_zero, or_self,
    ne_eq, not_true_eq_false, decide_false, Bool.false_and, hbecalm]
  exact .setRst _ h

end

/-! ## The slot table that a first commit keeps -/

theorem State.slots_wf_of_canon {s : State} (h : s.canon = true) : tabWf Slot.reset s.mem.slots = true := by
  simp only [State.canon, Bool.and_eq_true] at h
  tauto

/-- A first commit in progress. The slot table that it keeps for its end (R487) lists slot 0 at the value that an unlisted slot reads as. -/
def paddedCommit : Commit where
  load := { org := .host, code := ownerCode .host, src := .stream, len := 0 }
  image := []
  first := true
  todo := []
  slots := [(0, Slot.reset 0)]

/-- A device out of reset in that commit, with RESET_N just gone low (R587). Its own tables are all empty. -/
def paddedCommitState : State :=
  { State.reset with
    rst := { low := true, por := false, bring := 0, toRelease := false }
    cfg := { commit := some paddedCommit } }

/-- The core reset ends the commit and puts its slot table back (R487, R496). -/
theorem cfgReset_paddedCommitState_slots :
    (paddedCommitState.off RST_CAUSE.DEEPENED).cfgReset.mem.slots = [(0, Slot.reset 0)] := by decide +kernel

theorem cfgReset_paddedCommitState_enginesToRestart :
    (paddedCommitState.off RST_CAUSE.DEEPENED).cfgReset.enginesToRestart = [] := by decide +kernel

/-- The low pulse of paddedCommitState reaches its first threshold (R588). -/
def paddedCommitReset : State := paddedCommitState.pulseReaches 1

theorem step_paddedCommit : step { paddedCommitState with pending := [.resetThreshold] } = .next paddedCommitReset := rfl

theorem paddedCommitReset_hasSlots : paddedCommitReset.HasSlots [(0, Slot.reset 0)] := by
  have hcore : (paddedCommitState.off RST_CAUSE.DEEPENED).coreAssert.HasSlots [(0, Slot.reset 0)] :=
    .coreAssert cfgReset_paddedCommitState_enginesToRestart ⟨cfgReset_paddedCommitState_slots⟩
  have hassert : (paddedCommitState.assertReset 1 4).HasSlots [(0, Slot.reset 0)] := .assertReset 4 rfl rfl (by decide) hcore
  exact .setRst _ hassert

/-- Refutes O4: a core reset that ends a first commit puts the slot table of the commit back as it is (R487, R496), and canon says nothing
of that table: in paddedCommitState it is not in canonical form. -/
theorem not_everyStepKeepsTheTables : ¬ Obligations.EveryStepKeepsTheTables := by
  unfold Obligations.EveryStepKeepsTheTables
  intro h
  obtain ⟨hcanon, -⟩ := h _ paddedCommitReset (by decide) (by decide) step_paddedCommit
  have hwf : tabWf Slot.reset paddedCommitReset.mem.slots = true := State.slots_wf_of_canon hcanon
  rw [paddedCommitReset_hasSlots.slots_eq] at hwf
  exact absurd hwf (by decide)

/-! ## The upper word of an alarm -/

/-- A device whose alarm 0 is armed, and of which no master has a snapshot. -/
def armedAlarm : State := State.reset.on (ALM_SH.ARM 0)

/-- The read of ALM_SH answers ARM as it stands (R305), beside the snapshot's seconds, which are 0. -/
theorem armedAlarm_read_upper_word : (armedAlarm.answerReg .host (ALM_SH 0)).out = [.answer .host 0x80000000] := by decide +kernel

/-- Refutes O9: its fourth clause has the read of an upper word answer the snapshot whole, but FIRED and ARM of ALM_SH are read live (R305,
log entry 145). -/
theorem not_registerAccessesComplete : ¬ Obligations.RegisterAccessesComplete := by
  unfold Obligations.RegisterAccessesComplete
  rintro ⟨-, -, -, hupper, -⟩
  obtain ⟨t, hread, hout⟩ := hupper armedAlarm .host (BitVec.ofNat 24 (ALM_SH 0)) (by decide) rfl (by decide +kernel)
  have ht : armedAlarm.answerReg .host (ALM_SH 0) = t := Host.Outcome.next.inj hread
  rw [← ht, armedAlarm_read_upper_word] at hout
  exact absurd hout (by decide)

end Sys2Proof.Machine
end

section
namespace Sys2Proof.Machine

/-! ## One step, by the queue of commands -/

/-- Commands run in the order of their arrival (R31). -/
theorem step_of_pending_cons {c : Instr} {rest : List Instr} {s : State} (h : s.pending = c :: rest) :
    step s = exec c { s with pending := rest } := by
  simp only [step, h]

/-- An empty queue: the device idles (log entry 1). -/
theorem step_of_pending_nil {s : State} (h : s.pending = []) : step s = .next s.idle := by
  simp only [step, h]

/-- Settles O1: the step's two cases are those of the queue. -/
theorem stepRunsTheFrontCommand : Obligations.StepRunsTheFrontCommand := by
  unfold Obligations.StepRunsTheFrontCommand
  constructor
  case left =>
    intro c rest s hfront
    exact step_of_pending_cons hfront
  case right =>
    intro s hempty
    exact step_of_pending_nil hempty

end Sys2Proof.Machine
end

section
/-!
SUPPORT. Statements of 02_serial_line.md that fail in some canonical state, each with that state: a port in LOOPBACK, a port that serves its
bindings later, and a word with an error of a memory that does not exist.
-/
namespace Sys2Proof.Machine

/-! ## LOOPBACK: what a command of the pads brings (R73) -/

/-- In LOOPBACK it is TXD that tells of a start bit: where TXD gives a space, RX_FALSE_START does not arise (R37, R73). -/
theorem execRxFalseStart_loopback_space {s : State} {p : Fin 16} {c : RxChar} (hchar : (s.port p).rxChar = some c)
    (hloop : s.bit (SP_CTRL.LOOPBACK p) = true) (hspace : vote ((s.rxSamples p c []).getD 0 7) = false) :
    execRxFalseStart p s = .next s := by
  simp only [execRxFalseStart, hchar, hloop, hspace, Bool.not_false, Bool.and_self, ↓reduceIte]

/-- A character that began at tick 0, at 16 samples of 1 ns per bit. -/
def loopbackChar : RxChar := { stamp := 0, tick := 0, osr := 16, d := 65536, fmt := {} }

/-- A device whose clocks run, with port 0 in LOOPBACK: it receives what it sends, and TXD is in its start bit. -/
def loopbackStart : State :=
  { (State.reset.on (SP_CTRL.RX_EN 0)).on (SP_CTRL.LOOPBACK 0) with
    stopped := {}
    ports := [(0, { rxChar := some loopbackChar, waves := [{ start := 0, bit := 0x100000, levels := [false] }] })] }

theorem exec_rxFalseStart_loopbackStart : exec (.rxFalseStart 0) loopbackStart = .next loopbackStart :=
  execRxFalseStart_loopback_space (s := loopbackStart) (p := 0) (c := loopbackChar) rfl (by decide +kernel) (by decide +kernel)

/-- The command leaves the character in progress, so no claim that it ends one holds here. -/
theorem not_completes_rxFalseStart_loopbackStart {P : State → Prop} (hP : ∀ t, P t → (t.port 0).rxChar = none) :
    ¬ Completes (.rxFalseStart 0) loopbackStart P := by
  rintro ⟨t, hexec, ht⟩
  have hsame : loopbackStart = t := Host.Outcome.next.inj (exec_rxFalseStart_loopbackStart.symm.trans hexec)
  have hnone : (loopbackStart.port 0).rxChar = none := hsame ▸ hP t ht
  exact absurd hnone (by decide)

/-- Refutes O6: in LOOPBACK the start bit is TXD's (R73). loopbackStart meets the hypotheses of the first clause, and the command leaves
its character in progress. -/
theorem not_falseStartsAreDiscarded : ¬ Obligations.FalseStartsAreDiscarded := by
  unfold Obligations.FalseStartsAreDiscarded
  rintro ⟨halone, -⟩
  exact not_completes_rxFalseStart_loopbackStart (fun _ ht => ht.1)
    (halone loopbackStart 0 (by decide +kernel) rfl ⟨by decide +kernel, rfl⟩)

/-- Refutes O10: its third clause has RX_FALSE_START end the character on every port, but in LOOPBACK TXD tells (R73). -/
theorem not_receiveStartsAndVotes : ¬ Obligations.ReceiveStartsAndVotes := by
  unfold Obligations.ReceiveStartsAndVotes
  rintro ⟨-, -, hfalse, -⟩
  exact not_completes_rxFalseStart_loopbackStart (fun _ ht => ht.1) (hfalse loopbackStart 0 (by decide +kernel) rfl)

/-- A port in LOOPBACK that sends a character: nothing leaves for the pads (R73). -/
theorem sendChar_out_loopback :
    ((State.reset.on (SP_CTRL.LOOPBACK 0)).sendChar 0 { data := 0x41 } none 0 0).out = [] := by decide +kernel

/-- Refutes O7: its third clause has every port's character leave as an output, but what a port sends in LOOPBACK stays inside (R73). -/
theorem not_theErrBitSendsAFault : ¬ Obligations.TheErrBitSendsAFault := by
  unfold Obligations.TheErrBitSendsAFault
  rintro ⟨-, -, hsent⟩
  obtain ⟨tick, hmem⟩ := hsent (State.reset.on (SP_CTRL.LOOPBACK 0)) 0 { data := 0x41 } none 0 0
  rw [sendChar_out_loopback] at hmem
  exact absurd hmem List.not_mem_nil

/-! ## A queue that serves port 0 -/

/-- A device whose clocks run, with port p as port 0, its transmitter enabled, and its transmit queue 0 bound to queue 0, which holds
one word. -/
def servedPort (p : Port) (hurt : List (Nat × Nat × Bool)) : State :=
  { (State.reset.on (SP_CTRL.TX_EN 0)).on (SP_QTX.BIND_EN 0 0) with
    stopped := {}
    ports := tabPut Port.reset [] 0 p
    queues := [(0, { ex := true, words := [{ data := 0x41 }], head := 1, hurt := hurt })] }

/-- Before the tick from which the transmitter serves the bindings of a reload (R491), TX_PREFETCH_POP does not arise. -/
theorem execTxPrefetchPop_before_serveFrom {s : State} {p : Fin 16} (hwait : s.time.tick < (s.port p).serveFrom) :
    execTxPrefetchPop p s = .next s := by
  simp [execTxPrefetchPop, hwait]

/-- Port 0 serves its binding from tick 1 on; it is tick 0. -/
def servedLater : State := servedPort { serveFrom := 1 } []

/-- Refutes O13: its first clause leaves out the tick from which the transmitter serves its bindings (R491). On servedLater a word waits
and the prefetch is empty, and the command takes nothing. -/
theorem not_transmitComplete : ¬ Obligations.TransmitComplete := by
  unfold Obligations.TransmitComplete
  rintro ⟨hpop, -⟩
  obtain ⟨t, hexec, hfetched⟩ := hpop servedLater 0 (by decide +kernel) (by decide +kernel) (by decide +kernel) 0 (by decide +kernel)
    0 (by decide +kernel) { data := 0x41 } (by decide +kernel) (by decide +kernel)
  have hsame : servedLater = t :=
    Host.Outcome.next.inj ((execTxPrefetchPop_before_serveFrom (p := 0) (by decide +kernel)).symm.trans hexec)
  rw [← hsame] at hfetched
  exact absurd hfetched (by decide +kernel)

/-! ## A word with an error of a memory that the device does not have -/

/-- The word of queue 0 carries a correctable error of memory 4. The memories that an injection names are 0 to 3 (R652), DRAM channels
0 and 1 being 2 and 3; the canonical form of a state says nothing of the number. -/
def hurtWord : State := servedPort {} [(0, 4, false)]

/-- The pop of that word counts the error in the copy of DDR_CNT_CE that channel 2 would have. -/
theorem txPrefetchPop_hurtWord : ∃ t, exec (.txPrefetchPop 0) hurtWord = .next t ∧ t.reg (DDR_CNT_CE 2) = 1 :=
  ⟨_, rfl, by decide +kernel⟩

/-- Refutes O54: the frame of TX_PREFETCH_POP lists the counters of two DRAM channels, and a canonical state can name a third. -/
theorem not_serialFrames : ¬ Obligations.SerialFrames := by
  unfold Obligations.SerialFrames
  rintro ⟨-, -, -, -, -, -, -, -, -, -, -, -, -, hpop, -⟩
  obtain ⟨t, hexec, hcount⟩ := txPrefetchPop_hurtWord
  obtain ⟨-, hregs, -⟩ := hpop 0 hurtWord t (by decide +kernel) hexec
  have hkept := hregs (DDR_CNT_CE 2) (by decide +kernel)
  rw [hcount] at hkept
  exact absurd hkept (by decide +kernel)

end Sys2Proof.Machine
end

section
/-!
SUPPORT. Fields of a register as bits, and what a command may change: the fields it writes, and a view of one port.
-/
namespace Sys2Proof.Machine

/-! ## Fields of a word -/

/-- Fields f and g have no bit in common. -/
def Fld.apart (f g : Fld) : Bool := f.reg != g.reg || decide (f.lo + f.w ≤ g.lo) || decide (g.lo + g.w ≤ f.lo)

theorem Fld.apart_iff {f g : Fld} : f.apart g = true ↔ (f.reg = g.reg → f.lo + f.w ≤ g.lo ∨ g.lo + g.w ≤ f.lo) := by
  simp [Fld.apart, or_assoc, imp_iff_not_or]

/-- The bits of a word after a write of field f: those of x in the field, and the word's own around it. -/
theorem testBit_fldPut (f : Fld) (v : Word) (x i : Nat) :
    (fldPut f v x).toNat.testBit i =
      (decide (i < 32) && if f.lo ≤ i ∧ i < f.lo + f.w then x.testBit (i - f.lo) else v.toNat.testBit i) := by
  have hsplit : v.toNat - fldOf f v * 2 ^ f.lo + x % 2 ^ f.w * 2 ^ f.lo
      = 2 ^ f.lo * (2 ^ f.w * (v.toNat / 2 ^ f.lo / 2 ^ f.w) + x % 2 ^ f.w) + v.toNat % 2 ^ f.lo := by
    have hlow := Nat.div_add_mod v.toNat (2 ^ f.lo)
    have hmid := Nat.div_add_mod (v.toNat / 2 ^ f.lo) (2 ^ f.w)
    have hfld : fldOf f v = v.toNat / 2 ^ f.lo % 2 ^ f.w := by rw [fldOf, Nat.shiftRight_eq_div_pow]
    rw [← hmid] at hlow
    rw [hfld, Nat.mul_comm _ (2 ^ f.lo), Nat.mul_comm (x % _), Nat.mul_add]
    rw [Nat.mul_add] at hlow
    omega
  rw [fldPut, BitVec.toNat_ofNat, Nat.testBit_mod_two_pow, hsplit,
    Nat.testBit_two_pow_mul_add _ (Nat.mod_lt _ (Nat.two_pow_pos _))]
  congr 1
  by_cases hlo : i < f.lo
  · rw [if_pos hlo, if_neg (by omega), Nat.testBit_mod_two_pow]
    simp [hlo]
  · rw [if_neg hlo, Nat.testBit_two_pow_mul_add _ (Nat.mod_lt _ (Nat.two_pow_pos _))]
    by_cases hhi : i < f.lo + f.w
    · rw [if_pos (by omega), if_pos ⟨by omega, hhi⟩, Nat.testBit_mod_two_pow]
      simp [show i - f.lo < f.w by omega]
    · rw [if_neg (by omega), if_neg (by omega), Nat.div_div_eq_div_mul, ← pow_add, Nat.testBit_div_two_pow]
      congr 1
      omega

theorem testBit_fldOf (f : Fld) (v : Word) (i : Nat) : (fldOf f v).testBit i = (decide (i < f.w) && v.toNat.testBit (f.lo + i)) := by
  rw [fldOf, Nat.testBit_mod_two_pow, Nat.testBit_shiftRight]

/-- A field of the word reads what was written to it. -/
theorem fldOf_fldPut_same {f : Fld} (hf : f.lo + f.w ≤ 32) (v : Word) (x : Nat) : fldOf f (fldPut f v x) = x % 2 ^ f.w := by
  refine Nat.eq_of_testBit_eq fun i => ?_
  rw [testBit_fldOf, testBit_fldPut, Nat.testBit_mod_two_pow]
  by_cases hi : i < f.w
  · simp [hi, show f.lo + i < 32 by omega]
  · simp [hi]

/-- A write of a field leaves the fields apart from it as they are. -/
theorem fldOf_fldPut_apart {f g : Fld} (h : f.lo + f.w ≤ g.lo ∨ g.lo + g.w ≤ f.lo) (v : Word) (x : Nat) :
    fldOf g (fldPut f v x) = fldOf g v := by
  refine Nat.eq_of_testBit_eq fun i => ?_
  rw [testBit_fldOf, testBit_fldOf, testBit_fldPut]
  by_cases hi : i < g.w
  · rw [if_neg (by omega)]
    by_cases hw : g.lo + i < 32
    · simp [hw]
    · have hzero : v.toNat.testBit (g.lo + i) = false := by
        rw [BitVec.testBit_toNat, BitVec.getLsbD_of_ge _ _ (by omega)]
      simp [hw, hzero]
  · simp [hi]

/-- A field beyond the word, or without bits, reads 0. -/
theorem fldOf_beyond {g : Fld} (h : 32 ≤ g.lo ∨ g.w = 0) (v : Word) : fldOf g v = 0 := by
  refine Nat.eq_of_testBit_eq fun i => ?_
  rw [testBit_fldOf, Nat.zero_testBit, BitVec.testBit_toNat]
  rcases h with hlo | hw
  · rw [BitVec.getLsbD_of_ge _ _ (by omega), Bool.and_false]
  · simp [hw]

/-- The register at a, as a field. -/
def wholeReg (a : Nat) : Fld := ⟨a, 0, 32⟩

theorem rd_wholeReg (s : State) (a : Nat) : s.rd (wholeReg a) = (s.reg a).toNat := by
  simp [State.rd, fldOf, wholeReg, Nat.mod_eq_of_lt (s.reg a).isLt]

/-- Whether one-bit field f is set is bit f.lo of its register. -/
theorem bit_eq_getLsbD {f : Fld} (hf : f.w = 1) (s : State) : s.bit f = (s.reg f.reg).getLsbD f.lo := by
  have h := testBit_fldOf f (s.reg f.reg) 0
  have hlt : fldOf f (s.reg f.reg) < 2 := by
    rw [fldOf, hf]
    omega
  simp only [hf, Nat.lt_one_iff, decide_true, Bool.true_and, Nat.add_zero, Nat.testBit_zero] at h
  rw [State.bit, State.rd, ← BitVec.testBit_toNat, ← h]
  generalize fldOf f (s.reg f.reg) = y at *
  have hy : y = 0 ∨ y = 1 := by omega
  rcases hy with rfl | rfl <;> rfl

end Sys2Proof.Machine
end

section
namespace Sys2Proof.Machine

/-! ## What a command may change -/

/-- From s to t the fields that are apart from every one of fs keep their values, and so does the view v of port n; the tables of
registers and ports of t are in canonical form. As a relation to a fixed s, so that a proof follows the updates one by one. -/
structure State.Keeps (fs : List Fld) (n : Nat) (v : Port → Port) (s t : State) : Prop where
  regs_wf : tabWf regReset t.regs = true
  ports_wf : tabWf Port.reset t.ports = true
  rd_eq : ∀ g, fs.all (fun f => f.apart g) = true → t.rd g = s.rd g
  port_eq : v (t.port n) = v (s.port n)

theorem State.regs_wf_of_canon {s : State} (h : s.canon = true) : tabWf regReset s.regs = true := by
  simp only [State.canon, Bool.and_eq_true] at h
  tauto

theorem State.ports_wf_of_canon {s : State} (h : s.canon = true) : tabWf Port.reset s.ports = true := by
  simp only [State.canon, Bool.and_eq_true] at h
  tauto

namespace State.Keeps

section
variable {fs : List Fld} {n : Nat} {v : Port → Port} {s t : State}

/-- Where the proof starts. -/
theorem start (hregs : tabWf regReset s.regs = true) (hports : tabWf Port.reset s.ports = true) : s.Keeps fs n v s :=
  ⟨hregs, hports, fun _ _ => rfl, rfl⟩

theorem of_canon (h : s.canon = true) : s.Keeps fs n v s := start (regs_wf_of_canon h) (ports_wf_of_canon h)

theorem reg_eq (h : s.Keeps fs n v t) {a : Nat} (ha : fs.all (fun f => f.apart (wholeReg a)) = true) : t.reg a = s.reg a :=
  BitVec.eq_of_toNat_eq (by rw [← rd_wholeReg, ← rd_wholeReg, h.rd_eq _ ha])

theorem bit_eq (h : s.Keeps fs n v t) {g : Fld} (hg : fs.all (fun f => f.apart g) = true) : t.bit g = s.bit g := by
  rw [State.bit, State.bit, h.rd_eq g hg]

/-- An update of other parts of the state. -/
theorem same {u : State} (h : s.Keeps fs n v t) (hregs : u.regs = t.regs) (hports : u.ports = t.ports) : s.Keeps fs n v u where
  regs_wf := hregs ▸ h.regs_wf
  ports_wf := hports ▸ h.ports_wf
  rd_eq g hg := by rw [← h.rd_eq g hg, State.rd, State.reg, hregs]; rfl
  port_eq := by rw [← h.port_eq, State.port, hports]; rfl

theorem ite {c : Prop} [Decidable c] {u : State} (ht : s.Keeps fs n v t) (hu : s.Keeps fs n v u) :
    s.Keeps fs n v (if c then t else u) := by
  split_ifs
  · exact ht
  · exact hu

theorem foldl {α : Type} {f : State → α → State} (l : List α) (hf : ∀ t, ∀ a ∈ l, s.Keeps fs n v t → s.Keeps fs n v (f t a))
    (h : s.Keeps fs n v t) : s.Keeps fs n v (l.foldl f t) :=
  List.foldlRecOn l f h fun t ht a ha => hf t a ha ht

/-- A field that may change takes a value. -/
theorem wrField {f : Fld} {x : Nat} (h : s.Keeps fs n v t) (hf : f ∈ fs) : s.Keeps fs n v (t.wr f x) where
  regs_wf := setReg_wf _ _ h.regs_wf
  ports_wf := h.ports_wf
  rd_eq g hg := by
    rw [← h.rd_eq g hg, State.rd, State.wr, reg_setReg h.regs_wf]
    split_ifs with hreg
    · rw [fldOf_fldPut_apart (Fld.apart_iff.1 (List.all_eq_true.1 hg f hf) hreg.symm), State.rd, hreg]
    · rfl
  port_eq := h.port_eq

theorem putField {f : Fld} {b : Bool} (h : s.Keeps fs n v t) (hf : f ∈ fs) : s.Keeps fs n v (t.put f b) := h.wrField hf

/-- A register that may change takes a value. -/
theorem setReg {a : Nat} {x : Word} (h : s.Keeps fs n v t) (ha : wholeReg a ∈ fs) : s.Keeps fs n v (t.setReg a x) where
  regs_wf := setReg_wf _ _ h.regs_wf
  ports_wf := h.ports_wf
  rd_eq g hg := by
    rw [← h.rd_eq g hg, State.rd, reg_setReg h.regs_wf]
    split_ifs with hreg
    · have hapart : 0 + 32 ≤ g.lo ∨ g.lo + g.w ≤ 0 := Fld.apart_iff.1 (List.all_eq_true.1 hg _ ha) hreg.symm
      have hbeyond : 32 ≤ g.lo ∨ g.w = 0 := by omega
      rw [State.rd, fldOf_beyond hbeyond, fldOf_beyond hbeyond]
    · rfl
  port_eq := h.port_eq

theorem wr {f : Fld} {x : Nat} (h : s.Keeps fs n v t) (hf : wholeReg f.reg ∈ fs) : s.Keeps fs n v (t.wr f x) := h.setReg hf

theorem on {f : Fld} (h : s.Keeps fs n v t) (hf : wholeReg f.reg ∈ fs) : s.Keeps fs n v (t.on f) := h.wr hf

theorem off {f : Fld} (h : s.Keeps fs n v t) (hf : wholeReg f.reg ∈ fs) : s.Keeps fs n v (t.off f) := h.wr hf

theorem put {f : Fld} {b : Bool} (h : s.Keeps fs n v t) (hf : wholeReg f.reg ∈ fs) : s.Keeps fs n v (t.put f b) := h.wr hf

theorem incBy {a k : Nat} (h : s.Keeps fs n v t) (ha : wholeReg a ∈ fs) : s.Keeps fs n v (t.incBy a k) := h.setReg ha

theorem inc {a : Nat} (h : s.Keeps fs n v t) (ha : wholeReg a ∈ fs) : s.Keeps fs n v (t.inc a) := h.incBy ha

/-- A port takes a value, which looks the same in the view if the port is the one that is followed. -/
theorem setPort {m : Nat} {p : Port} (h : s.Keeps fs n v t) (hp : m = n → v p = v (t.port n)) : s.Keeps fs n v (t.setPort m p) where
  regs_wf := h.regs_wf
  ports_wf := tabPut_wf _ _ h.ports_wf
  rd_eq := h.rd_eq
  port_eq := by
    rw [← h.port_eq, port_setPort h.ports_wf]
    split_ifs with hm
    · exact hp hm.symm
    · rfl

end

end State.Keeps
end Sys2Proof.Machine
end

section
/-!
SUPPORT. What a record in the log and words entering a queue change (R203 to R241, R547 to R555).
-/
namespace Sys2Proof.Machine

/-! ## Records in the log -/

/-- The registers that a record in the log changes (R547 to R555). -/
def logFields : List Fld :=
  [wholeReg EL_CNT_REC, wholeReg EL_CNT_FWDSUP, wholeReg EL_EVT] ++ (List.range 16).map (fun c => wholeReg (EL_CLS_SUP c))

namespace State.Keeps
section
variable {fs : List Fld} {n : Nat} {v : Port → Port} {s t : State}
  {r : List Word} {rs : List (List Word)} {c code k : Nat} {late : Bool} {o : Origin} {pay : List Word} {nums : List Nat}
  {gave holds kind obj a : Nat} {new old : Word} {x : ClassState}

theorem setCls (h : s.Keeps fs n v t) : s.Keeps fs n v (t.setCls c x) := h.same rfl rfl

variable (hlog : logFields ⊆ fs)
include hlog

theorem logRecord (h : s.Keeps fs n v t) : s.Keeps fs n v (t.logRecord r) := by
  have hroom : s.Keeps fs n v (if t.logCap * 8 ≤ t.log.q.held then t.logDiscard else t) := .ite (h.same rfl rfl) h
  have hrec : wholeReg EL_CNT_REC ∈ fs := hlog (by simp [logFields])
  have hevt : wholeReg EL_EVT ∈ fs := hlog (by simp [logFields])
  unfold State.logRecord
  generalize (if t.logCap * 8 ≤ t.log.q.held then t.logDiscard else t) = u at hroom ⊢
  exact .inc (.ite (.on (hroom.same rfl rfl) hevt) (hroom.same rfl rfl)) hrec

theorem forwardCopy (h : s.Keeps fs n v t) : s.Keeps fs n v (t.forwardCopy c r) := by
  have hcount : wholeReg EL_CNT_FWDSUP ∈ fs := hlog (by simp [logFields])
  have hevt : wholeReg EL_EVT ∈ fs := hlog (by simp [logFields])
  unfold State.forwardCopy
  exact .ite (.ite (.on (.inc h.setCls hcount) hevt) (h.same rfl rfl)) h

theorem logSet (h : s.Keeps fs n v t) : s.Keeps fs n v (t.logSet c rs) :=
  .foldl rs (fun _ _ _ ht => .forwardCopy hlog (.logRecord hlog ht)) h

theorem suppress (hc : c < 16) (h : s.Keeps fs n v t) : s.Keeps fs n v (t.suppress c code k) :=
  .incBy h.setCls (hlog (List.mem_append_right _ (List.mem_map.2 ⟨c, List.mem_range.2 hc, rfl⟩)))

theorem pushSet (hc : c < 16) (h : s.Keeps fs n v t) : s.Keeps fs n v (t.pushSet c code rs) :=
  .ite (h.logSet hlog) (.ite (.logSet hlog h.setCls) (h.suppress hlog hc))

theorem eventAt (hcode : code / 256 < 16) (h : s.Keeps fs n v t) : s.Keeps fs n v (t.eventAt k late code o pay) :=
  .ite (h.pushSet hlog hcode) (.ite (h.suppress hlog hcode) (h.same rfl rfl))

/-- A record of an event changes the log and its registers (R27, R547). -/
theorem event (h : s.Keeps fs n v t) (hcode : code / 256 < 16 := by decide) : s.Keeps fs n v (t.event code nums o) :=
  h.eventAt hlog hcode

theorem giveWay (h : s.Keeps fs n v t) (hcode : code / 256 < 16 := by decide) :
    s.Keeps fs n v (t.giveWay code gave holds kind obj nums) := h.event hlog hcode

theorem configWrite (h : s.Keeps fs n v t) : s.Keeps fs n v (t.configWrite o a new old) := .ite h (h.event hlog)

end
end State.Keeps

/-! ## Words that enter a queue -/

/-- The registers that words entering a queue change (R205 to R217, R234 to R241), and the bits of flow control (R50). -/
def queueFields : List Fld :=
  logFields ++ [wholeReg ED_EVT, wholeReg MEM_INJ, wholeReg QF_CNT_ABSENT, wholeReg QF_EVT] ++ (List.range 16).map SP_STAT.RTS_OFF

/-- The fields fs and the view v leave room for what words entering a queue change: queueFields, and the flow control of a port. -/
structure QueueScope (fs : List Fld) (v : Port → Port) : Prop where
  fields : queueFields ⊆ fs
  view : ∀ p q : Port, p.flowless = q.flowless → v p = v q

theorem QueueScope.log {fs : List Fld} {v : Port → Port} (hq : QueueScope fs v) : logFields ⊆ fs :=
  fun _ hf => hq.fields (by simp [queueFields, hf])

theorem QueueScope.rtsOff {fs : List Fld} {v : Port → Port} (hq : QueueScope fs v) {m : Nat} (hm : m < 16) : SP_STAT.RTS_OFF m ∈ fs :=
  hq.fields (List.mem_append_right _ (List.mem_map.2 ⟨m, List.mem_range.2 hm, rfl⟩))

theorem State.giveBlocks_regs (s : State) (q : Queue) (bs : List Block) : (s.giveBlocks q bs).1.regs = s.regs := by
  unfold State.giveBlocks
  exact List.foldlRecOn (motive := fun x : State × Queue => x.1.regs = s.regs) bs _ rfl fun _ hx _ _ => hx

theorem State.giveBlocks_ports (s : State) (q : Queue) (bs : List Block) : (s.giveBlocks q bs).1.ports = s.ports := by
  unfold State.giveBlocks
  exact List.foldlRecOn (motive := fun x : State × Queue => x.1.ports = s.ports) bs _ rfl fun _ hx _ _ => hx

namespace State.Keeps
section
variable {fs : List Fld} {n : Nat} {v : Port → Port} {s t : State}
  {k m p f : Nat} {q was now : Queue} {x : State × Queue} {bs : List Block} {w : QWord} {ws : List QWord} {o : Origin}

theorem setQueue (h : s.Keeps fs n v t) : s.Keeps fs n v (t.setQueue k q) := h.same rfl rfl

theorem giveBlocks (h : s.Keeps fs n v t) : s.Keeps fs n v (t.giveBlocks q bs).1 :=
  h.same (t.giveBlocks_regs q bs) (t.giveBlocks_ports q bs)

variable (hq : QueueScope fs v)
include hq

theorem updateFlow (hm : m < 16) (h : s.Keeps fs n v t) : s.Keeps fs n v (t.updateFlow m) := by
  unfold State.updateFlow
  exact .putField (.setPort h (by rintro rfl; exact hq.view _ _ rfl)) (hq.rtsOff hm)

theorem updateFlows (h : s.Keeps fs n v t) : s.Keeps fs n v (t.updateFlows k) :=
  .foldl _ (fun _ _ hm ht => .ite (ht.updateFlow hq (List.mem_range.1 hm)) ht) h

theorem takeBlock (hx : t.takeBlock k q = some x) (h : s.Keeps fs n v t) : s.Keeps fs n v x.1 := by
  have hevt : wholeReg ED_EVT ∈ fs := hq.fields (by simp [queueFields])
  unfold State.takeBlock at hx
  dsimp only at hx
  split at hx
  case h_1 => contradiction
  case h_2 =>
    cases hx
    exact .ite (.on (.same h rfl rfl) hevt) (.same h rfl rfl)

theorem inject (h : s.Keeps fs n v t) : s.Keeps fs n v (t.inject q m p).1 := by
  have hinj : wholeReg MEM_INJ ∈ fs := hq.fields (by simp [queueFields])
  unfold State.inject
  split
  · exact h.off hinj
  · exact h

theorem moveBurst (hx : t.moveBurst k q = some x) (h : s.Keeps fs n v t) : s.Keeps fs n v x.1 := by
  unfold State.moveBurst at hx
  dsimp only at hx
  split_ifs at hx
  · split at hx
    · split_ifs at hx
      cases hx
      exact h.inject hq
    · contradiction
  · split at hx
    case h_1 htaken =>
      split at hx
      · split_ifs at hx
        cases hx
        exact .inject hq (h.takeBlock hq htaken)
      · contradiction
    case h_2 => contradiction

theorem roomFor (hx : t.roomFor k q = some x) (h : s.Keeps fs n v t) : s.Keeps fs n v x.1 := by
  unfold State.roomFor at hx
  dsimp only at hx
  generalize (if t.runs .ddr = true then 0 else q.settle.landing) = away at hx
  split_ifs at hx
  · cases hx
    exact h
  · exact h.moveBurst hq hx

theorem refreshFull (h : s.Keeps fs n v t) : s.Keeps fs n v t.refreshFull :=
  .foldl _ (fun _ _ _ ht => .ite ht (.updateFlows hq ht.setQueue)) h

theorem queueFault (h : s.Keeps fs n v t) : s.Keeps fs n v (t.queueFault k) := by
  have hevt : wholeReg QF_EVT ∈ fs := hq.fields (by simp [queueFields])
  unfold State.queueFault
  exact .giveWay hq.log (.on (.updateFlows hq (.setQueue (.same h rfl rfl))) hevt)

theorem used (h : s.Keeps fs n v t) : s.Keeps fs n v (t.used k) := .ite (h.queueFault hq) h

theorem putQueue (h : s.Keeps fs n v t) : s.Keeps fs n v (t.putQueue k q bs) := by
  unfold State.putQueue
  exact .refreshFull hq (.used hq (.updateFlows hq (.setQueue h.giveBlocks)))

theorem storeAll (hx : t.storeAll k q ws = some x) (h : s.Keeps fs n v t) : s.Keeps fs n v x.1 := by
  induction ws generalizing t q with
  | nil =>
    cases hx
    exact h
  | cons w ws ih =>
    unfold State.storeAll at hx
    split_ifs at hx
    split at hx
    case h_1 => contradiction
    case h_2 hroom => exact ih hx (.inject hq (h.roomFor hq hroom))

theorem refuse (h : s.Keeps fs n v t) : s.Keeps fs n v (t.refuse k q m) := by
  have hevt : wholeReg QF_EVT ∈ fs := hq.fields (by simp [queueFields])
  exact .ite (h.putQueue hq) (.event hq.log (.on (h.putQueue hq) hevt))

theorem reportLoss (h : s.Keeps fs n v t) : s.Keeps fs n v (t.reportLoss k was now) := by
  have hevt : wholeReg QF_EVT ∈ fs := hq.fields (by simp [queueFields])
  exact .ite (.event hq.log (.on h hevt)) h

theorem overwrite (hx : t.overwrite k q ws f = some x) (h : s.Keeps fs n v t) : s.Keeps fs n v x.1 := by
  induction f generalizing t q with
  | zero => exact h.storeAll hq hx
  | succ f ih =>
    unfold State.overwrite at hx
    split at hx
    case h_1 hstored =>
      cases hx
      exact h.storeAll hq hstored
    case h_2 =>
      split_ifs at hx
      exact ih hx h.giveBlocks

theorem overwritePacket (hx : t.overwritePacket k q ws f = some x) (h : s.Keeps fs n v t) : s.Keeps fs n v x.1 := by
  induction f generalizing t q ws with
  | zero => exact h.storeAll hq hx
  | succ f ih =>
    unfold State.overwritePacket at hx
    split_ifs at hx
    · cases hx
      exact h
    · exact ih hx h
    · split at hx
      case h_1 hstored =>
        cases hx
        exact h.storeAll hq hstored
      case h_2 =>
        split at hx
        · exact ih hx h.giveBlocks
        · exact ih hx h.giveBlocks

theorem pushWhole (h : s.Keeps fs n v t) : s.Keeps fs n v (t.pushWhole k ws).2 := by
  unfold State.pushWhole
  dsimp only
  split
  · split
    case h_1 s' q' hstored =>
      have hstate : s.Keeps fs n v s' := h.storeAll hq hstored
      dsimp only
      exact hstate.putQueue hq
    case h_2 => exact h.refuse hq
  · split
    case h_1 s' q' hstored =>
      have hstate : s.Keeps fs n v s' := h.overwrite hq hstored
      dsimp only
      exact .reportLoss hq (hstate.putQueue hq)
    case h_2 => exact h.refuse hq
  · split
    case h_1 s' q' hstored =>
      have hstate : s.Keeps fs n v s' := h.overwritePacket hq hstored
      dsimp only
      exact .reportLoss hq (hstate.putQueue hq)
    case h_2 => exact h.refuse hq

/-- A push changes queues and their registers, flow control and the log (R203, R217). -/
theorem push (h : s.Keeps fs n v t) : s.Keeps fs n v (t.push k ws o).2 := by
  have habsent : wholeReg QF_CNT_ABSENT ∈ fs := hq.fields (by simp [queueFields])
  have hevt : wholeReg QF_EVT ∈ fs := hq.fields (by simp [queueFields])
  unfold State.push
  dsimp only
  split_ifs
  · exact h
  · exact .event hq.log (.on (h.inc habsent) hevt)
  · exact h
  · exact List.foldlRecOn (motive := fun x : PushRes × State => s.Keeps fs n v x.2) ws _ (h.used hq)
      fun _ hx _ _ => hx.pushWhole hq
  · exact .pushWhole hq (h.used hq)

end
end State.Keeps
end Sys2Proof.Machine
end

section
/-!
SUPPORT. What an item of a port on its way to the receive queue changes (R69, R85, R101, R102).
-/
namespace Sys2Proof.Machine

/-! ## Items on their way to the receive queue -/

/-- A port without its holding buffer and its flow control. -/
def Port.itemless (p : Port) : Port := { p with hold := [], fcStop := false, stop := false, xpend := [] }

/-- The registers and bits that an item of port n on its way to the queue changes, beside those of the queue (R69, R85, R101, R102). -/
def itemFields (n : Nat) : List Fld :=
  queueFields ++ [SP_STAT.HOLD_FULL n] ++
    [SP_CNT_RXCHAR n, SP_CNT_RXDROP n, SP_CNT_STAMPDROP n, SP_CNT_UNBOUND n, SP_EVT n, SP_RXSTAMP_NS n, SP_RXSTAMP_SL n,
      SP_RXSTAMP_SH n, SP_RX_SEQ n, SP_TEVT n].map wholeReg

/-- The fields fs and the view v leave room for what an item of port n changes: itemFields, and the holding buffer. -/
structure ItemScope (fs : List Fld) (n : Nat) (v : Port → Port) : Prop where
  port_lt : n < 16
  fields : itemFields n ⊆ fs
  view : ∀ p q : Port, p.itemless = q.itemless → v p = v q

theorem ItemScope.queue {fs : List Fld} {n : Nat} {v : Port → Port} (hi : ItemScope fs n v) : QueueScope fs v where
  fields _ hf := hi.fields (by simp [itemFields, hf])
  view p q hpq := hi.view p q (congrArg (fun x : Port => { x with hold := [] }) hpq)

namespace State.Keeps
section
variable {fs : List Fld} {n : Nat} {v : Port → Port} {s t : State}
  {p : Port} {k a b c d m stamp kind seq : Nat} {ws : List QWord} {i : PortItem}

theorem setStamp (ha : wholeReg a ∈ fs) (hb : wholeReg b ∈ fs) (hc : wholeReg c ∈ fs) (h : s.Keeps fs n v t) :
    s.Keeps fs n v (t.setStamp a b c stamp) := .wr (.setReg (h.setReg ha) hb) hc

variable (hi : ItemScope fs n v)
include hi

theorem putHold (hp : v p = v (t.port n)) (h : s.Keeps fs n v t) : s.Keeps fs n v (t.putHold n p) :=
  .updateFlow hi.queue hi.port_lt (.putField (h.setPort fun _ => hp) (hi.fields (by simp [itemFields])))

theorem pushTogether (h : s.Keeps fs n v t) : s.Keeps fs n v (t.pushTogether k ws).2 := by
  unfold State.pushTogether
  split
  · exact h.pushWhole hi.queue
  · exact h.push hi.queue

theorem pushRecord (h : s.Keeps fs n v t) : s.Keeps fs n v (t.pushRecord n a stamp kind seq) := by
  have hdrop : wholeReg (SP_CNT_STAMPDROP n) ∈ fs := hi.fields (by simp [itemFields])
  have hevt : wholeReg (SP_TEVT n) ∈ fs := hi.fields (by simp [itemFields])
  unfold State.pushRecord
  split
  case h_1 => exact h
  case h_2 q _ =>
    have hpush : s.Keeps fs n v (t.pushTogether q (stampRecord stamp kind seq)).2 := h.pushTogether hi
    split
    case h_1 s' hres =>
      rw [hres] at hpush
      exact .on (.inc hpush hdrop) hevt
    case h_2 s' hres =>
      rw [hres] at hpush
      exact hpush

theorem rxStamp (h : s.Keeps fs n v t) : s.Keeps fs n v (t.rxStamp n i seq) := by
  have hns : wholeReg (SP_RXSTAMP_NS n) ∈ fs := hi.fields (by simp [itemFields])
  have hsl : wholeReg (SP_RXSTAMP_SL n) ∈ fs := hi.fields (by simp [itemFields])
  have hsh : wholeReg (SP_RXSTAMP_SH n) ∈ fs := hi.fields (by simp [itemFields])
  exact .ite (.pushRecord hi (.wr (h.setStamp hns hsl hsh) hsh)) h

theorem itemPushed (h : s.Keeps fs n v t) : s.Keeps fs n v (t.itemPushed n i c) := by
  have hcount : wholeReg (SP_CNT_RXCHAR n) ∈ fs := hi.fields (by simp [itemFields])
  have hseq : wholeReg (SP_RX_SEQ n) ∈ fs := hi.fields (by simp [itemFields])
  exact .rxStamp hi (.setReg (h.inc hcount) hseq)

theorem pushEach (h : s.Keeps fs n v t) : s.Keeps fs n v (t.pushEach k ws).2 := by
  induction ws generalizing t with
  | nil => exact h
  | cons w ws ih => exact ih (h.push hi.queue)

theorem offerItem (h : s.Keeps fs n v t) : s.Keeps fs n v (t.offerItem n i) := by
  have hcount : wholeReg (SP_CNT_UNBOUND n) ∈ fs := hi.fields (by simp [itemFields])
  have hevt : wholeReg (SP_TEVT n) ∈ fs := hi.fields (by simp [itemFields])
  have hseq : wholeReg (SP_RX_SEQ n) ∈ fs := hi.fields (by simp [itemFields])
  unfold State.offerItem
  split
  case h_1 => exact .on (h.inc hcount) hevt
  case h_2 q _ =>
    have hlone : s.Keeps fs n v (t.pushEach q i.words).2 := h.pushEach hi
    refine .ite (.ite (.itemPushed hi hlone) (.setReg hlone hseq)) ?whole
    case whole =>
      have hpush : s.Keeps fs n v (t.push q i.words).2 := h.push hi.queue
      split
      case h_1 s' hres =>
        rw [hres] at hpush
        exact hpush.itemPushed hi
      case h_2 s' hres =>
        rw [hres] at hpush
        exact hpush

/-- An item leaves the port for its queue or waits in the holding buffer (R69, R86). -/
theorem sendItem (h : s.Keeps fs n v t) : s.Keeps fs n v (t.sendItem n i) := by
  have hdrop : wholeReg (SP_CNT_RXDROP n) ∈ fs := hi.fields (by simp [itemFields])
  have hevt : wholeReg (SP_EVT n) ∈ fs := hi.fields (by simp [itemFields])
  exact .ite (h.offerItem hi) (.ite (.on (h.inc hdrop) hevt) (h.putHold hi (hi.view _ _ rfl)))

end
end State.Keeps
end Sys2Proof.Machine
end

section
/-!
SUPPORT. What an accepted character changes: its item, the frame, echoes, collisions, flow control characters (R36 to R38, R52 to R55,
R90 to R100).
-/
namespace Sys2Proof.Machine

/-! ## Accepted characters -/

/-- A port without what an accepted character changes in it. -/
def Port.charless (p : Port) : Port :=
  { p.itemless with
    lineEnd := 0, gapAt := none, gapDue := false, lastItem := none, sinceEnd := 0, newPacket := false, held := none, strangers := []
    echoes := [], collMark := false, heldAt := none, prefetch := [], openq := none, cutq := [], after := none, discardq := none
    launches := [], mid := none }

theorem Port.charless_packetOver (p : Port) (q : Nat) : (p.packetOver q).charless = p.charless := rfl

theorem Port.charless_endTaken (p : Port) (k : Nat) : (p.endTaken k).charless = p.charless := by
  unfold Port.endTaken
  split_ifs <;> rfl

/-- The port without what the prefetch and the launch register hold of queue q's packet. -/
def Port.dropped (p : Port) (q : Nat) : Port :=
  { (p.setLaunch q none).packetOver q with prefetch := (dropPacket q p.prefetch).1 }

/-- The port as a collision leaves it that discards the rest of queue q's packet (R55). -/
def Port.aborted (p : Port) (q : Nat) : Port :=
  if (dropPacket q p.prefetch).2.2 then (p.dropped q).endTaken q else { p.dropped q with discardq := some q, openq := some q }

theorem Port.charless_withPrefetch (p : Port) (l : List PreItem) : ({ p with prefetch := l } : Port).charless = p.charless := rfl

theorem Port.charless_setLaunch (p : Port) (k : Nat) (x : Option Launch) : (p.setLaunch k x).charless = p.charless := rfl

theorem Port.charless_dropped (p : Port) (q : Nat) : (p.dropped q).charless = p.charless := by
  rw [Port.dropped, Port.charless_withPrefetch, Port.charless_packetOver, Port.charless_setLaunch]

theorem Port.charless_aborted (p : Port) (q : Nat) : (p.aborted q).charless = p.charless := by
  unfold Port.aborted
  split_ifs
  · exact ((p.dropped q).charless_endTaken q).trans (p.charless_dropped q)
  · exact p.charless_dropped q

theorem State.abortPacket_eq (s : State) (n q : Nat) :
    ∃ count, s.abortPacket n q = (s.setPort n ((s.port n).aborted q)).incBy (SP_CNT_COLLDISC n) count := ⟨_, rfl⟩

/-- The registers and bits that an accepted character of port n changes, beside those of an item (R52, R55, R82, R84, R90 to R97). -/
def charFields (n : Nat) : List Fld :=
  itemFields n ++ [SP_STAT.XOFF_HOLD n, SP_STAT.COLL_HELD n] ++
    [SP_ASTAT n, SP_CNT_NOISE n, SP_CNT_PERR n, SP_CNT_FERR n, SP_CNT_ADDRERR n, SP_CNT_FOREIGN n, SP_STR_LAST n, SP_CNT_UNADDR n,
      SP_CNT_COLL n, SP_CNT_COLLDISC n].map wholeReg

/-- The fields fs and the view v leave room for what an accepted character of port n changes. -/
structure CharScope (fs : List Fld) (n : Nat) (v : Port → Port) : Prop where
  port_lt : n < 16
  fields : charFields n ⊆ fs
  view : ∀ p q : Port, p.charless = q.charless → v p = v q

theorem Port.charless_of_itemless {p q : Port} (h : p.itemless = q.itemless) : p.charless = q.charless := by
  unfold Port.charless
  rw [h]

theorem CharScope.item {fs : List Fld} {n : Nat} {v : Port → Port} (hc : CharScope fs n v) : ItemScope fs n v where
  port_lt := hc.port_lt
  fields _ hf := hc.fields (by simp [charFields, hf])
  view p q hpq := hc.view p q (Port.charless_of_itemless hpq)

namespace State.Keeps
section
variable {fs : List Fld} {n : Nat} {v : Port → Port} {s t : State}
  {a c fin : Bool} {k x y : Nat} {w : Tw} {it : RxItem} {i : PortItem} {e : Echo} {z : Nat × Nat}

theorem setTw (h : s.Keeps fs n v t) : s.Keeps fs n v (t.setTw k w) := h.same rfl rfl

theorem endFrame (hstat : wholeReg (SP_ASTAT n) ∈ fs) (h : s.Keeps fs n v t) : s.Keeps fs n v (t.endFrame n) :=
  .off (.off (h.off hstat) hstat) hstat

theorem noteHold (hview : ∀ p d, v { p with heldAt := d } = v p) (h : s.Keeps fs n v t) : s.Keeps fs n v (t.noteHold n) := by
  unfold State.noteHold
  exact .ite (.ite (h.setPort fun _ => hview _ _) h) (.ite (h.setPort fun _ => hview _ _) h)

theorem releaseHeld (hi : ItemScope fs n v) (hview : ∀ p x y, v { p with held := none, sinceEnd := x, newPacket := y } = v p)
    (h : s.Keeps fs n v t) : s.Keeps fs n v (t.releaseHeld n fin) := by
  unfold State.releaseHeld
  dsimp only
  split
  · exact h
  · exact .sendItem hi (h.putHold hi (hview _ _ _))

theorem countIf {f : Fld} (hcount : wholeReg k ∈ fs) (hevt : wholeReg f.reg ∈ fs) (h : s.Keeps fs n v t) :
    s.Keeps fs n v (if a = true then (t.inc k).on f else t) := .ite (.on (h.inc hcount) hevt) h

variable (hc : CharScope fs n v)
include hc

theorem charHeld (h : s.Keeps fs n v t) : s.Keeps fs n v (t.releaseHeld n fin) :=
  h.releaseHeld hc.item fun _ _ _ => hc.view _ _ rfl

theorem lineChar (h : s.Keeps fs n v t) : s.Keeps fs n v (t.lineChar n it) := h.setPort fun _ => hc.view _ _ rfl

theorem countFlags (h : s.Keeps fs n v t) : s.Keeps fs n v (t.countFlags n it) := by
  have hevt : wholeReg (SP_EVT n) ∈ fs := hc.fields (by simp [charFields, itemFields])
  have hnoise : wholeReg (SP_CNT_NOISE n) ∈ fs := hc.fields (by simp [charFields])
  have hperr : wholeReg (SP_CNT_PERR n) ∈ fs := hc.fields (by simp [charFields])
  have hferr : wholeReg (SP_CNT_FERR n) ∈ fs := hc.fields (by simp [charFields])
  exact .countIf hferr hevt (.countIf hperr hevt (.countIf hnoise hevt h))

theorem buildItem (h : s.Keeps fs n v t) : s.Keeps fs n v (t.buildItem n it a) := by
  have hheld : s.Keeps fs n v (t.releaseHeld n a) := h.charHeld hc
  unfold State.buildItem
  generalize t.releaseHeld n a = u at hheld ⊢
  have hflags : s.Keeps fs n v (u.countFlags n it) := hheld.countFlags hc
  have hview : ∀ p : Port, p.charless = (u.port n).charless → v p = v ((u.countFlags n it).port n) := fun p hp =>
    (hc.view p _ hp).trans (hheld.port_eq.trans hflags.port_eq.symm)
  dsimp only
  generalize u.countFlags n it = w at hflags hview ⊢
  exact .ite (hflags.putHold hc.item (hview _ rfl)) (.sendItem hc.item (hflags.setPort fun _ => hview _ rfl))

theorem deliverItem (h : s.Keeps fs n v t) : s.Keeps fs n v (t.deliverItem n it a) := by
  have hevt : wholeReg (SP_EVT n) ∈ fs := hc.fields (by simp [charFields, itemFields])
  have hdrop : wholeReg (SP_CNT_RXDROP n) ∈ fs := hc.fields (by simp [charFields, itemFields])
  have hcounted : s.Keeps fs n v ((t.inc (SP_CNT_RXDROP n)).on (SP_EVT.RX_DROP n)) := .on (h.inc hdrop) hevt
  exact .ite (.ite (hcounted.charHeld hc) hcounted) (h.buildItem hc)

theorem setStranger (h : s.Keeps fs n v t) : s.Keeps fs n v (t.setStranger n k z) := h.setPort fun _ => hc.view _ _ rfl

theorem openFrame (h : s.Keeps fs n v t) : s.Keeps fs n v (t.openFrame n k a) := by
  have hstat : wholeReg (SP_ASTAT n) ∈ fs := hc.fields (by simp [charFields])
  have hbad : wholeReg (SP_CNT_ADDRERR n) ∈ fs := hc.fields (by simp [charFields])
  have hforeign : wholeReg (SP_CNT_FOREIGN n) ∈ fs := hc.fields (by simp [charFields])
  have hlast : wholeReg (SP_STR_LAST n) ∈ fs := hc.fields (by simp [charFields])
  have hevt : wholeReg (SP_TEVT n) ∈ fs := hc.fields (by simp [charFields, itemFields])
  have hopen : s.Keeps fs n v ((((t.on (SP_ASTAT.IN_FRAME n)).off (SP_ASTAT.FOR_US n)).off (SP_ASTAT.ERR_FRAME n)).wr
      (SP_ASTAT.CUR_ADDR n) k) := .wr (.off (.off (h.on hstat) hstat) hstat) hstat
  unfold State.openFrame
  generalize (((t.on (SP_ASTAT.IN_FRAME n)).off (SP_ASTAT.FOR_US n)).off (SP_ASTAT.ERR_FRAME n)).wr (SP_ASTAT.CUR_ADDR n) k = u
    at hopen ⊢
  refine .ite (.on (.inc (hopen.on hstat) hbad) hevt) ?_
  split
  · exact .wr (hopen.on hstat) hstat
  · exact .setStranger hc (.setReg (hopen.inc hforeign) hlast)

theorem classify (h : s.Keeps fs n v t) : s.Keeps fs n v (t.classify n it) := by
  have hstat : wholeReg (SP_ASTAT n) ∈ fs := hc.fields (by simp [charFields])
  have hunaddr : wholeReg (SP_CNT_UNADDR n) ∈ fs := hc.fields (by simp [charFields])
  have hevt : wholeReg (SP_TEVT n) ∈ fs := hc.fields (by simp [charFields, itemFields])
  unfold State.classify
  refine .ite (.lineChar hc (.deliverItem hc (h.endFrame hstat))) ?_
  dsimp only
  refine .ite ?address ?data
  case address =>
    have hopen : s.Keeps fs n v (t.openFrame n (it.chr % 256) (it.perr || it.ferr)) := h.openFrame hc
    exact .lineChar hc (.ite (hopen.deliverItem hc) (hopen.charHeld hc))
  case data =>
    have hcount : s.Keeps fs n v
        (if (t.bit (SP_ASTAT.IN_FRAME n) && !t.bit (SP_ASTAT.FOR_US n) && !t.bit (SP_ASTAT.ERR_FRAME n)) = true then
          t.setStranger n (t.rd (SP_ASTAT.CUR_ADDR n)) (((t.port n).stranger (t.rd (SP_ASTAT.CUR_ADDR n))).1,
            sat32 (((t.port n).stranger (t.rd (SP_ASTAT.CUR_ADDR n))).2 + 1))
        else t) := .ite (h.setStranger hc) h
    revert hcount
    generalize (if (t.bit (SP_ASTAT.IN_FRAME n) && !t.bit (SP_ASTAT.FOR_US n) && !t.bit (SP_ASTAT.ERR_FRAME n)) = true then _ else t)
      = u
    intro hcount
    exact .ite (.lineChar hc (.ite hcount (.on (hcount.inc hunaddr) hevt))) (.lineChar hc (hcount.deliverItem hc))

theorem abortPacket (h : s.Keeps fs n v t) : s.Keeps fs n v (t.abortPacket n k) := by
  have hdisc : wholeReg (SP_CNT_COLLDISC n) ∈ fs := hc.fields (by simp [charFields])
  obtain ⟨count, heq⟩ := State.abortPacket_eq t n k
  rw [heq]
  exact .incBy (h.setPort fun _ => hc.view _ _ (Port.charless_aborted _ k)) hdisc

theorem twCollide (h : s.Keeps fs n v t) : s.Keeps fs n v (t.twCollide n e) := by
  have hcoll : wholeReg (SP_CNT_COLL n) ∈ fs := hc.fields (by simp [charFields])
  have hdisc : wholeReg (SP_CNT_COLLDISC n) ∈ fs := hc.fields (by simp [charFields])
  have hevt : wholeReg (SP_EVT n) ∈ fs := hc.fields (by simp [charFields, itemFields])
  have htold : s.Keeps fs n v (((t.inc (SP_CNT_COLL n)).on (SP_EVT.COLLISION n)).event Ev.COLLISION [n, e.chr]) :=
    .event hc.item.queue.log (.on (h.inc hcoll) hevt)
  unfold State.twCollide
  dsimp only
  split
  case h_1 => exact h
  case h_2 b _ =>
    exact .ite h (.ite (.setTw (.ite htold (htold.incBy hdisc))) (.setTw (.ite htold (htold.incBy hdisc))))

theorem collide (h : s.Keeps fs n v t) : s.Keeps fs n v (t.collide n e) := by
  have hcoll : wholeReg (SP_CNT_COLL n) ∈ fs := hc.fields (by simp [charFields])
  have hevt : wholeReg (SP_EVT n) ∈ fs := hc.fields (by simp [charFields, itemFields])
  have hheld : SP_STAT.COLL_HELD n ∈ fs := hc.fields (by simp [charFields])
  have htold : s.Keeps fs n v (((t.inc (SP_CNT_COLL n)).on (SP_EVT.COLLISION n)).event Ev.COLLISION [n, e.chr]) :=
    .event hc.item.queue.log (.on (h.inc hcoll) hevt)
  unfold State.collide
  refine .ite (h.twCollide hc) ?_
  generalize ((t.inc (SP_CNT_COLL n)).on (SP_EVT.COLLISION n)).event Ev.COLLISION [n, e.chr] = u at htold ⊢
  refine .ite (.noteHold (fun _ _ => hc.view _ _ rfl) (htold.wrField hheld)) ?_
  refine .setPort ?_ fun _ => hc.view _ _ rfl
  split
  · exact .ite htold (htold.abortPacket hc)
  · exact htold

theorem takeChar (h : s.Keeps fs n v t) : s.Keeps fs n v (t.takeChar n it) := by
  have hhold : SP_STAT.XOFF_HOLD n ∈ fs := hc.fields (by simp [charFields])
  unfold State.takeChar
  split
  case h_1 hold _ =>
    have hnoted : s.Keeps fs n v ((t.put (SP_STAT.XOFF_HOLD n) hold).noteHold n) :=
      .noteHold (fun _ _ => hc.view _ _ rfl) (h.putField hhold)
    exact .ite (hnoted.lineChar hc) (hnoted.classify hc)
  case h_2 => exact h.classify hc

theorem notedItem (h : s.Keeps fs n v t) : s.Keeps fs n v (t.notedItem n it a) := h.setPort fun _ => hc.view _ _ rfl

theorem sendOrDrop (h : s.Keeps fs n v t) : s.Keeps fs n v (t.sendOrDrop n i) := by
  have hevt : wholeReg (SP_EVT n) ∈ fs := hc.fields (by simp [charFields, itemFields])
  have hdrop : wholeReg (SP_CNT_RXDROP n) ∈ fs := hc.fields (by simp [charFields, itemFields])
  exact .ite (.on (h.inc hdrop) hevt) (h.sendItem hc.item)

theorem monEnd (h : s.Keeps fs n v t) : s.Keeps fs n v (t.monEnd n) := .charHeld hc h.setTw

theorem monChar (h : s.Keeps fs n v t) : s.Keeps fs n v (t.monChar n it) := by
  unfold State.monChar
  dsimp only
  have hended : s.Keeps fs n v (t.monEnd n) := h.monEnd hc
  have hgone : s.Keeps fs n v (t.releaseHeld n false) := h.charHeld hc
  refine .ite (.sendOrDrop hc (.setTw ?counted)) (.putHold hc.item (hc.view _ _ rfl) (.setTw ?counted))
  exact .countFlags hc (.notedItem hc (.ite hended hgone))

theorem twChar (h : s.Keeps fs n v t) : s.Keeps fs n v (t.twChar n it) := by
  have hmon : s.Keeps fs n v (if t.bit (TW_CTRL.MONITOR n) then t.monChar n it else t) := .ite (h.monChar hc) h
  unfold State.twChar
  generalize (if t.bit (TW_CTRL.MONITOR n) then t.monChar n it else t) = u at hmon ⊢
  exact .ite hmon (.ite hmon.setTw hmon.setTw)

theorem takeOrFrame (h : s.Keeps fs n v t) : s.Keeps fs n v (t.takeOrFrame n it) := .ite (h.twChar hc) (h.takeChar hc)

/-- An accepted character changes its port, queues, and the registers of both (R38, R54). -/
theorem acceptChar (h : s.Keeps fs n v t) : s.Keeps fs n v (t.acceptChar n it) := by
  unfold State.acceptChar
  split
  case h_1 e _ =>
    have hmatched : s.Keeps fs n v (t.setPort n { t.port n with
        echoes := (t.port n).echoes.map (fun x => if x = e then { x with matched := true } else x) }) :=
      h.setPort fun _ => hc.view _ _ rfl
    exact .ite (hmatched.lineChar hc) (.takeOrFrame hc (hmatched.collide hc))
  case h_2 => exact h.takeOrFrame hc

end
end State.Keeps
end Sys2Proof.Machine
end

section
/-!
SUPPORT. What a field reads after a write, and what edges, levels and breaks of the line change (R48, R57, R58, R73).
-/
namespace Sys2Proof.Machine

/-! ## What is read after a write -/

section
variable {s : State} (hregs : tabWf regReset s.regs = true)
include hregs

theorem rd_wr {f : Fld} (hf : f.lo + f.w ≤ 32) (x : Nat) : (s.wr f x).rd f = x % 2 ^ f.w := by
  rw [State.rd, State.wr, reg_setReg hregs, if_pos rfl, fldOf_fldPut_same hf]

theorem bit_put {f : Fld} (hf : f.lo + f.w ≤ 32) (hw : f.w = 1) (b : Bool) : (s.put f b).bit f = b := by
  rw [State.bit, State.put, rd_wr hregs hf, hw]
  cases b <;> rfl

theorem bit_on {f : Fld} (hf : f.lo + f.w ≤ 32) (hw : f.w = 1) : (s.on f).bit f = true := bit_put hregs hf hw true

theorem bit_off {f : Fld} (hf : f.lo + f.w ≤ 32) (hw : f.w = 1) : (s.off f).bit f = false := bit_put hregs hf hw false

omit hregs in
theorem reg_wr_ne {f : Fld} {a : Nat} (ha : a ≠ f.reg) (x : Nat) : (s.wr f x).reg a = s.reg a := reg_setReg_ne ha _ s

omit hregs in
theorem bit_inc_ne {f : Fld} {a : Nat} (ha : f.reg ≠ a) : (s.inc a).bit f = s.bit f := by
  rw [State.bit, State.rd, State.inc, State.incBy, reg_setReg_ne ha, State.bit, State.rd]

theorem reg_inc (a : Nat) : (s.inc a).reg a = countUp (s.reg a) := by
  rw [State.inc, State.incBy, reg_setReg hregs, if_pos rfl, countUp]

end

/-! ## Time -/

theorem State.elapse_regs (s : State) (n : Nat) : (s.elapse n).regs = s.regs := by
  unfold State.elapse
  dsimp only
  split_ifs <;> rfl

theorem State.elapse_ports (s : State) (n : Nat) : (s.elapse n).ports = s.ports := by
  unfold State.elapse
  dsimp only
  split_ifs <;> rfl

/-! ## Levels and edges of the line -/

/-- The view that sees nothing of a port. -/
def Port.unseen (_ : Port) : Port := Port.reset 0

/-- A port without what a level of its line changes in it. -/
def Port.lineless (p : Port) : Port :=
  { p.itemless with
    brk := none, gapDue := false, lastItem := none, lineEnd := 0, newPacket := false, markSince := none, loopFrom := 0
    waitMark := false, watch := none }

/-- The registers and bits that a level of the line of port n changes, beside those of an item (R57, R58, R188). -/
def lineFields (n : Nat) : List Fld :=
  itemFields n ++ [SP_STAT.IN_BREAK n, SP_STAT.LINE_STUCK n, wholeReg (SF_STAT n), wholeReg (SF_EVT n)]

/-- The fields fs and the view v leave room for what a level of the line of port n changes. -/
structure LineScope (fs : List Fld) (n : Nat) (v : Port → Port) : Prop where
  port_lt : n < 16
  fields : lineFields n ⊆ fs
  view : ∀ p q : Port, p.lineless = q.lineless → v p = v q

theorem Port.lineless_of_itemless {p q : Port} (h : p.itemless = q.itemless) : p.lineless = q.lineless := by
  unfold Port.lineless
  rw [h]

theorem LineScope.item {fs : List Fld} {n : Nat} {v : Port → Port} (hl : LineScope fs n v) : ItemScope fs n v where
  port_lt := hl.port_lt
  fields _ hf := hl.fields (by simp [lineFields, hf])
  view p q hpq := hl.view p q (Port.lineless_of_itemless hpq)

theorem ItemScope.unseen {fs : List Fld} {n : Nat} (hn : n < 16) (hfs : itemFields n ⊆ fs) : ItemScope fs n Port.unseen :=
  ⟨hn, hfs, fun _ _ _ => rfl⟩

namespace State.Keeps
section
variable {fs : List Fld} {n : Nat} {v : Port → Port} {s t : State} {k d d0 d1 : Nat} {fall mark : Bool} {x : State × Nat × Nat}

theorem runTo (h : s.Keeps fs n v t) : s.Keeps fs n v (t.runTo k) := .ite (h.same (t.elapse_regs _) (t.elapse_ports _)) h

theorem rxdEdge (hview : ∀ p d, v { p with loopFrom := d } = v p) (hx : t.rxdEdge n fall = some x) (h : s.Keeps fs n v t) :
    s.Keeps fs n v x.1 := by
  unfold State.rxdEdge at hx
  split_ifs at hx
  · obtain ⟨edge, _, hedge⟩ := Option.map_eq_some_iff.1 hx
    cases hedge
    exact .setPort h.runTo fun _ => hview _ _
  · cases hx
    exact h

theorem busAlive (hlog : logFields ⊆ fs) (hstat : wholeReg (SF_STAT n) ∈ fs) (hevt : wholeReg (SF_EVT n) ∈ fs)
    (h : s.Keeps fs n v t) : s.Keeps fs n v (t.busAlive n) := .ite (.event hlog (.on (h.off hstat) hevt)) h

theorem twBreak (hi : ItemScope fs n v) (hview : ∀ p x y, v { p with held := none, sinceEnd := x, newPacket := y } = v p)
    (h : s.Keeps fs n v t) : s.Keeps fs n v (t.twBreak n) := by
  have hmon : s.Keeps fs n v (if t.bit (TW_CTRL.MONITOR n) then t.monEnd n else t) := .ite (.releaseHeld hi hview h.setTw) h
  unfold State.twBreak
  generalize (if t.bit (TW_CTRL.MONITOR n) then t.monEnd n else t) = u at hmon ⊢
  exact .ite (.ite hmon hmon.setTw) h

variable (hl : LineScope fs n v)
include hl

theorem breakFinish (h : s.Keeps fs n v t) : s.Keeps fs n v (t.breakFinish n d d0 d1) := by
  have hbreak : SP_STAT.IN_BREAK n ∈ fs := hl.fields (by simp [lineFields])
  have hstuck : SP_STAT.LINE_STUCK n ∈ fs := hl.fields (by simp [lineFields])
  exact .sendItem hl.item (.setPort (.wrField (h.wrField hbreak) hstuck) fun _ => hl.view _ _ rfl)

theorem takeLevel (h : s.Keeps fs n v t) : s.Keeps fs n v (t.takeLevel n mark) := by
  have hstat : wholeReg (SF_STAT n) ∈ fs := hl.fields (by simp [lineFields])
  have hevt : wholeReg (SF_EVT n) ∈ fs := hl.fields (by simp [lineFields])
  unfold State.takeLevel
  dsimp only
  split
  · exact .ite (.busAlive hl.item.queue.log hstat hevt (.breakFinish hl (h.setPort fun _ => hl.view _ _ rfl)))
      (h.setPort fun _ => hl.view _ _ rfl)
  · exact h.setPort fun _ => hl.view _ _ rfl

end
end State.Keeps

/-- The fields that a break which begins changes beside IN_BREAK and its counter. -/
def breakFields (n : Nat) : List Fld := itemFields n ++ [wholeReg (SP_ASTAT n)]

theorem breakFields_apart : ∀ p : Fin 16, (breakFields p).all (fun f => f.apart (SP_STAT.IN_BREAK p)) = true ∧
    (breakFields p).all (fun f => f.apart (wholeReg (SP_CNT_BREAK p))) = true := by decide +kernel

/-- The state in which a break that begins is shown and counted, before its frame and its packet close. -/
def State.breakShown (s : State) (n : Nat) : State := ((s.twBreak n).on (SP_STAT.IN_BREAK n)).inc (SP_CNT_BREAK n)

/-- The fields that a break which ends changes beside IN_BREAK. -/
def breakEndFields (n : Nat) : List Fld := itemFields n ++ [SP_STAT.LINE_STUCK n, wholeReg (SF_STAT n), wholeReg (SF_EVT n)]

theorem breakEndFields_apart : ∀ p : Fin 16, (breakEndFields p).all (fun f => f.apart (SP_STAT.IN_BREAK p)) = true := by
  decide +kernel

section
variable {s : State} {n : Nat} (hn : n < 16) (hregs : tabWf regReset s.regs = true) (hports : tabWf Port.reset s.ports = true)
include hn hregs hports

theorem itemless_sendItem (i : PortItem) : ((s.sendItem n i).port n).itemless = (s.port n).itemless :=
  (State.Keeps.sendItem (fs := itemFields n) (v := Port.itemless) ⟨hn, fun _ h => h, fun _ _ h => h⟩ (.start hregs hports)).port_eq

theorem itemless_sendItem_setPort (p : Port) (i : PortItem) : (((s.setPort n p).sendItem n i).port n).itemless = p.itemless :=
  (itemless_sendItem (s := s.setPort n p) hn hregs (tabPut_wf _ _ hports) i).trans (by rw [port_setPort hports, if_pos rfl])

/-- A break begins: it is shown, counted, and kept in the port (R57). -/
theorem breakBegin_told (t k bit : Nat) :
    (s.breakBegin n t k bit).bit (SP_STAT.IN_BREAK n) = true ∧ ((s.breakBegin n t k bit).port n).brk = some (t, k) ∧
      (s.breakBegin n t k bit).reg (SP_CNT_BREAK n) = countUp (s.reg (SP_CNT_BREAK n)) := by
  obtain ⟨hbreak, hcount⟩ := breakFields_apart ⟨n, hn⟩
  have hi : ItemScope (breakFields n) n Port.unseen := .unseen hn fun f hf => by simp [breakFields, hf]
  have hevt : wholeReg (SP_EVT n) ∈ breakFields n := hi.fields (by simp [itemFields])
  have hstat : wholeReg (SP_ASTAT n) ∈ breakFields n := by simp [breakFields]
  have hbefore : s.Keeps (breakFields n) n Port.unseen (s.twBreak n) := .twBreak hi (fun _ _ _ => rfl) (.start hregs hports)
  have hshown : tabWf regReset ((s.twBreak n).on (SP_STAT.IN_BREAK n)).regs = true := setReg_wf _ _ hbefore.regs_wf
  have hheld : (s.breakShown n).Keeps (breakFields n) n Port.unseen
      ((((s.breakShown n).on (SP_EVT.BREAK_SEEN n)).endFrame n).releaseHeld n false) :=
    .releaseHeld hi (fun _ _ _ => rfl) (.endFrame hstat (.on (.start (setReg_wf _ _ hshown) hbefore.ports_wf) hevt))
  have hafter : (s.breakShown n).Keeps (breakFields n) n Port.unseen (s.breakBegin n t k bit) :=
    .sendItem hi (hheld.setPort fun _ => rfl)
  refine ⟨?shown, congrArg Port.brk (itemless_sendItem_setPort hn hheld.regs_wf hheld.ports_wf _ _), ?counted⟩
  case shown =>
    rw [hafter.bit_eq hbreak, State.breakShown, bit_inc_ne (by simp [SP_STAT.IN_BREAK, SP_STAT, SP_CNT_BREAK])]
    exact bit_on hbefore.regs_wf (by simp [SP_STAT.IN_BREAK]) rfl
  case counted =>
    rw [hafter.reg_eq hcount, State.breakShown, reg_inc hshown, State.on,
      reg_wr_ne (by simp [SP_STAT.IN_BREAK, SP_STAT, SP_CNT_BREAK]), hbefore.reg_eq hcount]

/-- A break ends: it is no longer shown nor kept in the port (R57, R58). -/
theorem breakFinish_told (t k k0 : Nat) :
    ((s.breakFinish n t k k0).busAlive n).bit (SP_STAT.IN_BREAK n) = false ∧
      (((s.breakFinish n t k k0).busAlive n).port n).brk = none := by
  have hbreak := breakEndFields_apart ⟨n, hn⟩
  have hi : ItemScope (breakEndFields n) n Port.unseen := .unseen hn fun f hf => by simp [breakEndFields, hf]
  have hstuck : SP_STAT.LINE_STUCK n ∈ breakEndFields n := by simp [breakEndFields]
  have hstat : wholeReg (SF_STAT n) ∈ breakEndFields n := by simp [breakEndFields]
  have hevt : wholeReg (SF_EVT n) ∈ breakEndFields n := by simp [breakEndFields]
  have hoff : (s.off (SP_STAT.IN_BREAK n)).Keeps (breakEndFields n) n Port.unseen
      ((s.off (SP_STAT.IN_BREAK n)).off (SP_STAT.LINE_STUCK n)) := .wrField (.start (setReg_wf _ _ hregs) hports) hstuck
  have hsent : (s.off (SP_STAT.IN_BREAK n)).Keeps (breakEndFields n) n Port.unseen (s.breakFinish n t k k0) :=
    .sendItem hi (hoff.setPort fun _ => rfl)
  refine ⟨?ended, ?gone⟩
  case ended =>
    rw [(hsent.busAlive hi.queue.log hstat hevt).bit_eq hbreak]
    exact bit_off hregs (by simp [SP_STAT.IN_BREAK]) rfl
  case gone =>
    have halive : (s.breakFinish n t k k0).Keeps (breakEndFields n) n id ((s.breakFinish n t k k0).busAlive n) :=
      .busAlive hi.queue.log hstat hevt (.start hsent.regs_wf hsent.ports_wf)
    exact (congrArg Port.brk halive.port_eq).trans
      (congrArg Port.brk (itemless_sendItem_setPort hn hoff.regs_wf hoff.ports_wf _ _))

end

end Sys2Proof.Machine
end

section
/-!
SUPPORT. The conditions of the line in 02_serial_line.md: breaks, a stuck line, the receive mask and the wait for mark.
-/
namespace Sys2Proof.Machine

/-! ## Conditions of the line -/

/-- The record of a stuck line leaves its status and its event as they are. -/
theorem logFields_apart_stuck : ∀ p : Fin 16, logFields.all (fun f => f.apart (SP_STAT.LINE_STUCK p)) = true ∧
    logFields.all (fun f => f.apart (SP_EVT.STUCK p)) = true := by decide +kernel

theorem lineStuck_told {s : State} (p : Fin 16) (hregs : tabWf regReset s.regs = true) (hports : tabWf Port.reset s.ports = true) :
    (((s.on (SP_STAT.LINE_STUCK p)).on (SP_EVT.STUCK p)).event Ev.LINE_STUCK [p.val]).bit (SP_STAT.LINE_STUCK p) = true ∧
      (((s.on (SP_STAT.LINE_STUCK p)).on (SP_EVT.STUCK p)).event Ev.LINE_STUCK [p.val]).bit (SP_EVT.STUCK p) = true := by
  obtain ⟨hstatus, hevt⟩ := logFields_apart_stuck p
  have hstuck : tabWf regReset (s.on (SP_STAT.LINE_STUCK p)).regs = true := setReg_wf _ _ hregs
  have hlog : ((s.on (SP_STAT.LINE_STUCK p)).on (SP_EVT.STUCK p)).Keeps logFields p Port.unseen
      (((s.on (SP_STAT.LINE_STUCK p)).on (SP_EVT.STUCK p)).event Ev.LINE_STUCK [p.val]) :=
    .event (fun _ h => h) (.start (setReg_wf _ _ hstuck) hports)
  have hkept : (s.on (SP_STAT.LINE_STUCK p)).Keeps [wholeReg (SP_EVT p)] p Port.unseen
      ((s.on (SP_STAT.LINE_STUCK p)).on (SP_EVT.STUCK p)) := .on (.start hstuck hports) (by simp [SP_EVT.STUCK])
  rw [hlog.bit_eq hstatus, hlog.bit_eq hevt, hkept.bit_eq (by simp [Fld.apart, wholeReg, SP_EVT, SP_STAT.LINE_STUCK, SP_STAT])]
  exact ⟨bit_on hregs (by simp [SP_STAT.LINE_STUCK]) rfl, bit_on hstuck (by simp [SP_EVT.STUCK]) rfl⟩

section
variable {s : State} (p : Fin 16) (hcanon : s.canon = true)
include hcanon

theorem breakStart_completes (hstart : (s.port p).rxChar.isSome = true ∨ (s.port p).watch.isSome = true)
    (hpad : s.bit (SP_CTRL.LOOPBACK p) = false) :
    Completes (.breakStart p) s fun t => t.bit (SP_STAT.IN_BREAK p) = true ∧ (t.port p).brk.isSome = true ∧
      t.reg (SP_CNT_BREAK p) = countUp (s.reg (SP_CNT_BREAK p)) := by
  have htold : ∀ k t k0 bit, ((s.runTo k).breakBegin p t k0 bit).bit (SP_STAT.IN_BREAK p) = true ∧
      (((s.runTo k).breakBegin p t k0 bit).port p).brk.isSome = true ∧
      ((s.runTo k).breakBegin p t k0 bit).reg (SP_CNT_BREAK p) = countUp (s.reg (SP_CNT_BREAK p)) := fun k t k0 bit => by
    have hrun : s.Keeps [] p id (s.runTo k) := .runTo (.of_canon hcanon)
    obtain ⟨hshown, hkept, hcounted⟩ := breakBegin_told p.isLt hrun.regs_wf hrun.ports_wf t k0 bit
    exact ⟨hshown, by rw [hkept, Option.isSome_some], by rw [hcounted, hrun.reg_eq rfl]⟩
  change ∃ t, execBreakStart p s = .next t ∧ _
  simp only [execBreakStart, hpad, Bool.false_and]
  cases hchar : (s.port p).rxChar with
  | some c => exact ⟨_, rfl, htold _ _ _ _⟩
  | none =>
    cases hwatch : (s.port p).watch with
    | some w => exact ⟨_, rfl, htold _ _ _ _⟩
    | none => simp [hchar, hwatch] at hstart

theorem breakEnd_completes (hbrk : (s.port p).brk.isSome = true) (hmask : (s.port p).masked = false)
    (hedge : (s.rxdEdge p false).isSome = true) :
    Completes (.breakEnd p) s fun t => (t.port p).brk = none ∧ t.bit (SP_STAT.IN_BREAK p) = false := by
  obtain ⟨⟨t0, k0⟩, hbrk⟩ := Option.isSome_iff_exists.1 hbrk
  obtain ⟨⟨u, t, k⟩, hedge⟩ := Option.isSome_iff_exists.1 hedge
  have hu : s.Keeps [] p Port.unseen u := State.Keeps.rxdEdge (fun _ _ => rfl) hedge (.of_canon hcanon)
  obtain ⟨hoff, hgone⟩ := breakFinish_told p.isLt hu.regs_wf hu.ports_wf t k k0
  refine ⟨(u.breakFinish p t k k0).busAlive p, ?_, hgone, hoff⟩
  change execBreakEnd p s = _
  simp [execBreakEnd, hbrk, hmask, hedge]

theorem lineStuck_completes (hbrk : (s.port p).brk.isSome = true) (hms : s.rd (SP_BREAK.STUCK_MS p) ≠ 0)
    (hfirst : s.bit (SP_STAT.LINE_STUCK p) = false) :
    Completes (.lineStuck p) s fun t => t.bit (SP_STAT.LINE_STUCK p) = true ∧ t.bit (SP_EVT.STUCK p) = true := by
  obtain ⟨⟨t0, k0⟩, hbrk⟩ := Option.isSome_iff_exists.1 hbrk
  have hrun : s.Keeps [] p Port.unseen (s.runTo (k0 + s.rd (SP_BREAK.STUCK_MS p) * 1000000 + s.lag p)) := .runTo (.of_canon hcanon)
  refine ⟨_, ?_, lineStuck_told p hrun.regs_wf hrun.ports_wf⟩
  change execLineStuck p s = _
  simp [execLineStuck, hbrk, hms, hfirst]

theorem rxMaskEnd_completes (mark : Bool) (hend : (s.port p).maskEnd.isSome = true) :
    Completes (.rxMaskEnd p mark) s fun t => (t.port p).masked = false ∧ (t.port p).maskEnd = none := by
  obtain ⟨k, hend⟩ := Option.isSome_iff_exists.1 hend
  have hl : LineScope (lineFields p) p Port.lineless := ⟨p.isLt, fun _ h => h, fun _ _ h => h⟩
  have hrun : s.Keeps [] p Port.unseen (s.runTo k) := .runTo (.of_canon hcanon)
  have hopen : ((s.runTo k).setPort p { (s.runTo k).port p with masked := false, maskEnd := none }).port p =
      { (s.runTo k).port p with masked := false, maskEnd := none } := by rw [port_setPort hrun.ports_wf, if_pos rfl]
  have hunmasked : s.Keeps [] p Port.unseen ((s.runTo k).setPort p { (s.runTo k).port p with masked := false, maskEnd := none }) :=
    hrun.setPort fun _ => rfl
  change ∃ t, execRxMaskEnd p mark s = .next t ∧ _
  simp only [execRxMaskEnd, hend]
  generalize (s.runTo k).setPort p { (s.runTo k).port p with masked := false, maskEnd := none } = u at hopen hunmasked ⊢
  have hlevel : u.Keeps (lineFields p) p Port.lineless
      (if u.bit (SP_CTRL.RX_EN p) then u.takeLevel p (u.rxdLevel p mark) else u) :=
    .ite (.takeLevel hl (.start hunmasked.regs_wf hunmasked.ports_wf)) (.start hunmasked.regs_wf hunmasked.ports_wf)
  have hsame := hlevel.port_eq
  rw [hopen] at hsame
  exact ⟨_, rfl, congrArg Port.masked hsame, congrArg Port.maskEnd hsame⟩

theorem rxLineMark_completes (hbrk : (s.port p).brk = none) (hchar : (s.port p).rxChar = none) (hmask : (s.port p).masked = false)
    (hedge : (s.rxdEdge p false).isSome = true) :
    Completes (.rxLineMark p) s fun t => (t.port p).watch = none ∧ (t.port p).waitMark = false := by
  obtain ⟨⟨u, t, k⟩, hedge⟩ := Option.isSome_iff_exists.1 hedge
  have hc : CharScope (charFields p) p Port.charless := ⟨p.isLt, fun _ h => h, fun _ _ h => h⟩
  have hu : s.Keeps [] p Port.unseen u := State.Keeps.rxdEdge (fun _ _ => rfl) hedge (.of_canon hcanon)
  have hmark : (u.setPort p { u.port p with cand := none, watch := none, waitMark := false, markSince := some k }).port p =
      { u.port p with cand := none, watch := none, waitMark := false, markSince := some k } := by
    rw [port_setPort hu.ports_wf, if_pos rfl]
  have hwf : s.Keeps [] p Port.unseen
      (u.setPort p { u.port p with cand := none, watch := none, waitMark := false, markSince := some k }) := hu.setPort fun _ => rfl
  change ∃ t, execRxLineMark p s = .next t ∧ _
  simp only [execRxLineMark, hbrk, hchar, hmask, hedge, Option.isSome_none, Bool.false_eq_true, or_self, if_false]
  generalize u.setPort p { u.port p with cand := none, watch := none, waitMark := false, markSince := some k } = w at hmark hwf ⊢
  cases (u.port p).cand with
  | none => exact ⟨w, rfl, by rw [hmark], by rw [hmark]⟩
  | some it =>
    have hchar : w.Keeps (charFields p) p Port.charless (w.acceptChar p it) := .acceptChar hc (.start hwf.regs_wf hwf.ports_wf)
    have hsame := hchar.port_eq
    rw [hmark] at hsame
    exact ⟨_, rfl, congrArg Port.watch hsame, congrArg Port.waitMark hsame⟩

end

/-- Settles O11: the record of a break, its items and those of a character that waited leave the status and the part of the port that the
command sets as they are. -/
theorem lineConditionsComplete : Obligations.LineConditionsComplete := by
  unfold Obligations.LineConditionsComplete
  refine ⟨?start, ?finish, ?stuck, ?mask, ?mark⟩
  case start => exact fun s p hcanon ⟨hstart, hpad⟩ => breakStart_completes p hcanon hstart hpad
  case finish => exact fun s p hcanon ⟨hbrk, hmask, hedge⟩ => breakEnd_completes p hcanon hbrk hmask hedge
  case stuck => exact fun s p hcanon hbrk ⟨hms, hfirst⟩ => lineStuck_completes p hcanon hbrk hms hfirst
  case mask => exact fun s p mark hcanon hend => rxMaskEnd_completes p hcanon mark hend
  case mark => exact fun s p hcanon ⟨hbrk, hchar, hmask, hedge⟩ => rxLineMark_completes p hcanon hbrk hchar hmask hedge

end Sys2Proof.Machine
end

section
/-!
SUPPORT. What the guardian of a port and a fall of DE change (R46, R47, R151, R173, R177 to R180, R539).
-/
namespace Sys2Proof.Machine

/-! ## The guardian -/

/-- The registers that the guardian of port n changes: the table and the copies that take effect, a leave, a muzzle, a blocked attempt, and
the pending bits of messages (R130, R151, R173, R178 to R180, R458). -/
def guardFields (n : Nat) : List Fld :=
  logFields ++ [MSIX_PBA 0, MSIX_PBA 1, SF_STAT n, SF_EVT n, TW_EVT n, SF_CNT_MUZZLE n, SF_CNT_BLOCKED n, GD_BLK_NS n, GD_BLK_INFO n].map
    wholeReg ++ (List.range 8).map (fun i => wholeReg (TW_TCLIP n i)) ++ (List.range 4).map (fun i => wholeReg (GD_CRC n i))

theorem logFields_subset_guardFields (n : Nat) : logFields ⊆ guardFields n := fun _ hf => by simp [guardFields, hf]

theorem tclip_mem_guardFields (n : Nat) {i : Nat} (hi : i < 8) : wholeReg (TW_TCLIP n i) ∈ guardFields n :=
  List.mem_append_left _ (List.mem_append_right _ (List.mem_map.2 ⟨i, List.mem_range.2 hi, rfl⟩))

theorem gdCrc_mem_guardFields (n : Nat) {i : Nat} (hi : i < 4) : wholeReg (GD_CRC n i) ∈ guardFields n :=
  List.mem_append_right _ (List.mem_map.2 ⟨i, List.mem_range.2 hi, rfl⟩)

theorem msixPba_mem_guardFields (n : Nat) {i : Nat} (hi : i < 2) : wholeReg (MSIX_PBA i) ∈ guardFields n := by
  have hcases : i = 0 ∨ i = 1 := by omega
  rcases hcases with rfl | rfl <;> simp [guardFields]

/-- A field is less than its width allows. -/
theorem State.rd_lt (s : State) (f : Fld) : s.rd f < 2 ^ f.w := Nat.mod_lt _ (Nat.two_pow_pos _)

namespace State.Keeps
section
variable {n : Nat} {s t : State} {k m i vec cause clip : Nat} {g : Gateway} {x : Target} {o : Out} {w : Guardian} {tab : TwTable}

theorem sendMsix (hvec : vec < 64) (h : s.Keeps (guardFields n) n Port.unseen t) : s.Keeps (guardFields n) n Port.unseen (t.sendMsix vec) :=
  .ite (h.put (f := ⟨_, _, 1⟩) (msixPba_mem_guardFields n (by omega))) (.ite (h.same rfl rfl) h)

theorem deliver (h : s.Keeps (guardFields n) n Port.unseen t) : s.Keeps (guardFields n) n Port.unseen (t.deliver k) :=
  .ite (.ite (h.sendMsix (t.rd_lt (EIC_TCFG.VEC k))) h) (h.same rfl rfl)

theorem setTarget (h : s.Keeps (guardFields n) n Port.unseen t) : s.Keeps (guardFields n) n Port.unseen (t.setTarget k x) :=
  h.same rfl rfl

theorem refreshLine (h : s.Keeps (guardFields n) n Port.unseen t) : s.Keeps (guardFields n) n Port.unseen (t.refreshLine k) := by
  unfold State.refreshLine
  exact .ite (.deliver h.setTarget) (.ite h.setTarget h)

theorem refreshLines (h : s.Keeps (guardFields n) n Port.unseen t) : s.Keeps (guardFields n) n Port.unseen t.refreshLines := by
  have hlines : s.Keeps (guardFields n) n Port.unseen ([0, 1, 2, 3, 4, 5, 6, 7].foldl State.refreshLine t) :=
    .foldl _ (fun _ _ _ ht => ht.refreshLine) h
  unfold State.refreshLines
  generalize [0, 1, 2, 3, 4, 5, 6, 7].foldl State.refreshLine t = u at hlines ⊢
  exact .ite (hlines.same rfl rfl) hlines

theorem fire (h : s.Keeps (guardFields n) n Port.unseen t) : s.Keeps (guardFields n) n Port.unseen (t.fire k) :=
  .ite (.refreshLines (h.same rfl rfl)) (.ite h (h.same rfl rfl))

theorem toPad (h : s.Keeps (guardFields n) n Port.unseen t) : s.Keeps (guardFields n) n Port.unseen (t.toPad m o) :=
  .ite h (h.same rfl rfl)

theorem setGuard (h : s.Keeps (guardFields n) n Port.unseen t) : s.Keeps (guardFields n) n Port.unseen (t.setGuard m w) := h.setTw

theorem dropDe (h : s.Keeps (guardFields n) n Port.unseen t) : s.Keeps (guardFields n) n Port.unseen (t.dropDe n) := by
  unfold State.dropDe
  dsimp only
  generalize (!t.twRuns n || (t.tw n).gate.2) = shown
  generalize hu : t.setPort n _ = u
  have hdown : s.Keeps (guardFields n) n Port.unseen u := hu ▸ h.setPort fun _ => rfl
  exact .ite (.toPad (.ite hdown.setTw hdown)) (.ite hdown.setTw hdown)

theorem applyTable (hm : m < 4) (h : s.Keeps (guardFields n) n Port.unseen t) :
    s.Keeps (guardFields n) n Port.unseen (t.applyTable n m tab clip) := by
  have hevt : wholeReg (TW_EVT n) ∈ guardFields n := by simp [guardFields]
  have hlow : wholeReg (TW_TCLIP n (2 * m)) ∈ guardFields n := tclip_mem_guardFields n (by omega)
  have hhigh : wholeReg (TW_TCLIP n (2 * m + 1)) ∈ guardFields n := tclip_mem_guardFields n (by omega)
  unfold State.applyTable
  exact .ite (.setReg (.setReg h.setTw hlow) hhigh) (.on (.setReg (.setReg h.setTw hlow) hhigh) hevt)

theorem copyTake (hm : m < 4) (h : s.Keeps (guardFields n) n Port.unseen t) :
    s.Keeps (guardFields n) n Port.unseen (t.copyTake n m tab) := .setGuard (h.setReg (gdCrc_mem_guardFields n hm))

theorem haltCommits (h : s.Keeps (guardFields n) n Port.unseen t) : s.Keeps (guardFields n) n Port.unseen (t.haltCommits n) := by
  refine .foldl _ (fun u m hm hu => ?_) h
  have hm : m < 4 := List.mem_range.1 hm
  split
  · dsimp only
    split
    · exact .copyTake hm (hu.applyTable hm)
    · exact .setGuard (hu.applyTable hm)
  · exact hu

theorem haltCycle (h : s.Keeps (guardFields n) n Port.unseen t) : s.Keeps (guardFields n) n Port.unseen (t.haltCycle n) :=
  .setTw (.ite (.setTw h.haltCommits.dropDe) h.haltCommits)

theorem leavePhase (h : s.Keeps (guardFields n) n Port.unseen t) : s.Keeps (guardFields n) n Port.unseen (t.leavePhase n cause) := by
  have hstat : wholeReg (SF_STAT n) ∈ guardFields n := by simp [guardFields]
  have hevt : wholeReg (TW_EVT n) ∈ guardFields n := by simp [guardFields]
  have hcause : s.Keeps (guardFields n) n Port.unseen (t.wr (SF_STAT.LEAVE_CAUSE n) cause) := h.wr hstat
  unfold State.leavePhase
  exact .ite h (.setTw (.haltCycle (.ite (.event (logFields_subset_guardFields n) (hcause.on hevt)) hcause)))

theorem muzzleSet (h : s.Keeps (guardFields n) n Port.unseen t) : s.Keeps (guardFields n) n Port.unseen (t.muzzleSet n cause) := by
  have hcount : wholeReg (SF_CNT_MUZZLE n) ∈ guardFields n := by simp [guardFields]
  have hevt : wholeReg (SF_EVT n) ∈ guardFields n := by simp [guardFields]
  unfold State.muzzleSet
  refine .ite (.leavePhase ?told) ?told
  exact .event (logFields_subset_guardFields n) (.ite h.setGuard (.fire (.on (.inc h.setGuard hcount) hevt)))

theorem blockedAt (h : s.Keeps (guardFields n) n Port.unseen t) : s.Keeps (guardFields n) n Port.unseen (t.blockedAt n k) := by
  have hcount : wholeReg (SF_CNT_BLOCKED n) ∈ guardFields n := by simp [guardFields]
  have hevt : wholeReg (SF_EVT n) ∈ guardFields n := by simp [guardFields]
  have hns : wholeReg (GD_BLK_NS n) ∈ guardFields n := by simp [guardFields]
  have hinfo : wholeReg (GD_BLK_INFO n) ∈ guardFields n := by simp [guardFields]
  unfold State.blockedAt
  dsimp only
  generalize hu : State.setTw (State.event _ Ev.TW_BLOCKED _) n _ = u
  have htold : s.Keeps (guardFields n) n Port.unseen u :=
    hu ▸ .setTw (.event (logFields_subset_guardFields n) (.setReg (.setReg (.on (h.inc hcount) hevt) hns) hinfo))
  exact .ite htold.muzzleSet htold

theorem gateTo (h : s.Keeps (guardFields n) n Port.unseen t) : s.Keeps (guardFields n) n Port.unseen (t.gateTo n k) := by
  unfold State.gateTo
  exact .ite h.setTw (.ite (.toPad h.setTw) (.blockedAt (.toPad h.setTw)))

theorem followGate (h : s.Keeps (guardFields n) n Port.unseen t) : s.Keeps (guardFields n) n Port.unseen (t.followGate n) :=
  .ite (.foldl _ (fun _ _ _ ht => ht.gateTo) h) h

/-- The fall of DE changes the port, and what the guardian finds up to it (R47, R177, R178). -/
theorem lowerDe (h : s.Keeps (guardFields n) n Port.unseen t) : s.Keeps (guardFields n) n Port.unseen (t.lowerDe n) := h.followGate.dropDe

end
end State.Keeps
end Sys2Proof.Machine
end

section
/-!
SUPPORT. What a write stores in a register of a port, and what it changes beside it (R8, R30, R630).
-/
namespace Sys2Proof.Machine

/-! ## A register that stores what is written -/

/-- Pin locks keep nothing of the registers of the ports (R630). -/
theorem State.lockedBits_serial (s : State) {a : Nat} (ha : 0x80000 ≤ a) (old : Word) : s.lockedBits a old = 0 := by
  unfold State.lockedBits
  rw [if_neg (by simp only [PIN_CFG]; omega), if_neg (by simp only [GP_EXTL_SEL]; omega)]

/-- What a write of v stores in a register of a port, beside the record of it (R8, R30). -/
theorem State.regStore_serial {s : State} {o : Origin} {a : Nat} {v : Word} {r : RegRow} (ha : 0x80000 ≤ a)
    (hrow : regRow? a = some r) (hex : s.regExists a = true) :
    s.regStore o a v = if r.cfg = 0 then s.setReg a (storeValue r 0 (s.reg a) v)
      else (s.setReg a (storeValue r 0 (s.reg a) v)).configWrite o a (storeValue r 0 (s.reg a) v) (s.reg a) := by
  simp [State.regStore, hrow, hex, s.lockedBits_serial ha]

/-- A row whose bits of mask are read and written as they stand, and whose other bits nothing clears or sets. -/
def RegRow.plain (r : RegRow) (mask : Nat) : Bool := r.w1c == 0 && r.w1s == 0 && r.rw &&& mask == mask

theorem storeValue_plain {r : RegRow} {mask i : Nat} (hr : r.plain mask = true) (hi : i < 32) (hmask : mask.testBit i = true)
    (old v : Word) : (storeValue r 0 old v).getLsbD i = v.getLsbD i := by
  simp only [RegRow.plain, Bool.and_eq_true, beq_iff_eq] at hr
  obtain ⟨⟨hw1c, hw1s⟩, hrw⟩ := hr
  have hbit : r.rw.testBit i = true := by
    rw [← hrw, Nat.testBit_and, Bool.and_eq_true] at hmask
    exact hmask.1
  simp only [storeValue, hw1c, hw1s, BitVec.getLsbD_or, BitVec.getLsbD_and, BitVec.getLsbD_not, BitVec.getLsbD_ofNat, hbit, hi,
    Nat.zero_testBit, decide_true, Bool.and_true, Bool.and_false, Bool.not_false, Bool.not_true, Bool.true_or, Bool.false_or,
    Bool.or_false]

namespace State.Keeps
section
variable {fs : List Fld} {n : Nat} {v : Port → Port} {s t : State} {o : Origin} {a : Nat} {x : Word}

theorem regStore (hlog : logFields ⊆ fs) (ha : wholeReg a ∈ fs) (hserial : 0x80000 ≤ a) (h : s.Keeps fs n v t) :
    s.Keeps fs n v (t.regStore o a x) := by
  cases hrow : regRow? a with
  | none => simpa only [State.regStore, hrow] using h
  | some r =>
    cases hex : t.regExists a with
    | false => simpa only [State.regStore, hrow, hex, Bool.false_eq_true, if_false] using h
    | true =>
      rw [State.regStore_serial hserial hrow hex]
      exact .ite (h.setReg ha) (.configWrite hlog (h.setReg ha))

end
end State.Keeps

/-- A write stores the plain bits of a port's register as they are written, and beside it changes the log. -/
theorem regStore_told {s : State} {o : Origin} {a : Nat} {v : Word} {mask : Nat} (hregs : tabWf regReset s.regs = true)
    (hports : tabWf Port.reset s.ports = true) (n : Nat) (ha : 0x80000 ≤ a) (hrow : (regRow? a).any (fun r => r.plain mask) = true)
    (hex : s.regExists a = true) :
    ∃ new : Word, (∀ i, i < 32 → mask.testBit i = true → new.getLsbD i = v.getLsbD i) ∧
      (s.setReg a new).Keeps logFields n id (s.regStore o a v) := by
  obtain ⟨r, hr, hplain⟩ : ∃ r, regRow? a = some r ∧ r.plain mask = true := by
    cases hr : regRow? a with
    | none => simp [hr] at hrow
    | some r => exact ⟨r, rfl, by simpa [hr] using hrow⟩
  refine ⟨storeValue r 0 (s.reg a) v, fun i hi hmask => storeValue_plain hplain hi hmask _ _, ?_⟩
  rw [State.regStore_serial ha hr hex]
  have hset : (s.setReg a (storeValue r 0 (s.reg a) v)).Keeps logFields n id (s.setReg a (storeValue r 0 (s.reg a) v)) :=
    .start (setReg_wf _ _ hregs) hports
  exact .ite hset (.configWrite (fun _ h => h) hset)

end Sys2Proof.Machine
end

section
/-!
SUPPORT. The settings in 02_serial_line.md, the enables: a write of RX_EN or TX_EN reads back.
-/
namespace Sys2Proof.Machine

/-! ## Enables -/

/-- The bits of the registers of a port that a write stores as they are written (R8). -/
theorem portRows_plain : ∀ p : Fin 16, (regRow? (SP_CTRL p)).any (fun r => r.plain 0x3) = true ∧
    (regRow? (SP_AUTOBAUD p)).any (fun r => r.plain 0x1) = true ∧
    ∀ b : Fin 7, (regRow? (bindingReg p b)).any (fun r => r.plain 0x8000FFFF) = true := by decide +kernel

/-- What a write of RX_EN changes beside SP_CTRL: the level of the line, and the frame. -/
def enableFields (n : Nat) : List Fld := lineFields n ++ [wholeReg (SP_ASTAT n)]

theorem fields_apart_ctrl : ∀ p : Fin 16, (enableFields p).all (fun f => f.apart (SP_CTRL.RX_EN p)) = true ∧
    (guardFields p).all (fun f => f.apart (SP_CTRL.TX_EN p)) = true ∧
    logFields.all (fun f => f.apart (SP_CTRL.RX_EN p)) = true ∧ logFields.all (fun f => f.apart (SP_CTRL.TX_EN p)) = true := by
  decide +kernel

theorem State.Keeps.rxEnChange {n : Nat} {s t : State} {was en mark : Bool} (hn : n < 16)
    (h : s.Keeps (enableFields n) n Port.unseen t) : s.Keeps (enableFields n) n Port.unseen (t.rxEnChange n was en mark) := by
  have hl : LineScope (enableFields n) n Port.unseen := ⟨hn, fun f hf => by simp [enableFields, hf], fun _ _ _ => rfl⟩
  have hstat : wholeReg (SP_ASTAT n) ∈ enableFields n := by simp [enableFields]
  unfold State.rxEnChange
  refine .ite (.updateFlow hl.item.queue hn (.takeLevel hl (.wr (h.setPort fun _ => rfl) hstat))) (.ite ?_ h)
  exact .updateFlow hl.item.queue hn (.endFrame hstat (h.releaseHeld hl.item fun _ _ _ => rfl))

/-- The lowest bit of a field that is bit i of its register, after a write of it. -/
theorem getLsbD_fldPut_bit {f : Fld} (hf : f.lo < 32) (hw : f.w = 1) (v : Word) (b : Bool) : (fldPut f v b.toNat).getLsbD f.lo = b := by
  rw [← BitVec.testBit_toNat, testBit_fldPut, if_pos (by omega), Nat.sub_self, decide_eq_true hf, Bool.true_and]
  cases b <;> rfl

/-- A write of one-bit field f of a port's register stores it. -/
theorem bit_regStore_fldPut {s : State} {o : Origin} {f : Fld} {mask : Nat} {b : Bool} (hcanon : s.canon = true)
    (ha : 0x80000 ≤ f.reg) (hf : f.lo < 32) (hw : f.w = 1) (hmask : mask.testBit f.lo = true)
    (hrow : (regRow? f.reg).any (fun r => r.plain mask) = true) (hex : s.regExists f.reg = true)
    (hlog : logFields.all (fun g => g.apart f) = true) :
    (s.regStore o f.reg (fldPut f (s.reg f.reg) b.toNat)).bit f = b := by
  obtain ⟨new, hbits, hkeep⟩ := regStore_told (o := o) (v := fldPut f (s.reg f.reg) b.toNat) (State.regs_wf_of_canon hcanon)
    (State.ports_wf_of_canon hcanon) 0 ha hrow hex
  rw [hkeep.bit_eq hlog, bit_eq_getLsbD hw, reg_setReg (State.regs_wf_of_canon hcanon), if_pos rfl, hbits _ hf hmask,
    getLsbD_fldPut_bit hf hw]

section
variable {s : State} (o : Origin) (p : Fin 16) (hcanon : s.canon = true)
include hcanon

theorem regStore_keeps {a : Nat} (v : Word) (ha : 0x80000 ≤ a) : s.Keeps (logFields ++ [wholeReg a]) p id (s.regStore o a v) :=
  .regStore (List.subset_append_left _ _) (by simp) ha (.of_canon hcanon)

theorem rxEnWrite_completes (en mark : Bool) (hex : s.regExists (SP_CTRL p) = true) :
    Completes (.rxEnWrite o p en mark) s fun t => t.bit (SP_CTRL.RX_EN p) = en := by
  obtain ⟨hrow, -⟩ := portRows_plain p
  obtain ⟨hchange, -, hlog, -⟩ := fields_apart_ctrl p
  have hbase : 0x80000 ≤ SP_CTRL p := by simp only [SP_CTRL]; omega
  have hstore := regStore_keeps o p hcanon (fldPut (SP_CTRL.RX_EN p) (s.reg (SP_CTRL p)) en.toNat) hbase
  have hset : (s.regStore o (SP_CTRL p) (fldPut (SP_CTRL.RX_EN p) (s.reg (SP_CTRL p)) en.toNat)).bit (SP_CTRL.RX_EN p) = en :=
    bit_regStore_fldPut hcanon hbase (by simp [SP_CTRL.RX_EN]) rfl (by simp [SP_CTRL.RX_EN]) hrow hex hlog
  refine ⟨_, if_pos hex, ?_⟩
  exact ((State.Keeps.rxEnChange p.isLt (.start hstore.regs_wf hstore.ports_wf)).bit_eq hchange).trans hset

theorem txEnWrite_completes (en : Bool) (hex : s.regExists (SP_CTRL p) = true) :
    Completes (.txEnWrite o p en) s fun t => t.bit (SP_CTRL.TX_EN p) = en := by
  obtain ⟨hrow, -⟩ := portRows_plain p
  obtain ⟨-, hguard, -, hlog⟩ := fields_apart_ctrl p
  have hbase : 0x80000 ≤ SP_CTRL p := by simp only [SP_CTRL]; omega
  have hstore := regStore_keeps o p hcanon (fldPut (SP_CTRL.TX_EN p) (s.reg (SP_CTRL p)) en.toNat) hbase
  have hset : (s.regStore o (SP_CTRL p) (fldPut (SP_CTRL.TX_EN p) (s.reg (SP_CTRL p)) en.toNat)).bit (SP_CTRL.TX_EN p) = en :=
    bit_regStore_fldPut hcanon hbase (by simp [SP_CTRL.TX_EN]) rfl (by simp [SP_CTRL.TX_EN, Nat.testBit]) hrow hex hlog
  refine ⟨_, if_pos hex, ?_⟩
  generalize s.regStore o (SP_CTRL p) (fldPut (SP_CTRL.TX_EN p) (s.reg (SP_CTRL p)) en.toNat) = u at hstore hset ⊢
  have hu : u.Keeps (guardFields p) p Port.unseen u := .start hstore.regs_wf hstore.ports_wf
  have hchange : u.Keeps (guardFields p) p Port.unseen (u.txEnChange p en) := .ite (.lowerDe hu.runTo) hu
  exact (hchange.bit_eq hguard).trans hset

end

end Sys2Proof.Machine
end

section
/-!
SUPPORT. The settings in 02_serial_line.md, rates and formats: a rate waits, is applied, settles; a format takes effect.
-/
namespace Sys2Proof.Machine

theorem completes_of_next {c : Instr} {s t : State} {P : State → Prop} (hnext : exec c s = .next t) (hP : P t) : Completes c s P :=
  ⟨t, hnext, hP⟩

/-! ## Rates and formats -/

theorem fields_apart_rate : ∀ p : Fin 16,
    [SP_STAT.PRE_ACT p.val, SP_STAT.BAUD_SETTLING p].all (fun f => f.apart (SP_STAT.OSR_ACT p)) = true ∧
    [wholeReg (SP_EVT p.val)].all (fun f => f.apart (SP_STAT.OSR_ACT p)) = true ∧
    [wholeReg (SP_EVT p.val)].all (fun f => f.apart (SP_STAT.BAUD_SETTLING p)) = true ∧
    [wholeReg (SP_EVT p.val)].all (fun f => f.apart (wholeReg (SP_BAUD_ACT p))) = true ∧
    (logFields ++ [wholeReg (SP_BAUDCFG p)]).all (fun f => f.apart (wholeReg (SP_BAUD p))) = true := by decide +kernel

/-- The state in which the ratio of an applied rate is in use, and settling has begun. -/
def State.rateShown (s : State) (n : Nat) (cfg : Word) : State :=
  ((s.wr (SP_STAT.OSR_ACT n) (cfg.toNat % 4)).wr (SP_STAT.PRE_ACT n) (cfg.toNat / 16)).on (SP_STAT.BAUD_SETTLING n)

section
variable {s : State} {n : Nat} (hports : tabWf Port.reset s.ports = true)
include hports

theorem port_setPort_same (p : Port) : (s.setPort n p).port n = p := by rw [port_setPort hports, if_pos rfl]

theorem charless_noteHold : ((s.noteHold n).port n).charless = (s.port n).charless := by
  unfold State.noteHold
  dsimp only
  split_ifs
  · rw [port_setPort_same hports]
    rfl
  · rfl
  · rw [port_setPort_same hports]
    rfl
  · rfl

theorem charless_noteHold_setPort (p : Port) : (((s.setPort n p).noteHold n).port n).charless = p.charless :=
  (charless_noteHold (s := s.setPort n p) (tabPut_wf n p hports)).trans (congrArg Port.charless (port_setPort_same hports p))

omit hports in
theorem reg_noteHold (a : Nat) : (s.noteHold n).reg a = s.reg a := by
  unfold State.noteHold
  dsimp only
  split_ifs <;> rfl

end

theorem rateShown_told {s : State} (p : Fin 16) (hregs : tabWf regReset s.regs = true) (hports : tabWf Port.reset s.ports = true)
    (cfg : Word) :
    (s.rateShown p cfg).rd (SP_STAT.OSR_ACT p) = cfg.toNat % 4 ∧ (s.rateShown p cfg).bit (SP_STAT.BAUD_SETTLING p) = true ∧
      (s.rateShown p cfg).reg (SP_BAUD_ACT p) = s.reg (SP_BAUD_ACT p) := by
  obtain ⟨hosr, -⟩ := fields_apart_rate p
  have hne : SP_BAUD_ACT p ≠ SP_STAT p := by simp [SP_BAUD_ACT, SP_STAT]
  have hratio : tabWf regReset (s.wr (SP_STAT.OSR_ACT p) (cfg.toNat % 4)).regs = true := setReg_wf _ _ hregs
  have hlast : (s.wr (SP_STAT.OSR_ACT p) (cfg.toNat % 4)).Keeps [SP_STAT.PRE_ACT p, SP_STAT.BAUD_SETTLING p] p id
      (s.rateShown p cfg) := .wrField (.wrField (.start hratio hports) (by simp)) (by simp)
  refine ⟨?ratio, bit_on (setReg_wf _ _ hratio) (by simp [SP_STAT.BAUD_SETTLING]) rfl, ?divisor⟩
  case ratio =>
    rw [hlast.rd_eq _ hosr, rd_wr hregs (by simp [SP_STAT.OSR_ACT])]
    exact Nat.mod_mod _ _
  case divisor =>
    rw [State.rateShown, State.on, reg_wr_ne (f := SP_STAT.BAUD_SETTLING p) hne, reg_wr_ne (f := SP_STAT.PRE_ACT p) hne,
      reg_wr_ne (f := SP_STAT.OSR_ACT p) hne]

/-- A rate applied is the port's, and settling begins (R42). -/
theorem applyRate_told {s : State} (p : Fin 16) (hregs : tabWf regReset s.regs = true) (hports : tabWf Port.reset s.ports = true)
    (div cfg : Word) :
    (s.applyRate p div cfg).reg (SP_BAUD_ACT p) = div ∧ (s.applyRate p div cfg).rd (SP_STAT.OSR_ACT p) = cfg.toNat % 4 ∧
      (s.applyRate p div cfg).bit (SP_STAT.BAUD_SETTLING p) = true ∧ ((s.applyRate p div cfg).port p).rate = none := by
  obtain ⟨-, hosr, hsettle, hdiv, -⟩ := fields_apart_rate p
  have hset : tabWf regReset (s.setReg (SP_BAUD_ACT p) div).regs = true := setReg_wf _ _ hregs
  obtain ⟨hratio, hsettling, hsame⟩ := rateShown_told p hset hports cfg
  have hshown : tabWf regReset ((s.setReg (SP_BAUD_ACT p) div).rateShown p cfg).regs = true :=
    setReg_wf _ _ (setReg_wf _ _ (setReg_wf _ _ hset))
  generalize hu : (s.setReg (SP_BAUD_ACT p) div).rateShown p cfg = u at hratio hsettling hsame hshown
  have hstart : u.Keeps [wholeReg (SP_EVT p)] p Port.unseen u := .start hshown (hu ▸ hports)
  have hclamped : u.Keeps [wholeReg (SP_EVT p)] p Port.unseen (if u.dEff p = u.div p then u else u.on (SP_EVT.CLAMPED p)) :=
    .ite hstart (hstart.on (by simp [SP_EVT.CLAMPED]))
  have happly : s.applyRate p div cfg = (if u.dEff p = u.div p then u else u.on (SP_EVT.CLAMPED p)).setPort p
      { (if u.dEff p = u.div p then u else u.on (SP_EVT.CLAMPED p)).port p with rate := none, abWait := false } := hu ▸ rfl
  have hend : u.Keeps [wholeReg (SP_EVT p)] p Port.unseen (s.applyRate p div cfg) := happly ▸ hclamped.setPort fun _ => rfl
  refine ⟨?divisor, ?ratio, ?settling, ?rate⟩
  case divisor => rw [hend.reg_eq hdiv, hsame, reg_setReg hregs, if_pos rfl]
  case ratio => rw [hend.rd_eq _ hosr, hratio]
  case settling => rw [hend.bit_eq hsettle, hsettling]
  case rate => rw [happly, port_setPort_same hclamped.ports_wf]

section
variable {s : State} (o : Origin) (p : Fin 16) (hcanon : s.canon = true)
include hcanon

theorem baudcfgWrite_completes (v : Word) (hex : s.regExists (SP_BAUDCFG p) = true) :
    Completes (.baudcfgWrite o p v) s fun t => (t.port p).rate = some (s.reg (SP_BAUD p), t.reg (SP_BAUDCFG p)) := by
  obtain ⟨-, -, -, -, hbaud⟩ := fields_apart_rate p
  have hstore := regStore_keeps o p hcanon v (a := SP_BAUDCFG p) (by simp only [SP_BAUDCFG]; omega)
  refine completes_of_next (if_pos hex) ?_
  have hold := hstore.reg_eq hbaud
  generalize s.regStore o (SP_BAUDCFG p) v = u at hstore hold ⊢
  have hcfg : (u.stageRate p).reg (SP_BAUDCFG p) = u.reg (SP_BAUDCFG p) := reg_noteHold _
  rw [hcfg, ← hold]
  exact congrArg Port.rate (charless_noteHold_setPort hstore.ports_wf _)

theorem baudChangeApply_completes (r : Word × Word) (hrate : (s.port p).rate = some r) (hchar : (s.port p).rxChar = none)
    (hcand : (s.port p).cand = none) (hsettle : s.bit (SP_STAT.BAUD_SETTLING p) = false) (htw : s.twRuns p = false)
    (hrun : s.runs .port = true) :
    Completes (.baudChangeApply p) s fun t => t.reg (SP_BAUD_ACT p) = r.1 ∧ t.rd (SP_STAT.OSR_ACT p) = r.2.toNat % 4 ∧
      t.bit (SP_STAT.BAUD_SETTLING p) = true ∧ (t.port p).rate = none := by
  have htime : s.Keeps [] p id (s.runTo (divUp (s.port p).txEnd 65536)) := .runTo (.of_canon hcanon)
  refine ⟨_, ?_, applyRate_told p htime.regs_wf htime.ports_wf r.1 r.2⟩
  change execBaudChangeApply p s = _
  simp [execBaudChangeApply, hrate, hchar, hcand, hsettle, htw, hrun]

theorem baudSettlingEnd_completes (hsettle : s.bit (SP_STAT.BAUD_SETTLING p) = true) :
    Completes (.baudSettlingEnd p) s fun t => t.bit (SP_STAT.BAUD_SETTLING p) = false ∧
      (t.port p).needMark = some (s.time.tick, s.bitTime p) := by
  have hports : tabWf Port.reset s.ports = true := State.ports_wf_of_canon hcanon
  refine ⟨_, if_pos hsettle, ?ended, congrArg Port.needMark
    (charless_noteHold_setPort (s := s.off (SP_STAT.BAUD_SETTLING p)) hports _)⟩
  case ended =>
    rw [State.bit, State.rd, reg_noteHold]
    exact bit_off (State.regs_wf_of_canon hcanon) (by simp [SP_STAT.BAUD_SETTLING]) rfl

theorem frameFormatApply_completes (tx : Bool) (hchar : tx = true ∨ (s.port p).rxChar = none) :
    Completes (.frameFormatApply p tx) s fun t => (if tx then (t.port p).txFmt else (t.port p).rxFmt) = s.lineRegs p := by
  have htime : s.Keeps [] p id (s.runTo (divUp (s.port p).txEnd 65536)) := .runTo (.of_canon hcanon)
  cases tx with
  | true =>
    refine completes_of_next rfl ?_
    rw [if_pos rfl, port_setPort_same htime.ports_wf]
  | false =>
    have hnone : (s.port p).rxChar = none := hchar.resolve_left (by simp)
    refine completes_of_next (t := s.rxBoundary p) ?next ?_
    case next =>
      change execFrameFormatApply p false s = _
      simp [execFrameFormatApply, hnone]
    rw [if_neg (by simp), State.rxBoundary, port_setPort_same (State.ports_wf_of_canon hcanon)]

end

end Sys2Proof.Machine
end

section
/-!
SUPPORT. The settings in 02_serial_line.md, the rest: auto-detection, bindings, the stranger table and the gap.
-/
namespace Sys2Proof.Machine

/-! ## Auto-detection -/

theorem fields_apart_warming : ∀ p : Fin 16, [SP_STAT.WARMING p.val].all (fun f => f.apart (SP_AUTOBAUD.AB_EN p)) = true ∧
    logFields.all (fun f => f.apart (SP_AUTOBAUD.AB_EN p)) = true := by decide +kernel

/-- A port without the tick from which it looks at TXD in LOOPBACK. -/
def Port.loopless (p : Port) : Port := { p with loopFrom := 0 }

/-- A write of WARMING leaves AB_EN as it is. -/
theorem warming_written {s : State} (p : Fin 16) (hregs : tabWf regReset s.regs = true) (hports : tabWf Port.reset s.ports = true)
    (b : Bool) : (s.put (SP_STAT.WARMING p) b).bit (SP_STAT.WARMING p) = b ∧
      (s.put (SP_STAT.WARMING p) b).bit (SP_AUTOBAUD.AB_EN p) = s.bit (SP_AUTOBAUD.AB_EN p) := by
  have hput : s.Keeps [SP_STAT.WARMING p] p id (s.put (SP_STAT.WARMING p) b) := .putField (.start hregs hports) (by simp)
  exact ⟨bit_put hregs (by simp [SP_STAT.WARMING]) rfl b, hput.bit_eq (fields_apart_warming p).1⟩

section
variable {s : State} (o : Origin) (p : Fin 16) (hcanon : s.canon = true)
include hcanon

/-- A write of SP_AUTOBAUD stores AB_EN as written, and changes nothing of the port. -/
theorem autobaud_stored (v : Word) (hex : s.regExists (SP_AUTOBAUD p) = true) :
    (s.regStore o (SP_AUTOBAUD p) v).bit (SP_AUTOBAUD.AB_EN p) = v.getLsbD 0 ∧
      s.Keeps (logFields ++ [wholeReg (SP_AUTOBAUD p)]) p id (s.regStore o (SP_AUTOBAUD p) v) := by
  obtain ⟨-, hrow, -⟩ := portRows_plain p
  have hbase : 0x80000 ≤ SP_AUTOBAUD p := by simp only [SP_AUTOBAUD]; omega
  obtain ⟨new, hbits, hkeep⟩ := regStore_told (o := o) (v := v) (State.regs_wf_of_canon hcanon) (State.ports_wf_of_canon hcanon) p
    hbase hrow hex
  refine ⟨?_, regStore_keeps o p hcanon v hbase⟩
  rw [hkeep.bit_eq (fields_apart_warming p).2, bit_eq_getLsbD rfl]
  exact (congrArg (fun x : Word => x.getLsbD 0) (by rw [SP_AUTOBAUD.AB_EN, reg_setReg (State.regs_wf_of_canon hcanon), if_pos rfl])).trans
    (hbits 0 (by omega) (by simp))

theorem autobaudStart_completes (apply : Bool) (hex : s.regExists (SP_AUTOBAUD p) = true) (hchar : (s.port p).rxChar = none) :
    Completes (.autobaudStart o p apply) s fun t => t.bit (SP_STAT.WARMING p) = true ∧ t.bit (SP_AUTOBAUD.AB_EN p) = true ∧
      (t.port p).abEdges = [] := by
  obtain ⟨hset, hstore⟩ := autobaud_stored o p hcanon (BitVec.ofNat 32 (1 + 2 * apply.toNat)) hex
  have hsame : (s.regStore o (SP_AUTOBAUD p) (BitVec.ofNat 32 (1 + 2 * apply.toNat))).port p = s.port p := hstore.port_eq
  refine completes_of_next (t := ((s.regStore o (SP_AUTOBAUD p) (BitVec.ofNat 32 (1 + 2 * apply.toNat))).on
    (SP_STAT.WARMING p)).setPort p { s.port p with abEdges := [] }) ?next ?told
  case next =>
    change execAutobaudStart o p apply s = _
    simp [execAutobaudStart, hex, hsame, hchar]
  case told =>
    obtain ⟨hwarm, hkept⟩ := warming_written p hstore.regs_wf hstore.ports_wf true
    exact ⟨hwarm, hkept.trans (hset.trans (by cases apply <;> rfl)), congrArg Port.abEdges (port_setPort_same hstore.ports_wf _)⟩

theorem autobaudEdge_completes (e : State × Nat × Nat) (hedge : s.rxdEdge p (s.port p).markSince.isSome = some e)
    (hwarm : s.bit (SP_STAT.WARMING p) = true) (hrun : s.runs .port = true) (hmask : (s.port p).masked = false)
    (hfew : (s.port p).abEdges.length < 7) :
    Completes (.autobaudEdge p) s fun t => (t.port p).abEdges = (s.port p).abEdges ++ [e.2.2] := by
  obtain ⟨u, t, k⟩ := e
  have hu : s.Keeps [] p Port.loopless u := State.Keeps.rxdEdge (fun _ _ => rfl) hedge (.of_canon hcanon)
  have hold : (u.port p).abEdges = (s.port p).abEdges := (congrArg Port.abEdges hu.port_eq :)
  have hlen : ((s.port p).abEdges ++ [k]).length < 8 := by
    rw [List.length_append, List.length_singleton]
    omega
  change ∃ t, execAutobaudEdge p s = .next t ∧ _
  simp only [execAutobaudEdge, hwarm, hrun, hmask, hedge, hold, hlen, Bool.not_false, Bool.and_self, if_true]
  exact ⟨_, rfl, congrArg Port.abEdges (port_setPort_same hu.ports_wf _)⟩

theorem autobaudCancel_completes (hex : s.regExists (SP_AUTOBAUD p) = true) :
    Completes (.autobaudCancel o p) s fun t => t.bit (SP_STAT.WARMING p) = false ∧ t.bit (SP_AUTOBAUD.AB_EN p) = false := by
  obtain ⟨hset, hstore⟩ := autobaud_stored o p hcanon (fldPut (SP_AUTOBAUD.AB_EN p) (s.reg (SP_AUTOBAUD p)) 0) hex
  obtain ⟨hwarm, hkept⟩ := warming_written p hstore.regs_wf hstore.ports_wf false
  refine completes_of_next (if_pos hex) ⟨hwarm, hkept.trans (hset.trans ?_)⟩
  exact getLsbD_fldPut_bit (f := SP_AUTOBAUD.AB_EN p) (by simp [SP_AUTOBAUD.AB_EN]) rfl (s.reg (SP_AUTOBAUD p)) false

end

/-! ## Bindings, the stranger table and the gap -/

/-- The state in which the counters of the stranger that a write of v selects are copied (R97). -/
def State.strangerCopied (s : State) (n : Nat) (v : Word) : State :=
  ((s.wr (SP_STR_SEL.SEL n) (v.toNat % 256)).setReg (SP_STR_FRAMES n)
    (BitVec.ofNat 32 ((s.port n).stranger (v.toNat % 256)).1)).setReg (SP_STR_CHARS n)
    (BitVec.ofNat 32 ((s.port n).stranger (v.toNat % 256)).2)

section
variable {s : State} {n : Nat} (hports : tabWf Port.reset s.ports = true)
include hports

theorem stranger_setStranger (hwf : tabWf (fun _ => (0, 0)) (s.port n).strangers = true) (e : Nat) (x : Nat × Nat) :
    ((s.setStranger n e x).port n).stranger e = x := by
  rw [State.setStranger, port_setPort_same hports, Port.stranger, tabGet_tabPut _ _ _ hwf, if_pos rfl]

theorem stranger_setPort_nil (p : Port) (e : Nat) : ((s.setPort n { p with strangers := [] }).port n).stranger e = (0, 0) := by
  rw [port_setPort_same hports]
  rfl

end

/-- A port without its holding buffer, its flow control and what the release of the held item changes. -/
def Port.heldless (p : Port) : Port := { p.itemless with held := none, sinceEnd := 0, newPacket := false }

section
variable {s : State} {n : Nat} (hn : n < 16) (hregs : tabWf regReset s.regs = true) (hports : tabWf Port.reset s.ports = true)
include hn hregs hports

theorem itemless_putHold (p : Port) : ((s.putHold n p).port n).itemless = p.itemless := by
  have hq : QueueScope (itemFields n) Port.itemless :=
    (⟨hn, fun _ h => h, fun _ _ h => h⟩ : ItemScope (itemFields n) n Port.itemless).queue
  have hset : (s.setPort n p).Keeps (itemFields n) n Port.itemless (s.putHold n p) :=
    .updateFlow hq hn (.putField (.start hregs (tabPut_wf _ _ hports)) (by simp [itemFields]))
  rw [hset.port_eq, port_setPort_same hports]

/-- The release of the held item leaves none (R100). -/
theorem held_releaseHeld (fin : Bool) : ((s.releaseHeld n fin).port n).held = none := by
  unfold State.releaseHeld
  dsimp only
  cases hheld : (s.port n).held with
  | none => exact hheld
  | some i =>
    have hi : ItemScope (itemFields n) n Port.unseen := .unseen hn fun _ h => h
    have hput : s.Keeps (itemFields n) n Port.unseen (s.putHold n { s.port n with
        held := none, sinceEnd := if fin then 0 else (s.port n).sinceEnd, newPacket := (s.port n).newPacket || fin }) :=
      .putHold hi rfl (.start hregs hports)
    have hsent := itemless_sendItem hn hput.regs_wf hput.ports_wf (if fin then i.withEnd else i)
    rw [itemless_putHold hn hregs hports] at hsent
    exact (congrArg Port.held hsent :)

end

theorem itemFields_apart_gap : ∀ p : Fin 16, (itemFields p).all (fun f => f.apart (wholeReg (SP_CNT_GAP p))) = true := by decide +kernel

/-- A gap that expires is counted, and releases the held item (R99, R100). -/
theorem gapExpire_told {s : State} (p : Fin 16) (hregs : tabWf regReset s.regs = true) (hports : tabWf Port.reset s.ports = true) :
    ((s.gapExpire p).port p).gapAt = none ∧ ((s.gapExpire p).port p).held = none ∧
      (s.gapExpire p).reg (SP_CNT_GAP p) = countUp (s.reg (SP_CNT_GAP p)) := by
  have hcounted : tabWf regReset (s.inc (SP_CNT_GAP p)).regs = true := setReg_wf _ _ hregs
  have hi : ItemScope (itemFields p) p Port.heldless := ⟨p.isLt, fun _ h => h, fun _ _ h => by simp only [Port.heldless, h]⟩
  unfold State.gapExpire
  have hport := port_setPort_same (s := s.inc (SP_CNT_GAP p)) (n := p) hports { s.port p with gapAt := none, gapDue := true }
  have hclosed : tabWf Port.reset ((s.inc (SP_CNT_GAP p)).setPort p { s.port p with gapAt := none, gapDue := true }).ports = true :=
    tabPut_wf _ _ hports
  have hreg : ((s.inc (SP_CNT_GAP p)).setPort p { s.port p with gapAt := none, gapDue := true }).reg (SP_CNT_GAP p) =
      countUp (s.reg (SP_CNT_GAP p)) := reg_inc hregs _
  have hwf : tabWf regReset ((s.inc (SP_CNT_GAP p)).setPort p { s.port p with gapAt := none, gapDue := true }).regs = true := hcounted
  dsimp only
  generalize (s.inc (SP_CNT_GAP p)).setPort p { s.port p with gapAt := none, gapDue := true } = u at hport hclosed hreg hwf ⊢
  have hrel : u.Keeps (itemFields p) p Port.heldless (u.releaseHeld p true) :=
    .releaseHeld hi (fun _ _ _ => rfl) (.start hwf hclosed)
  have hsame := hrel.port_eq
  rw [hport] at hsame
  exact ⟨(congrArg Port.gapAt hsame :), held_releaseHeld p.isLt hwf hclosed true, (hrel.reg_eq (itemFields_apart_gap p)).trans hreg⟩

/-- What a rebound queue, an absent one and flow control change beside the binding (R50, R85, R88, R142). -/
def boundFields (n : Nat) : List Fld := queueFields ++ [wholeReg (TW_CNT_STOPDISC n), wholeReg (SP_TEVT n)]

theorem fields_apart_binding : ∀ p : Fin 16, (itemFields p).all (fun f => f.apart CF_STAT.COMMITTED) = true ∧
    ∀ b : Fin 7, (boundFields p).all (fun f => f.apart (wholeReg (bindingReg p b))) = true ∧
      logFields.all (fun f => f.apart (wholeReg (bindingReg p b))) = true ∧ 0x80000 ≤ bindingReg p b := by decide +kernel

/-- A register of the ports stays where it is while the commit does (R22). -/
theorem State.Keeps.regExists_eq {fs : List Fld} {n : Nat} {v : Port → Port} {s t : State} (h : s.Keeps fs n v t)
    (hcommit : fs.all (fun f => f.apart CF_STAT.COMMITTED) = true) (a : Nat) : t.regExists a = s.regExists a := by
  rw [State.regExists, State.regExists, State.committed, State.committed, h.bit_eq hcommit]

theorem State.Keeps.twRebound {fs : List Fld} {n : Nat} {v : Port → Port} {s t : State} {q : Option Nat}
    (hdisc : wholeReg (TW_CNT_STOPDISC n) ∈ fs) (h : s.Keeps fs n v t) : s.Keeps fs n v (t.twRebound n q) := by
  unfold State.twRebound
  split
  · exact .ite (.incBy h.setTw hdisc) h
  · exact h

/-- The state in which a receive queue that is bound anew has closed the held item's packet (R88). -/
def State.packetClosed (s : State) (n b : Nat) (v : Word) : State :=
  if b = 0 ∧ (s.boundQueue (bindingReg n b) == s.bindsTo v) = false then
    (s.releaseHeld n true).setPort n { (s.releaseHeld n true).port n with gapDue := true }
  else s

theorem lowBits_testBit : ∀ i : Fin 16, Nat.testBit 0x8000FFFF i = true := by decide

/-- What follows the store of a binding (R85, R88): a transmit queue bound anew, an absent queue and flow control. -/
theorem bindingWrite_next {s : State} (o : Origin) (p : Fin 16) (b : Fin 7) (v : Word) (hex : s.regExists (bindingReg p b) = true)
    (hregs : tabWf regReset ((s.packetClosed p b v).regStore o (bindingReg p b) v).regs = true)
    (hports : tabWf Port.reset ((s.packetClosed p b v).regStore o (bindingReg p b) v).ports = true) :
    ∃ t, exec (.bindingWrite o p b v) s = .next t ∧
      ((s.packetClosed p b v).regStore o (bindingReg p b) v).Keeps (boundFields p) p Port.unseen t := by
  have hq : QueueScope (boundFields p) Port.unseen := ⟨fun f hf => by simp [boundFields, hf], fun _ _ _ => rfl⟩
  have hdisc : wholeReg (TW_CNT_STOPDISC p) ∈ boundFields p := by simp [boundFields]
  have hevt : wholeReg (SP_TEVT p) ∈ boundFields p := by simp [boundFields]
  have hstart : ((s.packetClosed p b v).regStore o (bindingReg p b) v).Keeps (boundFields p) p Port.unseen
      ((s.packetClosed p b v).regStore o (bindingReg p b) v) := .start hregs hports
  refine ⟨_, if_pos hex, .updateFlow hq p.isLt (.ite (.on ?rebound hevt) ?rebound)⟩
  exact .ite (.twRebound hdisc (hstart.setPort fun _ => rfl)) hstart

section
variable {s : State} (o : Origin) (p : Fin 16) (hcanon : s.canon = true)
include hcanon

theorem bindingWrite_completes (b : Fin 7) (v : Word) (hex : s.regExists (bindingReg p b) = true) :
    Completes (.bindingWrite o p b v) s fun t => (t.reg (bindingReg p b)).getLsbD 31 = v.getLsbD 31 ∧
      (t.reg (bindingReg p b)).toNat % 0x10000 = v.toNat % 0x10000 := by
  obtain ⟨hcommit, hbinding⟩ := fields_apart_binding p
  obtain ⟨hbound, hlog, hbase⟩ := hbinding b
  obtain ⟨-, -, hrow⟩ := portRows_plain p
  have hi : ItemScope (itemFields p) p Port.unseen := .unseen p.isLt fun _ h => h
  have hheld : s.Keeps (itemFields p) p Port.unseen (s.releaseHeld p true) := .releaseHeld hi (fun _ _ _ => rfl) (.of_canon hcanon)
  have hclosed : s.Keeps (itemFields p) p Port.unseen (s.packetClosed p b v) := .ite (hheld.setPort fun _ => rfl) (.of_canon hcanon)
  obtain ⟨new, hbits, hstored⟩ := regStore_told (o := o) (v := v) hclosed.regs_wf hclosed.ports_wf p hbase (hrow b)
    ((hclosed.regExists_eq hcommit _).trans hex)
  obtain ⟨t, hnext, hkeep⟩ := bindingWrite_next o p b v hex hstored.regs_wf hstored.ports_wf
  have hnew : t.reg (bindingReg p b) = new := by
    rw [hkeep.reg_eq hbound, hstored.reg_eq hlog, reg_setReg hclosed.regs_wf, if_pos rfl]
  refine ⟨t, hnext, ?bound, ?queue⟩
  case bound => rw [hnew, hbits 31 (by omega) (by simp [Nat.testBit])]
  case queue =>
    refine Nat.eq_of_testBit_eq fun i => ?_
    rw [hnew, Nat.testBit_mod_two_pow _ 16, Nat.testBit_mod_two_pow _ 16, BitVec.testBit_toNat, BitVec.testBit_toNat]
    by_cases hlow : i < 16
    · rw [hbits i (by omega) (lowBits_testBit ⟨i, hlow⟩)]
    · simp [hlow]

theorem strangerSelect_completes (m : Master) (v : Word) (hex : s.regExists (SP_STR_SEL p) = true)
    (hwf : tabWf (fun _ => (0, 0)) (s.port p).strangers = true) :
    Completes (.strangerSelect m p v) s fun t =>
      t.reg (SP_STR_FRAMES p) = BitVec.ofNat 32 ((s.port p).stranger (v.toNat % 256)).1 ∧
      t.reg (SP_STR_CHARS p) = BitVec.ofNat 32 ((s.port p).stranger (v.toNat % 256)).2 ∧
      ((v.getLsbD 30 || v.getLsbD 31) = true → (t.port p).stranger (v.toNat % 256) = (0, 0)) := by
  have hregs := State.regs_wf_of_canon hcanon
  have hports := State.ports_wf_of_canon hcanon
  have hsel : tabWf regReset (s.wr (SP_STR_SEL.SEL p) (v.toNat % 256)).regs = true := setReg_wf _ _ hregs
  obtain ⟨t, hnext, hframes, hchars, hport⟩ : ∃ t, exec (.strangerSelect m p v) s = .next t ∧
      t.reg (SP_STR_FRAMES p) = (s.strangerCopied p v).reg (SP_STR_FRAMES p) ∧
      t.reg (SP_STR_CHARS p) = (s.strangerCopied p v).reg (SP_STR_CHARS p) ∧
      ((v.getLsbD 30 || v.getLsbD 31) = true → (t.port p).stranger (v.toNat % 256) = (0, 0)) := by
    refine ⟨_, if_pos hex, ?_⟩
    cases hone : v.getLsbD 30 <;> cases hall : v.getLsbD 31
    case false.false => exact ⟨rfl, rfl, by simp⟩
    case true.false => exact ⟨rfl, rfl, fun _ => stranger_setStranger (s := s.strangerCopied p v) hports hwf _ _⟩
    case false.true => exact ⟨rfl, rfl, fun _ => stranger_setPort_nil (s := s.strangerCopied p v) hports _ _⟩
    case true.true => exact ⟨rfl, rfl, fun _ => stranger_setPort_nil (tabPut_wf _ _ hports) _ _⟩
  refine ⟨t, hnext, hframes.trans ?frames, hchars.trans ?chars, hport⟩
  case frames => rw [State.strangerCopied, reg_setReg_ne (by simp [SP_STR_FRAMES, SP_STR_CHARS]), reg_setReg hsel, if_pos rfl]
  case chars => rw [State.strangerCopied, reg_setReg (setReg_wf _ _ hsel), if_pos rfl]

theorem gapExpiry_completes (hgap : (s.port p).gapAt.isSome = true) (hchar : (s.port p).rxChar = none) (hrun : s.runs .port = true) :
    Completes (.gapExpiry p) s fun t => (t.port p).gapAt = none ∧ (t.port p).held = none ∧
      t.reg (SP_CNT_GAP p) = countUp (s.reg (SP_CNT_GAP p)) := by
  obtain ⟨g, hgap⟩ := Option.isSome_iff_exists.1 hgap
  have htime : s.Keeps [] p id (s.runTo (divUp g 65536)) := .runTo (.of_canon hcanon)
  obtain ⟨hover, hreleased, hcount⟩ := gapExpire_told p htime.regs_wf htime.ports_wf
  refine ⟨_, ?next, hover, hreleased, hcount.trans (by rw [htime.reg_eq rfl])⟩
  change execGapExpiry p s = _
  simp [execGapExpiry, hgap, hchar, hrun]

end

/-- Settles O12: the record of a write, the items that a setting releases, flow control and the guardian leave
the field written as it is. -/
theorem serialSettingsComplete : Obligations.SerialSettingsComplete := by
  unfold Obligations.SerialSettingsComplete
  refine ⟨?rxEn, ?txEn, ?baudcfg, ?rate, ?settled, ?format, ?start, ?edge, ?cancel, ?binding, ?stranger, ?gap⟩
  case rxEn => exact fun s o p en mark hcanon hex => rxEnWrite_completes o p hcanon en mark hex
  case txEn => exact fun s o p en hcanon hex => txEnWrite_completes o p hcanon en hex
  case baudcfg => exact fun s o p v hcanon hex => baudcfgWrite_completes o p hcanon v hex
  case rate =>
    exact fun s p hcanon r hrate ⟨hchar, hcand⟩ ⟨hsettle, htw, hrun⟩ =>
      baudChangeApply_completes p hcanon r hrate hchar hcand hsettle htw hrun
  case settled => exact fun s p hcanon hsettle => baudSettlingEnd_completes p hcanon hsettle
  case format => exact fun s p tx hcanon hchar => frameFormatApply_completes p hcanon tx hchar
  case start => exact fun s o p apply hcanon ⟨hex, hchar⟩ => autobaudStart_completes o p hcanon apply hex hchar
  case edge =>
    exact fun s p hcanon e hedge ⟨hwarm, hrun, hmask, hfew⟩ => autobaudEdge_completes p hcanon e hedge hwarm hrun hmask hfew
  case cancel => exact fun s o p hcanon hex => autobaudCancel_completes o p hcanon hex
  case binding => exact fun s o p b v hcanon hex => bindingWrite_completes o p hcanon b v hex
  case stranger => exact fun s m p v hcanon hex hwf => strangerSelect_completes p hcanon m v hex hwf
  case gap => exact fun s p hcanon ⟨hgap, hchar, hrun⟩ => gapExpiry_completes p hcanon hgap hchar hrun

end Sys2Proof.Machine
end

section
/-!
SUPPORT. The launch registers of a port, and what the rise of DE and the start of a character on TXD change (R41, R47, R68, R102, R104,
R106 to R108).
-/
namespace Sys2Proof.Machine

/-! ## Launch registers -/

theorem Port.launch_setLaunch {p : Port} (hwf : tabWf (fun _ => none) p.launches = true) (k : Nat) (x : Option Launch) :
    (p.setLaunch k x).launch k = x := by
  rw [Port.setLaunch, Port.launch, tabGet_tabPut _ _ _ hwf, if_pos rfl]

/-- A launch without the queue whose packet it waits for. -/
def Launch.unbehind (l : Launch) : Launch := { l with behind := none }

/-- The view of a port that sees its launch registers, but not which packets the launches wait for (R108). -/
def Port.launchView (p : Port) : Port := { launches := p.launches.map fun e => (e.1, e.2.map Launch.unbehind) }

/-- A change of the queues that the launches wait for. -/
theorem Port.launchView_map {f : Nat → Launch → Launch} (hf : ∀ j l, (f j l).unbehind = l.unbehind) (p : Port) :
    ({ p with launches := p.launches.map fun e => (e.1, e.2.map (f e.1)) } : Port).launchView = p.launchView := by
  have hsame : ∀ j, Launch.unbehind ∘ f j = Launch.unbehind := fun j => funext (hf j)
  simp only [Port.launchView, List.map_map, Function.comp_def, Option.map_map, hf]

theorem Port.launchView_packetOver (p : Port) (q : Nat) : (p.packetOver q).launchView = p.launchView :=
  Port.launchView_map (f := fun _ l => if l.behind = some q then { l with behind := none } else l)
    (fun _ _ => by split_ifs <;> rfl) p

theorem Port.launchView_started (p : Port) (q : Option Nat) (fin : Nat) (hold : Option Nat) (last : Bool) :
    (p.started q fin hold last).launchView = p.launchView := by
  unfold Port.started
  cases q with
  | none => rfl
  | some j =>
    cases last with
    | false => rfl
    | true => exact Port.launchView_packetOver _ j

theorem tabGet_map_snd (f : Launch → Launch) (t : Tab (Option Launch)) (k : Nat) :
    tabGet (fun _ => none) (t.map fun e => (e.1, e.2.map f)) k = (tabGet (fun _ => none) t k).map f := by
  induction t with
  | nil => rfl
  | cons e r ih =>
    simp only [List.map_cons, tabGet, ih]
    split_ifs <;> rfl

/-- The view sees which launch registers are occupied, and for when. -/
theorem Port.launch_at_of_launchView {p q : Port} (h : p.launchView = q.launchView) (k : Nat) :
    (p.launch k).map Launch.at_ = (q.launch k).map Launch.at_ := by
  have hview : ∀ r : Port, (r.launch k).map Launch.at_ = (r.launchView.launch k).map Launch.at_ := fun r => by
    rw [Port.launchView, Port.launch, Port.launch, tabGet_map_snd, Option.map_map]
    rfl
  rw [hview p, h, ← hview q]

theorem Port.launch_none_of_launchView {p q : Port} (h : p.launchView = q.launchView) {k : Nat} (hq : q.launch k = none) :
    p.launch k = none := by
  have hat := Port.launch_at_of_launchView h k
  rwa [hq, Option.map_none, Option.map_eq_none_iff] at hat

/-- The launches that a packet on TXD delays wait for its queue (R108). -/
theorem State.launchesBehind_eq (s : State) (n q d : Nat) :
    ∃ f : Nat → Launch → Launch, (∀ j l, (f j l).unbehind = l.unbehind) ∧ s.launchesBehind n q d =
      s.setPort n { s.port n with launches := (s.port n).launches.map fun e => (e.1, e.2.map (f e.1)) } := by
  refine ⟨fun j l =>
    if j ≠ q ∧ l.far = false ∧ l.behind = none ∧ s.now ≤ s.launchRise n l.at_ ∧ s.launchRise n l.at_ < s.now + d then
      { l with behind := some q } else l, fun _ _ => ?_, rfl⟩
  dsimp only
  split_ifs <;> rfl

/-! ## The start of a character -/

/-- The registers and bits that the start of a character of port n changes beside its counter (R41, R68, R102, R104). -/
def startFields (n : Nat) : List Fld :=
  queueFields ++ [SP_TEVT.STAMP_DROP n] ++
    [SP_CNT_STAMPDROP n, SP_TXSTAMP_NS n, SP_TXSTAMP_SL n, SP_TXSTAMP_SH n, SP_TX_SEQ n].map wholeReg

theorem startFields_apart : ∀ p : Fin 16, (startFields p).all (fun f => f.apart (wholeReg (SP_CNT_TXCHAR p))) = true ∧
    (startFields p).all (fun f => f.apart (wholeReg (SP_CNT_LATE p))) = true ∧
    (startFields p).all (fun f => f.apart (SP_TEVT.LATE p)) = true := by decide +kernel

theorem queueScope_startFields (n : Nat) : QueueScope (startFields n) Port.launchView where
  fields _ hf := by simp [startFields, hf]
  view _ _ h := (congrArg Port.launchView h :)

namespace State.Keeps
section
variable {fs : List Fld} {n d : Nat} {v : Port → Port} {s t : State}

theorem advanceTo (h : s.Keeps fs n v t) : s.Keeps fs n v (t.advanceTo d) :=
  .ite (h.same (t.elapse_regs _) (t.elapse_ports _)) h

/-- The rise of DE on a port that runs no schedule (R47, R48). -/
theorem raiseDe_unscheduled (hview : ∀ p x y, v { p with de := true, deRise := x, heldAt := none, deFor := none, masked := y } = v p)
    (htw : t.twRuns n = false) (h : s.Keeps fs n v t) : s.Keeps fs n v (t.raiseDe n) := by
  unfold State.raiseDe
  dsimp only
  generalize hu : t.setPort n _ = u
  have hup : s.Keeps fs n v u := hu ▸ h.setPort fun hn => hn ▸ hview _ _ _
  have hrun : u.twRuns n = false := hu ▸ htw
  rw [if_neg (by rw [hrun]; decide)]
  exact .ite hup (hup.same rfl rfl)

theorem sendWave {x : Nat} {bits : List Bool} (hview : ∀ p w, v { p with waves := w } = v p) (h : s.Keeps fs n v t) :
    s.Keeps fs n v (t.sendWave n x bits) := by
  have hwave : s.Keeps fs n v (t.setPort n { t.port n with waves :=
      { start := x, bit := t.bitTime n, levels := bits } :: (t.port n).waves.take 3 }) := h.setPort fun _ => hview _ _
  exact .ite hwave (hwave.same rfl rfl)

end

section
variable {n k d q x a stamp kind seq : Nat} {s t : State} {ws : List QWord}

theorem launchesBehind {fs : List Fld} (h : s.Keeps fs n Port.launchView t) :
    s.Keeps fs n Port.launchView (t.launchesBehind n q d) := by
  obtain ⟨f, hf, heq⟩ := t.launchesBehind_eq n q d
  rw [heq]
  exact h.setPort fun _ => Port.launchView_map hf _

theorem stampTogether (h : s.Keeps (startFields n) n Port.launchView t) :
    s.Keeps (startFields n) n Port.launchView (t.pushTogether k ws).2 := by
  unfold State.pushTogether
  split
  · exact h.pushWhole (queueScope_startFields n)
  · exact h.push (queueScope_startFields n)

/-- A stamp record that is refused is told in STAMP_DROP, and in no other bit of SP_TEVT (R104). -/
theorem stampRecord (h : s.Keeps (startFields n) n Port.launchView t) :
    s.Keeps (startFields n) n Port.launchView (t.pushRecord n a stamp kind seq) := by
  have hdrop : wholeReg (SP_CNT_STAMPDROP n) ∈ startFields n := by simp [startFields]
  have hevt : SP_TEVT.STAMP_DROP n ∈ startFields n := by simp [startFields]
  unfold State.pushRecord
  split
  case h_1 => exact h
  case h_2 k _ =>
    have hpush : s.Keeps (startFields n) n Port.launchView (t.pushTogether k (Machine.stampRecord stamp kind seq)).2 := h.stampTogether
    split
    case h_1 s' hres =>
      rw [hres] at hpush
      exact .wrField (hpush.inc hdrop) hevt
    case h_2 s' hres =>
      rw [hres] at hpush
      exact hpush

theorem txStamp (h : s.Keeps (startFields n) n Port.launchView t) :
    s.Keeps (startFields n) n Port.launchView (t.txStamp n kind seq) := by
  have hns : wholeReg (SP_TXSTAMP_NS n) ∈ startFields n := by simp [startFields]
  have hsl : wholeReg (SP_TXSTAMP_SL n) ∈ startFields n := by simp [startFields]
  have hsh : wholeReg (SP_TXSTAMP_SH n) ∈ startFields n := by simp [startFields]
  exact .stampRecord (.wr (h.setStamp hns hsl hsh) hsh)

end
end State.Keeps

/-- The state in which a character that starts is on TXD and counted (R41), before its stamp and what it delays. -/
def State.charShown (s : State) (n : Nat) (w : QWord) (x : Nat) : State :=
  ((s.runTo (divUp x 65536)).sendWave n x (txBits (frameFmt ((s.runTo (divUp x 65536)).port n).txFmt.frame)
    ((s.runTo (divUp x 65536)).txChar n (frameFmt ((s.runTo (divUp x 65536)).port n).txFmt.frame) w) w.err)).inc (SP_CNT_TXCHAR n)

section
variable {s : State} {n : Nat} (hregs : tabWf regReset s.regs = true) (hports : tabWf Port.reset s.ports = true)
  (w : QWord) (q : Option Nat) (x kind : Nat)
include hregs hports

theorem keeps_charShown : s.Keeps [wholeReg (SP_CNT_TXCHAR n)] n Port.launchView (s.charShown n w x) :=
  .inc (.sendWave (fun _ _ => rfl) (.runTo (.start hregs hports))) (by simp)

theorem reg_charShown : (s.charShown n w x).reg (SP_CNT_TXCHAR n) = countUp (s.reg (SP_CNT_TXCHAR n)) := by
  have hwave (bits : List Bool) : s.Keeps [] n Port.launchView ((s.runTo (divUp x 65536)).sendWave n x bits) :=
    .sendWave (fun _ _ => rfl) (.runTo (.start hregs hports))
  rw [State.charShown, reg_inc (hwave _).regs_wf, (hwave _).reg_eq rfl]

/-- A character that is shown and counted then changes startFields (R54, R68, R102, R104, R108). -/
theorem keeps_sendChar : (s.charShown n w x).Keeps (startFields n) n Port.launchView (s.sendChar n w q x kind) := by
  have hseq : wholeReg (SP_TX_SEQ n) ∈ startFields n := by simp [startFields]
  have hshown := keeps_charShown (n := n) hregs hports w x
  unfold State.sendChar
  extract_lets s₁ f c fin arg hold seq s₂ s₃ s₄
  have hnumbered : (s.charShown n w x).Keeps (startFields n) n Port.launchView s₂ :=
    .setReg (.start hshown.regs_wf hshown.ports_wf) hseq
  have hstamped : (s.charShown n w x).Keeps (startFields n) n Port.launchView s₃ := .ite hnumbered.txStamp hnumbered
  have hdelayed : (s.charShown n w x).Keeps (startFields n) n Port.launchView s₄ := by
    cases q with
    | none => exact hstamped
    | some k => exact .ite hstamped hstamped.launchesBehind
  exact hdelayed.setPort fun _ => Port.launchView_started _ q fin hold w.fin

end

end Sys2Proof.Machine
end

section
/-!
SUPPORT. The launches in 03_serial_addressing.md: a launch is loaded, leaves far hold, and leaves on its time or late.
-/
namespace Sys2Proof.Machine

/-! ## A launch leaves -/

/-- What is true when queue k's launch of port n has left (R84, R107): its register is free, and its character is counted; whether
it is late is not told here. -/
structure State.Launched (s : State) (n k : Nat) (t : State) : Prop where
  free : (t.port n).launch k = none
  counted : t.reg (SP_CNT_TXCHAR n) = countUp (s.reg (SP_CNT_TXCHAR n))
  late_count : t.reg (SP_CNT_LATE n) = s.reg (SP_CNT_LATE n)
  late_bit : t.bit (SP_TEVT.LATE n) = s.bit (SP_TEVT.LATE n)

/-- A launch frees its register, sends its character, and then may say which queue goes on (R89, R109). -/
theorem State.launch_eq (s : State) (n k : Nat) (l : Launch) (x kind : Nat) :
    ∃ q after, q.launches = ((s.port n).setLaunch k none).launches ∧ s.launch n k l x kind =
      ((s.setPort n q).sendChar n l.word (some k) x kind).setPort n
        { ((s.setPort n q).sendChar n l.word (some k) x kind).port n with after := after } := by
  refine ⟨_, _, ?_, rfl⟩
  rfl

theorem launched_launch {s : State} (p : Fin 16) (hregs : tabWf regReset s.regs = true) (hports : tabWf Port.reset s.ports = true)
    (hwf : tabWf (fun _ => none) (s.port p).launches = true) (k : Nat) (l : Launch) (x kind : Nat) :
    s.Launched p k (s.launch p k l x kind) := by
  obtain ⟨hchar, hcount, hlate⟩ := startFields_apart p
  obtain ⟨q, after, hq, heq⟩ := s.launch_eq p k l x kind
  have hfree : ((s.setPort p q).port p).launch k = none := by
    rw [port_setPort_same hports, Port.launch, hq]
    exact Port.launch_setLaunch hwf k none
  have hwfq : tabWf Port.reset (s.setPort p q).ports = true := tabPut_wf _ _ hports
  have hshown : (s.setPort p q).Keeps [wholeReg (SP_CNT_TXCHAR p)] p Port.launchView ((s.setPort p q).charShown p l.word x) :=
    keeps_charShown (s := s.setPort p q) hregs hwfq l.word x
  have hcounted : ((s.setPort p q).charShown p l.word x).reg (SP_CNT_TXCHAR p) = countUp (s.reg (SP_CNT_TXCHAR p)) :=
    reg_charShown (s := s.setPort p q) hregs hwfq l.word x
  have hsent : ((s.setPort p q).charShown p l.word x).Keeps (startFields p) p Port.launchView (s.launch p k l x kind) :=
    heq ▸ (keeps_sendChar (s := s.setPort p q) hregs hwfq l.word (some k) x kind).setPort fun _ => rfl
  exact
    { free := Port.launch_none_of_launchView (hsent.port_eq.trans hshown.port_eq) hfree
      counted := (hsent.reg_eq hchar).trans hcounted
      late_count := (hsent.reg_eq hcount).trans (hshown.reg_eq (by simp [Fld.apart, wholeReg, SP_CNT_TXCHAR, SP_CNT_LATE]))
      late_bit := (hsent.bit_eq hlate).trans (hshown.bit_eq (by simp [Fld.apart, wholeReg, SP_CNT_TXCHAR, SP_TEVT.LATE, SP_TEVT])) }

/-! ## Loading and far hold -/

/-- The launch that item i of the prefetch becomes (R105, R106). -/
def State.loadedLaunch (s : State) (i : PreItem) : Launch where
  word := i.word
  at_ := Machine.launchTime s.now (i.times.getD 0 0).toNat (i.times.getD 1 0).toNat
  far := false
  loaded := s.time.tick

theorem at_loadedLaunch (s : State) (i : PreItem) :
    (s.loadedLaunch i).at_ = launchTime s.now (i.times.getD 0 0).toNat (i.times.getD 1 0).toNat := by rw [State.loadedLaunch]

/-- The check of a launch's distance changes its far hold, and nothing else of the ports (R107, R110). -/
theorem State.checkFar_ports {s : State} {n k : Nat} {l : Launch} (hl : (s.port n).launch k = some l) :
    ∃ far, (s.checkFar n k).ports = (s.setPort n ((s.port n).setLaunch k (some { l with far := far }))).ports := by
  refine ⟨decide (s.now + farLimit < l.at_), ?_⟩
  simp only [State.checkFar, hl]
  split_ifs <;> rfl

/-- The state in which LAUNCH_AT item i, which was at the head of the prefetch of port n, is in its queue's launch register (R106, R107). -/
def State.loaded (s : State) (n : Nat) (i : PreItem) : State :=
  (s.setPort n ({ s.port n with prefetch := (s.port n).prefetch.tail }.setLaunch i.q (some (s.loadedLaunch i)))).checkFar n i.q

/-- The launch is loaded, and may then wait for a packet that is on TXD (R108). -/
theorem execLaunchRegisterLoad_next {s : State} (p : Fin 16) (i : PreItem) (hhead : (s.port p).prefetch.head? = some i)
    (hctrl : txCtrl i.word = 2) (htimes : i.times.length = 2) (hfree : (s.port p).launch i.q = none) :
    ∃ t, execLaunchRegisterLoad p s = .next t ∧ (t = s.loaded p i ∨ ∃ j d, t = (s.loaded p i).launchesBehind p j d) := by
  have hcons : (s.port p).prefetch = i :: (s.port p).prefetch.tail := List.eq_cons_of_mem_head? hhead
  unfold State.loaded execLaunchRegisterLoad
  generalize (s.port p).prefetch.tail = r at hcons
  simp only [hcons, hctrl, htimes, hfree, Option.isNone_none, and_self, if_true]
  refine ⟨_, rfl, ?_⟩
  cases (s.port p).mid with
  | none => exact .inl rfl
  | some j =>
    dsimp only
    split_ifs
    · exact .inl rfl
    · exact .inr ⟨j, _, rfl⟩

theorem loaded_port {s : State} {n : Nat} (hports : tabWf Port.reset s.ports = true)
    (hwf : tabWf (fun _ => none) (s.port n).launches = true) (i : PreItem) :
    tabWf Port.reset (s.loaded n i).ports = true ∧ ((s.loaded n i).port n).prefetch = (s.port n).prefetch.tail ∧
      (((s.loaded n i).port n).launch i.q).map Launch.at_ = some (s.loadedLaunch i).at_ := by
  unfold State.loaded
  generalize hq : ({ s.port n with prefetch := (s.port n).prefetch.tail } : Port).setLaunch i.q (some (s.loadedLaunch i)) = q
  have hqwf : tabWf (fun _ => none) q.launches = true := hq ▸ tabPut_wf _ _ hwf
  have hset : tabWf Port.reset (s.setPort n q).ports = true := tabPut_wf _ _ hports
  have hport : (s.setPort n q).port n = q := port_setPort_same hports q
  have hloaded : ((s.setPort n q).port n).launch i.q = some (s.loadedLaunch i) := by
    rw [hport, ← hq]
    exact Port.launch_setLaunch hwf _ _
  obtain ⟨far, hfar⟩ := State.checkFar_ports hloaded
  have hchecked : ((s.setPort n q).checkFar n i.q).port n = q.setLaunch i.q (some { s.loadedLaunch i with far := far }) := by
    rw [State.port, hfar, hport]
    exact port_setPort_same hset _
  refine ⟨hfar ▸ tabPut_wf _ _ hset, ?left, ?register⟩
  case left =>
    rw [hchecked, ← hq]
    rfl
  case register => rw [hchecked, Port.launch_setLaunch hqwf, Option.map_some]

section
variable {s : State} (p : Fin 16) (hcanon : s.canon = true)
include hcanon

theorem launchRegisterLoad_completes (i : PreItem) (hhead : (s.port p).prefetch.head? = some i)
    (hwf : tabWf (fun _ => none) (s.port p).launches = true) (hctrl : txCtrl i.word = 2) (htimes : i.times.length = 2)
    (hfree : (s.port p).launch i.q = none) :
    Completes (.launchRegisterLoad p) s fun t => (t.port p).prefetch = (s.port p).prefetch.tail ∧
      ((t.port p).launch i.q).map Launch.at_ = some (launchTime s.now (i.times.getD 0 0).toNat (i.times.getD 1 0).toNat) := by
  obtain ⟨hports, hleft, hregister⟩ := loaded_port (State.ports_wf_of_canon hcanon) hwf i
  rw [at_loadedLaunch] at hregister
  obtain ⟨t, hnext, ht⟩ := execLaunchRegisterLoad_next p i hhead hctrl htimes hfree
  refine completes_of_next hnext ?_
  rcases ht with rfl | ⟨j, d, rfl⟩
  · exact ⟨hleft, hregister⟩
  · obtain ⟨f, hf, heq⟩ := (s.loaded p i).launchesBehind_eq p j d
    rw [heq, port_setPort_same hports]
    exact ⟨hleft, (Port.launch_at_of_launchView (Port.launchView_map hf _) _).trans hregister⟩

theorem farHoldEnd_completes (k : Fin 4) (l : Launch) (hl : (s.port p).launch k = some l)
    (hwf : tabWf (fun _ => none) (s.port p).launches = true) (hfar : l.far = true) :
    Completes (.farHoldEnd p k) s fun t => (t.port p).launch k = some { l with far := false } := by
  have htime (d : Nat) : s.Keeps [] p id (s.advanceTo d) := .advanceTo (.of_canon hcanon)
  have hport (d : Nat) : (s.advanceTo d).port p = s.port p := (htime d).port_eq
  change ∃ t, execFarHoldEnd p k s = .next t ∧ _
  simp only [execFarHoldEnd, hl, hfar, if_true, hport]
  exact ⟨_, rfl, by rw [port_setPort_same (htime _).ports_wf, Port.launch_setLaunch hwf]⟩

end

/-! ## The start edge of a launch -/

/-- The view of a port that sees its launch registers alone. -/
def Port.launchesOnly (p : Port) : Port := { launches := p.launches }

section
variable {s u : State} (p : Fin 16) (k : Fin 4) (l : Launch)

/-- DE rises for a launch outside a schedule (R107): the registers and the launches stay as they are. -/
theorem keeps_raised (hkeeps : s.Keeps [] p Port.launchesOnly u) (htx : s.txOn p = true) :
    s.Keeps [] p Port.launchesOnly (u.raiseDe p) := by
  have htw : s.twRuns p = false := by
    simp only [State.txOn, Bool.and_eq_true, Bool.not_eq_true'] at htx
    exact htx.2
  exact hkeeps.raiseDe_unscheduled (fun _ _ _ => rfl) ((hkeeps.bit_eq rfl).trans htw)

/-- At a start edge whose launch registers and counters are still those of s, the launch frees its register and is counted. -/
theorem launched_of_keeps (hkeeps : s.Keeps [] p Port.launchesOnly u) (hwf : tabWf (fun _ => none) (s.port p).launches = true)
    (x kind : Nat) : ((u.launch p k l x kind).port p).launch k = none ∧
      (u.launch p k l x kind).reg (SP_CNT_TXCHAR p) = countUp (s.reg (SP_CNT_TXCHAR p)) := by
  have hsame : (u.port p).launches = (s.port p).launches := (congrArg Port.launches hkeeps.port_eq :)
  have hleft := launched_launch p hkeeps.regs_wf hkeeps.ports_wf (hsame ▸ hwf) k l x kind
  exact ⟨hleft.free, hleft.counted.trans (by rw [hkeeps.reg_eq rfl])⟩

/-- The state in which a late launch is told (R108). -/
def State.lateTold (s : State) (n late : Nat) : State :=
  ((s.on (SP_TEVT.LATE n)).inc (SP_CNT_LATE n)).setReg (SP_TTX_LATEBY n) (BitVec.ofNat 32 (sat32 late))

theorem lateTold_told (hregs : tabWf regReset s.regs = true) (late : Nat) :
    (s.lateTold p late).bit (SP_TEVT.LATE p) = true ∧ (s.lateTold p late).reg (SP_CNT_LATE p) = countUp (s.reg (SP_CNT_LATE p)) := by
  have hshown : tabWf regReset (s.on (SP_TEVT.LATE p)).regs = true := setReg_wf _ _ hregs
  constructor
  · rw [State.lateTold, State.bit, State.rd, reg_setReg_ne (by simp [SP_TEVT.LATE, SP_TEVT, SP_TTX_LATEBY])]
    change ((s.on (SP_TEVT.LATE p)).inc (SP_CNT_LATE p)).bit (SP_TEVT.LATE p) = true
    rw [bit_inc_ne (by simp [SP_TEVT.LATE, SP_TEVT, SP_CNT_LATE])]
    exact bit_on hregs (by simp [SP_TEVT.LATE]) rfl
  · rw [State.lateTold, reg_setReg_ne (by simp [SP_CNT_LATE, SP_TTX_LATEBY]), reg_inc hshown, State.on,
      reg_wr_ne (by simp [SP_CNT_LATE, SP_TEVT.LATE, SP_TEVT])]

/-- A late launch frees its register, and stays told and counted when its character starts (R104, R108). -/
theorem launched_late (hkeeps : s.Keeps [] p Port.launchesOnly u) (hwf : tabWf (fun _ => none) (s.port p).launches = true)
    (late x : Nat) : (((u.lateTold p late).launch p k l x 9).port p).launch k = none ∧
      ((u.lateTold p late).launch p k l x 9).bit (SP_TEVT.LATE p) = true ∧
      ((u.lateTold p late).launch p k l x 9).reg (SP_CNT_LATE p) = countUp (s.reg (SP_CNT_LATE p)) := by
  obtain ⟨hbit, hcount⟩ := lateTold_told p hkeeps.regs_wf late
  have hsame : (u.port p).launches = (s.port p).launches := (congrArg Port.launches hkeeps.port_eq :)
  have hregs : tabWf regReset (u.lateTold p late).regs = true := setReg_wf _ _ (setReg_wf _ _ (setReg_wf _ _ hkeeps.regs_wf))
  have hleft := launched_launch (s := u.lateTold p late) p hregs hkeeps.ports_wf (hsame ▸ hwf) k l x 9
  exact ⟨hleft.free, hleft.late_bit.trans hbit, hleft.late_count.trans (hcount.trans (by rw [hkeeps.reg_eq rfl]))⟩

section
variable (hcanon : s.canon = true) (hl : (s.port p).launch k = some l) (hwf : tabWf (fun _ => none) (s.port p).launches = true)
include hcanon hl hwf

theorem launchOnTime_completes (htime : s.onTime p k l = true) (hde : (s.port p).de = false ∨ (s.port p).deFor ≠ some k.val) :
    Completes (.launchOnTime p k) s fun t => (t.port p).launch k = none ∧
      t.reg (SP_CNT_TXCHAR p) = countUp (s.reg (SP_CNT_TXCHAR p)) := by
  have htx : s.txOn p = true := by
    simp only [State.onTime, Bool.and_eq_true] at htime
    tauto
  have hnew : ¬ ((s.port p).de = true ∧ (s.port p).deFor = some k.val) := by
    rcases hde with hdown | hother
    · simp [hdown]
    · simp [hother]
  have hedge : s.Keeps [] p Port.launchesOnly ((if s.lineMode p = 2 ∧ (s.port p).de = false then
      (s.advanceTo (l.at_ - s.rd (SP_DE_PRE.DE_PRE p))).raiseDe p else s).advanceTo l.at_) :=
    .advanceTo (.ite (keeps_raised p (.advanceTo (.of_canon hcanon)) htx) (.of_canon hcanon))
  change ∃ t, execLaunchOnTime p k s = .next t ∧ _
  simp only [execLaunchOnTime, hl, hnew, htime, if_false, if_true]
  exact ⟨_, rfl, launched_of_keeps p k l hedge hwf _ 8⟩

theorem launchLate_completes (htx : s.txOn p = true) (hnear : l.far = false) (hheld : s.txHeld p false = false)
    (hflow : (s.port p).xpend = []) (hbehind : l.behind = none) (hlate : s.onTime p k l = false) :
    Completes (.launchLate p k) s fun t => (t.port p).launch k = none ∧ t.bit (SP_TEVT.LATE p) = true ∧
      t.reg (SP_CNT_LATE p) = countUp (s.reg (SP_CNT_LATE p)) := by
  have hedge (x : Nat) : s.Keeps [] p Port.launchesOnly (((if s.lineMode p = 2 ∧ (s.port p).de = false then s.raiseDe p else s).runTo
      x).advanceTo l.at_) := .advanceTo (.runTo (.ite (keeps_raised p (.of_canon hcanon) htx) (.of_canon hcanon)))
  change ∃ t, execLaunchLate p k s = .next t ∧ _
  simp only [execLaunchLate, hl, htx, hnear, hheld, hflow, hbehind, hlate, Option.isSome_none, Bool.false_and, Bool.true_eq_false,
    Bool.false_eq_true, ne_eq, not_true_eq_false, or_self, if_false]
  exact ⟨_, rfl, launched_late p k l (hedge _) hwf _ _⟩

end
end

/-- Settles O14: the rise of DE and the passing of time keep the launch registers, and the start of a character keeps a freed register free
and what is told of a late launch. -/
theorem launchesComplete : Obligations.LaunchesComplete := by
  unfold Obligations.LaunchesComplete
  refine ⟨?load, ?far, ?onTime, ?late⟩
  case load =>
    exact fun s p hcanon i hhead hwf ⟨hctrl, htimes, hfree⟩ => launchRegisterLoad_completes p hcanon i hhead hwf hctrl htimes hfree
  case far => exact fun s p k hcanon l hl hwf hfar => farHoldEnd_completes p hcanon k l hl hwf hfar
  case onTime => exact fun s p k hcanon l hl hwf ⟨htime, hde⟩ => launchOnTime_completes p k l hcanon hl hwf htime hde
  case late =>
    exact fun s p k hcanon l hl hwf ⟨htx, hnear, hheld, hflow, hbehind, hlate⟩ =>
      launchLate_completes p k l hcanon hl hwf htx hnear hheld hflow hbehind hlate

end Sys2Proof.Machine
end

section
/-!
SUPPORT. What records, interrupts, outputs, words that enter a queue and the start of a character leave alone: the schedules, device time and
the domains that stand still.
-/
namespace Sys2Proof.Machine

/-! ## Records, interrupts and outputs -/

/-- The state without what a record, an interrupt and an output change: the registers, the log, the interrupt controller, the outputs. -/
def State.untold (s : State) : State := { s with regs := [], log := {}, eic := {}, out := [] }

/-- From s to t only registers, the log, the interrupt controller and the outputs change. As a relation to a fixed s, so that a proof follows
the updates one by one. -/
structure State.Signals (s t : State) : Prop where
  untold_eq : t.untold = s.untold

namespace State.Signals
section
variable {s t u : State}

theorem start : s.Signals s := ⟨rfl⟩

theorem trans (hst : s.Signals t) (htu : t.Signals u) : s.Signals u := ⟨htu.untold_eq.trans hst.untold_eq⟩

theorem tws_eq (h : s.Signals t) : t.tws = s.tws := (congrArg State.tws h.untold_eq :)
theorem ports_eq (h : s.Signals t) : t.ports = s.ports := (congrArg State.ports h.untold_eq :)
theorem time_eq (h : s.Signals t) : t.time = s.time := (congrArg State.time h.untold_eq :)
theorem stopped_eq (h : s.Signals t) : t.stopped = s.stopped := (congrArg State.stopped h.untold_eq :)
theorem tw_eq (h : s.Signals t) (n : Nat) : t.tw n = s.tw n := by rw [State.tw, h.tws_eq, State.tw]

theorem ite {c : Prop} [Decidable c] (ht : s.Signals t) (hu : s.Signals u) : s.Signals (if c then t else u) := by
  split_ifs
  · exact ht
  · exact hu

theorem foldl {α : Type} {f : State → α → State} (l : List α) (hf : ∀ t a, s.Signals t → s.Signals (f t a)) (h : s.Signals t) :
    s.Signals (l.foldl f t) := List.foldlRecOn l f h fun t ht a _ => hf t a ht

end

section
variable {s t : State} {r : List Word} {rs : List (List Word)} {c code k n : Nat} {late : Bool} {o : Origin} {pay : List Word}
  {nums : List Nat} {a : Nat} {v new old : Word} {x : Out}

theorem setReg (h : s.Signals t) : s.Signals (t.setReg a v) := ⟨h.untold_eq⟩

theorem logRecord (h : s.Signals t) : s.Signals (t.logRecord r) := by
  have hroom : s.Signals (if t.logCap * 8 ≤ t.log.q.held then t.logDiscard else t) := .ite ⟨h.untold_eq⟩ h
  unfold State.logRecord
  generalize (if t.logCap * 8 ≤ t.log.q.held then t.logDiscard else t) = u at hroom ⊢
  exact .setReg (.ite (.setReg ⟨hroom.untold_eq⟩) ⟨hroom.untold_eq⟩)

theorem forwardCopy (h : s.Signals t) : s.Signals (t.forwardCopy c r) := .ite (.ite ⟨h.untold_eq⟩ ⟨h.untold_eq⟩) h

theorem logSet (h : s.Signals t) : s.Signals (t.logSet c rs) := .foldl rs (fun _ _ ht => ht.logRecord.forwardCopy) h

theorem suppress (h : s.Signals t) : s.Signals (t.suppress c code k) := ⟨h.untold_eq⟩

theorem pushSet (h : s.Signals t) : s.Signals (t.pushSet c code rs) :=
  .ite h.logSet (.ite (.logSet ⟨h.untold_eq⟩) h.suppress)

theorem eventAt (h : s.Signals t) : s.Signals (t.eventAt k late code o pay) := .ite h.pushSet (.ite h.suppress ⟨h.untold_eq⟩)

/-- An event changes the log and its registers (R547). -/
theorem event (h : s.Signals t) : s.Signals (t.event code nums o) := h.eventAt

theorem configWrite (h : s.Signals t) : s.Signals (t.configWrite o a new old) := .ite h h.event

theorem sendMsix (h : s.Signals t) : s.Signals (t.sendMsix k) := .ite ⟨h.untold_eq⟩ (.ite ⟨h.untold_eq⟩ h)

theorem deliver (h : s.Signals t) : s.Signals (t.deliver k) := .ite (.ite h.sendMsix h) ⟨h.untold_eq⟩

theorem refreshLine (h : s.Signals t) : s.Signals (t.refreshLine k) := by
  unfold State.refreshLine
  exact .ite (.deliver ⟨h.untold_eq⟩) (.ite ⟨h.untold_eq⟩ h)

theorem refreshLines (h : s.Signals t) : s.Signals t.refreshLines := by
  have hlines : s.Signals ([0, 1, 2, 3, 4, 5, 6, 7].foldl State.refreshLine t) := .foldl _ (fun _ _ ht => ht.refreshLine) h
  unfold State.refreshLines
  generalize [0, 1, 2, 3, 4, 5, 6, 7].foldl State.refreshLine t = u at hlines ⊢
  exact .ite ⟨hlines.untold_eq⟩ hlines

/-- A source that fires changes the interrupt controller and what it sends (R535 to R539). -/
theorem fire (h : s.Signals t) : s.Signals (t.fire k) := .ite (.refreshLines ⟨h.untold_eq⟩) (.ite h ⟨h.untold_eq⟩)

theorem toPad (h : s.Signals t) : s.Signals (t.toPad n x) := .ite h ⟨h.untold_eq⟩

/-- A write of a register changes registers and the log (R8, R30). -/
theorem regStore (h : s.Signals t) : s.Signals (t.regStore o a v) := by
  unfold State.regStore
  split
  · exact h
  · dsimp only
    have hkept : ∀ c : Bool, s.Signals (if c then (t.inc GP_CNT_LOCKWR).on GP_EVT.LOCKED_WR else t) := fun _ =>
      .ite ⟨h.untold_eq⟩ h
    exact .ite (.ite (.setReg (hkept _)) (.configWrite (.setReg (hkept _)))) h

end
end State.Signals

/-! ## Words that enter a queue -/

/-- The state without what words that enter a queue, items of a port and completions change. -/
def State.aside (s : State) : State :=
  { s.untold with freeNo := 0, queues := [], ledger := {}, ports := [], links := [], host := {} }

/-- From s to t nothing of the schedules, of device time and of the domains that stand still changes. -/
structure State.Alike (s t : State) : Prop where
  aside_eq : t.aside = s.aside

theorem State.Signals.alike {s t : State} (h : s.Signals t) : s.Alike t := ⟨(congrArg State.aside h.untold_eq :)⟩

theorem State.giveBlocks_aside (s : State) (q : Queue) (bs : List Block) : (s.giveBlocks q bs).1.aside = s.aside := by
  unfold State.giveBlocks
  exact List.foldlRecOn (motive := fun x : State × Queue => x.1.aside = s.aside) bs _ rfl fun _ hx _ _ => hx

namespace State.Alike
section
variable {s t u : State}

theorem start : s.Alike s := ⟨rfl⟩

theorem trans (hst : s.Alike t) (htu : t.Alike u) : s.Alike u := ⟨htu.aside_eq.trans hst.aside_eq⟩

theorem tws_eq (h : s.Alike t) : t.tws = s.tws := (congrArg State.tws h.aside_eq :)
theorem time_eq (h : s.Alike t) : t.time = s.time := (congrArg State.time h.aside_eq :)
theorem stopped_eq (h : s.Alike t) : t.stopped = s.stopped := (congrArg State.stopped h.aside_eq :)
theorem tw_eq (h : s.Alike t) (n : Nat) : t.tw n = s.tw n := by rw [State.tw, h.tws_eq, State.tw]

theorem told (h : s.Alike t) (hu : t.Signals u) : s.Alike u := h.trans hu.alike

theorem ite {c : Prop} [Decidable c] (ht : s.Alike t) (hu : s.Alike u) : s.Alike (if c then t else u) := by
  split_ifs
  · exact ht
  · exact hu

theorem foldl {α : Type} {f : State → α → State} (l : List α) (hf : ∀ t a, s.Alike t → s.Alike (f t a)) (h : s.Alike t) :
    s.Alike (l.foldl f t) := List.foldlRecOn l f h fun t ht a _ => hf t a ht

end

section
variable {s t : State} {k m n p f code : Nat} {q was now : Queue} {x : State × Queue} {bs : List Block} {w : QWord} {ws : List QWord}
  {o : Origin} {nums : List Nat} {a b c stamp kind seq : Nat} {i : PortItem} {pt : Port} {v : Word} {fld : Fld}

theorem event (h : s.Alike t) : s.Alike (t.event code nums o) := h.told (.event .start)

theorem on (h : s.Alike t) : s.Alike (t.on fld) := ⟨h.aside_eq⟩

theorem inc (h : s.Alike t) : s.Alike (t.inc a) := ⟨h.aside_eq⟩

theorem setPort (h : s.Alike t) : s.Alike (t.setPort n pt) := ⟨h.aside_eq⟩

theorem giveBlocks (h : s.Alike t) : s.Alike (t.giveBlocks q bs).1 := ⟨(t.giveBlocks_aside q bs).trans h.aside_eq⟩

theorem updateFlow (h : s.Alike t) : s.Alike (t.updateFlow m) := ⟨h.aside_eq⟩

theorem updateFlows (h : s.Alike t) : s.Alike (t.updateFlows k) := .foldl _ (fun _ _ ht => .ite ht.updateFlow ht) h

theorem takeBlock (hx : t.takeBlock k q = some x) (h : s.Alike t) : s.Alike x.1 := by
  unfold State.takeBlock at hx
  dsimp only at hx
  split at hx
  · contradiction
  · cases hx
    exact .ite (.on ⟨h.aside_eq⟩) ⟨h.aside_eq⟩

theorem inject (h : s.Alike t) : s.Alike (t.inject q m p).1 := by
  unfold State.inject
  split
  · exact ⟨h.aside_eq⟩
  · exact h

theorem moveBurst (hx : t.moveBurst k q = some x) (h : s.Alike t) : s.Alike x.1 := by
  unfold State.moveBurst at hx
  dsimp only at hx
  split_ifs at hx
  · split at hx
    · split_ifs at hx
      cases hx
      exact h.inject
    · contradiction
  · split at hx
    case h_1 htaken =>
      split at hx
      · split_ifs at hx
        cases hx
        exact .inject (h.takeBlock htaken)
      · contradiction
    case h_2 => contradiction

theorem roomFor (hx : t.roomFor k q = some x) (h : s.Alike t) : s.Alike x.1 := by
  unfold State.roomFor at hx
  dsimp only at hx
  generalize (if t.runs .ddr = true then 0 else q.settle.landing) = away at hx
  split_ifs at hx
  · cases hx
    exact h
  · exact h.moveBurst hx

theorem refreshFull (h : s.Alike t) : s.Alike t.refreshFull :=
  .foldl _ (fun _ _ ht => .ite ht (.updateFlows ⟨ht.aside_eq⟩)) h

theorem queueFault (h : s.Alike t) : s.Alike (t.queueFault k) := by
  unfold State.queueFault
  exact .event (.on (.updateFlows ⟨h.aside_eq⟩))

theorem used (h : s.Alike t) : s.Alike (t.used k) := .ite h.queueFault h

theorem putQueue (h : s.Alike t) : s.Alike (t.putQueue k q bs) := by
  have hgiven : s.Alike (t.giveBlocks q bs).1 := h.giveBlocks
  unfold State.putQueue
  exact .refreshFull (.used (.updateFlows ⟨hgiven.aside_eq⟩))

theorem storeAll (hx : t.storeAll k q ws = some x) (h : s.Alike t) : s.Alike x.1 := by
  induction ws generalizing t q with
  | nil =>
    cases hx
    exact h
  | cons w ws ih =>
    unfold State.storeAll at hx
    split_ifs at hx
    split at hx
    case h_1 => contradiction
    case h_2 hroom => exact ih hx (.inject (h.roomFor hroom))

theorem refuse (h : s.Alike t) : s.Alike (t.refuse k q m) := .ite h.putQueue (.event (.on h.putQueue))

theorem reportLoss (h : s.Alike t) : s.Alike (t.reportLoss k was now) := .ite h.on.event h

theorem overwrite (hx : t.overwrite k q ws f = some x) (h : s.Alike t) : s.Alike x.1 := by
  induction f generalizing t q with
  | zero => exact h.storeAll hx
  | succ f ih =>
    unfold State.overwrite at hx
    split at hx
    case h_1 hstored =>
      cases hx
      exact h.storeAll hstored
    case h_2 =>
      split_ifs at hx
      exact ih hx h.giveBlocks

theorem overwritePacket (hx : t.overwritePacket k q ws f = some x) (h : s.Alike t) : s.Alike x.1 := by
  induction f generalizing t q ws with
  | zero => exact h.storeAll hx
  | succ f ih =>
    unfold State.overwritePacket at hx
    split_ifs at hx
    · cases hx
      exact h
    · exact ih hx h
    · split at hx
      case h_1 hstored =>
        cases hx
        exact h.storeAll hstored
      case h_2 => split at hx <;> exact ih hx h.giveBlocks

theorem pushWhole (h : s.Alike t) : s.Alike (t.pushWhole k ws).2 := by
  unfold State.pushWhole
  dsimp only
  split
  · split
    case h_1 s' q' hstored =>
      have hstate : s.Alike s' := h.storeAll hstored
      dsimp only
      exact hstate.putQueue
    case h_2 => exact h.refuse
  · split
    case h_1 s' q' hstored =>
      have hstate : s.Alike s' := h.overwrite hstored
      dsimp only
      exact hstate.putQueue.reportLoss
    case h_2 => exact h.refuse
  · split
    case h_1 s' q' hstored =>
      have hstate : s.Alike s' := h.overwritePacket hstored
      dsimp only
      exact hstate.putQueue.reportLoss
    case h_2 => exact h.refuse

/-- A push changes queues, flow control, their registers and the log (R203, R217). -/
theorem push (h : s.Alike t) : s.Alike (t.push k ws o).2 := by
  unfold State.push
  dsimp only
  split_ifs
  · exact h
  · exact .event (.on h.inc)
  · exact h
  · exact List.foldlRecOn (motive := fun x : PushRes × State => s.Alike x.2) ws _ h.used fun _ hx _ _ => hx.pushWhole
  · exact h.used.pushWhole

theorem putHold (h : s.Alike t) : s.Alike (t.putHold n pt) := .updateFlow ⟨h.aside_eq⟩

theorem pushTogether (h : s.Alike t) : s.Alike (t.pushTogether k ws).2 := by
  unfold State.pushTogether
  split
  · exact h.pushWhole
  · exact h.push

theorem pushRecord (h : s.Alike t) : s.Alike (t.pushRecord n a stamp kind seq) := by
  unfold State.pushRecord
  split
  case h_1 => exact h
  case h_2 q _ =>
    have hpush : s.Alike (t.pushTogether q (stampRecord stamp kind seq)).2 := h.pushTogether
    split
    case h_1 hres =>
      rw [hres] at hpush
      exact hpush.inc.on
    case h_2 hres =>
      rw [hres] at hpush
      exact hpush

theorem rxStamp (h : s.Alike t) : s.Alike (t.rxStamp n i seq) := .ite (.pushRecord ⟨h.aside_eq⟩) h

theorem itemPushed (h : s.Alike t) : s.Alike (t.itemPushed n i c) := .rxStamp ⟨h.aside_eq⟩

theorem pushEach (h : s.Alike t) : s.Alike (t.pushEach k ws).2 := by
  induction ws generalizing t with
  | nil => exact h
  | cons w ws ih => exact ih h.push

theorem offerItem (h : s.Alike t) : s.Alike (t.offerItem n i) := by
  unfold State.offerItem
  split
  case h_1 => exact h.inc.on
  case h_2 q _ =>
    have hlone : s.Alike (t.pushEach q i.words).2 := h.pushEach
    refine .ite (.ite hlone.itemPushed ⟨hlone.aside_eq⟩) ?whole
    case whole =>
      have hpush : s.Alike (t.push q i.words).2 := h.push
      split
      case h_1 hres =>
        rw [hres] at hpush
        exact hpush.itemPushed
      case h_2 hres =>
        rw [hres] at hpush
        exact hpush

/-- An item leaves the port for its queue or waits in the holding buffer (R69, R86). -/
theorem sendItem (h : s.Alike t) : s.Alike (t.sendItem n i) := .ite h.offerItem (.ite h.inc.on h.putHold)

theorem sendOrDrop (h : s.Alike t) : s.Alike (t.sendOrDrop n i) := .ite h.inc.on h.sendItem

theorem sendWave {bits : List Bool} (h : s.Alike t) : s.Alike (t.sendWave n k bits) := .told h.setPort (.toPad .start)

theorem txStamp (h : s.Alike t) : s.Alike (t.txStamp n kind seq) := .pushRecord ⟨h.aside_eq⟩

end
end State.Alike

/-! ## Time that passes -/

theorem State.elapse_tws (s : State) (k : Nat) : (s.elapse k).tws = s.tws := by
  unfold State.elapse
  dsimp only
  split_ifs <;> rfl

theorem State.elapse_stopped (s : State) (k : Nat) : (s.elapse k).stopped = s.stopped := by
  unfold State.elapse
  dsimp only
  split_ifs <;> rfl

theorem State.runTo_tws (s : State) (k : Nat) : (s.runTo k).tws = s.tws := by
  unfold State.runTo
  split_ifs
  · exact s.elapse_tws _
  · rfl

theorem State.advanceTo_tws (s : State) (t : Nat) : (s.advanceTo t).tws = s.tws := by
  unfold State.advanceTo
  split_ifs
  · exact s.elapse_tws _
  · rfl

theorem State.advanceTo_tw (s : State) (t n : Nat) : (s.advanceTo t).tw n = s.tw n := by rw [State.tw, s.advanceTo_tws, State.tw]

theorem State.advanceTo_stopped (s : State) (t : Nat) : (s.advanceTo t).stopped = s.stopped := by
  unfold State.advanceTo
  split_ifs
  · exact s.elapse_stopped _
  · rfl

theorem State.advanceTo_regs (s : State) (t : Nat) : (s.advanceTo t).regs = s.regs := by
  unfold State.advanceTo
  split_ifs
  · exact s.elapse_regs _
  · rfl

theorem State.advanceTo_ports (s : State) (t : Nat) : (s.advanceTo t).ports = s.ports := by
  unfold State.advanceTo
  split_ifs
  · exact s.elapse_ports _
  · rfl

theorem State.advanceTo_reg (s : State) (t a : Nat) : (s.advanceTo t).reg a = s.reg a := by
  rw [State.reg, s.advanceTo_regs, State.reg]

theorem State.advanceTo_rd (s : State) (t : Nat) (f : Fld) : (s.advanceTo t).rd f = s.rd f := by
  rw [State.rd, s.advanceTo_reg, State.rd]

theorem State.advanceTo_bit (s : State) (t : Nat) (f : Fld) : (s.advanceTo t).bit f = s.bit f := by
  rw [State.bit, s.advanceTo_rd, State.bit]

/-- The start of a character changes nothing of the schedules (R41, R54, R68, R102, R104, R108). -/
theorem State.sendChar_tws (s : State) (n : Nat) (w : QWord) (q : Option Nat) (x kind : Nat) :
    (s.sendChar n w q x kind).tws = s.tws := by
  unfold State.sendChar
  extract_lets s₁ f c fin arg hold seq s₂ s₃ s₄
  have hnumbered : s₁.Alike s₂ := ⟨(State.Alike.sendWave (n := n) .start).aside_eq⟩
  have hstamped : s₁.Alike s₃ := .ite hnumbered.txStamp hnumbered
  have hdelayed : s₁.Alike s₄ := by
    cases q with
    | none => exact hstamped
    | some k => exact .ite hstamped ⟨hstamped.aside_eq⟩
  exact (State.Alike.setPort hdelayed).tws_eq.trans (s.runTo_tws _)

end Sys2Proof.Machine
end

section
/-!
SUPPORT. What the guardian, a cycle boundary, foreign energy and the end of a slot change of a schedule, where no member leaves (R130, R131,
R139, R172 to R181, R185 to R187).
-/
namespace Sys2Proof.Machine

/-! ## The course of a schedule -/

/-- A schedule without what the guardian, commits, energy on the line, a delay that is applied and the count of silent cycles change in it. -/
def Tw.course (w : Tw) : Tw :=
  { w with
    modes := [], guard := {}, gate := (0, false), sending := w.sending.map fun b => { b with blocked := false }
    cyc := { w.cyc with foreign := [], intruded := [], ended := [] }, prev := none, babble := [], silent := [], forfeit := false
    brkPrev := none, dlyPend := none, dlyUnset := false }

/-- A port without what a rise of DE and a rate that is applied change in it. -/
def Port.undriven (p : Port) : Port :=
  { p with de := false, deRise := 0, heldAt := none, deFor := none, masked := false, rate := none, abWait := false }

/-- The registers that the schedule of port n changes, beside those of the guardian and its counters of cycles and frames (R42, R171, R172,
R185 to R187). -/
def schedFields (n : Nat) : List Fld :=
  guardFields n ++ [SF_CNT_ANCHOR n, SP_BAUD_ACT n, SP_STAT n, SP_EVT n, SF_BABBLE n, SF_CNT_BABBLE n, SF_CNT_INTRUDE n, TW_CNT_FOREIGN n].map
    wholeReg ++ (List.range 8).map (fun i => wholeReg (SF_ABSENT n i))

theorem guardFields_subset_schedFields (n : Nat) : guardFields n ⊆ schedFields n := fun _ hf => by simp [schedFields, hf]

/-- A property of the state that what is heard in port n's schedule keeps. -/
structure TwQuiet (n : Nat) (P : State → Prop) : Prop where
  setReg : ∀ {t a x}, wholeReg a ∈ schedFields n → P t → P (t.setReg a x)
  event : ∀ {t code nums}, code / 256 < 16 → P t → P (t.event code nums)
  setTw : ∀ {t w}, w.course = (t.tw n).course → P t → P (t.setTw n w)

/-- A property of the state that what happens in port n's schedule keeps, as long as no member leaves. -/
structure TwScope (n : Nat) (P : State → Prop) : Prop extends TwQuiet n P where
  fire : ∀ {t k}, P t → P (t.fire k)
  toPad : ∀ {t o}, P t → P (t.toPad n o)
  setPort : ∀ {t p}, p.undriven = (t.port n).undriven → P t → P (t.setPort n p)
  leave : ∀ {t cause}, P t → P (t.leavePhase n cause)

/-- The addresses that a table expects are below 255 (R155). -/
theorem expected_lt {s : State} {n a : Nat} {tab : TwTable} (h : (s.expected n tab).contains a = true) : a < 256 := by
  have hmem : a ∈ s.expected n tab := List.contains_iff_mem.1 h
  have hlt : a < 255 := List.mem_range.1 (List.mem_filter.1 hmem).1
  omega

namespace TwQuiet
section
variable {n : Nat} {P : State → Prop} {s t : State}

theorem ite {c : Prop} [Decidable c] (hs : P s) (ht : P t) : P (if c then s else t) := by
  split_ifs
  · exact hs
  · exact ht

theorem foldl {α : Type} {f : State → α → State} (l : List α) (hf : ∀ t, ∀ a ∈ l, P t → P (f t a)) (h : P t) : P (l.foldl f t) :=
  List.foldlRecOn l f h fun t ht a ha => hf t a ha ht

variable {f : Fld} {a k x e : Nat} {b : Bool} {g : Guardian} {c : TwCycle} {addr : Option Nat}
variable (hP : TwQuiet n P)
include hP

theorem wr (hf : wholeReg f.reg ∈ schedFields n) (h : P t) : P (t.wr f x) := hP.setReg hf h

theorem on (hf : wholeReg f.reg ∈ schedFields n) (h : P t) : P (t.on f) := hP.setReg hf h

theorem inc (ha : wholeReg a ∈ schedFields n) (h : P t) : P (t.inc a) := hP.setReg ha h

theorem setGuard (h : P t) : P (t.setGuard n g) := hP.setTw rfl h

/-! ### Energy on the line -/

theorem foreignIn (hrun : b = false → c = (t.tw n).cyc) (h : P t) : P (t.foreignIn n b c e addr) := by
  have hforeign : wholeReg (TW_CNT_FOREIGN n) ∈ schedFields n := by simp [schedFields]
  have hcount : wholeReg (SF_CNT_BABBLE n) ∈ schedFields n := by simp [schedFields]
  have hevt : wholeReg (SF_EVT n) ∈ schedFields n := by simp [schedFields, guardFields]
  have hlast : wholeReg (SF_BABBLE n) ∈ schedFields n := by simp [schedFields]
  unfold State.foreignIn
  dsimp only
  generalize hu : State.setTw _ n _ = u
  have hset : P u := hu ▸ hP.setTw ?same (hP.inc hforeign h)
  case same =>
    cases b with
    | true => rfl
    | false =>
      rw [hrun rfl]
      rfl
  exact ite h (ite (hP.event (by decide) (hP.wr hlast (hP.wr hlast (hP.on hevt (hP.inc hcount hset))))) hset)

theorem foreignAt (h : P t) : P (t.foreignAt n k) := by
  unfold State.foreignAt
  dsimp only
  refine ite ?_ h
  split
  case h_1 c hcycle =>
    refine ite (hP.foreignIn (fun hold => ?_) h) h
    rw [if_neg (by rw [hold]; decide)] at hcycle
    exact (Option.some.inj hcycle).symm
  case h_2 => exact h

theorem intrusion (h : P t) : P (t.intrusion n k) := by
  have hcount : wholeReg (SF_CNT_INTRUDE n) ∈ schedFields n := by simp [schedFields]
  have hevt : wholeReg (SF_EVT n) ∈ schedFields n := by simp [schedFields, guardFields]
  unfold State.intrusion
  dsimp only
  refine ite h ?_
  split
  · exact hP.on hevt (hP.inc hcount (hP.setTw rfl h))
  · split
    · exact hP.on hevt (hP.inc hcount (hP.setTw rfl h))
    · split
      · exact hP.on hevt (hP.inc hcount (hP.setTw rfl h))
      · exact h

/-! ### Slots that end -/

theorem silence (ha : a < 256) (h : P t) : P (t.silence n c a) := by
  have hevt : wholeReg (SF_EVT n) ∈ schedFields n := by simp [schedFields, guardFields]
  have habsent : wholeReg (SF_ABSENT n (a / 32)) ∈ schedFields n :=
    List.mem_append_right _ (List.mem_map.2 ⟨a / 32, List.mem_range.2 (by omega), rfl⟩)
  unfold State.silence
  refine ite h (ite (hP.setTw rfl h) (ite ?_ (hP.setTw rfl h)))
  exact hP.event (by decide) (hP.on hevt (hP.setReg habsent (hP.setTw rfl h)))

variable (hclose : ∀ t, P t → P (t.closePkt n))
include hclose

theorem slotEnded (h : P t) : P (t.slotEnded n c e) := by
  unfold State.slotEnded
  extract_lets w x u subject
  have hu : P u := by
    simp only [u]
    split
    · exact ite (hclose t h) h
    · exact h
  dsimp only
  split
  case h_1 a _ =>
    split_ifs with hlast
    · obtain ⟨-, -, -, hexpected⟩ := hlast
      exact hP.silence (expected_lt hexpected) hu
    · exact hu
  case h_2 => exact hu

theorem settlePrev (h : P t) : P (t.settlePrev n) := by
  unfold State.settlePrev
  split
  · exact foldl _ (fun _ _ _ ht => hP.slotEnded hclose ht) (hP.setTw rfl h)
  · exact h

theorem settleEnded (h : P t) : P (t.settleEnded n) :=
  foldl _ (fun _ _ _ ht => hP.slotEnded hclose ht) (hP.setTw rfl (hP.settlePrev hclose h))

end
end TwQuiet

namespace TwScope
section
variable {n : Nat} {P : State → Prop} {t : State} {k m cause clip : Nat} {tab : TwTable} {div cfg : Word}
variable (hP : TwScope n P)
include hP

/-! ### The guardian -/

theorem muzzleSet (h : P t) : P (t.muzzleSet n cause) := by
  have hcount : wholeReg (SF_CNT_MUZZLE n) ∈ schedFields n := by simp [schedFields, guardFields]
  have hevt : wholeReg (SF_EVT n) ∈ schedFields n := by simp [schedFields, guardFields]
  unfold State.muzzleSet
  refine TwQuiet.ite (hP.leave ?told) ?told
  exact hP.event (by decide) (TwQuiet.ite (hP.setGuard h) (hP.fire (hP.on hevt (hP.inc hcount (hP.setGuard h)))))

theorem blockedAt (h : P t) : P (t.blockedAt n k) := by
  have hcount : wholeReg (SF_CNT_BLOCKED n) ∈ schedFields n := by simp [schedFields, guardFields]
  have hevt : wholeReg (SF_EVT n) ∈ schedFields n := by simp [schedFields, guardFields]
  have hns : wholeReg (GD_BLK_NS n) ∈ schedFields n := by simp [schedFields, guardFields]
  have hinfo : wholeReg (GD_BLK_INFO n) ∈ schedFields n := by simp [schedFields, guardFields]
  have hshown : P ((t.inc (SF_CNT_BLOCKED n)).on (SF_EVT.BLOCKED n)) := hP.on hevt (hP.inc hcount h)
  unfold State.blockedAt
  dsimp only
  generalize hu : State.setTw (State.event _ Ev.TW_BLOCKED _) n _ = u
  have htold : P u := hu ▸ hP.setTw (by simp [Tw.course, Function.comp_def])
    (hP.event (by decide) (hP.setReg hinfo (hP.setReg hns hshown)))
  exact TwQuiet.ite (hP.muzzleSet htold) htold

theorem gateTo (h : P t) : P (t.gateTo n k) := by
  have hset : ∀ op, P (t.setTw n { t.tw n with gate := (k, op) }) := fun _ => hP.setTw rfl h
  unfold State.gateTo
  exact TwQuiet.ite (hset _) (TwQuiet.ite (hP.toPad (hset _)) (hP.blockedAt (hP.toPad (hset _))))

theorem followGate (h : P t) : P (t.followGate n) := TwQuiet.ite (TwQuiet.foldl _ (fun _ _ _ ht => hP.gateTo ht) h) h

theorem gateNow (h : P t) : P (t.gateNow n) := TwQuiet.ite (hP.gateTo h) h

/-- A muzzle (R179). -/
theorem muzzle (h : P t) : P (t.muzzle n cause) := hP.gateNow (hP.muzzleSet (hP.followGate h))

theorem endMuzzle (h : P t) : P (t.endMuzzle n) := by
  have hevt : wholeReg (SF_EVT n) ∈ schedFields n := by simp [schedFields, guardFields]
  exact hP.event (by decide) (hP.on hevt (hP.setGuard h))

theorem copyScrub (h : P t) : P (t.copyScrub n) := by
  have hevt : wholeReg (SF_EVT n) ∈ schedFields n := by simp [schedFields, guardFields]
  exact TwQuiet.ite h (hP.muzzle (hP.on hevt (hP.setGuard h)))

theorem guardBoundary (h : P t) : P (t.guardBoundary n) := hP.copyScrub (hP.setGuard h)

theorem strobeAt (h : P t) : P (t.strobeAt n) := by
  have hevt : wholeReg (SF_EVT n) ∈ schedFields n := by simp [schedFields, guardFields]
  have hcount : wholeReg (SF_CNT_ANCHOR n) ∈ schedFields n := by simp [schedFields]
  unfold State.strobeAt
  refine TwQuiet.ite (hP.guardBoundary (hP.setGuard (TwQuiet.ite (hP.on hevt h) h))) (TwQuiet.ite ?kept (hP.guardBoundary ?kept))
  exact hP.setGuard (TwQuiet.ite h (hP.on hevt (hP.inc hcount h)))

/-- A cycle-start strobe (R172). -/
theorem strobe (h : P t) : P (t.strobe n) := TwQuiet.ite (hP.gateNow (hP.strobeAt (hP.followGate h))) (hP.followGate h)

/-- DE rises, and the guardian gates it (R48, R177). -/
theorem raiseDe (h : P t) : P (t.raiseDe n) := by
  unfold State.raiseDe
  dsimp only
  generalize hu : t.setPort n _ = u
  have hup : P u := hu ▸ hP.setPort rfl h
  exact TwQuiet.ite (TwQuiet.ite (hP.toPad (hP.setTw rfl hup)) (hP.blockedAt (hP.setTw rfl hup))) (hP.toPad hup)

/-! ### A boundary -/

theorem applyTable (hm : m < 4) (h : P t) : P (t.applyTable n m tab clip) := by
  have hevt : wholeReg (TW_EVT n) ∈ schedFields n := by simp [schedFields, guardFields]
  have hlow := guardFields_subset_schedFields n (tclip_mem_guardFields n (i := 2 * m) (by omega))
  have hhigh := guardFields_subset_schedFields n (tclip_mem_guardFields n (i := 2 * m + 1) (by omega))
  have hset : P (t.setTw n ((t.tw n).setMode m { (t.tw n).mode m with run := tab, pend := none })) := hP.setTw rfl h
  unfold State.applyTable
  exact TwQuiet.ite (hP.setReg hhigh (hP.setReg hlow hset)) (hP.on hevt (hP.setReg hhigh (hP.setReg hlow hset)))

/-- The check of a shadow that the port's own copy passes (R173). -/
theorem copyCheck (hm : m < 4) (h : P t) : P (t.copyCheck n m 0) := by
  have hcrc := guardFields_subset_schedFields n (gdCrc_mem_guardFields n hm)
  unfold State.copyCheck
  dsimp only
  split
  · exact h
  · rw [if_pos rfl]
    exact hP.setGuard (hP.setReg hcrc h)

theorem applyCommits (h : P t) : P (t.applyCommits n) := by
  refine TwQuiet.foldl _ (fun u m hm hu => ?_) h
  have hm : m < 4 := List.mem_range.1 hm
  split
  · exact TwQuiet.ite (hP.copyCheck hm (hP.applyTable hm hu)) hu
  · exact hu

theorem applyRate (h : P t) : P (t.applyRate n div cfg) := by
  have hact : wholeReg (SP_BAUD_ACT n) ∈ schedFields n := by simp [schedFields]
  have hstat : wholeReg (SP_STAT n) ∈ schedFields n := by simp [schedFields]
  have hevt : wholeReg (SP_EVT n) ∈ schedFields n := by simp [schedFields]
  have hrate : P ((((t.setReg (SP_BAUD_ACT n) div).wr (SP_STAT.OSR_ACT n) (cfg.toNat % 4)).wr (SP_STAT.PRE_ACT n) (cfg.toNat / 16)).on
      (SP_STAT.BAUD_SETTLING n)) := hP.on hstat (hP.wr hstat (hP.wr hstat (hP.setReg hact h)))
  unfold State.applyRate
  exact hP.setPort rfl (TwQuiet.ite hrate (hP.on hevt hrate))

/-- What a boundary does before the next cycle (R161, R174, R175, R181). -/
theorem boundaryWork (h : P t) : P (t.boundaryWork n) := by
  have hcopied : P (((if (t.tw n).guard.unmuzzle then t.endMuzzle n else t).copyScrub n).applyCommits n) :=
    hP.applyCommits (hP.copyScrub (TwQuiet.ite (hP.endMuzzle h) h))
  unfold State.boundaryWork
  dsimp only
  split
  · exact hP.applyRate hcopied
  · exact hcopied

theorem auditAgain (h : P t) : P (t.auditAgain n) := TwQuiet.ite (hP.setTw rfl h) h

end
end TwScope

/-! ## A schedule on its course -/

/-- The view of a port that sees its reload alone. -/
def Port.reloadOnly (p : Port) : Port := { reload := p.reload }

/-- A schedule without its open receive packet, and without what its course leaves open. -/
def Tw.packetless (w : Tw) : Tw := { w.course with pkt := none }

/-- A schedule that does not leave: no member's, or in neither OBSERVE nor JOINED (R151). -/
def Tw.stays (w : Tw) : Prop := w.role = true ∨ w.phase ≠ .observe ∧ w.phase ≠ .joined

theorem leavePhase_of_stays {s : State} {n : Nat} (h : (s.tw n).stays) (cause : Nat) : s.leavePhase n cause = s := if_pos h

/-- A view of a schedule that sees its role and its state, and nothing but its course. -/
structure TwView (w : Tw → Tw) : Prop where
  view : ∀ {x y : Tw}, x.course = y.course → w x = w y
  role : ∀ {x y : Tw}, w x = w y → x.role = y.role
  phase : ∀ {x y : Tw}, w x = w y → x.phase = y.phase

theorem twView_course : TwView Tw.course := ⟨fun h => h, fun h => (congrArg Tw.role h :), fun h => (congrArg Tw.phase h :)⟩

theorem twView_packetless : TwView Tw.packetless where
  view h := by rw [Tw.packetless, h, Tw.packetless]
  role h := (congrArg Tw.role h :)
  phase h := (congrArg Tw.phase h :)

/-- From s to t the fields apart from fs and the reload of port n keep their values, and so does the view w of its schedule. -/
structure State.OnCourse (fs : List Fld) (n : Nat) (w : Tw → Tw) (s t : State) : Prop where
  keeps : s.Keeps fs n Port.reloadOnly t
  tws_wf : tabWf Tw.reset t.tws = true
  tw_eq : w (t.tw n) = w (s.tw n)

theorem State.tws_wf_of_canon {s : State} (h : s.canon = true) : tabWf Tw.reset s.tws = true := by
  simp only [State.canon, Bool.and_eq_true] at h
  tauto

theorem tw_setTw_same {s : State} (h : tabWf Tw.reset s.tws = true) (n : Nat) (x : Tw) : (s.setTw n x).tw n = x := by
  rw [State.setTw, State.tw, tabGet_tabPut _ _ _ h, if_pos rfl]

theorem State.Keeps.andThen {fs fs' : List Fld} {n : Nat} {v v' : Port → Port} {s t u : State} (hsub : fs' ⊆ fs) (h : s.Keeps fs n v t)
    (hu : t.Keeps fs' n v' u) (hport : v (u.port n) = v (t.port n)) : s.Keeps fs n v u where
  regs_wf := hu.regs_wf
  ports_wf := hu.ports_wf
  rd_eq g hg := (hu.rd_eq g (List.all_eq_true.2 fun f hf => List.all_eq_true.1 hg f (hsub hf))).trans (h.rd_eq g hg)
  port_eq := hport.trans h.port_eq

namespace State.OnCourse
section
variable {fs : List Fld} {n : Nat} {w : Tw → Tw} {s t u : State}

theorem of_canon (h : s.canon = true) : s.OnCourse fs n w s := ⟨.of_canon h, tws_wf_of_canon h, rfl⟩

/-- From here on t is the state that is followed. -/
theorem restart {fs' : List Fld} {w' : Tw → Tw} (h : s.OnCourse fs n w t) : t.OnCourse fs' n w' t :=
  ⟨.start h.keeps.regs_wf h.keeps.ports_wf, h.tws_wf, rfl⟩

theorem reload_eq (h : s.OnCourse fs n w t) : (t.port n).reload = (s.port n).reload := (congrArg Port.reload h.keeps.port_eq :)

theorem ite {c : Prop} [Decidable c] (ht : s.OnCourse fs n w t) (hu : s.OnCourse fs n w u) : s.OnCourse fs n w (if c then t else u) := by
  split_ifs
  · exact ht
  · exact hu

theorem setReg {a : Nat} {x : Word} (ha : wholeReg a ∈ fs) (h : s.OnCourse fs n w t) : s.OnCourse fs n w (t.setReg a x) :=
  ⟨h.keeps.setReg ha, h.tws_wf, h.tw_eq⟩

theorem event {code : Nat} {nums : List Nat} {o : Origin} (hlog : logFields ⊆ fs) (hcode : code / 256 < 16) (h : s.OnCourse fs n w t) :
    s.OnCourse fs n w (t.event code nums o) := by
  have htold : t.Signals (t.event code nums o) := .event .start
  exact ⟨h.keeps.event hlog hcode, htold.tws_eq ▸ h.tws_wf, (congrArg w (htold.tw_eq n)).trans h.tw_eq⟩

theorem fire {k : Nat} (hfs : guardFields n ⊆ fs) (h : s.OnCourse fs n w t) : s.OnCourse fs n w (t.fire k) := by
  have htold : t.Signals (t.fire k) := .fire .start
  have hkeeps : t.Keeps (guardFields n) n Port.unseen (t.fire k) := .fire (.start h.keeps.regs_wf h.keeps.ports_wf)
  have hport : (t.fire k).port n = t.port n := by rw [State.port, htold.ports_eq, State.port]
  exact ⟨h.keeps.andThen hfs hkeeps (congrArg _ hport), htold.tws_eq ▸ h.tws_wf, (congrArg w (htold.tw_eq n)).trans h.tw_eq⟩

theorem toPad {m : Nat} {o : Out} (h : s.OnCourse fs n w t) : s.OnCourse fs n w (t.toPad m o) :=
  .ite h ⟨h.keeps.same rfl rfl, h.tws_wf, h.tw_eq⟩

theorem setPort {p : Port} (hp : p.undriven = (t.port n).undriven) (h : s.OnCourse fs n w t) : s.OnCourse fs n w (t.setPort n p) :=
  ⟨h.keeps.setPort fun _ => (congrArg Port.reloadOnly hp :), h.tws_wf, h.tw_eq⟩

theorem setTw {x : Tw} (hx : w x = w (t.tw n)) (h : s.OnCourse fs n w t) : s.OnCourse fs n w (t.setTw n x) :=
  ⟨h.keeps.setTw, tabPut_wf _ _ h.tws_wf, (congrArg w (tw_setTw_same h.tws_wf n x)).trans (hx.trans h.tw_eq)⟩

theorem advanceTo {d : Nat} (h : s.OnCourse fs n w t) : s.OnCourse fs n w (t.advanceTo d) :=
  ⟨h.keeps.advanceTo, t.advanceTo_tws d ▸ h.tws_wf, (congrArg w (t.advanceTo_tw d n)).trans h.tw_eq⟩

/-- What is heard keeps a schedule on its course. -/
theorem quiet (hfs : schedFields n ⊆ fs) (hw : ∀ {x y : Tw}, x.course = y.course → w x = w y) : TwQuiet n (s.OnCourse fs n w) where
  setReg ha h := h.setReg (hfs ha)
  event hcode h := h.event (fun _ hf => hfs (guardFields_subset_schedFields n (logFields_subset_guardFields n hf))) hcode
  setTw hx h := h.setTw (hw hx)

/-- What happens in a schedule that does not leave keeps it on its course. -/
theorem scope (hfs : schedFields n ⊆ fs) (hw : TwView w) (hstay : (s.tw n).stays) : TwScope n (s.OnCourse fs n w) where
  toTwQuiet := quiet hfs hw.view
  fire h := h.fire fun _ hf => hfs (guardFields_subset_schedFields n hf)
  toPad h := h.toPad
  setPort hp h := h.setPort hp
  leave {t cause} h := by
    have hstays : (t.tw n).stays := by rwa [Tw.stays, hw.role h.tw_eq, hw.phase h.tw_eq]
    rwa [leavePhase_of_stays hstays]

theorem sendOrDrop {i : PortItem} (hi : ItemScope fs n Port.reloadOnly) (h : s.OnCourse fs n w t) :
    s.OnCourse fs n w (t.sendOrDrop n i) := by
  have hdrop : wholeReg (SP_CNT_RXDROP n) ∈ fs := hi.fields (by simp [itemFields])
  have hevt : wholeReg (SP_EVT n) ∈ fs := hi.fields (by simp [itemFields])
  have hsent : t.Alike (t.sendOrDrop n i) := .sendOrDrop .start
  have hkeeps : s.Keeps fs n Port.reloadOnly (t.sendOrDrop n i) := .ite (.on (h.keeps.inc hdrop) hevt) (h.keeps.sendItem hi)
  exact ⟨hkeeps, hsent.tws_eq ▸ h.tws_wf, (congrArg w (hsent.tw_eq n)).trans h.tw_eq⟩

/-- The open packet closes: its item leaves for its queue (R139). -/
theorem closePkt (hn : n < 16) (hitem : itemFields n ⊆ fs) (hcount : wholeReg (TW_CNT_TRUNC n) ∈ fs)
    (h : s.OnCourse fs n Tw.packetless t) : s.OnCourse fs n Tw.packetless (t.closePkt n) := by
  have hi : ItemScope fs n Port.reloadOnly := ⟨hn, hitem, fun _ _ hpq => (congrArg Port.reloadOnly hpq :)⟩
  unfold State.closePkt
  split
  · exact h
  · dsimp only
    have hclosed : s.OnCourse fs n Tw.packetless ((t.inc (TW_CNT_TRUNC n)).setTw n { t.tw n with pkt := none }) :=
      .setTw rfl (h.setReg hcount)
    split
    · exact hclosed.sendOrDrop hi
    · exact hclosed

end
end State.OnCourse

end Sys2Proof.Machine
end

section
/-!
SUPPORT. What the end of aborts leaves alone: the schedules, and the registers from those of the serial ports up to those of the links (R28, R254,
R315, R460).
-/
namespace Sys2Proof.Machine

/-! ## Completions and cells -/

/-- From s to t the schedules keep their value, and so does every register between the ledger's and the links'. -/
structure State.Elsewhere (s t : State) : Prop where
  regs_wf : tabWf regReset t.regs = true
  ports_wf : tabWf Port.reset t.ports = true
  tws_eq : t.tws = s.tws
  reg_eq : ∀ a, 0x80000 ≤ a → a < 0x400000 → t.reg a = s.reg a

theorem logFields_elsewhere : logFields.all (fun f => decide (f.reg < 0x80000) || decide (0x400000 ≤ f.reg)) = true := by decide +kernel

namespace State.Elsewhere
section
variable {s t u : State}

theorem start (hregs : tabWf regReset s.regs = true) (hports : tabWf Port.reset s.ports = true) : s.Elsewhere s :=
  ⟨hregs, hports, rfl, fun _ _ _ => rfl⟩

theorem ite {c : Prop} [Decidable c] (ht : s.Elsewhere t) (hu : s.Elsewhere u) : s.Elsewhere (if c then t else u) := by
  split_ifs
  · exact ht
  · exact hu

theorem foldl {α : Type} {f : State → α → State} (l : List α) (hf : ∀ t a, s.Elsewhere t → s.Elsewhere (f t a)) (h : s.Elsewhere t) :
    s.Elsewhere (l.foldl f t) := List.foldlRecOn l f h fun t ht a _ => hf t a ht

/-- An update of other parts of the state. -/
theorem same (h : s.Elsewhere t) (hregs : u.regs = t.regs) (hports : u.ports = t.ports) (htws : u.tws = t.tws) : s.Elsewhere u where
  regs_wf := hregs ▸ h.regs_wf
  ports_wf := hports ▸ h.ports_wf
  tws_eq := htws.trans h.tws_eq
  reg_eq a hlow hhigh := by rw [← h.reg_eq a hlow hhigh, State.reg, hregs, State.reg]

theorem setReg {a : Nat} {x : Word} (ha : a < 0x80000 ∨ 0x400000 ≤ a) (h : s.Elsewhere t) : s.Elsewhere (t.setReg a x) where
  regs_wf := setReg_wf _ _ h.regs_wf
  ports_wf := h.ports_wf
  tws_eq := h.tws_eq
  reg_eq b hlow hhigh := (reg_setReg_ne (by omega) _ _).trans (h.reg_eq b hlow hhigh)

theorem event {code : Nat} {nums : List Nat} {o : Origin} (hcode : code / 256 < 16) (h : s.Elsewhere t) :
    s.Elsewhere (t.event code nums o) := by
  have htold : t.Signals (t.event code nums o) := .event .start
  have hkeeps : t.Keeps logFields 0 Port.unseen (t.event code nums o) := .event (fun _ hf => hf) (.start h.regs_wf h.ports_wf) hcode
  refine ⟨hkeeps.regs_wf, hkeeps.ports_wf, htold.tws_eq.trans h.tws_eq, fun a hlow hhigh => (hkeeps.reg_eq ?_).trans (h.reg_eq a hlow hhigh)⟩
  refine List.all_eq_true.2 fun f hf => Fld.apart_iff.2 fun hreg => ?_
  have hout := List.all_eq_true.1 logFields_elsewhere f hf
  simp only [hreg, wholeReg, Bool.or_eq_true, decide_eq_true_eq] at hout
  omega

section
variable {l fuel : Nat} {c : Cell} {x : Completion} {a : AbortSlot} {status n : Nat}

theorem pump (h : s.Elsewhere t) : s.Elsewhere (t.pump l fuel) := by
  induction fuel generalizing t with
  | zero => exact h
  | succ fuel ih =>
    unfold State.pump
    split
    · exact h
    · dsimp only
      split
      · exact h
      · refine ih (.same (.setReg (.inr ?_) (.setReg (.inr ?_) (h.same (u := State.setLink t l _) rfl rfl rfl))) rfl rfl rfl)
        · simp only [LK_CNT_TXCELL]; omega
        · simp only [LK_CRED_VC.AVAIL, LK_CRED_VC]; omega

theorem trySend (h : s.Elsewhere t) : s.Elsewhere (t.trySend c) := by
  unfold State.trySend State.sendCell
  cases t.routeTo c.dst.val with
  | none => exact h
  | some l => exact .pump (h.same rfl rfl rfl)

theorem hold (h : s.Elsewhere t) : s.Elsewhere (t.hold x) := by
  have hstall : s.Elsewhere ((({ t with host := { t.host with held := t.host.held ++ [x] } } : State).inc LG_CNT_STALL).on LG_EVT.STALL) :=
    .setReg (.inl (by decide)) (.setReg (.inl (by decide)) (h.same rfl rfl rfl))
  unfold State.hold
  exact .ite (h.same rfl rfl rfl) (.ite (.event (by decide) hstall) (h.same rfl rfl rfl))

theorem endAbort (h : s.Elsewhere t) : s.Elsewhere (t.endAbort a status) := by
  have hleft : s.Elsewhere { t with host := { t.host with aborts := t.host.aborts.erase a } } := h.same rfl rfl rfl
  unfold State.endAbort
  dsimp only
  generalize hu : (if a.away = true then _ else _ : State) = u
  have htold : s.Elsewhere u := hu ▸ .ite hleft (.event (by decide) hleft)
  split
  · exact htold.trySend
  · exact .same htold.hold rfl rfl rfl

theorem settleAborts (h : s.Elsewhere t) : s.Elsewhere t.settleAborts := .foldl _ (fun _ _ ht => ht.endAbort) h

/-- The aborts that waited for a port's guardian end (R28, R173). -/
theorem portLoaded (h : s.Elsewhere t) : s.Elsewhere (t.portLoaded n) := .ite (.settleAborts (h.same rfl rfl rfl)) h

end
end
end State.Elsewhere
end Sys2Proof.Machine
end

section
/-!
SUPPORT. The schedule starts and stops of 04_trade_wind_bus.md: RUN, the first cycle, the cycles that follow.
-/
namespace Sys2Proof.Machine

/-! ## RUN (R123, R126) -/

theorem runRow_plain : ∀ p : Fin 16, (regRow? (TW_CTRL p)).any (fun r => r.plain 1) = true ∧
    logFields.all (fun f => f.apart (TW_CTRL.RUN p)) = true := by decide +kernel

section
variable {s : State} (o : Origin) (p : Fin 16) (hcanon : s.canon = true) (hex : s.regExists (TW_CTRL p) = true)
include hcanon hex

/-- A write of TW_CTRL stores RUN as it is written. -/
theorem run_stored (v : Word) : (s.regStore o (TW_CTRL p) v).bit (TW_CTRL.RUN p) = v.getLsbD 0 := by
  obtain ⟨hrow, hlog⟩ := runRow_plain p
  have hregs := State.regs_wf_of_canon hcanon
  obtain ⟨new, hbits, hkeep⟩ := regStore_told (o := o) (v := v) hregs (State.ports_wf_of_canon hcanon) p
    (by simp only [TW_CTRL]; omega) hrow hex
  rw [hkeep.bit_eq hlog, bit_eq_getLsbD rfl, TW_CTRL.RUN, reg_setReg hregs, if_pos rfl]
  exact hbits 0 (by omega) rfl

end

theorem firstCycle_phase {s : State} (htws : tabWf Tw.reset s.tws = true) (n : Nat) : ((s.firstCycle n).tw n).phase = .starting := by
  rw [State.firstCycle, tw_setTw_same htws]

theorem fields_apart_run : ∀ p : Fin 16,
    [wholeReg (SP_STAT p.val), wholeReg (TW_DRIFT p.val)].all (fun f => f.apart (TW_CTRL.RUN p)) = true ∧
    [wholeReg (TW_DRIFT p.val)].all (fun f => f.apart (SP_STAT.FC_IGNORED p)) = true := by decide +kernel

/-- A schedule that starts listens, or has its first cycle timed, and is what the port runs from now on (R124, R126). -/
theorem twStart_told {s : State} (p : Fin 16) (hregs : tabWf regReset s.regs = true) (hports : tabWf Port.reset s.ports = true)
    (htws : tabWf Tw.reset s.tws = true) (fresh : Bool) :
    (s.twStart p fresh).bit (TW_CTRL.RUN p) = s.bit (TW_CTRL.RUN p) ∧
      (((s.twStart p fresh).tw p).phase = .listen ∨ ((s.twStart p fresh).tw p).phase = .starting) ∧
      (s.twStart p fresh).twRuns p = true := by
  obtain ⟨hrun, hdrift⟩ := fields_apart_run p
  unfold State.twStart
  extract_lets role addr w g₀ g s₁ s₂
  have hset : tabWf Tw.reset s₁.tws = true := tabPut_wf _ _ htws
  have hlisten : (s₁.tw p).phase = .listen := congrArg Tw.phase (tw_setTw_same htws p _)
  have hkeep : s.Keeps [wholeReg (SP_STAT p), wholeReg (TW_DRIFT p)] p Port.unseen s₂ :=
    .setPort (.setReg (.on (.setTw (.start hregs hports)) (by simp [SP_STAT.FC_IGNORED])) (by simp)) fun _ => rfl
  have hshown : tabWf regReset (s₁.on (SP_STAT.FC_IGNORED p)).regs = true := setReg_wf _ _ hregs
  have hlate : (s₁.on (SP_STAT.FC_IGNORED p)).Keeps [wholeReg (TW_DRIFT p)] p Port.unseen s₂ :=
    .setPort (.setReg (.start hshown hports) (by simp)) fun _ => rfl
  have hignored : s₂.twRuns p = true :=
    (hlate.bit_eq hdrift).trans (bit_on (s := s₁) hregs (by simp [SP_STAT.FC_IGNORED]) rfl)
  split_ifs
  · exact ⟨hkeep.bit_eq hrun, .inr (firstCycle_phase (s := s₂) hset p), hignored⟩
  · exact ⟨hkeep.bit_eq hrun, .inl hlisten, hignored⟩

section
variable {s : State} (o : Origin) (p : Fin 16) (hcanon : s.canon = true)
include hcanon

theorem twRunStart_completes (hex : s.regExists (TW_CTRL p) = true) (hoff : (s.tw p).phase = .off) :
    Completes (.twRunStart o p) s fun t => t.bit (TW_CTRL.RUN p) = true ∧
      ((t.tw p).phase = .listen ∨ (t.tw p).phase = .starting) ∧ t.twRuns p = true := by
  have hstored : (s.regStore o (TW_CTRL p) (s.reg (TW_CTRL p) ||| 1)).bit (TW_CTRL.RUN p) = true := by
    rw [run_stored o p hcanon hex, BitVec.getLsbD_or]
    simp
  have hkeeps := regStore_keeps o p hcanon (s.reg (TW_CTRL p) ||| 1) (a := TW_CTRL p) (by simp only [TW_CTRL]; omega)
  have htold : s.Signals (s.regStore o (TW_CTRL p) (s.reg (TW_CTRL p) ||| 1)) := .regStore .start
  refine completes_of_next (if_pos hex) ?_
  obtain ⟨hrun, hphase, hruns⟩ := twStart_told p hkeeps.regs_wf hkeeps.ports_wf (htold.tws_eq ▸ State.tws_wf_of_canon hcanon) true
  rw [State.twRunOn, if_pos ((congrArg Tw.phase (htold.tw_eq p)).trans hoff)]
  exact ⟨hrun.trans hstored, hphase, hruns⟩

theorem twRunStop_completes (hex : s.regExists (TW_CTRL p) = true) (hcyc : (s.tw p).cycling = true) :
    Completes (.twRunStop o p) s fun t => t.bit (TW_CTRL.RUN p) = false ∧ (t.tw p).stop = true := by
  have hstored : (s.regStore o (TW_CTRL p) (s.reg (TW_CTRL p) &&& 0xFFFFFFFE)).bit (TW_CTRL.RUN p) = false := by
    rw [run_stored o p hcanon hex, BitVec.getLsbD_and]
    simp
  have htold : s.Signals (s.regStore o (TW_CTRL p) (s.reg (TW_CTRL p) &&& 0xFFFFFFFE)) := .regStore .start
  have htws := htold.tws_eq ▸ State.tws_wf_of_canon hcanon
  have hnotOff : (s.tw p).phase ≠ .off := fun hoff => by simp [Tw.cycling, hoff] at hcyc
  refine completes_of_next (if_pos hex) ?_
  rw [← htold.tw_eq p] at hcyc hnotOff
  rw [State.twRunOff, if_neg hnotOff, if_pos hcyc]
  exact ⟨hstored, congrArg Tw.stop (tw_setTw_same htws p _)⟩

theorem fnListenTimeout_completes (hrole : (s.tw p).role = true) (hlisten : (s.tw p).phase = .listen) :
    Completes (.fnListenTimeout p) s fun t => (t.tw p).phase = .starting := by
  refine completes_of_next (if_pos ⟨hrole, hlisten⟩) (firstCycle_phase ?_ p)
  rw [State.advanceTo_tws]
  exact State.tws_wf_of_canon hcanon

end

/-! ## Cycles (R125, R126, R168, R172) -/

/-- What is true when cycle c of port n has begun in s (R125, R168): it is the running one, and is counted. -/
structure State.Begun (n : Nat) (c : TwCycle) (s t : State) : Prop where
  counter : (t.tw n).cyc.k = c.k
  start : (t.tw n).cyc.start = c.start
  phase : (t.tw n).phase = (s.tw n).phase
  counted : t.reg (TW_CNT_CYCLES n) = countUp (s.reg (TW_CNT_CYCLES n))
  regs_wf : tabWf regReset t.regs = true
  ports_wf : tabWf Port.reset t.ports = true

theorem fields_apart_cycles : ∀ p : Fin 16, (schedFields p).all (fun f => f.apart (wholeReg (TW_CNT_CYCLES p))) = true ∧
    [wholeReg (TW_CYC_NS p.val), wholeReg (TW_CYC_SL p.val), wholeReg (TW_CYC_SH p.val)].all
      (fun f => f.apart (wholeReg (TW_CNT_CYCLES p))) = true := by decide +kernel

/-- A cycle that is entered runs, and is counted. -/
theorem enterCycle_told {s : State} (p : Fin 16) (hregs : tabWf regReset s.regs = true) (hports : tabWf Port.reset s.ports = true)
    (htws : tabWf Tw.reset s.tws = true) (c : TwCycle) :
    (s.enterCycle p c).OnCourse (schedFields p) p Tw.course (s.enterCycle p c) ∧
      (s.enterCycle p c).tw p = { s.tw p with cyc := c } ∧
      (s.enterCycle p c).reg (TW_CNT_CYCLES p) = countUp (s.reg (TW_CNT_CYCLES p)) := by
  have hcounted : tabWf regReset ((s.setTw p { s.tw p with cyc := c }).inc (TW_CNT_CYCLES p)).regs = true := setReg_wf _ _ hregs
  have hshown : ((s.setTw p { s.tw p with cyc := c }).inc (TW_CNT_CYCLES p)).Keeps
      [wholeReg (TW_CYC_NS p), wholeReg (TW_CYC_SL p), wholeReg (TW_CYC_SH p)] p Port.unseen (s.enterCycle p c) :=
    .wr (.setStamp (by simp) (by simp) (by simp) (.start hcounted hports)) (by simp [TW_CYC_SH.CYCLE])
  refine ⟨⟨.start hshown.regs_wf hshown.ports_wf, tabPut_wf _ _ htws, rfl⟩, tw_setTw_same htws p _, ?_⟩
  rw [hshown.reg_eq (fields_apart_cycles p).2]
  exact reg_inc (s := s.setTw p { s.tw p with cyc := c }) hregs _

/-- A cycle begins (R125, R168), and the guardian is told (R172). -/
theorem beginCycle_begun {s : State} (p : Fin 16) (hregs : tabWf regReset s.regs = true) (hports : tabWf Port.reset s.ports = true)
    (htws : tabWf Tw.reset s.tws = true) (hstay : (s.tw p).stays) (c : TwCycle) :
    s.Begun p c ((s.beginCycle p c).auditAgain p) := by
  obtain ⟨hentered, htw, hcount⟩ := enterCycle_told p hregs hports htws c
  have hP := State.OnCourse.scope (s := s.enterCycle p c) (fun _ hf => hf) twView_course (by rwa [htw])
  have hend : (s.enterCycle p c).OnCourse (schedFields p) p Tw.course ((s.beginCycle p c).auditAgain p) :=
    hP.auditAgain (.ite hentered (hP.strobe hentered))
  have hcourse := hend.tw_eq
  rw [htw] at hcourse
  exact
    { counter := (congrArg (fun w : Tw => w.cyc.k) hcourse :)
      start := (congrArg (fun w : Tw => w.cyc.start) hcourse :)
      phase := (congrArg Tw.phase hcourse :)
      counted := (hend.keeps.reg_eq (fields_apart_cycles p).1).trans hcount
      regs_wf := hend.keeps.regs_wf
      ports_wf := hend.keeps.ports_wf }

section
variable {s : State} (p : Fin 16) (hcanon : s.canon = true)
include hcanon

theorem twFirstCycleStart_completes (hstarting : (s.tw p).phase = .starting) :
    Completes (.twFirstCycleStart p) s fun t => (t.tw p).phase = .running ∧ (t.tw p).cyc.start = (s.tw p).from_ ∧
      t.reg (TW_CNT_CYCLES p) = countUp (s.reg (TW_CNT_CYCLES p)) := by
  have hstay : (s.tw p).stays := .inr (by simp [hstarting])
  have hP := State.OnCourse.scope (s := s) (fun _ hf => hf) twView_course hstay
  have hwork : s.OnCourse (schedFields p) p Tw.course ((s.advanceTo (s.tw p).from_).boundaryWork p) :=
    hP.boundaryWork (.advanceTo (.of_canon hcanon))
  refine completes_of_next (if_pos hstarting) ?_
  generalize (s.advanceTo (s.tw p).from_).boundaryWork p = u at hwork ⊢
  have hfrom : (u.tw p).from_ = (s.tw p).from_ := (congrArg Tw.from_ hwork.tw_eq :)
  generalize hx : ({ u.tw p with
    phase := .running, waiting := (u.tw p).waiting.map fun x => (x.1, false)
    bufs := (u.tw p).bufs.map fun b => { b with next := false } } : Tw) = x
  have hrunning : x.phase = .running := hx ▸ rfl
  have htw : (u.setTw p x).tw p = x := tw_setTw_same hwork.tws_wf p x
  have hbegun := beginCycle_begun (s := u.setTw p x) p hwork.keeps.regs_wf hwork.keeps.ports_wf (tabPut_wf _ _ hwork.tws_wf)
    (by rw [htw]; exact .inr (by simp [hrunning])) (u.tw p).firstOf
  exact ⟨hbegun.phase.trans (by rw [htw, hrunning]), hbegun.start.trans hfrom,
    hbegun.counted.trans (congrArg countUp (hwork.keeps.reg_eq (fields_apart_cycles p).1))⟩

end

/-! ## The cycle that follows (R125, R151, R159) -/

theorem nextRise_of_bufs_nil {s : State} {n : Nat} (h : (s.tw n).bufs = []) : s.nextRise n = none := by
  rw [State.nextRise, h, List.foldl_nil]

/-- Where no frame is built, no rise of DE comes before the time that a schedule is brought to. -/
theorem twAdvance_of_bufs_nil {s : State} {n : Nat} (h : (s.tw n).bufs = []) (t : Nat) : s.twAdvance n t = s.advanceTo t := by
  simp only [State.twAdvance, State.earlyRise, nextRise_of_bufs_nil h]

theorem busDeadCheck_of_brk_none {s : State} {n : Nat} (h : (s.port n).brk = none) :
    s.busDeadCheck n = s.setTw n { s.tw n with brkPrev := none } := by
  simp [State.busDeadCheck, h]

/-- What a boundary that stops nothing changes beside the counter of cycles and what shows the new one. -/
def boundaryFields (n : Nat) : List Fld := schedFields n ++ itemFields n ++ [wholeReg (TW_CNT_TRUNC n), wholeReg (TW_DLY n)]

theorem schedFields_subset_boundaryFields (n : Nat) : schedFields n ⊆ boundaryFields n := fun _ hf => by simp [boundaryFields, hf]

theorem itemFields_subset_boundaryFields (n : Nat) : itemFields n ⊆ boundaryFields n := fun _ hf => by simp [boundaryFields, hf]

theorem boundaryFields_apart_cycles : ∀ p : Fin 16, (boundaryFields p).all (fun f => f.apart (wholeReg (TW_CNT_CYCLES p))) = true := by
  decide +kernel

/-- The schedule of t follows that of s up to its open packet; its registers change as a boundary changes them. -/
abbrev State.AtBoundary (n : Nat) (s t : State) : Prop := s.OnCourse (boundaryFields n) n Tw.packetless t

section
variable {s t : State} (p : Fin 16)

theorem State.AtBoundary.scope (hstay : (s.tw p).stays) : TwScope p (s.AtBoundary p) :=
  State.OnCourse.scope (schedFields_subset_boundaryFields p) twView_packetless hstay

theorem State.AtBoundary.closePkt (h : s.AtBoundary p t) : s.AtBoundary p (t.closePkt p) :=
  State.OnCourse.closePkt p.isLt (itemFields_subset_boundaryFields p) (by simp [boundaryFields]) h

theorem State.AtBoundary.applyDelay (h : s.AtBoundary p t) : s.AtBoundary p (t.applyDelay p).2 := by
  have hdly : wholeReg (TW_DLY p) ∈ boundaryFields p := by simp [boundaryFields]
  have hevt : wholeReg (TW_EVT p) ∈ boundaryFields p := by simp [boundaryFields, schedFields, guardFields]
  unfold State.applyDelay
  dsimp only
  split
  · exact h
  · exact .setTw rfl (.setReg hevt (h.setReg hdly))

theorem turnCycle_told (hrole : (s.tw p).role = true) (hrequest : (s.tw p).request = none) (h : s.AtBoundary p t) :
    ((t.turnCycle p).tw p).cyc.k = ((s.tw p).cyc.k + 1) % 0x10000 ∧
      (t.turnCycle p).reg (TW_CNT_CYCLES p) = countUp (s.reg (TW_CNT_CYCLES p)) ∧
      tabWf regReset (t.turnCycle p).regs = true ∧ tabWf Port.reset (t.turnCycle p).ports = true := by
  have hP := State.AtBoundary.scope (s := s) p (.inl hrole)
  have hsettled : s.AtBoundary p (t.settlePrev p) := hP.settlePrev (fun _ hu => hu.closePkt) h
  have hnone : ((t.settlePrev p).tw p).request = none := (congrArg Tw.request hsettled.tw_eq :).trans hrequest
  have hdelayed := hsettled.applyDelay
  unfold State.turnCycle
  simp only [hnone]
  generalize (t.settlePrev p).applyDelay p = d at hdelayed ⊢
  obtain ⟨shift, u⟩ := d
  dsimp only at hdelayed ⊢
  have hk : (u.tw p).cyc.k = (s.tw p).cyc.k := (congrArg (fun w : Tw => w.cyc.k) hdelayed.tw_eq :)
  have hmember : (u.tw p).role = true := (congrArg Tw.role hdelayed.tw_eq :).trans hrole
  generalize hc : (u.tw p).nextCycle _ shift = c
  have hck : c.k = ((s.tw p).cyc.k + 1) % 0x10000 := by rw [← hc, ← hk]; rfl
  generalize hv : State.setTw u p _ = v
  have hvrole : (v.tw p).role = true := hv ▸ (congrArg Tw.role (tw_setTw_same hdelayed.tws_wf p _)).trans hmember
  have hvstart : v.AtBoundary p v := hv ▸ ⟨.start hdelayed.keeps.regs_wf hdelayed.keeps.ports_wf, tabPut_wf _ _ hdelayed.tws_wf, rfl⟩
  have hvcount : v.reg (TW_CNT_CYCLES p) = s.reg (TW_CNT_CYCLES p) :=
    hv ▸ hdelayed.keeps.reg_eq (boundaryFields_apart_cycles p)
  have hevt : wholeReg (TW_EVT p) ∈ schedFields p := by simp [schedFields, guardFields]
  have hstat : wholeReg (SF_STAT p) ∈ schedFields p := by simp [schedFields, guardFields]
  have hQ := State.AtBoundary.scope (s := v) p (.inl hvrole)
  generalize hy : (if (u.tw p).joining = true then State.event _ Ev.TW_JOIN _ else v) = y
  have hjoined : v.AtBoundary p y := hy ▸ .ite (hQ.event (by decide) (hQ.on hevt (hQ.setReg hstat hvstart))) hvstart
  generalize hz : (if (u.tw p).withholdNext = true then y.on _ else y) = z
  have hready : v.AtBoundary p z := hz ▸ .ite (hQ.on hstat hjoined) hjoined
  have hzrole : (z.tw p).role = true := (congrArg Tw.role hready.tw_eq :).trans hvrole
  have hbegun := beginCycle_begun p hready.keeps.regs_wf hready.keeps.ports_wf hready.tws_wf (.inl hzrole) c
  refine ⟨hbegun.counter.trans hck, hbegun.counted.trans (congrArg countUp ?_), hbegun.regs_wf, hbegun.ports_wf⟩
  rw [hready.keeps.reg_eq (boundaryFields_apart_cycles p), hvcount]

end

/-- A boundary at which nothing stops begins the next cycle (R125). -/
theorem boundary_told {s : State} (p : Fin 16) (hstart : s.AtBoundary p s) (hrunning : (s.tw p).phase = .running)
    (hrole : (s.tw p).role = true) (hstop : (s.tw p).stop = false) (hrestart : (s.tw p).restart = false)
    (hreload : (s.port p).reload = none) (hbrk : (s.port p).brk = none) (hrequest : (s.tw p).request = none) :
    ((s.boundary p).tw p).cyc.k = ((s.tw p).cyc.k + 1) % 0x10000 ∧
      (s.boundary p).reg (TW_CNT_CYCLES p) = countUp (s.reg (TW_CNT_CYCLES p)) ∧
      tabWf regReset (s.boundary p).regs = true ∧ tabWf Port.reset (s.boundary p).ports = true := by
  have hP := State.AtBoundary.scope (s := s) p (.inl hrole)
  have hwork : s.AtBoundary p ((s.busDeadCheck p).boundaryWork p) := by
    rw [busDeadCheck_of_brk_none hbrk]
    exact hP.boundaryWork (.setTw rfl hstart)
  have hcycling : (s.tw p).cycling = true := by simp [Tw.cycling, hrunning]
  have hturn : s.boundary p = ((s.busDeadCheck p).boundaryWork p).turnCycle p := by
    rw [State.boundary, if_neg (by simp [hrunning, hcycling])]
    generalize (s.busDeadCheck p).boundaryWork p = u at hwork
    have hphase : (u.tw p).phase = .running := (congrArg Tw.phase hwork.tw_eq :).trans hrunning
    have hnostop : (u.tw p).stop = false := (congrArg Tw.stop hwork.tw_eq :).trans hstop
    have hnorestart : (u.tw p).restart = false := (congrArg Tw.restart hwork.tw_eq :).trans hrestart
    have hnoreload : (u.port p).reloadWaits = false := by rw [Port.reloadWaits, hwork.reload_eq, hreload]
    simp [State.stopping, Tw.cycling, hphase, hnostop, hnorestart, hnoreload]
  rw [hturn]
  exact turnCycle_told p hrole hrequest hwork

section
variable {s : State} (p : Fin 16) (hcanon : s.canon = true)
include hcanon

theorem cycleBoundary_completes (hrunning : (s.tw p).phase = .running) (hrole : (s.tw p).role = true) (hruns : s.runs .port = true)
    (hstop : (s.tw p).stop = false) (hrestart : (s.tw p).restart = false) (hreload : (s.port p).reload = none)
    (hbrk : (s.port p).brk = none) (hbufs : (s.tw p).bufs = []) (hrequest : (s.tw p).request = none) :
    Completes (.cycleBoundary p []) s fun t => (t.tw p).cyc.k = ((s.tw p).cyc.k + 1) % 0x10000 ∧
      t.reg (TW_CNT_CYCLES p) = countUp (s.reg (TW_CNT_CYCLES p)) := by
  have hcycling : (s.tw p).cycling = true := by simp [Tw.cycling, hrunning]
  have hat : s.AtBoundary p ((s.advanceTo (s.tw p).cyc.fin).setGuard p ((s.advanceTo (s.tw p).cyc.fin).tw p).guard) :=
    .setTw rfl (.advanceTo (.of_canon hcanon))
  have hend : s.cycleEnd p [] =
      ((s.advanceTo (s.tw p).cyc.fin).setGuard p ((s.advanceTo (s.tw p).cyc.fin).tw p).guard).boundary p := by
    rw [State.cycleEnd, if_pos ⟨hruns, .inl hcycling⟩, if_pos hcycling, twAdvance_of_bufs_nil hbufs]
    rfl
  have hport : (s.advanceTo (s.tw p).cyc.fin).port p = s.port p := by rw [State.port, State.advanceTo_ports, State.port]
  refine completes_of_next rfl ?_
  rw [hend]
  generalize hu : (s.advanceTo (s.tw p).cyc.fin).setGuard p ((s.advanceTo (s.tw p).cyc.fin).tw p).guard = u at hat ⊢
  have hbrk' : (u.port p).brk = none := hu ▸ (congrArg Port.brk hport).trans hbrk
  obtain ⟨hk, hcount, hregs, hports⟩ := boundary_told p hat.restart ((congrArg Tw.phase hat.tw_eq :).trans hrunning)
    ((congrArg Tw.role hat.tw_eq :).trans hrole) ((congrArg Tw.stop hat.tw_eq :).trans hstop)
    ((congrArg Tw.restart hat.tw_eq :).trans hrestart) (hat.reload_eq.trans hreload) hbrk'
    ((congrArg Tw.request hat.tw_eq :).trans hrequest)
  have hloaded : (u.boundary p).Elsewhere ((u.boundary p).portLoaded p) := .portLoaded (.start hregs hports)
  have hkeeps : u.reg (TW_CNT_CYCLES p) = s.reg (TW_CNT_CYCLES p) := hat.keeps.reg_eq (boundaryFields_apart_cycles p)
  have hcounter : (u.tw p).cyc.k = (s.tw p).cyc.k := (congrArg (fun w : Tw => w.cyc.k) hat.tw_eq :)
  constructor
  · rw [State.tw, hloaded.tws_eq]
    exact hk.trans (by rw [hcounter])
  · rw [hloaded.reg_eq _ (by simp only [TW_CNT_CYCLES]; omega) (by simp only [TW_CNT_CYCLES]; omega), hcount, hkeeps]

end

/-- Settles O15: what a boundary and the guardian do beside a cycle that begins keeps the schedule on its course, and its counter. -/
theorem scheduleStartsAndStops : Obligations.ScheduleStartsAndStops := by
  unfold Obligations.ScheduleStartsAndStops
  refine ⟨?start, ?timeout, ?first, ?boundary, ?stop⟩
  case start => exact fun s o p hcanon hex hoff => twRunStart_completes o p hcanon hex hoff
  case timeout => exact fun s p hcanon ⟨hrole, hlisten⟩ => fnListenTimeout_completes p hcanon hrole hlisten
  case first => exact fun s p hcanon hstarting => twFirstCycleStart_completes p hcanon hstarting
  case boundary =>
    rintro s p flips hcanon ⟨hrunning, hrole, hruns, rfl⟩ ⟨hstop, hrestart, hreload, hbrk⟩ ⟨-, hbufs, hrequest⟩
    exact cycleBoundary_completes p hcanon hrunning hrole hruns hstop hrestart hreload hbrk hbufs hrequest
  case stop => exact fun s o p hcanon hex hcyc => twRunStop_completes o p hcanon hex hcyc

end Sys2Proof.Machine
end

section
/-!
SUPPORT. The mode switches of 04_trade_wind_bus.md: a table commit, a request for a switch, and its decision.
-/
namespace Sys2Proof.Machine

/-! ## Table commits (R130, R131, R174) -/

theorem mode_setMode {w : Tw} (hwf : tabWf (fun _ => {}) w.modes = true) (m j : Nat) (x : TwMode) :
    (w.setMode m x).mode j = if j = m then x else w.mode j := by
  rw [Tw.setMode, Tw.mode, tabGet_tabPut _ _ _ hwf, Tw.mode]

/-- The run copy that the edit copy of mode m of port n gives (R130). -/
def State.builtRun (s : State) (n m : Nat) : TwTable :=
  (buildRun ((s.tw n).mode m).edit (s.reg (TW_CYCLE n m)).toNat (s.rd (TW_GUARD.GUARD_NS n m))).1

/-- Mode x holds what a commit of mode m in s gives (R131): on its way to the boundary where the mode runs or is announced, otherwise in
force. -/
def State.TableIn (s : State) (n m : Nat) (x : TwMode) : Prop :=
  if (s.tw n).busy m then x.pend.map (fun y => y.1) = some (s.builtRun n m) else x.run = s.builtRun n m

theorem applyTable_tw {s : State} (htws : tabWf Tw.reset s.tws = true) (n m : Nat) (tab : TwTable) (clip : Nat) :
    (s.applyTable n m tab clip).tw n = (s.tw n).setMode m { (s.tw n).mode m with run := tab, pend := none } := by
  have hset := tw_setTw_same htws n ((s.tw n).setMode m { (s.tw n).mode m with run := tab, pend := none })
  unfold State.applyTable
  dsimp only
  split_ifs
  · exact hset
  · exact hset

theorem applyTable_tws_wf {s : State} (htws : tabWf Tw.reset s.tws = true) (n m : Nat) (tab : TwTable) (clip : Nat) :
    tabWf Tw.reset (s.applyTable n m tab clip).tws = true := by
  unfold State.applyTable
  dsimp only
  split_ifs
  · exact tabPut_wf _ _ htws
  · exact tabPut_wf _ _ htws

/-- The commit of a mode gives the mode its table, and changes the guardian beside it. -/
theorem commitTable_told {s : State} (htws : tabWf Tw.reset s.tws = true) (n m : Nat) :
    tabWf Tw.reset (s.commitTable n m).tws = true ∧ ∃ g x, (s.commitTable n m).tw n = ({ s.tw n with guard := g } : Tw).setMode m x ∧ s.TableIn n m x := by
  have hguard : ∀ g, tabWf Tw.reset (s.setTw n { s.tw n with guard := g }).tws = true := fun _ => tabPut_wf _ _ htws
  unfold State.commitTable State.TableIn State.builtRun
  dsimp only
  split_ifs with hbusy
  · exact ⟨tabPut_wf _ _ htws, _, _, tw_setTw_same htws n _, rfl⟩
  · exact ⟨applyTable_tws_wf (hguard _) _ _ _ _, _, _, (applyTable_tw (hguard _) n m _ _).trans
      (congrArg (fun w : Tw => w.setMode m { w.mode m with run := _, pend := none }) (tw_setTw_same htws n _)), rfl⟩

theorem State.Keeps.commitTable {n m : Nat} {s t : State} (hm : m < 4) (h : s.Keeps (guardFields n) n Port.unseen t) :
    s.Keeps (guardFields n) n Port.unseen (t.commitTable n m) := by
  unfold State.commitTable
  exact .ite h.setTw (.applyTable hm h.setTw)

/-- Before the commit of mode k of port n, where s is the state before the first: the modes to come are as they were in s, and the others of
modes hold their tables; what a commit reads has not changed. -/
structure State.Committing (modes : BitVec 4) (n k : Nat) (s t : State) : Prop where
  keeps : s.Keeps (guardFields n) n Port.unseen t
  tws_wf : tabWf Tw.reset t.tws = true
  modes_wf : tabWf (fun _ => {}) (t.tw n).modes = true
  busy_eq : (t.tw n).busy = (s.tw n).busy
  left : ∀ j, k ≤ j → (t.tw n).mode j = (s.tw n).mode j
  done : ∀ j, j < k → modes.getLsbD j = true → s.TableIn n j ((t.tw n).mode j)

theorem fields_apart_tables : ∀ (p : Fin 16) (m : Fin 4), (guardFields p).all (fun f => f.apart (wholeReg (TW_CYCLE p m))) = true ∧
    (guardFields p).all (fun f => f.apart (TW_GUARD.GUARD_NS p m)) = true := by decide +kernel

/-- TW_TABLE_COMMIT's work on mode m. -/
def State.commitOne (s : State) (o : Origin) (modes : BitVec 4) (n m : Nat) : State :=
  if modes.getLsbD m then (s.commitTable n m).configWrite o (TW_TCOMMIT n) (BitVec.ofNat 32 (2 ^ m)) 0 else s

theorem State.Committing.commitOne {s t : State} {modes : BitVec 4} {p : Fin 16} {k : Nat} (o : Origin) (hk : k < 4)
    (h : s.Committing modes p k t) : s.Committing modes p (k + 1) (t.commitOne o modes p k) := by
  obtain ⟨hcycle, hgns⟩ := fields_apart_tables p ⟨k, hk⟩
  unfold State.commitOne
  split_ifs with hmode
  · obtain ⟨hwf, g, x, htw, hx⟩ := commitTable_told h.tws_wf p k
    have htold : (t.commitTable p k).Signals ((t.commitTable p k).configWrite o (TW_TCOMMIT p) (BitVec.ofNat 32 (2 ^ k)) 0) :=
      .configWrite .start
    have hsame := (htold.tw_eq p).trans htw
    have hmodes := fun j => mode_setMode (w := { t.tw p with guard := g }) h.modes_wf k j x
    have hin : s.TableIn p k x := by
      rw [State.TableIn, State.builtRun] at hx ⊢
      rwa [h.busy_eq, h.left k le_rfl, h.keeps.reg_eq hcycle, h.keeps.rd_eq _ hgns] at hx
    refine ⟨.configWrite (logFields_subset_guardFields p) (h.keeps.commitTable hk), htold.tws_eq ▸ hwf, ?_, ?_, ?_, ?_⟩
    · rw [hsame]
      exact tabPut_wf _ _ h.modes_wf
    · rw [hsame]
      exact h.busy_eq
    · intro j hj
      rw [hsame, hmodes, if_neg (by omega)]
      exact h.left j (by omega)
    · intro j hj hbit
      rw [hsame, hmodes]
      split_ifs with hjk
      · exact hjk ▸ hin
      · exact h.done j (by omega) hbit
  · refine { h with left := fun j hj => h.left j (by omega), done := fun j hj hbit => h.done j ?_ hbit }
    have hjk : j ≠ k := fun hjk => hmode (hjk ▸ hbit)
    omega

section
variable {s : State} (o : Origin) (p : Fin 16) (hcanon : s.canon = true)
include hcanon

theorem twTableCommit_completes (modes : BitVec 4) (hex : s.regExists (TW_TCOMMIT p) = true)
    (hwf : tabWf (fun _ => {}) (s.tw p).modes = true) :
    Completes (.twTableCommit o p modes) s fun t => ∀ m : Fin 4, modes.getLsbD m = true → s.TableIn p m ((t.tw p).mode m) := by
  have hstart : s.Committing modes p 0 s :=
    ⟨.of_canon hcanon, State.tws_wf_of_canon hcanon, hwf, rfl, fun _ _ => rfl, fun _ hj => absurd hj (Nat.not_lt_zero _)⟩
  have hend := (((hstart.commitOne o (by decide)).commitOne o (by decide)).commitOne o (by decide)).commitOne o (by decide)
  exact completes_of_next (if_pos hex) fun m hbit => hend.done m m.isLt hbit

/-! ## A request for a switch (R153) -/

theorem twSwitch_ignored (v : Word) (hex : s.regExists (TW_SWITCH p) = true) (hnot : (s.tw p).role = false ∨ (s.tw p).phase ≠ .running) :
    Completes (.twSwitch o p v) s fun t => t.bit (TW_EVT.SWITCH_IGN p) = true ∧ (t.tw p).request = (s.tw p).request := by
  have htold : s.Signals (s.regStore o (TW_SWITCH p) v) := .regStore .start
  have hkeeps := regStore_keeps o p hcanon v (a := TW_SWITCH p) (by simp only [TW_SWITCH]; omega)
  refine completes_of_next (t := (s.regStore o (TW_SWITCH p) v).on (TW_EVT.SWITCH_IGN p)) ?next
    ⟨bit_on hkeeps.regs_wf (by simp [TW_EVT.SWITCH_IGN]) rfl, congrArg Tw.request (htold.tw_eq p)⟩
  case next =>
    change execTwSwitch o p v s = _
    rw [← htold.tw_eq p] at hnot
    simp only [execTwSwitch, hex, Bool.true_eq_false, if_false, hnot, if_true]

end

theorem switchRow_plain : ∀ p : Fin 16, (regRow? (TW_SWITCH p)).any (fun r => r.plain 3) = true ∧
    logFields.all (fun f => f.apart (TW_SWITCH.NEXT_MODE p)) = true := by decide +kernel

/-- The request that a first node takes for another mode than that it runs (R153). -/
theorem requestSwitch_mode {s : State} (htws : tabWf Tw.reset s.tws = true) {n m c cur : Nat} (hm : m ≠ cur) :
    ((s.requestSwitch n m c cur).tw n).request.map TwSwitch.mode = some m := by
  have hcleared : s.Signals ((List.range 8).foldl (fun s i => s.setReg (TW_ACK_SEEN n i) 0) s) :=
    .foldl _ (fun _ _ ht => ht.setReg) .start
  rw [State.requestSwitch, if_neg hm]
  exact congrArg (fun w : Tw => w.request.map TwSwitch.mode) (tw_setTw_same (hcleared.tws_eq ▸ htws) n _)

section
variable {s : State} (o : Origin) (p : Fin 16) (hcanon : s.canon = true)
include hcanon

/-- A write of TW_SWITCH stores NEXT_MODE as it is written. -/
theorem nextMode_stored (v : Word) (hex : s.regExists (TW_SWITCH p) = true) :
    (s.regStore o (TW_SWITCH p) v).rd (TW_SWITCH.NEXT_MODE p) = fldOf (TW_SWITCH.NEXT_MODE p) v := by
  obtain ⟨hrow, hlog⟩ := switchRow_plain p
  have hregs := State.regs_wf_of_canon hcanon
  obtain ⟨new, hbits, hkeep⟩ := regStore_told (o := o) (v := v) hregs (State.ports_wf_of_canon hcanon) p
    (by simp only [TW_SWITCH]; omega) hrow hex
  rw [hkeep.rd_eq _ hlog, State.rd, TW_SWITCH.NEXT_MODE, reg_setReg hregs, if_pos rfl]
  refine Nat.eq_of_testBit_eq fun i => ?_
  rw [testBit_fldOf, testBit_fldOf, BitVec.testBit_toNat, BitVec.testBit_toNat, Nat.zero_add]
  by_cases hi : i < 2
  · have hmask : Nat.testBit 3 i = true := by interval_cases i <;> rfl
    rw [hbits i (by omega) hmask]
  · simp [hi]

theorem twSwitch_requested (v : Word) (hex : s.regExists (TW_SWITCH p) = true) (hrole : (s.tw p).role = true)
    (hrunning : (s.tw p).phase = .running) (hrequest : (s.tw p).request = none) (hdecided : (s.tw p).decided = none)
    (hmode : fldOf (TW_SWITCH.NEXT_MODE p) v ≠ (s.tw p).cyc.mode) :
    Completes (.twSwitch o p v) s fun t => (t.tw p).request.map TwSwitch.mode = some (fldOf (TW_SWITCH.NEXT_MODE p) v) := by
  have htold : s.Signals (s.regStore o (TW_SWITCH p) v) := .regStore .start
  have htw := htold.tw_eq p
  have hstored := nextMode_stored o p hcanon v hex
  have htws : tabWf Tw.reset (s.regStore o (TW_SWITCH p) v).tws = true := htold.tws_eq ▸ State.tws_wf_of_canon hcanon
  change ∃ t, execTwSwitch o p v s = .next t ∧ _
  simp only [execTwSwitch, hex, Bool.true_eq_false, if_false, htw, hrole, hrunning, ne_eq, not_true_eq_false, or_self, hrequest,
    hdecided, hstored]
  exact ⟨_, rfl, requestSwitch_mode htws hmode⟩

end

/-! ## The decision (R155) -/

/-- Where every acknowledgement bit is set, no address of the expected set is missing. -/
theorem missing_eq_nil {s : State} {n : Nat} (hseen : (List.range 8).all (fun i => s.reg (TW_ACK_SEEN n i) == 0xFFFFFFFF) = true)
    (tab : TwTable) : (s.expected n tab).filter (fun a => !s.regBit (TW_ACK_SEEN n (a / 32)) (a % 32)) = [] := by
  have hones : ∀ i : Fin 32, (0xFFFFFFFF : Word).getLsbD i = true := by decide
  refine List.filter_eq_nil_iff.2 fun a ha => ?_
  have hlt : a < 256 := expected_lt (List.contains_iff_mem.2 ha)
  have hreg := List.all_eq_true.1 hseen (a / 32) (List.mem_range.2 (by omega))
  have hbit : (0xFFFFFFFF : Word).getLsbD (a % 32) = true := hones ⟨a % 32, Nat.mod_lt _ (by omega)⟩
  rw [State.regBit, eq_of_beq hreg, hbit]
  decide

theorem fields_apart_done : ∀ p : Fin 16,
    (wholeReg (TW_CNT_SW_DONE p) :: logFields).all (fun f => f.apart (TW_EVT.SWITCH_DONE p)) = true := by decide +kernel

/-- A switch that no address keeps back is done (R155). -/
theorem decideSwitch_done {s : State} (p : Fin 16) (hregs : tabWf regReset s.regs = true) (hports : tabWf Port.reset s.ports = true)
    (htws : tabWf Tw.reset s.tws = true) (r : TwSwitch)
    (hseen : (List.range 8).all (fun i => s.reg (TW_ACK_SEEN p i) == 0xFFFFFFFF) = true) (hheld : (s.tw p).heldSwitch = none) :
    ((s.decideSwitch p r).tw p).request = none ∧ ((s.decideSwitch p r).tw p).decided = some (r.at_, r.mode) ∧
      (s.decideSwitch p r).bit (TW_EVT.SWITCH_DONE p) = true := by
  have hshown : tabWf regReset (s.on (TW_EVT.SWITCH_DONE p)).regs = true := setReg_wf _ _ hregs
  unfold State.decideSwitch
  simp only [missing_eq_nil hseen, List.length_nil, decide_true, if_true, hheld]
  generalize hu : State.event _ Ev.SWITCH_DONE _ = u
  have htold : s.Signals u := hu ▸ .event (.setReg (.setReg .start))
  have hkeeps : (s.on (TW_EVT.SWITCH_DONE p)).Keeps (wholeReg (TW_CNT_SW_DONE p) :: logFields) p Port.unseen u :=
    hu ▸ .event (List.subset_cons_self _ _) (.inc (.start hshown hports) List.mem_cons_self)
  have htw := tw_setTw_same (htold.tws_eq ▸ htws) p { u.tw p with request := none, heldSwitch := none, decided := some (r.at_, r.mode) }
  exact ⟨congrArg Tw.request htw, congrArg Tw.decided htw,
    (hkeeps.bit_eq (fields_apart_done p)).trans (bit_on hregs (by simp [TW_EVT.SWITCH_DONE]) rfl)⟩

theorem switchDecision_completes {s : State} (p : Fin 16) (hcanon : s.canon = true) (r : TwSwitch) (hrequest : (s.tw p).request = some r)
    (hrunning : (s.tw p).phase = .running) (hat : r.at_ = ((s.tw p).cyc.k + 1) % 0x10000) (hheld : (s.tw p).heldSwitch = none)
    (hseen : (List.range 8).all (fun i => s.reg (TW_ACK_SEEN p i) == 0xFFFFFFFF) = true) :
    Completes (.switchDecision p) s fun t => (t.tw p).request = none ∧ (t.tw p).decided = some (r.at_, r.mode) ∧
      t.bit (TW_EVT.SWITCH_DONE p) = true := by
  have htime : s.Keeps [] p id (s.advanceTo (s.decisionTime p)) := .advanceTo (.of_canon hcanon)
  refine completes_of_next (t := (s.advanceTo (s.decisionTime p)).decideSwitch p r) ?next (decideSwitch_done p htime.regs_wf
    htime.ports_wf ?tws r ?seen ?held)
  case next =>
    change execSwitchDecision p s = _
    simp only [execSwitchDecision, hrequest, hrunning, ← hat, and_self, if_true]
  case tws =>
    rw [State.advanceTo_tws]
    exact State.tws_wf_of_canon hcanon
  case seen => simpa only [State.advanceTo_reg] using hseen
  case held => rw [State.advanceTo_tw, hheld]

/-- Settles O16: a commit of one mode leaves the others as they are, and what a write, a switch and its decision record leaves the schedule as
it is. -/
theorem modeSwitchesComplete : Obligations.ModeSwitchesComplete := by
  unfold Obligations.ModeSwitchesComplete
  refine ⟨?commit, ?ignored, ?requested, ?decided⟩
  case commit => exact fun s o p modes hcanon hex hwf => twTableCommit_completes o p hcanon modes hex hwf
  case ignored => exact fun s o p v hcanon hex hnot => twSwitch_ignored o p hcanon v hex hnot
  case requested =>
    exact fun s o p v hcanon hex ⟨hrole, hrunning, hrequest, hdecided⟩ hmode =>
      twSwitch_requested o p hcanon v hex hrole hrunning hrequest hdecided hmode
  case decided =>
    exact fun s p hcanon r hrequest ⟨hrunning, hat, hheld⟩ hseen => switchDecision_completes p hcanon r hrequest hrunning hat hheld hseen

end Sys2Proof.Machine
end

section
/-!
SUPPORT. The slots of 04_trade_wind_bus.md: commit deadlines, slots that start, and slots that end.
-/
namespace Sys2Proof.Machine

/-! ## Commit deadlines (R28, R134, R140, R180) -/

theorem markDone_tw {s : State} (htws : tabWf Tw.reset s.tws = true) (n e : Nat) :
    (s.markDone n e false).tw n = { s.tw n with cyc := { (s.tw n).cyc with done := e :: (s.tw n).cyc.done } } :=
  tw_setTw_same htws n _

theorem fields_apart_log : ∀ p : Fin 16, logFields.all (fun f => f.apart (wholeReg (SF_CNT_WITHHELD p))) = true ∧
    logFields.all (fun f => f.apart (wholeReg (TW_CNT_SETTLE p))) = true := by decide +kernel

/-- A slot of a muzzled port passes unused, counted as withheld (R28, R180). -/
theorem passSlot_told {s : State} (p : Fin 16) (hregs : tabWf regReset s.regs = true) (hports : tabWf Port.reset s.ports = true)
    (e : Nat) (x : TwEntry) : (s.passSlot p e 2 x).tw p = s.tw p ∧
      (s.passSlot p e 2 x).reg (SF_CNT_WITHHELD p) = countUp (s.reg (SF_CNT_WITHHELD p)) := by
  have hcounted : tabWf regReset (s.inc (SF_CNT_WITHHELD p)).regs = true := setReg_wf _ _ hregs
  have htold : s.Signals (s.passSlot p e 2 x) := .event (.setReg .start)
  have hkeeps : (s.inc (SF_CNT_WITHHELD p)).Keeps logFields p Port.unseen (s.passSlot p e 2 x) :=
    .giveWay (fun _ hf => hf) (.start hcounted hports)
  exact ⟨htold.tw_eq p, (hkeeps.reg_eq (fields_apart_log p).1).trans (reg_inc hregs _)⟩

/-- A slot that starts in settling passes unused, and is counted (R161). -/
theorem settleSlot_told {s : State} (p : Fin 16) (hregs : tabWf regReset s.regs = true) (hports : tabWf Port.reset s.ports = true)
    (e : Nat) : (s.settleSlot p e).reg (TW_CNT_SETTLE p) = countUp (s.reg (TW_CNT_SETTLE p)) := by
  have hcounted : tabWf regReset (s.inc (TW_CNT_SETTLE p)).regs = true := setReg_wf _ _ hregs
  have hkeeps : (s.inc (TW_CNT_SETTLE p)).Keeps logFields p Port.unseen (s.settleSlot p e) :=
    .giveWay (fun _ hf => hf) (.start hcounted hports)
  exact (hkeeps.reg_eq (fields_apart_log p).2).trans (reg_inc hregs _)

/-- Whether a frame fits a slot depends on registers alone (R141). -/
theorem slotFits_of_regs {s t : State} (h : t.regs = s.regs) (n c : Nat) (x : TwEntry) : t.slotFits n c x = s.slotFits n c x := by
  have hreg : t.reg = s.reg := by
    funext a
    rw [State.reg, h, State.reg]
  have hrd : t.rd = s.rd := by
    funext f
    rw [State.rd, hreg, State.rd]
  have hbit : t.bitTime n = s.bitTime n := by simp only [State.bitTime, State.dEff, State.osr, State.div, hreg, hrd]
  rw [State.slotFits, hbit, hrd, State.slotFits]

theorem beBytes_length (x n : Nat) : (beBytes x n).length = n := by
  have hle : ∀ y : Nat, (leBytes y n).length = n := by
    induction n with
    | zero => exact fun _ => rfl
    | succ n ih => exact fun y => by rw [leBytes, List.length_cons, ih]
  rw [beBytes, List.length_reverse, hle]

/-- The head of a SYNC frame has 18 bytes (R134). -/
theorem syncHead_length (s : State) (n : Nat) (c : TwCycle) : (s.syncHead n c).length = 18 := by
  simp [State.syncHead, beBytes_length]

/-- A SYNC frame that fits its slot is built (R134, R140). -/
theorem commitBuilt_sync {s : State} (htws : tabWf Tw.reset s.tws = true) {n e : Nat} {c : TwCycle} {x : TwEntry} (hkind : x.kind = 1)
    (hfits : s.slotFits n 20 x = true) :
    (s.commitBuilt n e c x false).tw n =
      { s.tw n with bufs := (s.tw n).bufs ++ [{ entry := e, next := false, kind := 1, head := s.syncHead n c }] } := by
  simp only [State.commitBuilt, hkind, State.addBuilt, syncHead_length, hfits, if_true, State.addBuf]
  exact tw_setTw_same htws n _

/-- A muzzled port withholds its slots (R180). -/
theorem barred_of_muzzled {s : State} {n : Nat} (h : (s.tw n).guard.muzzled = true) (next : Bool) (c : TwCycle) :
    s.barred n next c = some 2 := by
  simp [State.barred, h]

/-- Nothing but a muzzle bars a first node (R180, R182, R183). -/
theorem barred_of_role {s : State} {n : Nat} (hrole : (s.tw n).role = true) (hfree : (s.tw n).guard.muzzled = false) (next : Bool)
    (c : TwCycle) : s.barred n next c = none := by
  simp [State.barred, hrole, hfree]

theorem withheldCause_of_muzzled {s : State} {n : Nat} (h : (s.tw n).guard.muzzled = true) (due : Nat) (next : Bool) (c : TwCycle)
    (x : TwEntry) : s.withheldCause n due next c x = some 2 := by
  simp only [State.withheldCause, barred_of_muzzled h]

theorem withheldCause_of_role {s : State} {n : Nat} (hrole : (s.tw n).role = true) (hfree : (s.tw n).guard.muzzled = false) (due : Nat)
    (next : Bool) (c : TwCycle) (x : TwEntry) : s.withheldCause n due next c x = none := by
  simp [State.withheldCause, barred_of_role hrole hfree, hrole]

/-- The state in which the deadline of entry e's slot x in the running cycle has passed, where no frame is built. -/
def State.pastDeadline (s : State) (n e : Nat) (c : TwCycle) (x : TwEntry) : State :=
  (s.advanceTo (c.slotStart x - s.commitLead n x)).markDone n e false

section
variable {s : State} (p : Fin 16) (e : Fin 64) (hcanon : s.canon = true) {c : TwCycle} {x : TwEntry}
include hcanon

theorem pastDeadline_told : tabWf Tw.reset (s.pastDeadline p e c x).tws = true ∧ (s.pastDeadline p e c x).regs = s.regs ∧
    (s.pastDeadline p e c x).ports = s.ports ∧
    (s.pastDeadline p e c x).tw p = { s.tw p with cyc := { (s.tw p).cyc with done := e.val :: (s.tw p).cyc.done } } := by
  have htws : tabWf Tw.reset (s.advanceTo (c.slotStart x - s.commitLead p x)).tws = true := by
    rw [State.advanceTo_tws]
    exact State.tws_wf_of_canon hcanon
  refine ⟨tabPut_wf _ _ htws, s.advanceTo_regs _, s.advanceTo_ports _, ?_⟩
  rw [State.pastDeadline, markDone_tw htws, State.advanceTo_tw]

variable (hslot : s.slotToCommit p e = some (c, x, false)) (hown : (s.tw p).ownsIn c x = true) (hruns : s.runs .port = true)
  (hforfeit : (s.tw p).forfeit = false) (hbufs : (s.tw p).bufs = [])
include hslot hown hruns hforfeit hbufs

theorem slotCommitDeadline_muzzled (hmuzzled : (s.tw p).guard.muzzled = true) :
    Completes (.slotCommitDeadline p e) s fun t => (t.tw p).cyc.done = e.val :: (s.tw p).cyc.done ∧ (t.tw p).bufs = [] ∧
      t.reg (SF_CNT_WITHHELD p) = countUp (s.reg (SF_CNT_WITHHELD p)) := by
  obtain ⟨-, hregs, hports, htw⟩ := pastDeadline_told p e hcanon (c := c) (x := x)
  have hmuzzled' : ((s.pastDeadline p e c x).tw p).guard.muzzled = true := by rw [htw, ← hmuzzled]
  have hforfeit' : ((s.pastDeadline p e c x).tw p).forfeit = false := by rw [htw, ← hforfeit]
  obtain ⟨hsame, hcount⟩ := passSlot_told p (hregs ▸ State.regs_wf_of_canon hcanon) (hports ▸ State.ports_wf_of_canon hcanon) e x
  refine completes_of_next (t := (s.pastDeadline p e c x).passSlot p e 2 x) ?next ⟨?done, ?bufs, ?count⟩
  case next =>
    change execSlotCommitDeadline p e s = _
    simp only [execSlotCommitDeadline, hslot, hown, hruns, Bool.true_eq_false, or_self, if_false, twAdvance_of_bufs_nil hbufs]
    rw [← State.pastDeadline, if_neg (by rw [hforfeit']; decide), withheldCause_of_muzzled hmuzzled']
  case done => rw [hsame, htw]
  case bufs => rw [hsame, htw, ← hbufs]
  case count => rw [hcount, State.reg, hregs, State.reg]

theorem slotCommitDeadline_sync (hrole : (s.tw p).role = true) (hkind : x.kind = 1) (hfree : (s.tw p).guard.muzzled = false)
    (hfits : s.slotFits p 20 x = true) :
    Completes (.slotCommitDeadline p e) s fun t => (t.tw p).cyc.done = e.val :: (s.tw p).cyc.done ∧
      (t.tw p).bufs = [{ entry := e.val, next := false, kind := 1, head := s.syncHead p c }] := by
  obtain ⟨htws, hregs, -, htw⟩ := pastDeadline_told p e hcanon (c := c) (x := x)
  have hfree' : ((s.pastDeadline p e c x).tw p).guard.muzzled = false := by rw [htw, ← hfree]
  have hrole' : ((s.pastDeadline p e c x).tw p).role = true := by rw [htw, ← hrole]
  have hforfeit' : ((s.pastDeadline p e c x).tw p).forfeit = false := by rw [htw, ← hforfeit]
  have hhead : (s.pastDeadline p e c x).syncHead p c = s.syncHead p c := by rw [State.syncHead, htw, State.syncHead]
  have hbuilt := commitBuilt_sync (e := e.val) (c := c) htws hkind ((slotFits_of_regs hregs p 20 x).trans hfits)
  refine completes_of_next (t := (s.pastDeadline p e c x).commitBuilt p e c x false) ?next ⟨?done, ?bufs⟩
  case next =>
    change execSlotCommitDeadline p e s = _
    simp only [execSlotCommitDeadline, hslot, hown, hruns, Bool.true_eq_false, or_self, if_false, twAdvance_of_bufs_nil hbufs]
    rw [← State.pastDeadline, if_neg (by rw [hforfeit']; decide), withheldCause_of_role hrole' hfree']
    simp [hkind]
  case done => rw [hbuilt, htw]
  case bufs => rw [hbuilt, htw, hhead, hbufs, List.nil_append]

end

/-! ## Slots that start in settling (R161) -/

section
variable {s : State} (p : Fin 16) (e : Fin 64) (hcanon : s.canon = true)
include hcanon

theorem slotStart_settling (edge : Bool) (hcyc : (s.tw p).cycling = true) (hen : ((s.tw p).cyc.table.entry e).en = true)
    (hown : (s.tw p).owns ((s.tw p).cyc.table.entry e) = true) (hruns : s.runs .port = true) (hwaiting : (s.tw p).waiting = [])
    (hsending : (s.tw p).sending = none) (hbufs : (s.tw p).bufs = []) (hsettling : s.bit (SP_STAT.BAUD_SETTLING p) = true) :
    Completes (.slotStart p e edge) s fun t => t.reg (TW_CNT_SETTLE p) = countUp (s.reg (TW_CNT_SETTLE p)) := by
  have htime (d : Nat) : s.Keeps [] p id (s.advanceTo d) := .advanceTo (.of_canon hcanon)
  change ∃ t, execSlotStart p e edge s = .next t ∧ _
  simp only [execSlotStart, hcyc, hen, hown, hruns, hwaiting, hsending, hbufs, hsettling, Bool.true_eq_false, or_self, if_false,
    List.contains_nil, Bool.false_eq_true, Option.filter_none, List.find?_nil, if_true]
  exact ⟨_, rfl, (settleSlot_told p (htime _).regs_wf (htime _).ports_wf e).trans (by rw [State.advanceTo_reg])⟩

end

/-! ## Slots that end (R139, R185) -/

theorem fields_apart_absent : ∀ (p : Fin 16) (i : Fin 8),
    (wholeReg (SF_EVT p.val) :: logFields).all (fun f => f.apart (wholeReg (SF_ABSENT p i))) = true := by decide +kernel

/-- An address that becomes absent is shown as absent, and nothing of the schedules changes (R185). -/
theorem absent_told {s : State} (p : Fin 16) {a : Nat} (ha : a < 256) (hregs : tabWf regReset s.regs = true)
    (hports : tabWf Port.reset s.ports = true) :
    s.Signals (((s.setRegBit (SF_ABSENT p (a / 32)) (a % 32) true).on (SF_EVT.ABSENT p)).event Ev.TW_ABSENT [p.val, a]) ∧
      (((s.setRegBit (SF_ABSENT p (a / 32)) (a % 32) true).on (SF_EVT.ABSENT p)).event Ev.TW_ABSENT [p.val, a]).regBit
        (SF_ABSENT p (a / 32)) (a % 32) = true := by
  have hset : tabWf regReset (s.setRegBit (SF_ABSENT p (a / 32)) (a % 32) true).regs = true := setReg_wf _ _ hregs
  have hkeeps : (s.setRegBit (SF_ABSENT p (a / 32)) (a % 32) true).Keeps (wholeReg (SF_EVT p) :: logFields) p Port.unseen
      (((s.setRegBit (SF_ABSENT p (a / 32)) (a % 32) true).on (SF_EVT.ABSENT p)).event Ev.TW_ABSENT [p.val, a]) :=
    .event (List.subset_cons_self _ _) (.on (.start hset hports) List.mem_cons_self)
  refine ⟨.event (.setReg (.setReg .start)), ?_⟩
  rw [State.regBit, hkeeps.reg_eq (fields_apart_absent p ⟨a / 32, by omega⟩)]
  have hbit := bit_put (s := s) hregs (f := ⟨SF_ABSENT p (a / 32), a % 32, 1⟩) (by simp only; omega) rfl true
  rwa [bit_eq_getLsbD rfl] at hbit

/-- An address that has had its last slot counts a silent cycle, or none where it was heard; with SILENT_CYC of them it is absent (R185). -/
theorem silence_told {s : State} (p : Fin 16) {a : Nat} (ha : a < 256) (hregs : tabWf regReset s.regs = true)
    (hports : tabWf Port.reset s.ports = true) (htws : tabWf Tw.reset s.tws = true) (hwf : tabWf (fun _ => 0) (s.tw p).silent = true)
    (c : TwCycle) (hlim : s.rd (SF_SILENT.SILENT_CYC p) ≠ 0) :
    (tabGet (fun _ => 0) ((s.silence p c a).tw p).silent a = if c.heard.contains a then 0 else tabGet (fun _ => 0) (s.tw p).silent a + 1) ∧
      (c.heard.contains a = false ∧ s.rd (SF_SILENT.SILENT_CYC p) ≤ tabGet (fun _ => 0) (s.tw p).silent a + 1 →
        (s.silence p c a).regBit (SF_ABSENT p (a / 32)) (a % 32) = true) := by
  have hset : ∀ k, tabGet (fun _ => 0) ((s.setTw p { s.tw p with silent := tabPut (fun _ => 0) (s.tw p).silent a k }).tw p).silent a = k :=
    fun k => by rw [tw_setTw_same htws, tabGet_tabPut _ _ _ hwf, if_pos rfl]
  unfold State.silence
  simp only [hlim, if_false]
  cases hheard : c.heard.contains a with
  | true =>
    simp only [if_true]
    exact ⟨hset 0, fun hnot => absurd hnot.1 (by decide)⟩
  | false =>
    simp only [Bool.false_eq_true, if_false]
    generalize tabGet (fun _ => 0) (s.tw p).silent a + 1 = k
    have hk := hset k
    obtain ⟨htold, habsent⟩ := absent_told (s := s.setTw p { s.tw p with silent := tabPut (fun _ => 0) (s.tw p).silent a k }) p ha
      hregs hports
    generalize s.setTw p { s.tw p with silent := tabPut (fun _ => 0) (s.tw p).silent a k } = u at hk htold habsent ⊢
    split_ifs with hreached
    · exact ⟨(congrArg (fun w : Tw => tabGet (fun _ => 0) w.silent a) (htold.tw_eq p)).trans hk, fun _ => habsent⟩
    · exact ⟨hk, fun hlong => by simpa [hlong.2] using hreached⟩

/-- The end of the last slot of an expected owner, where no packet is open (R185). -/
theorem slotEnded_eq_silence {s : State} {n e : Nat} {c : TwCycle} (hpkt : (s.tw n).pkt = none) (hkind : (c.table.entry e).kind = 2)
    (hrole : (s.tw n).role = true) (hrunning : (s.tw n).phase = .running)
    (hexpected : (s.expected n c.table).contains (c.table.entry e).owner = true)
    (hlast : c.table.slots.all (fun y => y.2.kind == 4 || y.2.kind != 2 || y.2.owner != (c.table.entry e).owner ||
      decide (y.2.start ≤ (c.table.entry e).start)) = true)
    (hnodelay : c.table.slots.all (fun y => y.2.kind != 4) = true) :
    s.slotEnded n c e = s.silence n c (c.table.entry e).owner := by
  unfold State.slotEnded
  extract_lets w x u subject
  have hu : u = s := by simp only [u, w, hpkt]
  have hsubject : subject x = some x.owner := if_pos hkind
  have hall : c.table.slots.all (fun y => subject y.2 != some x.owner || decide (y.2.start ≤ x.start)) = true := by
    refine List.all_eq_true.2 fun y hy => ?_
    have hy4 : y.2.kind ≠ 4 := by simpa using List.all_eq_true.1 hnodelay y hy
    have hylast := List.all_eq_true.1 hlast y hy
    by_cases hy2 : y.2.kind = 2
    · simpa [subject, hy2] using hylast
    · simp [subject, hy2, hy4]
  rw [hu]
  simp only [hsubject]
  exact if_pos ⟨hrole, hrunning, hall, hexpected⟩

/-- The expected set of a table depends on registers and the schedules alone (R155). -/
theorem expected_of_same {s t : State} (hregs : t.regs = s.regs) (htws : t.tws = s.tws) (n : Nat) (tab : TwTable) :
    t.expected n tab = s.expected n tab := by
  simp only [State.expected, State.regBit, State.reg, State.tw, hregs, htws]

/-! ### Device time at the end of a slot -/

/-- From s to t no time passes, and no domain stops. -/
structure State.SameTime (s t : State) : Prop where
  time_eq : t.time = s.time
  stopped_eq : t.stopped = s.stopped

namespace State.SameTime
section
variable {s t u : State} {n m clip cause code a e : Nat} {tab : TwTable} {nums : List Nat} {x : Word} {w : Tw} {pt : Port} {c : TwCycle}

theorem ite {c : Prop} [Decidable c] (ht : s.SameTime t) (hu : s.SameTime u) : s.SameTime (if c then t else u) := by
  split_ifs
  · exact ht
  · exact hu

theorem start : s.SameTime s := ⟨rfl, rfl⟩

theorem alike (h : s.SameTime t) (hu : t.Alike u) : s.SameTime u := ⟨hu.time_eq.trans h.time_eq, hu.stopped_eq.trans h.stopped_eq⟩

theorem told (h : s.SameTime t) (hu : t.Signals u) : s.SameTime u := h.alike hu.alike

theorem setTw (h : s.SameTime t) : s.SameTime (t.setTw n w) := ⟨h.time_eq, h.stopped_eq⟩

theorem setReg (h : s.SameTime t) : s.SameTime (t.setReg a x) := ⟨h.time_eq, h.stopped_eq⟩

theorem setPort (h : s.SameTime t) : s.SameTime (t.setPort n pt) := ⟨h.time_eq, h.stopped_eq⟩

theorem event (h : s.SameTime t) : s.SameTime (t.event code nums) := h.told (.event .start)

theorem applyTable (h : s.SameTime t) : s.SameTime (t.applyTable n m tab clip) :=
  .ite h.setTw.setReg.setReg (.setReg h.setTw.setReg.setReg)

theorem haltCommits (h : s.SameTime t) : s.SameTime (t.haltCommits n) := by
  refine List.foldlRecOn _ _ h fun u hu m _ => ?_
  split
  · dsimp only
    split
    · exact .setTw (.setReg hu.applyTable)
    · exact .setTw hu.applyTable
  · exact hu

theorem dropDe (h : s.SameTime t) : s.SameTime (t.dropDe n) := by
  unfold State.dropDe
  dsimp only
  generalize hu : t.setPort n _ = u
  have hdown : s.SameTime u := hu ▸ h.setPort
  exact .ite (.told (.ite hdown.setTw hdown) (.toPad .start)) (.ite hdown.setTw hdown)

theorem haltCycle (h : s.SameTime t) : s.SameTime (t.haltCycle n) := .setTw (.ite h.haltCommits.dropDe.setTw h.haltCommits)

theorem leavePhase (h : s.SameTime t) : s.SameTime (t.leavePhase n cause) := by
  unfold State.leavePhase
  exact .ite h (.setTw (.haltCycle (.ite (.event h.setReg.setReg) h.setReg)))

/-- What happens in a schedule takes no time, and stops no domain. -/
theorem scope : TwScope n s.SameTime where
  setReg _ h := h.setReg
  event _ h := h.event
  fire h := h.told (.fire .start)
  toPad h := h.told (.toPad .start)
  setPort _ h := h.setPort
  setTw _ h := h.setTw
  leave h := h.leavePhase

theorem closePkt (h : s.SameTime t) : s.SameTime (t.closePkt n) := by
  have hclosed : s.SameTime ((t.inc (TW_CNT_TRUNC n)).setTw n { t.tw n with pkt := none }) := h.setReg.setTw
  unfold State.closePkt
  split
  · exact h
  · dsimp only
    split
    · exact hclosed.alike (.sendOrDrop .start)
    · exact hclosed

theorem slotEnded (h : s.SameTime t) : s.SameTime (t.slotEnded n c e) := scope.slotEnded (fun _ hu => hu.closePkt) h

end
end State.SameTime

/-- A rise of DE before its time leaves the domains that stand still as they are. -/
theorem earlyRise_stopped (s : State) (n lim : Nat) : (s.earlyRise n lim).stopped = s.stopped := by
  unfold State.earlyRise
  split
  case h_1 b r _ =>
    split_ifs
    · have hrise : (s.advanceTo r).SameTime (s.raiseFrame n b r) := State.SameTime.scope.raiseDe State.SameTime.start.setTw
      exact hrise.stopped_eq.trans (s.advanceTo_stopped r)
    · rfl
  case h_2 => rfl

/-- Device time that runs is brought to t (R272). -/
theorem le_now_advanceTo {s : State} (hruns : s.runs .time = true) (t : Nat) : t ≤ (s.advanceTo t).now := by
  unfold State.advanceTo
  split_ifs with hahead
  · simp [State.now]
  · simp only [hruns, and_true, not_lt] at hahead
    exact hahead

/-- Where device time is the same, a fine count shows no less than a coarse one. -/
theorem now_le_of_time_eq {s t : State} (h : t.time = s.time) (hfine : t.coarse = false) : s.now ≤ t.now := by
  simp only [State.now, h, hfine, Bool.false_eq_true, if_false]
  split_ifs <;> omega

section
variable {s : State} (p : Fin 16) (e : Fin 64) (hcanon : s.canon = true)
include hcanon

theorem slotEnd_silence (hwf : tabWf (fun _ => 0) (s.tw p).silent = true) (hrole : (s.tw p).role = true)
    (hrunning : (s.tw p).phase = .running) (hen : ((s.tw p).cyc.table.entry e).en = true)
    (hkind : ((s.tw p).cyc.table.entry e).kind = 2) (hasm : (s.tw p).asm = []) (hframes : (s.tw p).frames = [])
    (hbufs : (s.tw p).bufs = []) (hpkt : (s.tw p).pkt = none)
    (hexpected : (s.expected p (s.tw p).cyc.table).contains ((s.tw p).cyc.table.entry e).owner = true)
    (hlim : 0 < s.rd (SF_SILENT.SILENT_CYC p))
    (hlast : (s.tw p).cyc.table.slots.all (fun y => y.2.kind == 4 || y.2.kind != 2 ||
      y.2.owner != ((s.tw p).cyc.table.entry e).owner || decide (y.2.start ≤ ((s.tw p).cyc.table.entry e).start)) = true)
    (hnodelay : (s.tw p).cyc.table.slots.all (fun y => y.2.kind != 4) = true) :
    Completes (.slotEnd p e) s fun t =>
      (tabGet (fun _ => 0) (t.tw p).silent ((s.tw p).cyc.table.entry e).owner =
        if (s.tw p).cyc.heard.contains ((s.tw p).cyc.table.entry e).owner then 0
        else tabGet (fun _ => 0) (s.tw p).silent ((s.tw p).cyc.table.entry e).owner + 1) ∧
      ((s.tw p).cyc.heard.contains ((s.tw p).cyc.table.entry e).owner = false ∧
        s.rd (SF_SILENT.SILENT_CYC p) ≤ tabGet (fun _ => 0) (s.tw p).silent ((s.tw p).cyc.table.entry e).owner + 1 →
        t.regBit (SF_ABSENT p (((s.tw p).cyc.table.entry e).owner / 32)) (((s.tw p).cyc.table.entry e).owner % 32) = true) := by
  have hcyc : (s.tw p).cycling = true := by simp [Tw.cycling, hrunning]
  refine completes_of_next (t := (s.advanceTo ((s.tw p).cyc.slotEnd ((s.tw p).cyc.table.entry e))).silence p (s.tw p).cyc
    ((s.tw p).cyc.table.entry e).owner) ?next ?told
  case next =>
    change execSlotEnd p e s = _
    simp only [execSlotEnd, hcyc, hen, Bool.true_eq_false, or_self, if_false, twAdvance_of_bufs_nil hbufs, State.advanceTo_tw, hasm,
      hframes, List.isEmpty_nil, and_self, if_true]
    rw [slotEnded_eq_silence ((congrArg Tw.pkt (s.advanceTo_tw _ p)).trans hpkt) hkind
      ((congrArg Tw.role (s.advanceTo_tw _ p)).trans hrole) ((congrArg Tw.phase (s.advanceTo_tw _ p)).trans hrunning)
      ((congrArg (fun l : List Nat => l.contains _ = true) (expected_of_same (s.advanceTo_regs _) (s.advanceTo_tws _) p _)).mpr hexpected)
      hlast hnodelay]
  case told =>
    generalize hu : s.advanceTo ((s.tw p).cyc.slotEnd ((s.tw p).cyc.table.entry e)) = u
    have htw : u.tw p = s.tw p := hu ▸ s.advanceTo_tw _ p
    have hrd : u.rd (SF_SILENT.SILENT_CYC p) = s.rd (SF_SILENT.SILENT_CYC p) := hu ▸ s.advanceTo_rd _ _
    have hregs : tabWf regReset u.regs = true := by
      rw [← hu, State.advanceTo_regs]
      exact State.regs_wf_of_canon hcanon
    have hports : tabWf Port.reset u.ports = true := by
      rw [← hu, State.advanceTo_ports]
      exact State.ports_wf_of_canon hcanon
    have htws : tabWf Tw.reset u.tws = true := by
      rw [← hu, State.advanceTo_tws]
      exact State.tws_wf_of_canon hcanon
    have htold := silence_told p (expected_lt hexpected) hregs hports htws (htw ▸ hwf) (s.tw p).cyc (by rw [hrd]; omega)
    rwa [htw, hrd] at htold

omit hcanon in
theorem slotEnd_time (hcyc : (s.tw p).cycling = true) (hen : ((s.tw p).cyc.table.entry e).en = true) (hruns : s.runs .time = true) :
    Completes (.slotEnd p e) s fun t => (s.tw p).cyc.slotEnd ((s.tw p).cyc.table.entry e) ≤ t.now ∨ t.coarse = true := by
  have hbrought : (s.tw p).cyc.slotEnd ((s.tw p).cyc.table.entry e) ≤
      (s.twAdvance p ((s.tw p).cyc.slotEnd ((s.tw p).cyc.table.entry e))).now :=
    le_now_advanceTo (by rwa [State.runs, earlyRise_stopped]) _
  have hend : ∀ t, (s.twAdvance p ((s.tw p).cyc.slotEnd ((s.tw p).cyc.table.entry e))).SameTime t →
      (s.tw p).cyc.slotEnd ((s.tw p).cyc.table.entry e) ≤ t.now ∨ t.coarse = true := fun t ht => by
    cases hcoarse : t.coarse with
    | true => exact .inr rfl
    | false => exact .inl (hbrought.trans (now_le_of_time_eq ht.time_eq hcoarse))
  change ∃ t, execSlotEnd p e s = .next t ∧ _
  simp only [execSlotEnd, hcyc, hen, Bool.true_eq_false, or_self, if_false]
  split_ifs
  · exact ⟨_, rfl, hend _ (.slotEnded .start)⟩
  · exact ⟨_, rfl, hend _ (.setTw .start)⟩

theorem slotEnd_deferred (hcyc : (s.tw p).cycling = true) (hen : ((s.tw p).cyc.table.entry e).en = true)
    (harriving : (s.tw p).asm ≠ [] ∨ (s.tw p).frames ≠ []) (hbufs : (s.tw p).bufs = []) :
    Completes (.slotEnd p e) s fun t => (t.tw p).cyc.ended = (s.tw p).cyc.ended ++ [e.val] := by
  have htws (d : Nat) : tabWf Tw.reset (s.advanceTo d).tws = true := by
    rw [State.advanceTo_tws]
    exact State.tws_wf_of_canon hcanon
  have hnot : ¬ ((s.tw p).asm.isEmpty = true ∧ (s.tw p).frames.isEmpty = true) := by
    simp only [List.isEmpty_iff]
    tauto
  change ∃ t, execSlotEnd p e s = .next t ∧ _
  simp only [execSlotEnd, hcyc, hen, Bool.true_eq_false, or_self, if_false, twAdvance_of_bufs_nil hbufs, State.advanceTo_tw, hnot]
  exact ⟨_, rfl, congrArg (fun w : Tw => w.cyc.ended) (tw_setTw_same (htws _) p _)⟩

end

end Sys2Proof.Machine
end

section
/-!
SUPPORT. The frame of a slot in 04_trade_wind_bus.md: DE rises, the start edge leaves, and the characters follow.
-/
namespace Sys2Proof.Machine

/-! ## Characters of a frame (R41, R132, R143) -/

/-- A character of a frame that is not its last one starts, and is counted (R41, R143). -/
theorem frameChar_told {s : State} (p : Fin 16) (hregs : tabWf regReset s.regs = true) (hports : tabWf Port.reset s.ports = true)
    (htws : tabWf Tw.reset s.tws = true) {c : QWord} {r : List QWord} (hchars : (s.tw p).chars = c :: r) (hmore : r ≠ [])
    (hpause : s.bit (SP_CTRL.TX_PAUSE p) = false) :
    (s.frameChar p).tw p = { s.tw p with chars := r } ∧ (s.frameChar p).reg (SP_CNT_TXCHAR p) = countUp (s.reg (SP_CNT_TXCHAR p)) := by
  obtain ⟨hcount, -⟩ := startFields_apart p
  have hempty : r.isEmpty = false := List.isEmpty_eq_false_iff.2 hmore
  generalize hu : s.setTw p { s.tw p with chars := r } = u
  have hframe : s.frameChar p = u.sendChar p c none (max (u.port p).txEnd (u.time.tick * 65536)) 0xA := by
    rw [← hu]
    simp only [State.frameChar, hchars, hpause, Bool.false_eq_true, if_false, hempty]
    rfl
  have huregs : tabWf regReset u.regs = true := hu ▸ hregs
  have huports : tabWf Port.reset u.ports = true := hu ▸ hports
  have hureg : u.reg (SP_CNT_TXCHAR p) = s.reg (SP_CNT_TXCHAR p) := hu ▸ rfl
  rw [hframe]
  constructor
  · rw [State.tw, State.sendChar_tws, ← hu]
    exact tw_setTw_same htws p _
  · rw [(keeps_sendChar huregs huports c none _ _).reg_eq hcount, reg_charShown huregs huports, hureg]

/-- The characters of a frame come from its head and its payload (R132, R133). -/
theorem chars_congr {b c : SlotBuf} (hhead : b.head = c.head) (hpayload : b.payload = c.payload) : b.chars = c.chars := by
  rw [SlotBuf.chars, hhead, hpayload, SlotBuf.chars]

/-- A frame has more characters than one: the CRC ends it (R133). -/
theorem chars_cons {b : SlotBuf} (h : b.head ≠ []) : ∃ c r, b.chars = c :: r ∧ r ≠ [] := by
  unfold SlotBuf.chars
  cases hb : b.head with
  | nil => exact absurd hb h
  | cons a l => exact ⟨_, _, rfl, by simp⟩

/-! ## The rise of DE (R143, R177, R178) -/

/-- The buffer without what the guardian notes in it. -/
def SlotBuf.unblocked (b : SlotBuf) : SlotBuf := { b with blocked := false }

theorem fields_apart_send : ∀ p : Fin 16, (schedFields p).all (fun f => f.apart (SP_CTRL.TX_PAUSE p)) = true ∧
    (schedFields p).all (fun f => f.apart (wholeReg (SP_CNT_TXCHAR p))) = true := by decide +kernel

/-- DE rises for a frame that no payload displaces; the port stays, and the frame is on the line. -/
theorem raiseFrame_told {s : State} (p : Fin 16) (hcanon : s.canon = true) (hstay : (s.tw p).stays) {b : SlotBuf}
    (helder : (s.tw p).elder b = none) (rise : Nat) :
    s.Keeps (schedFields p) p Port.unseen (s.raiseFrame p b rise) ∧ tabWf Tw.reset (s.raiseFrame p b rise).tws = true ∧
      ((s.raiseFrame p b rise).tw p).sending.map SlotBuf.unblocked = some { b with up := true, blocked := false } := by
  have htw : (s.advanceTo rise).tw p = s.tw p := s.advanceTo_tw rise p
  have hframe : (s.tw p).frameOf b = b := by rw [Tw.frameOf, helder]
  have htime : s.OnCourse (schedFields p) p Tw.course (s.advanceTo rise) := .advanceTo (.of_canon hcanon)
  unfold State.raiseFrame
  dsimp only
  rw [htw, hframe]
  generalize hw : ({ s.tw p with bufs := (s.tw p).bufsAfter b, sending := some { b with up := true } } : Tw) = w
  have hset : ((s.advanceTo rise).setTw p w).tw p = w := tw_setTw_same htime.tws_wf p w
  have hstart : ((s.advanceTo rise).setTw p w).OnCourse (schedFields p) p Tw.course ((s.advanceTo rise).setTw p w) :=
    ⟨.start htime.keeps.regs_wf htime.keeps.ports_wf, tabPut_wf _ _ htime.tws_wf, rfl⟩
  have hP := State.OnCourse.scope (s := (s.advanceTo rise).setTw p w) (fun _ hf => hf) twView_course
    (by rw [hset, ← hw]; exact hstay)
  have hraised := hP.raiseDe hstart
  have hsame : ((((s.advanceTo rise).setTw p w).raiseDe p).tw p).course.sending = w.course.sending :=
    (congrArg Tw.sending (hraised.tw_eq.trans (congrArg Tw.course hset)) :)
  have hsending : w.course.sending = some { b with up := true, blocked := false } := hw ▸ rfl
  refine ⟨?_, hraised.tws_wf, hsame.trans hsending⟩
  exact ⟨hraised.keeps.regs_wf, hraised.keeps.ports_wf, fun g hg => (hraised.keeps.rd_eq g hg).trans (s.advanceTo_rd rise g), rfl⟩

/-- The start edge leaves, and the first character of the frame starts (R143). -/
theorem startFrame_told {s : State} (p : Fin 16) (hregs : tabWf regReset s.regs = true) (hports : tabWf Port.reset s.ports = true)
    (htws : tabWf Tw.reset s.tws = true) {b : SlotBuf} (hsending : (s.tw p).sending = some b) (hhead : b.head ≠ [])
    (hpause : s.bit (SP_CTRL.TX_PAUSE p) = false) (x : Nat) :
    ((s.startFrame p x).tw p).sending = some { b with up := false } ∧ ((s.startFrame p x).tw p).chars = b.chars.tail ∧
      (s.startFrame p x).reg (SP_CNT_TXCHAR p) = countUp (s.reg (SP_CNT_TXCHAR p)) := by
  obtain ⟨c, r, hchars, hmore⟩ := chars_cons hhead
  unfold State.startFrame
  simp only [State.advanceTo_tw, hsending]
  generalize hu : (if b.kind = 4 then State.setReg _ (TW_TURN p) _ else s.advanceTo x) = u
  have hturn : s.OnCourse [wholeReg (TW_TURN p)] p Tw.course u := by
    have htime : s.OnCourse [wholeReg (TW_TURN p)] p Tw.course (s.advanceTo x) := .advanceTo ⟨.start hregs hports, htws, rfl⟩
    exact hu ▸ .ite (htime.setReg (by simp)) htime
  generalize hy : State.setTw u p _ = y
  have hyregs : y.regs = u.regs := hy ▸ rfl
  have hyreg : ∀ a, y.reg a = u.reg a := fun a => by rw [State.reg, hyregs, State.reg]
  have hytw : (y.tw p).sending = some { b with up := false } ∧ (y.tw p).chars = b.chars := by
    rw [← hy, tw_setTw_same hturn.tws_wf]
    exact ⟨rfl, rfl⟩
  have hypause : y.bit (SP_CTRL.TX_PAUSE p) = false := by
    rw [State.bit, State.rd, hyreg, ← State.rd, ← State.bit,
      hturn.keeps.bit_eq (by simp [Fld.apart, wholeReg, SP_CTRL.TX_PAUSE, SP_CTRL, TW_TURN]), hpause]
  obtain ⟨htw, hcount⟩ := frameChar_told p (hyregs ▸ hturn.keeps.regs_wf) (hy ▸ hturn.keeps.ports_wf) (hy ▸ tabPut_wf _ _ hturn.tws_wf)
    (hytw.2.trans hchars) hmore hypause
  refine ⟨by rw [htw]; exact hytw.1, by rw [htw, hchars, List.tail_cons], ?_⟩
  rw [hcount, hyreg, hturn.keeps.reg_eq (by simp [Fld.apart, wholeReg, SP_CNT_TXCHAR, TW_TURN])]

section
variable {s : State} (p : Fin 16) (e : Fin 64) (hcanon : s.canon = true)
include hcanon

/-- The frame of a slot is sent (R143). -/
theorem sendFrame_told (hrole : (s.tw p).role = true) (hpause : s.bit (SP_CTRL.TX_PAUSE p) = false) {b : SlotBuf}
    (helder : (s.tw p).elder b = none) (hhead : b.head ≠ []) (t x : Nat) :
    ((s.sendFrame p b t x).tw p).sending.map (fun y => (y.entry, y.payload)) = some (b.entry, b.payload) ∧
      ((s.sendFrame p b t x).tw p).chars = b.chars.tail ∧
      (s.sendFrame p b t x).reg (SP_CNT_TXCHAR p) = countUp (s.reg (SP_CNT_TXCHAR p)) := by
  obtain ⟨hpauseApart, hcountApart⟩ := fields_apart_send p
  obtain ⟨hkeeps, htws, hsending⟩ := raiseFrame_told p hcanon (.inl hrole) helder (s.riseTime p (s.tw p).cyc t x)
  unfold State.sendFrame
  generalize s.raiseFrame p b (s.riseTime p (s.tw p).cyc t x) = u at hkeeps htws hsending ⊢
  obtain ⟨c, hc, hcb⟩ := Option.map_eq_some_iff.1 hsending
  have hentry : c.entry = b.entry := (congrArg SlotBuf.entry hcb :)
  have hpayload : c.payload = b.payload := (congrArg SlotBuf.payload hcb :)
  have hchead : c.head = b.head := (congrArg SlotBuf.head hcb :)
  obtain ⟨hsent, hchars, hcount⟩ := startFrame_told p hkeeps.regs_wf hkeeps.ports_wf htws hc (hchead ▸ hhead)
    ((hkeeps.bit_eq hpauseApart).trans hpause) x
  refine ⟨?_, by rw [hchars, chars_congr hchead hpayload], by rw [hcount, hkeeps.reg_eq hcountApart]⟩
  rw [hsent, Option.map_some, hentry, hpayload]

theorem slotStart_sent (edge : Bool) (b : SlotBuf) (hb : (s.tw p).bufs.head? = some b) (hcyc : (s.tw p).cycling = true)
    (hen : ((s.tw p).cyc.table.entry e).en = true) (hown : (s.tw p).owns ((s.tw p).cyc.table.entry e) = true)
    (hruns : s.runs .port = true) (hwaiting : (s.tw p).waiting = []) (hsending : (s.tw p).sending = none) (hentry : b.entry = e.val)
    (hnext : b.next = false) (hkept : b.kept = false) (hsettled : s.bit (SP_STAT.BAUD_SETTLING p) = false)
    (hpause : s.bit (SP_CTRL.TX_PAUSE p) = false) (hforfeit : (s.tw p).forfeit = false) (hfree : (s.tw p).guard.muzzled = false)
    (hrole : (s.tw p).role = true) (hkind : ((s.tw p).cyc.table.entry e).kind = 2) (helder : (s.tw p).elder b = none)
    (hfits : s.frameFits p ((s.tw p).cyc.table.entry e) b = true) (hhead : b.head ≠ []) :
    Completes (.slotStart p e edge) s fun t => (t.tw p).sending.map (fun x => (x.entry, x.payload)) = some (b.entry, b.payload) ∧
      (t.tw p).chars = b.chars.tail ∧ t.reg (SP_CNT_TXCHAR p) = countUp (s.reg (SP_CNT_TXCHAR p)) := by
  have hfound : (s.tw p).bufs.find? (fun b => b.entry == e.val && !b.next && !b.kept) = some b := by
    obtain ⟨r, hr⟩ : ∃ r, (s.tw p).bufs = b :: r := ⟨_, List.eq_cons_of_mem_head? hb⟩
    rw [hr, List.find?_cons_of_pos]
    simp [hentry, hnext, hkept]
  have hframe : (s.tw p).frameOf b = b := by rw [Tw.frameOf, helder]
  refine completes_of_next ?next (sendFrame_told p hcanon hrole hpause helder hhead
    ((s.tw p).cyc.slotStart ((s.tw p).cyc.table.entry e)) (s.launchTime p (s.tw p).cyc ((s.tw p).cyc.table.entry e)))
  case next =>
    change execSlotStart p e edge s = _
    simp only [execSlotStart, hcyc, hen, hown, hruns, hwaiting, hsending, hfound, hsettled, hpause, hforfeit, hframe, hfits, hkind,
      barred_of_role hrole hfree, Bool.true_eq_false, Bool.false_eq_true, or_self, if_false, List.contains_nil, Option.filter_none,
      Option.isSome_none, Nat.reduceEqDiff, false_and]

end

end Sys2Proof.Machine
end

section
/-!
SUPPORT. A SYNC that is missed, in 04_trade_wind_bus.md: the miss is counted, and with the third the member leaves (R151, R182).
-/
namespace Sys2Proof.Machine

/-! ## A cycle that ends for good (R131, R151, R173) -/

/-- What the end of its cycles changes in the registers of port n. -/
def haltFields (n : Nat) : List Fld :=
  logFields ++ [wholeReg (TW_EVT n)] ++ (List.range 8).map (fun i => wholeReg (TW_TCLIP n i)) ++
    (List.range 4).map fun i => wholeReg (GD_CRC n i)

theorem logFields_subset_haltFields (n : Nat) : logFields ⊆ haltFields n := fun _ hf => by simp [haltFields, hf]

theorem twEvt_mem_haltFields (n : Nat) : wholeReg (TW_EVT n) ∈ haltFields n := by simp [haltFields]

theorem tclip_mem_haltFields (n : Nat) {i : Nat} (hi : i < 8) : wholeReg (TW_TCLIP n i) ∈ haltFields n :=
  List.mem_append_left _ (List.mem_append_right _ (List.mem_map.2 ⟨i, List.mem_range.2 hi, rfl⟩))

theorem gdCrc_mem_haltFields (n : Nat) {i : Nat} (hi : i < 4) : wholeReg (GD_CRC n i) ∈ haltFields n :=
  List.mem_append_right _ (List.mem_map.2 ⟨i, List.mem_range.2 hi, rfl⟩)

/-- From s to t the cycles of port n come to an end, where DE is low. -/
structure State.Halting (n : Nat) (s t : State) : Prop where
  keeps : s.Keeps (haltFields n) n Port.unseen t
  tws_wf : tabWf Tw.reset t.tws = true
  de_low : (t.port n).de = false

namespace State.Halting
section
variable {n m clip a cause : Nat} {s t u : State} {w : Tw} {x : Word} {tab : TwTable}

theorem ite {c : Prop} [Decidable c] (ht : s.Halting n t) (hu : s.Halting n u) : s.Halting n (if c then t else u) := by
  split_ifs
  · exact ht
  · exact hu

theorem setTw (h : s.Halting n t) : s.Halting n (t.setTw n w) := ⟨h.keeps.setTw, tabPut_wf _ _ h.tws_wf, h.de_low⟩

theorem setReg (ha : wholeReg a ∈ haltFields n) (h : s.Halting n t) : s.Halting n (t.setReg a x) :=
  ⟨h.keeps.setReg ha, h.tws_wf, h.de_low⟩

theorem event {code : Nat} {nums : List Nat} (hcode : code / 256 < 16) (h : s.Halting n t) : s.Halting n (t.event code nums) := by
  have htold : t.Signals (t.event code nums) := .event .start
  refine ⟨h.keeps.event (logFields_subset_haltFields n) hcode, htold.tws_eq ▸ h.tws_wf, ?_⟩
  rw [State.port, htold.ports_eq]
  exact h.de_low

theorem applyTable (hm : m < 4) (h : s.Halting n t) : s.Halting n (t.applyTable n m tab clip) := by
  have hset : s.Halting n (((t.setTw n ((t.tw n).setMode m { (t.tw n).mode m with run := tab, pend := none })).setReg
      (TW_TCLIP n (2 * m)) (BitVec.ofNat 32 clip)).setReg (TW_TCLIP n (2 * m + 1)) (BitVec.ofNat 32 (clip / 0x100000000))) :=
    .setReg (tclip_mem_haltFields n (by omega)) (.setReg (tclip_mem_haltFields n (by omega)) h.setTw)
  exact .ite hset (hset.setReg (twEvt_mem_haltFields n))

theorem copyTake (hm : m < 4) (h : s.Halting n t) : s.Halting n (t.copyTake n m tab) :=
  .setTw (h.setReg (gdCrc_mem_haltFields n hm))

theorem haltCommits (h : s.Halting n t) : s.Halting n (t.haltCommits n) := by
  refine List.foldlRecOn _ _ h fun u hu m hm => ?_
  have hm : m < 4 := List.mem_range.1 hm
  split
  · dsimp only
    split
    · exact .copyTake hm (hu.applyTable hm)
    · exact .setTw (hu.applyTable hm)
  · exact hu

theorem dropDe (h : s.Halting n t) : s.Halting n (t.dropDe n) := by
  unfold State.dropDe
  dsimp only
  generalize hu : t.setPort n _ = u
  have hport : (u.port n).de = false := by rw [← hu, port_setPort_same h.keeps.ports_wf]
  have hdown : s.Halting n u := ⟨hu ▸ h.keeps.setPort fun _ => rfl, hu ▸ h.tws_wf, hport⟩
  have hgated : s.Halting n (if u.twRuns n then u.setTw n { u.tw n with gate := (u.time.tick, false) } else u) := .ite hdown.setTw hdown
  exact .ite (.ite hgated ⟨hgated.keeps.same rfl rfl, hgated.tws_wf, hgated.de_low⟩) hgated

theorem haltCycle (h : s.Halting n t) : s.Halting n (t.haltCycle n) := .setTw (.ite h.haltCommits.dropDe.setTw h.haltCommits)

end
end State.Halting

/-! ## Leaving with DE low (R151, R193) -/

theorem followGate_of_de_low {s : State} {n : Nat} (h : (s.port n).de = false) : s.followGate n = s := by
  simp [State.followGate, h]

theorem gateNow_of_de_low {s : State} {n : Nat} (h : (s.port n).de = false) : s.gateNow n = s := by
  simp [State.gateNow, h]

/-- A joined member with DE low leaves: it listens, and shows why (R151, R193). -/
theorem leave_told {s : State} (p : Fin 16) (hregs : tabWf regReset s.regs = true) (hports : tabWf Port.reset s.ports = true)
    (htws : tabWf Tw.reset s.tws = true) (hrole : (s.tw p).role = false) (hjoined : (s.tw p).phase = .joined)
    (hde : (s.port p).de = false) (cause : Nat) :
    (s.wr (SF_STAT.LEAVE_CAUSE p) cause).Keeps (haltFields p) p Port.unseen (s.leave p cause) ∧
      ((s.leave p cause).tw p).phase = .listen := by
  have hstart : (s.wr (SF_STAT.LEAVE_CAUSE p) cause).Halting p (s.wr (SF_STAT.LEAVE_CAUSE p) cause) :=
    ⟨.start (setReg_wf _ _ hregs) hports, htws, hde⟩
  have hhalted : (s.wr (SF_STAT.LEAVE_CAUSE p) cause).Halting p
      ((((s.wr (SF_STAT.LEAVE_CAUSE p) cause).on (TW_EVT.LEFT p)).event Ev.TW_LEAVE [p.val, cause]).haltCycle p) :=
    .haltCycle (.event (by decide) (.setReg (twEvt_mem_haltFields p) hstart))
  generalize hu : (((s.wr (SF_STAT.LEAVE_CAUSE p) cause).on (TW_EVT.LEFT p)).event Ev.TW_LEAVE [p.val, cause]).haltCycle p = u at hhalted
  have hleft : s.leavePhase p cause = u.setTw p { u.tw p with phase := .listen, from_ := u.now } := by
    rw [State.leavePhase, if_neg (by simp [hrole, hjoined]), ← hu]
    dsimp only
    rw [if_pos hjoined]
  have hdown : ((u.setTw p { u.tw p with phase := .listen, from_ := u.now }).port p).de = false := hhalted.de_low
  rw [State.leave, followGate_of_de_low hde, hleft, gateNow_of_de_low hdown]
  exact ⟨hhalted.keeps.setTw, congrArg Tw.phase (tw_setTw_same hhalted.tws_wf p _)⟩

/-! ## The SYNC that does not come (R182) -/

/-- A missed SYNC is counted as miss number miss, and its window is closed. -/
def State.missed (s : State) (n miss : Nat) : State :=
  let s := ((s.wr (SF_STAT.MISS n) miss).inc (SF_CNT_SYNC_MISS n)).on (SF_EVT.SYNC_MISS n)
  s.setTw n { s.tw n with good := 0, cyc := { (s.tw n).cyc with syncOk := true } }

theorem fields_apart_miss : ∀ p : Fin 16,
    [wholeReg (SF_CNT_SYNC_MISS p.val), wholeReg (SF_EVT p.val)].all (fun f => f.apart (SF_STAT.MISS p)) = true ∧
    [wholeReg (SF_EVT p.val)].all (fun f => f.apart (wholeReg (SF_CNT_SYNC_MISS p))) = true ∧
    (wholeReg (SF_EVT p) :: wholeReg (SF_STAT p) :: haltFields p).all (fun f => f.apart (wholeReg (SF_CNT_SYNC_MISS p))) = true ∧
    (wholeReg (SF_STAT p) :: haltFields p).all (fun f => f.apart (SF_EVT.SYNC_LOST p)) = true ∧
    (haltFields p).all (fun f => f.apart (SF_STAT.LEAVE_CAUSE p)) = true := by decide +kernel

/-- What is true after miss number miss has been counted. -/
theorem missed_told {s : State} (p : Fin 16) (hregs : tabWf regReset s.regs = true) (hports : tabWf Port.reset s.ports = true) (miss : Nat) :
    (s.missed p miss).rd (SF_STAT.MISS p) = miss % 4 ∧
      (s.missed p miss).reg (SF_CNT_SYNC_MISS p) = countUp (s.reg (SF_CNT_SYNC_MISS p)) ∧
      (s.missed p miss).bit (SF_EVT.SYNC_MISS p) = true := by
  obtain ⟨hmiss, hcount, -⟩ := fields_apart_miss p
  have hshown : tabWf regReset (s.wr (SF_STAT.MISS p) miss).regs = true := setReg_wf _ _ hregs
  have hcounted : tabWf regReset ((s.wr (SF_STAT.MISS p) miss).inc (SF_CNT_SYNC_MISS p)).regs = true := setReg_wf _ _ hshown
  have hfromShown : (s.wr (SF_STAT.MISS p) miss).Keeps [wholeReg (SF_CNT_SYNC_MISS p), wholeReg (SF_EVT p)] p Port.unseen
      (s.missed p miss) := .setTw (.on (.inc (.start hshown hports) (by simp)) (by simp [SF_EVT.SYNC_MISS]))
  have hfromCounted : ((s.wr (SF_STAT.MISS p) miss).inc (SF_CNT_SYNC_MISS p)).Keeps [wholeReg (SF_EVT p)] p Port.unseen
      (s.missed p miss) := .setTw (.on (.start hcounted hports) (by simp [SF_EVT.SYNC_MISS]))
  have hother : (s.wr (SF_STAT.MISS p) miss).reg (SF_CNT_SYNC_MISS p) = s.reg (SF_CNT_SYNC_MISS p) :=
    reg_setReg_ne (by simp only [SF_CNT_SYNC_MISS, SF_STAT.MISS, SF_STAT]; omega) _ _
  refine ⟨?_, ?_, ?_⟩
  · rw [hfromShown.rd_eq _ hmiss, rd_wr hregs (by simp [SF_STAT.MISS])]
    rfl
  · rw [hfromCounted.reg_eq hcount, reg_inc hshown, hother]
  · exact bit_on hcounted (by simp [SF_EVT.SYNC_MISS]) rfl

theorem missed_tw {s : State} (htws : tabWf Tw.reset s.tws = true) (n miss : Nat) :
    (s.missed n miss).tw n = { s.tw n with good := 0, cyc := { (s.tw n).cyc with syncOk := true } } := tw_setTw_same htws n _

section
variable {s : State} (p : Fin 16) (hcanon : s.canon = true) {e : TwEntry} (hsync : (s.tw p).cyc.table.sync = some e)
variable (hrole : (s.tw p).role = false) (hopen : (s.tw p).cyc.syncOk = false) (hjoined : (s.tw p).phase = .joined)
variable (hawait : (s.tw p).awaitSync = false) (hdead : s.bit (SF_STAT.BUS_DEAD p) = false)
include hsync hrole hopen hjoined hawait hdead

/-- A joined member's missed SYNC is counted, and the count decides what follows (R182). -/
theorem execSyncMiss_joined : ∃ d, execSyncMiss p s = .next
    (if min 3 (s.rd (SF_STAT.MISS p) + 1) = 3 then
      (((s.advanceTo d).missed p (min 3 (s.rd (SF_STAT.MISS p) + 1))).on (SF_EVT.SYNC_LOST p)).leave p leaveSyncLost
    else if min 3 (s.rd (SF_STAT.MISS p) + 1) = 2 then
      ((s.advanceTo d).missed p (min 3 (s.rd (SF_STAT.MISS p) + 1))).setTw p
        { ((s.advanceTo d).missed p (min 3 (s.rd (SF_STAT.MISS p) + 1))).tw p with withholdNext := true }
    else (s.advanceTo d).missed p (min 3 (s.rd (SF_STAT.MISS p) + 1))) := by
  unfold execSyncMiss
  simp only [hsync, hrole, hopen, hjoined, hawait, hdead, State.advanceTo_bit, State.advanceTo_rd, Bool.false_eq_true, or_self, if_false,
    reduceCtorEq, if_true]
  split_ifs
  · exact ⟨_, rfl⟩
  · exact ⟨_, rfl⟩
  · exact ⟨_, rfl⟩

include hcanon

theorem syncMiss_missed (hmiss : s.rd (SF_STAT.MISS p) < 2) :
    Completes (.syncMiss p) s fun t => t.rd (SF_STAT.MISS p) = s.rd (SF_STAT.MISS p) + 1 ∧
      t.reg (SF_CNT_SYNC_MISS p) = countUp (s.reg (SF_CNT_SYNC_MISS p)) ∧ t.bit (SF_EVT.SYNC_MISS p) = true ∧ (t.tw p).phase = .joined ∧
      (s.rd (SF_STAT.MISS p) = 1 → (t.tw p).withholdNext = true) := by
  obtain ⟨d, hnext⟩ := execSyncMiss_joined p hsync hrole hopen hjoined hawait hdead
  have hregs : tabWf regReset (s.advanceTo d).regs = true := State.advanceTo_regs s d ▸ State.regs_wf_of_canon hcanon
  have hports : tabWf Port.reset (s.advanceTo d).ports = true := State.advanceTo_ports s d ▸ State.ports_wf_of_canon hcanon
  have htws : tabWf Tw.reset (s.advanceTo d).tws = true := State.advanceTo_tws s d ▸ State.tws_wf_of_canon hcanon
  have hnumber : min 3 (s.rd (SF_STAT.MISS p) + 1) = s.rd (SF_STAT.MISS p) + 1 := by omega
  rw [hnumber, if_neg (by omega)] at hnext
  obtain ⟨hshown, hcount, hbit⟩ := missed_told p hregs hports (s.rd (SF_STAT.MISS p) + 1)
  have hphase : (((s.advanceTo d).missed p (s.rd (SF_STAT.MISS p) + 1)).tw p).phase = .joined := by
    rw [missed_tw htws, State.advanceTo_tw]
    exact hjoined
  have hwf : tabWf Tw.reset ((s.advanceTo d).missed p (s.rd (SF_STAT.MISS p) + 1)).tws = true := tabPut_wf _ _ htws
  rw [State.advanceTo_reg] at hcount
  rw [Nat.mod_eq_of_lt (by omega)] at hshown
  refine completes_of_next hnext ?_
  generalize (s.advanceTo d).missed p (s.rd (SF_STAT.MISS p) + 1) = u at hshown hcount hbit hphase hwf
  split_ifs with htwo
  · have htw := tw_setTw_same hwf p { u.tw p with withholdNext := true }
    exact ⟨hshown, hcount, hbit, (congrArg Tw.phase htw).trans hphase, fun _ => congrArg Tw.withholdNext htw⟩
  · exact ⟨hshown, hcount, hbit, hphase, fun hone => absurd (congrArg (· + 1) hone) htwo⟩

theorem syncMiss_lost (hmiss : s.rd (SF_STAT.MISS p) = 2) (hde : (s.port p).de = false) :
    Completes (.syncMiss p) s fun t => t.reg (SF_CNT_SYNC_MISS p) = countUp (s.reg (SF_CNT_SYNC_MISS p)) ∧
      t.bit (SF_EVT.SYNC_LOST p) = true ∧ (t.tw p).phase = .listen ∧ t.rd (SF_STAT.LEAVE_CAUSE p) = 1 := by
  obtain ⟨d, hnext⟩ := execSyncMiss_joined p hsync hrole hopen hjoined hawait hdead
  have hregs : tabWf regReset (s.advanceTo d).regs = true := State.advanceTo_regs s d ▸ State.regs_wf_of_canon hcanon
  have hports : tabWf Port.reset (s.advanceTo d).ports = true := State.advanceTo_ports s d ▸ State.ports_wf_of_canon hcanon
  have htws : tabWf Tw.reset (s.advanceTo d).tws = true := State.advanceTo_tws s d ▸ State.tws_wf_of_canon hcanon
  obtain ⟨-, -, hcountFields, hlostFields, hcauseFields⟩ := fields_apart_miss p
  have hnumber : min 3 (s.rd (SF_STAT.MISS p) + 1) = 3 := by omega
  rw [hnumber, if_pos rfl] at hnext
  obtain ⟨-, hcount, -⟩ := missed_told p hregs hports 3
  rw [State.advanceTo_reg] at hcount
  have htw := missed_tw htws p 3
  rw [State.advanceTo_tw] at htw
  have hmissed : tabWf regReset ((s.advanceTo d).missed p 3).regs = true := setReg_wf _ _ (setReg_wf _ _ (setReg_wf _ _ hregs))
  have hlow : (((s.advanceTo d).missed p 3).port p).de = false := by
    rw [← hde, State.port, State.port, ← s.advanceTo_ports d]
    rfl
  have hwf : tabWf Tw.reset ((s.advanceTo d).missed p 3).tws = true := tabPut_wf _ _ htws
  refine completes_of_next hnext ?_
  generalize hu : (s.advanceTo d).missed p 3 = u at *
  have hports : tabWf Port.reset u.ports = true := hu ▸ hports
  have hlost : tabWf regReset (u.on (SF_EVT.SYNC_LOST p)).regs = true := setReg_wf _ _ hmissed
  obtain ⟨hleft, hphase⟩ := leave_told (s := u.on (SF_EVT.SYNC_LOST p)) p hlost hports hwf ((congrArg Tw.role htw).trans hrole)
    ((congrArg Tw.phase htw).trans hjoined) hlow leaveSyncLost
  have hfromCounted : u.Keeps (wholeReg (SF_EVT p) :: wholeReg (SF_STAT p) :: haltFields p) p Port.unseen
      ((u.on (SF_EVT.SYNC_LOST p)).leave p leaveSyncLost) :=
    .andThen (by simp) (.wr (.on (.start hmissed hports) (by simp [SF_EVT.SYNC_LOST])) (by simp [SF_STAT.LEAVE_CAUSE])) hleft rfl
  have hfromLost : (u.on (SF_EVT.SYNC_LOST p)).Keeps (wholeReg (SF_STAT p) :: haltFields p) p Port.unseen
      ((u.on (SF_EVT.SYNC_LOST p)).leave p leaveSyncLost) :=
    .andThen (by simp) (.wr (.start hlost hports) (by simp [SF_STAT.LEAVE_CAUSE])) hleft rfl
  refine ⟨(hfromCounted.reg_eq hcountFields).trans hcount, (hfromLost.bit_eq hlostFields).trans (bit_on hmissed ?_ rfl), hphase, ?_⟩
  · simp [SF_EVT.SYNC_LOST]
  · rw [hleft.rd_eq _ hcauseFields, rd_wr hlost (by simp [SF_STAT.LEAVE_CAUSE])]
    rfl

end

end Sys2Proof.Machine
end

section
/-!
SUPPORT. A received frame that is judged, in 04_trade_wind_bus.md (R136, R137, R151).
-/
namespace Sys2Proof.Machine

/-! ## The frames that wait have no part in a judgement -/

/-- Port n's schedule with fs as the frames that wait for their judgement. -/
def State.withFrames (s : State) (n : Nat) (fs : List (List RxItem × Bool)) : State := s.setTw n { s.tw n with frames := fs }

section
variable {s : State} (htws : tabWf Tw.reset s.tws = true) (n : Nat) (fs : List (List RxItem × Bool))
include htws

theorem withFrames_tw : (s.withFrames n fs).tw n = { s.tw n with frames := fs } := tw_setTw_same htws n _

theorem withFrames_expected (tab : TwTable) : (s.withFrames n fs).expected n tab = s.expected n tab := by
  simp only [State.expected, withFrames_tw htws]
  rfl

theorem withFrames_stopping : (s.withFrames n fs).stopping n = s.stopping n := by
  simp only [State.stopping, withFrames_tw htws]
  rfl

theorem withFrames_foreseen : (s.withFrames n fs).foreseen n = s.foreseen n := by
  simp only [State.foreseen, withFrames_tw htws, withFrames_stopping htws]
  rfl

theorem withFrames_frameSlot (t0 t1 : Nat) : (s.withFrames n fs).frameSlot n t0 t1 = s.frameSlot n t0 t1 := by
  simp only [State.frameSlot, withFrames_tw htws, withFrames_foreseen htws]
  rfl

theorem withFrames_compensation (type a : Nat) : (s.withFrames n fs).compensation n type a = s.compensation n type a := by
  simp only [State.compensation, withFrames_tw htws]
  rfl

theorem withFrames_addrFits (x : TwCtx) (a : Nat) : (s.withFrames n fs).addrFits n x a = s.addrFits n x a := by
  simp only [State.addrFits, State.cycleTarget, withFrames_tw htws, withFrames_expected htws]

theorem withFrames_frameFails (items : List RxItem) (cut listen : Bool) (x : Option TwCtx) :
    (s.withFrames n fs).frameFails n items cut listen x = s.frameFails n items cut listen x := by
  simp only [State.frameFails, withFrames_addrFits htws, withFrames_compensation htws, withFrames_tw htws]
  rfl

theorem withFrames_verdict (items : List RxItem) (cut : Bool) : (s.withFrames n fs).verdict n items cut = s.verdict n items cut := by
  simp only [State.verdict, withFrames_frameFails htws, withFrames_frameSlot htws, withFrames_tw htws]
  rfl

end

/-! ## A frame that is received (R136) -/

/-- What the judgement of a frame leaves is settled once nothing more arrives. -/
def State.settled (s : State) (n : Nat) : State := if (s.tw n).frames.isEmpty ∧ (s.tw n).asm.isEmpty then s.settleEnded n else s

/-- The one frame that waits is judged; none that fails a check, and none outside a cycle, begins the next cycle. -/
theorem execTwFrameReceive_one {s : State} (p : Fin 16) (htws : tabWf Tw.reset s.tws = true) {f : List RxItem × Bool}
    (hruns : s.twRuns p = true) (hframes : (s.tw p).frames = [f])
    (hearly : (s.verdict p f.1 f.2).1 ≠ 0 ∨ (s.verdict p f.1 f.2).2 = none) :
    execTwFrameReceive p s =
      .next (((s.withFrames p []).judged p f.1 (s.verdict p f.1 f.2).1 (s.verdict p f.1 f.2).2).settled p) := by
  have hjudge : (s.withFrames p []).judgeFrame p f.1 f.2 =
      (s.withFrames p []).judged p f.1 (s.verdict p f.1 f.2).1 (s.verdict p f.1 f.2).2 := by
    unfold State.judgeFrame
    rw [withFrames_verdict htws]
    dsimp only
    rcases hearly with hfail | hnone
    · rw [if_neg (by cases (s.verdict p f.1 f.2).2 <;> simp [hfail])]
    · rw [hnone]
      rfl
  unfold execTwFrameReceive
  simp only [hruns, Bool.true_eq_false, if_false, hframes]
  rw [← State.withFrames, hjudge]
  rfl

/-! ## A frame that fails a check (R136) -/

/-- What a frame that fails leaves of a schedule: the frames that wait, and the open packet. -/
def Tw.inbox (w : Tw) : Tw := { frames := w.frames, pkt := w.pkt }

/-- The counter of a failed check (R136). -/
def failCounter (n fail : Nat) : Nat := if fail = 6 then TW_CNT_CRC n else if fail = 7 then TW_CNT_WINDOW n else TW_CNT_TRUNC n

theorem frameFails_le (s : State) (n : Nat) (items : List RxItem) (cut listen : Bool) (x : Option TwCtx) :
    s.frameFails n items cut listen x ≤ 7 := by
  unfold State.frameFails
  cases x with
  | none =>
    dsimp only
    split_ifs <;> omega
  | some y =>
    dsimp only
    split_ifs <;> omega

section
variable {s t : State} {n : Nat}

theorem inbox_quiet (s : State) (n : Nat) : TwQuiet n (s.OnCourse (schedFields n) n Tw.inbox) :=
  State.OnCourse.quiet (fun _ hf => hf) fun h => (congrArg Tw.inbox h :)

theorem judged_failed (h : s.OnCourse (schedFields n) n Tw.inbox s) (items : List RxItem) {fail : Nat} (hfail : fail ≠ 0)
    (x : Option TwCtx) : ∃ u, s.OnCourse (schedFields n) n Tw.inbox u ∧
      (u.inc (failCounter n fail)).OnCourse (schedFields n) n Tw.inbox (s.judged n items fail x) := by
  unfold State.judged
  extract_lets w data type a edges s₁ s₂ marked y s₃ sync s₄
  rw [if_pos hfail]
  have hheard : s.OnCourse (schedFields n) n Tw.inbox s₁ := TwQuiet.foldl _ (fun _ _ _ hu => (inbox_quiet s n).intrusion hu) h
  refine ⟨s₁, hheard, TwQuiet.foldl _ (fun _ _ _ hu => (inbox_quiet _ n).foreignAt hu) ?_⟩
  have hcounted : s₂.OnCourse (schedFields n) n Tw.inbox s₂ := 
    ⟨.start (setReg_wf _ _ hheard.keeps.regs_wf) hheard.keeps.ports_wf, hheard.tws_wf, rfl⟩
  have hstranger : s₂.OnCourse (schedFields n) n Tw.inbox s₃ :=
    .ite ⟨hcounted.keeps.setPort fun _ => rfl, hcounted.tws_wf, rfl⟩ hcounted
  exact .ite (hstranger.setTw rfl) hstranger

/-- Where no packet is open, what is settled leaves the frames that wait. -/
theorem settled_failed (hpkt : (s.tw n).pkt = none) (h : s.OnCourse (schedFields n) n Tw.inbox t) :
    s.OnCourse (schedFields n) n Tw.inbox (t.settled n) := by
  refine .ite ((inbox_quiet s n).settleEnded (fun u hu => ?_) h) h
  have hnone : (u.tw n).pkt = none := (congrArg Tw.pkt hu.tw_eq : _).trans hpkt
  rwa [State.closePkt, hnone]

theorem failCounters_apart : ∀ p : Fin 16, ∀ a ∈ [TW_CNT_CRC p, TW_CNT_WINDOW p, TW_CNT_TRUNC p],
    (schedFields p).all (fun f => f.apart (wholeReg a)) = true := by decide +kernel

end

theorem reg_inc_eq {s : State} (hregs : tabWf regReset s.regs = true) (c a : Nat) :
    (s.inc c).reg a = if a = c then countUp (s.reg a) else s.reg a := by
  split_ifs with ha
  · rw [ha, reg_inc hregs]
  · exact reg_setReg_ne ha _ _

theorem failCounter_eq_iff {fail : Nat} (p : Fin 16) (hle : fail ≤ 7) :
    (TW_CNT_CRC p = failCounter p fail ↔ fail = 6) ∧ (TW_CNT_WINDOW p = failCounter p fail ↔ fail = 7) ∧
      (TW_CNT_TRUNC p = failCounter p fail ↔ fail < 6) := by
  unfold failCounter TW_CNT_CRC TW_CNT_WINDOW TW_CNT_TRUNC
  split_ifs <;> omega

section
variable {s : State} (p : Fin 16) (hcanon : s.canon = true) {f : List RxItem × Bool}
variable (hruns : s.twRuns p = true) (hframes : (s.tw p).frames = [f])
include hcanon hruns hframes

theorem twFrameReceive_failed (hpkt : (s.tw p).pkt = none) (hfail : (s.verdict p f.1 f.2).1 ≠ 0) :
    Completes (.twFrameReceive p) s fun t => (t.tw p).frames = [] ∧
      ∀ a ∈ [TW_CNT_CRC p, TW_CNT_WINDOW p, TW_CNT_TRUNC p],
        t.reg a = if a = failCounter p (s.verdict p f.1 f.2).1 then countUp (s.reg a) else s.reg a := by
  have htws := State.tws_wf_of_canon hcanon
  have hopened := withFrames_tw htws p []
  refine completes_of_next (execTwFrameReceive_one p htws hruns hframes (.inl hfail)) ?_
  have hstart : (s.withFrames p []).OnCourse (schedFields p) p Tw.inbox (s.withFrames p []) :=
    ⟨.start (State.regs_wf_of_canon (s := s) hcanon) (State.ports_wf_of_canon (s := s) hcanon), tabPut_wf _ _ htws, rfl⟩
  obtain ⟨u, hheard, hjudged⟩ := judged_failed hstart f.1 hfail (s.verdict p f.1 f.2).2
  have hinbox : (u.tw p).inbox = { frames := [], pkt := none } := by
    rw [hheard.tw_eq, hopened, Tw.inbox, hpkt]
  have hend := settled_failed (s := u.inc (failCounter p (s.verdict p f.1 f.2).1)) (congrArg Tw.pkt hinbox : _) hjudged
  refine ⟨(congrArg Tw.frames (hend.tw_eq.trans hinbox) :), fun a ha => ?_⟩
  have hkept := failCounters_apart p a ha
  rw [hend.keeps.reg_eq hkept, reg_inc_eq hheard.keeps.regs_wf, hheard.keeps.reg_eq hkept]
  rfl

end

end Sys2Proof.Machine
end

section
/-!
SUPPORT. A valid SYNC at a listening member, in 04_trade_wind_bus.md: it observes the cycle that the SYNC names (R137, R148, R151).
-/
namespace Sys2Proof.Machine

/-- What a SYNC that opens OBSERVE changes in the registers of port n, beside its count. -/
def observeFields (n : Nat) : List Fld :=
  boundaryFields n ++ [SF_STAT n, TW_DRIFT n, TW_CNT_CYCLES n, TW_CYC_NS n, TW_CYC_SL n, TW_CYC_SH n, TW_OFFSET n].map wholeReg

theorem schedFields_subset_observeFields (n : Nat) : schedFields n ⊆ observeFields n := fun _ hf => by
  simp [observeFields, schedFields_subset_boundaryFields n hf]

theorem itemFields_subset_observeFields (n : Nat) : itemFields n ⊆ observeFields n := fun _ hf => by
  simp [observeFields, itemFields_subset_boundaryFields n hf]

theorem twEvt_mem_observeFields (n : Nat) : wholeReg (TW_EVT n) ∈ observeFields n :=
  schedFields_subset_observeFields n (by simp [schedFields, guardFields])

theorem observeFields_apart_syncRx : ∀ p : Fin 16, (observeFields p).all (fun f => f.apart (wholeReg (TW_CNT_SYNC_RX p))) = true := by
  decide +kernel

/-- A schedule without what a valid SYNC changes in it before its cycle is entered (R134, R149, R182). -/
def Tw.unsynced (w : Tw) : Tw :=
  { w with
    good := 0, lastGood := 0, obsK := 0, badSync := false, lastSync := none, warming := false, num := 0, den := 0, announced := none }

namespace State.OnCourse
section
variable {fs : List Fld} {n k a len : Nat} {w : Tw → Tw} {s t : State} {data : List Nat}

theorem setStamp {ns sl sh x : Nat} (hns : wholeReg ns ∈ fs) (hsl : wholeReg sl ∈ fs) (hsh : wholeReg sh ∈ fs)
    (h : s.OnCourse fs n w t) : s.OnCourse fs n w (t.setStamp ns sl sh x) :=
  ⟨h.keeps.setStamp hns hsl hsh, h.tws_wf, h.tw_eq⟩

theorem goodSync (h : s.OnCourse (observeFields n) n Tw.unsynced t) : s.OnCourse (observeFields n) n Tw.unsynced (t.goodSync n k) := by
  have hstat : wholeReg (SF_STAT n) ∈ observeFields n := by simp [observeFields]
  have hmiss : s.OnCourse (observeFields n) n Tw.unsynced (t.wr (SF_STAT.MISS n) 0) := h.setReg hstat
  exact .ite (.setReg hstat (hmiss.setTw rfl)) (hmiss.setTw rfl)

theorem drift (h : s.OnCourse (observeFields n) n Tw.unsynced t) : s.OnCourse (observeFields n) n Tw.unsynced (t.drift n k a len) := by
  have hdrift : wholeReg (TW_DRIFT n) ∈ observeFields n := by simp [observeFields]
  unfold State.drift
  dsimp only
  generalize hu : t.setTw n { t.tw n with lastSync := _ } = u
  have hlast : s.OnCourse (observeFields n) n Tw.unsynced u := hu ▸ h.setTw rfl
  split
  · exact hlast
  · have hwarm : ∀ {x}, x.unsynced = (u.tw n).unsynced → s.OnCourse (observeFields n) n Tw.unsynced (u.setTw n x) := fun hx => hlast.setTw hx
    exact .ite hlast (.ite (.setReg (twEvt_mem_observeFields n) (hwarm rfl)) (.setReg hdrift (.setTw rfl (hwarm rfl))))

theorem announce (h : s.OnCourse (observeFields n) n Tw.unsynced t) : s.OnCourse (observeFields n) n Tw.unsynced (t.announce n data) := by
  unfold State.announce
  dsimp only
  split_ifs
  · exact h.setTw rfl
  · exact h.setTw rfl
  · exact .setTw rfl (h.setReg (twEvt_mem_observeFields n))

end
end State.OnCourse

/-- In t port n's schedule observes cycle k of mode m, which a SYNC has named; frames wait as in s. -/
structure State.Observes (n k m : Nat) (s t : State) : Prop where
  keeps : s.Keeps (observeFields n) n Port.reloadOnly t
  tws_wf : tabWf Tw.reset t.tws = true
  frames : (t.tw n).frames = (s.tw n).frames
  phase : (t.tw n).phase = .observe
  counter : (t.tw n).cyc.k = k
  mode : (t.tw n).cyc.mode = m

/-- A schedule that is not aligned with common time shows no skew against it (R150). -/
theorem not_skewed_of_not_align {w : Tw} (h : w.align = false) (cs start g ref : Nat) : w.skewed cs start g ref = false := by
  rw [Tw.skewed, h, Bool.false_and]

section
variable {s t : State} (p : Fin 16) {data : List Nat} {a : Nat} {e : TwEntry}

/-- A cycle that is entered and shown runs (R149, R168). -/
theorem enterCycle_observes (hphase : (t.tw p).phase = .observe) (hframes : (t.tw p).frames = (s.tw p).frames)
    (htws : tabWf Tw.reset t.tws = true) (h : s.Keeps (observeFields p) p Port.reloadOnly t) (c : TwCycle) (cs : Nat) :
    s.Observes p c.k c.mode ((t.enterCycle p c).showOffset p cs) := by
  have hns : wholeReg (TW_CYC_NS p) ∈ observeFields p := by simp [observeFields]
  have hsl : wholeReg (TW_CYC_SL p) ∈ observeFields p := by simp [observeFields]
  have hsh : wholeReg (TW_CYC_SH p) ∈ observeFields p := by simp [observeFields]
  have hcount : wholeReg (TW_CNT_CYCLES p) ∈ observeFields p := by simp [observeFields]
  have hoffset : wholeReg (TW_OFFSET p) ∈ observeFields p := by simp [observeFields]
  have htw : (((t.enterCycle p c).showOffset p cs).tw p) = { t.tw p with cyc := c } := tw_setTw_same htws p _
  exact
    { keeps := .wr (.setStamp hns hsl hsh (.setReg (.wr (.setStamp hns hsl hsh (.inc (.setTw h) hcount)) hsh) hoffset)) hsh
      tws_wf := tabPut_wf _ _ htws
      frames := (congrArg Tw.frames htw).trans hframes
      phase := (congrArg Tw.phase htw).trans hphase
      counter := congrArg (fun w : Tw => w.cyc.k) htw
      mode := congrArg (fun w : Tw => w.cyc.mode) htw }

/-- A SYNC that a listening member hears opens OBSERVE, in the mode and the cycle that it names (R148, R151). -/
theorem syncListen_observes (hlt : data.getD 4 0 < 4) (hsync : ((t.tw p).mode (data.getD 4 0)).run.sync = some e)
    (halign : (t.tw p).align = false) (hframes : (t.tw p).frames = (s.tw p).frames) (htws : tabWf Tw.reset t.tws = true)
    (h : s.Keeps (observeFields p) p Port.reloadOnly t) :
    s.Observes p (fieldOf data 2 2) (data.getD 4 0) (t.syncListen p data a) := by
  unfold State.syncListen
  simp only [if_neg (Nat.not_le.2 hlt), hsync, not_skewed_of_not_align halign, Bool.false_eq_true, if_false]
  generalize hu : t.setTw p { t.tw p with phase := .observe, obsK := _, badSync := false } = u
  have hwf : tabWf Tw.reset u.tws = true := hu ▸ tabPut_wf _ _ htws
  have htw : u.tw p = { t.tw p with phase := .observe, obsK := fieldOf data 2 2, badSync := false } := hu ▸ tw_setTw_same htws p _
  have hkeeps : s.Keeps (observeFields p) p Port.reloadOnly u := hu ▸ h.setTw
  have hheard : u.OnCourse (observeFields p) p Tw.unsynced
      ((u.drift p (fieldOf data 2 2) a ((t.tw p).mode (data.getD 4 0)).run.len).announce p data) :=
    .announce (.drift ⟨.start hkeeps.regs_wf hkeeps.ports_wf, hwf, rfl⟩)
  generalize State.announce _ p data = v at hheard ⊢
  have hphase : (v.tw p).phase = .observe := (congrArg Tw.phase hheard.tw_eq :).trans (congrArg Tw.phase htw)
  have hwait : (v.tw p).frames = (s.tw p).frames := (congrArg Tw.frames hheard.tw_eq :).trans ((congrArg Tw.frames htw).trans hframes)
  exact enterCycle_observes p hphase hwait hheard.tws_wf (hkeeps.andThen (fun _ hf => hf) hheard.keeps hheard.keeps.port_eq)
    (v.syncCycle p data a ((t.tw p).mode (data.getD 4 0)).run e) _

/-- What is settled after a SYNC leaves the member in its cycle. -/
theorem State.Observes.settled {k m : Nat} (h : s.Observes p k m t) : s.Observes p k m (t.settled p) := by
  have hstart : t.OnCourse (observeFields p) p Tw.packetless t := ⟨.start h.keeps.regs_wf h.keeps.ports_wf, h.tws_wf, rfl⟩
  have hend : t.OnCourse (observeFields p) p Tw.packetless (t.settled p) :=
    .ite ((State.OnCourse.quiet (schedFields_subset_observeFields p) twView_packetless.view).settleEnded
      (fun _ hu => hu.closePkt p.isLt (itemFields_subset_observeFields p) (by simp [observeFields, boundaryFields])) hstart) hstart
  exact
    { keeps := h.keeps.andThen (fun _ hf => hf) hend.keeps hend.keeps.port_eq
      tws_wf := hend.tws_wf
      frames := (congrArg Tw.frames hend.tw_eq :).trans h.frames
      phase := (congrArg Tw.phase hend.tw_eq :).trans h.phase
      counter := (congrArg (fun w : Tw => w.cyc.k) hend.tw_eq :).trans h.counter
      mode := (congrArg (fun w : Tw => w.cyc.mode) hend.tw_eq :).trans h.mode }

end

/-! ## The frame that is judged (R136, R137) -/

/-- A port out of OBSERVE, JOINED and RUNNING accepts a frame only as a SYNC at any time, in no slot (R137). -/
theorem verdict_listen {s : State} {n : Nat} {items : List RxItem} {cut : Bool} (hlisten : (s.tw n).phase = .listen)
    (hvalid : (s.verdict n items cut).1 = 0) :
    (s.verdict n items cut).2 = none ∧ (items.map (fun i => i.chr % 256)).getD 1 0 % 16 = 1 := by
  have hcyc : (s.tw n).cycling = false := by simp [Tw.cycling, hlisten]
  unfold State.verdict at hvalid ⊢
  dsimp only at hvalid ⊢
  rw [if_pos (.inr hcyc)] at hvalid ⊢
  refine ⟨rfl, ?_⟩
  by_contra htype
  rw [decide_eq_false htype, Bool.and_false, Bool.false_and] at hvalid
  unfold State.frameFails at hvalid
  simp only [Bool.false_or, or_true, if_true] at hvalid
  split_ifs at hvalid

theorem fieldOf_one (data : List Nat) (i : Nat) : fieldOf data i 1 = data.getD i 0 := by
  rw [fieldOf, List.take_one, List.head?_drop, List.getD_eq_getElem?_getD]
  cases data[i]? with
  | none => rfl
  | some x => exact Nat.zero_add x

theorem intrusion_of_listen {s : State} {n : Nat} (hlisten : (s.tw n).phase = .listen) (k : Nat) : s.intrusion n k = s := by
  rw [State.intrusion, if_pos (by simp [hlisten])]

/-- A valid SYNC at a listening member is counted and acted on (R137, R138). -/
theorem judged_sync {s : State} {n : Nat} {items : List RxItem} (hlisten : (s.tw n).phase = .listen) (hrole : (s.tw n).role = false)
    (htype : (items.map (fun i => i.chr % 256)).getD 1 0 % 16 = 1) :
    ∃ ref, s.judged n items 0 none = ((s.inc (TW_CNT_FRAME_RX n)).inc (TW_CNT_SYNC_RX n)).syncMember n (items.map (fun i => i.chr % 256))
      ((items.map RxItem.stamp).headD 0) ref := by
  have hquiet : (items.map RxItem.stamp).foldl (fun s t => s.intrusion n t) s = s :=
    List.foldlRecOn (motive := fun t => t = s) _ _ rfl fun t ht k _ => by rw [ht, intrusion_of_listen hlisten]
  have hnotRole : ¬ (((s.inc (TW_CNT_FRAME_RX n)).inc (TW_CNT_SYNC_RX n)).tw n).role = true :=
    ne_true_of_eq_false hrole
  unfold State.judged
  dsimp only
  rw [hquiet]
  simp only [ne_eq, not_true, if_false, htype, if_true]
  exact ⟨_, (if_neg hnotRole).trans (if_pos htype)⟩

section
variable {s : State} (p : Fin 16) (hcanon : s.canon = true) {f : List RxItem × Bool} {e : TwEntry}
variable (hruns : s.twRuns p = true) (hframes : (s.tw p).frames = [f])
include hcanon hruns hframes

theorem twFrameReceive_observes (hrole : (s.tw p).role = false) (hlisten : (s.tw p).phase = .listen) (halign : (s.tw p).align = false)
    (hsync : ((s.tw p).mode (fieldOf (f.1.map (fun i => i.chr % 256)) 4 1)).run.sync = some e)
    (hvalid : (s.verdict p f.1 f.2).1 = 0) (hmode : (f.1.map (fun i => i.chr % 256)).getD 4 0 < 4) :
    Completes (.twFrameReceive p) s fun t => (t.tw p).frames = [] ∧ (t.tw p).phase = .observe ∧
      (t.tw p).cyc.k = fieldOf (f.1.map (fun i => i.chr % 256)) 2 2 ∧
      (t.tw p).cyc.mode = fieldOf (f.1.map (fun i => i.chr % 256)) 4 1 ∧
      t.reg (TW_CNT_SYNC_RX p) = countUp (s.reg (TW_CNT_SYNC_RX p)) := by
  have hregs := State.regs_wf_of_canon hcanon
  have hports := State.ports_wf_of_canon hcanon
  have htws := State.tws_wf_of_canon hcanon
  obtain ⟨hnone, htype⟩ := verdict_listen hlisten hvalid
  have hopened := withFrames_tw htws p []
  obtain ⟨ref, hjudged⟩ := judged_sync (s := s.withFrames p []) ((congrArg Tw.phase hopened).trans hlisten)
    ((congrArg Tw.role hopened).trans hrole) htype
  refine completes_of_next (execTwFrameReceive_one p htws hruns hframes (.inr hnone)) ?_
  rw [hvalid, hnone, hjudged]
  rw [fieldOf_one] at hsync ⊢
  generalize f.1.map (fun i => i.chr % 256) = data at hmode hsync
  generalize (f.1.map RxItem.stamp).headD 0 = a
  have hcounted : (((s.withFrames p []).inc (TW_CNT_FRAME_RX p)).inc (TW_CNT_SYNC_RX p)).reg (TW_CNT_SYNC_RX p) =
      countUp (s.reg (TW_CNT_SYNC_RX p)) := by
    have hother : TW_CNT_SYNC_RX p ≠ TW_CNT_FRAME_RX p := by simp only [TW_CNT_SYNC_RX, TW_CNT_FRAME_RX]; omega
    rw [reg_inc (s := (s.withFrames p []).inc (TW_CNT_FRAME_RX p)) (setReg_wf _ _ hregs), reg_inc_eq (s := s.withFrames p []) hregs, if_neg hother]
    rfl
  generalize hu : ((s.withFrames p []).inc (TW_CNT_FRAME_RX p)).inc (TW_CNT_SYNC_RX p) = u at hcounted ⊢
  have htw : u.tw p = { s.tw p with frames := [] } := hu ▸ hopened
  have hstart : u.OnCourse (observeFields p) p Tw.unsynced u := by
    rw [← hu]
    exact ⟨.start (setReg_wf _ _ (setReg_wf _ _ hregs)) hports, tabPut_wf _ _ htws, rfl⟩
  have hgood := hstart.goodSync (k := fieldOf data 2 2)
  generalize hv : u.goodSync p (fieldOf data 2 2) = v at hgood
  have hunsynced : (v.tw p).unsynced = Tw.unsynced { s.tw p with frames := [] } := hgood.tw_eq.trans (congrArg Tw.unsynced htw)
  have hphase : (v.tw p).phase = .listen := (congrArg Tw.phase hunsynced :).trans hlisten
  have hmodes : (v.tw p).mode = (s.tw p).mode := (congrArg Tw.mode hunsynced :)
  have hwait : (v.tw p).frames = (u.tw p).frames := (congrArg Tw.frames hgood.tw_eq :)
  have hlistened : u.syncMember p data a ref = v.syncListen p data a := by
    unfold State.syncMember
    simp only [hv, hphase]
  have hend : u.Observes p (fieldOf data 2 2) (data.getD 4 0) ((u.syncMember p data a ref).settled p) := by
    rw [hlistened]
    exact (syncListen_observes p hmode (by rwa [hmodes]) ((congrArg Tw.align hunsynced :).trans halign) hwait hgood.tws_wf
      hgood.keeps).settled
  exact ⟨hend.frames.trans (congrArg Tw.frames htw), hend.phase, hend.counter, hend.mode,
    (hend.keeps.reg_eq (observeFields_apart_syncRx p)).trans hcounted⟩

end

end Sys2Proof.Machine
end

section
/-!
The slots, the frames and the missed SYNC of 04_trade_wind_bus.md, put together.
-/
namespace Sys2Proof.Machine

/-- A first node owns the SYNC slots (R134). -/
theorem ownsIn_of_sync {w : Tw} {c : TwCycle} {x : TwEntry} (hrole : w.role = true) (hkind : x.kind = 1) : w.ownsIn c x = true := by
  rw [Tw.ownsIn, ownSlot, hkind, hrole]
  rfl

/-- Settles O17: what comes at a deadline, a start and an end of a slot is followed step by step; a frame that fails changes only what is
heard, and a member that leaves with DE low keeps its count. -/
theorem slotsComplete : Obligations.SlotsComplete := by
  unfold Obligations.SlotsComplete
  refine ⟨?muzzled, ?sync, ?settling, ?sent, ?time, ?silence, ?deferred, ?failed, ?observed, ?missed, ?lost⟩
  case muzzled =>
    rintro s p e hcanon ⟨c, x, next⟩ hslot ⟨hown, hruns, rfl⟩ ⟨hmuzzled, hforfeit, hbufs⟩
    exact slotCommitDeadline_muzzled p e hcanon hslot hown hruns hforfeit hbufs hmuzzled
  case sync =>
    rintro s p e hcanon ⟨c, x, next⟩ hslot ⟨hrole, hrunning, hruns, rfl, hkind⟩ ⟨hfree, hforfeit, hbufs, hfits⟩
    exact slotCommitDeadline_sync p e hcanon hslot (ownsIn_of_sync hrole hkind) hruns hforfeit hbufs hrole hkind hfree hfits
  case settling =>
    rintro s p e edge hcanon ⟨hcyc, hen, hown⟩ ⟨hruns, hwaiting, hsending⟩ ⟨hbufs, hsettling⟩
    exact slotStart_settling p e hcanon edge hcyc hen hown hruns hwaiting hsending hbufs hsettling
  case sent =>
    rintro s p e edge hcanon b hb ⟨hcyc, hen, hown⟩ ⟨hruns, hwaiting, hsending, hentry, hnext, hkept⟩ ⟨hsettled, hpause, hforfeit, hfree⟩
      ⟨hrole, hkind, helder, hfits⟩ hhead
    exact slotStart_sent p e hcanon edge b hb hcyc hen hown hruns hwaiting hsending hentry hnext hkept hsettled hpause hforfeit hfree hrole
      hkind helder hfits hhead
  case time => exact fun s p e _ ⟨hcyc, hen, hruns⟩ => slotEnd_time p e hcyc hen hruns
  case silence =>
    rintro s p e hcanon _ ⟨⟩ hwf ⟨hrole, hrunning, hen, hkind, hasm, hframes, hbufs⟩ ⟨hpkt, hexpected, hlim⟩ hlast hnodelay
    exact slotEnd_silence p e hcanon hwf hrole hrunning hen hkind hasm hframes hbufs hpkt hexpected hlim hlast hnodelay
  case deferred => exact fun s p e hcanon ⟨hcyc, hen, harriving, hbufs⟩ => slotEnd_deferred p e hcanon hcyc hen harriving hbufs
  case failed =>
    rintro s p hcanon f - ⟨hruns, hframes, hpkt, hfail⟩
    obtain ⟨t, hnext, hgone, hcounts⟩ := twFrameReceive_failed p hcanon hruns hframes hpkt hfail
    obtain ⟨hcrc, hwindow, htrunc⟩ := failCounter_eq_iff (fail := (s.verdict p f.1 f.2).1) p (frameFails_le s p f.1 f.2 _ _)
    exact ⟨t, hnext, hgone, (hcounts (TW_CNT_CRC p) (by simp)).trans (if_congr hcrc rfl rfl),
      (hcounts (TW_CNT_WINDOW p) (by simp)).trans (if_congr hwindow rfl rfl),
      (hcounts (TW_CNT_TRUNC p) (by simp)).trans (if_congr htrunc rfl rfl)⟩
  case observed =>
    rintro s p hcanon f - e hsync ⟨hruns, hrole, hlisten, hframes, -, halign⟩ ⟨hvalid, hmode⟩
    exact twFrameReceive_observes p hcanon hruns hframes hrole hlisten halign hsync hvalid hmode
  case missed =>
    rintro s p hcanon e hsync ⟨hrole, hopen, hjoined, hawait⟩ ⟨hdead, hmiss⟩
    exact syncMiss_missed p hcanon hsync hrole hopen hjoined hawait hdead hmiss
  case lost =>
    rintro s p hcanon e hsync ⟨hrole, hopen, hjoined, hawait⟩ ⟨hdead, hmiss, hde⟩
    exact syncMiss_lost p hcanon hsync hrole hopen hjoined hawait hdead hmiss hde

end Sys2Proof.Machine
end

section
/-!
SUPPORT. A statement of 04_trade_wind_bus.md that fails in some canonical state, with that state: a slot that takes a word with an error of a
memory that does not exist.
-/
namespace Sys2Proof.Machine

/-! ## A word with an error of a memory that the device does not have, in a slot -/

/-- A DATA slot of address 0 that queue 0 serves (R128), of 2 ^ 28 ns from the cycle's start on. -/
def hurtSlot : TwEntry := { d1 := 0x10000000, d2 := 0x9200 }

/-- A device whose clocks run, with a cycle of port 0, a first node of address 0, whose one slot is hurtSlot. Queue 0 holds one word, with a
correctable error of memory 4: the memories that an injection names are 0 to 3 (R652), and the canonical form of a state says nothing of the
number. -/
def hurtSchedule : State :=
  { State.reset with
    stopped := {}
    tws := [(0, { phase := .running, role := true, cyc := { table := { entries := [(0, hurtSlot)] } } })]
    queues := [(0, { ex := true, words := [{ data := 0x41 }], head := 1, hurt := [(0, 4, false)] })] }

/-- The commit of the slot takes the word (R141), and counts the error in the copy of DDR_CNT_CE that channel 2 would have. -/
theorem slotCommitDeadline_hurtSchedule : ∃ t, exec (.slotCommitDeadline 0 0) hurtSchedule = .next t ∧ t.reg (DDR_CNT_CE 2) = 1 :=
  ⟨_, rfl, by decide +kernel⟩

/-- Refutes O55: the frame of SLOT_COMMIT_DEADLINE lists the counters of two DRAM channels, and a canonical state can name a third. -/
theorem not_scheduleFrames : ¬ Obligations.ScheduleFrames := by
  unfold Obligations.ScheduleFrames
  rintro ⟨-, -, -, -, -, -, hdeadline, -⟩
  obtain ⟨t, hexec, hcount⟩ := slotCommitDeadline_hurtSchedule
  obtain ⟨-, hregs, -⟩ := hdeadline 0 0 hurtSchedule t (by decide +kernel) hexec
  have hkept := hregs (DDR_CNT_CE 2) (by decide +kernel)
  rw [hcount] at hkept
  exact absurd hkept (by decide +kernel)

end Sys2Proof.Machine
end

section
/-!
SUPPORT. A muzzle where DE is low, in 05_bus_guardian.md (R151, R179, R180).
-/
namespace Sys2Proof.Machine

/-! ## Firings and records of changes -/

namespace State.Elsewhere
section
variable {s t : State} {k a : Nat} {o : Origin} {new old : Word}

theorem sendMsix (h : s.Elsewhere t) : s.Elsewhere (t.sendMsix k) :=
  .ite (h.setReg (.inr (by simp only [MSIX_PBA]; omega))) (.ite (h.same rfl rfl rfl) h)

theorem deliver (h : s.Elsewhere t) : s.Elsewhere (t.deliver k) := .ite (.ite h.sendMsix h) (h.same rfl rfl rfl)

theorem refreshLine (h : s.Elsewhere t) : s.Elsewhere (t.refreshLine k) := by
  unfold State.refreshLine
  exact .ite (.deliver (h.same rfl rfl rfl)) (.ite (h.same rfl rfl rfl) h)

theorem refreshLines (h : s.Elsewhere t) : s.Elsewhere t.refreshLines := by
  have hlines : s.Elsewhere ([0, 1, 2, 3, 4, 5, 6, 7].foldl State.refreshLine t) := .foldl _ (fun _ _ ht => ht.refreshLine) h
  unfold State.refreshLines
  generalize [0, 1, 2, 3, 4, 5, 6, 7].foldl State.refreshLine t = u at hlines ⊢
  exact .ite (hlines.same rfl rfl rfl) hlines

/-- A source that fires changes no register of the serial ports (R458, R539). -/
theorem fire (h : s.Elsewhere t) : s.Elsewhere (t.fire k) := .ite (.refreshLines (h.same rfl rfl rfl)) (.ite h (h.same rfl rfl rfl))

theorem configWrite (h : s.Elsewhere t) : s.Elsewhere (t.configWrite o a new old) := .ite h (h.event (by decide))

theorem bit_eq {f : Fld} (h : s.Elsewhere t) (hlow : 0x80000 ≤ f.reg) (hhigh : f.reg < 0x400000) : t.bit f = s.bit f := by
  rw [State.bit, State.rd, h.reg_eq _ hlow hhigh, State.bit, State.rd]

end
end State.Elsewhere

/-! ## What leaves a muzzle as it is -/

/-- From s to t the muzzle of port n, its cause and the events of SF_EVT keep their values, where DE is low. -/
structure State.KeepsMuzzle (n : Nat) (s t : State) : Prop where
  regs_wf : tabWf regReset t.regs = true
  ports_wf : tabWf Port.reset t.ports = true
  tws_wf : tabWf Tw.reset t.tws = true
  de_low : (t.port n).de = false
  evt_eq : t.reg (SF_EVT n) = s.reg (SF_EVT n)
  muzzled_eq : (t.tw n).guard.muzzled = (s.tw n).guard.muzzled
  cause_eq : (t.tw n).guard.cause = (s.tw n).guard.cause

/-- The end of a frame changes nothing of the guardian. -/
theorem Tw.endFrame_guard (w : Tw) (keep : Bool) : (w.endFrame keep).guard = w.guard := by
  unfold Tw.endFrame
  split
  · rfl
  · rfl

namespace State.KeepsMuzzle
section
variable {n m a clip cause code k : Nat} {s t u : State} {w : Tw} {v : Word} {tab : TwTable} {nums : List Nat} {f : Fld}

theorem of_canon (hcanon : s.canon = true) (hde : (s.port n).de = false) : s.KeepsMuzzle n s :=
  ⟨regs_wf_of_canon hcanon, ports_wf_of_canon hcanon, tws_wf_of_canon hcanon, hde, rfl, rfl, rfl⟩

/-- From here on t is the state that is followed. -/
theorem restart (h : s.KeepsMuzzle n t) : t.KeepsMuzzle n t := { h with evt_eq := rfl, muzzled_eq := rfl, cause_eq := rfl }

theorem bit_eq (h : s.KeepsMuzzle n t) (hf : f.reg = SF_EVT n) : t.bit f = s.bit f := by
  rw [State.bit, State.rd, hf, h.evt_eq, ← hf, State.bit, State.rd]

theorem ite {c : Prop} [Decidable c] (ht : s.KeepsMuzzle n t) (hu : s.KeepsMuzzle n u) : s.KeepsMuzzle n (if c then t else u) := by
  split_ifs
  · exact ht
  · exact hu

theorem setReg (ha : SF_EVT n ≠ a) (h : s.KeepsMuzzle n t) : s.KeepsMuzzle n (t.setReg a v) :=
  { h with regs_wf := setReg_wf _ _ h.regs_wf, evt_eq := (reg_setReg_ne ha _ _).trans h.evt_eq }

theorem setTw (hmuzzled : w.guard.muzzled = (t.tw n).guard.muzzled) (hcause : w.guard.cause = (t.tw n).guard.cause)
    (h : s.KeepsMuzzle n t) : s.KeepsMuzzle n (t.setTw n w) :=
  have hset : (t.setTw n w).tw n = w := tw_setTw_same h.tws_wf n w
  { h with
    tws_wf := tabPut_wf _ _ h.tws_wf
    muzzled_eq := (congrArg (fun x : Tw => x.guard.muzzled) hset).trans (hmuzzled.trans h.muzzled_eq)
    cause_eq := (congrArg (fun x : Tw => x.guard.cause) hset).trans (hcause.trans h.cause_eq) }

/-- What is told elsewhere leaves the muzzle as it is. -/
theorem told (hn : n < 16) (hsignals : t.Signals u) (helse : t.Elsewhere u) (h : s.KeepsMuzzle n t) : s.KeepsMuzzle n u where
  regs_wf := helse.regs_wf
  ports_wf := helse.ports_wf
  tws_wf := hsignals.tws_eq ▸ h.tws_wf
  de_low := by rw [State.port, hsignals.ports_eq]; exact h.de_low
  evt_eq := (helse.reg_eq _ (by simp only [SF_EVT]; omega) (by simp only [SF_EVT]; omega)).trans h.evt_eq
  muzzled_eq := (congrArg (fun x : Tw => x.guard.muzzled) (hsignals.tw_eq n)).trans h.muzzled_eq
  cause_eq := (congrArg (fun x : Tw => x.guard.cause) (hsignals.tw_eq n)).trans h.cause_eq

theorem event (hn : n < 16) (hcode : code / 256 < 16) (h : s.KeepsMuzzle n t) : s.KeepsMuzzle n (t.event code nums) :=
  h.told hn (.event .start) (.event hcode (.start h.regs_wf h.ports_wf))

theorem fire (hn : n < 16) (h : s.KeepsMuzzle n t) : s.KeepsMuzzle n (t.fire k) :=
  h.told hn (.fire .start) (.fire (.start h.regs_wf h.ports_wf))

theorem configWrite {o : Origin} {new old : Word} (hn : n < 16) (h : s.KeepsMuzzle n t) :
    s.KeepsMuzzle n (t.configWrite o a new old) :=
  h.told hn (.configWrite .start) (.configWrite (.start h.regs_wf h.ports_wf))

/-! ### A cycle that ends for good, with DE low (R131, R151, R173) -/

theorem applyTable (hm : m < 4) (h : s.KeepsMuzzle n t) : s.KeepsMuzzle n (t.applyTable n m tab clip) := by
  have hshown : s.KeepsMuzzle n (((t.setTw n ((t.tw n).setMode m { (t.tw n).mode m with run := tab, pend := none })).setReg
      (TW_TCLIP n (2 * m)) (BitVec.ofNat 32 clip)).setReg (TW_TCLIP n (2 * m + 1)) (BitVec.ofNat 32 (clip / 0x100000000))) :=
    .setReg (by simp only [SF_EVT, TW_TCLIP]; omega) (.setReg (by simp only [SF_EVT, TW_TCLIP]; omega) (h.setTw rfl rfl))
  exact .ite hshown (hshown.setReg (by simp only [SF_EVT, TW_EVT.TABLE_CLIPPED, TW_EVT]; omega))

theorem copyTake (hm : m < 4) (h : s.KeepsMuzzle n t) : s.KeepsMuzzle n (t.copyTake n m tab) :=
  .setTw rfl rfl (h.setReg (by simp only [SF_EVT, GD_CRC]; omega))

theorem haltCommits (h : s.KeepsMuzzle n t) : s.KeepsMuzzle n (t.haltCommits n) := by
  refine List.foldlRecOn _ _ h fun u hu m hm => ?_
  have hm : m < 4 := List.mem_range.1 hm
  split
  · dsimp only
    split
    · exact .copyTake hm (hu.applyTable hm)
    · exact .setTw rfl rfl (hu.applyTable hm)
  · exact hu

theorem dropDe (h : s.KeepsMuzzle n t) : s.KeepsMuzzle n (t.dropDe n) := by
  unfold State.dropDe
  dsimp only
  generalize hu : t.setPort n _ = u
  have hport : (u.port n).de = false := by rw [← hu, port_setPort_same h.ports_wf]
  have hdown : s.KeepsMuzzle n u := hu ▸ { h with ports_wf := tabPut_wf _ _ h.ports_wf, de_low := hu ▸ hport }
  have hgated : s.KeepsMuzzle n (if u.twRuns n then u.setTw n { u.tw n with gate := (u.time.tick, false) } else u) :=
    .ite (hdown.setTw rfl rfl) hdown
  exact .ite (.ite hgated { hgated with }) hgated

theorem haltCycle (h : s.KeepsMuzzle n t) : s.KeepsMuzzle n (t.haltCycle n) := by
  have hlow : s.KeepsMuzzle n ((t.haltCommits n).dropDe n) := h.haltCommits.dropDe
  have hended : s.KeepsMuzzle n (((t.haltCommits n).dropDe n).setTw n ((((t.haltCommits n).dropDe n).tw n).endFrame true)) :=
    hlow.setTw (congrArg Guardian.muzzled (Tw.endFrame_guard _ true)) (congrArg Guardian.cause (Tw.endFrame_guard _ true))
  exact .setTw rfl rfl (.ite hended h.haltCommits)

theorem leavePhase (hn : n < 16) (h : s.KeepsMuzzle n t) : s.KeepsMuzzle n (t.leavePhase n cause) := by
  have hcause : s.KeepsMuzzle n (t.wr (SF_STAT.LEAVE_CAUSE n) cause) :=
    h.setReg (by simp only [SF_EVT, SF_STAT.LEAVE_CAUSE, SF_STAT]; omega)
  have hleft : s.KeepsMuzzle n ((t.wr (SF_STAT.LEAVE_CAUSE n) cause).on (TW_EVT.LEFT n)) :=
    hcause.setReg (by simp only [SF_EVT, TW_EVT.LEFT, TW_EVT]; omega)
  unfold State.leavePhase
  dsimp only
  generalize hu : State.haltCycle _ n = u
  have hhalted : s.KeepsMuzzle n u := hu ▸ .haltCycle (.ite (hleft.event hn (by decide)) hcause)
  exact .ite h (hhalted.setTw rfl rfl)

end
end State.KeepsMuzzle

/-! ## The muzzle (R179) -/

/-- The guardian of port n has muzzled it, and shows a muzzle that is new, before anything is told of it. -/
def State.muzzleShown (s : State) (n cause : Nat) : State :=
  let u := s.setGuard n { (s.tw n).guard with muzzled := true, cause := cause }
  if (s.tw n).guard.muzzled then u else (u.inc (SF_CNT_MUZZLE n)).on (SF_EVT.MUZZLED n)

theorem muzzleEvents_apart : ∀ p : Fin 16,
    [wholeReg (SF_CNT_MUZZLE p), SF_EVT.MUZZLED p].all (fun f => f.apart (SF_EVT.COPY_FAIL p)) = true := by decide +kernel

section
variable {s : State} (p : Fin 16) (hstart : s.KeepsMuzzle p s) (cause : Nat)
include hstart

theorem muzzleShown_guard :
    ((s.muzzleShown p cause).tw p).guard = { (s.tw p).guard with muzzled := true, cause := cause } := by
  have hset := tw_setTw_same hstart.tws_wf p { s.tw p with guard := { (s.tw p).guard with muzzled := true, cause := cause } }
  unfold State.muzzleShown
  dsimp only
  split_ifs
  · exact congrArg Tw.guard hset
  · exact congrArg Tw.guard hset

theorem muzzleShown_start : (s.muzzleShown p cause).KeepsMuzzle p (s.muzzleShown p cause) := by
  have htws : tabWf Tw.reset
      (s.setGuard p { (s.tw p).guard with muzzled := true, cause := cause }).tws = true := tabPut_wf _ _ hstart.tws_wf
  unfold State.muzzleShown
  dsimp only
  split_ifs
  · exact ⟨hstart.regs_wf, hstart.ports_wf, htws, hstart.de_low, rfl, rfl, rfl⟩
  · exact ⟨setReg_wf _ _ (setReg_wf _ _ hstart.regs_wf), hstart.ports_wf, htws, hstart.de_low, rfl, rfl, rfl⟩

theorem muzzleShown_muzzled (hfree : (s.tw p).guard.muzzled = false) : (s.muzzleShown p cause).bit (SF_EVT.MUZZLED p) = true := by
  rw [State.muzzleShown, if_neg (ne_true_of_eq_false hfree)]
  refine bit_on ?_ (by simp [SF_EVT.MUZZLED]) rfl
  exact setReg_wf _ _ hstart.regs_wf

theorem muzzleShown_copyFail : (s.muzzleShown p cause).bit (SF_EVT.COPY_FAIL p) = s.bit (SF_EVT.COPY_FAIL p) := by
  have hset : s.Keeps [wholeReg (SF_CNT_MUZZLE p), SF_EVT.MUZZLED p] p Port.unseen
      (s.setGuard p { (s.tw p).guard with muzzled := true, cause := cause }) := .setTw (.start hstart.regs_wf hstart.ports_wf)
  exact State.Keeps.bit_eq (.ite hset (.wrField (hset.inc (by simp)) (by simp))) (muzzleEvents_apart p)

/-- Where a muzzle that is new fires its source, what was shown stands. -/
theorem muzzleShown_fired : (s.muzzleShown p cause).KeepsMuzzle p
    (if (s.tw p).guard.muzzled then s.setGuard p { (s.tw p).guard with muzzled := true, cause := cause }
    else (((s.setGuard p { (s.tw p).guard with muzzled := true, cause := cause }).inc (SF_CNT_MUZZLE p)).on
      (SF_EVT.MUZZLED p)).fire (guardianTrip p)) := by
  have hshown := muzzleShown_start p hstart cause
  unfold State.muzzleShown at hshown ⊢
  dsimp only at hshown ⊢
  split_ifs at hshown ⊢
  · exact hshown
  · exact hshown.fire p.isLt

/-- With DE low the muzzle stands as it was shown, whatever is told of it, and also where the member leaves (R179, R180). -/
theorem muzzle_of_de_low : (s.muzzleShown p cause).KeepsMuzzle p (s.muzzle p cause) := by
  have htold := (muzzleShown_fired p hstart cause).event (code := Ev.TW_MUZZLED) (nums := [p.val, cause]) p.isLt (by decide)
  have hset : (s.muzzleShown p cause).KeepsMuzzle p (s.muzzleSet p cause) := .ite (htold.leavePhase p.isLt) htold
  rwa [State.muzzle, followGate_of_de_low hstart.de_low, gateNow_of_de_low hset.de_low]

/-- What a muzzle leaves with DE low: the port is muzzled with the cause, and a muzzle that is new is shown. -/
theorem muzzle_told {t : State} (h : (s.muzzle p cause).KeepsMuzzle p t) :
    (t.tw p).guard.muzzled = true ∧ (t.tw p).guard.cause = cause ∧
      ((s.tw p).guard.muzzled = false → t.bit (SF_EVT.MUZZLED p) = true) ∧
      t.bit (SF_EVT.COPY_FAIL p) = s.bit (SF_EVT.COPY_FAIL p) := by
  have hset := muzzle_of_de_low p hstart cause
  have hguard := muzzleShown_guard p hstart cause
  refine ⟨?_, ?_, fun hfree => ?_, ?_⟩
  · rw [h.muzzled_eq, hset.muzzled_eq, hguard]
  · rw [h.cause_eq, hset.cause_eq, hguard]
  · rw [h.bit_eq rfl, hset.bit_eq rfl, muzzleShown_muzzled p hstart cause hfree]
  · rw [h.bit_eq rfl, hset.bit_eq rfl, muzzleShown_copyFail p hstart cause]

end

end Sys2Proof.Machine
end

section
/-!
SUPPORT. Energy on the line that is part of no valid frame, in 05_bus_guardian.md (R186, R187).
-/
namespace Sys2Proof.Machine

/-! ## Foreign energy leaves intrusions as they are -/

/-- The registers that foreign energy changes (R171, R186). -/
def foreignFields (n : Nat) : List Fld :=
  logFields ++ [TW_CNT_FOREIGN n, SF_CNT_BABBLE n, SF_EVT n, SF_BABBLE n].map wholeReg

theorem foreignFields_apart : ∀ p : Fin 16, (foreignFields p).all (fun f => f.apart (wholeReg (SF_CNT_INTRUDE p))) = true ∧
    (foreignFields p).all (fun f => f.apart (SP_DE_PRE.DE_PRE p)) = true := by decide +kernel

/-- A cycle without its entries with foreign energy. -/
def TwCycle.unheard (c : TwCycle) : TwCycle := { c with foreign := [] }

/-- A schedule without what foreign energy changes in it. -/
def Tw.unheard (w : Tw) : Tw := { w with cyc := w.cyc.unheard, prev := none, babble := [] }

namespace State.OnCourse
section
variable {n k e : Nat} {old : Bool} {c : TwCycle} {addr : Option Nat} {s t : State}

theorem foreignIn (hrun : old = false → c = (t.tw n).cyc) (h : s.OnCourse (foreignFields n) n Tw.unheard t) :
    s.OnCourse (foreignFields n) n Tw.unheard (t.foreignIn n old c e addr) := by
  have hforeign : wholeReg (TW_CNT_FOREIGN n) ∈ foreignFields n := by simp [foreignFields]
  have hcount : wholeReg (SF_CNT_BABBLE n) ∈ foreignFields n := by simp [foreignFields]
  have hevt : wholeReg (SF_EVT n) ∈ foreignFields n := by simp [foreignFields]
  have hlast : wholeReg (SF_BABBLE n) ∈ foreignFields n := by simp [foreignFields]
  have hlog : logFields ⊆ foreignFields n := fun _ hf => by simp [foreignFields, hf]
  unfold State.foreignIn
  dsimp only
  generalize hu : State.setTw _ n _ = u
  have hset : s.OnCourse (foreignFields n) n Tw.unheard u := hu ▸ .setTw ?same (h.setReg hforeign)
  case same =>
    cases old with
    | true => rfl
    | false =>
      rw [hrun rfl]
      rfl
  exact .ite h (.ite (.event hlog (by decide) (.setReg hlast (.setReg hlast (.setReg hevt (hset.setReg hcount))))) hset)

theorem foreignAt (h : s.OnCourse (foreignFields n) n Tw.unheard t) :
    s.OnCourse (foreignFields n) n Tw.unheard (t.foreignAt n k) := by
  unfold State.foreignAt
  dsimp only
  refine .ite ?_ h
  split
  case h_1 c hcycle =>
    refine .ite (h.foreignIn fun hold => ?_) h
    rw [if_neg (by rw [hold]; decide)] at hcycle
    exact (Option.some.inj hcycle).symm
  case h_2 => exact h

end
end State.OnCourse

/-! ## Intrusions (R187) -/

/-- Whether an edge intrudes depends on DE_PRE, on the role and the address of the node, and on the cycle, not on what was foreign in it. -/
theorem intruded_congr {s t : State} {n : Nat} {c d : TwCycle} (hpre : t.rd (SP_DE_PRE.DE_PRE n) = s.rd (SP_DE_PRE.DE_PRE n))
    (hrole : (t.tw n).role = (s.tw n).role) (haddr : (t.tw n).addr = (s.tw n).addr) (hcyc : d.unheard = c.unheard) (k : Nat)
    (marks : List Nat) : t.intruded n k d marks = s.intruded n k c marks := by
  calc t.intruded n k d marks
    _ = t.intruded n k d.unheard marks := rfl
    _ = s.intruded n k c.unheard marks := by simp only [hcyc, State.intruded, hpre, hrole, haddr]
    _ = s.intruded n k c marks := rfl

/-- An edge that intrudes on an own slot of the running cycle counts (R187). -/
theorem intrusion_told {s : State} (hregs : tabWf regReset s.regs = true) {n k : Nat}
    (hphase : (s.tw n).phase = .joined ∨ (s.tw n).phase = .running)
    (hhit : (s.intruded n k (s.tw n).cyc (s.tw n).cyc.intruded).isSome = true) :
    (s.intrusion n k).reg (SF_CNT_INTRUDE n) = countUp (s.reg (SF_CNT_INTRUDE n)) ∧
      (s.intrusion n k).bit (SF_EVT.INTRUDE n) = true := by
  obtain ⟨e, he⟩ := Option.isSome_iff_exists.1 hhit
  have hopen : ¬ ((s.tw n).phase ≠ .joined ∧ (s.tw n).phase ≠ .running) := by tauto
  unfold State.intrusion
  simp only [if_neg hopen, he]
  generalize hu : s.setTw n _ = u
  have hwf : tabWf regReset u.regs = true := hu ▸ hregs
  have hreg : u.reg (SF_CNT_INTRUDE n) = s.reg (SF_CNT_INTRUDE n) := by rw [← hu]; rfl
  constructor
  · rw [State.on, reg_wr_ne (by simp only [SF_CNT_INTRUDE, SF_EVT.INTRUDE, SF_EVT]; omega), reg_inc hwf, hreg]
  · exact bit_on (setReg_wf _ _ hwf) (by simp [SF_EVT.INTRUDE]) rfl

theorem foreignEnergy_intrudes {s : State} (p : Fin 16) (hcanon : s.canon = true) {k : Nat} (hedge : (s.tw p).lastEdge = some k)
    (hruns : s.twRuns p = true) (hphase : (s.tw p).phase = .joined ∨ (s.tw p).phase = .running)
    (hhit : (s.intruded p k (s.tw p).cyc (s.tw p).cyc.intruded).isSome = true) :
    Completes (.foreignEnergy p) s fun t => t.reg (SF_CNT_INTRUDE p) = countUp (s.reg (SF_CNT_INTRUDE p)) ∧
      t.bit (SF_EVT.INTRUDE p) = true := by
  obtain ⟨hcount, hpre⟩ := foreignFields_apart p
  have hnext : exec (.foreignEnergy p) s = .next ((s.foreignAt p k).intrusion p k) := by
    change execForeignEnergy p s = _
    simp only [execForeignEnergy, hedge, hruns, if_true]
  have hforeign : s.OnCourse (foreignFields p) p Tw.unheard (s.foreignAt p k) := .foreignAt (.of_canon hcanon)
  have hcyc : ((s.foreignAt p k).tw p).cyc.unheard = (s.tw p).cyc.unheard := (congrArg Tw.cyc hforeign.tw_eq :)
  have hmarks : ((s.foreignAt p k).tw p).cyc.intruded = (s.tw p).cyc.intruded := (congrArg TwCycle.intruded hcyc :)
  have hstill : ((s.foreignAt p k).tw p).phase = (s.tw p).phase := (congrArg Tw.phase hforeign.tw_eq :)
  have hsame : (s.foreignAt p k).intruded p k ((s.foreignAt p k).tw p).cyc ((s.foreignAt p k).tw p).cyc.intruded =
      s.intruded p k (s.tw p).cyc (s.tw p).cyc.intruded :=
    hmarks ▸ intruded_congr (hforeign.keeps.rd_eq _ hpre) (congrArg Tw.role hforeign.tw_eq :) (congrArg Tw.addr hforeign.tw_eq :) hcyc k _
  obtain ⟨hcounted, hshown⟩ := intrusion_told hforeign.keeps.regs_wf (hstill ▸ hphase) (hsame ▸ hhit)
  exact completes_of_next hnext ⟨by rw [hcounted, hforeign.keeps.reg_eq hcount], hshown⟩

end Sys2Proof.Machine
end

section
/-!
The guardian of 05_bus_guardian.md: the check of its copies, its own boundary, the muzzle and its history, put together.
-/
namespace Sys2Proof.Machine

/-! ## The check of a copy (R173, R174) -/

section
variable {s : State} (p : Fin 16) (hcanon : s.canon = true) (m : Fin 4) {x : TwTable × Nat}
variable (hload : tabGet (fun _ => (none : Option (TwTable × Nat))) (s.tw p).guard.loads m = some x)
include hcanon hload

/-- The check of a commit that waits for a boundary shows its CRC. -/
theorem guardianCopyCheck_passes (hpend : ((s.tw p).mode m).pend.isSome = true) :
    Completes (.guardianCopyCheck p m 0) s fun t => t.reg (GD_CRC p m) = x.1.crc := by
  have hregs := State.regs_wf_of_canon hcanon
  have hshown : ∀ g, ((s.setReg (GD_CRC p m) x.1.crc).setGuard p g).reg (GD_CRC p m) = x.1.crc := fun _ =>
    (reg_setReg hregs _ _ _).trans (if_pos rfl)
  have hcheck : ∃ g, s.checkLoad p m 0 = (s.setReg (GD_CRC p m) x.1.crc).setGuard p g := by
    simp only [State.checkLoad, hpend, and_self, if_true, hload]
    exact ⟨_, rfl⟩
  obtain ⟨g, hcheck⟩ := hcheck
  have hloaded : ((s.setReg (GD_CRC p m) x.1.crc).setGuard p g).Elsewhere
      (((s.setReg (GD_CRC p m) x.1.crc).setGuard p g).portLoaded p) :=
    .portLoaded (.start (setReg_wf _ _ hregs) (State.ports_wf_of_canon (s := s) hcanon))
  refine completes_of_next rfl ?_
  rw [hcheck, hloaded.reg_eq _ (by simp only [GD_CRC]; omega) (by simp only [GD_CRC]; omega), hshown]

/-- A check that fails muzzles (R173, R179). -/
theorem guardianCopyCheck_fails {upset : Word} (hupset : upset ≠ 0) (hde : (s.port p).de = false) :
    Completes (.guardianCopyCheck p m upset) s fun t => (t.tw p).guard.muzzled = true ∧ (t.tw p).guard.cause = 2 ∧
      t.bit (SF_EVT.COPY_FAIL p) = true := by
  have hcheck : ∃ g, s.checkLoad p m upset =
      (((s.setReg (GD_CRC p m) (x.1.crc ^^^ upset)).setGuard p g).on (SF_EVT.COPY_FAIL p)).muzzle p 2 := by
    simp only [State.checkLoad, hupset, and_false, if_false, State.copyCheck, hload]
    exact ⟨_, rfl⟩
  obtain ⟨g, hcheck⟩ := hcheck
  generalize hu : (s.setReg (GD_CRC p m) (x.1.crc ^^^ upset)).setGuard p g = u at hcheck
  have hregs : tabWf regReset u.regs = true := hu ▸ setReg_wf _ _ (State.regs_wf_of_canon hcanon)
  have hports : tabWf Port.reset u.ports = true := hu ▸ State.ports_wf_of_canon (s := s) hcanon
  have htws : tabWf Tw.reset u.tws = true := hu ▸ tabPut_wf _ _ (State.tws_wf_of_canon (s := s) hcanon)
  have hlow : (u.port p).de = false := hu ▸ hde
  have hstart : (u.on (SF_EVT.COPY_FAIL p)).KeepsMuzzle p (u.on (SF_EVT.COPY_FAIL p)) :=
    ⟨setReg_wf _ _ hregs, hports, htws, hlow, rfl, rfl, rfl⟩
  have hend := (muzzle_of_de_low p hstart 2).restart
  obtain ⟨hmuzzled, hcause, -, hkept⟩ := muzzle_told p hstart 2 hend
  have hfailed : (u.on (SF_EVT.COPY_FAIL p)).bit (SF_EVT.COPY_FAIL p) = true := bit_on hregs (by simp [SF_EVT.COPY_FAIL]) rfl
  refine completes_of_next rfl ?_
  rw [hcheck]
  have hloaded : ((u.on (SF_EVT.COPY_FAIL p)).muzzle p 2).Elsewhere (((u.on (SF_EVT.COPY_FAIL p)).muzzle p 2).portLoaded p) :=
    .portLoaded (.start hend.regs_wf hend.ports_wf)
  have htw : (((u.on (SF_EVT.COPY_FAIL p)).muzzle p 2).portLoaded p).tw p = ((u.on (SF_EVT.COPY_FAIL p)).muzzle p 2).tw p := by
    rw [State.tw, hloaded.tws_eq, State.tw]
  have hevt := hloaded.bit_eq (f := SF_EVT.COPY_FAIL p) (by simp only [SF_EVT.COPY_FAIL, SF_EVT]; omega)
    (by simp only [SF_EVT.COPY_FAIL, SF_EVT]; omega)
  exact ⟨by rw [htw, hmuzzled], by rw [htw, hcause], by rw [hevt, hkept, hfailed]⟩

end

/-! ## The guardian's own boundary (R175, R176) -/

/-- A boundary of a guardian whose copy is as it was loaded: only its history and its rotating window change. -/
theorem guardBoundary_of_whole {s : State} {n : Nat} (htws : tabWf Tw.reset s.tws = true)
    (hwhole : (s.tw n).guard.whole = (s.tw n).guard.ref) :
    s.guardBoundary n = s.setGuard n { (s.tw n).guard with rot := false, hist := (0 :: (s.tw n).guard.hist).take 256 } := by
  have hset := tw_setTw_same htws n { s.tw n with
    guard := { (s.tw n).guard with rot := false, hist := (0 :: (s.tw n).guard.hist).take 256 } }
  refine if_pos ?_
  rw [State.setGuard, hset]
  exact hwhole

/-- The guardian takes its own prediction for the start of the cycle at tick k (R176). -/
def Guardian.predict (g : Guardian) (k : Nat) : Guardian :=
  { g with
    g := g.next, k := (g.k + 1) % 0x10000, predicted := true, keep := if g.openAt k then g.openUntil k else 0 }

/-- An anchored guardian of port n goes on by itself at this tick (R176). -/
def State.goesOn (s : State) (n : Nat) : State :=
  if (s.tw n).guard.anchored = false then s
  else ((s.setGuard n ((s.tw n).guard.predict s.time.tick)).guardBoundary n).gateNow n

section
variable {s : State} (p : Fin 16)

/-- Its time comes, the window is applied up to it, and an anchored guardian whose copy nothing upsets goes on. -/
theorem execGuardianPredictedBoundary_anchored (hanchored : (s.tw p).guard.anchored = true)
    (hnot : (s.tw p).guard.predicted = false) :
    ∃ k, execGuardianPredictedBoundary p [] s = .next (((s.runTo k).followGate p).goesOn p) :=
  ⟨_, if_pos ⟨hanchored, hnot⟩⟩

variable (hcanon : s.canon = true)
include hcanon

/-- At its predicted boundary the guardian goes on by itself. -/
theorem guardianPredictedBoundary_completes (hanchored : (s.tw p).guard.anchored = true) (hnot : (s.tw p).guard.predicted = false)
    (hwhole : (s.tw p).guard.whole = (s.tw p).guard.ref) (hde : (s.port p).de = false) :
    Completes (.guardianPredictedBoundary p []) s fun t => (t.tw p).guard.predicted = true ∧
      (t.tw p).guard.g = (s.tw p).guard.next ∧ (t.tw p).guard.k = ((s.tw p).guard.k + 1) % 0x10000 := by
  obtain ⟨k, hnext⟩ := execGuardianPredictedBoundary_anchored p hanchored hnot
  generalize hu : s.runTo k = u at hnext
  have hsame : u.tws = s.tws := hu ▸ s.runTo_tws k
  have htws : tabWf Tw.reset u.tws = true := hsame ▸ State.tws_wf_of_canon hcanon
  have htw : u.tw p = s.tw p := by rw [State.tw, hsame, State.tw]
  have hrun : s.Keeps [] p id u := hu ▸ .runTo (.of_canon hcanon)
  have hlow : (u.port p).de = false := (congrArg Port.de hrun.port_eq :).trans hde
  rw [State.goesOn, followGate_of_de_low hlow, htw, if_neg (by simp [hanchored])] at hnext
  have hset := congrArg Tw.guard (tw_setTw_same htws p { u.tw p with guard := (s.tw p).guard.predict u.time.tick })
  generalize hv : u.setGuard p ((s.tw p).guard.predict u.time.tick) = v at hnext
  have hguard : (v.tw p).guard = (s.tw p).guard.predict u.time.tick := hv ▸ hset
  have hvtws : tabWf Tw.reset v.tws = true := hv ▸ tabPut_wf _ _ htws
  have hvlow : (v.port p).de = false := hv ▸ hlow
  rw [guardBoundary_of_whole hvtws (by rw [hguard]; exact hwhole), gateNow_of_de_low (s := v.setGuard p _) hvlow] at hnext
  refine completes_of_next hnext ?_
  rw [State.setGuard, tw_setTw_same hvtws, hguard]
  exact ⟨rfl, rfl, rfl⟩

end

/-! ## The muzzle and the history (R179, R181, R191) -/

/-- A muzzled guardian closes its window (R177). -/
theorem openAt_of_muzzled {g : Guardian} (h : g.muzzled = true) (k : Nat) : g.openAt k = false := by
  simp [Guardian.openAt, h]

section
variable {s : State} (o : Origin) (p : Fin 16) (hcanon : s.canon = true)
include hcanon

theorem muzzle_completes (hex : s.regExists (GD_CTRL p) = true) (hde : (s.port p).de = false) :
    Completes (.muzzle o p) s fun t => (t.tw p).guard.muzzled = true ∧ (t.tw p).guard.openAt t.time.tick = false ∧
      (t.tw p).guard.cause = 4 ∧ ((s.tw p).guard.muzzled = false → t.bit (SF_EVT.MUZZLED p) = true) := by
  have hstart : s.KeepsMuzzle p s := .of_canon hcanon hde
  have hend := (muzzle_of_de_low p hstart 4).restart
  obtain ⟨hmuzzled, hcause, hshown, -⟩ := muzzle_told p hstart 4 (hend.configWrite p.isLt)
  exact completes_of_next (if_pos hex) ⟨hmuzzled, openAt_of_muzzled hmuzzled _, hcause, hshown⟩

theorem unmuzzle_completes (hex : s.regExists (GD_CTRL p) = true) (hmuzzled : (s.tw p).guard.muzzled = true) :
    Completes (.unmuzzle o p) s fun t => (t.tw p).guard.unmuzzle = true ∧ (t.tw p).guard.muzzled = true := by
  generalize hu : s.configWrite o (GD_CTRL p) (s.reg (GD_CTRL p) ||| 1) (s.reg (GD_CTRL p)) = u
  have htold : s.Signals u := hu ▸ .configWrite .start
  have htws : tabWf Tw.reset u.tws = true := htold.tws_eq ▸ State.tws_wf_of_canon hcanon
  have hstill : (u.tw p).guard.muzzled = true := (congrArg (fun w : Tw => w.guard.muzzled) (htold.tw_eq p)).trans hmuzzled
  have hguard : ((u.askUnmuzzle p).tw p).guard = { (u.tw p).guard with unmuzzle := true } := by
    rw [State.askUnmuzzle, if_pos hstill]
    exact congrArg Tw.guard (tw_setTw_same htws p _)
  refine completes_of_next (if_pos hex) ?_
  rw [hu, hguard]
  exact ⟨rfl, hstill⟩

theorem clrHist_completes (hex : s.regExists (GD_CTRL p) = true) :
    Completes (.clrHist o p) s fun t => (t.tw p).guard.hist = [] := by
  have htold : (s.clearHist p).Signals
      ((s.clearHist p).configWrite o (GD_CTRL p) (s.reg (GD_CTRL p) ||| 4) (s.reg (GD_CTRL p))) := .configWrite .start
  have hcleared : ((s.clearHist p).tw p).guard.hist = [] :=
    congrArg (fun w : Tw => w.guard.hist) (tw_setTw_same (State.tws_wf_of_canon hcanon) p _)
  exact completes_of_next (if_pos hex) ((congrArg (fun w : Tw => w.guard.hist) (htold.tw_eq p)).trans hcleared)

end

/-- Settles O18: what is told of a muzzle, and a member that leaves with DE low, keep the muzzle, its cause and the events shown before;
foreign energy keeps what an intrusion is judged by. -/
theorem guardianComplete : Obligations.GuardianComplete := by
  unfold Obligations.GuardianComplete
  refine ⟨?passes, ?fails, ?predicted, ?muzzle, ?unmuzzle, ?clear, ?intrudes⟩
  case passes =>
    rintro s p m _ hcanon x hload - ⟨hpend, rfl⟩
    exact guardianCopyCheck_passes p hcanon m hload hpend
  case fails => exact fun s p m upset hcanon x hload ⟨hupset, hde⟩ => guardianCopyCheck_fails p hcanon m hload hupset hde
  case predicted =>
    rintro s p _ hcanon ⟨hanchored, hnot⟩ ⟨rfl, hwhole, hde⟩
    exact guardianPredictedBoundary_completes p hcanon hanchored hnot hwhole hde
  case muzzle => exact fun s o p hcanon ⟨hex, hde⟩ => muzzle_completes o p hcanon hex hde
  case unmuzzle => exact fun s o p hcanon hex hmuzzled => unmuzzle_completes o p hcanon hex hmuzzled
  case clear => exact fun s o p hcanon hex => clrHist_completes o p hcanon hex
  case intrudes =>
    exact fun s p hcanon k hedge hruns hphase hhit => foreignEnergy_intrudes p hcanon hedge hruns hphase hhit

end Sys2Proof.Machine
end

section
/-!
SUPPORT. What becomes of one queue in the operations of the fabric (R203 to R222, R234 to R252).
-/
namespace Sys2Proof.Machine

/-! ## What records and interrupts leave of the queues -/

theorem State.queues_wf_of_canon {s : State} (h : s.canon = true) : tabWf (fun _ => Queue.absent) s.queues = true := by
  simp only [State.canon, Bool.and_eq_true] at h
  tauto

theorem State.windowSnaps_wf_of_canon {s : State} (h : s.canon = true) : tabWf (fun _ => 0) s.windowSnaps = true := by
  simp only [State.canon, Bool.and_eq_true] at h
  tauto

theorem State.staged_wf_of_canon {s : State} (h : s.canon = true) : tabWf stagedDefault s.staged = true := by
  simp only [State.canon, Bool.and_eq_true] at h
  tauto

theorem queue_setQueue_same {s : State} (h : tabWf (fun _ => Queue.absent) s.queues = true) (k : Nat) (q : Queue) :
    (s.setQueue k q).queue k = q := by
  rw [queue_setQueue h, if_pos rfl]

namespace State.Signals
section
variable {s t : State} {m a n k c : Nat} {q : Queue} {f : Fld} {was : State} {o : Origin} {ch : Option Nat}

theorem queues_eq (h : s.Signals t) : t.queues = s.queues := (congrArg State.queues h.untold_eq :)
theorem ledger_eq (h : s.Signals t) : t.ledger = s.ledger := (congrArg State.ledger h.untold_eq :)
theorem staged_eq (h : s.Signals t) : t.staged = s.staged := (congrArg State.staged h.untold_eq :)
theorem queue_eq (h : s.Signals t) (k : Nat) : t.queue k = s.queue k := by rw [State.queue, h.queues_eq, State.queue]
theorem stage_eq (h : s.Signals t) (o : Origin) (k : Nat) : t.stage o k = s.stage o k := by rw [State.stage, h.staged_eq, State.stage]

theorem stagedCfg_eq (h : s.Signals t) (o : Origin) : t.stagedCfg o = s.stagedCfg o := by
  simp only [State.stagedCfg, h.stage_eq]

theorem on (h : s.Signals t) : s.Signals (t.on f) := h.setReg

theorem memFatal (h : s.Signals t) : s.Signals (t.memFatal m a n k) := .event (.fire ⟨h.untold_eq⟩)

theorem dramFatal (h : s.Signals t) : s.Signals (t.dramFatal c a n) := .event (.fire ⟨h.untold_eq⟩)

theorem memCorrected (h : s.Signals t) : s.Signals (t.memCorrected ch m a) := by
  cases ch with
  | none => exact .event ⟨h.untold_eq⟩
  | some c => exact .event ⟨h.untold_eq⟩

theorem poolWatch (h : s.Signals t) : s.Signals (t.poolWatch was) := .ite h.on h

theorem grantTo (h : s.Signals t) : s.Signals (t.grantTo n q o).1 := by
  unfold State.grantTo
  split
  · exact h
  · exact .ite (.event h.on) h

theorem selfCheck (h : s.Signals t) : s.Signals (t.selfCheck n q o).1 := .ite (.event h.on) h

end
end State.Signals

/-! ## A view of one queue -/

/-- A queue without what the pools decide of it: whether it is full for want of a block (R206), and the ledger's counts of its blocks
(R254). -/
def Queue.own (q : Queue) : Queue := { q with poolFull := false, ledgerE := 0, ledgerO := 0 }

/-- The view v of queue k shows x in state t, whose table of queues is in canonical form. As a predicate of the state, so that a proof
follows its updates one by one. -/
structure State.Shows {α : Type} (v : Queue → α) (k : Nat) (x : α) (t : State) : Prop where
  queues_wf : tabWf (fun _ => Queue.absent) t.queues = true
  queue_eq : v (t.queue k) = x

theorem State.giveBlocks_queues (s : State) (q : Queue) (bs : List Block) : (s.giveBlocks q bs).1.queues = s.queues := by
  unfold State.giveBlocks
  exact List.foldlRecOn (motive := fun x : State × Queue => x.1.queues = s.queues) bs _ rfl fun _ hx _ _ => hx

theorem State.giveBlocks_own (s : State) (q : Queue) (bs : List Block) : (s.giveBlocks q bs).2.own = q.own := by
  unfold State.giveBlocks
  exact List.foldlRecOn (motive := fun x : State × Queue => x.2.own = q.own) bs _ rfl fun _ hx _ _ => hx

theorem State.updateFlows_queues (s : State) (k : Nat) : (s.updateFlows k).queues = s.queues := by
  unfold State.updateFlows
  refine List.foldlRecOn (motive := fun t : State => t.queues = s.queues) _ _ rfl fun t ht n _ => ?_
  split_ifs
  · exact ht
  · exact ht

/-- A queue whose copies agree is used as it is (R251). -/
theorem State.used_of_not_torn {s : State} {k : Nat} (h : (s.queue k).torn = false) : s.used k = s := by
  simp [State.used, h]

theorem Queue.torn_of_not_anyTorn {q : Queue} (h : q.anyTorn = false) : q.torn = false := by
  simp only [Queue.anyTorn, Bool.or_eq_false_iff] at h
  exact h.1

namespace State.Shows
section
variable {α : Type} {v : Queue → α} {x : α} {k j : Nat} {q : Queue} {t u : State} {bs : List Block}

/-- An update of other parts of the state. -/
theorem same (h : t.Shows v k x) (hu : u.queues = t.queues) : u.Shows v k x where
  queues_wf := hu ▸ h.queues_wf
  queue_eq := by rw [← h.queue_eq, State.queue, hu, State.queue]

theorem told (hu : t.Signals u) (h : t.Shows v k x) : u.Shows v k x := h.same hu.queues_eq

theorem ite {c : Prop} [Decidable c] (ht : t.Shows v k x) (hu : u.Shows v k x) : (if c then t else u).Shows v k x := by
  split_ifs
  · exact ht
  · exact hu

theorem foldl {β : Type} {f : State → β → State} (l : List β) (hf : ∀ t, ∀ a ∈ l, t.Shows v k x → (f t a).Shows v k x)
    (h : t.Shows v k x) : (l.foldl f t).Shows v k x :=
  List.foldlRecOn l f h fun t ht a ha => hf t a ha ht

theorem setQueue (hq : j = k → v q = x) (h : t.Shows v k x) : (t.setQueue j q).Shows v k x where
  queues_wf := tabPut_wf _ _ h.queues_wf
  queue_eq := by
    rw [queue_setQueue h.queues_wf]
    split_ifs with hk
    · exact hq hk.symm
    · exact h.queue_eq

theorem updateFlows (h : t.Shows v k x) : (t.updateFlows j).Shows v k x := h.same (t.updateFlows_queues j)

/-- What is seen of a queue of its own is the same in every other view that the pools do not change. -/
theorem of_own (hv : ∀ q, v q.own = v q) (h : t.Shows Queue.own k q.own) : t.Shows v k (v q) where
  queues_wf := h.queues_wf
  queue_eq := by rw [← hv, h.queue_eq, hv]

variable (hv : ∀ q, v q.own = v q)
include hv

/-- The queues that want a block are found anew (R206): nothing of their own changes. -/
theorem refreshFull (h : t.Shows v k x) : t.refreshFull.Shows v k x := by
  refine foldl _ (fun u e _ hu => .ite hu (.updateFlows (hu.setQueue ?_))) h
  rintro rfl
  rw [← hu.queue_eq, ← hv, ← hv (u.queue e.1)]
  rfl

/-- A queue whose copies agree, put back, is there. -/
theorem putQueue (htorn : q.torn = false) (hwf : tabWf (fun _ => Queue.absent) t.queues = true) :
    (t.putQueue k q bs).Shows v k (v q) := by
  unfold State.putQueue
  have hown : (t.giveBlocks q bs).2.own = q.own := t.giveBlocks_own q bs
  have hqueues : tabWf (fun _ => Queue.absent) (t.giveBlocks q bs).1.queues = true := (t.giveBlocks_queues q bs).symm ▸ hwf
  generalize t.giveBlocks q bs = y at hown hqueues ⊢
  obtain ⟨u, p⟩ := y
  have hset : ((u.setQueue k { p with poolFull := u.starved k p }).updateFlows k).Shows Queue.own k q.own :=
    .updateFlows ⟨tabPut_wf _ _ hqueues, by rw [queue_setQueue_same hqueues]; exact hown⟩
  have hused : ((u.setQueue k { p with poolFull := u.starved k p }).updateFlows k).used k =
      (u.setQueue k { p with poolFull := u.starved k p }).updateFlows k :=
    used_of_not_torn (((congrArg Queue.torn hset.queue_eq).trans rfl).trans htorn)
  dsimp only at hused ⊢
  rw [hused]
  exact .refreshFull hv (.of_own hv hset)

end
end State.Shows

end Sys2Proof.Machine
end

section
/-!
SUPPORT. What a queue keeps when words are released, popped and stored (R198, R207, R211 to R217, R234 to R241).
-/
namespace Sys2Proof.Machine

/-! ## Release (R207, R208, R237) -/

/-- A queue without what a release changes beside its words and its release pointer: where its words lie, and its mark. -/
def Queue.unplaced (q : Queue) : Queue :=
  { q with head := 0, chain := [], edge := 0, edgePend := none, pinned := false, torn := false, mark := none }

/-- Words that pass to the head change nothing but the head (R235). -/
theorem Queue.settle_view {α : Type} {v : Queue → α} (hv : ∀ q h, v { q with head := h } = v q) (q : Queue) : v q.settle = v q := by
  unfold Queue.settle
  split_ifs
  · exact hv q _
  · rfl

/-- An EDGE that takes effect changes nothing but the edge (R222). -/
theorem Queue.applyEdge_view {α : Type} {v : Queue → α} (hv : ∀ q e p, v { q with edge := e, edgePend := p } = v q) (q : Queue) :
    v q.applyEdge = v q := by
  unfold Queue.applyEdge
  split
  · split_ifs
    · exact hv q _ _
    · rfl
  · rfl

theorem Queue.dropOldest_unplaced (q : Queue) (n : Nat) :
    (q.dropOldest n).1.unplaced = { q with words := q.words.drop n, rl := q.rl + n }.unplaced := by
  unfold Queue.dropOldest
  exact (applyEdge_view (fun _ _ _ => rfl) _).trans (settle_view (fun _ _ => rfl) _)

/-- A release takes the oldest popped words, and moves the release pointer past them. -/
theorem Queue.release_unplaced (q : Queue) (n : Nat) :
    (q.release n).1.unplaced = { q with words := q.words.drop (min n q.unrel), rl := q.rl + min n q.unrel }.unplaced :=
  q.dropOldest_unplaced (min n q.unrel)

theorem Queue.release_rl (q : Queue) (n : Nat) : (q.release n).1.rl = q.rl + min n q.unrel :=
  (congrArg Queue.rl (q.release_unplaced n) :)

/-- Without a mark there is none after a release. -/
theorem Queue.release_mark_none {q : Queue} (h : q.mark = none) (n : Nat) : (q.release n).1.mark = none := by
  have hdrop : (q.dropOldest (min n q.unrel)).1.mark = none := by
    unfold Queue.dropOldest
    exact (applyEdge_view (fun _ _ _ => rfl) _).trans ((settle_view (fun _ _ => rfl) _).trans h)
  simp only [Queue.release, hdrop]

/-- A release frees blocks of the chain only. -/
theorem mem_of_mem_chainRelease {bs : List Block} {n : Nat} {b : Block} (h : b ∈ (chainRelease bs n).2) : b ∈ bs := by
  induction bs generalizing n with
  | nil => exact h
  | cons a bs ih =>
    rw [chainRelease] at h
    split_ifs at h with hheld hflight
    · rcases List.mem_cons.1 h with rfl | hrest
      · exact List.mem_cons_self
      · exact List.mem_cons_of_mem _ (ih hrest)
    · exact List.mem_cons_of_mem _ (ih h)
    · exact absurd h List.not_mem_nil

/-- Where every copy agrees, a release meets no disagreement (R251). -/
theorem Queue.release_torn {q : Queue} (h : q.anyTorn = false) (n : Nat) : (q.release n).1.torn = false := by
  obtain ⟨htorn, hchain⟩ := Bool.or_eq_false_iff.1 h
  have hfreed (m : Nat) : ((chainRelease q.chain m).2.any Block.torn) = false :=
    List.any_eq_false.2 fun b hb => List.any_eq_false.1 hchain b (mem_of_mem_chainRelease hb)
  unfold Queue.release Queue.dropOldest
  refine (applyEdge_view (v := Queue.torn) (fun _ _ _ => rfl) _).trans ((settle_view (fun _ _ => rfl) _).trans ?_)
  simp only [htorn, hfreed, Bool.false_and, Bool.or_false]

/-! ## Discards of every word (R205, R220) -/

/-- A wipe discards every word and every block, counts the words as lost, and finds the copies in agreement. -/
theorem Queue.wipe_queue (q : Queue) :
    q.wipe.2.2.words = [] ∧ q.wipe.2.2.lost = sat32 (q.lost + q.words.length) ∧ q.wipe.2.2.chain = [] ∧ q.wipe.2.2.torn = false :=
  ⟨applyEdge_view (v := Queue.words) (fun _ _ _ => rfl) _, applyEdge_view (v := Queue.lost) (fun _ _ _ => rfl) _,
    applyEdge_view (v := Queue.chain) (fun _ _ _ => rfl) _, applyEdge_view (v := Queue.torn) (fun _ _ _ => rfl) _⟩

/-! ## Pops (R198, R244, R245) -/

theorem any_torn_dropBuf (bs : List Block) (n : Nat) : (dropBuf bs n).any Block.torn = bs.any Block.torn := by
  induction bs generalizing n with
  | nil => rfl
  | cons b bs ih =>
    rw [dropBuf]
    split_ifs
    · rfl
    · rw [List.any_cons, List.any_cons, ih]

theorem Queue.addSample_anyTorn (q : Queue) (pfMax t : Nat) (b : Block) : (q.addSample pfMax t b).anyTorn = q.anyTorn := by
  unfold Queue.addSample
  split
  · rfl
  · dsimp only
    split_ifs <;> rfl

theorem Queue.blockPopped_anyTorn (q : Queue) (pfMax t n : Nat) (b : Block) (k : Nat) :
    (q.blockPopped pfMax t n b k).anyTorn = q.anyTorn := by
  have hsampled (c : Prop) [Decidable c] : (if c then q.addSample pfMax t b else q).anyTorn = q.anyTorn := by
    split_ifs
    · exact q.addSample_anyTorn pfMax t b
    · rfl
  have hdropped (p : Queue) : ({ p with chain := dropBuf p.chain n } : Queue).anyTorn = p.anyTorn :=
    congrArg (p.torn || ·) (any_torn_dropBuf p.chain n)
  unfold Queue.blockPopped
  dsimp only
  split_ifs
  all_goals simp only [hdropped, addSample_anyTorn]

/-- The queue from which the word at the read pointer has been taken, before the release that its mode makes (R198, R207). -/
def Queue.taken (q : Queue) (pfMax t : Nat) : Queue :=
  { (match (if q.head ≤ q.unrel then blockAt q.chain (q.unrel - q.head) else none) with
      | some (b, k) => q.blockPopped pfMax t (q.unrel - q.head) b k
      | none => q) with
    rd := q.rd + 1, popped := q.popped + 1, cut := false, lastEnd := ((q.words.drop q.unrel).headD { data := 0 }).fin }

theorem Queue.taken_anyTorn (q : Queue) (pfMax t : Nat) : (q.taken pfMax t).anyTorn = q.anyTorn := by
  unfold Queue.taken
  split
  · exact q.blockPopped_anyTorn ..
  · rfl

/-- The pop gives the word at the read pointer with its CUT flag; then AUTO_REL 2 waits for a word with END. -/
theorem Queue.pop_eq (q : Queue) (pfMax t : Nat) :
    q.pop pfMax t = ((q.words.drop q.unrel).headD { data := 0 }, q.cut,
      if q.cfg.autoRel = 2 ∧ ((q.words.drop q.unrel).headD { data := 0 }).fin = false then (q.taken pfMax t, [])
      else (q.taken pfMax t).autoRelease) := rfl

/-- What a pop leaves of a queue whose copies agree: the read pointer and the count of pops move by one. -/
theorem Queue.pop_queue (q : Queue) (pfMax t : Nat) (h : q.anyTorn = false) :
    (q.pop pfMax t).2.2.1.rd = q.rd + 1 ∧ (q.pop pfMax t).2.2.1.popped = q.popped + 1 ∧ (q.pop pfMax t).2.2.1.torn = false := by
  have htaken : (q.taken pfMax t).anyTorn = false := (q.taken_anyTorn pfMax t).trans h
  have hreleased := release_unplaced (q.taken pfMax t) (q.taken pfMax t).autoCount
  rw [pop_eq]
  split_ifs
  · exact ⟨rfl, rfl, torn_of_not_anyTorn htaken⟩
  · exact ⟨(congrArg Queue.rd hreleased :), (congrArg Queue.popped hreleased :), release_torn htaken _⟩

/-! ## Words stored (R211 to R217, R235) -/

/-- From queue q of state s to the pair x the words ws have entered the queue, and no other queue has changed. -/
structure State.Takes (s : State) (q : Queue) (ws : List QWord) (x : State × Queue) : Prop where
  queues_eq : x.1.queues = s.queues
  words_eq : x.2.words = q.words ++ ws
  pushed_eq : x.2.pushed = q.pushed + ws.length
  cfg_eq : x.2.cfg = q.cfg
  torn_eq : x.2.torn = q.torn

namespace State.Takes
section
variable {s t : State} {q p : Queue} {ws vs : List QWord} {w : QWord} {x y : State × Queue} {k m j : Nat}

theorem start : s.Takes q [] (s, q) := ⟨rfl, (List.append_nil _).symm, rfl, rfl, rfl⟩

theorem trans (h : s.Takes q ws (t, p)) (hx : t.Takes p vs x) : s.Takes q (ws ++ vs) x where
  queues_eq := hx.queues_eq.trans h.queues_eq
  words_eq := by rw [hx.words_eq, h.words_eq, List.append_assoc]
  pushed_eq := by rw [hx.pushed_eq, h.pushed_eq, List.length_append, Nat.add_assoc]
  cfg_eq := hx.cfg_eq.trans h.cfg_eq
  torn_eq := hx.torn_eq.trans h.torn_eq

theorem settle : s.Takes q [] (s, q.settle) := by
  unfold Queue.settle
  split_ifs
  · exact ⟨rfl, (List.append_nil _).symm, rfl, rfl, rfl⟩
  · exact start

theorem store : s.Takes q [w] (s, q.store w) := by
  have hsettle : s.Takes { q with words := q.words ++ [w], pushed := q.pushed + 1 } []
      (s, { q with words := q.words ++ [w], pushed := q.pushed + 1 }.settle) := settle
  exact ⟨rfl, hsettle.words_eq.trans (List.append_nil _), hsettle.pushed_eq, hsettle.cfg_eq, hsettle.torn_eq⟩

theorem inject (h : s.Takes q ws (t, p)) : s.Takes q ws (t.inject p m j) := by
  unfold State.inject
  split_ifs
  · exact ⟨h.queues_eq, h.words_eq, h.pushed_eq, h.cfg_eq, h.torn_eq⟩
  · exact h

theorem takeBlock (hx : s.takeBlock k q = some x) : s.Takes q [] x := by
  unfold State.takeBlock at hx
  dsimp only at hx
  split at hx
  · contradiction
  · cases hx
    refine ⟨?_, (List.append_nil _).symm, rfl, rfl, rfl⟩
    dsimp only
    split_ifs <;> rfl

/-- The open block of a chain takes words of the tail: the queue holds what it held. -/
theorem intoBlock {c : List Block} (h : s.Takes q [] (t, p)) : s.Takes q [] (t, { p with chain := c }) :=
  ⟨h.queues_eq, h.words_eq, h.pushed_eq, h.cfg_eq, h.torn_eq⟩

theorem moveBurst (hx : s.moveBurst k q = some x) : s.Takes q [] x := by
  unfold State.moveBurst at hx
  dsimp only at hx
  split_ifs at hx
  · split at hx
    · split_ifs at hx
      cases hx
      refine .inject ?_
      split
      · exact start
      · exact start.intoBlock
    · contradiction
  · split at hx
    case h_1 y htaken =>
      split at hx
      · split_ifs at hx
        cases hx
        refine .inject ?_
        split
        · exact takeBlock htaken
        · exact (takeBlock htaken).intoBlock
      · contradiction
    case h_2 => contradiction

theorem roomFor (hx : s.roomFor k q = some x) : s.Takes q [] x := by
  unfold State.roomFor at hx
  dsimp only at hx
  generalize (if s.runs .ddr = true then 0 else q.settle.landing) = away at hx
  split_ifs at hx
  · cases hx
    exact settle
  · exact settle.trans (moveBurst hx)

/-- The words of a group that is stored whole enter one after another, each below the capacity. -/
theorem storeAll_cons (hx : s.storeAll k q (w :: ws) = some x) :
    q.held < q.cfg.cap ∧ ∃ t p, s.Takes q [w] (t, p) ∧ t.storeAll k p ws = some x := by
  unfold State.storeAll at hx
  split_ifs at hx with hcap
  split at hx
  case h_1 => contradiction
  case h_2 u p hroom =>
    have hinjected : s.Takes q [] (u.inject p 1 (p.rl + p.held)) := .inject (roomFor hroom)
    generalize u.inject p 1 (p.rl + p.held) = y at hx hinjected
    exact ⟨Nat.lt_of_not_le hcap, y.1, y.2.store w, hinjected.trans store, hx⟩

/-- Words that are all stored enter the queue in their order. -/
theorem storeAll (hx : s.storeAll k q ws = some x) : s.Takes q ws x := by
  induction ws generalizing s q with
  | nil =>
    cases hx
    exact start
  | cons w ws ih =>
    obtain ⟨-, t, p, htaken, hrest⟩ := storeAll_cons hx
    exact htaken.trans (ih hrest)

/-- Words that are all stored fit in the capacity. -/
theorem length_le_cap (hne : ws ≠ []) (hx : s.storeAll k q ws = some x) : q.held + ws.length ≤ q.cfg.cap := by
  induction ws generalizing s q with
  | nil => exact absurd rfl hne
  | cons w ws ih =>
    obtain ⟨hcap, t, p, htaken, hrest⟩ := storeAll_cons hx
    cases ws with
    | nil => exact hcap
    | cons v vs =>
      have hfit := ih (List.cons_ne_nil v vs) hrest
      rw [htaken.cfg_eq, Queue.held, htaken.words_eq] at hfit
      simp only [List.length_append, List.length_cons, List.length_nil, Queue.held] at hfit ⊢
      omega

end
end State.Takes

section
variable {s : State} {k : Nat} {q : Queue} {ws : List QWord} {x : State × Queue} (hx : s.storeAll k q ws = some x)
include hx

/-- Words that fit discard nothing (R212). -/
theorem State.overwrite_of_storeAll (f : Nat) : s.overwrite k q ws f = some x := by
  cases f with
  | zero => exact hx
  | succ f => simp only [State.overwrite, hx]

/-- Words that fit discard nothing, where no packet is being discarded (R213). -/
theorem State.overwritePacket_of_storeAll (hne : ws ≠ []) (hopen : q.discarding = false) (f : Nat) :
    s.overwritePacket k q ws f = some x := by
  cases f with
  | zero => exact hx
  | succ f => simp [State.overwritePacket, hx, hne, hopen]

end

section
variable {s : State} {k : Nat} {ws : List QWord} {x : State × Queue} (hne : ws ≠ []) (hx : s.storeAll k (s.queue k) ws = some x)
  (hopen : (s.queue k).cfg.mode = 0 ∨ (s.queue k).discarding = false)
include hne hx hopen

/-- Words that fit are stored in every full mode (R211 to R213); a report may follow. -/
theorem State.pushWhole_stored : (x.1.putQueue k x.2).Signals (s.pushWhole k ws).2 := by
  have hreport {t : State} {was now : Queue} : t.Signals (t.reportLoss k was now) := .ite (.event (.on .start)) .start
  unfold State.pushWhole
  dsimp only
  split
  · simp only [hx]
    exact .start
  · simp only [overwrite_of_storeAll hx]
    exact hreport
  case h_3 hzero _ =>
    have hkept : (s.queue k).discarding = false := hopen.resolve_left hzero
    simp only [overwritePacket_of_storeAll hx hne hkept]
    exact hreport

/-- A push of words that fit, on a queue whose copies agree (R217). -/
theorem State.push_stored (o : Origin) (hrun : s.runs .core = true) (hex : (s.queue k).ex = true) (htorn : (s.queue k).torn = false) :
    (x.1.putQueue k x.2).Signals (s.push k ws o).2 := by
  have hcap : (s.queue k).held + ws.length ≤ (s.queue k).cfg.cap := Takes.length_le_cap hne hx
  have hfits : ¬ (s.queue k).cfg.cap < ws.length := by omega
  have hempty : ¬ ws.isEmpty = true := by simpa using hne
  unfold State.push
  rw [used_of_not_torn htorn]
  simp only [hrun, hex, Bool.true_eq_false, if_false, if_neg hempty, if_neg hfits]
  exact pushWhole_stored hne hx hopen

end

end Sys2Proof.Machine
end

section
/-!
SUPPORT. What a command of CMD does on a queue that exists and whose copies agree (R208, R214, R220, R246), and on the event log (R547,
R548).
-/
namespace Sys2Proof.Machine

/-! ## Queues that a window names -/

/-- A queue's own state, without its existence and its configuration, which the log takes from EL_CFG (R547). -/
def Queue.unset (q : Queue) : Queue := { q.own with ex := true, cfg := {} }

theorem State.usedRef_of_not_torn {s : State} {r : QRef} (h : (s.qref r).anyTorn = false) : s.usedRef r = s := by
  cases r with
  | num k => exact used_of_not_torn (Queue.torn_of_not_anyTorn h)
  | log => rfl

/-- A queue whose copies agree, put back where a window names it, is there. -/
theorem State.qref_putRef {α : Type} {v : Queue → α} (hv : ∀ q, v q.unset = v q) {s : State} {r : QRef} {q : Queue} {bs : List Block}
    (hwf : tabWf (fun _ => Queue.absent) s.queues = true) (htorn : q.torn = false) : v ((s.putRef r q bs).qref r) = v q := by
  cases r with
  | num k =>
    have hown : ∀ p : Queue, v p.own = v p := fun p => by rw [← hv, ← hv p]; rfl
    exact (Shows.putQueue hown htorn hwf).queue_eq
  | log =>
    rw [← hv, ← hv q]
    rfl

/-- The automatic release of a queue whose copies agree finds no disagreement either. -/
theorem State.qref_autoRef {α : Type} {v : Queue → α} (hv : ∀ q, v q.unset = v q) {s : State} {r : QRef} {q : Queue}
    (hwf : tabWf (fun _ => Queue.absent) s.queues = true) (htorn : q.anyTorn = false) :
    v ((s.autoRef r q).qref r) = v (q.release q.autoCount).1 :=
  qref_putRef hv hwf (Queue.release_torn htorn _)

theorem Queue.rewind_torn (q : Queue) : q.rewind.torn = q.torn := by
  unfold Queue.rewind
  split <;> rfl

theorem Queue.rewind_rd (q : Queue) : q.rewind.rd = q.mark.getD q.rl := by
  unfold Queue.rewind
  cases hmark : q.mark <;> simp

/-! ## Commands (R201, R208) -/

/-- The state in which the upper word of CMD held for master m has been used up, if the write gives no COUNT of its own (R201). -/
def State.cmdTaken (s : State) (m : Master) (c : CmdCount) : State :=
  match c with
  | .whole _ => s
  | .held => { s with cmdHeld := tabPut (fun _ => (0 : Word)) s.cmdHeld m.num 0 }

/-- The COUNT of a write of CMD by master m (R201). -/
def State.cmdCount (s : State) (m : Master) (c : CmdCount) : Nat :=
  match c with
  | .whole n => n.toNat
  | .held => (tabGet (fun _ => 0) s.cmdHeld m.num).toNat

section
variable (s : State) (m : Master) (c : CmdCount)

theorem State.windowCmd_of_runs (r : QRef) (op : Nat) (h : s.runs .core = true) :
    s.windowCmd m r op c = (s.cmdTaken m c).queueCmd m r op (s.cmdCount m c) := by
  have hheld (x : Tab Word) : ({ s with cmdHeld := x } : State).runs .core = true := h
  cases c with
  | whole n => simp only [State.windowCmd, h, if_true, cmdTaken, cmdCount]
  | held => simp only [State.windowCmd, hheld, if_true, cmdTaken, cmdCount]

theorem State.cmdTaken_queues : (s.cmdTaken m c).queues = s.queues := by cases c <;> rfl
theorem State.cmdTaken_regs : (s.cmdTaken m c).regs = s.regs := by cases c <;> rfl
theorem State.cmdTaken_ports : (s.cmdTaken m c).ports = s.ports := by cases c <;> rfl
theorem State.cmdTaken_log : (s.cmdTaken m c).log = s.log := by cases c <;> rfl
theorem State.cmdTaken_runs : (s.cmdTaken m c).runs .core = s.runs .core := by cases c <;> rfl
theorem State.cmdTaken_qref (r : QRef) : (s.cmdTaken m c).qref r = s.qref r := by cases c <;> cases r <;> rfl

end

section
variable {s : State} {m : Master} {r : QRef} {n : Nat} (hwf : tabWf (fun _ => Queue.absent) s.queues = true)
  (hex : (s.qref r).ex = true) (htorn : (s.qref r).anyTorn = false)
include hwf hex htorn

theorem State.queueCmd_mark : ((s.queueCmd m r 1 n).qref r).mark = some (s.qref r).rd := by
  simp only [queueCmd, usedRef_of_not_torn htorn, hex, Bool.true_eq_false, if_false]
  exact qref_putRef (v := Queue.mark) (fun _ => rfl) hwf (Queue.torn_of_not_anyTorn htorn)

theorem State.queueCmd_unmark : ((s.queueCmd m r 2 n).qref r).mark = none := by
  simp only [queueCmd, usedRef_of_not_torn htorn, hex, Bool.true_eq_false, if_false]
  refine (qref_autoRef (v := Queue.mark) (fun _ => rfl) hwf ?_).trans (Queue.release_mark_none rfl _)
  exact htorn

theorem State.queueCmd_rewind : ((s.queueCmd m r 3 n).qref r).rd = (s.qref r).mark.getD (s.qref r).rl := by
  have hsound : (s.qref r).rewind.torn = false := (Queue.rewind_torn _).trans (Queue.torn_of_not_anyTorn htorn)
  simp only [queueCmd, usedRef_of_not_torn htorn, hex, Bool.true_eq_false, if_false]
  exact (qref_putRef (v := Queue.rd) (fun _ => rfl) hwf hsound).trans (Queue.rewind_rd _)

/-- The words through the last END that is popped are popped words. -/
theorem State.queueCmd_releasePkt : ((s.queueCmd m r 5 n).qref r).rl =
    (s.qref r).rl + throughLastEnd ((s.qref r).words.take (s.qref r).unrel) := by
  have hpopped : throughLastEnd ((s.qref r).words.take (s.qref r).unrel) ≤ (s.qref r).unrel :=
    (Nat.sub_le _ _).trans (List.length_take_le _ _)
  simp only [queueCmd, usedRef_of_not_torn htorn, hex, Bool.true_eq_false, if_false]
  rw [qref_putRef (v := Queue.rl) (fun _ => rfl) hwf (Queue.release_torn htorn _), Queue.release_rl, Nat.min_eq_left hpopped]

theorem State.queueCmd_clrOverrun : ((s.queueCmd m r 7 n).qref r).overrun = false := by
  simp only [queueCmd, usedRef_of_not_torn htorn, hex, Bool.true_eq_false, if_false]
  exact qref_putRef (v := Queue.overrun) (fun _ => rfl) hwf (Queue.torn_of_not_anyTorn htorn)

omit hwf in
theorem State.queueCmd_badCmd : s.queueCmd m r 9 n = s.on QF_EVT.BAD_CMD := by
  simp only [queueCmd, usedRef_of_not_torn htorn, hex, Bool.true_eq_false, if_false]

end

section
variable {s : State} {m : Master} {k : BitVec 16} {n : Nat} (hwf : tabWf (fun _ => Queue.absent) s.queues = true)
  (hex : (s.queue k.toNat).ex = true) (htorn : (s.queue k.toNat).anyTorn = false)
include hwf hex htorn

/-- RELEASE: a COUNT of 0, and one that is too large, stand for every popped word. -/
theorem State.queueCmd_release : ((s.queueCmd m (.num k) 4 n).queue k.toNat).rl =
    (s.queue k.toNat).rl + (if n = 0 then (s.queue k.toNat).unrel else min n (s.queue k.toNat).unrel) := by
  have hused : s.usedRef (.num k) = s := usedRef_of_not_torn htorn
  have hclip (c : Prop) [Decidable c] : tabWf (fun _ => Queue.absent) (if c then s.on QF_EVT.REL_CLIP else s).queues = true := by
    split_ifs
    · exact hwf
    · exact hwf
  simp only [queueCmd, hused, qref, putRef, hex, Bool.true_eq_false, if_false, reduceCtorEq]
  rw [(Shows.putQueue (v := Queue.rl) (fun _ => rfl) (Queue.release_torn htorn _) (hclip _)).queue_eq, Queue.release_rl]
  split_ifs
  · rw [Nat.min_self]
  · rfl

/-- RESET discards and counts every word, and gives back every block (R220). -/
theorem State.queueCmd_reset : ((s.queueCmd m (.num k) 6 n).queue k.toNat).words = [] ∧
    ((s.queueCmd m (.num k) 6 n).queue k.toNat).lost = sat32 ((s.queue k.toNat).lost + (s.queue k.toNat).words.length) ∧
    ((s.queueCmd m (.num k) 6 n).queue k.toNat).chain = [] := by
  have hused : s.usedRef (.num k) = s := usedRef_of_not_torn htorn
  obtain ⟨hwords, hlost, hchain, htorn⟩ := (s.queue k.toNat).wipe_queue
  simp only [queueCmd, hused, qref, hex, Bool.true_eq_false, if_false]
  have hshows {α : Type} {v : Queue → α} (hv : ∀ q, v q.own = v q) :
      (s.resetQueue k.toNat m.origin).Shows v k.toNat (v (s.queue k.toNat).wipe.2.2) :=
    .told (.event .start) (.putQueue hv htorn hwf)
  exact ⟨(hshows (v := Queue.words) fun _ => rfl).queue_eq.trans hwords, (hshows (v := Queue.lost) fun _ => rfl).queue_eq.trans hlost,
    (hshows (v := Queue.chain) fun _ => rfl).queue_eq.trans hchain⟩

theorem State.queueCmd_clrLost : ((s.queueCmd m (.num k) 8 n).queue k.toNat).lost = 0 ∧
    ((s.queueCmd m (.num k) 8 n).queue k.toNat).lostPkt = 0 := by
  have hused : s.usedRef (.num k) = s := usedRef_of_not_torn htorn
  simp only [queueCmd, hused, qref, hex, Bool.true_eq_false, if_false]
  rw [(Signals.event .start).queue_eq, queue_setQueue_same hwf]
  exact ⟨rfl, rfl⟩

end

/-! ## The event log as a queue (R547, R548) -/

/-- The log releases whole records. -/
theorem State.queueCmd_release_log (s : State) (m : Master) {n : Nat} (hn : n ≠ 0) :
    (s.queueCmd m .log 4 n).log.q.rl = s.log.q.rl + min (n / 8 * 8) (s.logQueue.unrel / 8 * 8) := by
  have hrelease : (s.logQueue.release (min (n / 8 * 8) (s.logQueue.unrel / 8 * 8))).1.rl =
      s.log.q.rl + min (n / 8 * 8) (s.logQueue.unrel / 8 * 8) := by
    rw [Queue.release_rl, Nat.min_eq_left (by omega)]
    rfl
  have hex : s.logQueue.ex = true := rfl
  simp only [queueCmd, usedRef, qref, putRef, setLogQueue, hex, hn, Bool.true_eq_false, if_false, if_true, hrelease]

/-- An event of an unlimited class is written, whatever its bucket holds (R554). -/
theorem State.event_of_unlimited {s : State} {code : Nat} (hrun : s.runs .core = true) (hcode : code / 256 < 2) (nums : List Nat)
    (o : Origin) :
    s.event code nums o = s.logSet (code / 256) (s.recordSet s.now false code o (nums.map (BitVec.ofNat 32))) := by
  have hfree : s.unlimited (code / 256) = true := by simp [State.unlimited, hcode]
  simp only [State.event, State.eventAt, hrun, if_true, State.pushSet, hfree]

/-- The fields that a record which is written changes: its count, GAP's flag, and what tells of a copy that is not forwarded. -/
def recordFields : List Fld := [wholeReg EL_CNT_REC, wholeReg EL_CNT_FWDSUP, EL_EVT.LOST, EL_EVT.FWD_SUPP]

section
variable {s t : State} {n : Nat} {v : Port → Port} {c : Nat}

theorem State.Keeps.recordWritten {r : List Word} (h : s.Keeps recordFields n v t) : s.Keeps recordFields n v (t.logRecord r) := by
  have hroom : s.Keeps recordFields n v (if t.logCap * 8 ≤ t.log.q.held then t.logDiscard else t) := .ite (h.same rfl rfl) h
  unfold State.logRecord
  generalize (if t.logCap * 8 ≤ t.log.q.held then t.logDiscard else t) = u at hroom ⊢
  exact .inc (.ite (.wrField (hroom.same rfl rfl) (by simp [recordFields])) (hroom.same rfl rfl)) (by simp [recordFields])

theorem State.Keeps.recordForwarded {r : List Word} (h : s.Keeps recordFields n v t) :
    s.Keeps recordFields n v (t.forwardCopy c r) := by
  unfold State.forwardCopy
  exact .ite (.ite (.wrField (.inc h.setCls (by simp [recordFields])) (by simp [recordFields])) (h.same rfl rfl)) h

theorem State.Keeps.recordsWritten {rs : List (List Word)} (h : s.Keeps recordFields n v t) :
    s.Keeps recordFields n v (t.logSet c rs) :=
  .foldl rs (fun _ _ _ ht => ht.recordWritten.recordForwarded) h

end

/-- RESET of the log shows, whatever its own record tells beside it (R548). -/
theorem State.resetLog_bit {s : State} (hregs : tabWf regReset s.regs = true) (hports : tabWf Port.reset s.ports = true)
    (hrun : s.runs .core = true) (o : Origin) : (s.resetLog o).bit EL_EVT.RESET = true := by
  obtain ⟨t, nums, hevent, hregs', hports', hrun'⟩ : ∃ t : State, ∃ nums : List Nat,
      s.resetLog o = (t.on EL_EVT.RESET).event Ev.LOG_RESET nums o ∧ t.regs = s.regs ∧ t.ports = s.ports ∧ t.runs .core = true :=
    ⟨_, _, rfl, rfl, rfl, hrun⟩
  have hwf : tabWf regReset t.regs = true := hregs' ▸ hregs
  have hkeeps : (t.on EL_EVT.RESET).Keeps recordFields 0 Port.unseen (s.resetLog o) := by
    rw [hevent, event_of_unlimited (s := t.on EL_EVT.RESET) hrun' (by decide)]
    exact .recordsWritten (.start (setReg_wf _ _ hwf) (hports'.symm ▸ hports))
  rw [hkeeps.bit_eq (by decide), bit_on hwf (by decide) rfl]

theorem Queue.store_lost (q : Queue) (w : QWord) : (q.store w).lost = q.lost := by
  unfold Queue.store Queue.settle
  dsimp only
  split_ifs <;> rfl

theorem State.forwardCopy_log_q (s : State) (c : Nat) (r : List Word) : (s.forwardCopy c r).log.q = s.log.q := by
  unfold State.forwardCopy
  dsimp only
  split_ifs <;> rfl

/-- A record for which the log has room discards none. -/
theorem State.logRecord_lost {s : State} (h : s.log.q.held < s.logCap * 8) (r : List Word) : (s.logRecord r).log.q.lost = s.log.q.lost := by
  have hstores (ws : List QWord) (q : Queue) : (ws.foldl Queue.store q).lost = q.lost :=
    List.foldlRecOn (motive := fun p : Queue => p.lost = q.lost) ws _ rfl fun p hp w _ => (p.store_lost w).trans hp
  unfold State.logRecord
  rw [if_neg (by omega)]
  dsimp only
  split_ifs
  all_goals exact hstores _ _

/-- CLR_LOST of the log with room for its record leaves nothing lost (R208, R548). -/
theorem State.queueCmd_clrLost_log {s : State} (m : Master) (n : Nat) (hrun : s.runs .core = true)
    (hroom : s.log.q.words.length + 16 ≤ s.logCap * 8) : (s.queueCmd m .log 8 n).log.q.lost = 0 := by
  obtain ⟨t, nums, hevent, hlost, hheld, hcap, hrun', hnums⟩ : ∃ t : State, ∃ nums : List Nat,
      s.queueCmd m .log 8 n = t.event Ev.LOG_LOST_CLR nums m.origin ∧ t.log.q.lost = 0 ∧ t.log.q.held = s.log.q.held ∧
      t.logCap = s.logCap ∧ t.runs .core = true ∧ nums.length = 2 := ⟨_, _, rfl, rfl, rfl, rfl, hrun, rfl⟩
  have hone : ∃ r, t.recordSet t.now false Ev.LOG_LOST_CLR m.origin (nums.map (BitVec.ofNat 32)) = [r] := by
    simp only [State.recordSet, List.length_map, hnums]
    exact ⟨_, rfl⟩
  obtain ⟨r, hr⟩ := hone
  rw [hevent, event_of_unlimited hrun' (by decide), hr]
  exact (congrArg Queue.lost (forwardCopy_log_q _ _ r)).trans ((logRecord_lost (by rw [hcap, hheld, Queue.held]; omega) r).trans hlost)

end Sys2Proof.Machine
end

section
/-!
SUPPORT. The statement of 06_queues.md on CMD (R208, R214, R220, R246).
-/
namespace Sys2Proof.Machine

/-- While CORE runs, a write of CMD is the command, once its COUNT has been taken (R201, R208). -/
theorem completes_windowCmd {s : State} {i : Instr} {m : Master} {r : QRef} {op : Nat} {c : CmdCount} {P : State → Prop}
    (hexec : exec i s = .next (s.windowCmd m r op c)) (hrun : s.runs .core = true)
    (hP : P ((s.cmdTaken m c).queueCmd m r op (s.cmdCount m c))) : Completes i s P :=
  completes_of_next hexec (by rwa [s.windowCmd_of_runs m c r op hrun])

/-- The table of queues stays in canonical form when a COUNT is taken. -/
theorem State.cmdTaken_queues_wf {s : State} (hcanon : s.canon = true) (m : Master) (c : CmdCount) :
    tabWf (fun _ => Queue.absent) (s.cmdTaken m c).queues = true :=
  (s.cmdTaken_queues m c).symm ▸ State.queues_wf_of_canon hcanon

section
variable {s : State} (m : Master) {r : QRef} (c : CmdCount) (hrun : s.runs .core = true) (htorn : (s.qref r).anyTorn = false)
include hrun htorn

theorem nop_completes : Completes (.nop m r c) s fun t => t.queues = s.queues ∧ t.log = s.log := by
  refine completes_windowCmd rfl hrun ?_
  rw [← s.cmdTaken_qref m c] at htorn
  have hnothing : (s.cmdTaken m c).queueCmd m r 0 (s.cmdCount m c) = s.cmdTaken m c := by
    simp only [State.queueCmd, State.usedRef_of_not_torn htorn, ite_self]
  rw [hnothing]
  exact ⟨s.cmdTaken_queues m c, s.cmdTaken_log m c⟩

theorem badCmd_completes (hcanon : s.canon = true) (hex : (s.qref r).ex = true) :
    Completes (.badCmd m r c) s fun t => t.bit QF_EVT.BAD_CMD = true ∧ t.queues = s.queues := by
  refine completes_windowCmd rfl hrun ?_
  have hregs : tabWf regReset (s.cmdTaken m c).regs = true := (s.cmdTaken_regs m c).symm ▸ State.regs_wf_of_canon hcanon
  rw [← s.cmdTaken_qref m c] at htorn hex
  rw [State.queueCmd_badCmd hex htorn]
  exact ⟨bit_on hregs (by decide) rfl, s.cmdTaken_queues m c⟩

end

/-- Settles O20: while CORE runs, a command on a queue whose copies agree puts back the queue with what the command changes, and neither the
search for queues that want a block nor the records told change that; the log has its own commands. -/
theorem windowCommandsComplete : Obligations.WindowCommandsComplete := by
  unfold Obligations.WindowCommandsComplete
  refine ⟨?nop, ?mark, ?unmark, ?rewind, ?release, ?releaseLog, ?releasePkt, ?reset, ?resetLog, ?clrOverrun, ?clrLost, ?clrLostLog,
    ?badCmd⟩
  case nop => exact fun s m q c _ ⟨hrun, htorn⟩ => nop_completes m c hrun htorn
  case mark =>
    rintro s m q c hcanon ⟨hrun, hex, htorn⟩
    rw [← s.cmdTaken_qref m c] at hex htorn ⊢
    exact completes_windowCmd rfl hrun (State.queueCmd_mark (State.cmdTaken_queues_wf hcanon m c) hex htorn)
  case unmark =>
    rintro s m q c hcanon ⟨hrun, hex, htorn⟩
    rw [← s.cmdTaken_qref m c] at hex htorn
    exact completes_windowCmd rfl hrun (State.queueCmd_unmark (State.cmdTaken_queues_wf hcanon m c) hex htorn)
  case rewind =>
    rintro s m q c hcanon ⟨hrun, hex, htorn⟩
    rw [← s.cmdTaken_qref m c] at hex htorn ⊢
    exact completes_windowCmd rfl hrun (State.queueCmd_rewind (State.cmdTaken_queues_wf hcanon m c) hex htorn)
  case release =>
    rintro s m k n hcanon ⟨hrun, htorn, hex⟩
    have hzero : n.toNat = 0 ↔ n = 0 := BitVec.toNat_inj (x := n) (y := 0)
    simp only [← hzero]
    exact completes_windowCmd rfl hrun (State.queueCmd_release (State.queues_wf_of_canon hcanon) hex htorn)
  case releaseLog =>
    rintro s m n - ⟨hrun, hn⟩
    exact completes_windowCmd rfl hrun (s.queueCmd_release_log m (mt (BitVec.toNat_inj (x := n) (y := 0)).1 hn))
  case releasePkt =>
    rintro s m q c hcanon ⟨hrun, hex, htorn⟩
    rw [← s.cmdTaken_qref m c] at hex htorn ⊢
    exact completes_windowCmd rfl hrun (State.queueCmd_releasePkt (State.cmdTaken_queues_wf hcanon m c) hex htorn)
  case reset =>
    rintro s m k c hcanon ⟨hrun, htorn, hex⟩
    have hqueue : (s.cmdTaken m c).queue k.toNat = s.queue k.toNat := s.cmdTaken_qref m c (.num k)
    rw [← hqueue] at hex htorn ⊢
    exact completes_windowCmd rfl hrun (State.queueCmd_reset (State.cmdTaken_queues_wf hcanon m c) hex htorn)
  case resetLog =>
    intro s m c hcanon hrun
    exact completes_windowCmd rfl hrun (State.resetLog_bit ((s.cmdTaken_regs m c).symm ▸ State.regs_wf_of_canon hcanon)
      ((s.cmdTaken_ports m c).symm ▸ State.ports_wf_of_canon hcanon) ((s.cmdTaken_runs m c).trans hrun) m.origin)
  case clrOverrun =>
    rintro s m q c hcanon ⟨hrun, hex, htorn⟩
    rw [← s.cmdTaken_qref m c] at hex htorn
    exact completes_windowCmd rfl hrun (State.queueCmd_clrOverrun (State.cmdTaken_queues_wf hcanon m c) hex htorn)
  case clrLost =>
    rintro s m k c hcanon ⟨hrun, htorn, hex⟩
    have hqueue : (s.cmdTaken m c).queue k.toNat = s.queue k.toNat := s.cmdTaken_qref m c (.num k)
    rw [← hqueue] at hex htorn
    exact completes_windowCmd rfl hrun (State.queueCmd_clrLost (State.cmdTaken_queues_wf hcanon m c) hex htorn)
  case clrLostLog =>
    rintro s m c - ⟨hrun, hroom⟩
    exact completes_windowCmd rfl hrun (State.queueCmd_clrLost_log m _ ((s.cmdTaken_runs m c).trans hrun)
      (by rwa [State.logCap, s.cmdTaken_log m c]))
  case badCmd => exact fun s m q c hcanon ⟨hrun, hex, htorn⟩ => badCmd_completes m c hrun htorn hcanon hex

end Sys2Proof.Machine
end

section
/-!
SUPPORT. Reads and writes of queue windows (R198 to R202, R204, R205, R217).
-/
namespace Sys2Proof.Machine

/-! ## Words read (R198, R200, R253, R649) -/

theorem State.look_of_wordAt {s : State} {k : Nat} {w : QWord} (h : s.wordAt k = some w) :
    s.look k = .word w (s.queue k).cut ∧ ((s.queue k).words.drop (s.queue k).unrel).headD { data := 0 } = w := by
  simp only [State.wordAt, State.look] at h ⊢
  split_ifs at h ⊢
  cases h
  exact ⟨rfl, rfl⟩

/-- A queue without what the read of a word with an error changes in it: its words, and where such errors lie. -/
def Queue.unread (q : Queue) : Queue := { q with words := [], hurt := [] }

theorem State.Shows.usedFree {α : Type} {v : Queue → α} {x : α} {t : State} {k : Nat} (h : t.Shows v k x) : t.usedFree.Shows v k x :=
  h.same t.usedFree_queues

theorem State.Shows.markErr {q : Queue} {t : State} {k j : Nat} (h : t.Shows Queue.unread k q) :
    (t.markErr k j).Shows Queue.unread k q := by
  unfold State.markErr
  exact .usedFree (.setQueue (fun _ => h.queue_eq) h)

/-- The read of a word with an error leaves the rest of its queue (R649). -/
theorem State.Shows.readHurt {q : Queue} {t : State} {k p : Nat} (h : t.Shows Queue.unread k q) :
    (t.readHurt k p).Shows Queue.unread k q := by
  unfold State.readHurt
  dsimp only
  split
  case h_1 => exact h
  case h_2 m double _ =>
    have hfound : (t.usedFree.setQueue k { t.queue k with hurt := (t.queue k).hurt.filter (fun x => x.1 != p) }).Shows Queue.unread k q :=
      .setQueue (fun _ => h.queue_eq) h.usedFree
    split_ifs
    · exact .told (.memFatal .start) hfound.markErr
    · exact .told (.dramFatal (.on (.setReg .start))) hfound.markErr
    · exact .told (.memCorrected .start) hfound
    · exact .told (.memCorrected .start) hfound

theorem State.readHurt_of_sound {s : State} {k : Nat} (h : (s.queue k).hurt = []) (p : Nat) : s.readHurt k p = s := by
  simp [State.readHurt, h]

/-- The pop of the word at the read pointer of queue k, which has been read. -/
def State.popRead (s : State) (k : Nat) : Popped × State :=
  let x := (s.queue k).pop s.pfMax s.now
  (.word x.1 x.2.1, s.putQueue k x.2.2.1 x.2.2.2)

section
variable {s : State} {k : Nat} {w : QWord} (hword : s.wordAt k = some w)
include hword

/-- The pop of a word that is ready and resident: it is read, and what the pop leaves of its queue is put back. -/
theorem State.pop_of_wordAt (htorn : (s.queue k).torn = false) : s.pop k = (s.readHurt k (s.queue k).rd).popRead k := by
  simp only [State.pop, used_of_not_torn htorn, (look_of_wordAt hword).1]
  rfl

/-- A pop moves the read pointer and the count of pops by one. -/
theorem State.pop_pointers (hwf : tabWf (fun _ => Queue.absent) s.queues = true) (hsound : (s.queue k).anyTorn = false) :
    ((s.pop k).2.queue k).rd = (s.queue k).rd + 1 ∧ ((s.pop k).2.queue k).popped = (s.queue k).popped + 1 := by
  have hread : (s.readHurt k (s.queue k).rd).Shows Queue.unread k (s.queue k).unread := .readHurt ⟨hwf, rfl⟩
  rw [pop_of_wordAt hword (Queue.torn_of_not_anyTorn hsound)]
  generalize s.readHurt k (s.queue k).rd = u at hread
  have hrd : (u.queue k).rd = (s.queue k).rd := (congrArg Queue.rd hread.queue_eq :)
  have hpopped : (u.queue k).popped = (s.queue k).popped := (congrArg Queue.popped hread.queue_eq :)
  have hagree : (u.queue k).anyTorn = false := (congrArg Queue.anyTorn hread.queue_eq :).trans hsound
  obtain ⟨hrd', hpopped', htorn⟩ := (u.queue k).pop_queue u.pfMax u.now hagree
  have hshows {α : Type} {v : Queue → α} (hv : ∀ q, v q.own = v q) :
      (u.popRead k).2.Shows v k (v ((u.queue k).pop u.pfMax u.now).2.2.1) := .putQueue hv htorn hread.queues_wf
  rw [← hrd, ← hpopped, ← hrd', ← hpopped']
  exact ⟨(hshows fun _ => rfl).queue_eq, (hshows fun _ => rfl).queue_eq⟩

/-- A word without an error is popped as it was pushed. -/
theorem State.pop_word (htorn : (s.queue k).torn = false) (hhurt : (s.queue k).hurt = []) :
    (s.pop k).1 = .word w (s.queue k).cut := by
  rw [pop_of_wordAt hword htorn, readHurt_of_sound hhurt, popRead, Queue.pop_eq, (look_of_wordAt hword).2]

end

/-! ## Answers (R201) -/

section
variable {s : State} {m : Master} {p : ReadPart} {f : State → Word64 × State} (hp : p ≠ .upper)
include hp

theorem State.windowAnswer_queues : (s.windowAnswer m p f).queues = (f s).2.queues := by
  cases p with
  | whole => rfl
  | lower => rfl
  | upper => exact absurd rfl hp

theorem State.windowAnswer_out : (s.windowAnswer m p f).out =
    (f s).2.out ++ [.answer m (if p = .whole then (f s).1 else (f s).1 &&& 0xFFFFFFFF)] := by
  cases p with
  | whole => rfl
  | lower => rfl
  | upper => exact absurd rfl hp

end

section
variable {s : State} {k : BitVec 16} (hrun : s.runs .core = true) (htorn : (s.queue k.toNat).anyTorn = false)
include hrun htorn

/-- A peek answers the word and changes nothing. -/
theorem State.peekValue_of_wordAt {w : QWord} (hword : s.wordAt k.toNat = some w) (hhurt : (s.queue k.toNat).hurt = []) :
    s.peekValue (.num k) = (popWord w (s.queue k.toNat).cut, s) := by
  have hlook : s.look k.toNat = .word w (s.queue k.toNat).cut := (look_of_wordAt hword).1
  simp only [State.peekValue, hrun, Bool.true_eq_false, if_false, used_of_not_torn (Queue.torn_of_not_anyTorn htorn), hlook, reduceCtorEq,
    readHurt_of_sound hhurt]

omit htorn in
theorem State.popValue_of_wordAt {w : QWord} (hword : s.wordAt k.toNat = some w) (htorn : (s.queue k.toNat).torn = false) :
    (s.popValue (.num k)).2 = (s.pop k.toNat).2 ∧
    ((s.queue k.toNat).hurt = [] → (s.popValue (.num k)).1 = popWord w (s.queue k.toNat).cut) := by
  obtain ⟨v, c, t, hpop⟩ : ∃ v c t, s.pop k.toNat = (.word v c, t) := ⟨_, _, _, pop_of_wordAt hword htorn⟩
  simp only [State.popValue, hrun, Bool.true_eq_false, if_false, hpop, true_and]
  intro hhurt
  obtain ⟨rfl, rfl⟩ := Popped.word.inj ((congrArg Prod.fst hpop).symm.trans (pop_word hword htorn hhurt))
  rfl

end

theorem State.statValue_of_runs {s : State} {r : QRef} (hrun : s.runs .core = true) (htorn : (s.qref r).anyTorn = false) :
    s.statValue r = ((s.qref r).stat, s) := by
  simp only [State.statValue, hrun, Bool.true_eq_false, if_false, usedRef_of_not_torn htorn]

end Sys2Proof.Machine
end

section
/-!
SUPPORT. The statement of 06_queues.md on windows (R198 to R201, R204, R205, R217).
-/
namespace Sys2Proof.Machine

/-! ## Pushes (R199, R217, R224, R548) -/

section
variable {s : State} {k : BitVec 16} (hcanon : s.canon = true) (hrun : s.runs .core = true) (hsound : (s.queue k.toNat).anyTorn = false)
include hcanon hrun hsound

/-- Words that fit enter the queue behind the others. -/
theorem push_words {ws : List QWord} {x : State × Queue} (o : Origin) (hne : ws ≠ []) (hex : (s.queue k.toNat).ex = true)
    (hopen : (s.queue k.toNat).cfg.mode = 0 ∨ (s.queue k.toNat).discarding = false)
    (hx : s.storeAll k.toNat (s.queue k.toNat) ws = some x) :
    ((s.push k.toNat ws o).2.queue k.toNat).words = (s.queue k.toNat).words ++ ws ∧
    ((s.push k.toNat ws o).2.queue k.toNat).pushed = (s.queue k.toNat).pushed + ws.length := by
  have htorn : (s.queue k.toNat).torn = false := Queue.torn_of_not_anyTorn hsound
  have htaken : s.Takes (s.queue k.toNat) ws x := .storeAll hx
  have hwf : tabWf (fun _ => Queue.absent) x.1.queues = true := htaken.queues_eq.symm ▸ State.queues_wf_of_canon hcanon
  have hshows {α : Type} {v : Queue → α} (hv : ∀ q, v q.own = v q) : (s.push k.toNat ws o).2.Shows v k.toNat (v x.2) :=
    .told (State.push_stored hne hx hopen o hrun hex htorn) (.putQueue hv (htaken.torn_eq.trans htorn) hwf)
  exact ⟨(hshows (v := Queue.words) fun _ => rfl).queue_eq.trans htaken.words_eq,
    (hshows (v := Queue.pushed) fun _ => rfl).queue_eq.trans htaken.pushed_eq⟩

theorem queuePush_completes (m : Master) (v : PushVal) (htakes : s.takesWord k.toNat = true) :
    Completes (.queuePush m (.num k) v) s fun t =>
      (t.queue k.toNat).words = (s.queue k.toNat).words ++ [pushWord v] ∧ (t.queue k.toNat).pushed = (s.queue k.toNat).pushed + 1 := by
  refine completes_of_next (t := (s.push k.toNat [pushWord v] m.origin).2) ?_ ?_
  · show Host.Outcome.next (s.windowPush m (.num k) (pushWord v)) = _
    simp only [State.windowPush, hrun, Bool.true_eq_false, if_false]
  · simp only [State.takesWord, State.used_of_not_torn (Queue.torn_of_not_anyTorn hsound), Bool.and_eq_true, Bool.not_eq_true',
      decide_eq_true_eq] at htakes
    obtain ⟨⟨⟨hex, hopen⟩, hcap⟩, hroom⟩ := htakes
    obtain ⟨y, hy⟩ := Option.isSome_iff_exists.1 hroom
    have hx : s.storeAll k.toNat (s.queue k.toNat) [pushWord v] = some ((y.1.inject y.2 1 (y.2.rl + y.2.held)).1,
        (y.1.inject y.2 1 (y.2.rl + y.2.held)).2.store (pushWord v)) := by
      simp only [State.storeAll, if_neg (Nat.not_le_of_lt hcap), hy]
    exact push_words hcanon hrun hsound m.origin (List.cons_ne_nil _ _) hex (.inr hopen) hx

theorem queueGroupPush_completes (ws : List QWord) (hex : (s.queue k.toNat).ex = true) (hmode : (s.queue k.toNat).cfg.mode = 0)
    (hlow : 1 ≤ ws.length) (hhigh : ws.length ≤ 16) (hstored : (s.storeAll k.toNat (s.queue k.toNat) ws).isSome = true) :
    Completes (.queueGroupPush k ws) s fun t => (t.queue k.toNat).words = (s.queue k.toNat).words ++ ws := by
  refine completes_of_next (t := (s.push k.toNat ws).2) ?_ ?_
  · show execQueueGroupPush k ws s = _
    simp only [execQueueGroupPush, hrun, Bool.true_eq_false, if_false, List.take_of_length_le hhigh]
  · obtain ⟨x, hx⟩ := Option.isSome_iff_exists.1 hstored
    exact (push_words hcanon hrun hsound .device (List.ne_nil_of_length_pos hlow) hex (.inl hmode) hx).1

end

/-! ## Pops and peeks (R198, R200) -/

section
variable {s : State} {m : Master} {k : BitVec 16} {w : QWord} (hrun : s.runs .core = true)
  (hsound : (s.queue k.toNat).anyTorn = false) (hword : s.wordAt k.toNat = some w)
include hrun hsound hword

theorem queuePop_moves (hcanon : s.canon = true) {part : ReadPart} (hpart : part ≠ .upper) :
    Completes (.queuePop m (.num k) part) s fun t =>
      (t.queue k.toNat).rd = (s.queue k.toNat).rd + 1 ∧ (t.queue k.toNat).popped = (s.queue k.toNat).popped + 1 := by
  refine completes_of_next rfl ?_
  obtain ⟨hpop, -⟩ := State.popValue_of_wordAt hrun hword (Queue.torn_of_not_anyTorn hsound)
  have hqueues := (State.windowAnswer_queues (s := s) (m := m) (f := fun s => s.popValue (.num k)) hpart).trans
    (congrArg State.queues hpop)
  have hqueue : (s.windowAnswer m part fun s => s.popValue (.num k)).queue k.toNat = (s.pop k.toNat).2.queue k.toNat :=
    congrArg (fun t => tabGet (fun _ => Queue.absent) t k.toNat) hqueues
  rw [hqueue]
  exact State.pop_pointers hword (State.queues_wf_of_canon hcanon) hsound

theorem queuePop_answers (hhurt : (s.queue k.toNat).hurt = []) : Completes (.queuePop m (.num k) .whole) s fun t =>
    t.out.getLast? = some (.answer m (popWord w (s.queue k.toNat).cut)) := by
  refine completes_of_next rfl ?_
  obtain ⟨-, hanswer⟩ := State.popValue_of_wordAt hrun hword (Queue.torn_of_not_anyTorn hsound)
  rw [State.windowAnswer_out (by decide), List.getLast?_append, if_pos rfl, hanswer hhurt]
  rfl

theorem queuePeek_completes {part : ReadPart} (hhurt : (s.queue k.toNat).hurt = []) (hpart : part ≠ .upper) :
    Completes (.queuePeek m (.num k) part) s fun t => t.queues = s.queues ∧
      t.out = s.out ++ [.answer m (if part = .whole then popWord w (s.queue k.toNat).cut
        else popWord w (s.queue k.toNat).cut &&& 0xFFFFFFFF)] := by
  refine completes_of_next rfl ?_
  have hpeek := State.peekValue_of_wordAt hrun hsound hword hhurt
  rw [State.windowAnswer_queues hpart, State.windowAnswer_out hpart, hpeek]
  exact ⟨rfl, rfl⟩

end

/-! ## Status (R200, R204, R205) -/

section
variable {s : State} {m : Master}

theorem queueStatRead_completes {r : QRef} (hcanon : s.canon = true) (hrun : s.runs .core = true) (hsound : (s.qref r).anyTorn = false) :
    Completes (.queueStatRead m r .whole) s fun t =>
      t.out = s.out ++ [.answer m (s.qref r).stat] ∧ tabGet (fun _ => 0) t.windowSnaps m.num = (s.qref r).stat := by
  refine completes_of_next rfl ?_
  have hstat := State.statValue_of_runs hrun hsound
  constructor
  · rw [State.windowAnswer_out (by decide), if_pos rfl, hstat]
  · have hsnaps : (s.windowAnswer m .whole fun s => s.statValue r).windowSnaps =
        tabPut (fun _ => 0) (s.statValue r).2.windowSnaps m.num (s.statValue r).1 := rfl
    rw [hsnaps, hstat, tabGet_tabPut _ _ _ (State.windowSnaps_wf_of_canon hcanon), if_pos rfl]

theorem queueLostRead_completes {r : QRef} (hrun : s.runs .core = true) : Completes (.queueLostRead m r .whole) s fun t =>
    t.out = s.out ++ [.answer m (s.qref r).lostWord] := by
  refine completes_of_next rfl ?_
  have hlost : (s.lostValue r).1 = (s.qref r).lostWord ∧ (s.lostValue r).2.out = s.out := by
    simp only [State.lostValue, hrun, Bool.true_eq_false, if_false, true_and]
    split_ifs <;> rfl
  rw [State.windowAnswer_out (by decide), if_pos rfl, hlost.1, hlost.2]

/-- An access of a wrong width or alignment is counted. -/
theorem badAccess_counted (hcanon : s.canon = true) :
    ((s.inc QF_CNT_BADACC).on QF_EVT.BAD_ACCESS).reg QF_CNT_BADACC = countUp (s.reg QF_CNT_BADACC) ∧
    ((s.inc QF_CNT_BADACC).on QF_EVT.BAD_ACCESS).bit QF_EVT.BAD_ACCESS = true := by
  have hregs : tabWf regReset s.regs = true := State.regs_wf_of_canon hcanon
  exact ⟨(reg_wr_ne (by decide) 1).trans (reg_inc hregs _), bit_on (setReg_wf _ _ hregs) (by decide) rfl⟩

/-- A read of two offsets from STAT on is a read of STAT and one of an offset without a value. -/
theorem spanRead_completes {k : BitVec 16} (hrun : s.runs .core = true) (hsound : (s.queue k.toNat).anyTorn = false) :
    Completes (.badAccess m (WindowAccess.mk (.num k) (.span 3 2))) s fun t =>
      t.out = s.out ++ [.answer m (s.queue k.toNat).stat, .answer m 0] ∧ t.queues = s.queues := by
  have hwindow : windowAfter (.num k) 0 = some (.num k) := by
    have hlt : k.toNat < 65536 := k.isLt
    simp only [windowAfter, Nat.add_zero, if_pos hlt, BitVec.ofNat_toNat, BitVec.setWidth_eq]
  have hnext : exec (.badAccess m (WindowAccess.mk (.num k) (.span 3 2))) s =
      .next ((s.windowAnswer m .whole fun s => s.statValue (.num k)).emit (.answer m 0)) := by
    show Host.Outcome.next ((List.range 2).foldl (fun (s : State) j =>
      match windowAfter (.num k) ((3 + j) / 8) with
      | some r => s.windowOffset m r ((3 + j) % 8)
      | none => s) s) = _
    simp only [List.range_succ, List.range_zero, List.nil_append, List.cons_append, List.foldl_cons, List.foldl_nil, Nat.add_zero,
      Nat.reduceAdd, Nat.reduceDiv, Nat.reduceMod, hwindow, State.windowOffset]
  refine completes_of_next hnext ?_
  have hstat : s.statValue (.num k) = ((s.queue k.toNat).stat, s) := State.statValue_of_runs hrun hsound
  constructor
  · show (s.windowAnswer m .whole fun s => s.statValue (.num k)).out ++ [Out.answer m 0] = _
    rw [State.windowAnswer_out (by decide), if_pos rfl, hstat, List.append_assoc]
    rfl
  · exact (State.windowAnswer_queues (by decide)).trans (by rw [hstat])

end

/-- Settles O19: a push of words that fit appends them in every full mode; a pop puts back its queue with the read pointer moved; the other
reads leave the queues alone. -/
theorem windowsPushAndPop : Obligations.WindowsPushAndPop := by
  unfold Obligations.WindowsPushAndPop
  refine ⟨?push, ?pushLog, ?pushHeld, ?group, ?pop, ?popUpper, ?popAnswer, ?peek, ?stat, ?lost, ?badRead, ?badWrite, ?zeroRead,
    ?deadWrite, ?span⟩
  case push => exact fun s m k v hcanon ⟨hrun, htakes, hsound⟩ => queuePush_completes hcanon hrun hsound m v htakes
  case pushLog =>
    intro s m v _ hrun
    refine completes_of_next (t := s) ?_ rfl
    show Host.Outcome.next (s.windowPush m .log (pushWord v)) = _
    simp only [State.windowPush, hrun, Bool.true_eq_false, if_false]
  case pushHeld =>
    intro s m q v _ hstill
    refine completes_of_next (t := s.windowPush m q (pushWord v)) rfl ?_
    simp only [State.windowPush, hstill, if_true]
  case group =>
    exact fun s k ws hcanon ⟨hrun, hex, hmode, hsound⟩ ⟨hlow, hhigh, hstored⟩ =>
      queueGroupPush_completes hcanon hrun hsound ws hex hmode hlow hhigh hstored
  case pop => exact fun s m k part hcanon w hword ⟨hrun, hsound, hpart⟩ => queuePop_moves hrun hsound hword hcanon hpart
  case popUpper => exact fun s m q _ => completes_of_next rfl rfl
  case popAnswer => exact fun s m k _ w hword ⟨hrun, hsound, hhurt⟩ => queuePop_answers hrun hsound hword hhurt
  case peek => exact fun s m k part _ w hword ⟨hrun, hsound, hhurt, hpart⟩ => queuePeek_completes hrun hsound hword hhurt hpart
  case stat => exact fun s m q hcanon ⟨hrun, hsound⟩ => queueStatRead_completes hcanon hrun hsound
  case lost => exact fun s m q _ ⟨hrun, _⟩ => queueLostRead_completes hrun
  case badRead =>
    intro s m q hcanon
    obtain ⟨hcount, hbit⟩ := badAccess_counted hcanon
    exact completes_of_next rfl ⟨hcount, hbit, rfl⟩
  case badWrite =>
    intro s m q hcanon
    obtain ⟨hcount, hbit⟩ := badAccess_counted hcanon
    exact completes_of_next rfl ⟨hcount, hbit, rfl⟩
  case zeroRead => exact fun s m q _ => completes_of_next rfl rfl
  case deadWrite => exact fun s m q _ => completes_of_next rfl rfl
  case span => exact fun s m k _ ⟨hrun, hsound⟩ => spanRead_completes hrun hsound

end Sys2Proof.Machine
end

section
/-!
SUPPORT. Creating and changing queues (R205, R221, R222, R225, R230), and the scrubber (R251, R252).
-/
namespace Sys2Proof.Machine

/-! ## CREATE and MODIFY (R221, R222, R239, R331) -/

/-- The state and queue n once its reservation and its forwarder have been looked at (R239, R331). -/
def State.granted (s : State) (n : Nat) (q : Queue) (o : Origin) : State × Queue :=
  (s.grantTo n q o).1.selfCheck n (s.grantTo n q o).2 o

theorem State.granted_signals (s : State) (n : Nat) (q : Queue) (o : Origin) : s.Signals (s.granted n q o).1 :=
  .selfCheck (.grantTo .start)

/-- A view that does not see the grant and the forwarder of a queue sees no change. -/
theorem State.granted_view {α : Type} {v : Queue → α} (hv : ∀ q g f, v { q with grant := g, fwd := f } = v q) (s : State) (n : Nat)
    (q : Queue) (o : Origin) : v (s.granted n q o).2 = v q := by
  have hgrant : v (s.grantTo n q o).2 = v q := by
    unfold State.grantTo
    split
    · exact hv q 0 q.fwd
    · exact hv q _ q.fwd
  have hself (u : State) (p : Queue) : v (u.selfCheck n p o).2 = v p := hv p p.grant _
  exact (hself _ _).trans hgrant

/-- The EDGE that a change of queue n to configuration c gives it (R221, R222). -/
def State.edgeFor (s : State) (n : Nat) (c : QCfg) : Nat :=
  if c.edge ≤ (s.queue n).edge then c.edge
  else (fitEdge (8388608 - (s.edgeUsed - (s.queue n).edgeHeld)) (s.queue n).edge c.edge).getD (s.queue n).edge

/-- A change of queue n that gives it less EDGE than configuration c wants sets EDGE_REDUCED (R222). -/
def State.edgeNoted (s : State) (n : Nat) (c : QCfg) : State :=
  if s.edgeFor n c < c.edge then s.on QF_EVT.EDGE_REDUCED else s

/-- Queue q with configuration c and the EDGE e; after a change of EDGE or SPILL the prefetcher is cold (R222). -/
def Queue.reconfigured (q : Queue) (c : QCfg) (e : Nat) : Queue :=
  if decide (e ≠ q.edge) || decide (c.spill ≠ q.cfg.spill) then
    { q with cfg := c, edgePend := if e = q.edge then none else some e, depth := 0, warming := true, samples := [] }
  else { q with cfg := c, edgePend := if e = q.edge then none else some e }

theorem Queue.reconfigured_cfg (q : Queue) (c : QCfg) (e : Nat) : (q.reconfigured c e).cfg = c := by
  unfold Queue.reconfigured
  split_ifs <;> rfl

theorem Queue.reconfigured_anyTorn (q : Queue) (c : QCfg) (e : Nat) : (q.reconfigured c e).anyTorn = q.anyTorn := by
  unfold Queue.reconfigured
  split_ifs <;> rfl

/-- The state and queue n once a change has given it configuration c and looked at its reservation and its forwarder (R222, R239, R331). -/
def State.readied (s : State) (n : Nat) (c : QCfg) (o : Origin) : State × Queue :=
  (s.edgeNoted n c).granted n ((s.queue n).reconfigured c (s.edgeFor n c)) o

/-- The queue that a CREATE makes of a queue number that keeps what q was, with configuration c and the EDGE e (R205, R221, R252). -/
def Queue.created (q : Queue) (c : QCfg) (e : Nat) : Queue := { q.afterlife with ex := true, cfg := c, edge := e }

/-- What a CREATE asks of a queue: that it exists, its configuration, and that it is empty. -/
def Queue.asked (q : Queue) : Bool × QCfg × List QWord := (q.ex, q.cfg, q.words)

section
variable {s : State} {n : Nat} {c : QCfg} (o : Origin) (hwf : tabWf (fun _ => Queue.absent) s.queues = true)

include hwf

/-- A queue whose edges fit is created empty, with its configuration. -/
theorem State.createQueue_shows (hfit : (fitEdge (8388608 - s.edgeUsed) 0 c.edge).isSome = true) :
    (s.createQueue n c o).Shows Queue.asked n (true, c, []) := by
  obtain ⟨e, he⟩ := Option.isSome_iff_exists.1 hfit
  simp only [State.createQueue, he]
  have hreduced : s.Signals (if e < c.edge then s.on QF_EVT.EDGE_REDUCED else s) := .ite (.on .start) .start
  generalize (if e < c.edge then s.on QF_EVT.EDGE_REDUCED else s) = u at hreduced
  have hqueues := (u.granted_signals n ((s.queue n).created c e) o).queues_eq.trans hreduced.queues_eq
  have htorn : (u.granted n ((s.queue n).created c e) o).2.torn = false :=
    u.granted_view (v := Queue.torn) (fun _ _ _ => rfl) n _ o
  have hasked : (u.granted n ((s.queue n).created c e) o).2.asked = (true, c, []) :=
    u.granted_view (v := Queue.asked) (fun _ _ _ => rfl) n _ o
  rw [← hasked]
  exact .told (.poolWatch .start) (.putQueue (fun _ => rfl) htorn (hqueues.symm ▸ hwf))

omit hwf in
theorem State.modifyQueue_eq (hsound : (s.queue n).anyTorn = false) : s.modifyQueue n c o =
    ((s.readied n c o).1.putQueue n (s.readied n c o).2.autoRelease.1.applyEdge (s.readied n c o).2.autoRelease.2).poolWatch s := by
  unfold State.modifyQueue
  rw [used_of_not_torn (Queue.torn_of_not_anyTorn hsound)]
  rfl

/-- A queue whose copies agree takes the configuration. -/
theorem State.modifyQueue_shows (hsound : (s.queue n).anyTorn = false) : (s.modifyQueue n c o).Shows Queue.cfg n c := by
  have hsignals : s.Signals (s.readied n c o).1 := .trans (.ite (.on .start) .start) (granted_signals _ n _ o)
  have hagree : (s.readied n c o).2.anyTorn = false :=
    (granted_view (v := Queue.anyTorn) (fun _ _ _ => rfl) _ n _ o).trans ((Queue.reconfigured_anyTorn ..).trans hsound)
  have htorn : (s.readied n c o).2.autoRelease.1.applyEdge.torn = false :=
    (Queue.applyEdge_view (v := Queue.torn) (fun _ _ _ => rfl) _).trans (Queue.release_torn hagree _)
  have hcfg : (s.readied n c o).2.autoRelease.1.applyEdge.cfg = c := calc
    _ = (s.readied n c o).2.autoRelease.1.cfg := Queue.applyEdge_view (v := Queue.cfg) (fun _ _ _ => rfl) _
    _ = (s.readied n c o).2.cfg := (congrArg Queue.cfg (Queue.release_unplaced _ _) :)
    _ = c := (granted_view (v := Queue.cfg) (fun _ _ _ => rfl) _ n _ o).trans (Queue.reconfigured_cfg ..)
  rw [modifyQueue_eq o hsound]
  generalize s.readied n c o = r at hsignals htorn hcfg
  rw [← hcfg]
  exact .told (.poolWatch .start) (.putQueue (fun _ => rfl) htorn (hsignals.queues_eq.symm ▸ hwf))

end

end Sys2Proof.Machine
end

section
/-!
SUPPORT. Deleting and reading queues (R205, R222, R229, R230), and the scrubber (R251, R252).
-/
namespace Sys2Proof.Machine

/-! ## DELETE (R205, R222, R252) -/

/-- A queue put into the table is there. -/
theorem State.Shows.setQueue_same {α : Type} {v : Queue → α} {s : State} {k : Nat} {q : Queue}
    (hwf : tabWf (fun _ => Queue.absent) s.queues = true) : (s.setQueue k q).Shows v k (v q) :=
  ⟨tabPut_wf _ _ hwf, congrArg v (queue_setQueue_same hwf k q)⟩

/-- What a queue number keeps of a queue q that is deleted. -/
def Queue.deleted (q : Queue) : Queue := { q.wipe.2.2.afterlife with gen := (q.gen + 1) % 0x10000 }

theorem State.deleteQueue_shows {α : Type} {v : Queue → α} (hv : ∀ q, v q.own = v q) {s : State} {n : Nat} (o : Origin)
    (hwf : tabWf (fun _ => Queue.absent) s.queues = true) (htorn : (s.queue n).torn = false) :
    (s.deleteQueue n o).Shows v n (v (s.queue n).deleted) := by
  have htold : s.Signals ((List.range 16).foldl (fun s p => if s.bindsQueue p n then s.on (SP_TEVT.ABSENT_Q p) else s) s) :=
    .foldl _ (fun _ _ ht => .ite ht.on ht) .start
  unfold State.deleteQueue
  rw [used_of_not_torn htorn]
  dsimp only
  generalize (List.range 16).foldl (fun s p => if s.bindsQueue p n then s.on (SP_TEVT.ABSENT_Q p) else s) s = t at htold ⊢
  have hqueues := (t.giveBlocks_queues (s.queue n) (chainWalk (s.queue n).chain).1).trans htold.queues_eq
  generalize t.giveBlocks (s.queue n) (chainWalk (s.queue n).chain).1 = x at hqueues ⊢
  refine .told (.event .start) (.refreshFull hv (.updateFlows (.told (.setReg .start) (.setQueue_same ?_))))
  exact hqueues.symm ▸ hwf

/-! ## READ and SNAP (R222, R225, R229, R230) -/

theorem State.stage_setStage_same {s : State} (h : tabWf stagedDefault s.staged = true) (o : Origin) (k : Nat) (w : Word) :
    (s.setStage o k w).stage o k = w := by
  rw [State.stage, State.setStage, tabGet_tabPut _ _ _ h, if_pos rfl]

theorem State.stage_setStage_ne {j k : Nat} (h : k ≠ j) (s : State) (o : Origin) (w : Word) :
    (s.setStage o j w).stage o k = s.stage o k := tabGet_tabPut_ne w (by omega) s.staged

theorem State.setStage_wf {s : State} (h : tabWf stagedDefault s.staged = true) (o : Origin) (j : Nat) (w : Word) :
    tabWf stagedDefault (s.setStage o j w).staged = true := tabPut_wf _ _ h

/-- The staged configuration reads as it was staged. -/
theorem State.stagedCfg_staged {s : State} (h : tabWf stagedDefault s.staged = true) (o : Origin) (c : QCfg) :
    (((((s.setStage o 1 c.w0).setStage o 2 c.w1).setStage o 3 c.w2).setStage o 4 c.w3).setStage o 5 c.w4).stagedCfg o = c := by
  have h1 := setStage_wf h o 1 c.w0
  have h2 := setStage_wf h1 o 2 c.w1
  have h3 := setStage_wf h2 o 3 c.w2
  have h4 := setStage_wf h3 o 4 c.w3
  simp (disch := decide) only [State.stagedCfg, stage_setStage_ne]
  simp only [stage_setStage_same, h, h1, h2, h3, h4]

theorem reg_setReg_same {s : State} (h : tabWf regReset s.regs = true) (a : Nat) (w : Word) : (s.setReg a w).reg a = w := by
  rw [reg_setReg h, if_pos rfl]

/-- The counts of an existing queue are captured. -/
theorem State.captureInfo_regs {s : State} (h : tabWf regReset s.regs = true) {q : Queue} (hex : q.ex = true) :
    (s.captureInfo q).reg QI_HELD_LO = BitVec.ofNat 32 q.held ∧ (s.captureInfo q).reg QI_READY_LO = BitVec.ofNat 32 q.ready ∧
    (s.captureInfo q).reg QI_LOST = BitVec.ofNat 32 q.lost := by
  simp only [State.captureInfo, State.setPair, hex, if_true]
  refine ⟨?_, ?_, ?_⟩
  all_goals
    simp (disch := decide) only [reg_setReg_ne]
    refine reg_setReg_same ?_ _ _
    repeat refine setReg_wf _ _ ?_
    exact h

/-! ## The scrubber (R251, R252) -/

/-- A queue that a fault has reset. -/
def Queue.faulted (q : Queue) : Bool := q.fault && q.words.isEmpty

section
variable {α : Type} {v : Queue → α} {x : α} {t : State} {k j : Nat}

/-- A fault of another queue leaves this one. -/
theorem State.Shows.queueFault_ne (hj : j ≠ k) (h : t.Shows v k x) : (t.queueFault j).Shows v k x := by
  unfold State.queueFault
  exact .told (.event (.on .start)) (.updateFlows (.setQueue (fun hk => absurd hk hj) (h.same rfl)))

/-- A fault resets its queue. -/
theorem State.Shows.queueFault_same (h : tabWf (fun _ => Queue.absent) t.queues = true) :
    (t.queueFault k).Shows Queue.faulted k true := by
  unfold State.queueFault
  refine .told (.event (.on .start)) (.updateFlows ⟨tabPut_wf _ _ h, ?_⟩)
  refine (congrArg Queue.faulted (queue_setQueue_same h _ _)).trans ?_
  exact congrArg List.isEmpty (t.queue k).wipe_queue.1

end

/-- The scrubber's look at the queue of one entry. -/
def State.scrub (s : State) (e : Nat × Queue) : State := if (s.queue e.1).anyTorn then s.queueFault e.1 else s

section
variable {t : State} {k : Nat}

theorem State.Shows.scrub_faulted {e : Nat × Queue} (h : t.Shows Queue.faulted k true) : (t.scrub e).Shows Queue.faulted k true := by
  refine .ite ?_ h
  by_cases hk : e.1 = k
  · exact hk ▸ .queueFault_same h.queues_wf
  · exact h.queueFault_ne hk

/-- The scrubber resets a queue with a disagreement that it comes to. -/
theorem State.Shows.scrubbed {l : List (Nat × Queue)} (hmem : ∃ e ∈ l, e.1 = k) (h : t.Shows Queue.anyTorn k true) :
    (l.foldl State.scrub t).Shows Queue.faulted k true := by
  induction l generalizing t with
  | nil => simp at hmem
  | cons e l ih =>
    rw [List.foldl_cons]
    by_cases hk : e.1 = k
    · have hreset : (t.scrub e).Shows Queue.faulted k true := by
        unfold State.scrub
        rw [hk, h.queue_eq, if_pos rfl]
        exact .queueFault_same h.queues_wf
      exact .foldl l (fun _ _ _ hu => hu.scrub_faulted) hreset
    · refine ih ?_ (.ite (h.queueFault_ne hk) h)
      obtain ⟨a, ha, hak⟩ := hmem
      rcases List.mem_cons.1 ha with rfl | hrest
      · exact absurd hak hk
      · exact ⟨a, hrest, hak⟩

/-- A key that does not read as unlisted is listed. -/
theorem exists_mem_of_tabGet_ne {β : Type} {d : Nat → β} {t : Tab β} {k : Nat} (h : tabGet d t k ≠ d k) : ∃ e ∈ t, e.1 = k := by
  induction t with
  | nil => exact absurd rfl h
  | cons e t ih =>
    by_cases hk : e.1 = k
    · exact ⟨e, List.mem_cons_self, hk⟩
    · rw [tabGet, if_neg hk] at h
      obtain ⟨a, ha, hak⟩ := ih h
      exact ⟨a, List.mem_cons_of_mem _ ha, hak⟩

/-- A queue with a disagreement is no absent one, so the scrubber comes to it. -/
theorem State.Shows.listed (h : t.Shows Queue.anyTorn k true) : ∃ e ∈ t.queues, e.1 = k := by
  refine exists_mem_of_tabGet_ne (d := fun _ => Queue.absent) fun habsent => ?_
  have htorn : (t.queue k).anyTorn = false := congrArg Queue.anyTorn habsent
  rw [h.queue_eq] at htorn
  contradiction

end

/-! ### Upsets -/

theorem any_torn_modify (bs : List Block) (i : Nat) (h : bs.any Block.torn = true) :
    (bs.modify i fun b => { b with torn := true }).any Block.torn = true := by
  induction bs generalizing i with
  | nil => exact absurd h (by decide)
  | cons b bs ih =>
    cases i with
    | zero => rfl
    | succ i =>
      rw [List.modify_succ_cons, List.any_cons, Bool.or_eq_true]
      rw [List.any_cons, Bool.or_eq_true] at h
      exact h.imp id (ih i)

/-- Queue q once the copies of its control record, or of the link at a place of its chain, have come to disagree. -/
def Queue.upset (q : Queue) (link : Option Nat) : Queue :=
  match link with
  | none => { q with torn := true }
  | some i => { q with chain := q.chain.modify i (fun b => { b with torn := true }) }

theorem Queue.upset_anyTorn {q : Queue} (h : q.anyTorn = true) (link : Option Nat) : (q.upset link).anyTorn = true := by
  cases link with
  | none => rfl
  | some i =>
    rcases Bool.or_eq_true_iff.1 h with htorn | hchain
    · exact Bool.or_eq_true_iff.2 (.inl htorn)
    · exact Bool.or_eq_true_iff.2 (.inr (any_torn_modify _ i hchain))

theorem State.upset_eq (s : State) (u : Upset) :
    s.upset u = if (s.queue u.queue.toNat).ex = false then s else s.setQueue u.queue.toNat ((s.queue u.queue.toNat).upset u.link) := by
  cases hlink : u.link <;> simp [State.upset, Queue.upset, hlink]

section
variable {α : Type} {v : Queue → α} {x : α} {t : State} {k : Nat} {u : Upset}

/-- A view in which an upset queue shows what it showed. -/
theorem State.Shows.upset (hv : ∀ q link, v q = x → v (q.upset link) = x) (h : t.Shows v k x) : (t.upset u).Shows v k x := by
  rw [State.upset_eq]
  refine .ite h (h.setQueue ?_)
  rintro rfl
  exact hv _ _ h.queue_eq

theorem State.Shows.upset_faulted (h : t.Shows Queue.faulted k true) : (t.upset u).Shows Queue.faulted k true :=
  h.upset fun _ link hq => by cases link <;> exact hq

theorem State.Shows.upset_anyTorn (h : t.Shows Queue.anyTorn k true) : (t.upset u).Shows Queue.anyTorn k true :=
  h.upset fun _ link hq => Queue.upset_anyTorn hq link

/-- The upset of the control record of a queue that exists is a disagreement, and stays one. -/
theorem State.Shows.upset_record {l : List Upset} (hmem : u ∈ l) (hlink : u.link = none)
    (h : t.Shows Queue.ex u.queue.toNat true) : (l.foldl State.upset t).Shows Queue.anyTorn u.queue.toNat true := by
  induction l generalizing t with
  | nil => exact absurd hmem List.not_mem_nil
  | cons a l ih =>
    rw [List.foldl_cons]
    rcases List.mem_cons.1 hmem with rfl | hrest
    · have hupset : (t.upset u).Shows Queue.anyTorn u.queue.toNat true := by
        rw [State.upset_eq, h.queue_eq, if_neg (by decide), hlink]
        show State.Shows Queue.anyTorn _ (Queue.anyTorn ((t.queue u.queue.toNat).upset none)) _
        exact .setQueue_same h.queues_wf
      exact .foldl l (fun _ _ _ ht => ht.upset_anyTorn) hupset
    · exact ih hrest (h.upset fun _ link hq => by cases link <;> exact hq)

end

end Sys2Proof.Machine
end

section
/-!
SUPPORT. The statement of 06_queues.md on QF_QCMD and the scrubber (R221, R222, R225, R230, R251, R252).
-/
namespace Sys2Proof.Machine

/-! ## QF_QCMD (R222, R225) -/

/-- The state with a write of op to QF_QCMD on the record (R225). -/
def State.qcmdTold (s : State) (o : Origin) (op : Nat) : State := s.configWrite o QF_QCMD (BitVec.ofNat 32 op) 0

theorem State.qcmdTold_signals (s : State) (o : Origin) (op : Nat) : s.Signals (s.qcmdTold o op) := .configWrite .start

section
variable {s : State} (o : Origin) (hup : s.fabricUp = true) (hopen : s.reloading QF_QCMD = false)
include hup hopen

/-- Once the fabric runs, and no reload of it is under way, a write of QF_QCMD acts on the queue selected. -/
theorem State.qcmd_of_up (op : Nat) (f : State → Nat → State) :
    s.qcmd o op f = f (s.qcmdTold o op) ((s.stage o 0).toNat % 0x10000) := by
  simp only [State.qcmd, hup, hopen, Bool.true_eq_false, Bool.false_eq_true, if_false]
  rfl

/-- So the command completes with what it makes of the state with its record. -/
theorem completes_qcmd {i : Instr} {op : Nat} {f : State → Nat → State} {P : State → Prop} (hexec : exec i s = .next (s.qcmd o op f))
    (hP : P (f (s.qcmdTold o op) ((s.stage o 0).toNat % 0x10000))) : Completes i s P :=
  completes_of_next hexec (by rwa [State.qcmd_of_up o hup hopen])

theorem qcmdIgnored_completes (op : BitVec 3) (hcanon : s.canon = true) : Completes (.qcmdIgnored o op) s fun t =>
    t.bit QF_EVT.BAD_CMD = true ∧ t.queues = s.queues := by
  have hkeeps : s.Keeps logFields 0 Port.unseen (s.qcmdTold o op.toNat) := .configWrite (fun _ hf => hf) (.of_canon hcanon)
  exact completes_qcmd o hup hopen rfl ⟨bit_on hkeeps.regs_wf (by decide) rfl, (s.qcmdTold_signals o op.toNat).queues_eq⟩

end

section
variable {s : State} (o : Origin) (hcanon : s.canon = true) (hup : s.fabricUp = true) (hopen : s.reloading QF_QCMD = false)
  {n : Nat} (hn : n = (s.stage o 0).toNat % 0x10000)
include hcanon hup hopen hn

theorem create_completes (hex : (s.queue n).ex = false) (hawaits : s.ledger.awaits n (s.queue n).gen = false)
    (hfit : (fitEdge (8388608 - s.edgeUsed) 0 (s.stagedCfg o).edge).isSome = true) : Completes (.create o) s fun t =>
      (t.queue n).ex = true ∧ (t.queue n).cfg = s.stagedCfg o ∧ (t.queue n).words = [] := by
  have hu := s.qcmdTold_signals o 1
  refine completes_qcmd o hup hopen rfl ?_
  generalize s.qcmdTold o 1 = u at hu
  rw [← hn, ← hu.stagedCfg_eq]
  rw [← hu.queue_eq] at hex hawaits
  rw [← hu.ledger_eq] at hawaits
  rw [← hu.stagedCfg_eq, State.edgeUsed, ← hu.queues_eq] at hfit
  have happly : u.applyQueue n (u.stagedCfg o) o = u.createQueue n (u.stagedCfg o) o := by
    simp only [State.applyQueue, hex, hawaits, Bool.false_eq_true, if_false]
  have hshows : ((u.applyQueue n (u.stagedCfg o) o).queueChange n 1 (u.stagedCfg o) o).Shows Queue.asked n (true, u.stagedCfg o, []) := by
    rw [happly]
    exact .told (.event .start) (State.createQueue_shows o (hu.queues_eq.symm ▸ State.queues_wf_of_canon hcanon) hfit)
  exact ⟨(congrArg Prod.fst hshows.queue_eq :), (congrArg (fun x => x.2.1) hshows.queue_eq :),
    (congrArg (fun x => x.2.2) hshows.queue_eq :)⟩

variable (hex : (s.queue n).ex = true)
include hex

theorem read_completes : Completes (.read o) s fun t =>
    t.stagedCfg o = { (s.queue n).cfg with w0 := (s.queue n).liveCfg0 } := by
  have hu := s.qcmdTold_signals o 4
  refine completes_qcmd o hup hopen rfl ?_
  generalize s.qcmdTold o 4 = u at hu
  rw [← hn, ← hu.queue_eq]
  rw [← hu.queue_eq] at hex
  simp only [hex, if_true]
  exact State.stagedCfg_staged (hu.staged_eq.symm ▸ State.staged_wf_of_canon hcanon) o
    { (u.queue n).cfg with w0 := (u.queue n).liveCfg0 }

variable (hsound : (s.queue n).anyTorn = false)
include hsound

theorem modify_completes : Completes (.modify o) s fun t => (t.queue n).cfg = s.stagedCfg o := by
  have hu := s.qcmdTold_signals o 2
  refine completes_qcmd o hup hopen rfl ?_
  generalize s.qcmdTold o 2 = u at hu
  rw [← hn, ← hu.stagedCfg_eq]
  rw [← hu.queue_eq] at hex hsound
  have hshows : ((u.modifyQueue n (u.stagedCfg o) o).queueChange n 2 (u.stagedCfg o) o).Shows Queue.cfg n (u.stagedCfg o) :=
    .told (.event .start) (State.modifyQueue_shows o (hu.queues_eq.symm ▸ State.queues_wf_of_canon hcanon) hsound)
  simp only [hex, if_true]
  exact hshows.queue_eq

theorem delete_completes : Completes (.delete o) s fun t =>
    (t.queue n).ex = false ∧ (t.queue n).gen = ((s.queue n).gen + 1) % 0x10000 ∧
    (t.queue n).lost = sat32 ((s.queue n).lost + (s.queue n).words.length) := by
  have hu := s.qcmdTold_signals o 3
  refine completes_qcmd o hup hopen rfl ?_
  generalize s.qcmdTold o 3 = u at hu
  rw [← hn, ← hu.queue_eq]
  rw [← hu.queue_eq] at hex hsound
  have hshows {α : Type} {v : Queue → α} (hv : ∀ q, v q.own = v q) : (u.deleteQueue n o).Shows v n (v (u.queue n).deleted) :=
    State.deleteQueue_shows hv o (hu.queues_eq.symm ▸ State.queues_wf_of_canon hcanon) (Queue.torn_of_not_anyTorn hsound)
  obtain ⟨-, hlost, -⟩ := (u.queue n).wipe_queue
  simp only [hex, if_true]
  exact ⟨(hshows (v := Queue.ex) fun _ => rfl).queue_eq, (hshows (v := Queue.gen) fun _ => rfl).queue_eq,
    (hshows (v := Queue.lost) fun _ => rfl).queue_eq.trans hlost⟩

theorem snap_completes : Completes (.snap o) s fun t =>
    t.reg QI_HELD_LO = BitVec.ofNat 32 (s.queue n).held ∧ t.reg QI_READY_LO = BitVec.ofNat 32 (s.queue n).ready ∧
    t.reg QI_LOST = BitVec.ofNat 32 (s.queue n).lost := by
  have hu := s.qcmdTold_signals o 5
  have hkeeps : s.Keeps logFields 0 Port.unseen (s.qcmdTold o 5) := .configWrite (fun _ hf => hf) (.of_canon hcanon)
  refine completes_qcmd o hup hopen rfl ?_
  generalize s.qcmdTold o 5 = u at hu hkeeps
  rw [← hn, ← hu.queue_eq]
  rw [← hu.queue_eq] at hex hsound
  rw [State.used_of_not_torn (Queue.torn_of_not_anyTorn hsound)]
  exact State.captureInfo_regs hkeeps.regs_wf hex

end

/-! ## POINTER_SCRUB (R251, R252) -/

/-- The state once the upsets that come before the scrubber have come. -/
def State.upsetEarly (s : State) (upsets : List Upset) : State := (upsets.filter (fun u => !u.late)).foldl State.upset s

/-- The state that a pass of the scrubber leaves. -/
def State.scrubbed (s : State) (upsets : List Upset) : State :=
  (upsets.filter (·.late)).foldl State.upset ((s.upsetEarly upsets).queues.foldl State.scrub (s.upsetEarly upsets)).refreshFull

theorem execPointerScrub_of_runs {s : State} (hrun : s.runs .core = true) (upsets : List Upset) :
    execPointerScrub upsets s = .next (s.scrubbed upsets) := by
  simp only [execPointerScrub, hrun, Bool.true_eq_false, if_false]
  rfl

/-- A queue with a disagreement when the scrubber comes is reset, and stays so. -/
theorem scrubbed_faulted {s : State} {upsets : List Upset} {k : Nat} (h : (s.upsetEarly upsets).Shows Queue.anyTorn k true) :
    ((s.scrubbed upsets).queue k).faulted = true := by
  have hreset : ((s.upsetEarly upsets).queues.foldl State.scrub (s.upsetEarly upsets)).Shows Queue.faulted k true :=
    .scrubbed h.listed h
  exact (State.Shows.foldl _ (fun _ _ _ ht => ht.upset_faulted) (hreset.refreshFull fun _ => rfl)).queue_eq

theorem pointerScrub_completes {s : State} (upsets : List Upset) (hcanon : s.canon = true) (hrun : s.runs .core = true) :
    Completes (.pointerScrub upsets) s fun t =>
      upsets.all (fun u => u.late || u.link.isSome || !(s.queue u.queue.toNat).ex ||
        ((t.queue u.queue.toNat).fault && (t.queue u.queue.toNat).words.isEmpty)) = true ∧
      s.queues.all (fun e => !(s.queue e.1).anyTorn || ((t.queue e.1).fault && (t.queue e.1).words.isEmpty)) = true := by
  refine completes_of_next (execPointerScrub_of_runs hrun upsets) ⟨List.all_eq_true.2 fun u hu => ?_, List.all_eq_true.2 fun e _ => ?_⟩
  · cases hlate : u.late with
    | true => rfl
    | false =>
      cases hlink : u.link with
      | some i => rfl
      | none =>
        cases hex : (s.queue u.queue.toNat).ex with
        | false => rfl
        | true =>
          have hmem : u ∈ upsets.filter (fun u => !u.late) := List.mem_filter.2 ⟨hu, by rw [hlate]; rfl⟩
          exact scrubbed_faulted (.upset_record hmem hlink ⟨State.queues_wf_of_canon hcanon, hex⟩)
  · cases htorn : (s.queue e.1).anyTorn with
    | false => rfl
    | true =>
      exact scrubbed_faulted (.foldl _ (fun _ _ _ ht => ht.upset_anyTorn) ⟨State.queues_wf_of_canon hcanon, htorn⟩)

/-- Settles O21: the record of the write leaves the queues and what is staged; the command puts back the queue that it changes. A queue with
a disagreement is none that is absent, so the scrubber comes to it. -/
theorem queueChangesComplete : Obligations.QueueChangesComplete := by
  unfold Obligations.QueueChangesComplete
  refine ⟨?create, ?modify, ?delete, ?read, ?snap, ?ignored, ?scrub⟩
  case create =>
    exact fun s o hcanon ⟨hup, hopen, hex⟩ hawaits hfit => create_completes o hcanon hup hopen rfl hex hawaits hfit
  case modify => exact fun s o hcanon ⟨hup, hopen⟩ ⟨hex, hsound⟩ => modify_completes o hcanon hup hopen rfl hex hsound
  case delete => exact fun s o hcanon ⟨hup, hopen⟩ ⟨hex, hsound⟩ => delete_completes o hcanon hup hopen rfl hex hsound
  case read => exact fun s o hcanon ⟨hup, hopen⟩ ⟨hex, _⟩ => read_completes o hcanon hup hopen rfl hex
  case snap => exact fun s o hcanon ⟨hup, hopen⟩ ⟨hex, hsound⟩ => snap_completes o hcanon hup hopen rfl hex hsound
  case ignored => exact fun s o op hcanon ⟨hup, hopen⟩ => qcmdIgnored_completes o hup hopen op hcanon
  case scrub => exact fun s upsets hcanon hrun => pointerScrub_completes upsets hcanon hrun

end Sys2Proof.Machine
end

section
/-!
SUPPORT. A statement of 06_queues.md that fails in some canonical state: the pop of a word with an error of a memory that does not exist.
-/
namespace Sys2Proof.Machine

/-- The pop of the word of hurtWord counts its error in the copy of DDR_CNT_CE that channel 2 would have. -/
theorem queuePop_hurtWord : ∃ t, exec (.queuePop .host (.num 0) .whole) hurtWord = .next t ∧ t.reg (DDR_CNT_CE 2) = 1 :=
  ⟨_, rfl, by decide +kernel⟩

/-- Refutes O56: the frame of QUEUE_POP lists the counters of two DRAM channels, and a canonical state can name a third. -/
theorem not_queueFrames : ¬ Obligations.QueueFrames := by
  unfold Obligations.QueueFrames
  rintro ⟨-, -, hpop, -⟩
  obtain ⟨t, hexec, hcount⟩ := queuePop_hurtWord
  obtain ⟨-, hregs, -⟩ := hpop .host (.num 0) .whole hurtWord t (by decide +kernel) hexec
  have hkept := hregs (DDR_CNT_CE 2) (by decide +kernel)
  rw [hcount] at hkept
  exact absurd hkept (by decide +kernel)

end Sys2Proof.Machine
end

section
/-!
SUPPORT. What leaves the ledger as it is: queues found full, and a port that withdraws its request (R47, R151, R177 to R179, R206).
-/
namespace Sys2Proof.Machine

/-! ## What leaves the ledger as it is -/

/-- The ledger is l. As a predicate of the state, so that a proof follows its updates one by one. -/
structure State.HasLedger (l : Ledger) (t : State) : Prop where
  ledger_eq : t.ledger = l

namespace State.HasLedger
section
variable {l : Ledger} {s t : State} {n m k clip cause : Nat} {tab : TwTable}

theorem start : State.HasLedger s.ledger s := ⟨rfl⟩

theorem told {u : State} (hu : t.Signals u) (h : t.HasLedger l) : u.HasLedger l := ⟨hu.ledger_eq.trans h.ledger_eq⟩

theorem ite {c : Prop} [Decidable c] {u : State} (ht : t.HasLedger l) (hu : u.HasLedger l) : (if c then t else u).HasLedger l := by
  split_ifs
  · exact ht
  · exact hu

theorem foldl {α : Type} {f : State → α → State} (xs : List α) (hf : ∀ t a, t.HasLedger l → (f t a).HasLedger l) (h : t.HasLedger l) :
    (xs.foldl f t).HasLedger l := List.foldlRecOn xs f h fun t ht a _ => hf t a ht

theorem setReg {a : Nat} {x : Word} (h : t.HasLedger l) : (t.setReg a x).HasLedger l := ⟨h.ledger_eq⟩

theorem setTw {w : Tw} (h : t.HasLedger l) : (t.setTw n w).HasLedger l := ⟨h.ledger_eq⟩

theorem setPort {p : Port} (h : t.HasLedger l) : (t.setPort n p).HasLedger l := ⟨h.ledger_eq⟩

theorem event {code : Nat} {nums : List Nat} (h : t.HasLedger l) : (t.event code nums).HasLedger l := h.told (.event .start)

/-! ### Queues that are full (R206) -/

theorem updateFlows (h : t.HasLedger l) : (t.updateFlows k).HasLedger l := .foldl _ (fun _ _ ht => .ite ⟨ht.ledger_eq⟩ ht) h

theorem refreshFull (h : t.HasLedger l) : t.refreshFull.HasLedger l :=
  .foldl _ (fun _ _ ht => .ite ht (.updateFlows ⟨ht.ledger_eq⟩)) h

/-! ### A port that withdraws its request (R47, R151, R177 to R179) -/

theorem applyTable (h : t.HasLedger l) : (t.applyTable n m tab clip).HasLedger l :=
  .ite h.setTw.setReg.setReg (.setReg h.setTw.setReg.setReg)

theorem haltCommits (h : t.HasLedger l) : (t.haltCommits n).HasLedger l := by
  refine .foldl _ (fun u m hu => ?_) h
  split
  · dsimp only
    split
    · exact .setTw (.setReg hu.applyTable)
    · exact .setTw hu.applyTable
  · exact hu

theorem dropDe (h : t.HasLedger l) : (t.dropDe n).HasLedger l := by
  unfold State.dropDe
  dsimp only
  generalize hu : t.setPort n _ = u
  have hdown : u.HasLedger l := hu ▸ h.setPort
  exact .ite (.told (.toPad .start) (.ite hdown.setTw hdown)) (.ite hdown.setTw hdown)

theorem haltCycle (h : t.HasLedger l) : (t.haltCycle n).HasLedger l := .setTw (.ite h.haltCommits.dropDe.setTw h.haltCommits)

theorem leavePhase (h : t.HasLedger l) : (t.leavePhase n cause).HasLedger l := by
  unfold State.leavePhase
  exact .ite h (.setTw (.haltCycle (.ite (.event h.setReg.setReg) h.setReg)))

/-- What happens in a schedule leaves the ledger as it is. -/
theorem scope : TwScope n (State.HasLedger l) where
  setReg _ h := h.setReg
  event _ h := h.event
  setTw _ h := h.setTw
  fire h := h.told (.fire .start)
  toPad h := h.told (.toPad .start)
  setPort _ h := h.setPort
  leave h := h.leavePhase

theorem withdraw (h : t.HasLedger l) : (t.withdraw n).HasLedger l := (scope.followGate h).dropDe.setTw

end
end State.HasLedger

end Sys2Proof.Machine
end

section
/-!
SUPPORT. Failures of the ledger (R255, R256), and pool 1 found out of balance: what the checks that follow it keep.
-/
namespace Sys2Proof.Machine

/-! ## Failures of the ledger (R255, R256) -/

/-- The state in which a failure of class cls is shown and recorded. -/
def State.faultShown (s : State) (cls obj : Nat) (delta : Int) : State :=
  (((s.setReg LG_FAULT0 (BitVec.ofNat 32 (cls + obj % 0x10000 * 0x10000))).setReg LG_FAULT1 (satInt32 delta)).inc LG_CNT_FAULT).setRegBit
    LG_EVT (cls - 1) true

/-- The state in which a failure of class cls is shown, and has its event with action act. -/
def State.faultNoted (s : State) (cls obj : Nat) (delta : Int) (terms : List Nat) (act : Nat) : State :=
  (s.faultShown cls obj delta).event Ev.LEDGER_FAULT ([cls, obj] ++ terms ++ [act])

/-- The state that counts fs as failures whose action runs. -/
def State.withFails (s : State) (fs : List LedgerFail) : State := { s with ledger := { s.ledger with fails := fs } }

section
variable (s : State) (cls obj : Nat) (delta : Int) (terms : List Nat) (act : Nat) (f : State → State)

/-- A failure that no action runs for is noted, and starts its action. -/
theorem State.failed_of_new (h : s.ledger.fails.find? (fun g => g.cls == cls && g.obj == obj) = none) :
    s.failed cls obj delta terms act f =
      f (((s.withFails (s.ledger.fails ++ [{ cls := cls, obj := obj, delta := delta }])).faultNoted cls obj delta terms act).fire 2043) := by
  unfold State.failed State.ledgerFault
  simp only [h]
  rfl

/-- An equation that fails is one whose action runs, is noted only, or starts its action (R256). -/
theorem State.failed_cases :
    s.failed cls obj delta terms act f = s ∨
    (∃ fs, s.failed cls obj delta terms act f = (s.withFails fs).faultNoted cls obj delta terms 0) ∨
    ∃ fs, s.failed cls obj delta terms act f = f (((s.withFails fs).faultNoted cls obj delta terms act).fire 2043) := by
  cases hrun : s.ledger.fails.find? (fun g => g.cls == cls && g.obj == obj) with
  | none => exact .inr (.inr ⟨_, s.failed_of_new cls obj delta terms act f hrun⟩)
  | some g =>
    by_cases hdelta : g.delta = delta
    · exact .inl (by simp [State.failed, State.ledgerFault, hrun, hdelta])
    · refine .inr (.inl ⟨s.ledger.fails.map (fun x => if x = g then { x with delta := delta } else x), ?_⟩)
      simp only [State.failed, State.ledgerFault, hrun, hdelta, if_false]
      rfl

end

/-- The check of a VC's credits finds them in order, or is a failure of class 4 (R254, R317). -/
theorem State.checkCredits_cases (s : State) (l v sent returned : Nat) :
    s.checkCredits l v sent returned = s ∨ ∃ delta terms, s.checkCredits l v sent returned =
      s.failed 4 (l * 4 + v) delta terms 2 (fun s => (s.resyncVc l v).ledgerDone 4 (l * 4 + v)) := by
  unfold State.checkCredits
  dsimp only
  split
  · exact .inl rfl
  · exact .inr ⟨_, _, rfl⟩

/-! ## Pool 1 found out of balance -/

/-- The bit of LG_EVT that shows a failure of class 1. -/
def eddyFault : Fld := ⟨LG_EVT, 0, 1⟩

/-- A failure of pool 1 is shown, and the sweep that is asked for is r. As a predicate of the state, so that a proof follows its updates one
by one. -/
structure State.EddyFaulted (r : Option Bool) (t : State) : Prop where
  regs_wf : tabWf regReset t.regs = true
  ports_wf : tabWf Port.reset t.ports = true
  shown : t.bit eddyFault = true
  asked : t.ledger.nextSweep = r

theorem logFields_apart_eddyFault : logFields.all (fun f => f.apart eddyFault) = true := by decide +kernel

theorem guardFields_apart_eddyFault : ∀ n : Fin 16, (guardFields n).all (fun f => f.apart eddyFault) = true := by decide +kernel

theorem linkRegs_ne_ledger (l v : Nat) : LK_CNT_TXCELL l ≠ LG_EVT ∧ LK_CNT_RESYNC l ≠ LG_EVT ∧ LK_EVT l ≠ LG_EVT ∧ LK_CRED_VC l v ≠ LG_EVT := by
  simp only [LK_CNT_TXCELL, LK_CNT_RESYNC, LK_EVT, LK_CRED_VC, LG_EVT]
  omega

namespace State.EddyFaulted
section
variable {r : Option Bool} {s t u : State} {n k : Nat} {fs : List Fld}

/-- What keeps the bit and the sweep that is asked for. -/
theorem keeps {v : Port → Port} (hkeeps : t.Keeps fs n v u) (hfs : fs.all (fun f => f.apart eddyFault) = true)
    (hasked : u.ledger.nextSweep = t.ledger.nextSweep) (h : t.EddyFaulted r) : u.EddyFaulted r where
  regs_wf := hkeeps.regs_wf
  ports_wf := hkeeps.ports_wf
  shown := (hkeeps.bit_eq hfs).trans h.shown
  asked := hasked.trans h.asked

/-- An update of other parts of the state. -/
theorem same (h : t.EddyFaulted r) (hregs : u.regs = t.regs) (hports : u.ports = t.ports)
    (hasked : u.ledger.nextSweep = t.ledger.nextSweep) : u.EddyFaulted r :=
  h.keeps (fs := []) (n := 0) (v := Port.unseen) ((State.Keeps.start h.regs_wf h.ports_wf).same hregs hports) rfl hasked

theorem ite {c : Prop} [Decidable c] (ht : t.EddyFaulted r) (hu : u.EddyFaulted r) : (if c then t else u).EddyFaulted r := by
  split_ifs
  · exact ht
  · exact hu

theorem foldl {α : Type} {f : State → α → State} (l : List α) (hf : ∀ t, ∀ a ∈ l, t.EddyFaulted r → (f t a).EddyFaulted r)
    (h : t.EddyFaulted r) : (l.foldl f t).EddyFaulted r := List.foldlRecOn l f h fun t ht a ha => hf t a ha ht

/-! ### Registers, records and interrupts -/

theorem wrField {f : Fld} {x : Nat} (hf : f.apart eddyFault = true) (h : t.EddyFaulted r) : (t.wr f x).EddyFaulted r :=
  h.keeps (n := 0) (v := Port.unseen) ((State.Keeps.start h.regs_wf h.ports_wf).wrField (List.mem_singleton_self f)) (by simpa using hf) rfl

theorem setReg {a : Nat} {x : Word} (ha : a ≠ LG_EVT) (h : t.EddyFaulted r) : (t.setReg a x).EddyFaulted r :=
  h.keeps (n := 0) (v := Port.unseen) ((State.Keeps.start h.regs_wf h.ports_wf).setReg (List.mem_singleton_self (wholeReg a)))
    (by simpa using Fld.apart_iff.2 fun hreg => absurd hreg ha) rfl

theorem event {code : Nat} {nums : List Nat} {o : Origin} (h : t.EddyFaulted r) (hcode : code / 256 < 16 := by decide) :
    (t.event code nums o).EddyFaulted r :=
  h.keeps (n := 0) (v := Port.unseen) (.event (fun _ hf => hf) (.start h.regs_wf h.ports_wf) hcode) logFields_apart_eddyFault
    (congrArg Ledger.nextSweep (State.Signals.event .start).ledger_eq)

theorem fire (h : t.EddyFaulted r) : (t.fire k).EddyFaulted r :=
  h.keeps (.fire (.start h.regs_wf h.ports_wf)) (guardFields_apart_eddyFault 0)
    (congrArg Ledger.nextSweep (State.Signals.fire .start).ledger_eq)

/-! ### The action of a failure -/

section
variable {cls obj act : Nat} {delta : Int} {terms : List Nat} {f : State → State} {l : List LedgerFail}

theorem withFails (h : t.EddyFaulted r) : (t.withFails l).EddyFaulted r := h.same rfl rfl rfl

theorem ledgerDone (h : t.EddyFaulted r) : (t.ledgerDone cls obj).EddyFaulted r := h.same rfl rfl rfl

/-- A failure of another class is noted in other bits. -/
theorem faultNoted (hcls : 1 < cls) (h : t.EddyFaulted r) : (t.faultNoted cls obj delta terms act).EddyFaulted r := by
  have hapart : Fld.apart ⟨LG_EVT, cls - 1, 1⟩ eddyFault = true := Fld.apart_iff.2 fun _ => .inr (by simp only [eddyFault]; omega)
  exact .event (.wrField hapart (.setReg (by decide) (.setReg (by decide) (.setReg (by decide) h))))

/-- An equation of another class that fails keeps what its action keeps (R256). -/
theorem failed (hcls : 1 < cls) (hf : ∀ t, t.EddyFaulted r → (f t).EddyFaulted r) (h : t.EddyFaulted r) :
    (t.failed cls obj delta terms act f).EddyFaulted r := by
  obtain hsame | ⟨l, hnoted⟩ | ⟨l, hacts⟩ := t.failed_cases cls obj delta terms act f
  · rw [hsame]
    exact h
  · rw [hnoted]
    exact h.withFails.faultNoted hcls
  · rw [hacts]
    exact hf _ (h.withFails.faultNoted hcls).fire

end

/-- A recount is asked for. -/
theorem recountAsk (h : t.EddyFaulted r) : t.recountAsk.EddyFaulted (some true) := ⟨h.regs_wf, h.ports_wf, h.shown, rfl⟩

/-! ### Credits (R316, R317) -/

section
variable {l v fuel sent returned : Nat}

theorem pump (h : t.EddyFaulted r) : (t.pump l fuel).EddyFaulted r := by
  induction fuel generalizing t with
  | zero => exact h
  | succ fuel ih =>
    unfold State.pump
    split
    case h_1 => exact h
    case h_2 v _ _ =>
      obtain ⟨hcount, -, -, hcredit⟩ := linkRegs_ne_ledger l v
      dsimp only
      split
      case h_1 => exact h
      case h_2 => exact ih (.same (.setReg hcount (.setReg hcredit (h.same (u := State.setLink t l _) rfl rfl rfl))) rfl rfl rfl)

theorem resyncVc (h : t.EddyFaulted r) : (t.resyncVc l v).EddyFaulted r := by
  obtain ⟨-, hcount, hevt, hcredit⟩ := linkRegs_ne_ledger l v
  have hcleared : ∀ k, (t.setLink l k).EddyFaulted r := fun _ => h.same rfl rfl rfl
  exact .pump (.same (.setReg hevt (.setReg hcount (.setReg hcredit (hcleared _)))) rfl rfl rfl)

theorem checkCredits (h : t.EddyFaulted r) : (t.checkCredits l v sent returned).EddyFaulted r := by
  obtain hsame | ⟨delta, terms, hfailed⟩ := t.checkCredits_cases l v sent returned
  · rw [hsame]
    exact h
  · rw [hfailed]
    exact h.failed (by decide) fun _ ht => ht.resyncVc.ledgerDone

theorem checkLinks (h : t.EddyFaulted r) : t.checkLinks.EddyFaulted r := .foldl _ (fun _ _ _ ht => .ite ht.checkCredits ht) h

end

/-! ### Completion rings and tags (R255, R259) -/

theorem checkRing (h : t.EddyFaulted r) : (t.checkRing n).EddyFaulted r :=
  .ite h (.ledgerDone (h.failed (by decide) fun _ ht => ht.same rfl rfl rfl))

theorem hold {x : Completion} (h : t.EddyFaulted r) : (t.hold x).EddyFaulted r := by
  have hheld : ∀ y : HostIf, ({ t with host := y } : State).EddyFaulted r := fun _ => h.same rfl rfl rfl
  exact .ite (hheld _) (.ite (.event (.wrField (by decide) (.setReg (by decide) (hheld _)))) (hheld _))

theorem recountTags (h : t.EddyFaulted r) : t.recountTags.EddyFaulted r :=
  .foldl _ (fun _ _ _ ht => ht.hold) (h.same rfl rfl rfl)

theorem checkTags (h : t.EddyFaulted r) : t.checkTags.EddyFaulted r := by
  have hfailed : ∀ obj delta terms, (t.failed 6 obj delta terms 4 State.recountTags).EddyFaulted r := fun _ _ _ =>
    h.failed (by decide) fun _ ht => ht.recountTags
  exact .ite (hfailed _ _ _).ledgerDone (.ite (hfailed _ _ _).ledgerDone h)

/-! ### Slots that are forfeited (R28) -/

/-- A port that is forfeited changes its schedule and what the guardian finds up to it. -/
theorem forfeit (hn : n < 16) (h : t.EddyFaulted r) : (t.forfeit n).EddyFaulted r := by
  have hwithdrawn : (t.withdraw n).EddyFaulted r :=
    h.keeps (.setTw (.lowerDe (.start h.regs_wf h.ports_wf))) (guardFields_apart_eddyFault ⟨n, hn⟩)
      (congrArg Ledger.nextSweep (State.HasLedger.start.withdraw).ledger_eq)
  have hdown : (if t.twRuns n ∧ (t.port n).de then t.withdraw n else t).EddyFaulted r := .ite hwithdrawn h
  exact .ite h (.event (hdown.same rfl rfl rfl))

theorem checkSlots (hn : n < 16) (h : t.EddyFaulted r) : (t.checkSlots n).EddyFaulted r :=
  .ite h.ledgerDone (h.failed (by decide) fun _ ht => ht.forfeit hn)

/-! ### The pools (R254) -/

/-- A failure of another pool or of their sum asks for a recount too. -/
theorem failed_recountAsk {cls obj act : Nat} {delta : Int} {terms : List Nat} (hcls : 1 < cls) (h : t.EddyFaulted (some true)) :
    (t.failed cls obj delta terms act State.recountAsk).EddyFaulted (some true) := h.failed hcls fun _ ht => ht.recountAsk

theorem checkOnChip (h : t.EddyFaulted (some true)) : (t.checkPool .onChip).EddyFaulted (some true) :=
  .ite h (h.failed_recountAsk (by decide))

theorem checkSum {k : PoolKind} (h : t.EddyFaulted (some true)) : (t.checkSum k).EddyFaulted (some true) :=
  .ite h (h.failed_recountAsk (by decide))

end
end State.EddyFaulted

/-- Pool 1 out of balance is a failure of class 1, which asks for a recount (R254 to R257). -/
theorem State.checkEddy_faulted {s : State} (hregs : tabWf regReset s.regs = true) (hports : tabWf Port.reset s.ports = true)
    (hfails : s.ledger.fails = [])
    (h : s.ledger.eddy.free + s.ledger.eddy.held + s.ledger.eddy.flight + s.ledger.eddy.reclaim ≠ s.ledger.eddy.total) :
    (s.checkPool .eddy).EddyFaulted (some true) := by
  have hshown : ∀ fs obj delta, ((s.withFails fs).faultShown 1 obj delta).EddyFaulted s.ledger.nextSweep := fun _ _ _ =>
    have hwf : ∀ v w, tabWf regReset (((s.setReg LG_FAULT0 v).setReg LG_FAULT1 w).inc LG_CNT_FAULT).regs = true := fun _ _ =>
      setReg_wf _ _ (setReg_wf _ _ (setReg_wf _ _ hregs))
    ⟨setReg_wf _ _ (hwf _ _), hports, bit_on (hwf _ _) (f := eddyFault) (by decide) rfl, rfl⟩
  have hfailed : s.checkPool .eddy = s.failed 1 0 _ _ 1 State.recountAsk := if_neg h
  rw [hfailed, State.failed_of_new _ _ _ _ _ _ _ (by rw [hfails]; rfl)]
  exact .recountAsk (.fire (.event (hshown _ _ _)))

end Sys2Proof.Machine
end

section
/-!
SUPPORT. The statement of 07_eddy_store.md on the ledger: a sound one, one whose pool 1 is out of balance, the sweep, the snapshot of the terms, and
transfers that bounce (R254 to R260, R266).
-/
namespace Sys2Proof.Machine

/-! ## A sound ledger (R254) -/

theorem foldl_fixed_of_mem {α β : Type} {f : β → α → β} {b : β} (l : List α) (h : ∀ a ∈ l, f b a = b) : l.foldl f b = b :=
  List.foldlRecOn (motive := fun x => x = b) l f rfl fun x hx a ha => by rw [hx, h a ha]

section
variable {s : State}

theorem State.checkPool_of_balanced {k : PoolKind}
    (h : (s.ledger.pool k).free + (s.ledger.pool k).held + (s.ledger.pool k).flight + (s.ledger.pool k).reclaim = (s.ledger.pool k).total) :
    s.checkPool k = s := if_pos h

theorem State.checkSum_of_eq {k : PoolKind} (h : (s.queues.map (fun e => e.2.ledgerOf k)).sum = (s.ledger.pool k).held) :
    s.checkSum k = s := if_pos h

theorem State.checkLinks_of_none_up (h : ∀ l < 4, s.linkState l ≠ lkUp) : s.checkLinks = s :=
  foldl_fixed_of_mem _ fun i hi => if_neg (h (i / 4) (by have := List.mem_range.1 hi; omega))

theorem State.checkRing_of_room {n : Nat} (h : (s.cq n).written + (s.cq n).reserved ≤ s.cqSize n) : s.checkRing n = s :=
  if_pos (by omega)

theorem State.checkTags_of_sound (hlive : (s.ledger.tags.length : Int) = (s.ledger.issued : Int) - s.ledger.completed)
    (hfree : s.ledger.tagsFree + s.ledger.tags.length = 4096) : s.checkTags = s := by
  simp [State.checkTags, hlive, hfree]

/-- No action ends where none runs. -/
theorem State.ledgerDone_of_no_fails (h : s.ledger.fails = []) (cls obj : Nat) : s.ledgerDone cls obj = s := by
  have hfails : s.ledger.fails.filter (fun f => !(f.cls == cls && f.obj == obj)) = s.ledger.fails := by rw [h]; rfl
  rw [State.ledgerDone, hfails]

theorem State.checkSlots_of_audit {n : Nat} (hfails : s.ledger.fails = []) (h : s.slotAudit n = true) : s.checkSlots n = s :=
  (if_pos h).trans (ledgerDone_of_no_fails hfails 7 n)

end

/-! ## The sweep (R257) -/

theorem Pool.back_reclaim (p : Pool) (ch : Bool) (n : Nat) : (p.back ch n).reclaim = p.reclaim := by
  cases ch <;> rfl

theorem State.sweptPool_reclaim (s : State) (k : PoolKind) (recount : Bool) : (s.sweptPool k recount).reclaim = 0 := by
  cases recount <;> simp [State.sweptPool, Pool.back_reclaim]

/-! ## The snapshot of the terms (R266) -/

section
variable {s : State}

theorem State.ledgerCtrl_recount (h : s.runs .core = true) : s.ledgerCtrl 2 = s.recountAsk := by
  simp [State.ledgerCtrl, h, State.recountAsk]

theorem State.ledgerCtrl_snap (h : s.runs .core = true) : s.ledgerCtrl 1 = s.snapTerms := by
  simp [State.ledgerCtrl, h]

theorem State.snapPool_wf (h : tabWf regReset s.regs = true) (base : Nat) (k : PoolKind) : tabWf regReset (s.snapPool base k).regs = true :=
  setReg_wf _ _ (setReg_wf _ _ (setReg_wf _ _ (setReg_wf _ _ (setReg_wf _ _ (setReg_wf _ _ h)))))

theorem State.snapTerms_wf (h : tabWf regReset s.regs = true) : tabWf regReset s.snapTerms.regs = true :=
  setReg_wf _ _ (setReg_wf _ _ (setReg_wf _ _ (setReg_wf _ _ (setReg_wf _ _ (snapPool_wf (snapPool_wf h _ _) _ _)))))

theorem State.snapTerms_ports (s : State) : s.snapTerms.ports = s.ports := by
  simp only [State.snapTerms, State.snapPool, State.setPair, State.setReg_ports]

theorem State.snapTerms_tagOut (h : tabWf regReset s.regs = true) :
    s.snapTerms.reg LG_TAG_OUT = BitVec.ofNat 32 s.ledger.tags.length := by
  simp (disch := decide) only [State.snapTerms, State.setPair, reg_setReg_ne]
  exact reg_setReg_same (snapPool_wf (snapPool_wf h _ _) _ _) _ _

theorem State.snapTerms_eddyTotal (h : tabWf regReset s.regs = true) :
    s.snapTerms.reg LG_E_TOTAL = BitVec.ofNat 32 s.ledger.eddy.total := by
  simp (disch := decide) only [State.snapTerms, State.snapPool, State.setPair, reg_setReg_ne]
  exact reg_setReg_same h _ _

end

theorem logFields_apart_terms :
    logFields.all (fun f => f.apart (wholeReg LG_TAG_OUT)) = true ∧ logFields.all (fun f => f.apart (wholeReg LG_E_TOTAL)) = true ∧
    logFields.all (fun f => f.apart (wholeReg LG_CNT_BOUNCE)) = true ∧ logFields.all (fun f => f.apart LG_EVT.BOUNCE) = true := by
  decide +kernel

/-! ## Bounced transfers (R260) -/

section
variable {s : State} (u : DownUnit) (n : Nat)

/-- The state in which n bounced transfers are counted and shown. -/
def State.bounceShown (s : State) (n : Nat) : State := (s.incBy LG_CNT_BOUNCE n).on LG_EVT.BOUNCE

/-- The state that lists unit u with those whose power-down has its event. -/
def State.bounceListed (s : State) (u : DownUnit) : State :=
  { s with ledger := { s.ledger with bounced := s.ledger.bounced ++ [u] } }

theorem State.bounceShown_spec (hregs : tabWf regReset s.regs = true) :
    (s.bounceShown n).reg LG_CNT_BOUNCE = BitVec.ofNat 32 (sat32 ((s.reg LG_CNT_BOUNCE).toNat + n)) ∧
    (s.bounceShown n).bit LG_EVT.BOUNCE = true :=
  ⟨(reg_wr_ne (by decide) 1).trans (reg_setReg_same hregs _ _), bit_on (setReg_wf _ _ hregs) (by decide) rfl⟩

/-- Transfers that bounce are counted and shown, and the first for a unit has its event. -/
theorem State.bounce_cases :
    s.ledger.bounced.contains u = true ∧ s.bounce u n = s.bounceShown n ∨
    ∃ nums, s.bounce u n = ((s.bounceShown n).bounceListed u).event Ev.DOMAIN_BOUNCE nums := by
  cases hlisted : s.ledger.bounced.contains u with
  | true => exact .inl ⟨rfl, if_pos hlisted⟩
  | false => exact .inr ⟨_, if_neg (by rw [hlisted]; decide)⟩

theorem State.bounce_spec (hregs : tabWf regReset s.regs = true) (hports : tabWf Port.reset s.ports = true) :
    (s.bounce u n).reg LG_CNT_BOUNCE = BitVec.ofNat 32 (sat32 ((s.reg LG_CNT_BOUNCE).toNat + n)) ∧
    (s.bounce u n).bit LG_EVT.BOUNCE = true ∧ (s.bounce u n).ledger.bounced.contains u = true := by
  obtain ⟨hcount, hshown⟩ := State.bounceShown_spec n hregs
  obtain ⟨hlisted, hbounce⟩ | ⟨nums, hbounce⟩ := s.bounce_cases u n
  · rw [hbounce]
    exact ⟨hcount, hshown, hlisted⟩
  · have hkeeps : ((s.bounceShown n).bounceListed u).Keeps logFields 0 Port.unseen (s.bounce u n) := by
      rw [hbounce]
      exact .event (fun _ hf => hf) (.start (setReg_wf _ _ (setReg_wf _ _ hregs)) hports)
    have hledger : (s.bounce u n).ledger = ((s.bounceShown n).bounceListed u).ledger := by
      rw [hbounce]
      exact (State.Signals.event .start).ledger_eq
    obtain ⟨-, -, hcountApart, hshownApart⟩ := logFields_apart_terms
    refine ⟨(hkeeps.reg_eq hcountApart).trans hcount, (hkeeps.bit_eq hshownApart).trans hshown, ?_⟩
    rw [hledger]
    simp [State.bounceListed, State.bounceShown]

end

/-! ## The statement -/

section
variable {s : State}

/-- A check in which no equation changes anything changes nothing. -/
theorem ledgerCheck_of_fixed (hcore : s.runs .core = true) (hpools : ∀ k, s.checkPool k = s) (hsums : ∀ k, s.checkSum k = s)
    (hlinks : s.checkLinks = s) (hrings : ∀ n < 64, s.checkRing n = s) (htags : s.checkTags = s)
    (hslots : ∀ n < 16, s.checkSlots n = s) : exec .ledgerCheck s = .next s := by
  have hring : (List.range 64).foldl State.checkRing s = s := foldl_fixed_of_mem _ fun n hn => hrings n (List.mem_range.1 hn)
  have hslot : (List.range 16).foldl State.checkSlots s = s := foldl_fixed_of_mem _ fun n hn => hslots n (List.mem_range.1 hn)
  show execLedgerCheck s = .next s
  rw [execLedgerCheck, if_neg (by rw [hcore]; decide)]
  simp only [hpools, hsums, hlinks, hring, htags, hslot]

theorem ledgerCheck_faulted (hcanon : s.canon = true) (hcore : s.runs .core = true) (hfails : s.ledger.fails = [])
    (h : s.ledger.eddy.free + s.ledger.eddy.held + s.ledger.eddy.flight + s.ledger.eddy.reclaim ≠ s.ledger.eddy.total) :
    Completes .ledgerCheck s fun t => t.regBit LG_EVT 0 = true ∧ t.ledger.nextSweep = some true := by
  have heddy := State.checkEddy_faulted (State.regs_wf_of_canon hcanon) (State.ports_wf_of_canon hcanon) hfails h
  have hpools : (((s.checkPool .eddy).checkPool .onChip).checkSum .eddy |>.checkSum .onChip).EddyFaulted (some true) :=
    heddy.checkOnChip.checkSum.checkSum
  have hrings : ((List.range 64).foldl State.checkRing (State.checkLinks _)).EddyFaulted (some true) :=
    .foldl _ (fun _ _ _ ht => ht.checkRing) hpools.checkLinks
  have hall : ((List.range 16).foldl State.checkSlots (State.checkTags _)).EddyFaulted (some true) :=
    .foldl _ (fun _ _ hn ht => ht.checkSlots (List.mem_range.1 hn)) hrings.checkTags
  refine completes_of_next (c := .ledgerCheck) (if_neg (by rw [hcore]; decide)) ⟨?_, hall.asked⟩
  exact (bit_eq_getLsbD (f := eddyFault) rfl _).symm.trans hall.shown

theorem sweepStart_completes {r : Bool} (hnext : s.ledger.nextSweep = some r) (hnone : s.ledger.sweep = none) (hcore : s.runs .core = true) :
    Completes .sweepStart s fun t => t.ledger.sweep = some r ∧ t.ledger.nextSweep = none := by
  refine completes_of_next (t := { s with ledger := { s.ledger with sweep := some r, nextSweep := none } }) ?_ ⟨rfl, rfl⟩
  show execSweepStart s = _
  simp [execSweepStart, hcore, hnone, hnext]

/-- A sweep that ends leaves its record after the pools it has passed, and finds anew which queues are full (R257). -/
theorem sweepDone_next {recount : Bool} (hcore : s.runs .core = true) (hsweep : s.ledger.sweep = some recount)
    (hwait : s.ledger.createWait = []) : ∃ u, (s.swept recount).Signals u ∧ exec .sweepDone s = .next u.refreshFull := by
  show ∃ u, _ ∧ execSweepDone s = _
  rw [execSweepDone, if_pos hcore, hsweep, hwait]
  exact ⟨_, .ite (.event (.on .start)) .start, rfl⟩

theorem sweepDone_completes (hsweep : s.ledger.sweep.isSome = true) (hwait : s.ledger.createWait = []) (hcore : s.runs .core = true) :
    Completes .sweepDone s fun t =>
      t.ledger.awaiting = [] ∧ t.ledger.sweep = s.ledger.nextSweep ∧ t.ledger.onChip.reclaim = 0 := by
  obtain ⟨recount, hrecount⟩ := Option.isSome_iff_exists.1 hsweep
  obtain ⟨u, hu, hnext⟩ := sweepDone_next hcore hrecount hwait
  refine completes_of_next hnext ?_
  rw [((State.HasLedger.start (s := u)).refreshFull).ledger_eq, hu.ledger_eq]
  exact ⟨rfl, rfl, s.sweptPool_reclaim .onChip recount⟩

theorem recount_completes (o : Origin) (hcore : s.runs .core = true) :
    Completes (.recount o) s fun t => t.ledger.nextSweep = some true := by
  have htold : s.recountAsk.Signals (s.recountAsk.configWrite o LG_CTRL 2 0) := .configWrite .start
  refine completes_of_next (t := s.recountAsk.configWrite o LG_CTRL 2 0) ?_ (congrArg Ledger.nextSweep htold.ledger_eq)
  show execRecount o s = _
  rw [execRecount, State.ledgerCtrl_recount hcore]

theorem ledgerSnap_completes (o : Origin) (hcanon : s.canon = true) (hcore : s.runs .core = true) :
    Completes (.ledgerSnap o) s fun t =>
      t.reg LG_TAG_OUT = BitVec.ofNat 32 s.ledger.tags.length ∧ t.reg LG_E_TOTAL = BitVec.ofNat 32 s.ledger.eddy.total := by
  have hregs := State.regs_wf_of_canon hcanon
  have hkeeps : s.snapTerms.Keeps logFields 0 Port.unseen (s.snapTerms.configWrite o LG_CTRL 1 0) :=
    .configWrite (fun _ hf => hf) (.start (State.snapTerms_wf hregs) (s.snapTerms_ports.symm ▸ State.ports_wf_of_canon hcanon))
  obtain ⟨htags, htotal, -, -⟩ := logFields_apart_terms
  refine completes_of_next (t := s.snapTerms.configWrite o LG_CTRL 1 0) ?_
    ⟨(hkeeps.reg_eq htags).trans (State.snapTerms_tagOut hregs), (hkeeps.reg_eq htotal).trans (State.snapTerms_eddyTotal hregs)⟩
  show execLedgerSnap o s = _
  rw [execLedgerSnap, State.ledgerCtrl_snap hcore]

/-- Where no cluster's calls wait at its gate, a bounce is that of the transfers alone. -/
theorem exec_domainBounce {u : DownUnit} (waiting : BitVec 32) (h : ∀ k : Fin 12, u = .cluster k → s.bit (CL_CTRL.PWR_OFF k) = false) :
    exec (.domainBounce u waiting) s = .next (s.bounce u waiting.toNat) := by
  cases u with
  | cluster k => exact if_neg (by rw [h k rfl]; decide)
  | netPort k => rfl
  | bank b => rfl
  | chainDevice d => rfl

end

/-- Settles O23: a sound ledger is checked without a change; a failure of pool 1 stays shown, and its recount asked for, through the checks
that follow it. -/
theorem ledgerComplete : Obligations.LedgerComplete := by
  unfold Obligations.LedgerComplete
  refine ⟨?sound, ?unsound, ?sweepStart, ?sweepDone, ?recount, ?snap, ?bounce⟩
  case sound =>
    intro s hcanon ⟨hcore, hfails⟩ heddy honChip ⟨hsumE, hsumO⟩ ⟨hlinks, hrings⟩ ⟨hlive, hfree⟩ hslots
    simp only [List.all_eq_true, List.mem_range, bne_iff_ne, decide_eq_true_eq] at hlinks hrings hslots
    have hpools : ∀ k, s.checkPool k = s := fun
      | .eddy => State.checkPool_of_balanced heddy
      | .onChip => State.checkPool_of_balanced honChip
    have hsums : ∀ k, s.checkSum k = s := fun
      | .eddy => State.checkSum_of_eq hsumE
      | .onChip => State.checkSum_of_eq hsumO
    exact completes_of_next (ledgerCheck_of_fixed hcore hpools hsums (State.checkLinks_of_none_up hlinks)
      (fun n hn => State.checkRing_of_room (hrings n hn)) (State.checkTags_of_sound hlive hfree)
      (fun n hn => State.checkSlots_of_audit hfails (hslots n hn))) rfl
  case unsound => exact fun s hcanon ⟨hcore, hfails⟩ h => ledgerCheck_faulted hcanon hcore hfails h
  case sweepStart => exact fun s _ r hnext ⟨hnone, hcore⟩ => sweepStart_completes hnext hnone hcore
  case sweepDone => exact fun s _ ⟨hsweep, hwait, hcore⟩ => sweepDone_completes hsweep hwait hcore
  case recount => exact fun s o _ hcore => recount_completes o hcore
  case snap => exact fun s o hcanon hcore => ledgerSnap_completes o hcanon hcore
  case bounce =>
    exact fun s u waiting hcanon hopen => completes_of_next (exec_domainBounce waiting hopen)
      (State.bounce_spec u waiting.toNat (State.regs_wf_of_canon hcanon) (State.ports_wf_of_canon hcanon))

end Sys2Proof.Machine
end

section
/-!
SUPPORT. The statement on the values of the state after reset, which asks for a live field in the stored register (R271, R280, R301).
-/
namespace Sys2Proof.Machine

/-- QUALITY is a live field of TB_STAT (R280, R301): a read takes it from the time base, where it is 5 after reset. The register as
stored holds 0 there. -/
theorem rd_quality_reset : State.reset.rd TB_STAT.QUALITY = 0 := by decide +kernel

/-- Refutes O2: its first clause has the stored register hold FREE_UNSET after reset. -/
theorem not_resetLeavesTheStatedValues : ¬ Obligations.ResetLeavesTheStatedValues := by
  unfold Obligations.ResetLeavesTheStatedValues
  rintro ⟨⟨-, hquality⟩, -⟩
  exact absurd (rd_quality_reset.symm.trans hquality) (by decide)

end Sys2Proof.Machine
end

section
/-!
SUPPORT. Statements of 08_time_base.md that fail in some canonical state, each with that state: a slew that the rate leaves no room, an output
whose subsystem is reloaded, and a forwarded word with an error of a memory that does not exist.
-/
namespace Sys2Proof.Machine

/-! ## A slew that pauses (R272, R278) -/

/-- A slew pauses while the rate leaves it no room in the range of R272. -/
theorem execSlewDone_of_no_room {s : State} (hslew : s.time.slew ≠ 0) (hroom : s.slewStep = 0) : execSlewDone s = .next s := by
  simp [execSlewDone, hslew, hroom]

/-- A device whose rate A is the largest that R272 allows, with a forward slew in progress. -/
def pausedSlew : State :=
  { State.reset.setReg TB_ADDEND 0x7FFFFFFF with time := { slew := unit32, slewing := true } }

theorem exec_slewDone_pausedSlew : exec .slewDone pausedSlew = .next pausedSlew :=
  execSlewDone_of_no_room (s := pausedSlew) (by decide) (by decide +kernel)

/-- Refutes O24: its last clause has every slew of a fine count end, but one that the rate A leaves no room pauses (R272, R278): in pausedSlew
the whole slew remains. -/
theorem not_timeCorrectionsComplete : ¬ Obligations.TimeCorrectionsComplete := by
  unfold Obligations.TimeCorrectionsComplete
  rintro ⟨-, -, -, -, -, -, -, hdone⟩
  obtain ⟨t, hexec, hslew, -⟩ := hdone pausedSlew (by decide +kernel) ⟨rfl, by decide +kernel⟩
  have hsame : pausedSlew = t := Host.Outcome.next.inj (exec_slewDone_pausedSlew.symm.trans hexec)
  rw [← hsame] at hslew
  exact absurd hslew (by decide)

/-! ## A setting that waits for a reload (R32, R291) -/

/-- During a reload of the time base APPLY waits for its end. -/
theorem execTpoApply_of_reloading {s : State} {i : Fin 8} (o : Origin) (h : s.reloading (TPO_CTRL i) = true) :
    execTpoApply o i s = .next (s.lateWrite o (TPO_CTRL i) 1) := if_pos h

/-- A commit that has still to bring section 9, the time base's, to its boundary (R490). -/
def timeCommit : Commit where
  load := { org := .host, code := ownerCode .host, src := .stream, len := 0 }
  image := []
  first := false
  todo := [9]

/-- A device in that commit, with TRAIN staged for output 0. -/
def timeReload : State :=
  { State.reset.setReg (TPO_CFG 0) 1 with cfg := { commit := some timeCommit } }

/-- Refutes O26: its second clause has APPLY take the staged setting wherever no pulse is active, but during a reload of the time base it waits
(R32): in timeReload output 0 stays OFF. -/
theorem not_timeInputsAndOutputsComplete : ¬ Obligations.TimeInputsAndOutputsComplete := by
  unfold Obligations.TimeInputsAndOutputsComplete
  rintro ⟨-, happly, -⟩
  obtain ⟨t, hexec, hcfg, -⟩ := happly timeReload .host 0 (by decide +kernel) rfl
  have hwaits : timeReload.lateWrite .host (TPO_CTRL 0) 1 = t :=
    Host.Outcome.next.inj ((execTpoApply_of_reloading (i := 0) .host (by decide +kernel)).symm.trans hexec)
  rw [← hwaits] at hcfg
  exact absurd hcfg (by decide +kernel)

/-! ## A forwarded word with an error of a memory that the device does not have (R329, R652) -/

/-- A device whose clocks run and whose queue 0 forwards to device 1. Its one word carries a correctable error of memory 4: the memories that
an injection names are 0 to 3 (R652), and the canonical form of a state says nothing of the number. -/
def hurtForwarder : State :=
  { State.reset with
    stopped := {}
    queues := [(0, { ex := true, cfg := { w4 := 0x80010000 }, words := [{ data := 0x41 }], head := 1, hurt := [(0, 4, false)] })] }

/-- The forwarder pops the word, and counts the error in the copy of DDR_CNT_CE that channel 2 would have. -/
theorem forwardSend_hurtForwarder : ∃ t, exec (.forwardSend 0) hurtForwarder = .next t ∧ t.reg (DDR_CNT_CE 2) = 1 :=
  ⟨_, rfl, by decide +kernel⟩

/-- Refutes O57: the frame of FORWARD_SEND lists the counters of two DRAM channels, and a canonical state can name a third. -/
theorem not_timeAndChainFrames : ¬ Obligations.TimeAndChainFrames := by
  unfold Obligations.TimeAndChainFrames
  rintro ⟨-, -, -, -, -, -, -, -, -, -, -, -, -, -, -, -, -, -, -, -, -, -, -, -, -, -, -, -, -, -, -, -, -, -, -, -, -, hsend, -⟩
  obtain ⟨t, hexec, hcount⟩ := forwardSend_hurtForwarder
  obtain ⟨-, hregs, -⟩ := hsend 0 hurtForwarder t (by decide +kernel) hexec
  have hkept := hregs (DDR_CNT_CE 2) (by decide +kernel)
  rw [hcount] at hkept
  exact absurd hkept (by decide +kernel)

end Sys2Proof.Machine
end

section
/-!
SUPPORT. What a change of the time base's source changes (R276, R281).
-/
namespace Sys2Proof.Machine

/-! ## A change of the source, step by step -/

/-- The state in which source c is shown as the one selected. -/
def State.sourceShown (s : State) (c : Nat) : State := ((s.inc TB_CNT_SRCSW).on TB_EVT.SRC_CHANGE).wr TB_STAT.SRC_SEL c

/-- The state in which source c is selected after old, with the event of the change. -/
def State.sourceTold (s : State) (old c : Nat) : State :=
  ({ s.sourceShown c with time := { s.time with first := false, ever := s.time.ever || c != 0 } } : State).event Ev.TB_SRC_CHANGE [old, c]

theorem State.selectSource_of_ne (s : State) {c : Nat} (h : c ≠ 0) :
    s.selectSource c = (s.dropStep.dropSlew.sourceTold (s.rd TB_STAT.SRC_SEL) c).off TB_STAT.HOLDOVER := by
  simp only [State.selectSource, ne_eq, h, not_false_eq_true, if_true]
  rfl

theorem State.selectSource_zero (s : State) : s.selectSource 0 =
    if (s.sourceTold (s.rd TB_STAT.SRC_SEL) 0).srcList.isEmpty then s.sourceTold (s.rd TB_STAT.SRC_SEL) 0
    else (s.sourceTold (s.rd TB_STAT.SRC_SEL) 0).enterHoldover := rfl

/-- The state in holdover at rate a, with the event of the entry. -/
def State.holdoverTold (s : State) (a : Int) : State :=
  (((({ s with time := { s.time with hoSince := s.time.tick, hoFired := false } } : State).on TB_STAT.HOLDOVER).on TB_EVT.HOLDOVER).setReg
    TB_HO_ADDEND (BitVec.ofInt 32 a)).setAddend a |>.event Ev.TB_HOLDOVER []

theorem State.enterHoldover_eq (s : State) : s.enterHoldover =
    if (s.holdoverTold (meanOr (s.rdInt TB_ADDEND) s.time.samples)).rd TB_HOLDOVER.LIMIT_S = 0
    then (s.holdoverTold (meanOr (s.rdInt TB_ADDEND) s.time.samples)).expireHoldover
    else s.holdoverTold (meanOr (s.rdInt TB_ADDEND) s.time.samples) := rfl

/-- The selection rules end in holdover's bit off, in holdover, or in nothing more than the selection (R276). -/
theorem State.reselect_cases (s : State) : ∃ t, (t = s ∨ ∃ c, t = s.selectSource c) ∧
    (s.reselect = t.off TB_STAT.HOLDOVER ∨ s.reselect = t.enterHoldover ∨ s.reselect = t) := by
  unfold State.reselect
  extract_lets sel l stays want t
  have ht : t = s ∨ ∃ c, t = s.selectSource c := by
    by_cases hsame : want = sel
    · exact .inl (if_pos hsame)
    · exact .inr ⟨want, if_neg hsame⟩
  refine ⟨t, ht, ?_⟩
  split_ifs
  · exact .inl rfl
  · exact .inr (.inl rfl)
  · exact .inr (.inr rfl)

/-! ## What it keeps -/

/-- What a change of the source writes: the log's fields, and registers of the time base. -/
def sourceFields : List Fld := logFields ++ [TB_STAT, TB_EVT, TB_ADDEND, TB_HO_ADDEND, TB_CNT_SRCSW].map wholeReg

theorem logFields_subset_sourceFields : logFields ⊆ sourceFields := fun _ hf => by simp [sourceFields, hf]

theorem mem_sourceFields : ∀ a ∈ [TB_STAT, TB_EVT, TB_ADDEND, TB_HO_ADDEND, TB_CNT_SRCSW], wholeReg a ∈ sourceFields := fun _ ha =>
  List.mem_append_right _ (List.mem_map_of_mem ha)

theorem sourceFields_apart_srcstat : sourceFields.all (fun f => f.apart (wholeReg TB_SRCSTAT)) = true := by decide +kernel

namespace State.Keeps
section
variable {n c old : Nat} {a : Int} {v : Port → Port} {s t : State}

theorem sourceTold (h : s.Keeps sourceFields n v t) : s.Keeps sourceFields n v (t.sourceTold old c) := by
  have hshown : s.Keeps sourceFields n v (t.sourceShown c) :=
    .wr (.on (.inc h (mem_sourceFields _ (by simp))) (mem_sourceFields TB_EVT (by simp))) (mem_sourceFields TB_STAT (by simp))
  exact .event logFields_subset_sourceFields (hshown.same rfl rfl)

theorem expireHoldover (h : s.Keeps sourceFields n v t) : s.Keeps sourceFields n v t.expireHoldover :=
  .event logFields_subset_sourceFields (.on (h.same rfl rfl) (mem_sourceFields TB_EVT (by simp)))

theorem setAddend (h : s.Keeps sourceFields n v t) : s.Keeps sourceFields n v (t.setAddend a) :=
  .setReg (h.same rfl rfl) (mem_sourceFields _ (by simp))

theorem holdoverTold (h : s.Keeps sourceFields n v t) : s.Keeps sourceFields n v (t.holdoverTold a) := by
  have hshown : ∀ y : TimeBase, s.Keeps sourceFields n v ((({ t with time := y } : State).on TB_STAT.HOLDOVER).on TB_EVT.HOLDOVER) :=
    fun _ => .on (.on (h.same rfl rfl) (mem_sourceFields TB_STAT (by simp))) (mem_sourceFields TB_EVT (by simp))
  exact .event logFields_subset_sourceFields (.setAddend (.setReg (hshown _) (mem_sourceFields _ (by simp))))

theorem enterHoldover (h : s.Keeps sourceFields n v t) : s.Keeps sourceFields n v t.enterHoldover := by
  rw [State.enterHoldover_eq]
  exact .ite h.holdoverTold.expireHoldover h.holdoverTold

theorem selectSource (h : s.Keeps sourceFields n v t) : s.Keeps sourceFields n v (t.selectSource c) := by
  by_cases hc : c = 0
  · rw [hc, State.selectSource_zero]
    exact .ite h.sourceTold h.sourceTold.enterHoldover
  · rw [State.selectSource_of_ne _ hc]
    exact .off (.sourceTold (h.same rfl rfl)) (mem_sourceFields TB_STAT (by simp))

theorem reselect (h : s.Keeps sourceFields n v t) : s.Keeps sourceFields n v t.reselect := by
  obtain ⟨u, hu, hend⟩ := t.reselect_cases
  have hselected : s.Keeps sourceFields n v u := by
    obtain rfl | ⟨c, rfl⟩ := hu
    · exact h
    · exact h.selectSource
  obtain hoff | henter | hsame := hend
  · exact hoff ▸ hselected.off (mem_sourceFields TB_STAT (by simp))
  · exact henter ▸ hselected.enterHoldover
  · exact hsame ▸ hselected

end
end State.Keeps

end Sys2Proof.Machine
end

section
/-!
SUPPORT. The sources of the time base in 08_time_base.md: timeouts, the hold-off, holdover and the windows of MONOSC (R274 to R276, R281).
-/
namespace Sys2Proof.Machine

/-! ## A source that times out (R275) -/

theorem regBit_setRegBit_same {s : State} (hregs : tabWf regReset s.regs = true) (a : Nat) {b : Nat} (hb : b < 32) (x : Bool) :
    (s.setRegBit a b x).regBit a b = x :=
  (bit_eq_getLsbD (f := ⟨a, b, 1⟩) rfl _).symm.trans (bit_put hregs (f := ⟨a, b, 1⟩) hb rfl x)

theorem srcValid_setValid_same {s : State} (hregs : tabWf regReset s.regs = true) (src : TimeSrc) (x : Bool) :
    (s.setValid (srcCode src) x).srcValid (srcCode src) = x :=
  regBit_setRegBit_same hregs _ (by cases src <;> decide) x

/-- The selection rules leave the validity of the sources as it is (R276). -/
theorem srcValid_reselect {s : State} (hregs : tabWf regReset s.regs = true) (hports : tabWf Port.reset s.ports = true) (c : Nat) :
    s.reselect.srcValid c = s.srcValid c := by
  have hkeeps : s.Keeps sourceFields 0 Port.unseen s.reselect := .reselect (.start hregs hports)
  rw [State.srcValid, State.regBit, hkeeps.reg_eq sourceFields_apart_srcstat, State.srcValid, State.regBit]

theorem srcValid_reselect_setValid {s : State} (hregs : tabWf regReset s.regs = true) (hports : tabWf Port.reset s.ports = true)
    (src : TimeSrc) (x : Bool) : (s.setValid (srcCode src) x).reselect.srcValid (srcCode src) = x := by
  have hwf : tabWf regReset (s.setValid (srcCode src) x).regs = true := setReg_wf _ _ hregs
  exact (srcValid_reselect hwf hports _).trans (srcValid_setValid_same hregs src x)

/-- Before the selection a timeout changes the time base at most: it forgets the engine's submissions. -/
theorem exec_sourceTimeout (src : TimeSrc) (s : State) : ∃ u : State, u.regs = s.regs ∧ u.ports = s.ports ∧
    exec (.sourceTimeout src) s = .next (u.setValid (srcCode src) false).reselect := by
  by_cases hsrc : src = .engine
  · exact ⟨{ s with time := { s.time with engFresh := false } }, rfl, rfl, by simp only [exec, execSourceTimeout, if_pos hsrc]⟩
  · exact ⟨s, rfl, rfl, by simp only [exec, execSourceTimeout, if_neg hsrc]⟩

section
variable {s : State}

theorem sourceTimeout_completes (hcanon : s.canon = true) (src : TimeSrc) : Completes (.sourceTimeout src) s fun t => t.srcValid (srcCode src) = false := by
  obtain ⟨u, hregs, hports, hnext⟩ := exec_sourceTimeout src s
  exact completes_of_next hnext (srcValid_reselect_setValid (hregs ▸ State.regs_wf_of_canon hcanon)
    (hports ▸ State.ports_wf_of_canon hcanon) src false)

/-! ## A source that replaces a lower one (R276) -/

theorem State.sourceShown_spec (hregs : tabWf regReset s.regs = true) {c : Nat} (hc : c < 8) :
    tabWf regReset (s.sourceShown c).regs = true ∧ (s.sourceShown c).rd TB_STAT.SRC_SEL = c ∧
    (s.sourceShown c).reg TB_CNT_SRCSW = countUp (s.reg TB_CNT_SRCSW) := by
  have hwf : tabWf regReset ((s.inc TB_CNT_SRCSW).on TB_EVT.SRC_CHANGE).regs = true := setReg_wf _ _ (setReg_wf _ _ hregs)
  refine ⟨setReg_wf _ _ hwf, (rd_wr hwf (by decide) c).trans (Nat.mod_eq_of_lt hc), ?_⟩
  rw [State.sourceShown, reg_wr_ne (by decide), State.on, reg_wr_ne (by decide), reg_inc hregs]

theorem sourceHoldoffExpiry_completes (hcanon : s.canon = true) (src : TimeSrc)
    (hselects : s.rd TB_STAT.SRC_SEL ≠ 0 ∧ s.srcList.contains (srcCode src) = true ∧ s.srcValid (srcCode src) = true ∧
      listedBefore s.srcList (srcCode src) (s.rd TB_STAT.SRC_SEL) = true) :
    Completes (.sourceHoldoffExpiry src) s fun t =>
      t.rd TB_STAT.SRC_SEL = srcCode src ∧ t.reg TB_CNT_SRCSW = countUp (s.reg TB_CNT_SRCSW) := by
  obtain ⟨hzero, hcode⟩ : srcCode src ≠ 0 ∧ srcCode src < 8 := by cases src <;> decide
  obtain ⟨hregs, hsel, hcount⟩ := State.sourceShown_spec (State.regs_wf_of_canon hcanon) hcode
  have hports := State.ports_wf_of_canon hcanon
  have hkeeps : (s.sourceShown (srcCode src)).Keeps (TB_STAT.HOLDOVER :: logFields) 0 Port.unseen (s.selectSource (srcCode src)) := by
    rw [State.selectSource_of_ne _ hzero]
    exact .wrField (.event (fun _ hf => List.mem_cons_of_mem _ hf) (.same (.start hregs hports) rfl rfl)) List.mem_cons_self
  exact completes_of_next (if_pos hselects)
    ⟨(hkeeps.rd_eq _ (by decide +kernel)).trans hsel, (hkeeps.reg_eq (by decide +kernel)).trans hcount⟩

/-! ## Holdover that expires (R281) -/

theorem State.expireHoldover_hoFired (s : State) : s.expireHoldover.time.hoFired = true :=
  congrArg TimeBase.hoFired (State.Signals.event .start).time_eq

theorem State.expireHoldover_shown (hregs : tabWf regReset s.regs = true) (hports : tabWf Port.reset s.ports = true) :
    s.expireHoldover.bit TB_EVT.HO_EXPIRED = true := by
  have hkeeps : ∀ y : TimeBase, (({ s with time := y } : State).on TB_EVT.HO_EXPIRED).Keeps logFields 0 Port.unseen
      ((({ s with time := y } : State).on TB_EVT.HO_EXPIRED).event Ev.TB_HO_EXPIRED []) :=
    fun _ => .event (fun _ hf => hf) (.start (setReg_wf _ _ hregs) hports)
  exact ((hkeeps _).bit_eq (by decide +kernel)).trans (bit_on hregs (by decide) rfl)

theorem tbHoExpired_completes (hcanon : s.canon = true) (hholds : s.bit TB_STAT.HOLDOVER = true ∧ s.time.hoFired = false) :
    Completes .tbHoExpired s fun t => t.time.hoFired = true ∧ t.bit TB_EVT.HO_EXPIRED = true := by
  refine completes_of_next (if_pos hholds) ⟨State.expireHoldover_hoFired _, State.expireHoldover_shown ?_ ?_⟩
  · rw [State.advanceTo_regs]
    exact State.regs_wf_of_canon hcanon
  · rw [State.advanceTo_ports]
    exact State.ports_wf_of_canon hcanon

/-! ## Windows of MONOSC (R274) -/

/-- The state whose MONOSC windows are ws. -/
def State.withWindows (s : State) (ws : List Nat) : State := { s with time := { s.time with windows := ws } }

/-- A clean window joins the last 16, and 16 of them make TB_MONCAL. -/
theorem execMoncalWindow_clean (ns : BitVec 32) (hclk : s.bit CK_STAT.REFCLK_OK = true) (hstep : s.time.step = none) (hslew : s.time.slew = 0)
    (hdirty : s.time.dirty = false) : execMoncalWindow ns s = .next
      (if ((ns.toNat :: s.time.windows).take 16).length = 16 then
        (s.withWindows ((ns.toNat :: s.time.windows).take 16)).setReg TB_MONCAL (BitVec.ofNat 32 ((ns.toNat :: s.time.windows).take 16).sum)
      else s.withWindows ((ns.toNat :: s.time.windows).take 16)) := by
  have hcounts : ¬ (s.bit CK_STAT.REFCLK_OK = false ∨ (s.time.step.isSome || s.time.slew != 0) = true) := by simp [hclk, hstep, hslew]
  rw [execMoncalWindow, if_neg hcounts, if_neg (by simp [hdirty]), apply_ite Host.Outcome.next]
  rfl

theorem moncalWindow_completes (hcanon : s.canon = true) (ns : BitVec 32) (hclk : s.bit CK_STAT.REFCLK_OK = true)
    (hstep : s.time.step = none) (hslew : s.time.slew = 0) (hdirty : s.time.dirty = false) : Completes (.moncalWindow ns) s fun t =>
      t.time.windows = (ns.toNat :: s.time.windows).take 16 ∧
      (s.time.windows.length < 15 ∨ t.reg TB_MONCAL = BitVec.ofNat 32 ((ns.toNat :: s.time.windows).take 16).sum) := by
  refine completes_of_next (execMoncalWindow_clean ns hclk hstep hslew hdirty) ?_
  split_ifs with hlen
  · exact ⟨rfl, .inr (reg_setReg_same (State.regs_wf_of_canon hcanon) _ _)⟩
  · refine ⟨rfl, .inl ?_⟩
    rw [List.length_take, List.length_cons] at hlen
    omega

end

/-- Settles O25: a change of the source leaves the validity of the sources alone, and the selection shows the one that is taken. -/
theorem timeSourcesComplete : Obligations.TimeSourcesComplete := by
  unfold Obligations.TimeSourcesComplete
  refine ⟨?timeout, ?holdoff, ?holdover, ?monosc⟩
  case timeout => exact fun s src hcanon => sourceTimeout_completes hcanon src
  case holdoff => exact fun s src hcanon ⟨hsel, hlisted, hvalid⟩ hbefore => sourceHoldoffExpiry_completes hcanon src ⟨hsel, hlisted, hvalid, hbefore⟩
  case holdover => exact fun s hcanon hholds => tbHoExpired_completes hcanon hholds
  case monosc => exact fun s ns hcanon ⟨hclk, hstep, hslew, hdirty⟩ => moncalWindow_completes hcanon ns hclk hstep hslew hdirty

end Sys2Proof.Machine
end

section
/-!
SUPPORT. A statement of 09_sahoz_chain.md that fails in some canonical state, with that state: a forwarder whose groups wait behind a refused
one.
-/
namespace Sys2Proof.Machine

/-- While its groups wait behind a refused one, a forwarder takes no further word (R330). -/
theorem execForwardSend_of_behind {s : State} {q : BitVec 16} (h : (s.queue q.toNat).fwd.behind = true) :
    execForwardSend q s = .next s := by
  simp [execForwardSend, h]

/-- A device whose clocks run and whose queue 0 forwards to device 1. Its first word was refused there, and its second waits. -/
def refusedForwarder : State :=
  { State.reset with
    stopped := {}
    queues := [(0, {
      ex := true, cfg := { w4 := 0x80010000 }, words := [{ data := 0x41 }, { data := 0x42 }], head := 2, rd := 1
      fwd := { groups := [{ seq := 0, pos := 0, words := [{ data := 0x41 }] }], nextSeq := 1, behind := true } })] }

/-- Refutes O31: its first clause has every forwarder with a word to pop send it, but later groups wait behind a refused one (R330): in
refusedForwarder the second word stays. -/
theorem not_forwardingComplete : ¬ Obligations.ForwardingComplete := by
  unfold Obligations.ForwardingComplete
  rintro ⟨hsend, -⟩
  obtain ⟨t, hexec, -, hpopped⟩ := hsend refusedForwarder 0 (by decide +kernel) { data := 0x42 } (by decide +kernel) (by decide +kernel)
    (by decide +kernel)
  have hsame : refusedForwarder = t :=
    Host.Outcome.next.inj ((execForwardSend_of_behind (s := refusedForwarder) (q := 0) (by decide +kernel)).symm.trans hexec)
  rw [← hsame] at hpopped
  exact absurd hpopped (lt_irrefl _)

end Sys2Proof.Machine
end

section
/-!
SUPPORT. What the records of the log leave of the interrupt controller, and what the controller keeps of the lines of members (R533 to R556).
-/
namespace Sys2Proof.Machine

/-! ## Records leave the interrupt controller as it is -/

section
variable (s : State) (c code : Nat) (rs : List (List Word))

theorem State.logRecord_eic (r : List Word) : (s.logRecord r).eic = s.eic := by
  unfold State.logRecord
  dsimp only
  split_ifs <;> rfl

theorem State.forwardCopy_eic (r : List Word) : (s.forwardCopy c r).eic = s.eic := by
  unfold State.forwardCopy
  dsimp only
  split_ifs <;> rfl

theorem State.logSet_eic : (s.logSet c rs).eic = s.eic :=
  List.foldlRecOn (motive := fun t : State => t.eic = s.eic) rs _ rfl fun t ht r _ =>
    ((t.logRecord r).forwardCopy_eic c r).trans ((t.logRecord_eic r).trans ht)

theorem State.pushSet_eic : (s.pushSet c code rs).eic = s.eic := by
  unfold State.pushSet
  dsimp only
  split_ifs
  · exact s.logSet_eic c rs
  · exact (State.logSet_eic _ c rs).trans rfl
  · rfl

theorem State.eventAt_eic (t : Nat) (late : Bool) (o : Origin) (pay : List Word) : (s.eventAt t late code o pay).eic = s.eic := by
  unfold State.eventAt
  dsimp only
  split_ifs
  · exact s.pushSet_eic _ code _
  · rfl
  · rfl

theorem State.event_eic (nums : List Nat) (o : Origin) : (s.event code nums o).eic = s.eic := s.eventAt_eic code _ _ o _

end

/-! ## The lines of members -/

/-- The lines that the members show, as the root knows them (R556). -/
def State.shownLines (s : State) : Tab (BitVec 6) := s.eic.members

section
variable (s : State) (k : Nat)

theorem State.deliver_eic : (s.deliver k).eic = s.eic := by
  unfold State.deliver State.sendMsix
  split_ifs <;> rfl

theorem State.refreshLine_shownLines : (s.refreshLine k).shownLines = s.shownLines := by
  unfold State.refreshLine
  dsimp only
  split_ifs
  · exact (congrArg Eic.members (State.deliver_eic _ k)).trans rfl
  · rfl
  · rfl

theorem State.refreshLines_shownLines : s.refreshLines.shownLines = s.shownLines := by
  have hlines : ([0, 1, 2, 3, 4, 5, 6, 7].foldl State.refreshLine s).shownLines = s.shownLines :=
    List.foldlRecOn (motive := fun t : State => t.shownLines = s.shownLines) _ _ rfl fun t ht k _ => (t.refreshLine_shownLines k).trans ht
  unfold State.refreshLines
  generalize [0, 1, 2, 3, 4, 5, 6, 7].foldl State.refreshLine s = u at hlines ⊢
  dsimp only
  split_ifs
  · exact hlines
  · exact hlines

theorem State.sampleInput_shownLines : (s.sampleInput k).shownLines = s.shownLines := by
  unfold State.sampleInput
  dsimp only
  split_ifs <;> rfl

theorem State.fire_shownLines : (s.fire k).shownLines = s.shownLines := by
  unfold State.fire
  split_ifs
  · exact (State.refreshLines_shownLines _).trans rfl
  · rfl
  · rfl

end

end Sys2Proof.Machine
end

section
/-!
SUPPORT. One field followed through updates of a state.
-/
namespace Sys2Proof.Machine

/-- Field g of s reads x, and the tables of registers and ports are in canonical form. -/
structure State.Reads (s : State) (g : Fld) (x : Nat) : Prop where
  regs_wf : tabWf regReset s.regs = true
  ports_wf : tabWf Port.reset s.ports = true
  rd_eq : s.rd g = x

namespace State.Reads
section
variable {s t : State} {f g : Fld} {x : Nat}

theorem start (hregs : tabWf regReset s.regs = true) (hports : tabWf Port.reset s.ports = true) : s.Reads g (s.rd g) := ⟨hregs, hports, rfl⟩

theorem of_canon (h : s.canon = true) : s.Reads g (s.rd g) := start (State.regs_wf_of_canon h) (State.ports_wf_of_canon h)

theorem of_eq (h : s.Reads g x) {y : Nat} (hy : x = y) : s.Reads g y := hy ▸ h

theorem bit_eq (h : s.Reads g x) : s.bit g = (x != 0) := by rw [State.bit, h.rd_eq]

theorem reg_eq {a : Nat} {v : Word} (h : s.Reads (wholeReg a) v.toNat) : s.reg a = v :=
  BitVec.eq_of_toNat_eq ((rd_wholeReg s a).symm.trans h.rd_eq)

/-- The field takes a value. -/
theorem taken (h : s.Reads g x) {y : Nat} (hg : g.lo + g.w ≤ 32 := by decide) : (s.wr g y).Reads g (y % 2 ^ g.w) :=
  ⟨setReg_wf _ _ h.regs_wf, h.ports_wf, rd_wr h.regs_wf hg y⟩

theorem takenAs (h : s.Reads g x) {y : Nat} (hy : y < 2 ^ g.w) (hg : g.lo + g.w ≤ 32 := by decide) : (s.wr g y).Reads g y :=
  ⟨setReg_wf _ _ h.regs_wf, h.ports_wf, (rd_wr h.regs_wf hg y).trans (Nat.mod_eq_of_lt hy)⟩

/-- The register takes a value. -/
theorem stored {a : Nat} (h : s.Reads (wholeReg a) x) {v : Word} : (s.setReg a v).Reads (wholeReg a) v.toNat where
  regs_wf := setReg_wf _ _ h.regs_wf
  ports_wf := h.ports_wf
  rd_eq := by rw [rd_wholeReg, reg_setReg_same h.regs_wf]

/-- A counter counts one more. -/
theorem counted {a : Nat} {v : Word} (h : s.Reads (wholeReg a) v.toNat) : (s.inc a).Reads (wholeReg a) (countUp v).toNat where
  regs_wf := setReg_wf _ _ h.regs_wf
  ports_wf := h.ports_wf
  rd_eq := by rw [rd_wholeReg, reg_inc h.regs_wf, h.reg_eq]

/-- What leaves the field as it is. -/
theorem kept {fs : List Fld} {n : Nat} {v : Port → Port} (h : s.Reads g x) (hk : s.Keeps fs n v t)
    (hg : fs.all (fun f => f.apart g) = true) : t.Reads g x := ⟨hk.regs_wf, hk.ports_wf, (hk.rd_eq g hg).trans h.rd_eq⟩

theorem same (h : s.Reads g x) (hregs : t.regs = s.regs) (hports : t.ports = s.ports) : t.Reads g x :=
  h.kept (fs := []) (n := 0) (v := id) (.same (.start h.regs_wf h.ports_wf) hregs hports) rfl

theorem wr (h : s.Reads g x) {y : Nat} (hf : f.apart g = true := by decide) : (s.wr f y).Reads g x :=
  h.kept (fs := [f]) (n := 0) (v := id) (.wrField (.start h.regs_wf h.ports_wf) List.mem_cons_self) (by simp [hf])

theorem setReg (h : s.Reads g x) {a : Nat} {v : Word} (ha : a ≠ g.reg) : (s.setReg a v).Reads g x where
  regs_wf := setReg_wf _ _ h.regs_wf
  ports_wf := h.ports_wf
  rd_eq := by rw [State.rd, reg_setReg_ne ha.symm, ← h.rd_eq, State.rd]

theorem ite {c : Prop} [Decidable c] (hs : s.Reads g x) (ht : t.Reads g x) : (if c then s else t).Reads g x := by
  split_ifs
  · exact hs
  · exact ht

theorem event {code : Nat} {nums : List Nat} {o : Origin} (h : s.Reads g x) (hg : logFields.all (fun f => f.apart g) = true)
    (hcode : code / 256 < 16 := by decide) : (s.event code nums o).Reads g x :=
  h.kept (fs := logFields) (n := 0) (v := id) (.event (fun _ hf => hf) (.start h.regs_wf h.ports_wf) hcode) hg

end
end State.Reads

theorem State.Signals.chain_eq {s t : State} (h : s.Signals t) : t.chain = s.chain := (congrArg State.chain h.untold_eq :)

theorem State.Signals.links_eq {s t : State} (h : s.Signals t) : t.links = s.links := (congrArg State.links h.untold_eq :)

theorem State.Signals.rst_eq {s t : State} (h : s.Signals t) : t.rst = s.rst := (congrArg State.rst h.untold_eq :)

end Sys2Proof.Machine
end

section
/-!
SUPPORT. What cells that leave on the links change, and what the failures of the chain's cells change (R315, R316, R318, R327, R330, R333).
-/
namespace Sys2Proof.Machine

/-! ## Fields and links -/

theorem State.links_wf_of_canon {s : State} (h : s.canon = true) : tabWf Link.reset s.links = true := by
  simp only [State.canon, Bool.and_eq_true] at h
  tauto

theorem link_setLink {s : State} (h : tabWf Link.reset s.links = true) (l : Nat) (k : Link) (j : Nat) :
    (s.setLink l k).link j = if j = l then k else s.link j := tabGet_tabPut l k j h

theorem link_setLink_same {s : State} (h : tabWf Link.reset s.links = true) (l : Nat) (k : Link) : (s.setLink l k).link l = k := by
  rw [link_setLink h, if_pos rfl]

theorem link_setLink_ne {l j : Nat} (h : j ≠ l) (k : Link) (s : State) : (s.setLink l k).link j = s.link j := tabGet_tabPut_ne k h s.links

/-- A field keeps its value where its register is apart from what changes. -/
theorem State.Keeps.rd_at {fs : List Fld} {n : Nat} {v : Port → Port} {s t : State} (h : s.Keeps fs n v t) {g : Fld}
    (hg : fs.all (fun f => f.apart (wholeReg g.reg)) = true) : t.rd g = s.rd g := by
  rw [State.rd, h.reg_eq hg, State.rd]

/-- What cells that leave on the links change: the credits and the counts of cells (R316). -/
def sendFields : List Fld :=
  (List.range 4).flatMap fun l => wholeReg (LK_CNT_TXCELL l) :: (List.range 4).map fun v => LK_CRED_VC.AVAIL l v

theorem txcell_mem_sendFields {l : Nat} (hl : l < 4) : wholeReg (LK_CNT_TXCELL l) ∈ sendFields :=
  List.mem_flatMap.2 ⟨l, List.mem_range.2 hl, List.mem_cons_self ..⟩

theorem avail_mem_sendFields {l v : Nat} (hl : l < 4) (hv : v < 4) : LK_CRED_VC.AVAIL l v ∈ sendFields :=
  List.mem_flatMap.2 ⟨l, List.mem_range.2 hl, List.mem_cons_of_mem _ (List.mem_map_of_mem (List.mem_range.2 hv))⟩

/-- The registers that the chain's failures, its route table and the completions of other devices' hosts change. -/
def chainRegs : List Nat :=
  [CH_CNT_RDFAIL, CH_ORPH_LOST, CH_ORPH_STAT, CH_CNT_ORPHAN, CH_CNT_FWDRET, CH_CNT_REROUTE, LG_CNT_BOUNCE, LG_CNT_STALL, LG_EVT, CP_SNAPTAG,
    CH_RTE 0, CH_RTE 1, CH_RTE 2, CH_RTE 3]

/-- The fields of CH_EVT and CH_STAT that they change, and that an enumeration changes. -/
def chainBits : List Fld :=
  [CH_EVT.RD_FAIL, CH_EVT.ORPHAN, CH_EVT.FWD_PAUSE, CH_EVT.REROUTE, CH_EVT.ENUM_DONE, CH_EVT.ISOLATED, CH_STAT.ENUM_BUSY, CH_STAT.ENUM_DONE,
    CH_STAT.MEMBERS, CH_STAT.ISOLATED]

/-- What the chain changes while no link changes its state: the log's fields, pending messages, and its own. -/
def chainFields : List Fld := guardFields 0 ++ sendFields ++ chainRegs.map wholeReg ++ chainBits

theorem guardFields_subset_chainFields : guardFields 0 ⊆ chainFields := fun _ hf => by simp [chainFields, hf]

theorem logFields_subset_chainFields : logFields ⊆ chainFields := fun _ hf =>
  guardFields_subset_chainFields (logFields_subset_guardFields 0 hf)

theorem sendFields_subset_chainFields : sendFields ⊆ chainFields := fun _ hf => by simp [chainFields, hf]

theorem chainRegs_mem {a : Nat} (ha : a ∈ chainRegs) : wholeReg a ∈ chainFields := by
  have hmem : wholeReg a ∈ chainRegs.map wholeReg := List.mem_map_of_mem ha
  simp [chainFields, hmem]

theorem chainBits_mem {f : Fld} (hf : f ∈ chainBits) : f ∈ chainFields := by simp [chainFields, hf]

/-- The registers that tell of a link's state are not among them. -/
theorem chainFields_apart_link : ∀ l : Fin 4, ∀ a ∈ [LK_CTRL l, LK_STAT l, LK_EVT l, LK_CNT_DOWN l],
    chainFields.all (fun f => f.apart (wholeReg a)) = true := by decide +kernel

/-! ## What the chain keeps -/

/-- From s to t the chain changes no fields but its own, neither the root's map nor the lines of members, and the tables of registers, ports
and links of t are in canonical form. As a relation to a fixed s, so that a proof follows the updates one by one. -/
structure State.KeepsMap (s t : State) : Prop where
  keeps : s.Keeps chainFields 0 Port.unseen t
  links_wf : tabWf Link.reset t.links = true
  map_eq : t.chain.map = s.chain.map
  lines_eq : t.shownLines = s.shownLines

/-- Beside that, the links that are not UP stay as they are, and no link changes its partner. -/
structure State.KeepsLinks (s t : State) : Prop extends s.KeepsMap t where
  link_eq : ∀ l, s.linkState l ≠ lkUp → t.link l = s.link l
  partner_eq : ∀ l, (t.link l).partner = (s.link l).partner

theorem State.KeepsMap.linkState_eq {s t : State} (h : s.KeepsMap t) {l : Nat} (hl : l < 4) : t.linkState l = s.linkState l :=
  h.keeps.rd_at (chainFields_apart_link ⟨l, hl⟩ _ (by simp [LK_STAT.STATE]))

namespace State.KeepsLinks
section
variable {s t u : State}

theorem start (hregs : tabWf regReset s.regs = true) (hports : tabWf Port.reset s.ports = true) (hlinks : tabWf Link.reset s.links = true) :
    s.KeepsLinks s where
  keeps := .start hregs hports
  links_wf := hlinks
  map_eq := rfl
  lines_eq := rfl
  link_eq _ _ := rfl
  partner_eq _ := rfl

theorem of_canon (h : s.canon = true) : s.KeepsLinks s :=
  start (State.regs_wf_of_canon h) (State.ports_wf_of_canon h) (State.links_wf_of_canon h)

/-- An update of other parts of the state. -/
theorem same (h : s.KeepsLinks t) (hregs : u.regs = t.regs) (hports : u.ports = t.ports) (hlinks : u.links = t.links)
    (hmap : u.chain.map = t.chain.map) (hlines : u.shownLines = t.shownLines) : s.KeepsLinks u where
  keeps := h.keeps.same hregs hports
  links_wf := hlinks ▸ h.links_wf
  map_eq := hmap.trans h.map_eq
  lines_eq := hlines.trans h.lines_eq
  link_eq l hl := by rw [← h.link_eq l hl, State.link, hlinks, State.link]
  partner_eq l := by rw [← h.partner_eq l, State.link, hlinks, State.link]

theorem ite {c : Prop} [Decidable c] (ht : s.KeepsLinks t) (hu : s.KeepsLinks u) : s.KeepsLinks (if c then t else u) := by
  split_ifs
  · exact ht
  · exact hu

theorem foldl {α : Type} {f : State → α → State} (l : List α) (hf : ∀ t a, s.KeepsLinks t → s.KeepsLinks (f t a)) (h : s.KeepsLinks t) :
    s.KeepsLinks (l.foldl f t) := List.foldlRecOn l f h fun t ht a _ => hf t a ht

/-- An update that only registers of the chain show. -/
theorem shown (h : s.KeepsLinks t) (hkeeps : s.Keeps chainFields 0 Port.unseen u) (hlinks : u.links = t.links)
    (hmap : u.chain.map = t.chain.map) (hlines : u.shownLines = t.shownLines) : s.KeepsLinks u where
  keeps := hkeeps
  links_wf := hlinks ▸ h.links_wf
  map_eq := hmap.trans h.map_eq
  lines_eq := hlines.trans h.lines_eq
  link_eq l hl := by rw [← h.link_eq l hl, State.link, hlinks, State.link]
  partner_eq l := by rw [← h.partner_eq l, State.link, hlinks, State.link]

theorem wrField {f : Fld} {x : Nat} (hf : f ∈ chainFields) (h : s.KeepsLinks t) : s.KeepsLinks (t.wr f x) :=
  h.shown (h.keeps.wrField hf) rfl rfl rfl

theorem setReg {a : Nat} {x : Word} (ha : wholeReg a ∈ chainFields) (h : s.KeepsLinks t) : s.KeepsLinks (t.setReg a x) :=
  h.shown (h.keeps.setReg ha) rfl rfl rfl

theorem event {code : Nat} {nums : List Nat} {o : Origin} (h : s.KeepsLinks t) (hcode : code / 256 < 16 := by decide) :
    s.KeepsLinks (t.event code nums o) := by
  have htold : t.Signals (t.event code nums o) := .event .start
  exact h.shown (h.keeps.event logFields_subset_chainFields hcode) htold.links_eq
    (congrArg Chain.map htold.chain_eq) (congrArg Eic.members (t.event_eic code nums o))

theorem fire {k : Nat} (h : s.KeepsLinks t) : s.KeepsLinks (t.fire k) := by
  have htold : t.Signals (t.fire k) := .fire .start
  have hkeeps : t.Keeps (guardFields 0) 0 Port.unseen (t.fire k) := .fire (.start h.keeps.regs_wf h.keeps.ports_wf)
  exact h.shown (h.keeps.andThen guardFields_subset_chainFields hkeeps rfl) htold.links_eq
    (congrArg Chain.map htold.chain_eq) (t.fire_shownLines k)

theorem emit {o : Out} (h : s.KeepsLinks t) : s.KeepsLinks (t.emit o) := h.same rfl rfl rfl rfl rfl

/-- A link that is UP takes a value with the same partner. -/
theorem setLink {l : Nat} {k : Link} (hup : s.linkState l = lkUp) (hk : k.partner = (t.link l).partner) (h : s.KeepsLinks t) :
    s.KeepsLinks (t.setLink l k) where
  keeps := h.keeps.same rfl rfl
  links_wf := tabPut_wf _ _ h.links_wf
  map_eq := h.map_eq
  lines_eq := h.lines_eq
  link_eq j hj := (link_setLink_ne (fun hjl : j = l => hj (hjl ▸ hup)) k t).trans (h.link_eq j hj)
  partner_eq j := by
    rw [← h.partner_eq j, link_setLink h.links_wf]
    split_ifs with hjl
    · rw [hk, hjl]
    · rfl

end
end State.KeepsLinks

/-! ## Cells that leave (R315, R316, R324) -/

/-- The state without what cells that leave change: the registers, the links, the outputs. -/
def State.unsent (s : State) : State := { s with regs := [], links := [], out := [] }

theorem State.pump_unsent (l fuel : Nat) : ∀ s : State, (s.pump l fuel).unsent = s.unsent := by
  induction fuel with
  | zero => exact fun _ => rfl
  | succ fuel ih =>
    intro s
    unfold State.pump
    split
    · rfl
    · dsimp only
      split
      · rfl
      · exact (ih _).trans rfl

theorem State.queueCell_unsent (s : State) (l : Nat) (c : Cell) : (s.queueCell l c).unsent = s.unsent := (State.pump_unsent _ _ _).trans rfl

theorem State.trySend_unsent (s : State) (c : Cell) : (s.trySend c).unsent = s.unsent := by
  unfold State.trySend State.sendCell
  cases s.routeTo c.dst.val with
  | none => rfl
  | some l => exact s.queueCell_unsent l c

/-- A route names one of the four links. -/
theorem State.routeLink_lt {s : State} {d l : Nat} (h : s.routeLink d = some l) : l < 4 := by
  unfold State.routeLink at h
  split_ifs at h
  · cases h
    exact s.rd_lt _
  · cases h
    exact s.rd_lt _

/-- A cell leaves on a link that is UP, as the route names it. -/
theorem State.routeTo_eq_some {s : State} {d l : Nat} (h : s.routeTo d = some l) : s.routeLink d = some l ∧ l < 4 ∧ s.linkState l = lkUp := by
  unfold State.routeTo at h
  cases hroute : s.routeLink d with
  | none => simp [hroute] at h
  | some k =>
    simp only [hroute, Option.ite_none_right_eq_some, Option.some.injEq] at h
    obtain ⟨hup, rfl⟩ := h
    exact ⟨rfl, State.routeLink_lt hroute, hup⟩

namespace State.KeepsLinks
section
variable {s t : State} {l : Nat}

theorem pump (hl : l < 4) (hup : s.linkState l = lkUp) (fuel : Nat) (h : s.KeepsLinks t) : s.KeepsLinks (t.pump l fuel) := by
  induction fuel generalizing t with
  | zero => exact h
  | succ fuel ih =>
    unfold State.pump
    split
    · exact h
    · rename_i v b _
      dsimp only
      split
      · exact h
      · rename_i c hc
        have hvc : c.vc.val = v := by simpa using List.find?_some hc
        have hv : v < 4 := hvc ▸ c.vc.isLt
        have htaken : s.KeepsLinks (t.setLink l { t.link l with
            waiting := (t.link l).waiting.erase c, replay := (t.link l).replay ++ [c], sent := addAt (t.link l).sent v 1, budget := b }) :=
          h.setLink hup rfl
        exact ih (.emit (.setReg (sendFields_subset_chainFields (txcell_mem_sendFields hl))
          (.wrField (sendFields_subset_chainFields (avail_mem_sendFields hl hv)) htaken)))

theorem queueCell {c : Cell} (hl : l < 4) (hup : s.linkState l = lkUp) (h : s.KeepsLinks t) : s.KeepsLinks (t.queueCell l c) :=
  .pump hl hup _ (h.setLink hup rfl)

theorem sendCell {c : Cell} {x : State} (hx : t.sendCell c = some x) (h : s.KeepsLinks t) : s.KeepsLinks x := by
  obtain ⟨l, hroute, rfl⟩ := Option.map_eq_some_iff.1 hx
  obtain ⟨-, hl, hup⟩ := State.routeTo_eq_some hroute
  exact h.queueCell hl ((h.linkState_eq hl).symm.trans hup)

theorem trySend {c : Cell} (h : s.KeepsLinks t) : s.KeepsLinks (t.trySend c) := by
  unfold State.trySend
  cases hsent : t.sendCell c with
  | none => exact h
  | some x => exact h.sendCell hsent

end
end State.KeepsLinks

end Sys2Proof.Machine
end

section
/-!
SUPPORT. What the chain keeps when cells are stranded, routes are written, and an enumeration begins, goes on or ends (R318 to R336).
-/
namespace Sys2Proof.Machine

/-- The state whose chain is c. -/
def State.withChain (s : State) (c : Chain) : State := { s with chain := c }

/-- The end of an enumeration as the registers show it (R321, R325). -/
def State.enumShown (s : State) : State :=
  ((((if s.bit CH_STAT.ENUM_DONE && s.chain.rerouted then (s.inc CH_CNT_REROUTE).on CH_EVT.REROUTE else s).off CH_STAT.ENUM_BUSY).on
    CH_STAT.ENUM_DONE).on CH_EVT.ENUM_DONE).showMembers

/-- The event of the end of an enumeration. -/
def State.enumTold (s : State) : State := s.event Ev.CHAIN_ENUM [s.rd CH_STAT.MEMBERS]

/-- The routes that an enumeration leaves (R321, R325). -/
def State.enumRoutes (s : State) : State :=
  s.reroute s s.routedDevices (s.routedDevices.filter fun d => s.chain.met.contains (s.mapEntry d).sn || (s.mapEntry d).asleep)

theorem State.enumEnd_eq (s : State) :
    s.enumEnd = s.enumRoutes.enumShown.enumTold.withChain { s.enumRoutes.enumShown.enumTold.chain with met := [], rerouted := false } := by
  rfl

namespace State.KeepsLinks
section
variable {s t : State}

theorem chainReg {a : Nat} {x : Word} (ha : a ∈ chainRegs) (h : s.KeepsLinks t) : s.KeepsLinks (t.setReg a x) := h.setReg (chainRegs_mem ha)

theorem chainBit {f : Fld} {x : Nat} (hf : f ∈ chainBits) (h : s.KeepsLinks t) : s.KeepsLinks (t.wr f x) := h.wrField (chainBits_mem hf)

theorem withChain {c : Chain} (hmap : c.map = t.chain.map) (h : s.KeepsLinks t) : s.KeepsLinks (t.withChain c) :=
  h.same rfl rfl rfl hmap rfl

theorem setQueue {k : Nat} {q : Queue} (h : s.KeepsLinks t) : s.KeepsLinks (t.setQueue k q) := h.same rfl rfl rfl rfl rfl

/-! ## Cells that are stranded (R318) -/

theorem bounce {u : DownUnit} {n : Nat} (h : s.KeepsLinks t) : s.KeepsLinks (t.bounce u n) := by
  have hshown : s.KeepsLinks (t.bounceShown n) := .chainReg (by decide) (.chainReg (by decide) h)
  obtain ⟨-, hbounce⟩ | ⟨nums, hbounce⟩ := t.bounce_cases u n
  · exact hbounce ▸ hshown
  · rw [hbounce]
    exact .event (hshown.same rfl rfl rfl rfl rfl)

theorem answerRead {r : ChainRead} {v : Word64} {ok : Bool} (h : s.KeepsLinks t) : s.KeepsLinks (t.answerRead r v ok) := by
  unfold State.answerRead
  refine .ite h.emit ?_
  split
  · dsimp only
    exact .ite (.chainReg (by decide) (h.same rfl rfl rfl rfl rfl)) (h.same rfl rfl rfl rfl rfl)
  · exact h

theorem failRead {r : ChainRead} {st : Nat} (h : s.KeepsLinks t) : s.KeepsLinks (t.failRead r st) :=
  .answerRead (.event (.chainBit (by simp [chainBits]) (.chainReg (by decide) (h.same rfl rfl rfl rfl rfl))))

theorem orphan {status reporter dev off origin : Nat} {wide : Bool} {v : Word64} (h : s.KeepsLinks t) :
    s.KeepsLinks (t.orphan status reporter dev off wide v origin) := by
  have hlost : s.KeepsLinks (if t.chain.orphanUnread.contains (t.chain.orphanSeq % 64) then t.inc CH_ORPH_LOST else t) :=
    .ite (.chainReg (by decide) h) h
  unfold State.orphan
  dsimp only
  generalize hu : (if t.chain.orphanUnread.contains (t.chain.orphanSeq % 64) = true then t.inc CH_ORPH_LOST else t) = u at hlost ⊢
  have hmap : u.chain.map = t.chain.map := by
    rw [← hu]
    split_ifs <;> rfl
  exact .event (.chainBit (by simp [chainBits]) (.chainReg (by decide) (.chainReg (by decide) (.chainReg (by decide)
    (hlost.same rfl rfl rfl hmap.symm rfl)))))

/-- A status other than ACCEPTED reaches a forwarder (R330). -/
theorem forwardAnswer {n seq st : Nat} (hst : st ≠ 0) (h : s.KeepsLinks t) : s.KeepsLinks (t.forwardAnswer n seq st) := by
  have hcount : s.KeepsLinks (t.inc CH_CNT_FWDRET) := .chainReg (by decide) h
  unfold State.forwardAnswer
  dsimp only
  refine .ite h ?_
  rw [if_neg (show ¬ st = fwdAccepted from hst)]
  have hbounced : s.KeepsLinks (if st = 4 then
      (t.inc CH_CNT_FWDRET).bounce (.chainDevice (Fin.ofNat 64 (t.queue n).cfg.fwdDev)) 1 else t.inc CH_CNT_FWDRET) := .ite hcount.bounce hcount
  generalize (if st = 4 then (t.inc CH_CNT_FWDRET).bounce (.chainDevice (Fin.ofNat 64 (t.queue n).cfg.fwdDev)) 1
    else t.inc CH_CNT_FWDRET) = u at hbounced ⊢
  exact .ite (.setQueue (.ite hbounced (.event (.chainBit (by simp [chainBits]) hbounced)))) (.ite hbounced.setQueue hbounced)

/-- A cell is stranded with a status that tells of a failure (R318). -/
theorem strand {c : Cell} {st : Nat} (hst : st ≠ 0) (h : s.KeepsLinks t) : s.KeepsLinks (t.strand c st) := by
  unfold State.strand
  dsimp only
  cases c.msg with
  | read off wide =>
    refine .ite ?_ h.trySend
    cases t.chain.reads.find? (fun r => decide (r.dev = c.dst.val) && decide (r.off = off.toNat)) with
    | none => exact h
    | some r => exact h.failRead
  | readDone v status => exact h.trySend
  | write off wide v o => exact .ite h.orphan h.trySend
  | group q dest seq ws resent => exact .ite (h.forwardAnswer hst) h.trySend
  | manage ws => exact .ite h.trySend h
  | request op => exact .ite h.trySend h
  | routes rte mask => exact .ite h.trySend h
  | _ => exact h

/-! ## Routes and enumerations (R321, R325) -/

theorem routeApply {rte : List Word} {mask : BitVec 64} (h : s.KeepsLinks t) : s.KeepsLinks (t.routeApply rte mask) := by
  have hwritten : s.KeepsLinks ((List.range 4).foldl (fun s i => s.setReg (CH_RTE i) (rte.getD i 0)) t) :=
    .chainReg (by decide) (.chainReg (by decide) (.chainReg (by decide) (.chainReg (by decide) h)))
  exact hwritten.same rfl rfl rfl rfl rfl

theorem reroute {before : State} {old ds : List Nat} (h : s.KeepsLinks t) : s.KeepsLinks (t.reroute before old ds) := by
  refine .foldl _ (fun u x hu => ?_) h
  have hchanged : s.KeepsLinks { u with chain := { u.chain with rerouted := true } } := hu.same rfl rfl rfl rfl rfl
  exact .ite hu (.ite hchanged.routeApply hchanged.trySend)

theorem enumShown (h : s.KeepsLinks t) : s.KeepsLinks t.enumShown :=
  .chainBit (by simp [chainBits]) (.chainBit (by simp [chainBits]) (.chainBit (by simp [chainBits]) (.chainBit (by simp [chainBits])
    (.ite (.chainBit (by simp [chainBits]) (.chainReg (by decide) h)) h))))

theorem enumEnd (h : s.KeepsLinks t) : s.KeepsLinks t.enumEnd := by
  rw [State.enumEnd_eq]
  exact .withChain rfl (.event (.enumShown h.reroute))

theorem enumBegin (h : s.KeepsLinks t) : s.KeepsLinks t.enumBegin := .same (.chainBit (by simp [chainBits]) h) rfl rfl rfl rfl rfl

theorem enumGo (h : s.KeepsLinks t) : s.KeepsLinks t.enumGo := by
  unfold State.enumGo
  split
  · exact h.emit
  · dsimp only
    refine .ite ?again h.enumEnd
    split
    · exact h.enumEnd.enumBegin.emit
    · exact h.enumEnd.enumBegin.enumEnd

theorem enumAsk (h : s.KeepsLinks t) : s.KeepsLinks t.enumAsk := .ite h (.ite (.withChain rfl h) h.enumBegin.enumGo)

theorem reportLink {l what : Nat} (h : s.KeepsLinks t) : s.KeepsLinks (t.reportLink l what) := .ite h.trySend h.enumAsk

theorem isolate (h : s.KeepsLinks t) : s.KeepsLinks t.isolate :=
  .ite h (.fire (.chainBit (by simp [chainBits]) (.chainBit (by simp [chainBits]) h)))

end
end State.KeepsLinks

/-! ## How an enumeration ends or begins -/

section
variable {s : State}

/-- The state before the end of an enumeration is shown: a change of routes after the first enumeration is counted and noted. -/
def State.enumCounted (s : State) : State :=
  if s.enumRoutes.bit CH_STAT.ENUM_DONE && s.enumRoutes.chain.rerouted then (s.enumRoutes.inc CH_CNT_REROUTE).on CH_EVT.REROUTE
  else s.enumRoutes

/-- The state that shows the end of an enumeration, before its event. -/
def State.enumClosed (s : State) : State :=
  (((s.enumCounted.off CH_STAT.ENUM_BUSY).on CH_STAT.ENUM_DONE).on CH_EVT.ENUM_DONE).showMembers

theorem State.enumEnd_closed (s : State) : ∃ c, s.enumEnd = s.enumClosed.enumTold.withChain c := ⟨_, rfl⟩

theorem State.Reads.withChain {g : Fld} {x : Nat} {c : Chain} (h : s.Reads g x) : (s.withChain c).Reads g x := h.same rfl rfl

/-- A field that shows a value before the event of the end of an enumeration shows it after it. -/
theorem State.Reads.enumEnd {g : Fld} {x : Nat} (h : s.enumClosed.Reads g x) (hg : logFields.all (fun f => f.apart g) = true) :
    s.enumEnd.Reads g x := by
  obtain ⟨c, hend⟩ := s.enumEnd_closed
  rw [hend]
  exact (h.event hg).withChain

/-- After an enumeration none is in progress, and its end is shown and noted. -/
theorem State.enumEnd_spec (h : s.KeepsLinks s) : s.enumEnd.bit CH_STAT.ENUM_BUSY = false ∧ s.enumEnd.bit CH_STAT.ENUM_DONE = true ∧
    s.enumEnd.bit CH_EVT.ENUM_DONE = true := by
  have hcounted : s.KeepsLinks s.enumCounted := .ite (.chainBit (by simp [chainBits]) (.chainReg (by decide) h.reroute)) h.reroute
  have hstart : ∀ g, s.enumCounted.Reads g (s.enumCounted.rd g) := fun _ => .start hcounted.keeps.regs_wf hcounted.keeps.ports_wf
  have hbusy : s.enumClosed.Reads CH_STAT.ENUM_BUSY 0 := .wr (.wr (.wr (.taken (hstart _))))
  have hdone : s.enumClosed.Reads CH_STAT.ENUM_DONE 1 := .wr (.wr (.taken (.wr (hstart _))))
  have hnoted : s.enumClosed.Reads CH_EVT.ENUM_DONE 1 := .wr (.taken (.wr (.wr (hstart _))))
  exact ⟨(hbusy.enumEnd (by decide +kernel)).bit_eq, (hdone.enumEnd (by decide +kernel)).bit_eq, (hnoted.enumEnd (by decide +kernel)).bit_eq⟩

theorem State.probeLinks_eq {t : State} (h : ∀ l < 4, t.linkState l = s.linkState l) : t.probeLinks = s.probeLinks := by
  unfold State.probeLinks
  congr 1
  exact List.filter_congr fun l hl => by rw [h l (List.mem_range.1 hl)]

theorem State.KeepsMap.probeLinks_eq {t : State} (h : s.KeepsMap t) : t.probeLinks = s.probeLinks :=
  State.probeLinks_eq fun _ hl => h.linkState_eq hl

/-- An enumeration without a link to probe ends at once, also if another one follows it (R325). -/
theorem State.enumGo_none (h : s.KeepsLinks s) (hprobes : s.chain.probes = []) (hlinks : s.probeLinks = []) :
    ∃ t, s.KeepsLinks t ∧ s.enumGo = t.enumEnd := by
  have hagain : s.KeepsLinks s.enumEnd.enumBegin := h.enumEnd.enumBegin
  have hnone : s.enumEnd.enumBegin.chain.probes = [] :=
    (State.probeLinks_eq (s := s) fun l hl => (h.enumEnd.chainBit (x := 1) (by simp [chainBits])).linkState_eq hl).trans hlinks
  unfold State.enumGo
  simp only [hprobes, hnone]
  split_ifs
  · exact ⟨_, hagain, rfl⟩
  · exact ⟨s, h, rfl⟩

end
end Sys2Proof.Machine
end

section
/-!
SUPPORT. Members and enumerations in 09_sahoz_chain.md: an enumeration that is asked for, the registers that ask for one, and the answers to its
probes (R319 to R325).
-/
namespace Sys2Proof.Machine

/-! ## Writes of the chain's registers -/

/-- The chain's registers exist before the first commit. -/
theorem State.regExists_chain (s : State) {a : Nat} (ha : 0x400000 ≤ a ∧ a < 0x1000000) : s.regExists a = true := by
  simp [State.regExists, existsEarly, ha]

/-- A write stores a field whose bits are plain. -/
theorem rd_regStore {s : State} {o : Origin} {f : Fld} {mask : Nat} (hcanon : s.canon = true) (ha : 0x80000 ≤ f.reg) (hf : f.lo + f.w ≤ 32)
    (hmask : ∀ i < f.w, mask.testBit (f.lo + i) = true) (hrow : (regRow? f.reg).any (fun r => r.plain mask) = true)
    (hex : s.regExists f.reg = true) (hlog : logFields.all (fun g => g.apart f) = true) (v : Word) :
    (s.regStore o f.reg v).rd f = fldOf f v := by
  obtain ⟨new, hbits, hkeep⟩ := regStore_told (o := o) (v := v) (State.regs_wf_of_canon hcanon) (State.ports_wf_of_canon hcanon) 0 ha hrow hex
  rw [hkeep.rd_eq f hlog, State.rd, reg_setReg_same (State.regs_wf_of_canon hcanon)]
  refine Nat.eq_of_testBit_eq fun i => ?_
  rw [testBit_fldOf, testBit_fldOf]
  by_cases hi : i < f.w
  · rw [BitVec.testBit_toNat, BitVec.testBit_toNat, hbits _ (by omega) (hmask i hi)]
  · simp [hi]

/-- A write of CH_CTRL stores the role. -/
theorem role_regStore {s : State} (hcanon : s.canon = true) (o : Origin) (v : Word) :
    (s.regStore o CH_CTRL v).rd CH_CTRL.ROLE = fldOf CH_CTRL.ROLE v :=
  rd_regStore (f := CH_CTRL.ROLE) (mask := 3) hcanon (by decide) (by decide) (by decide) (by decide +kernel) (s.regExists_chain (by decide))
    (by decide +kernel) v

/-! ## An enumeration that is asked for (R325) -/

section
variable {s : State}

theorem State.enumAsk_busy (hroot : s.role = 1 ∧ s.partRuns .engines = true) (hbusy : s.bit CH_STAT.ENUM_BUSY = true) :
    s.enumAsk = s.withChain { s.chain with again := true } := by
  obtain ⟨hrole, hruns⟩ := hroot
  simp only [State.enumAsk, hrole, hruns, hbusy, ne_eq, not_true_eq_false, Bool.true_eq_false, or_self, if_false, if_true]
  rfl

theorem State.enumAsk_idle (hroot : s.role = 1 ∧ s.partRuns .engines = true) (hidle : s.bit CH_STAT.ENUM_BUSY = false) :
    s.enumAsk = s.enumBegin.enumGo := by
  obtain ⟨hrole, hruns⟩ := hroot
  simp [State.enumAsk, hrole, hruns, hidle]

theorem State.enumBegin_probes (h : s.KeepsLinks s) : s.enumBegin.chain.probes = s.probeLinks :=
  (h.chainBit (f := CH_STAT.ENUM_BUSY) (x := 1) (by simp [chainBits])).probeLinks_eq

/-- With a link to probe the root is busy, and the first probe leaves. -/
theorem State.enumAsk_probe (h : s.KeepsLinks s) (hroot : s.role = 1 ∧ s.partRuns .engines = true) (hidle : s.bit CH_STAT.ENUM_BUSY = false)
    {x : Nat × Nat} (hx : s.probeLinks.head? = some x) : s.enumAsk.bit CH_STAT.ENUM_BUSY = true ∧ s.enumAsk.chain.probes = s.probeLinks ∧
      s.enumAsk.chain.met = [s.chain.sn] ∧ s.enumAsk.out = s.out ++ [.probe x.1 x.2] := by
  obtain ⟨rest, hprobes⟩ : ∃ rest, s.probeLinks = x :: rest := ⟨_, List.eq_cons_of_mem_head? hx⟩
  have hgo : s.enumAsk = s.enumBegin.emit (.probe x.1 x.2) := by
    rw [State.enumAsk_idle hroot hidle, State.enumGo]
    simp only [State.enumBegin_probes h, hprobes]
  rw [hgo]
  exact ⟨bit_on h.keeps.regs_wf (by decide) rfl, State.enumBegin_probes h, rfl, rfl⟩

/-- Without one it is done at once. -/
theorem State.enumAsk_done (h : s.KeepsLinks s) (hroot : s.role = 1 ∧ s.partRuns .engines = true) (hidle : s.bit CH_STAT.ENUM_BUSY = false)
    (hnone : s.probeLinks = []) : s.enumAsk.bit CH_STAT.ENUM_BUSY = false ∧ s.enumAsk.bit CH_STAT.ENUM_DONE = true ∧
      s.enumAsk.bit CH_EVT.ENUM_DONE = true := by
  have hbegun : s.KeepsLinks s.enumBegin := h.enumBegin
  obtain ⟨t, ht, hend⟩ := State.enumGo_none (.start hbegun.keeps.regs_wf hbegun.keeps.ports_wf hbegun.links_wf)
    ((State.enumBegin_probes h).trans hnone) (hbegun.probeLinks_eq.trans hnone)
  rw [State.enumAsk_idle hroot hidle, hend]
  exact State.enumEnd_spec (.start ht.keeps.regs_wf ht.keeps.ports_wf ht.links_wf)

/-! ## What asks for it -/

/-- In t an enumeration that is asked for meets what it meets in s. -/
structure State.AsksAs (s t : State) : Prop where
  links : t.KeepsLinks t
  role_eq : t.role = s.role
  runs_eq : t.partRuns .engines = s.partRuns .engines
  busy_eq : t.bit CH_STAT.ENUM_BUSY = s.bit CH_STAT.ENUM_BUSY
  probes_eq : t.probeLinks = s.probeLinks
  chain_eq : t.chain = s.chain

theorem ctrlFields_apart : (wholeReg CH_CTRL :: logFields).all (fun f => f.apart CH_STAT.ENUM_BUSY) = true ∧
    ∀ l : Fin 4, (wholeReg CH_CTRL :: logFields).all (fun f => f.apart (LK_STAT.STATE l)) = true := by decide +kernel

theorem fldOf_role_or (v : Word) : fldOf CH_CTRL.ROLE (v ||| 0x10) = fldOf CH_CTRL.ROLE v := by
  have hbit : ∀ i < 2, (0x10 : Word).toNat.testBit (CH_CTRL.ROLE.lo + i) = false := by decide
  refine Nat.eq_of_testBit_eq fun i => ?_
  rw [testBit_fldOf, testBit_fldOf, BitVec.toNat_or, Nat.testBit_or]
  by_cases hi : i < 2
  · rw [hbit i hi, Bool.or_false]
  · simp [CH_CTRL.ROLE, hi]

theorem regStore_asksAs (hcanon : s.canon = true) (o : Origin) : s.AsksAs (s.regStore o CH_CTRL (s.reg CH_CTRL ||| 0x10)) := by
  have hkeeps : s.Keeps (wholeReg CH_CTRL :: logFields) 0 Port.unseen (s.regStore o CH_CTRL (s.reg CH_CTRL ||| 0x10)) :=
    .regStore (by simp) (by simp) (by decide) (.of_canon hcanon)
  have htold : s.Signals (s.regStore o CH_CTRL (s.reg CH_CTRL ||| 0x10)) := .regStore .start
  have hlinks : (s.regStore o CH_CTRL (s.reg CH_CTRL ||| 0x10)).links = s.links := htold.links_eq
  have hrole : (s.regStore o CH_CTRL (s.reg CH_CTRL ||| 0x10)).rd CH_CTRL.ROLE = s.rd CH_CTRL.ROLE :=
    (role_regStore hcanon o _).trans (fldOf_role_or _)
  exact {
    links := .start hkeeps.regs_wf hkeeps.ports_wf (hlinks ▸ State.links_wf_of_canon hcanon)
    role_eq := by rw [State.role, hrole, State.role]
    runs_eq := by rw [State.partRuns, State.runs, htold.stopped_eq]; rfl
    busy_eq := hkeeps.bit_eq ctrlFields_apart.1
    probes_eq := State.probeLinks_eq fun l hl => hkeeps.rd_eq _ (ctrlFields_apart.2 ⟨l, hl⟩)
    chain_eq := htold.chain_eq }

theorem reenum_asksAs (hcanon : s.canon = true) (o : Origin) (written : Bool) :
    s.AsksAs (if written then s.regStore o CH_CTRL (s.reg CH_CTRL ||| 0x10) else s) := by
  split_ifs
  · exact regStore_asksAs hcanon o
  · exact ⟨.of_canon hcanon, rfl, rfl, rfl, rfl, rfl⟩

section
variable {t : State}

theorem State.AsksAs.busy (h : s.AsksAs t) (hroot : s.role = 1 ∧ s.partRuns .engines = true) (hbusy : s.bit CH_STAT.ENUM_BUSY = true) :
    t.enumAsk.chain.again = true ∧ t.enumAsk.out = t.out := by
  rw [State.enumAsk_busy ⟨h.role_eq.trans hroot.1, h.runs_eq.trans hroot.2⟩ (h.busy_eq.trans hbusy)]
  exact ⟨rfl, rfl⟩

theorem State.AsksAs.probe (h : s.AsksAs t) (hroot : s.role = 1 ∧ s.partRuns .engines = true) (hidle : s.bit CH_STAT.ENUM_BUSY = false)
    {x : Nat × Nat} (hx : s.probeLinks.head? = some x) : t.enumAsk.bit CH_STAT.ENUM_BUSY = true ∧ t.enumAsk.chain.probes = s.probeLinks ∧
      t.enumAsk.chain.met = [s.chain.sn] ∧ t.enumAsk.out = t.out ++ [.probe x.1 x.2] := by
  rw [← h.probes_eq, ← h.chain_eq]
  exact State.enumAsk_probe h.links ⟨h.role_eq.trans hroot.1, h.runs_eq.trans hroot.2⟩ (h.busy_eq.trans hidle)
    ((congrArg List.head? h.probes_eq).trans hx)

theorem State.AsksAs.done (h : s.AsksAs t) (hroot : s.role = 1 ∧ s.partRuns .engines = true) (hidle : s.bit CH_STAT.ENUM_BUSY = false)
    (hnone : s.probeLinks = []) : t.enumAsk.bit CH_STAT.ENUM_BUSY = false ∧ t.enumAsk.bit CH_STAT.ENUM_DONE = true ∧
      t.enumAsk.bit CH_EVT.ENUM_DONE = true :=
  State.enumAsk_done h.links ⟨h.role_eq.trans hroot.1, h.runs_eq.trans hroot.2⟩ (h.busy_eq.trans hidle) (h.probes_eq.trans hnone)

end

/-! ## The answers to probes, and a number that is assigned (R319, R321) -/

/-- A probe without an answer gives way to the next. -/
theorem enumProbeAnswer_none {x : Nat × Nat} (hx : s.chain.probes.tail.head? = some x)
    (hroot : s.role = 1) (hbusy : s.bit CH_STAT.ENUM_BUSY = true) :
    execEnumProbeAnswer (.answer none) s =
      .next ((s.withChain { s.chain with probes := s.chain.probes.tail }).emit (.probe x.1 x.2)) := by
  obtain ⟨y, ys, hprobes⟩ : ∃ y ys, s.chain.probes = y :: x :: ys := by
    cases hp : s.chain.probes with
    | nil => simp [hp] at hx
    | cons y ys => exact ⟨y, ys.tail, by rw [hp, List.tail_cons] at hx; rw [List.eq_cons_of_mem_head? hx]; rfl⟩
  simp [execEnumProbeAnswer, hprobes, hroot, hbusy, State.enumGo, State.withChain]

/-- The state in which a member shows the number that it is assigned, before its links show which of them leads up. -/
def State.assigned (s : State) (l num hops : Nat) : State :=
  ((((s.wr CH_STAT.DEVNUM num).on CH_STAT.NUMBERED).wr CH_STAT.UPLINK l).wr CH_STAT.HOPS hops).off CH_STAT.ISOLATED

/-- The state in which the links show which of them leads up. -/
def State.upstreamShown (s : State) (l : Nat) : State := (List.range 4).foldl (fun s k => s.put (LK_STAT.UPSTREAM k) (k == l)) s

/-- The registers of the states of links. -/
def linkStats : List Fld := (List.range 4).map fun l => wholeReg (LK_STAT l)

theorem linkStat_mem {l : Nat} (hl : l < 4) : wholeReg (LK_STAT l) ∈ linkStats := List.mem_map_of_mem (List.mem_range.2 hl)

theorem State.Keeps.toLinkState {fs : List Fld} {n l c : Nat} {v : Port → Port} {t : State} (hl : wholeReg (LK_STAT l) ∈ fs)
    (h : s.Keeps fs n v t) : s.Keeps fs n v (t.toLinkState l c) := by
  have hmoved : s.Keeps fs n v ((t.wr (LK_STAT.STATE l) c).setLink l { t.link l with since := t.time.tick }) := .same (h.wr hl) rfl rfl
  exact .ite hmoved (hmoved.off hl)

theorem State.upstreamShown_keeps (hregs : tabWf regReset s.regs = true) (hports : tabWf Port.reset s.ports = true) (l : Nat) :
    s.Keeps linkStats 0 Port.unseen (s.upstreamShown l) :=
  .foldl _ (fun _ _ hk ht => ht.put (linkStat_mem (List.mem_range.1 hk))) (.start hregs hports)

theorem execEnumProbeAnswer_assigned (hrole : s.role = 2) (l : Fin 4) (num : Fin 64) (hops : Fin 17) :
    ∃ t, exec (.enumProbeAnswer (.assigned l num hops)) s = .next t ∧
      (t = (s.assigned l num hops).upstreamShown l ∨ t = ((s.assigned l num hops).upstreamShown l).toLinkState l lkUp) := by
  refine ⟨_, if_neg (not_not_intro hrole), ?_⟩
  by_cases hstandby : ((s.assigned l num hops).upstreamShown l).linkState l = lkStandby
  · exact .inr (if_pos hstandby)
  · exact .inl (if_neg hstandby)

/-- A member that is assigned a number shows it, the link it came on and the hops. -/
theorem State.assigned_spec (hregs : tabWf regReset s.regs = true) (hports : tabWf Port.reset s.ports = true) (l : Fin 4) (num : Fin 64)
    (hops : Fin 17) :
    (s.assigned l num hops).Reads CH_STAT.DEVNUM num ∧ (s.assigned l num hops).Reads CH_STAT.NUMBERED 1 ∧
      (s.assigned l num hops).Reads CH_STAT.UPLINK l ∧ (s.assigned l num hops).Reads CH_STAT.HOPS hops := by
  have hstart : ∀ g, s.Reads g (s.rd g) := fun _ => .start hregs hports
  exact ⟨.wr (.wr (.wr (.wr (.takenAs (hstart _) num.isLt)))), .wr (.wr (.wr (.taken (.wr (hstart _))))),
    .wr (.wr (.takenAs (.wr (.wr (hstart _))) l.isLt)), .wr (.takenAs (.wr (.wr (.wr (hstart _)))) (hops.isLt.trans (by decide)))⟩

theorem linkStats_apart : ∀ g ∈ [CH_STAT.DEVNUM, CH_STAT.NUMBERED, CH_STAT.UPLINK, CH_STAT.HOPS],
    linkStats.all (fun f => f.apart g) = true := by decide +kernel

theorem enumProbeAnswer_assigned (hcanon : s.canon = true) (hrole : s.role = 2) (l : Fin 4) (num : Fin 64) (hops : Fin 17) :
    Completes (.enumProbeAnswer (.assigned l num hops)) s fun t =>
      t.rd CH_STAT.DEVNUM = num.val ∧ t.bit CH_STAT.NUMBERED = true ∧ t.rd CH_STAT.UPLINK = l.val ∧ t.rd CH_STAT.HOPS = hops.val := by
  obtain ⟨hnum, hnumbered, huplink, hhops⟩ := State.assigned_spec (State.regs_wf_of_canon hcanon) (State.ports_wf_of_canon hcanon) l num hops
  have hshown := State.upstreamShown_keeps hnum.regs_wf hnum.ports_wf l
  obtain ⟨t, hnext, ht⟩ := execEnumProbeAnswer_assigned hrole l num hops
  have hkeeps : (s.assigned l num hops).Keeps linkStats 0 Port.unseen t := by
    obtain rfl | rfl := ht
    · exact hshown
    · exact hshown.toLinkState (linkStat_mem l.isLt)
  exact completes_of_next hnext
    ⟨(hnum.kept hkeeps (linkStats_apart _ (by simp))).rd_eq, (hnumbered.kept hkeeps (linkStats_apart _ (by simp))).bit_eq,
    (huplink.kept hkeeps (linkStats_apart _ (by simp))).rd_eq, (hhops.kept hkeeps (linkStats_apart _ (by simp))).rd_eq⟩

end
end Sys2Proof.Machine
end

section
/-!
SUPPORT. Heartbeats, and the requests of CH_REQ (R336, R338, R350).
-/
namespace Sys2Proof.Machine

/-! ## Heartbeats (R336) -/

/-- The outputs of a fold that emits an output for each item that meets p, where outputs change neither p nor what is emitted. -/
theorem State.foldl_emit {α : Type} {p : State → α → Prop} [∀ s, DecidablePred (p s)] {f : State → α → Out}
    (hp : ∀ s o a, p (s.emit o) a ↔ p s a) (hf : ∀ s o a, f (s.emit o) a = f s a) (l : List α) (s : State) :
    l.foldl (fun s a => if p s a then s.emit (f s a) else s) s =
      { s with out := s.out ++ (l.filter (fun a => decide (p s a))).map (f s) } := by
  induction l generalizing s with
  | nil => simp
  | cons a l ih =>
    have hfun : ∀ o, f (s.emit o) = f s := fun o => funext (hf s o)
    rw [List.foldl_cons, List.filter_cons, ih]
    by_cases ha : p s a
    · simp only [ha, if_true, decide_true, hp, hfun]
      simp [State.emit]
    · simp [ha]

/-- Every entry that is written holds what was written, whatever is written after it. -/
theorem tabGet_foldl_tabPut (ds : List (Fin 64)) (x : Nat) {a : Tab Nat} (h : tabWf noEdge a = true) {d : Fin 64}
    (hd : d ∈ ds ∨ tabGet noEdge a d = x) : tabGet noEdge (ds.foldl (fun a d => tabPut noEdge a d.val x) a) d = x := by
  induction ds generalizing a with
  | nil => simpa using hd
  | cons e ds ih =>
    refine ih (tabPut_wf _ _ h) ?_
    rw [tabGet_tabPut _ _ _ h]
    obtain hd | hx := hd
    · obtain rfl | hrest := List.mem_cons.1 hd
      · exact .inr (if_pos rfl)
      · exact .inl hrest
    · exact .inr (by split_ifs <;> [rfl; exact hx])

theorem State.answered_wf_of_canon {s : State} (h : s.canon = true) : tabWf noEdge s.chain.answered = true := by
  simp only [State.canon, Bool.and_eq_true] at h
  tauto

section
variable {s : State}

/-- The table of the answers that the root has heard, with those of the members ds that are routed. -/
def State.heard (s : State) (ds : List (Fin 64)) : Tab Nat :=
  (ds.filter (fun d => s.chain.routed.contains d.val)).foldl (fun a d => tabPut noEdge a d.val s.time.tick) s.chain.answered

theorem State.heard_all (hcanon : s.canon = true) (ds : List (Fin 64)) :
    ds.all (fun d => !s.chain.routed.contains d.val || tabGet noEdge (s.heard ds) d == s.time.tick) = true := by
  refine List.all_eq_true.2 fun d hd => ?_
  cases hrouted : s.chain.routed.contains d.val with
  | false => rfl
  | true =>
    have hheard : tabGet noEdge (s.heard ds) d = s.time.tick :=
      tabGet_foldl_tabPut _ s.time.tick (State.answered_wf_of_canon hcanon) (.inl (List.mem_filter.2 ⟨hd, hrouted⟩))
    simp [hheard]

theorem execHeartbeat_root (hrole : s.role = 1) (ds : List (Fin 64)) : exec (.heartbeat ds) s =
    .next { s with out := s.out ++ s.chain.routed.map Out.heartbeat, chain := { s.chain with answered := s.heard ds } } := by
  have hemits : s.chain.routed.foldl (fun s d => s.emit (.heartbeat d)) s = { s with out := s.out ++ s.chain.routed.map Out.heartbeat } := by
    simpa using State.foldl_emit (p := fun _ _ => True) (f := fun _ => Out.heartbeat) (fun _ _ _ => Iff.rfl) (fun _ _ _ => rfl) s.chain.routed s
  refine (if_neg (not_not_intro hrole)).trans ?_
  rw [hemits]
  rfl

end

/-! ## Cells that join a link's transmitter -/

section
variable {s : State} {l : Nat} {c : Cell}

/-- The cells of link l that wait or have not been acknowledged. -/
def State.cellsOf (s : State) (l : Nat) : List Cell := (s.link l).waiting ++ (s.link l).replay

/-- A cell that leaves moves from those that wait to those not acknowledged. -/
theorem State.pump_count (fuel : Nat) : ∀ s : State, tabWf Link.reset s.links = true →
    ((s.pump l fuel).cellsOf l).count c = (s.cellsOf l).count c := by
  induction fuel with
  | zero => exact fun _ _ => rfl
  | succ fuel ih =>
    intro s hwf
    unfold State.pump
    split
    · rfl
    · rename_i v b _
      dsimp only
      split
      · rfl
      · rename_i x hx
        refine (ih _ (tabPut_wf _ _ hwf)).trans ?_
        have hmem : x ∈ (s.link l).waiting := List.mem_of_find?_eq_some hx
        have hlink : ∀ k : Link, (s.setLink l k).cellsOf l = k.waiting ++ k.replay := fun k => by
          rw [State.cellsOf, link_setLink_same hwf]
        refine (congrArg (List.count c) (hlink _)).trans ?_
        have hperm : ((s.link l).waiting.erase x ++ ((s.link l).replay ++ [x])).Perm ((s.link l).waiting ++ (s.link l).replay) := by
          rw [← List.append_assoc]
          exact (List.perm_append_singleton x _).trans ((List.perm_cons_erase hmem).append_right _).symm
        exact hperm.count_eq c

theorem State.queueCell_rst : (s.queueCell l c).rst = s.rst := (congrArg State.rst (s.queueCell_unsent l c) :)

theorem State.queueCell_count (hwf : tabWf Link.reset s.links = true) :
    ((s.queueCell l c).cellsOf l).count c = (s.cellsOf l).count c + 1 := by
  refine (State.pump_count _ _ (tabPut_wf _ _ hwf)).trans ?_
  rw [State.cellsOf, link_setLink_same hwf]
  change ((s.link l).waiting ++ [c] ++ (s.link l).replay).count c = ((s.link l).waiting ++ (s.link l).replay).count c + 1
  rw [List.count_append, List.count_append, List.count_append, List.count_singleton_self]
  omega

end

/-! ## Requests (R338) -/

/-- The word of a request. -/
def reqWord (dev : Fin 64) (all : Bool) (op : Nat) : Word := BitVec.ofNat 32 (dev.val + all.toNat * 0x40 + op * 0x100 + 0x80000000)

theorem reqWord_fields : ∀ (dev : Fin 64) (all : Bool) (op : Fin 4), (reqWord dev all op).getLsbD 31 = true ∧
    fldOf CH_REQ.OP (reqWord dev all op &&& 0x37F) = op ∧ fldOf CH_REQ.DEV (reqWord dev all op &&& 0x37F) = dev ∧
    fldOf CH_REQ.ALL (reqWord dev all op &&& 0x37F) = all.toNat := by decide +kernel

theorem reqFields_apart : logFields.all (fun f => f.apart CH_REQ.OP) = true ∧ logFields.all (fun f => f.apart CH_REQ.DEV) = true ∧
    logFields.all (fun f => f.apart CH_REQ.ALL) = true ∧ chainFields.all (fun f => f.apart CH_REQ.OP) = true ∧
    chainFields.all (fun f => f.apart CH_REQ.DEV) = true := by decide +kernel

/-- The state in which CH_REQ holds a request, on the record, before it is sent. -/
def State.reqHeld (s : State) (o : Origin) (v : Word) : State := (s.setReg CH_REQ (v &&& 0x37F)).configWrite o CH_REQ v (s.reg CH_REQ)

section
variable {s : State} {o : Origin} {dev : Fin 64} {all : Bool}

/-- Without a reset or a power state that is asked for, nothing is acted on. -/
theorem State.actRequests_none (hreq : s.rst.request = none) (hasked : s.rst.asked = none) : s.actRequests = s := by
  simp [State.actRequests, State.actPower, hreq, hasked]

theorem State.reqHeld_signals (v : Word) : s.Signals (s.reqHeld o v) := .configWrite (.setReg .start)

theorem State.reqHeld_reads (hcanon : s.canon = true) (op : Fin 4) :
    (s.reqHeld o (reqWord dev all op)).Reads CH_REQ.OP op ∧ (s.reqHeld o (reqWord dev all op)).Reads CH_REQ.DEV dev ∧
      (s.reqHeld o (reqWord dev all op)).Reads CH_REQ.ALL all.toNat := by
  obtain ⟨-, hop, hdev, hall⟩ := reqWord_fields dev all op
  obtain ⟨hopApart, hdevApart, hallApart, -⟩ := reqFields_apart
  have hregs := State.regs_wf_of_canon hcanon
  have hports := State.ports_wf_of_canon hcanon
  have hset : ∀ f : Fld, f.reg = CH_REQ → (s.setReg CH_REQ (reqWord dev all op &&& 0x37F)).Reads f (fldOf f (reqWord dev all op &&& 0x37F)) :=
    fun f hf => ⟨setReg_wf _ _ hregs, hports, by rw [State.rd, hf, reg_setReg_same hregs]⟩
  have hrecord : (s.setReg CH_REQ (reqWord dev all op &&& 0x37F)).Keeps logFields 0 Port.unseen (s.reqHeld o (reqWord dev all op)) :=
    .configWrite (fun _ h => h) (.start (setReg_wf _ _ hregs) hports)
  exact ⟨((hset CH_REQ.OP rfl).kept hrecord hopApart).of_eq hop, ((hset CH_REQ.DEV rfl).kept hrecord hdevApart).of_eq hdev,
    ((hset CH_REQ.ALL rfl).kept hrecord hallApart).of_eq hall⟩

/-- What CH_REQ's write leaves of the chain and its links. -/
theorem State.reqHeld_keeps (hcanon : s.canon = true) (v : Word) :
    s.Keeps (wholeReg CH_REQ :: logFields) 0 Port.unseen (s.reqHeld o v) :=
  .configWrite (by simp) (.setReg (.of_canon hcanon) (by simp))

theorem reqFields_apart_route : ∀ g ∈ [CH_CTRL, CH_STAT, CH_RTE 0, CH_RTE 1, CH_RTE 2, CH_RTE 3, LK_STAT 0, LK_STAT 1, LK_STAT 2, LK_STAT 3],
    (wholeReg CH_REQ :: logFields).all (fun f => f.apart (wholeReg g)) = true := by decide +kernel

theorem State.rd_reqHeld (hcanon : s.canon = true) (v : Word) {g : Fld}
    (hg : g.reg ∈ [CH_CTRL, CH_STAT, CH_RTE 0, CH_RTE 1, CH_RTE 2, CH_RTE 3, LK_STAT 0, LK_STAT 1, LK_STAT 2, LK_STAT 3]) :
    (s.reqHeld o v).rd g = s.rd g := (State.reqHeld_keeps hcanon v).rd_at (reqFields_apart_route _ hg)

theorem State.linkState_reqHeld (hcanon : s.canon = true) (v : Word) {l : Nat} (hl : l < 4) :
    (s.reqHeld o v).linkState l = s.linkState l :=
  State.rd_reqHeld hcanon v (by interval_cases l <;> simp [LK_STAT.STATE])

theorem State.chain_reqHeld (v : Word) : (s.reqHeld o v).chain = s.chain := (s.reqHeld_signals v).chain_eq

theorem State.links_reqHeld (v : Word) : (s.reqHeld o v).links = s.links := (s.reqHeld_signals v).links_eq

theorem State.rst_reqHeld (v : Word) : (s.reqHeld o v).rst = s.rst := (s.reqHeld_signals v).rst_eq

theorem State.routeLink_reqHeld (hcanon : s.canon = true) (v : Word) : (s.reqHeld o v).routeLink dev = s.routeLink dev := by
  have hrte : (s.reqHeld o v).rteEntry dev = s.rteEntry dev := by
    refine State.rd_reqHeld hcanon v ?_
    have hdiv : dev.val / 16 < 4 := by omega
    change CH_RTE (dev.val / 16) ∈ _
    interval_cases dev.val / 16 <;> simp
  rw [State.routeLink, State.routeLink, State.chain_reqHeld, hrte, State.isMember, State.bit, State.bit, State.rd_reqHeld hcanon v (by decide),
    State.rd_reqHeld hcanon v (by decide), State.rd_reqHeld hcanon v (by decide), State.rd_reqHeld hcanon v (by decide)]
  rfl

/-- A request of the root for one other device is passed on to it. -/
theorem State.chainReqWrite_eq (hcanon : s.canon = true) (hrole : s.role = 1) (hother : dev.val ≠ s.ownNum) (op : Fin 4) (hop : op.val ≠ 0) :
    s.chainReqWrite o op dev false =
      ((s.reqHeld o (reqWord dev false op)).passRequest (Fin.ofNat 64 s.ownNum) dev op).actRequests := by
  obtain ⟨hopRead, hdevRead, hallRead⟩ := State.reqHeld_reads (o := o) (dev := dev) (all := false) hcanon op
  have hgo : (reqWord dev false op).getLsbD 31 = true := (reqWord_fields dev false op).1
  have hrole' : (s.reqHeld o (reqWord dev false op)).role = 1 := by rw [State.role, State.rd_reqHeld hcanon _ (by decide), ← hrole, State.role]
  have hown : (s.reqHeld o (reqWord dev false op)).ownNum = s.ownNum := State.rd_reqHeld hcanon _ (by decide)
  have hsend : (s.reqHeld o (reqWord dev false op)).sendRequests o =
      (s.reqHeld o (reqWord dev false op)).passRequest (Fin.ofNat 64 s.ownNum) dev op := by
    simp [State.sendRequests, hopRead.rd_eq, hdevRead.rd_eq, hallRead.bit_eq, hrole', hop, hown, hother]
  rw [← hsend]
  exact congrArg State.actRequests (if_pos hgo)

/-- On a link that is UP a request is passed on as a cell. -/
theorem State.passRequest_up {l n op : Nat} (hlink : s.routeLink dev = some l) (hup : s.linkState l = lkUp) :
    s.passRequest (Fin.ofNat 64 n) dev op =
      s.queueCell l { vc := 3, src := Fin.ofNat 64 n, dst := dev, msg := .request (BitVec.ofNat 2 op) } := by
  simp [State.passRequest, hlink, hup, lkUp, lkSleep]

/-- A device behind a link that sleeps is woken. -/
theorem State.passRequest_sleep {l n : Nat} (hlink : s.routeLink dev = some l) (hsleep : s.linkState l = lkSleep) :
    s.passRequest (Fin.ofNat 64 n) dev 3 = s.emit (.wakeUp l) := by
  simp [State.passRequest, hlink, hsleep]

/-- A request of CH_REQ to a device whose link is UP is queued on that link. -/
theorem chainReq_queued (hcanon : s.canon = true) {l : Nat} (hroute : s.routeTo dev = some l)
    (hroot : s.role = 1 ∧ dev.val ≠ s.ownNum) (hfree : s.rst.request = none ∧ s.rst.asked = none) (op : Fin 4) (hop : op.val ≠ 0) :
    (s.chainReqWrite o op dev false).rd CH_REQ.OP = op ∧ (s.chainReqWrite o op dev false).rd CH_REQ.DEV = dev ∧
      ((s.chainReqWrite o op dev false).cellsOf l).count
        { vc := 3, src := Fin.ofNat 64 s.ownNum, dst := dev, msg := .request (BitVec.ofNat 2 op) } =
      (s.cellsOf l).count { vc := 3, src := Fin.ofNat 64 s.ownNum, dst := dev, msg := .request (BitVec.ofNat 2 op) } + 1 := by
  obtain ⟨hrouted, hl, hup⟩ := State.routeTo_eq_some hroute
  obtain ⟨hopRead, hdevRead, -⟩ := State.reqHeld_reads (o := o) (dev := dev) (all := false) hcanon op
  obtain ⟨-, -, -, hopApart, hdevApart⟩ := reqFields_apart
  have hlinks := State.links_reqHeld (s := s) (o := o) (reqWord dev false op)
  have hrst := State.rst_reqHeld (s := s) (o := o) (reqWord dev false op)
  have hlink : (s.reqHeld o (reqWord dev false op)).routeLink dev = some l :=
    (State.routeLink_reqHeld hcanon _).trans hrouted
  have hupHeld : (s.reqHeld o (reqWord dev false op)).linkState l = lkUp := (State.linkState_reqHeld hcanon _ hl).trans hup
  have hwf : tabWf Link.reset (s.reqHeld o (reqWord dev false op)).links = true := hlinks ▸ State.links_wf_of_canon hcanon
  rw [State.chainReqWrite_eq hcanon hroot.1 hroot.2 op hop, State.passRequest_up hlink hupHeld, State.actRequests_none
    (by rw [State.queueCell_rst, hrst, hfree.1]) (by rw [State.queueCell_rst, hrst, hfree.2])]
  have hkeeps : (s.reqHeld o (reqWord dev false op)).KeepsLinks ((s.reqHeld o (reqWord dev false op)).queueCell l
      { vc := 3, src := Fin.ofNat 64 s.ownNum, dst := dev, msg := .request (BitVec.ofNat 2 op) }) :=
    .queueCell hl hupHeld (.start hopRead.regs_wf hopRead.ports_wf hwf)
  refine ⟨(hopRead.kept hkeeps.keeps hopApart).rd_eq, (hdevRead.kept hkeeps.keeps hdevApart).rd_eq, ?_⟩
  rw [State.queueCell_count hwf, State.cellsOf, State.link, hlinks]
  rfl

/-- A wake of a device whose link sleeps leaves as a wake-up. -/
theorem chainReq_wakes (hcanon : s.canon = true) {l : Nat} (hlink : s.routeLink dev = some l) (hsleep : s.linkState l = lkSleep)
    (hroot : s.role = 1 ∧ dev.val ≠ s.ownNum) (hfree : s.rst.request = none ∧ s.rst.asked = none) :
    (s.chainReqWrite o 3 dev false).out.contains (.wakeUp l) = true := by
  have hl : l < 4 := State.routeLink_lt hlink
  have hrst := State.rst_reqHeld (s := s) (o := o) (reqWord dev false 3)
  have hwakes := State.passRequest_sleep (n := s.ownNum) ((State.routeLink_reqHeld (o := o) hcanon (reqWord dev false 3)).trans hlink)
    ((State.linkState_reqHeld hcanon _ hl).trans hsleep)
  have hwrite : s.chainReqWrite o 3 dev false = ((s.reqHeld o (reqWord dev false 3)).emit (.wakeUp l)).actRequests :=
    (State.chainReqWrite_eq (o := o) hcanon hroot.1 hroot.2 3 (by decide)).trans (congrArg State.actRequests hwakes)
  rw [hwrite, State.actRequests_none (hrst ▸ hfree.1) (hrst ▸ hfree.2)]
  simp [State.emit]

/-- Operation 0 sends nothing. -/
theorem chainReq_ignored (hcanon : s.canon = true) (hfree : s.rst.request = none ∧ s.rst.asked = none) :
    (s.chainReqWrite o 0 dev all).rd CH_REQ.OP = 0 ∧ (s.chainReqWrite o 0 dev all).rd CH_REQ.DEV = dev ∧
      (s.chainReqWrite o 0 dev all).links = s.links := by
  obtain ⟨hopRead, hdevRead, -⟩ := State.reqHeld_reads (o := o) (dev := dev) (all := all) hcanon 0
  have hrst := State.rst_reqHeld (s := s) (o := o) (reqWord dev all 0)
  have hsend : (s.reqHeld o (reqWord dev all 0)).sendRequests o = s.reqHeld o (reqWord dev all 0) := if_pos (.inr hopRead.rd_eq)
  have hwrite : s.chainReqWrite o 0 dev all = s.reqHeld o (reqWord dev all 0) :=
    (congrArg State.actRequests ((if_pos (reqWord_fields dev all 0).1).trans hsend)).trans
      (State.actRequests_none (hrst ▸ hfree.1) (hrst ▸ hfree.2))
  rw [hwrite]
  exact ⟨hopRead.rd_eq, hdevRead.rd_eq, State.links_reqHeld _⟩

end
end Sys2Proof.Machine
end

section
/-!
SUPPORT. A member that is declared lost: its reads, its cells, its commands, and what the root shows of it (R28, R336, R459).
-/
namespace Sys2Proof.Machine

/-! ## Time that passes, and the gateways that sample -/

section
variable (s : State) (k : Nat)

/-- Time that passes changes the time base at most. -/
theorem State.elapse_time : ∃ y : TimeBase, s.elapse k = { s with time := y } := by
  unfold State.elapse
  dsimp only
  split_ifs <;> exact ⟨_, rfl⟩

theorem State.runTo_time : ∃ y : TimeBase, s.runTo k = { s with time := y } := by
  unfold State.runTo
  split_ifs
  · exact s.elapse_time _
  · exact ⟨s.time, rfl⟩

/-- A gateway that samples its input changes the interrupt controller at most. -/
theorem State.sampleInput_gates : ∃ e : Eic, s.sampleInput k = { s with eic := e } := by
  unfold State.sampleInput
  dsimp only
  split_ifs <;> exact ⟨_, rfl⟩

end

namespace State.KeepsLinks
section
variable {s t : State}

theorem runTo {k : Nat} (h : s.KeepsLinks t) : s.KeepsLinks (t.runTo k) := by
  obtain ⟨y, hy⟩ := t.runTo_time k
  rw [hy]
  exact h.same rfl rfl rfl rfl rfl

theorem failReads {d st : Nat} (h : s.KeepsLinks t) : s.KeepsLinks (t.failReads d st) := .foldl _ (fun _ _ ht => ht.failRead) h

/-! ## Commands that end (R28, R451, R459) -/

theorem giveWay {code gave holds kind obj : Nat} {more : List Nat} (h : s.KeepsLinks t) (hcode : code / 256 < 16 := by decide) :
    s.KeepsLinks (t.giveWay code gave holds kind obj more) := h.event hcode

theorem withHost {x : HostIf} (h : s.KeepsLinks t) : s.KeepsLinks { t with host := x } := h.same rfl rfl rfl rfl rfl

theorem hold {x : Completion} (h : s.KeepsLinks t) : s.KeepsLinks (t.hold x) :=
  .ite h.withHost (.ite (.giveWay (.chainReg (by decide) (.chainReg (by decide) h.withHost))) h.withHost)

theorem endAbort {a : AbortSlot} {st : Nat} (h : s.KeepsLinks t) : s.KeepsLinks (t.endAbort a st) := by
  have htold : ∀ x : HostIf, s.KeepsLinks (if a.away then ({ t with host := x } : State) else
      ({ t with host := x } : State).event Ev.ABORT [a.kind, a.object, a.stopped, a.extra] a.org) := fun x => .ite h.withHost (.event h.withHost)
  unfold State.endAbort
  dsimp only
  split
  · exact .trySend (htold _)
  · exact .same (.hold (htold _)) rfl rfl rfl rfl rfl

theorem tagEnded {k : Nat} (h : s.KeepsLinks t) : s.KeepsLinks (t.tagEnded k) := .foldl _ (fun _ _ ht => ht.endAbort) h.withHost

theorem finishAt {c : Cmd} {src st count detail stamp seq : Nat} {out : List Byte} (h : s.KeepsLinks t) :
    s.KeepsLinks (t.finishAt c src st count detail stamp seq out) := by
  unfold State.finishAt
  dsimp only
  split
  · exact .trySend h.withHost
  · exact .tagEnded (.hold h.withHost)

theorem commandsLost {d : Nat} (h : s.KeepsLinks t) : s.KeepsLinks (t.commandsLost d) :=
  .ite h (.foldl _ (fun _ _ ht => ht.endAbort) (.foldl _ (fun _ _ ht => ht.finishAt) (.foldl _ (fun _ _ ht => ht.giveWay) h)))

end
end State.KeepsLinks

/-! ## Cells that still wait (R336) -/

namespace State.KeepsMap
section
variable {s t u : State}

theorem trans (hst : s.KeepsMap t) (htu : t.KeepsMap u) : s.KeepsMap u where
  keeps := .andThen (fun _ hf => hf) hst.keeps htu.keeps rfl
  links_wf := htu.links_wf
  map_eq := htu.map_eq.trans hst.map_eq
  lines_eq := htu.lines_eq.trans hst.lines_eq

theorem restart (h : s.KeepsMap t) : t.KeepsLinks t := .start h.keeps.regs_wf h.keeps.ports_wf h.links_wf

theorem setLink {l : Nat} {k : Link} (h : s.KeepsMap t) : s.KeepsMap (t.setLink l k) where
  keeps := h.keeps.same rfl rfl
  links_wf := tabPut_wf _ _ h.links_wf
  map_eq := h.map_eq
  lines_eq := h.lines_eq

theorem cellsLost {d : Nat} (h : s.KeepsMap t) : s.KeepsMap (t.cellsLost d) := by
  refine List.foldlRecOn (motive := fun u : State => s.KeepsMap u) _ _ h fun u hu l _ => ?_
  dsimp only
  split_ifs
  · exact hu
  · exact hu.setLink.trans (State.KeepsLinks.foldl _ (fun _ _ ht => ht.strand (by decide)) hu.setLink.restart).toKeepsMap

end
end State.KeepsMap

/-! ## The lines of a member -/

section
variable {s t : State} {d : Nat} {lines : BitVec 6}

/-- The state in which the root knows the lines of member d. -/
def State.linesKnown (s : State) (d : Nat) (lines : BitVec 6) : State :=
  { s with eic := { s.eic with members := tabPut (fun _ => 0) s.eic.members d lines } }

theorem State.memberLines_eq (s : State) (d : Nat) (lines : BitVec 6) : s.memberLines d lines =
    if (s.linesKnown d lines).partRuns .eic then ((s.linesKnown d lines).sampleInput (165 + d)).refreshLines else s.linesKnown d lines := rfl

theorem State.memberLines_signals (h : s.Signals t) : s.Signals (t.memberLines d lines) := by
  obtain ⟨e, he⟩ := (t.linesKnown d lines).sampleInput_gates (165 + d)
  rw [State.memberLines_eq, he]
  exact .ite (.refreshLines ⟨h.untold_eq⟩) ⟨h.untold_eq⟩

theorem State.Keeps.memberLines (h : s.Keeps (guardFields 0) 0 Port.unseen t) : s.Keeps (guardFields 0) 0 Port.unseen (t.memberLines d lines) := by
  obtain ⟨e, he⟩ := (t.linesKnown d lines).sampleInput_gates (165 + d)
  rw [State.memberLines_eq, he]
  exact .ite (.refreshLines (h.same rfl rfl)) (h.same rfl rfl)

theorem State.memberLines_shownLines : (s.memberLines d lines).shownLines = tabPut (fun _ => 0) s.shownLines d lines := by
  rw [State.memberLines_eq]
  split_ifs
  · rw [State.refreshLines_shownLines, State.sampleInput_shownLines]
    rfl
  · rfl


/-! ## A member that is lost -/

theorem State.map_wf_of_canon (h : s.canon = true) : tabWf MapEntry.reset s.chain.map = true := by
  simp only [State.canon, Bool.and_eq_true] at h
  tauto

theorem State.shownLines_wf_of_canon (h : s.canon = true) : tabWf (fun _ => 0) s.shownLines = true := by
  simp only [State.canon, Bool.and_eq_true] at h
  tauto

/-- The state in which the root shows that member d is lost, before the event. -/
def State.lossShown (s : State) (d : Nat) (e : MapEntry) : State :=
  ((((s.setMapEntry d { e with lost := true }).showMembers).memberLines d 0).on CH_EVT.MEMBER_LOST).inc CH_CNT_LOST

theorem State.loseMember_eq (s : State) (d : Nat) : s.loseMember d =
    (((((s.failReads d 3).cellsLost d).commandsLost d).lossShown d (s.mapEntry d)).event Ev.MEMBER_LOST (d :: snWords (s.mapEntry d).sn)).fire
      2042 := rfl

theorem lossFields_apart : ∀ g ∈ [wholeReg CH_CNT_LOST, CH_EVT.MEMBER_LOST], chainFields.all (fun f => f.apart g) = true ∧
    (guardFields 0).all (fun f => f.apart g) = true := by decide +kernel

theorem State.lossShown_keeps (h : s.KeepsMap t) (e : MapEntry) : s.Keeps chainFields 0 Port.unseen
    (((t.setMapEntry d { e with lost := true }).showMembers).memberLines d 0) := by
  have hshown : s.Keeps chainFields 0 Port.unseen (t.setMapEntry d { e with lost := true }).showMembers :=
    .wrField (h.keeps.same rfl rfl) (chainBits_mem (by simp [chainBits]))
  exact hshown.andThen guardFields_subset_chainFields (.memberLines (.start hshown.regs_wf hshown.ports_wf)) rfl

theorem State.Reads.fire {g : Fld} {x k : Nat} (h : s.Reads g x) (hg : (guardFields 0).all (fun f => f.apart g) = true) : (s.fire k).Reads g x :=
  h.kept (.fire (.start h.regs_wf h.ports_wf)) hg

/-- What the root shows of a member that is lost, in its map, its registers and the lines of members. -/
theorem State.lossShown_spec (hcanon : s.canon = true) (h : s.KeepsMap t) (e : MapEntry) :
    ((t.lossShown d e).mapEntry d).lost = true ∧ (t.lossShown d e).Reads (wholeReg CH_CNT_LOST) (countUp (s.reg CH_CNT_LOST)).toNat ∧
      (t.lossShown d e).Reads CH_EVT.MEMBER_LOST 1 ∧ tabGet (fun _ => 0) (t.lossShown d e).shownLines d = 0 := by
  have hkeeps := State.lossShown_keeps (d := d) h e
  have hchain : (t.lossShown d e).chain = (t.setMapEntry d { e with lost := true }).chain :=
    (State.memberLines_signals (s := (t.setMapEntry d { e with lost := true }).showMembers) (d := d) (lines := 0) .start).chain_eq
  have hcount : s.Reads (wholeReg CH_CNT_LOST) (s.reg CH_CNT_LOST).toNat := (State.Reads.of_canon hcanon).of_eq (rd_wholeReg s _)
  refine ⟨?lost, ?count, ?noted, ?lines⟩
  case lost =>
    have hentry : (t.lossShown d e).mapEntry d = { e with lost := true } := by
      rw [State.mapEntry, hchain]
      exact (tabGet_tabPut _ _ _ (h.map_eq ▸ State.map_wf_of_canon hcanon)).trans (if_pos rfl)
    rw [hentry]
  case count => exact .counted (.wr (hcount.kept hkeeps (lossFields_apart _ (by simp)).1))
  case noted => exact .setReg (.taken (State.Reads.start hkeeps.regs_wf hkeeps.ports_wf)) (by decide)
  case lines =>
    have hlines : (t.lossShown d e).shownLines = tabPut (fun _ => 0) t.shownLines d 0 := State.memberLines_shownLines
    rw [hlines, tabGet_tabPut _ _ _ (h.lines_eq ▸ State.shownLines_wf_of_canon hcanon), if_pos rfl]

/-- A member that the root declares lost. -/
theorem memberLost_completes (hcanon : s.canon = true) (d : Fin 64) (hrole : s.role = 1) (hpresent : (s.mapEntry d).present = true)
    (hlost : (s.mapEntry d).lost = false) (hawake : (s.mapEntry d).asleep = false) :
    Completes (.memberLost d) s fun t => (t.mapEntry d).lost = true ∧ t.reg CH_CNT_LOST = countUp (s.reg CH_CNT_LOST) ∧
      t.bit CH_EVT.MEMBER_LOST = true ∧ tabGet (fun _ => 0) t.eic.members d = 0 := by
  have hnext : ∃ k, exec (.memberLost d) s = .next ((s.runTo k).loseMember d) := ⟨_, if_neg (by simp [hrole, hpresent, hlost, hawake])⟩
  obtain ⟨k, hnext⟩ := hnext
  have hreads : s.KeepsLinks ((s.runTo k).failReads d 3) := (State.KeepsLinks.of_canon hcanon).runTo.failReads
  have hcells : s.KeepsMap (((s.runTo k).failReads d 3).cellsLost d) := hreads.toKeepsMap.cellsLost
  have hgone : s.KeepsMap ((((s.runTo k).failReads d 3).cellsLost d).commandsLost d) := hcells.trans hcells.restart.commandsLost.toKeepsMap
  obtain ⟨hentry, hcount, hnoted, hlines⟩ := State.lossShown_spec (d := d) hcanon hgone ((s.runTo k).mapEntry d)
  rw [State.loseMember_eq] at hnext
  generalize ((((s.runTo k).failReads d 3).cellsLost d).commandsLost d).lossShown d ((s.runTo k).mapEntry d) = u at *
  refine completes_of_next hnext ⟨?lost, ?count, ?noted, ?lines⟩
  case lost =>
    have htold : u.Signals ((u.event Ev.MEMBER_LOST (d :: snWords ((s.runTo k).mapEntry d).sn)).fire 2042) := .fire (.event .start)
    rw [State.mapEntry, htold.chain_eq]
    exact hentry
  case count => exact ((hcount.event (by decide +kernel)).fire (lossFields_apart _ (by simp)).2).reg_eq
  case noted => exact ((hnoted.event (by decide +kernel)).fire (lossFields_apart _ (by simp)).2).bit_eq
  case lines =>
    have hsame : ((u.event Ev.MEMBER_LOST (d :: snWords ((s.runTo k).mapEntry d).sn)).fire 2042).shownLines = u.shownLines :=
      (State.fire_shownLines _ _).trans (congrArg Eic.members (State.event_eic _ _ _ _))
    exact (congrArg (fun x => tabGet (fun _ => 0) x d) hsame).trans hlines

end
end Sys2Proof.Machine
end

section
/-!
SUPPORT. The members of the chain in 09_sahoz_chain.md, as one statement (R321 to R354).
-/
namespace Sys2Proof.Machine

/-- Settles O29: an enumeration that is asked for meets the same links before and after the write that asks; what the loss of a member strands
changes neither its entry nor the lines of members; a request is one more cell on its link, whether it waits or has left. -/
theorem chainMembershipComplete : Obligations.ChainMembershipComplete := by
  unfold Obligations.ChainMembershipComplete
  refine ⟨?startBusy, ?startProbe, ?startDone, ?reenumBusy, ?reenumProbe, ?reenumDone, ?forget, ?noAnswer, ?assigned, ?heartbeat, ?lost,
    ?coreReset, ?systemReset, ?wake, ?wakeUp, ?ignored⟩
  case startBusy =>
    exact fun s _ ⟨hrole, hruns, hbusy⟩ => completes_of_next rfl (State.enumAsk_busy ⟨hrole, hruns⟩ hbusy ▸ ⟨rfl, rfl⟩)
  case startProbe =>
    exact fun s hcanon x hx ⟨hrole, hruns, hidle⟩ => completes_of_next rfl (State.enumAsk_probe (.of_canon hcanon) ⟨hrole, hruns⟩ hidle hx)
  case startDone =>
    exact fun s hcanon ⟨hrole, hruns, hidle, hnone⟩ => completes_of_next rfl
      (State.enumAsk_done (.of_canon hcanon) ⟨hrole, hruns⟩ hidle hnone)
  case reenumBusy =>
    exact fun s o written hcanon ⟨hrole, hruns, hbusy⟩ => completes_of_next rfl ((reenum_asksAs hcanon o written).busy ⟨hrole, hruns⟩ hbusy).1
  case reenumProbe =>
    intro s o written hcanon x hx ⟨hrole, hruns, hidle⟩
    obtain ⟨hbusy, hprobes, hmet, hout⟩ := (reenum_asksAs hcanon o written).probe ⟨hrole, hruns⟩ hidle hx
    exact completes_of_next rfl ⟨hbusy, hprobes, hmet, hout ▸ List.getLast?_concat⟩
  case reenumDone =>
    exact fun s o written hcanon ⟨hrole, hruns, hidle, hnone⟩ => completes_of_next rfl
      ((reenum_asksAs hcanon o written).done ⟨hrole, hruns⟩ hidle hnone)
  case forget => exact fun s o _ => completes_of_next rfl rfl
  case noAnswer => exact fun s _ x hx ⟨hrole, hbusy⟩ => completes_of_next (enumProbeAnswer_none hx hrole hbusy) ⟨rfl, rfl⟩
  case assigned => exact fun s l num hops hcanon hrole => enumProbeAnswer_assigned hcanon hrole l num hops
  case heartbeat =>
    exact fun s answers hcanon hrole => completes_of_next (execHeartbeat_root hrole answers) ⟨State.heard_all hcanon answers, rfl⟩
  case lost =>
    exact fun s d hcanon ⟨hrole, hpresent, hlost, hawake⟩ => memberLost_completes hcanon d hrole hpresent hlost hawake
  case coreReset =>
    rintro s o dev _ hcanon l hroute ⟨hrole, hother, rfl, hreq, hasked⟩
    exact completes_of_next rfl (chainReq_queued (o := o) hcanon hroute ⟨hrole, hother⟩ ⟨hreq, hasked⟩ 1 (by decide))
  case systemReset =>
    rintro s o dev _ hcanon l hroute ⟨hrole, hother, rfl, hreq, hasked⟩
    exact completes_of_next rfl (chainReq_queued (o := o) hcanon hroute ⟨hrole, hother⟩ ⟨hreq, hasked⟩ 2 (by decide))
  case wake =>
    rintro s o dev _ hcanon l hroute ⟨hrole, hother, rfl, hreq, hasked⟩
    exact completes_of_next rfl (chainReq_queued (o := o) hcanon hroute ⟨hrole, hother⟩ ⟨hreq, hasked⟩ 3 (by decide))
  case wakeUp =>
    rintro s o dev _ hcanon l hroute ⟨hrole, hother, rfl, hreq, hasked, hsleep⟩
    exact completes_of_next rfl (chainReq_wakes hcanon hroute hsleep ⟨hrole, hother⟩ ⟨hreq, hasked⟩)
  case ignored => exact fun s o dev all hcanon hfree => completes_of_next rfl (chainReq_ignored hcanon hfree)

end Sys2Proof.Machine
end

section
/-!
SUPPORT. Reads and writes of other devices in 09_sahoz_chain.md, and the orphan-write log (R326 to R334).
-/
namespace Sys2Proof.Machine

section
variable {s t : State}

/-! ## Reads (R326, R327) -/

/-- The state in which read r waits for its answer. -/
def State.readSent (s : State) (r : ChainRead) : State := s.withChain { s.chain with reads := s.chain.reads ++ [r] }

theorem execBar4Read_far {m : Master} {d : Fin 64} {off : BitVec 24} {size : BitVec 4} (hcarried : carried off.toNat size.toNat = true)
    (hother : d.val ≠ s.ownNum) (hassigned : s.unassigned d = false) (hgoes : s.farStop d = none) : ∃ c, exec (.bar4Read m d off size) s =
      .next ((s.readSent { m := m, dev := d, off := off.toNat, wide := decide (size = 8), at_ := s.time.tick }).trySend c) := by
  refine ⟨s.cellTo 0 d (.read (BitVec.ofNat 24 off.toNat) (decide (size = 8))), ?_⟩
  refine (if_neg (by rw [hcarried]; decide)).trans ((if_neg hother).trans ?_)
  simp only [State.farRead, hassigned, hgoes, Bool.false_eq_true, if_false]
  rfl

/-- The state without read r. -/
def State.readTaken (s : State) (r : ChainRead) : State := s.withChain { s.chain with reads := s.chain.reads.erase r }

theorem State.answerRead_other {r : ChainRead} (hm : r.m ≠ .calm) (v : Word64) (ok : Bool) :
    s.answerRead r v ok = s.emit (.answer r.m v) := if_pos hm

theorem execBar4ReadResponse_ok {d : Fin 64} {off : BitVec 24} {v : Word64} {r : ChainRead}
    (hr : s.chain.reads.find? (fun r => decide (r.dev = d.val) && decide (r.off = off.toNat)) = some r) (hm : r.m ≠ .calm) :
    exec (.bar4ReadResponse d off v 0) s = .next ((s.readTaken r).emit (.answer r.m (if r.wide then v else v &&& 0xFFFFFFFF))) := by
  simp only [exec, execBar4ReadResponse, hr]
  exact congrArg Host.Outcome.next (State.answerRead_other hm _ _)

theorem State.Reads.runTo {g : Fld} {x k : Nat} (h : s.Reads g x) : (s.runTo k).Reads g x :=
  h.kept (fs := []) (n := 0) (v := id) (.runTo (.start h.regs_wf h.ports_wf)) rfl

/-- The state in which the failure of a chain read is counted and noted. -/
def State.readFailed (s : State) (r : ChainRead) : State := ((s.readTaken r).inc CH_CNT_RDFAIL).on CH_EVT.RD_FAIL

theorem execChainRdFail_eq {d : Fin 64} {off : BitVec 24} {r : ChainRead}
    (hr : s.chain.reads.find? (fun r => decide (r.dev = d.val) && decide (r.off = off.toNat)) = some r) (hm : r.m ≠ .calm) :
    ∃ k nums, exec (.chainRdFail d off) s = .next ((((s.runTo k).readFailed r).event Ev.CHAIN_RD_FAIL nums).emit
      (.answer r.m (if r.wide then 0xFFFFFFFFFFFFFFFF else 0xFFFFFFFF))) := by
  simp only [exec, execChainRdFail, hr]
  exact ⟨_, _, congrArg Host.Outcome.next (State.answerRead_other hm _ _)⟩

theorem rdfailFields_apart : logFields.all (fun f => f.apart (wholeReg CH_CNT_RDFAIL)) = true := by decide +kernel

/-- A read that gets no answer in time fails, counted, with all ones (R327). -/
theorem chainRdFail_completes (hcanon : s.canon = true) {d : Fin 64} {off : BitVec 24} {r : ChainRead}
    (hr : s.chain.reads.find? (fun r => decide (r.dev = d.val) && decide (r.off = off.toNat)) = some r) (hm : r.m ≠ .calm) :
    Completes (.chainRdFail d off) s fun t => t.chain.reads = s.chain.reads.erase r ∧
      t.reg CH_CNT_RDFAIL = countUp (s.reg CH_CNT_RDFAIL) ∧
      t.out.getLast? = some (.answer r.m (if r.wide then 0xFFFFFFFFFFFFFFFF else 0xFFFFFFFF)) := by
  obtain ⟨k, nums, hnext⟩ := execChainRdFail_eq hr hm
  obtain ⟨y, hrun⟩ := s.runTo_time k
  have hcount : s.Reads (wholeReg CH_CNT_RDFAIL) (s.reg CH_CNT_RDFAIL).toNat := (State.Reads.of_canon hcanon).of_eq (rd_wholeReg s _)
  have htaken : ((s.runTo k).readTaken r).Reads (wholeReg CH_CNT_RDFAIL) (s.reg CH_CNT_RDFAIL).toNat := hcount.runTo.same rfl rfl
  have hfailed : ((s.runTo k).readFailed r).Reads (wholeReg CH_CNT_RDFAIL) (countUp (s.reg CH_CNT_RDFAIL)).toNat := .wr htaken.counted
  have hchain : (((s.runTo k).readFailed r).event Ev.CHAIN_RD_FAIL nums).chain = ((s.runTo k).readFailed r).chain :=
    (State.Signals.event .start).chain_eq
  refine completes_of_next hnext ⟨?_, (hfailed.event rdfailFields_apart).reg_eq, List.getLast?_concat⟩
  refine (congrArg Chain.reads hchain).trans ?_
  rw [hrun]
  rfl

/-! ## Writes that fail (R328, R333, R334) -/

/-- The registers in which the orphan-write log shows its entries. -/
def orphFields : List Fld := [wholeReg CH_ORPH_LOST, wholeReg CH_ORPH_STAT]

/-- The state in which a write that failed is counted and noted, with its event. -/
def State.orphanNoted (s : State) (nums : List Nat) : State := ((s.inc CH_CNT_ORPHAN).on CH_EVT.ORPHAN).event Ev.ORPHAN_WRITE nums

/-- A write that failed takes the next entry of the orphan-write log, and is noted. -/
theorem State.orphan_entered (hregs : tabWf regReset s.regs = true) (hports : tabWf Port.reset s.ports = true)
    (status reporter dev off : Nat) (wide : Bool) (v : Word64) (origin : Nat) :
    ∃ u nums, s.orphan status reporter dev off wide v origin = u.orphanNoted nums ∧ s.Keeps orphFields 0 Port.unseen u ∧
      u.chain.orphanSeq = s.chain.orphanSeq + 1 := by
  have hstart : s.Keeps orphFields 0 Port.unseen s := .start hregs hports
  have hlost : s.Keeps orphFields 0 Port.unseen
      (if s.chain.orphanUnread.contains (s.chain.orphanSeq % 64) then s.inc CH_ORPH_LOST else s) :=
    .ite (hstart.inc (by simp [orphFields])) hstart
  refine ⟨_, _, rfl, .put (.wr (hlost.same rfl rfl) ?_) ?_, rfl⟩
  · exact List.mem_cons_of_mem _ (List.mem_singleton_self _)
  · exact List.mem_cons_of_mem _ (List.mem_singleton_self _)

theorem orphanFields_apart : orphFields.all (fun f => f.apart (wholeReg CH_CNT_ORPHAN)) = true ∧
    logFields.all (fun f => f.apart (wholeReg CH_CNT_ORPHAN)) = true ∧ logFields.all (fun f => f.apart CH_EVT.ORPHAN) = true := by
  decide +kernel

/-- What the failure of a write counts and notes. -/
theorem State.orphan_spec {count : Word} (h : s.Reads (wholeReg CH_CNT_ORPHAN) count.toNat)
    (status reporter dev off : Nat) (wide : Bool) (v : Word64) (origin : Nat) :
    (s.orphan status reporter dev off wide v origin).reg CH_CNT_ORPHAN = countUp count ∧
    (s.orphan status reporter dev off wide v origin).chain.orphanSeq = s.chain.orphanSeq + 1 ∧
    (s.orphan status reporter dev off wide v origin).bit CH_EVT.ORPHAN = true := by
  obtain ⟨hentered, hcounted, hnoted⟩ := orphanFields_apart
  obtain ⟨u, nums, horphan, hkeeps, hseq⟩ := State.orphan_entered h.regs_wf h.ports_wf status reporter dev off wide v origin
  have hcount : ((u.inc CH_CNT_ORPHAN).on CH_EVT.ORPHAN).Reads (wholeReg CH_CNT_ORPHAN) (countUp count).toNat :=
    .wr (.counted (h.kept hkeeps hentered))
  have hevt : ((u.inc CH_CNT_ORPHAN).on CH_EVT.ORPHAN).Reads CH_EVT.ORPHAN 1 :=
    .taken (State.Reads.start (setReg_wf _ _ hkeeps.regs_wf) hkeeps.ports_wf)
  have hchain : (u.orphanNoted nums).chain = u.chain := (State.Signals.event (.setReg (.setReg .start))).chain_eq
  rw [horphan]
  exact ⟨(hcount.event hcounted).reg_eq, (congrArg Chain.orphanSeq hchain).trans hseq, (hevt.event hnoted).bit_eq⟩

/-- What a transfer that bounces changes (R260). -/
def bounceFields : List Fld := [wholeReg LG_CNT_BOUNCE, wholeReg LG_EVT] ++ logFields

theorem State.bounceAway_keeps (hregs : tabWf regReset s.regs = true) (hports : tabWf Port.reset s.ports = true) (st d : Nat) :
    s.Keeps bounceFields 0 Port.unseen (s.bounceAway st d) ∧ (s.bounceAway st d).chain = s.chain := by
  have hstart : s.Keeps bounceFields 0 Port.unseen s := .start hregs hports
  have hshown : s.Keeps bounceFields 0 Port.unseen (s.bounceShown 1) :=
    .on (.incBy hstart (by simp [bounceFields])) (by simp [bounceFields, LG_EVT.BOUNCE])
  unfold State.bounceAway
  split_ifs
  · obtain ⟨-, hbounce⟩ | ⟨nums, hbounce⟩ := s.bounce_cases (.chainDevice (Fin.ofNat 64 d)) 1
    · exact hbounce ▸ ⟨hshown, rfl⟩
    · rw [hbounce]
      exact ⟨.event (fun f hf => by simp [bounceFields, hf]) (hshown.same rfl rfl), (State.Signals.event .start).chain_eq.trans rfl⟩
  · exact ⟨hstart, rfl⟩

theorem bounceFields_apart : bounceFields.all (fun f => f.apart (wholeReg CH_CNT_ORPHAN)) = true := by decide +kernel

/-- A write to a device that cannot be reached enters the orphan-write log. -/
theorem State.farWrite_stopped (hcanon : s.canon = true) {d : Nat} (hassigned : s.unassigned d = false) (hstop : (s.farStop d).isSome = true)
    (m : Master) (off : Nat) (wide : Bool) (v : Word64) : (s.farWrite m d off wide v).reg CH_CNT_ORPHAN = countUp (s.reg CH_CNT_ORPHAN) ∧
      (s.farWrite m d off wide v).chain.orphanSeq = s.chain.orphanSeq + 1 := by
  obtain ⟨st, hst⟩ := Option.isSome_iff_exists.1 hstop
  have hcount : s.Reads (wholeReg CH_CNT_ORPHAN) (s.reg CH_CNT_ORPHAN).toNat := (State.Reads.of_canon hcanon).of_eq (rd_wholeReg s _)
  obtain ⟨hkeeps, hchain⟩ := State.bounceAway_keeps hcount.regs_wf hcount.ports_wf stDomainOff d
  have hbounced : (if st = 4 then s.bounceAway stDomainOff d else s).Reads (wholeReg CH_CNT_ORPHAN) (s.reg CH_CNT_ORPHAN).toNat :=
    .ite (hcount.kept hkeeps bounceFields_apart) hcount
  have hsame : (if st = 4 then s.bounceAway stDomainOff d else s).chain = s.chain := by
    split_ifs
    · exact hchain
    · rfl
  obtain ⟨horphan, hseq, -⟩ := State.orphan_spec hbounced st s.ownNum d off wide v (issuerCode m)
  have hwrite : s.farWrite m d off wide v =
      (if st = 4 then s.bounceAway stDomainOff d else s).orphan st s.ownNum d off wide v (issuerCode m) := by
    simp only [State.farWrite, hassigned, hst, Bool.false_eq_true, if_false]
  rw [hwrite]
  exact ⟨horphan, hseq.trans (by rw [hsame])⟩

/-! ## Writes of the device's own number (R326) -/

/-- The registers of port n whose writes do more than store. -/
def portSpecials (n : Nat) : List Nat :=
  [SP_CTRL n, SP_FRAME n, SP_LINE n, SP_BAUDCFG n, SP_AUTOBAUD n, SP_FLOW n, SP_FC_HI n, SP_FC_LO n, SP_ADDR n, SP_STR_SEL n, TW_CTRL n,
    TW_NODE n, TW_DLY n, TW_SWITCH n, TW_TCOMMIT n, GD_CTRL n, TW_TDATA0 n, TW_TDATA1 n, TW_TDATA2 n]

/-- A write of another register of the port stores. -/
theorem State.portWrite_plain {n a : Nat} (hplain : ∀ b ∈ portSpecials n, a ≠ b)
    (hbinding : (List.range 7).find? (fun b => bindingReg n b == a) = none) (m : Master) (o : Origin) (v : Word) :
    s.portWrite m o n a v = s.regStore o a v := by
  simp only [portSpecials, List.forall_mem_cons] at hplain
  simp [State.portWrite, hplain, hbinding]

/-- A write of SP_BREAK stores BRK_BITS and STUCK_MS. -/
theorem State.busWrite1_break (m : Master) (o : Origin) (v : Word) (hcommitted : s.committed = true) :
    s.busWrite1 m o (SP_BREAK 3) v = s.regStore o (SP_BREAK 3) v := by
  have hrow : (regRow? (SP_BREAK 3)).isNone = false := by decide +kernel
  have hexists : ¬ (SP_BREAK 3 % 4 ≠ 0 ∨ s.regExists (SP_BREAK 3) = false ∨
      ((regRow? (SP_BREAK 3)).isNone ∧ (SP_BREAK 3 < 0x60000 ∨ 0x60030 ≤ SP_BREAK 3))) := by
    rw [hrow]
    simp [State.regExists, hcommitted, SP_BREAK]
  have hport : s.busWrite1 m o (SP_BREAK 3) v = s.portWrite m o 3 (SP_BREAK 3) v := by
    rw [State.busWrite1, if_neg hexists]
    simp [SP_BREAK, RST_CTRL, PW_CTRL]
  exact hport.trans (State.portWrite_plain (by decide) (by decide +kernel) m o v)

theorem breakRow : ∃ r, regRow? (SP_BREAK 3) = some r := Option.isSome_iff_exists.1 (by decide +kernel)

theorem logFields_apart_break : logFields.all (fun f => f.apart (wholeReg (SP_BREAK 3))) = true := by decide +kernel

/-- No reload, room for the record and no request: the write is carried out at once (R32, R555). -/
theorem State.busWrite_break (hcommitted : s.committed = true) (hidle : s.cfg.commit = none) (hrequest : s.rst.request = none)
    (hasked : s.rst.asked = none) (hroom : s.configFull = false) {o : Origin} (hwaits : s.waitsRoom o = false) (m : Master) (v : Word) :
    s.busWrite m o (SP_BREAK 3) v = s.regStore o (SP_BREAK 3) v := by
  have hrst : (s.regStore o (SP_BREAK 3) v).rst = s.rst := (State.Signals.regStore .start).rst_eq
  have haligned : ¬ SP_BREAK 3 % 4 ≠ 0 := by decide
  have hlow : ¬ 0xF00000 ≤ SP_BREAK 3 := by decide
  have hreload : s.reloading (SP_BREAK 3) = false := by simp [State.reloading, hidle]
  simp only [State.busWrite, haligned, hlow, hreload, hwaits, hroom, Bool.or_self, Bool.and_false, Bool.false_eq_true, if_false,
    State.busWrite1_break m o v hcommitted]
  exact State.actRequests_none (hrst ▸ hrequest) (hrst ▸ hasked)

/-- A write of BRK_BITS and STUCK_MS of port 3 stores what its row lets it. -/
theorem reg_regStore_break (hcanon : s.canon = true) (hcommitted : s.committed = true) (o : Origin) (v : Word) :
    (regRow? (SP_BREAK 3)).map (fun r => storeValue r 0 (s.reg (SP_BREAK 3)) v) = some ((s.regStore o (SP_BREAK 3) v).reg (SP_BREAK 3)) := by
  obtain ⟨r, hrow⟩ := breakRow
  have hregs := State.regs_wf_of_canon hcanon
  have hports := State.ports_wf_of_canon hcanon
  have hset : (s.setReg (SP_BREAK 3) (storeValue r 0 (s.reg (SP_BREAK 3)) v)).Keeps logFields 0 Port.unseen
      (s.regStore o (SP_BREAK 3) v) := by
    have hstart : (s.setReg (SP_BREAK 3) (storeValue r 0 (s.reg (SP_BREAK 3)) v)).Keeps logFields 0 Port.unseen
        (s.setReg (SP_BREAK 3) (storeValue r 0 (s.reg (SP_BREAK 3)) v)) := .start (setReg_wf _ _ hregs) hports
    rw [State.regStore_serial (by decide) hrow (by rw [State.regExists, hcommitted, Bool.true_or])]
    exact .ite hstart (.configWrite (fun _ hf => hf) hstart)
  rw [hrow, Option.map_some, hset.reg_eq logFields_apart_break, reg_setReg_same hregs]

end

/-- Settles O30: a read or a write that fails is counted and noted whatever else its failure strands, and a write of the device's own number
goes the way of one of BAR0. -/
theorem remoteAccessComplete : Obligations.RemoteAccessComplete := by
  unfold Obligations.RemoteAccessComplete
  refine ⟨?notCarried, ?sent, ?answered, ?unanswered, ?stopped, ?own, ?reported⟩
  case notCarried => exact fun s m d off size _ hcarried => completes_of_next (if_pos hcarried) rfl
  case sent =>
    intro s m d off size _ ⟨hcarried, hother, hassigned, hgoes⟩
    obtain ⟨c, hnext⟩ := execBar4Read_far (m := m) hcarried hother hassigned hgoes
    exact completes_of_next hnext (congrArg (fun s : State => s.chain.reads) (State.trySend_unsent _ c) :)
  case answered =>
    rintro s d off v _ _ r hr ⟨rfl, hm⟩
    exact completes_of_next (execBar4ReadResponse_ok hr hm) ⟨rfl, rfl⟩
  case unanswered => exact fun s d off hcanon r hr hm => chainRdFail_completes hcanon hr hm
  case stopped =>
    intro s m d off size v hcanon ⟨hcarried, hother, hassigned, hstop⟩
    have hnext : exec (.bar4Write m d off size v) s = .next (s.farWrite m d off.toNat (decide (size = 8)) v) :=
      (if_neg (by rw [hcarried]; decide)).trans (if_neg hother)
    exact completes_of_next hnext (State.farWrite_stopped hcanon hassigned hstop m _ _ v)
  case own =>
    intro s m d off v hcanon ⟨hown, hoff⟩ ⟨hcommitted, hidle, hrequest, hasked, hroom, hwaits⟩
    have hcarried : carried off.toNat (4 : BitVec 4).toNat = true := by
      rw [hoff]
      decide
    have hnext : exec (.bar4Write m d off 4 v) s = .next (s.busWrite m m.origin (SP_BREAK 3) (v.setWidth 32)) := by
      rw [← hoff]
      exact (if_neg (by rw [hcarried]; decide)).trans (if_pos hown)
    rw [hoff]
    exact completes_of_next (hnext.trans (by rw [State.busWrite_break hcommitted hidle hrequest hasked hroom hwaits]))
      (reg_regStore_break hcanon hcommitted m.origin (v.setWidth 32))
  case reported =>
    intro s status reporter dev off wide v origin hcanon
    exact completes_of_next rfl (State.orphan_spec ((State.Reads.of_canon hcanon).of_eq (rd_wholeReg s _)) _ _ _ _ _ _ _)

end Sys2Proof.Machine
end

section
/-!
SUPPORT. Time transfer and the synchronous release in 09_sahoz_chain.md (R341 to R348).
-/
namespace Sys2Proof.Machine

section
variable {s t : State}

/-! ## SYNCs that leave (R341) -/

/-- The SYNC that the root sends on link l. -/
def State.syncOf (s : State) (q seq l : Nat) : Out := .sync l s.now q (s.rd CH_STAT.HOPS) seq

/-- The root sends a SYNC on each link that is UP. -/
theorem execChainSyncSend_root (hrole : s.role = 1) : exec .chainSyncSend s = .next { s with
    out := s.out ++ ((List.range 4).filter (fun l => decide (s.linkState l = lkUp))).map (s.syncOf s.quality (s.rd TB_TIME_SH.STEP_SEQ)) } := by
  have hsend : ∀ q seq, (List.range 4).foldl (fun s l => if s.linkState l = lkUp then s.emit (s.syncOf q seq l) else s) s =
      { s with out := s.out ++ ((List.range 4).filter (fun l => decide (s.linkState l = lkUp))).map (s.syncOf q seq) } := fun q seq =>
    State.foldl_emit (p := fun s l => s.linkState l = lkUp) (f := fun s l => s.syncOf q seq l)
      (fun _ _ _ => Iff.rfl) (fun _ _ _ => rfl) (List.range 4) s
  rw [← hsend]
  simp [exec, execChainSyncSend, hrole, State.syncOf]

/-! ## A SYNC from the uplink (R341 to R343) -/

/-- What a submission to the time base changes, with the validity of its source (R276, R277). -/
def submitFields : List Fld := sourceFields ++ [wholeReg TB_SRCSTAT, wholeReg TB_CNT_ADJIGN]

theorem sourceFields_subset_submitFields : sourceFields ⊆ submitFields := fun _ hf => by simp [submitFields, hf]

namespace State.Keeps
section
variable {n c : Nat} {v : Port → Port} {o : Origin}

theorem revalued {x : Bool} (h : s.Keeps submitFields n v t) : s.Keeps submitFields n v (t.setValid c x).reselect := by
  have hvalid : s.Keeps submitFields n v (t.setValid c x) := .put h (by simp [submitFields])
  have hselect : (t.setValid c x).Keeps sourceFields n v (t.setValid c x).reselect := .reselect (.start hvalid.regs_wf hvalid.ports_wf)
  exact hvalid.andThen sourceFields_subset_submitFields hselect hselect.port_eq

theorem adjIgnored (h : s.Keeps submitFields n v t) : s.Keeps submitFields n v t.adjIgnored :=
  .on (.inc h (by simp [submitFields])) (sourceFields_subset_submitFields (mem_sourceFields TB_EVT (by simp)))

theorem takeOffset {th : Int} (h : s.Keeps submitFields n v t) : s.Keeps submitFields n v (t.takeOffset c o th) :=
  .ite (h.same rfl rfl) (.ite h.adjIgnored (h.same rfl rfl))

theorem submit {rate : Option Int} {off : Option OffReq} (h : s.Keeps submitFields n v t) : s.Keeps submitFields n v (t.submit c o rate off) := by
  have hvalid : s.Keeps submitFields n v (t.setValid c true).reselect := h.revalued
  have hrate : ∀ a, s.Keeps submitFields n v ((t.setValid c true).reselect.setAddend a) := fun a =>
    .setReg (hvalid.same rfl rfl) (sourceFields_subset_submitFields (mem_sourceFields _ (by simp)))
  unfold State.submit
  dsimp only
  refine .ite ?_ hvalid.adjIgnored
  cases off with
  | none =>
    cases rate with
    | none => exact hvalid
    | some a => exact (hrate a).same rfl rfl
  | some r =>
    cases rate with
    | none => exact hvalid.takeOffset
    | some a => exact .takeOffset ((hrate a).same rfl rfl)

end
end State.Keeps

/-- The registers that show a SYNC that is taken, before the time base takes its offset. -/
def State.syncShown (s : State) (quality hops : Nat) (offset : Word) : State :=
  ((((s.inc CH_CNT_SYNCRX).wr CH_TSTAT.ROOT_QUALITY quality).wr CH_TSTAT.SYNC_HOPS hops).setReg CH_OFFSET offset)

/-- The counting of a SYNC leaves the link delay as it is. -/
theorem linkDelay_counted (l : Fin 4) (quality hops : Nat) :
    (((s.inc CH_CNT_SYNCRX).wr CH_TSTAT.ROOT_QUALITY quality).wr CH_TSTAT.SYNC_HOPS hops).linkDelay l = s.linkDelay l := by
  have hdelay : ∀ l : Fin 4, LK_DELAY l ≠ CH_CNT_SYNCRX ∧ LK_DELAY l ≠ CH_TSTAT ∧ LK_ASYM l ≠ CH_CNT_SYNCRX ∧ LK_ASYM l ≠ CH_TSTAT := by
    decide
  obtain ⟨hdc, hdt, hac, hat⟩ := hdelay l
  have hkept : ∀ {a : Nat}, a ≠ CH_CNT_SYNCRX → a ≠ CH_TSTAT →
      (((s.inc CH_CNT_SYNCRX).wr CH_TSTAT.ROOT_QUALITY quality).wr CH_TSTAT.SYNC_HOPS hops).reg a = s.reg a := fun hcount hstat =>
    (reg_wr_ne hstat _).trans ((reg_wr_ne hstat _).trans (reg_setReg_ne hcount _ _))
  rw [State.linkDelay, State.linkDelay, State.rdInt, State.rdInt, hkept hdc hdt, hkept hac hat]

/-- A SYNC from the uplink is shown; then its source is submitted, or becomes invalid, or nothing more happens. -/
theorem execChainSyncReceive_taken {l : Fin 4} (hmember : s.isMember = true) (hattached : s.bit CH_STAT.ISOLATED = false)
    (huplink : s.rd CH_STAT.UPLINK = l.val) (hup : s.linkState l = lkUp) (sent arrived : Nat) (quality : BitVec 3) (hops : Fin 17)
    (stepSeq : Byte) : ∃ u t, u.regs = (s.syncShown quality.toNat hops.val (satInt32 ((sent : Int) + s.linkDelay l - arrived))).regs ∧
      u.ports = s.ports ∧ exec (.chainSyncReceive l sent arrived quality hops stepSeq) s = .next t ∧
      (t = u ∨ t = (u.setValid 3 false).reselect ∨ ∃ rate off, t = u.submit 3 .device rate off) := by
  have htaken : ¬ (s.isMember = false ∨ s.bit CH_STAT.ISOLATED ∨ s.rd CH_STAT.UPLINK ≠ l.val ∨ s.linkState l.val ≠ lkUp) := by
    simp [hmember, hattached, huplink, hup]
  obtain ⟨u, follows, rate, off, hexec, hregs, hports⟩ : ∃ (u : State) (follows : Bool) (rate : Option Int) (off : Option OffReq),
      exec (.chainSyncReceive l sent arrived quality hops stepSeq) s = (if follows = true then .next (u.submit 3 .device rate off)
        else .next (if u.srcValid 3 then (u.setValid 3 false).reselect else u)) ∧
      u.regs = (s.syncShown quality.toNat hops.val (satInt32 ((sent : Int) +
        (((s.inc CH_CNT_SYNCRX).wr CH_TSTAT.ROOT_QUALITY quality.toNat).wr CH_TSTAT.SYNC_HOPS hops.val).linkDelay l - arrived))).regs ∧
      u.ports = s.ports := ⟨_, _, _, _, if_neg htaken, rfl, rfl⟩
  rw [linkDelay_counted] at hregs
  split_ifs at hexec
  · exact ⟨u, _, hregs, hports, hexec, .inr (.inr ⟨rate, off, rfl⟩)⟩
  · exact ⟨u, _, hregs, hports, hexec, .inr (.inl rfl)⟩
  · exact ⟨u, _, hregs, hports, hexec, .inl rfl⟩

theorem submitFields_apart : ∀ g ∈ [wholeReg CH_CNT_SYNCRX, wholeReg CH_OFFSET, CH_TSTAT.ROOT_QUALITY],
    submitFields.all (fun f => f.apart g) = true := by decide +kernel

/-- What a member shows of a SYNC from its uplink. -/
theorem chainSyncReceive_completes (hcanon : s.canon = true) {l : Fin 4} (hmember : s.isMember = true)
    (hattached : s.bit CH_STAT.ISOLATED = false) (huplink : s.rd CH_STAT.UPLINK = l.val) (hup : s.linkState l = lkUp) (sent arrived : Nat)
    (quality : BitVec 3) (hops : Fin 17) (stepSeq : Byte) : Completes (.chainSyncReceive l sent arrived quality hops stepSeq) s fun t =>
      t.reg CH_CNT_SYNCRX = countUp (s.reg CH_CNT_SYNCRX) ∧ t.reg CH_OFFSET = satInt32 ((sent : Int) + s.linkDelay l - arrived) ∧
      t.rd CH_TSTAT.ROOT_QUALITY = quality.toNat := by
  obtain ⟨u, t, hregs, hports, hnext, hcases⟩ :=
    execChainSyncReceive_taken hmember hattached huplink hup sent arrived quality hops stepSeq
  have hstart : ∀ g, s.Reads g (s.rd g) := fun _ => .of_canon hcanon
  have hcount : s.Reads (wholeReg CH_CNT_SYNCRX) (s.reg CH_CNT_SYNCRX).toNat := (hstart _).of_eq (rd_wholeReg s _)
  have hcounted : (s.syncShown quality.toNat hops.val (satInt32 ((sent : Int) + s.linkDelay l - arrived))).Reads (wholeReg CH_CNT_SYNCRX)
      (countUp (s.reg CH_CNT_SYNCRX)).toNat := .setReg (.wr (.wr hcount.counted)) (by decide)
  have hoffset : (s.syncShown quality.toNat hops.val (satInt32 ((sent : Int) + s.linkDelay l - arrived))).Reads (wholeReg CH_OFFSET)
      (satInt32 ((sent : Int) + s.linkDelay l - arrived)).toNat := .stored (.wr (.wr (.setReg (hstart _) (by decide))))
  have hquality : (s.syncShown quality.toNat hops.val (satInt32 ((sent : Int) + s.linkDelay l - arrived))).Reads CH_TSTAT.ROOT_QUALITY
      quality.toNat := .setReg (.wr (.takenAs (.setReg (hstart _) (by decide)) quality.isLt)) (by decide)
  have hu : u.Keeps submitFields 0 Port.unseen u := .start (hregs ▸ hcounted.regs_wf) (hports ▸ State.ports_wf_of_canon hcanon)
  have hkeeps : u.Keeps submitFields 0 Port.unseen t := by
    obtain rfl | rfl | ⟨rate, off, rfl⟩ := hcases
    · exact hu
    · exact hu.revalued
    · exact hu.submit
  exact completes_of_next hnext
    ⟨((hcounted.same hregs hports).kept hkeeps (submitFields_apart _ (by simp))).reg_eq,
      ((hoffset.same hregs hports).kept hkeeps (submitFields_apart _ (by simp))).reg_eq,
      ((hquality.same hregs hports).kept hkeeps (submitFields_apart _ (by simp))).rd_eq⟩

/-! ## READY and the release count (R346, R347) -/

/-- The state that has taken a release count, before it is forwarded. -/
def State.countTaken (s : State) (epoch c : Nat) : State :=
  if s.waitsCount && s.refclkOk then s.withChain { s.chain with epoch := some epoch, countdown := some (s.refCycles + c) }
  else s.withChain { s.chain with epoch := some epoch }

/-- The forwarding of a release count changes the outputs alone. -/
theorem State.takeRelease_eq (from_ : Option Nat) (epoch c : Nat) :
    ∃ out, s.takeRelease from_ epoch c = { s.countTaken epoch c with out := out } :=
  ⟨_, State.foldl_emit (p := fun s l => s.linkState l = lkUp ∧ from_ ≠ some l) (f := fun _ l => .releaseAt l epoch c)
    (fun _ _ _ => Iff.rfl) (fun _ _ _ => rfl) (List.range 4) (s.countTaken epoch c)⟩

theorem State.takeRelease_spec (from_ : Option Nat) (epoch c : Nat) : (s.takeRelease from_ epoch c).chain.epoch = some epoch ∧
    (s.takeRelease from_ epoch c).freeNo = s.freeNo := by
  obtain ⟨out, htake⟩ := s.takeRelease_eq from_ epoch c
  rw [htake]
  dsimp only
  unfold State.countTaken
  split_ifs <;> exact ⟨rfl, rfl⟩

/-- A device that waits for a release count loads its countdown. -/
theorem State.takeRelease_countdown (hwaits : s.waitsCount = true) (hclk : s.refclkOk = true) (from_ : Option Nat) (epoch c : Nat) :
    (s.takeRelease from_ epoch c).chain.countdown = some (s.refCycles + c) := by
  obtain ⟨out, htake⟩ := s.takeRelease_eq from_ epoch c
  rw [htake]
  dsimp only
  rw [State.countTaken, if_pos (by rw [hwaits, hclk]; rfl)]
  rfl

theorem releaseAt_link {l : Fin 4} {epoch : Word} (hup : s.linkState l = lkUp) (hnew : s.chain.epoch ≠ some epoch.toNat) (count : Word) :
    Completes (.releaseAt (some l) epoch count) s fun t => t.chain.epoch = some epoch.toNat ∧ t.freeNo = s.freeNo + 1 :=
  completes_of_next (if_neg (by simp [hup, hnew])) (s.usedFree.takeRelease_spec _ _ _)

/-- The root sends the count at once where it is ready, or after the time that it waits for the others. -/
theorem releaseAt_root (hrole : s.role = 1) (hwaits : s.waitsCount = true) (hnew : s.chain.epoch = none) (hclk : s.refclkOk = true)
    (epoch count : Word) : Completes (.releaseAt none epoch count) s fun t =>
      t.chain.epoch = some epoch.toNat ∧ t.chain.countdown.isSome = true := by
  obtain ⟨y, hrun⟩ := s.runTo_time (s.rst.stepAt + 100000000)
  have hnext : ∃ y : TimeBase, exec (.releaseAt none epoch count) s =
      .next (({ s with time := y } : State).takeRelease none epoch.toNat 65536) := by
    have hroot : s.role = 1 ∧ s.waitsCount = true ∧ s.chain.epoch.isNone = true ∧ s.refclkOk = true :=
      ⟨hrole, hwaits, by rw [hnew]; rfl, hclk⟩
    by_cases hready : s.isReady = true
    · exact ⟨s.time, (if_pos hroot).trans (by rw [if_pos hready])⟩
    · exact ⟨y, (if_pos hroot).trans (by rw [if_neg hready, hrun])⟩
  obtain ⟨y, hnext⟩ := hnext
  refine completes_of_next hnext ⟨(State.takeRelease_spec _ _ _).1, ?_⟩
  rw [State.takeRelease_countdown (s := { s with time := y }) hwaits hclk]
  rfl

/-! ## The release (R347, R348) -/

/-- The repair entries change the memories and MEM_STAT. -/
theorem State.bankRepair_eq (s : State) : ∃ m k dup, s.bankRepair =
    (({ s with mem := m } : State).wr MEM_STAT.REPAIRS k).put MEM_STAT.REP_DUP dup := ⟨_, _, _, rfl⟩

theorem State.bankRepair_reads {x : Nat} (h : s.Reads CH_STAT.SYNC_MISSED x) : s.bankRepair.Reads CH_STAT.SYNC_MISSED x := by
  obtain ⟨m, k, dup, hrepair⟩ := s.bankRepair_eq
  have hmem : ({ s with mem := m } : State).Reads CH_STAT.SYNC_MISSED x := h.same rfl rfl
  rw [hrepair]
  exact (hmem.wr (f := MEM_STAT.REPAIRS)).wr (f := MEM_STAT.REP_DUP)

theorem State.freeDomain_reads {g : Fld} {x : Nat} {d : Domain} (h : s.Reads g x) : (s.freeDomain d).Reads g x := h.same rfl rfl

theorem State.setRst_reads {g : Fld} {x : Nat} {y : ResetSys} (h : s.Reads g x) : (s.setRst y).Reads g x := h.same rfl rfl

/-- The memories domain leaves reset at this tick, and the registers that tell of the chain stay. -/
theorem State.releaseNow_reads {x : Nat} (h : s.Reads CH_STAT.SYNC_MISSED x) : s.releaseNow.Reads CH_STAT.SYNC_MISSED x := by
  have hready : (s.withChain { s.chain with countdown := none }).Reads CH_STAT.SYNC_MISSED x := h.withChain
  have hfreed := State.freeDomain_reads (d := .ddr) ((State.bankRepair_reads hready).wr (f := RST_STAT.WAIT_COUNT) (y := 0))
  exact State.setRst_reads (State.setRst_reads (hfreed.wr (f := RST_STAT.PHASE) (y := 2)))

theorem lateRelease_completes (hcanon : s.canon = true) (hwaits : s.waitsCount = true) (hrole : s.role = 2) (hclk : s.refclkOk = true) :
    Completes .lateRelease s fun t => t.bit CH_STAT.SYNC_MISSED = true ∧ t.rst.releaseTick.isSome = true := by
  have hmissed : ((s.on CH_STAT.SYNC_MISSED).on CH_EVT.SYNC_MISSED).Reads CH_STAT.SYNC_MISSED 1 :=
    .wr (.taken (State.Reads.of_canon hcanon))
  exact completes_of_next (if_pos ⟨hwaits, hrole, hclk⟩) ⟨(State.releaseNow_reads hmissed).bit_eq, rfl⟩

theorem releaseCountdownEnd_completes (hloaded : s.chain.countdown.isSome = true) (hwaits : s.waitsCount = true) :
    Completes .releaseCountdownEnd s fun t => t.chain.countdown = none ∧ t.rst.releaseTick.isSome = true := by
  obtain ⟨c, hc⟩ := Option.isSome_iff_exists.1 hloaded
  have hnext : exec .releaseCountdownEnd s = .next (s.runTo (40 * c)).releaseNow := by
    simp only [exec, execReleaseCountdownEnd, hc, hwaits, if_true]
  exact completes_of_next hnext ⟨rfl, rfl⟩

/-! ## READY (R347, R348) -/

theorem releaseReady_own (hready : s.isReady = true) (hfirst : s.chain.readySent = false) : Completes (.releaseReady none) s fun t =>
    t.chain.readySent = true ∧ t.out = s.out ++ (if s.role = 2 then [Out.ready] else []) := by
  have hnext : exec (.releaseReady none) s = .next (if s.role = 2 then (s.withChain { s.chain with readySent := true }).emit .ready
      else s.withChain { s.chain with readySent := true }) := if_pos (by rw [hready, hfirst]; rfl)
  refine completes_of_next hnext ?_
  split_ifs
  · exact ⟨rfl, rfl⟩
  · exact ⟨rfl, (List.append_nil _).symm⟩

/-- A link below that reports READY is noted as ready, whether or not it is told of a release that it has missed. -/
theorem releaseReady_below (hcanon : s.canon = true) {l : Fin 4} (hup : s.linkState l = lkUp) :
    Completes (.releaseReady (some l)) s fun t => (t.link l).ready = true := by
  refine completes_of_next (if_neg (not_not_intro hup)) ?_
  have hnoted : ((s.setLink l { s.link l with ready := true }).link l).ready = true :=
    congrArg Link.ready (link_setLink_same (State.links_wf_of_canon hcanon) _ _)
  split_ifs
  · exact hnoted
  · exact hnoted

end

/-- Settles O32: the time base's take of a SYNC, the forwarding of a release count and the release of the memories leave alone what the chain
shows of them. -/
theorem chainTimeAndReleaseComplete : Obligations.ChainTimeAndReleaseComplete := by
  unfold Obligations.ChainTimeAndReleaseComplete
  refine ⟨?send, ?receive, ?ready, ?readyBelow, ?releaseLink, ?releaseRoot, ?countdownEnd, ?late⟩
  case send => exact fun s _ hrole => completes_of_next (execChainSyncSend_root hrole) rfl
  case receive =>
    exact fun s l sent arrived quality hops stepSeq hcanon ⟨hmember, hattached, huplink, hup⟩ =>
      chainSyncReceive_completes hcanon hmember hattached huplink hup sent arrived quality hops stepSeq
  case ready => exact fun s _ ⟨hready, hfirst⟩ => releaseReady_own hready hfirst
  case readyBelow => exact fun s l hcanon hup => releaseReady_below hcanon hup
  case releaseLink => exact fun s l epoch count _ ⟨hup, hnew⟩ => releaseAt_link hup hnew count
  case releaseRoot => exact fun s epoch count _ ⟨hrole, hwaits, hnew, hclk⟩ => releaseAt_root hrole hwaits hnew hclk epoch count
  case countdownEnd => exact fun s _ ⟨hloaded, hwaits⟩ => releaseCountdownEnd_completes hloaded hwaits
  case late => exact fun s hcanon ⟨hwaits, hrole, hclk⟩ => lateRelease_completes hcanon hwaits hrole hclk

end Sys2Proof.Machine
end

section
/-!
SUPPORT. The state of a link, and a link that carries nothing any more (R312, R313, R317, R337).
-/
namespace Sys2Proof.Machine

/-! ## A link enters a state -/

section
variable {s t : State} {l c : Nat}

theorem State.toLinkState_links : (s.toLinkState l c).links = (s.setLink l { s.link l with since := s.time.tick }).links := by
  unfold State.toLinkState
  dsimp only
  split_ifs <;> rfl

theorem State.toLinkState_out : (s.toLinkState l c).out = s.out := by
  unfold State.toLinkState
  dsimp only
  split_ifs <;> rfl

theorem State.toLinkState_links_wf (h : tabWf Link.reset s.links = true) : tabWf Link.reset (s.toLinkState l c).links = true := by
  rw [State.toLinkState_links]
  exact tabPut_wf _ _ h

/-- A link that enters a state is what it was, since now. -/
theorem State.toLinkState_link (h : tabWf Link.reset s.links = true) : (s.toLinkState l c).link l = { s.link l with since := s.time.tick } := by
  rw [State.link, State.toLinkState_links]
  exact link_setLink_same h l _

/-- A link shows the state that it enters. -/
theorem State.toLinkState_reads (hregs : tabWf regReset s.regs = true) (hports : tabWf Port.reset s.ports = true) (hc : c < 8) :
    (s.toLinkState l c).Reads (LK_STAT.STATE l) c := by
  have hmoved : ((s.wr (LK_STAT.STATE l) c).setLink l { s.link l with since := s.time.tick }).Reads (LK_STAT.STATE l) c :=
    .same (.takenAs (.start hregs hports) hc (by simp [LK_STAT.STATE])) rfl rfl
  exact .ite hmoved (hmoved.wr (by simp [Fld.apart, LK_STAT.STATE, LK_STAT.RATE_5G]))

/-! ## A link that carries nothing any more (R317, R340) -/

/-- The registers of link l that show its state and its credits. -/
def linkFields (l : Nat) : List Fld := wholeReg (LK_STAT l) :: (List.range 4).map fun v => wholeReg (LK_CRED_VC l v)

theorem stat_mem_linkFields : wholeReg (LK_STAT l) ∈ linkFields l := List.mem_cons_self ..

/-- The credits of link l as the registers show them, at their initial values. -/
def State.creditsShown (s : State) (l : Nat) : State :=
  (List.range 4).foldl (fun s v => s.wr (LK_CRED_VC.AVAIL l v) (s.rd (LK_CRED_VC.INIT l v))) s

theorem State.creditsShown_links : (s.creditsShown l).links = s.links :=
  List.foldlRecOn (motive := fun t : State => t.links = s.links) _ _ rfl fun _ ht _ _ => ht

theorem State.creditsShown_chain : (s.creditsShown l).chain = s.chain :=
  List.foldlRecOn (motive := fun t : State => t.chain = s.chain) _ _ rfl fun _ ht _ _ => ht

/-- Link k with its credits at their initial values. -/
def Link.freshCredits (k : Link) : Link :=
  { k with sent := [0, 0, 0, 0], credIn := [0, 0, 0, 0], received := [0, 0, 0, 0], credOut := [0, 0, 0, 0] }

theorem State.resetCredits_eq : s.resetCredits l = (s.creditsShown l).setLink l ((s.creditsShown l).link l).freshCredits := rfl

theorem State.resetCredits_chain : (s.resetCredits l).chain = s.chain := by
  rw [State.resetCredits_eq, State.setLink_chain, State.creditsShown_chain]

theorem State.Keeps.setLink {fs : List Fld} {n : Nat} {v : Port → Port} {k : Link} (h : s.Keeps fs n v t) : s.Keeps fs n v (t.setLink l k) :=
  h.same rfl rfl

theorem State.Keeps.resetCredits {fs : List Fld} {n : Nat} {v : Port → Port} (hfs : linkFields l ⊆ fs) (h : s.Keeps fs n v t) :
    s.Keeps fs n v (t.resetCredits l) := by
  have hshown : s.Keeps fs n v (t.creditsShown l) :=
    .foldl (List.range 4) (fun _ _ hk hu => hu.wr (hfs (List.mem_cons_of_mem _ (List.mem_map_of_mem hk)))) h
  rw [State.resetCredits_eq]
  exact hshown.setLink

theorem State.resetCredits_links_wf (h : tabWf Link.reset s.links = true) : tabWf Link.reset (s.resetCredits l).links = true :=
  tabPut_wf _ _ (State.creditsShown_links (s := s) (l := l) ▸ h)

theorem State.resetCredits_link (h : tabWf Link.reset s.links = true) : (s.resetCredits l).link l = (s.link l).freshCredits := by
  rw [State.resetCredits_eq, link_setLink_same (State.creditsShown_links (s := s) (l := l) ▸ h), State.link, State.creditsShown_links, State.link]

/-- Link k without the cells that it carries, and without its delay filter. -/
def Link.emptied (k : Link) : Link :=
  { k with replay := [], waiting := [], held := [], samples := [], rejects := 0, restart := false, ready := false }

/-- The state in which link l carries nothing, before it enters its new state. -/
def State.cellsGone (s : State) (l : Nat) : State :=
  ((((s.setLink l (s.link l).emptied).wr (LK_STAT.HOLD_CAUSE l) 0).wr (LK_STAT.DLY_SAMPLES l) 0).on (LK_STAT.DLY_WARMING l)).resetCredits l

theorem State.emptyLink_eq : s.emptyLink l c =
    if (s.linkState l = lkUp ∨ c = lkSleep) ∧ ((s.cellsGone l).toLinkState l c).isMember ∧
      ((s.cellsGone l).toLinkState l c).rd CH_STAT.UPLINK = l
    then ((s.cellsGone l).toLinkState l c).isolate else (s.cellsGone l).toLinkState l c := rfl

theorem State.cellsGone_links_wf (h : tabWf Link.reset s.links = true) : tabWf Link.reset (s.cellsGone l).links = true :=
  State.resetCredits_links_wf (tabPut_wf _ _ h)

theorem State.cellsGone_link (h : tabWf Link.reset s.links = true) : (s.cellsGone l).link l = (s.link l).emptied.freshCredits :=
  (State.resetCredits_link (tabPut_wf _ _ h)).trans (congrArg Link.freshCredits (link_setLink_same h l _))

theorem State.Keeps.cellsGone {fs : List Fld} {n : Nat} {v : Port → Port} (hfs : linkFields l ⊆ fs) (h : s.Keeps fs n v t) :
    s.Keeps fs n v (t.cellsGone l) := by
  have hstat : wholeReg (LK_STAT l) ∈ fs := hfs stat_mem_linkFields
  exact .resetCredits hfs (.on (.wr (.wr (h.same rfl rfl) hstat) hstat) hstat)

/-- What remains of a link that is emptied and enters a state in which it is not UP: the state, and no cells; from there on nothing on the
link changes. -/
structure State.Emptied (s t : State) (l c : Nat) : Prop where
  keeps : s.Keeps (linkFields l) 0 Port.unseen t
  links_wf : tabWf Link.reset t.links = true
  state_eq : t.linkState l = c
  waiting_eq : (t.link l).waiting = []

theorem State.cellsGone_emptied (hregs : tabWf regReset s.regs = true) (hports : tabWf Port.reset s.ports = true)
    (hlinks : tabWf Link.reset s.links = true) (hc : c < 8) : s.Emptied ((s.cellsGone l).toLinkState l c) l c := by
  have hgone : s.Keeps (linkFields l) 0 Port.unseen (s.cellsGone l) := .cellsGone (fun _ hf => hf) (.start hregs hports)
  exact {
    keeps := hgone.toLinkState stat_mem_linkFields
    links_wf := State.toLinkState_links_wf (State.cellsGone_links_wf hlinks)
    state_eq := (State.toLinkState_reads hgone.regs_wf hgone.ports_wf hc).rd_eq
    waiting_eq := by
      rw [State.toLinkState_link (State.cellsGone_links_wf hlinks), State.cellsGone_link hlinks]
      rfl }

theorem State.Emptied.restart (h : s.Emptied t l c) : t.KeepsLinks t := .start h.keeps.regs_wf h.keeps.ports_wf h.links_wf

theorem State.emptyLink_keeps (hregs : tabWf regReset s.regs = true) (hports : tabWf Port.reset s.ports = true)
    (hlinks : tabWf Link.reset s.links = true) (hc : c < 8) :
    ((s.cellsGone l).toLinkState l c).KeepsLinks (s.emptyLink l c) := by
  have hstart := (State.cellsGone_emptied (l := l) hregs hports hlinks hc).restart
  rw [State.emptyLink_eq]
  exact .ite hstart.isolate hstart

/-! ## A link that is lost (R313, R318) -/

/-- The state in which the loss of link l is counted and noted. -/
def State.lossNoted (s : State) (l : Nat) : State := ((s.inc (LK_CNT_DOWN l)).on (LK_EVT.DOWN l)).event Ev.LINK_DOWN [l]

theorem State.dropLink_keeps (hregs : tabWf regReset s.regs = true) (hports : tabWf Port.reset s.ports = true)
    (hlinks : tabWf Link.reset s.links = true) (hc : c < 8) :
    (((s.lossNoted l).cellsGone l).toLinkState l c).KeepsLinks (s.dropLink l c) := by
  have hnoted : s.Keeps (wholeReg (LK_CNT_DOWN l) :: wholeReg (LK_EVT l) :: logFields) 0 Port.unseen (s.lossNoted l) :=
    .event (by simp) (.on (.inc (.start hregs hports) (by simp)) (by simp [LK_EVT.DOWN]))
  have hlinksNoted : (s.lossNoted l).links = s.links := (State.Signals.event (.setReg (.setReg .start))).links_eq
  have hempty := State.emptyLink_keeps (l := l) hnoted.regs_wf hnoted.ports_wf (hlinksNoted ▸ hlinks) hc
  exact .reportLink (.foldl _ (fun _ _ ht => ht.strand (by decide)) hempty)

end
end Sys2Proof.Machine
end

section
/-!
SUPPORT. Links that train, exchange HELLO and go down in 09_sahoz_chain.md (R311 to R313, R323).
-/
namespace Sys2Proof.Machine

section
variable {s t : State}

/-! ## Links that go down (R313) -/

theorem downFields_apart : ∀ l : Fin 4, (linkFields l).all (fun f => f.apart (wholeReg (LK_CNT_DOWN l))) = true ∧
    logFields.all (fun f => f.apart (wholeReg (LK_CNT_DOWN l))) = true ∧ logFields.all (fun f => f.apart (LK_STAT.STATE l)) = true ∧
    (LK_EVT.DOWN l).apart (wholeReg (LK_CNT_DOWN l)) = true := by decide +kernel

/-- A link that is lost shows its new state and counts the loss; nothing waits on it. -/
theorem State.dropLink_spec (hregs : tabWf regReset s.regs = true) (hports : tabWf Port.reset s.ports = true)
    (hlinks : tabWf Link.reset s.links = true) (l : Fin 4) {c : Nat} (hc : c < 8) (hnext : c ≠ lkUp) :
    (s.dropLink l c).linkState l = c ∧ (s.dropLink l c).reg (LK_CNT_DOWN l) = countUp (s.reg (LK_CNT_DOWN l)) ∧
      ((s.dropLink l c).link l).waiting = [] := by
  obtain ⟨hlinkApart, hlogApart, -, hevtApart⟩ := downFields_apart l
  have hcount : s.Reads (wholeReg (LK_CNT_DOWN l)) (s.reg (LK_CNT_DOWN l)).toNat := (State.Reads.start hregs hports).of_eq (rd_wholeReg s _)
  have hnoted : (s.lossNoted l).Reads (wholeReg (LK_CNT_DOWN l)) (countUp (s.reg (LK_CNT_DOWN l))).toNat :=
    .event (.wr hcount.counted hevtApart) hlogApart
  have hlinksNoted : (s.lossNoted l).links = s.links := (State.Signals.event (.setReg (.setReg .start))).links_eq
  have hempty := State.cellsGone_emptied (l := l) hnoted.regs_wf hnoted.ports_wf (hlinksNoted ▸ hlinks) hc
  have hkeeps := State.dropLink_keeps (l := l) hregs hports hlinks hc
  refine ⟨(hkeeps.linkState_eq l.isLt).trans hempty.state_eq, ?count, ?waiting⟩
  case count =>
    exact ((hnoted.kept hempty.keeps hlinkApart).kept hkeeps.keeps (chainFields_apart_link l _ (by simp))).reg_eq
  case waiting =>
    rw [hkeeps.link_eq l (by rw [hempty.state_eq]; exact hnext)]
    exact hempty.waiting_eq

theorem State.canDrop_eq {l : Nat} (h : t.linkState l = s.linkState l) : t.canDrop l = s.canDrop l := by
  rw [State.canDrop, State.canDrop, h]

/-- A forced link goes down as a lost one does; the write is on the record. -/
theorem forceDown_completes (hcanon : s.canon = true) (o : Origin) (l : Fin 4) (hdrop : s.canDrop l = true) :
    Completes (.forceDown o l) s fun t => t.linkState l = lkDetect ∧ t.reg (LK_CNT_DOWN l) = countUp (s.reg (LK_CNT_DOWN l)) := by
  obtain ⟨-, hcountApart, hstateApart, -⟩ := downFields_apart l
  have hkeeps : s.Keeps logFields 0 Port.unseen (s.configWrite o (LK_CTRL l) (s.reg (LK_CTRL l) ||| 8) (s.reg (LK_CTRL l))) :=
    .configWrite (fun _ hf => hf) (.of_canon hcanon)
  have hlinks : (s.configWrite o (LK_CTRL l) (s.reg (LK_CTRL l) ||| 8) (s.reg (LK_CTRL l))).links = s.links :=
    (State.Signals.configWrite .start).links_eq
  have hnext : exec (.forceDown o l) s = .next
      ((s.configWrite o (LK_CTRL l) (s.reg (LK_CTRL l) ||| 8) (s.reg (LK_CTRL l))).dropLink l lkDetect) :=
    congrArg Host.Outcome.next (if_pos ((State.canDrop_eq (hkeeps.rd_eq _ hstateApart)).trans hdrop))
  obtain ⟨hstate, hcount, -⟩ := State.dropLink_spec hkeeps.regs_wf hkeeps.ports_wf (hlinks ▸ State.links_wf_of_canon hcanon) l
    (c := lkDetect) (by decide) (by decide)
  exact completes_of_next hnext ⟨hstate, hcount.trans (congrArg countUp (hkeeps.reg_eq hcountApart))⟩

/-! ## Training (R312) -/

/-- The state in which link l trains at a rate. -/
def State.ratedLink (s : State) (l : Nat) (slow : Bool) : State := s.setLink l { s.link l with slow := slow }

theorem State.trained_spec (hregs : tabWf regReset s.regs = true) (hports : tabWf Port.reset s.ports = true)
    (hlinks : tabWf Link.reset s.links = true) (l : Nat) (slow : Bool) : ((s.ratedLink l slow).toLinkState l lkTrain).linkState l = lkTrain ∧
      (((s.ratedLink l slow).toLinkState l lkTrain).link l).slow = slow := by
  refine ⟨(State.toLinkState_reads (s := s.ratedLink l slow) hregs hports (by decide)).rd_eq, ?_⟩
  rw [State.toLinkState_link (s := s.ratedLink l slow) (tabPut_wf _ _ hlinks), State.ratedLink, link_setLink_same hlinks]

theorem linkSignalDetect_completes (hcanon : s.canon = true) {l : Fin 4} (hdetect : s.linkState l = lkDetect) (hruns : s.runs .hser = true) :
    Completes (.linkSignalDetect l) s fun t =>
      t.linkState l = lkTrain ∧ (t.link l).slow = decide (s.rd (LK_CTRL.RATE l) = 2) := by
  have hnext : exec (.linkSignalDetect l) s =
      .next ((s.ratedLink l (decide (s.rd (LK_CTRL.RATE l) = 2))).toLinkState l lkTrain) :=
    (if_neg (by rw [hdetect]; decide)).trans (if_pos ⟨hdetect, hruns⟩)
  exact completes_of_next hnext
    (State.trained_spec (State.regs_wf_of_canon hcanon) (State.ports_wf_of_canon hcanon) (State.links_wf_of_canon hcanon) l _)

theorem linkBlockLock_completes (hcanon : s.canon = true) {l : Fin 4} (htrain : s.linkState l = lkTrain) (hruns : s.runs .hser = true) :
    Completes (.linkBlockLock l) s fun t => t.linkState l = lkHello ∧ t.out.length = s.out.length + 1 := by
  have hstate := State.toLinkState_reads (l := l) (c := lkHello) (State.regs_wf_of_canon hcanon) (State.ports_wf_of_canon hcanon) (by decide)
  refine completes_of_next (if_pos ⟨htrain, hruns⟩) ⟨hstate.rd_eq, ?_⟩
  have hout : (s.toLinkState l lkHello).out = s.out := State.toLinkState_out
  simp [State.emit, hout]

/-- Training that finds no lock goes on, at the other rate where the setting lets it. -/
theorem linkTrainTimeout_completes (hcanon : s.canon = true) {l : Fin 4} (htrain : s.linkState l = lkTrain) (hruns : s.runs .hser = true) :
    Completes (.linkTrainTimeout l) s fun t => t.linkState l = lkTrain ∧
      (t.link l).slow = (if s.rd (LK_CTRL.RATE l) = 0 ∨ s.rd (LK_CTRL.RATE l) = 3 then !(s.link l).slow else (s.link l).slow) := by
  obtain ⟨y, hrun⟩ := s.runTo_time ((s.link l).since + 2000000)
  have hnext : exec (.linkTrainTimeout l) s = .next ((({ s with time := y } : State).ratedLink l
      (if s.rd (LK_CTRL.RATE l) = 0 ∨ s.rd (LK_CTRL.RATE l) = 3 then !(s.link l).slow else (s.link l).slow)).toLinkState l lkTrain) := by
    refine (if_pos ⟨htrain, hruns⟩).trans ?_
    rw [hrun]
    rfl
  have hregs := State.regs_wf_of_canon hcanon
  have hports := State.ports_wf_of_canon hcanon
  have hlinks := State.links_wf_of_canon hcanon
  exact completes_of_next hnext (State.trained_spec (s := { s with time := y }) hregs hports hlinks l _)

/-! ## HELLO (R311, R312, R323) -/

/-- The registers of link l that show its partner. -/
def helloFields (l : Nat) : List Fld := linkFields l ++ (List.range 4).map fun i => wholeReg (LK_PSN l i)

/-- The partner of link l as the registers show it. -/
def State.partnerShown (s : State) (l : Nat) (h : Hello) : State :=
  let s := (List.range 4).foldl (fun s i => s.setReg (LK_PSN l i) (h.sn.extractLsb' (32 * i) 32)) s
  let s := (s.wr (LK_STAT.PARTNER_LINK l) h.link.val).wr (LK_STAT.PARTNER_DEV l) (match h.num with | some d => d.val | none => 0)
  let s := s.put (LK_STAT.PARTNER_NUM l) h.num.isSome
  (List.range 4).foldl (fun s v => s.wr (LK_CRED_VC.INIT l v) ((splitOf h.split.toNat).getD v 0)) s

/-- The state in which link l has partner h, with fresh credits. -/
def State.withPartner (s : State) (l : Nat) (h : Hello) : State :=
  (s.setLink l { s.link l with partner := some h, split := splitOf (s.reg CH_BUF).toNat }).resetCredits l

theorem State.takeHello_eq (l : Nat) (h : Hello) : s.takeHello l h = (s.partnerShown l h).withPartner l h := rfl

theorem State.withPartner_link (hlinks : tabWf Link.reset s.links = true) (l : Nat) (h : Hello) :
    ((s.withPartner l h).link l).partner = some h := by
  rw [State.withPartner, State.resetCredits_link (tabPut_wf _ _ hlinks), link_setLink_same hlinks]
  rfl

theorem State.withPartner_links_wf (hlinks : tabWf Link.reset s.links = true) (l : Nat) (h : Hello) :
    tabWf Link.reset (s.withPartner l h).links = true := State.resetCredits_links_wf (tabPut_wf _ _ hlinks)

theorem State.Keeps.withPartner {l : Nat} {h : Hello} (hkeeps : s.Keeps (helloFields l) 0 Port.unseen t) :
    s.Keeps (helloFields l) 0 Port.unseen (t.withPartner l h) :=
  .resetCredits (fun _ hf => List.mem_append_left _ hf) (hkeeps.same rfl rfl)

theorem State.withPartner_chain (l : Nat) (h : Hello) : (s.withPartner l h).chain = s.chain := State.resetCredits_chain.trans rfl

theorem State.partnerShown_keeps (hregs : tabWf regReset s.regs = true) (hports : tabWf Port.reset s.ports = true) (l : Nat) (h : Hello) :
    s.Keeps (helloFields l) 0 Port.unseen (s.partnerShown l h) ∧ s.Signals (s.partnerShown l h) := by
  have hstat : wholeReg (LK_STAT l) ∈ helloFields l := List.mem_append_left _ stat_mem_linkFields
  have hsn : ∀ i ∈ List.range 4, wholeReg (LK_PSN l i) ∈ helloFields l := fun i hi => List.mem_append_right _ (List.mem_map_of_mem hi)
  have hcred : ∀ v ∈ List.range 4, wholeReg (LK_CRED_VC l v) ∈ helloFields l := fun v hv =>
    List.mem_append_left _ (List.mem_cons_of_mem _ (List.mem_map_of_mem hv))
  have hshown : ∀ u : State, s.Keeps (helloFields l) 0 Port.unseen u → s.Keeps (helloFields l) 0 Port.unseen
      ((List.range 4).foldl (fun s i => s.setReg (LK_PSN l i) (h.sn.extractLsb' (32 * i) 32)) u) := fun _ hu =>
    .foldl _ (fun _ i hi ht => ht.setReg (hsn i hi)) hu
  exact ⟨.foldl _ (fun _ v hv ht => ht.wr (hcred v hv)) (.put (.wr (.wr (hshown s (.start hregs hports)) hstat) hstat) hstat),
    .foldl _ (fun _ _ ht => .setReg ht) (.setReg (.setReg (.setReg (.foldl _ (fun _ _ ht => .setReg ht) .start))))⟩

/-- A HELLO that is taken in: the partner is noted, and beside the link's registers nothing changes. -/
theorem State.takeHello_spec (hregs : tabWf regReset s.regs = true) (hports : tabWf Port.reset s.ports = true)
    (hlinks : tabWf Link.reset s.links = true) (l : Nat) (h : Hello) : s.Keeps (helloFields l) 0 Port.unseen (s.takeHello l h) ∧
      tabWf Link.reset (s.takeHello l h).links = true ∧ ((s.takeHello l h).link l).partner = some h ∧ (s.takeHello l h).chain = s.chain := by
  obtain ⟨hkeeps, hsignals⟩ := s.partnerShown_keeps hregs hports l h
  have hwf : tabWf Link.reset (s.partnerShown l h).links = true := by
    rw [hsignals.links_eq]
    exact hlinks
  rw [State.takeHello_eq]
  exact ⟨hkeeps.withPartner, State.withPartner_links_wf hwf l h, State.withPartner_link hwf l h,
    (State.withPartner_chain l h).trans hsignals.chain_eq⟩

end
end Sys2Proof.Machine
end

section
/-!
SUPPORT. What a HELLO makes of a link, and writes of EN and of the role, in 09_sahoz_chain.md (R311, R312, R319, R323).
-/
namespace Sys2Proof.Machine

section
variable {s t : State}

/-! ## HELLO (R312, R323) -/

/-- The state in which link l has come up, at the lower rate where slow. -/
def State.cameUp (s : State) (l : Nat) (slow : Bool) : State :=
  if slow then (((s.toLinkState l lkUp).on (LK_EVT.UP l)).on (LK_STAT.RATE_5G l)).on (LK_EVT.FALLBACK l)
  else (s.toLinkState l lkUp).on (LK_EVT.UP l)

/-- A link that has come up shows it and notes it, with the partner that it has. -/
theorem State.cameUp_spec (hregs : tabWf regReset s.regs = true) (hports : tabWf Port.reset s.ports = true)
    (hlinks : tabWf Link.reset s.links = true) (l : Nat) (slow : Bool) : (s.cameUp l slow).Reads (LK_STAT.STATE l) lkUp ∧
      (s.cameUp l slow).Reads (LK_EVT.UP l) 1 ∧ tabWf Link.reset (s.cameUp l slow).links = true ∧
      ((s.cameUp l slow).link l).partner = (s.link l).partner := by
  have hmoved : (s.toLinkState l lkUp).Reads (LK_STAT.STATE l) lkUp := State.toLinkState_reads hregs hports (by decide)
  have hup : ((s.toLinkState l lkUp).on (LK_EVT.UP l)).Reads (LK_STAT.STATE l) lkUp :=
    hmoved.wr (by simp [Fld.apart, LK_EVT.UP, LK_STAT.STATE, LK_EVT, LK_STAT])
  have hevt : ((s.toLinkState l lkUp).on (LK_EVT.UP l)).Reads (LK_EVT.UP l) 1 :=
    .takenAs (.start hmoved.regs_wf hmoved.ports_wf) (show 1 < 2 ^ 1 by decide) (by simp [LK_EVT.UP])
  have hwf : tabWf Link.reset (s.toLinkState l lkUp).links = true := State.toLinkState_links_wf hlinks
  have hpartner : ((s.toLinkState l lkUp).link l).partner = (s.link l).partner := (congrArg Link.partner (State.toLinkState_link hlinks) :)
  cases slow with
  | false => exact ⟨hup, hevt, hwf, hpartner⟩
  | true =>
    exact ⟨(hup.wr (by simp [Fld.apart, LK_STAT.RATE_5G, LK_STAT.STATE])).wr
        (by simp [Fld.apart, LK_EVT.FALLBACK, LK_STAT.STATE, LK_EVT, LK_STAT]),
      (hevt.wr (by simp [Fld.apart, LK_STAT.RATE_5G, LK_EVT.UP, LK_EVT, LK_STAT])).wr
        (by simp [Fld.apart, LK_EVT.FALLBACK, LK_EVT.UP]), hwf, hpartner⟩

theorem heldBits_apart : ∀ l : Fin 4, (LK_EVT.HELD l).apart (LK_STAT.STATE l) = true ∧ (LK_EVT.HELD l).apart (LK_STAT.HOLD_CAUSE l) = true ∧
    CH_EVT.HELD.apart (LK_STAT.STATE l) = true ∧ CH_EVT.HELD.apart (LK_STAT.HOLD_CAUSE l) = true := by decide

/-- The state in which link l is shown as HELD with cause c, before the event. -/
def State.heldShown (s : State) (l c : Nat) : State :=
  (((s.toLinkState l lkHeld).wr (LK_STAT.HOLD_CAUSE l) c).on (LK_EVT.HELD l)).on CH_EVT.HELD

theorem State.heldShown_spec (hregs : tabWf regReset s.regs = true) (hports : tabWf Port.reset s.ports = true) (l : Fin 4) {c : Nat} (hc : c < 8) :
    (s.heldShown l c).Reads (LK_STAT.STATE l) lkHeld ∧ (s.heldShown l c).Reads (LK_STAT.HOLD_CAUSE l) c ∧
      (s.heldShown l c).Reads CH_EVT.HELD 1 := by
  have hmoved : (s.toLinkState l lkHeld).Reads (LK_STAT.STATE l) lkHeld := State.toLinkState_reads hregs hports (by decide)
  have hevt : (LK_EVT.HELD l).apart (LK_STAT.STATE l) = true ∧ (LK_EVT.HELD l).apart (LK_STAT.HOLD_CAUSE l) = true ∧
      CH_EVT.HELD.apart (LK_STAT.STATE l) = true ∧ CH_EVT.HELD.apart (LK_STAT.HOLD_CAUSE l) = true := heldBits_apart l
  obtain ⟨hevtState, hevtCause, hheldState, hheldCause⟩ := hevt
  have hcause : ((s.toLinkState l lkHeld).wr (LK_STAT.HOLD_CAUSE l) c).Reads (LK_STAT.HOLD_CAUSE l) c :=
    .takenAs (.start hmoved.regs_wf hmoved.ports_wf) hc (by simp [LK_STAT.HOLD_CAUSE])
  have hstate : ((s.toLinkState l lkHeld).wr (LK_STAT.HOLD_CAUSE l) c).Reads (LK_STAT.STATE l) lkHeld :=
    hmoved.wr (by simp [Fld.apart, LK_STAT.HOLD_CAUSE, LK_STAT.STATE])
  exact ⟨(hstate.wr hevtState).wr hheldState, (hcause.wr hevtCause).wr hheldCause,
    .taken (State.Reads.start (setReg_wf _ _ hcause.regs_wf) hcause.ports_wf)⟩

theorem helloFields_apart : ∀ l : Fin 4, (helloFields l).all (fun f => f.apart CH_CTRL.ROLE) = true := by decide +kernel

/-- A HELLO that is taken in changes neither the role nor the own serial number. -/
theorem State.takeHello_own (hcanon : s.canon = true) (l : Fin 4) (h : Hello) :
    (s.takeHello l h).role = s.role ∧ (s.takeHello l h).chain.sn = s.chain.sn := by
  obtain ⟨hkeeps, -, -, hchain⟩ := State.takeHello_spec (State.regs_wf_of_canon hcanon) (State.ports_wf_of_canon hcanon)
    (State.links_wf_of_canon hcanon) l h
  exact ⟨by rw [State.role, hkeeps.rd_eq _ (helloFields_apart l), State.role], congrArg Chain.sn hchain⟩

/-- A HELLO that passes its checks brings the link UP. -/
theorem execHelloExchange_up (hcanon : s.canon = true) {l : Fin 4} {h : Hello} (hhello : s.linkState l = lkHello) (hruns : s.runs .hser = true)
    (hroot : h.role ≠ 1 ∨ s.role ≠ 1) (hsn : h.sn ≠ s.chain.sn) (hrole : h.role ≠ 0) : ∃ slow, exec (.helloExchange l (some h)) s =
      .next (((s.takeHello l h).cameUp l slow).reportLink l 1) := by
  obtain ⟨hroleEq, hsnEq⟩ := State.takeHello_own hcanon l h
  have hconflict : ¬ (h.role = 1 ∧ (s.takeHello l h).role = 1) := fun ⟨hpartner, hown⟩ =>
    hroot.elim (fun hne => hne hpartner) fun hne => hne (hroleEq.symm.trans hown)
  have hexchange : ¬ (s.linkState l ≠ lkHello ∨ s.runs .hser = false) := by simp [hhello, hruns]
  exact ⟨_, (if_neg hexchange).trans ((if_neg hconflict).trans ((if_neg (hsnEq ▸ hsn)).trans (if_neg hrole)))⟩

/-- A HELLO of the device itself holds the link. -/
theorem execHelloExchange_loopback (hcanon : s.canon = true) {l : Fin 4} {h : Hello} (hhello : s.linkState l = lkHello)
    (hruns : s.runs .hser = true) (hroot : h.role ≠ 1 ∨ s.role ≠ 1) (hsn : h.sn = s.chain.sn) : exec (.helloExchange l (some h)) s =
      .next (((s.takeHello l h).holdLink l 4 (some Ev.LINK_LOOPBACK)).reportLink l 6) := by
  obtain ⟨hroleEq, hsnEq⟩ := State.takeHello_own hcanon l h
  have hconflict : ¬ (h.role = 1 ∧ (s.takeHello l h).role = 1) := fun ⟨hpartner, hown⟩ =>
    hroot.elim (fun hne => hne hpartner) fun hne => hne (hroleEq.symm.trans hown)
  have hexchange : ¬ (s.linkState l ≠ lkHello ∨ s.runs .hser = false) := by simp [hhello, hruns]
  exact (if_neg hexchange).trans ((if_neg hconflict).trans (if_pos (hsn.trans hsnEq.symm)))

/-- A report of a link's state leaves what its registers show. -/
theorem State.Reads.reportLink {g : Fld} {x l what : Nat} (h : s.Reads g x) (hlinks : tabWf Link.reset s.links = true)
    (hg : chainFields.all (fun f => f.apart g) = true) : (s.reportLink l what).Reads g x :=
  h.kept (State.KeepsLinks.reportLink (.start h.regs_wf h.ports_wf hlinks)).keeps hg

theorem chainFields_apart_hello : ∀ l : Fin 4, chainFields.all (fun f => f.apart (LK_STAT.STATE l)) = true ∧
    chainFields.all (fun f => f.apart (LK_STAT.HOLD_CAUSE l)) = true ∧ chainFields.all (fun f => f.apart (LK_EVT.UP l)) = true ∧
    chainFields.all (fun f => f.apart (LK_EVT.SLEEP l)) = true ∧ logFields.all (fun f => f.apart (LK_STAT.STATE l)) = true ∧
    logFields.all (fun f => f.apart (LK_STAT.HOLD_CAUSE l)) = true := by decide +kernel

theorem heldFields_apart : chainFields.all (fun f => f.apart CH_EVT.HELD) = true ∧ logFields.all (fun f => f.apart CH_EVT.HELD) = true := by
  decide +kernel

theorem helloExchange_up (hcanon : s.canon = true) {l : Fin 4} {h : Hello} (hhello : s.linkState l = lkHello) (hruns : s.runs .hser = true)
    (hroot : h.role ≠ 1 ∨ s.role ≠ 1) (hsn : h.sn ≠ s.chain.sn) (hrole : h.role ≠ 0) : Completes (.helloExchange l (some h)) s fun t =>
      t.linkState l = lkUp ∧ (t.link l).partner = some h ∧ t.bit (LK_EVT.UP l) = true := by
  obtain ⟨slow, hnext⟩ := execHelloExchange_up hcanon hhello hruns hroot hsn hrole
  obtain ⟨hkeeps, hwf, hpartner, -⟩ := State.takeHello_spec (State.regs_wf_of_canon hcanon) (State.ports_wf_of_canon hcanon)
    (State.links_wf_of_canon hcanon) l h
  obtain ⟨hup, hevt, hupWf, hsame⟩ := State.cameUp_spec hkeeps.regs_wf hkeeps.ports_wf hwf l slow
  obtain ⟨hstateApart, -, hupApart, -⟩ := chainFields_apart_hello l
  have hreported := State.KeepsLinks.reportLink (l := l) (what := 1) (.start hup.regs_wf hup.ports_wf hupWf)
  exact completes_of_next hnext ⟨(hup.reportLink hupWf hstateApart).rd_eq, (hreported.partner_eq l).trans (hsame.trans hpartner),
    (hevt.reportLink hupWf hupApart).bit_eq⟩

theorem helloExchange_loopback (hcanon : s.canon = true) {l : Fin 4} {h : Hello} (hhello : s.linkState l = lkHello)
    (hruns : s.runs .hser = true) (hroot : h.role ≠ 1 ∨ s.role ≠ 1) (hsn : h.sn = s.chain.sn) :
    Completes (.helloExchange l (some h)) s fun t =>
      t.linkState l = lkHeld ∧ t.rd (LK_STAT.HOLD_CAUSE l) = 4 ∧ t.bit CH_EVT.HELD = true := by
  have hnext := execHelloExchange_loopback hcanon hhello hruns hroot hsn
  obtain ⟨hkeeps, hwf, -, -⟩ := State.takeHello_spec (State.regs_wf_of_canon hcanon) (State.ports_wf_of_canon hcanon)
    (State.links_wf_of_canon hcanon) l h
  obtain ⟨hstate, hcause, hheld⟩ := State.heldShown_spec (c := 4) hkeeps.regs_wf hkeeps.ports_wf l (by decide)
  obtain ⟨hstateApart, hcauseApart, -, -, hstateLog, hcauseLog⟩ := chainFields_apart_hello l
  have hlinks : ((s.takeHello l h).holdLink l 4 (some Ev.LINK_LOOPBACK)).links = ((s.takeHello l h).toLinkState l lkHeld).links :=
    (State.Signals.event (.setReg (.setReg (.setReg .start)))).links_eq
  have hheldWf : tabWf Link.reset ((s.takeHello l h).holdLink l 4 (some Ev.LINK_LOOPBACK)).links = true :=
    hlinks ▸ State.toLinkState_links_wf hwf
  exact completes_of_next hnext ⟨(State.Reads.reportLink (hstate.event hstateLog) hheldWf hstateApart).rd_eq,
    (State.Reads.reportLink (hcause.event hcauseLog) hheldWf hcauseApart).rd_eq,
    (State.Reads.reportLink (hheld.event heldFields_apart.2) hheldWf heldFields_apart.1).bit_eq⟩

theorem helloExchange_failed (hcanon : s.canon = true) {l : Fin 4} (hhello : s.linkState l = lkHello) (hruns : s.runs .hser = true) :
    Completes (.helloExchange l none) s fun t =>
      t.reg (LK_CNT_HELLOERR l) = countUp (s.reg (LK_CNT_HELLOERR l)) ∧ t.linkState l = lkHello := by
  have hne : ∀ l : Fin 4, (LK_STAT.STATE l).reg ≠ LK_CNT_HELLOERR l := by decide
  refine completes_of_next (if_neg (by simp [hhello, hruns])) ⟨reg_inc (State.regs_wf_of_canon hcanon) _, ?_⟩
  rw [← hhello, State.linkState, State.rd, State.inc, State.incBy, reg_setReg_ne (hne l)]
  rfl

end
end Sys2Proof.Machine
end

section
/-!
SUPPORT. Links that sleep, and writes of EN and of the role, in 09_sahoz_chain.md (R312, R319, R337), and its statement about links.
-/
namespace Sys2Proof.Machine

section
variable {s t : State}

/-! ## A link that sleeps (R337) -/

theorem State.asleepThrough_eq (s : State) (d : Nat) : ∃ c g, s.asleepThrough d =
    (s.through d).foldl (fun s d => s.memberLines d 0) ({ s with chain := c, ledger := g } : State).showMembers := by
  unfold State.asleepThrough
  exact ⟨_, _, rfl⟩

/-- The root's note of members that sleep changes registers of the chain, and no link. -/
theorem State.asleepThrough_keeps (hregs : tabWf regReset s.regs = true) (hports : tabWf Port.reset s.ports = true) (d : Nat) :
    s.Keeps chainFields 0 Port.unseen (s.asleepThrough d) ∧ (s.asleepThrough d).links = s.links := by
  obtain ⟨c, g, hasleep⟩ := s.asleepThrough_eq d
  have hstart : s.Keeps chainFields 0 Port.unseen s := .start hregs hports
  have hsame : s.Keeps chainFields 0 Port.unseen ({ s with chain := c, ledger := g } : State) := hstart.same rfl rfl
  have hshown : s.Keeps chainFields 0 Port.unseen ({ s with chain := c, ledger := g } : State).showMembers :=
    hsame.wrField (chainBits_mem (by simp [chainBits]))
  rw [hasleep]
  refine List.foldlRecOn (motive := fun t : State => s.Keeps chainFields 0 Port.unseen t ∧ t.links = s.links) (s.through d) _ ⟨hshown, rfl⟩ ?_
  intro t ⟨hkeeps, hlinks⟩ e _
  exact ⟨hkeeps.andThen guardFields_subset_chainFields (.memberLines (.start hkeeps.regs_wf hkeeps.ports_wf)) rfl,
    (State.memberLines_signals .start).links_eq.trans hlinks⟩

/-- A link whose partner sleeps shows and notes it, and what it carried is stranded. -/
theorem State.sleepLink_spec (hcanon : s.canon = true) (l : Fin 4) : (s.sleepLink l).Reads (LK_STAT.STATE l) lkSleep ∧
    (s.sleepLink l).Reads (LK_EVT.SLEEP l) 1 ∧ tabWf Link.reset (s.sleepLink l).links = true := by
  have hregs := State.regs_wf_of_canon hcanon
  have hports := State.ports_wf_of_canon hcanon
  have hlinks := State.links_wf_of_canon hcanon
  have hempty := State.cellsGone_emptied (l := l) (c := lkSleep) hregs hports hlinks (by decide)
  have hkeeps := State.emptyLink_keeps (l := l) (c := lkSleep) hregs hports hlinks (by decide)
  obtain ⟨hstateApart, -, -, hsleepApart, -⟩ := chainFields_apart_hello l
  have hmoved : ((s.cellsGone l).toLinkState l lkSleep).Reads (LK_STAT.STATE l) lkSleep :=
    ⟨hempty.keeps.regs_wf, hempty.keeps.ports_wf, hempty.state_eq⟩
  have hstate : ((s.emptyLink l lkSleep).on (LK_EVT.SLEEP l)).Reads (LK_STAT.STATE l) lkSleep :=
    (hmoved.kept hkeeps.keeps hstateApart).wr (by simp [Fld.apart, LK_EVT.SLEEP, LK_STAT.STATE, LK_EVT, LK_STAT])
  have hevt : ((s.emptyLink l lkSleep).on (LK_EVT.SLEEP l)).Reads (LK_EVT.SLEEP l) 1 :=
    .takenAs (.start hkeeps.keeps.regs_wf hkeeps.keeps.ports_wf) (show 1 < 2 ^ 1 by decide) (by simp [LK_EVT.SLEEP])
  have hstrands : ((s.emptyLink l lkSleep).on (LK_EVT.SLEEP l)).KeepsLinks (s.sleepLink l) :=
    .foldl _ (fun _ _ ht => ht.strand (by decide)) (.foldl _ (fun _ _ ht => ht.strand (by decide))
      (.start hstate.regs_wf hstate.ports_wf hkeeps.links_wf))
  exact ⟨hstate.kept hstrands.keeps hstateApart, hevt.kept hstrands.keeps hsleepApart, hstrands.links_wf⟩

theorem linkSleep_completes (hcanon : s.canon = true) {l : Fin 4} (hlow : 3 ≤ s.linkState l) (hhigh : s.linkState l ≤ 5) :
    Completes (.linkSleep l) s fun t => t.linkState l = lkSleep ∧ t.bit (LK_EVT.SLEEP l) = true := by
  obtain ⟨hstate, hevt, hwf⟩ := State.sleepLink_spec hcanon l
  obtain ⟨hstateApart, -, -, hsleepApart, -⟩ := chainFields_apart_hello l
  obtain ⟨hkeeps, hlinks⟩ := State.asleepThrough_keeps hstate.regs_wf hstate.ports_wf ((s.sleepLink l).rd (LK_STAT.PARTNER_DEV l))
  refine completes_of_next (if_pos ⟨hlow, hhigh⟩) ?_
  split_ifs
  · have hsame : tabWf Link.reset ((s.sleepLink l).asleepThrough ((s.sleepLink l).rd (LK_STAT.PARTNER_DEV l))).links = true := by
      rw [hlinks]
      exact hwf
    exact ⟨((hstate.kept hkeeps hstateApart).reportLink hsame hstateApart).rd_eq,
      ((hevt.kept hkeeps hsleepApart).reportLink hsame hsleepApart).bit_eq⟩
  · exact ⟨(hstate.reportLink hwf hstateApart).rd_eq, (hevt.reportLink hwf hsleepApart).bit_eq⟩

/-! ## What a link that goes down changes of registers -/

/-- The registers that the loss of link l changes. -/
def dropFields (l : Nat) : List Fld := [wholeReg (LK_CNT_DOWN l), wholeReg (LK_EVT l)] ++ linkFields l ++ chainFields

theorem chainFields_subset_dropFields (l : Nat) : chainFields ⊆ dropFields l := fun _ hf => by simp [dropFields, hf]

theorem linkFields_subset_dropFields (l : Nat) : linkFields l ⊆ dropFields l := fun _ hf => by simp [dropFields, hf]

theorem State.dropLink_keepsAll (hregs : tabWf regReset s.regs = true) (hports : tabWf Port.reset s.ports = true)
    (hlinks : tabWf Link.reset s.links = true) (l : Nat) {c : Nat} (hc : c < 8) :
    s.Keeps (dropFields l) 0 Port.unseen (s.dropLink l c) ∧ tabWf Link.reset (s.dropLink l c).links = true := by
  have hlog : logFields ⊆ dropFields l := fun f hf => chainFields_subset_dropFields l (logFields_subset_chainFields hf)
  have hnoted : s.Keeps (dropFields l) 0 Port.unseen (s.lossNoted l) :=
    .event hlog (.on (.inc (.start hregs hports) (by simp [dropFields])) (by simp [dropFields, LK_EVT.DOWN]))
  have hmoved : s.Keeps (dropFields l) 0 Port.unseen (((s.lossNoted l).cellsGone l).toLinkState l c) :=
    .toLinkState (linkFields_subset_dropFields l stat_mem_linkFields) (.cellsGone (linkFields_subset_dropFields l) hnoted)
  have hkeeps := State.dropLink_keeps (l := l) hregs hports hlinks hc
  exact ⟨hmoved.andThen (chainFields_subset_dropFields l) hkeeps.keeps rfl, hkeeps.links_wf⟩

/-! ## Writes of EN (R312) -/

theorem dropFields_apart_en : ∀ l : Fin 4, (dropFields l).all (fun f => f.apart (LK_CTRL.EN l)) = true := by decide +kernel

theorem linkRows_plain : ∀ l : Fin 4, (regRow? (LK_CTRL l)).any (fun r => r.plain 1) = true ∧
    logFields.all (fun f => f.apart (LK_CTRL.EN l)) = true ∧ 0x80000 ≤ LK_CTRL l := by decide +kernel

/-- What a written EN does to the link leaves EN as it is; a link without EN is disabled. -/
theorem State.linkEn_spec (hregs : tabWf regReset s.regs = true) (hports : tabWf Port.reset s.ports = true)
    (hlinks : tabWf Link.reset s.links = true) (l : Fin 4) : (s.linkEn l).bit (LK_CTRL.EN l) = s.bit (LK_CTRL.EN l) ∧
      (s.bit (LK_CTRL.EN l) = false → (s.linkEn l).linkState l = lkDisabled) := by
  have hstart : s.Keeps (dropFields l) 0 Port.unseen s := .start hregs hports
  have hmoved : ∀ c, s.Keeps (dropFields l) 0 Port.unseen (s.toLinkState l c) := fun c =>
    hstart.toLinkState (linkFields_subset_dropFields l stat_mem_linkFields)
  have hdropped := (State.dropLink_keepsAll hregs hports hlinks l (c := lkDisabled) (by decide)).1
  unfold State.linkEn
  split_ifs with hen hfrom hdrop
  · exact ⟨(hmoved _).bit_eq (dropFields_apart_en l), fun hoff => absurd hen (by simp [hoff])⟩
  · exact ⟨rfl, fun hoff => absurd hen (by simp [hoff])⟩
  · exact ⟨hdropped.bit_eq (dropFields_apart_en l), fun _ => (State.dropLink_spec hregs hports hlinks l (by decide) (by decide)).1⟩
  · exact ⟨(hmoved _).bit_eq (dropFields_apart_en l), fun _ => (State.toLinkState_reads hregs hports (by decide)).rd_eq⟩

theorem linkEnWrite_completes (hcanon : s.canon = true) (o : Origin) (l : Fin 4) (en : Bool) (hex : s.regExists (LK_CTRL l) = true) :
    Completes (.linkEnWrite o l en) s fun t => t.bit (LK_CTRL.EN l) = en ∧ (en = false → t.linkState l = lkDisabled) := by
  obtain ⟨hrow, hlog, hserial⟩ := linkRows_plain l
  have hstored : (s.regStore o (LK_CTRL l) (fldPut (LK_CTRL.EN l) (s.reg (LK_CTRL l)) en.toNat)).bit (LK_CTRL.EN l) = en :=
    bit_regStore_fldPut (f := LK_CTRL.EN l) (mask := 1) hcanon hserial (show 0 < 32 by decide) rfl (show Nat.testBit 1 0 = true by decide)
      hrow hex hlog
  have hkeeps : s.Keeps (wholeReg (LK_CTRL l) :: logFields) 0 Port.unseen
      (s.regStore o (LK_CTRL l) (fldPut (LK_CTRL.EN l) (s.reg (LK_CTRL l)) en.toNat)) :=
    .regStore (by simp) (by simp) hserial (.of_canon hcanon)
  have hlinks : (s.regStore o (LK_CTRL l) (fldPut (LK_CTRL.EN l) (s.reg (LK_CTRL l)) en.toNat)).links = s.links :=
    (State.Signals.regStore .start).links_eq
  obtain ⟨hbit, hstate⟩ := State.linkEn_spec hkeeps.regs_wf hkeeps.ports_wf (hlinks ▸ State.links_wf_of_canon hcanon) l
  exact completes_of_next rfl ⟨hbit.trans hstored, fun hoff => hstate (hstored.trans hoff)⟩

/-! ## Writes of the role (R319) -/

/-- What a change of the role changes of registers. -/
def roleFields : List Fld := (List.range 4).flatMap dropFields ++ submitFields ++ [wholeReg CH_STAT]

theorem dropFields_subset_roleFields {l : Nat} (hl : l < 4) : dropFields l ⊆ roleFields := fun _ hf =>
  List.mem_append_left _ (List.mem_append_left _ (List.mem_flatMap.2 ⟨l, List.mem_range.2 hl, hf⟩))

theorem submitFields_subset_roleFields : submitFields ⊆ roleFields := fun f hf => by simp [roleFields, hf]

theorem roleFields_apart : roleFields.all (fun f => f.apart CH_CTRL.ROLE) = true := by decide +kernel

theorem stat_mem_roleFields {l : Nat} (hl : l < 4) : wholeReg (LK_STAT l) ∈ roleFields :=
  dropFields_subset_roleFields hl (linkFields_subset_dropFields l stat_mem_linkFields)

theorem rte_mem_roleFields : ∀ i < 4, wholeReg (CH_RTE i) ∈ roleFields := fun i hi =>
  dropFields_subset_roleFields (l := 0) (by decide) (chainFields_subset_dropFields 0 (chainRegs_mem (by interval_cases i <;> decide)))

theorem State.Keeps.chainFollows (h : s.Keeps roleFields 0 Port.unseen t) : s.Keeps roleFields 0 Port.unseen t.chainFollows := by
  have hself : t.Keeps submitFields 0 Port.unseen t := .start h.regs_wf h.ports_wf
  exact .ite (h.andThen submitFields_subset_roleFields hself.revalued rfl) h

theorem State.Keeps.withChain {c : Chain} (h : s.Keeps roleFields 0 Port.unseen t) : s.Keeps roleFields 0 Port.unseen (t.withChain c) :=
  h.same rfl rfl

/-- The state in which the device shows that it has left the chain. -/
def State.leftShown (s : State) : State :=
  let s := (((s.wr CH_STAT.DEVNUM 0).off CH_STAT.NUMBERED).off CH_STAT.ISOLATED).wr CH_STAT.HOPS 0
  (((s.off CH_STAT.ENUM_BUSY).off CH_STAT.ENUM_DONE).wr CH_STAT.MEMBERS 0).wr CH_STAT.UPLINK 0

/-- The state in which no link leads up and no route is left. -/
def State.routesGone (s : State) : State :=
  (List.range 4).foldl (fun s i => s.setReg (CH_RTE i) 0) ((List.range 4).foldl (fun s l => s.off (LK_STAT.UPSTREAM l)) s)

theorem State.leaveChain_eq (s : State) : ∃ c, s.leaveChain = (s.leftShown.routesGone.withChain c).chainFollows := ⟨_, rfl⟩

theorem State.Keeps.leftShown (h : s.Keeps roleFields 0 Port.unseen t) : s.Keeps roleFields 0 Port.unseen t.leftShown := by
  have hstat : wholeReg CH_STAT ∈ roleFields := by simp [roleFields]
  exact .wr (.wr (.off (.off (.wr (.off (.off (.wr h hstat) hstat) hstat) hstat) hstat) hstat) hstat) hstat

theorem State.Keeps.routesGone (h : s.Keeps roleFields 0 Port.unseen t) : s.Keeps roleFields 0 Port.unseen t.routesGone :=
  .foldl _ (fun _ i hi ht => ht.setReg (rte_mem_roleFields i (List.mem_range.1 hi)))
    (.foldl _ (fun _ _ hl ht => ht.off (stat_mem_roleFields (List.mem_range.1 hl))) h)

theorem State.Keeps.leaveChain (h : s.Keeps roleFields 0 Port.unseen t) : s.Keeps roleFields 0 Port.unseen t.leaveChain := by
  obtain ⟨c, hleave⟩ := t.leaveChain_eq
  rw [hleave]
  exact .chainFollows (.withChain h.leftShown.routesGone)

/-- The state to which a change of the role brings link l. -/
def State.roleNext (s : State) (l : Nat) : Nat := if s.role = 0 ∨ s.bit (LK_CTRL.EN l) = false then lkDisabled else lkDetect

theorem State.roleNext_lt (s : State) (l : Nat) : s.roleNext l < 8 := by
  unfold State.roleNext
  split_ifs <;> decide

/-- A change of the role leaves the role as it is written. -/
theorem State.roleMoved_keeps (hregs : tabWf regReset s.regs = true) (hports : tabWf Port.reset s.ports = true)
    (hlinks : tabWf Link.reset s.links = true) (old : Nat) : s.Keeps roleFields 0 Port.unseen (s.roleMoved old) := by
  have hmoved : s.Keeps roleFields 0 Port.unseen ((List.range 4).foldl
        (fun s l => if s.canDrop l then s.dropLink l (s.roleNext l) else s.toLinkState l (s.roleNext l)) s) ∧
      tabWf Link.reset ((List.range 4).foldl
        (fun s l => if s.canDrop l then s.dropLink l (s.roleNext l) else s.toLinkState l (s.roleNext l)) s).links = true := by
    refine List.foldlRecOn (motive := fun t : State => s.Keeps roleFields 0 Port.unseen t ∧ tabWf Link.reset t.links = true) _ _
      ⟨.start hregs hports, hlinks⟩ fun t ⟨hkeeps, hwf⟩ l hl => ?_
    obtain ⟨hdropped, hdroppedWf⟩ := State.dropLink_keepsAll hkeeps.regs_wf hkeeps.ports_wf hwf l (t.roleNext_lt l)
    split_ifs
    · exact ⟨hkeeps.andThen (dropFields_subset_roleFields (List.mem_range.1 hl)) hdropped rfl, hdroppedWf⟩
    · exact ⟨hkeeps.toLinkState (stat_mem_roleFields (List.mem_range.1 hl)), State.toLinkState_links_wf hwf⟩
  unfold State.roleMoved
  split_ifs
  · exact .start hregs hports
  · exact hmoved.1.leaveChain

theorem chainRoleWrite_completes (hcanon : s.canon = true) (o : Origin) (role : BitVec 2) :
    Completes (.chainRoleWrite o role) s fun t => t.rd CH_CTRL.ROLE = role.toNat := by
  have hkeeps : s.Keeps (wholeReg CH_CTRL :: logFields) 0 Port.unseen
      (s.regStore o CH_CTRL (fldPut CH_CTRL.ROLE (s.reg CH_CTRL) role.toNat)) :=
    .regStore (by simp) (by simp) (by decide) (.of_canon hcanon)
  have hlinks : (s.regStore o CH_CTRL (fldPut CH_CTRL.ROLE (s.reg CH_CTRL) role.toNat)).links = s.links :=
    (State.Signals.regStore .start).links_eq
  have hmoved := State.roleMoved_keeps hkeeps.regs_wf hkeeps.ports_wf (hlinks ▸ State.links_wf_of_canon hcanon) s.role
  refine completes_of_next rfl ((hmoved.rd_eq _ roleFields_apart).trans ((role_regStore hcanon o _).trans ?_))
  rw [fldOf_fldPut_same (by decide)]
  exact Nat.mod_eq_of_lt role.isLt

end

/-- Settles O27: from the state that a link enters on, what its cells, its report and the enumeration change leaves the state of a link that is
not UP, and what the registers of every link show. -/
theorem linksComplete : Obligations.LinksComplete := by
  unfold Obligations.LinksComplete
  refine ⟨?signal, ?lock, ?timeout, ?up, ?loopback, ?failed, ?down, ?forced, ?sleep, ?role, ?en⟩
  case signal => exact fun s l hcanon ⟨hdetect, hruns⟩ => linkSignalDetect_completes hcanon hdetect hruns
  case lock => exact fun s l hcanon ⟨htrain, hruns⟩ => linkBlockLock_completes hcanon htrain hruns
  case timeout => exact fun s l hcanon ⟨htrain, hruns⟩ => linkTrainTimeout_completes hcanon htrain hruns
  case up =>
    exact fun s l h hcanon ⟨hhello, hruns⟩ ⟨hroot, hsn, hrole⟩ => helloExchange_up hcanon hhello hruns hroot hsn hrole
  case loopback => exact fun s l h hcanon ⟨hhello, hruns⟩ ⟨hroot, hsn⟩ => helloExchange_loopback hcanon hhello hruns hroot hsn
  case failed => exact fun s l hcanon ⟨hhello, hruns⟩ => helloExchange_failed hcanon hhello hruns
  case down =>
    intro s l hcanon ⟨hdrop, _⟩
    exact completes_of_next (congrArg Host.Outcome.next (if_pos hdrop)) (State.dropLink_spec (State.regs_wf_of_canon hcanon)
      (State.ports_wf_of_canon hcanon) (State.links_wf_of_canon hcanon) l (by decide) (by decide))
  case forced => exact fun s o l hcanon ⟨hdrop, _⟩ => forceDown_completes hcanon o l hdrop
  case sleep => exact fun s l hcanon ⟨hlow, hhigh⟩ => linkSleep_completes hcanon hlow hhigh
  case role => exact fun s o role hcanon _ => chainRoleWrite_completes hcanon o role
  case en => exact fun s o l en hcanon ⟨hex, _⟩ => linkEnWrite_completes hcanon o l en hex

end Sys2Proof.Machine
end

section
/-!
SUPPORT. Bytes written to a memory in one pass, the engines bound to a slot, and the end of a load (R361 to R367, R643, R647).
-/
namespace Sys2Proof.Machine

/-! ## A range of bytes written in one pass -/

theorem tabGet_append_of_ne {α : Type} {d : Nat → α} {t : Tab α} {k : Nat} (h : ∀ e ∈ t, e.1 ≠ k) (u : Tab α) :
    tabGet d (t ++ u) k = tabGet d u k := by
  induction t with
  | nil => rfl
  | cons e t ih =>
    rw [List.cons_append, tabGet, if_neg (h e List.mem_cons_self), ih fun x hx => h x (List.mem_cons_of_mem _ hx)]

/-- Pairs below an address have no part in what is read from there on. -/
theorem memBytes_append_of_lt {l : Mem} (m : Mem) {a : Nat} (h : ∀ e ∈ l, e.1 < a) (n : Nat) :
    memBytes (l ++ m) a n = memBytes m a n := by
  induction n generalizing a with
  | zero => rfl
  | succ n ih =>
    rw [memBytes, memBytes, memByte, tabGet_append_of_ne fun e he => (h e he).ne, memByte, ih fun e he => (h e he).trans (Nat.lt_succ_self a)]

theorem le_of_mem_listBytes {bs : List Byte} {a : Nat} {e : Host.Cell} (h : e ∈ listBytes a bs) : a ≤ e.1 := by
  induction bs generalizing a with
  | nil => exact absurd h List.not_mem_nil
  | cons b bs ih =>
    unfold listBytes at h
    split_ifs at h
    · exact (Nat.le_succ a).trans (ih h)
    · rcases List.mem_cons.1 h with rfl | h
      · exact Nat.le_refl _
      · exact (Nat.le_succ a).trans (ih h)

/-- Listed bytes read back where everything that follows them lies above. -/
theorem memBytes_listBytes_append {bs : List Byte} {a : Nat} {m : Mem} (h : ∀ e ∈ m, a + bs.length ≤ e.1) :
    memBytes (listBytes a bs ++ m) a bs.length = bs := by
  induction bs generalizing a with
  | nil => rfl
  | cons b bs ih =>
    have hrest : memBytes (listBytes (a + 1) bs ++ m) (a + 1) bs.length = bs :=
      ih fun e he => by have := h e he; rw [List.length_cons] at this; omega
    rw [List.length_cons, memBytes, listBytes]
    split_ifs with hzero
    · have hunlisted : ∀ e ∈ listBytes (a + 1) bs ++ m, e.1 ≠ a := fun e he => by
        rcases List.mem_append.1 he with he | he
        · have := le_of_mem_listBytes he; omega
        · have := h e he; rw [List.length_cons] at this; omega
      rw [hrest, memByte, ← List.append_nil (listBytes (a + 1) bs ++ m), tabGet_append_of_ne hunlisted, hzero]
      rfl
    · have hhead : ∀ e ∈ [((a, b) : Host.Cell)], e.1 < a + 1 := fun e he => by rw [List.mem_singleton.1 he]; exact Nat.lt_succ_self a
      have htail : memBytes ([(a, b)] ++ (listBytes (a + 1) bs ++ m)) (a + 1) bs.length = bs :=
        (memBytes_append_of_lt _ hhead _).trans hrest
      rw [List.cons_append, memByte, tabGet, if_pos rfl]
      exact congrArg (b :: ·) htail

/-- What is written to a range in one pass reads back, whatever the memory's form. -/
theorem memBytes_memWriteRange (m : Mem) (a : Nat) (bs : List Byte) : memBytes (memWriteRange m a bs) a bs.length = bs := by
  rw [memWriteRange, List.append_assoc, memBytes_append_of_lt _ fun e he => of_decide_eq_true (List.mem_filter.1 he).2]
  exact memBytes_listBytes_append fun e he => of_decide_eq_true (List.mem_filter.1 he).2

/-! ## Parts of the state that records leave as they are -/

section
variable {s t : State}

theorem State.Signals.loader_eq (h : s.Signals t) : t.loader = s.loader := (congrArg State.loader h.untold_eq :)
theorem State.Signals.mem_eq (h : s.Signals t) : t.mem = s.mem := (congrArg State.mem h.untold_eq :)
theorem State.Signals.engines_eq (h : s.Signals t) : t.engines = s.engines := (congrArg State.engines h.untold_eq :)
theorem State.Signals.clustersOff_eq (h : s.Signals t) : t.clustersOff = s.clustersOff := (congrArg State.clustersOff h.untold_eq :)

/-! ## The engines bound to a slot (R368) -/

/-- The bindings of t are those of s. -/
def State.SameBindings (s t : State) : Prop := ∀ e < 48, t.reg (CE_BIND e) = s.reg (CE_BIND e)

theorem State.SameBindings.bound_eq (h : s.SameBindings t) {e : Nat} (he : e < 48) : t.bound e = s.bound e :=
  congrArg (fun v => fldOf (CE_BIND.BIND_EN e) v != 0) (h e he)

theorem State.SameBindings.slotOf_eq (h : s.SameBindings t) {e : Nat} (he : e < 48) : t.slotOf e = s.slotOf e :=
  congrArg (fldOf (CE_BIND.SLOT e)) (h e he)

theorem State.SameBindings.boundTo_eq (h : s.SameBindings t) (k : Nat) : t.boundTo k = s.boundTo k :=
  List.filter_congr fun e he => by rw [h.bound_eq (List.mem_range.1 he), h.slotOf_eq (List.mem_range.1 he)]

theorem State.startAgain_of_unbound {k : Nat} (h : (s.boundTo k).isEmpty = true) : s.startAgain k = s := by
  rw [State.startAgain, List.isEmpty_iff.1 h, List.foldl_nil]

end

/-! ## The end of a load (R364) -/

/-- What the loader writes: its registers, the word injection of a write to the scratchpad (R652), and the log's fields. -/
def loadFields : List Fld := [LD_STAT, LD_PROGRESS, MEM_INJ].map wholeReg ++ logFields

theorem logFields_subset_loadFields : logFields ⊆ loadFields := fun _ hf => by simp [loadFields, hf]

theorem loadFields_apart_bind : ∀ e : Fin 48, loadFields.all (fun f => f.apart (wholeReg (CE_BIND e))) = true := by decide +kernel

theorem logFields_apart_load : ∀ g ∈ [wholeReg LD_STAT, LD_STAT.STATE, LD_STAT.RESULT, LD_STAT.SLOT],
    logFields.all (fun f => f.apart g) = true := by decide +kernel

section
variable {s t : State} {n : Nat} {v : Port → Port}

theorem State.Keeps.sameBindings (h : s.Keeps loadFields n v t) : s.SameBindings t := fun e he => h.reg_eq (loadFields_apart_bind ⟨e, he⟩)

/-- The load with its result shown. -/
def State.resultShown (s : State) (result : Nat) : State :=
  (s.wr LD_STAT.STATE (if result = 0 then ldDone else ldFailed)).wr LD_STAT.RESULT result

/-- What the end of a load does before its event: the result is shown and nothing is staged any more. -/
def State.loadOver (s : State) (result : Nat) : State :=
  { s.resultShown result with loader := { s.loader with staged := [], installing := false } }

theorem State.endLoad_eq (s : State) (result : Nat) : ∃ nums o, s.endLoad result = (s.loadOver result).event Ev.IMAGE_LOAD nums o :=
  ⟨_, _, rfl⟩

/-- The end of a load: its state, its result, the loader, and what it leaves as it is. -/
structure State.Ended (s : State) (result : Nat) (t : State) : Prop where
  state_eq : t.rd LD_STAT.STATE = if result = 0 then ldDone else ldFailed
  result_eq : t.rd LD_STAT.RESULT = result
  loader_eq : t.loader = { s.loader with staged := [], installing := false }
  mem_eq : t.mem = s.mem
  boundTo_eq : ∀ k, t.boundTo k = s.boundTo k

theorem State.endLoad_spec (hregs : tabWf regReset s.regs = true) (hports : tabWf Port.reset s.ports = true) {result : Nat}
    (hresult : result < 16) : s.Ended result (s.endLoad result) := by
  obtain ⟨nums, o, heq⟩ := s.endLoad_eq result
  have htold : (s.loadOver result).Signals (s.endLoad result) := heq ▸ .event .start
  have hkeeps : s.Keeps loadFields 0 Port.unseen (s.endLoad result) :=
    heq ▸ .event logFields_subset_loadFields (.same (.wr (.wr (.start hregs hports) (by simp [LD_STAT.STATE, loadFields]))
      (by simp [LD_STAT.RESULT, loadFields])) rfl rfl)
  have hstate : (s.loadOver result).Reads LD_STAT.STATE (if result = 0 then ldDone else ldFailed) :=
    .same (.wr (.takenAs (.start hregs hports) (by split_ifs <;> decide))) rfl rfl
  have hshown : (s.loadOver result).Reads LD_STAT.RESULT result :=
    .same (.takenAs (.wr (.start hregs hports)) hresult) rfl rfl
  refine ⟨?state, ?result, htold.loader_eq, htold.mem_eq, hkeeps.sameBindings.boundTo_eq⟩
  case state => exact heq ▸ (hstate.event (logFields_apart_load _ (by simp))).rd_eq
  case result => exact heq ▸ (hshown.event (logFields_apart_load _ (by simp))).rd_eq

end

/-! ## The image is installed (R367) -/

section
variable {s u : State}

/-- Where every bank of a range is ON, its use asks for none, in whatever other state and for whatever origin (R647). -/
theorem State.needBanks_of_on {o : Origin} {lo hi : Nat} (hon : (s.needBanks o lo hi).1 = true) (hregs : u.regs = s.regs) (o' : Origin) :
    u.needBanks o' lo hi = (true, u) := by
  have hoff : (List.range 64).filter (fun b => u.bankState b != 0 && u.bankIn b lo hi) = [] := by
    have hsame : ∀ b, (u.bankState b != 0 && u.bankIn b lo hi) = (s.bankState b != 0 && s.bankIn b lo hi) := fun b => by
      rw [State.bankState, State.rd, State.reg, hregs, State.bankIn, State.ilvWidth, State.rd, State.reg, hregs]
      rfl
    rw [funext hsame]
    exact List.isEmpty_iff.1 hon
  rw [State.needBanks, hoff]
  rfl

/-- The staged bytes stand in the slot that the load names. -/
def State.placed (s : State) : State :=
  (s.scratchWrite (slotBase (s.rd LD_STAT.SLOT)) s.loader.staged).setSlot (s.rd LD_STAT.SLOT) { len := s.loader.staged.length, lost := false }

/-- The image is in its slot; a group that now claims another length has no shared range any more (R369). -/
def State.installed (s : State) : State :=
  if s.placed.hdrShared (s.rd LD_STAT.SLOT) = s.hdrShared (s.rd LD_STAT.SLOT) then s.placed
  else { s.placed with mem := { s.placed.mem with shares := s.placed.mem.shares.filter (fun x => x.slot != s.rd LD_STAT.SLOT) } }

theorem State.tryInstall_of_unbound (hfree : (s.boundTo (s.rd LD_STAT.SLOT)).isEmpty = true)
    (hon : ∀ o, s.needBanks o (slotBase (s.rd LD_STAT.SLOT)) (slotBase (s.rd LD_STAT.SLOT) + s.loader.staged.length) = (true, s)) :
    s.tryInstall = (s.installed.endLoad 0).startAgain (s.rd LD_STAT.SLOT) := by
  rw [State.tryInstall, List.isEmpty_iff.1 hfree, hon]
  rfl

theorem State.placed_keeps (hregs : tabWf regReset s.regs = true) (hports : tabWf Port.reset s.ports = true) :
    s.Keeps loadFields 0 Port.unseen s.placed := by
  have hsame : ∀ x : MemSys, s.Keeps loadFields 0 Port.unseen { s with mem := x } := fun _ => .same (.start hregs hports) rfl rfl
  have hwritten : s.Keeps loadFields 0 Port.unseen (s.scratchWrite (slotBase (s.rd LD_STAT.SLOT)) s.loader.staged) :=
    .ite (.off (hsame _) (by simp [MEM_INJ.ARM, loadFields])) (hsame _)
  exact hwritten.same rfl rfl

theorem State.scratchWrite_scratch (a : Nat) (bs : List Byte) : (s.scratchWrite a bs).mem.scratch = memWriteRange s.mem.scratch a bs := by
  unfold State.scratchWrite
  dsimp only
  split_ifs <;> rfl

theorem State.scratchWrite_slots (a : Nat) (bs : List Byte) : (s.scratchWrite a bs).mem.slots = s.mem.slots := by
  unfold State.scratchWrite
  dsimp only
  split_ifs <;> rfl

theorem State.installed_keeps (hregs : tabWf regReset s.regs = true) (hports : tabWf Port.reset s.ports = true) :
    s.Keeps loadFields 0 Port.unseen s.installed := .ite (State.placed_keeps hregs hports) (.same (State.placed_keeps hregs hports) rfl rfl)

theorem State.installed_scratch : s.installed.mem.scratch =
    memWriteRange s.mem.scratch (slotBase (s.rd LD_STAT.SLOT)) s.loader.staged := by
  unfold State.installed
  split_ifs <;> exact State.scratchWrite_scratch _ _

theorem State.installed_slots : s.installed.mem.slots =
    tabPut Slot.reset s.mem.slots (s.rd LD_STAT.SLOT) { len := s.loader.staged.length, lost := false } := by
  have hplaced : s.placed.mem.slots = tabPut Slot.reset s.mem.slots (s.rd LD_STAT.SLOT) { len := s.loader.staged.length, lost := false } :=
    congrArg (fun x => tabPut Slot.reset x (s.rd LD_STAT.SLOT) { len := s.loader.staged.length, lost := false }) (State.scratchWrite_slots _ _)
  unfold State.installed
  split_ifs <;> exact hplaced

/-- What an installed image leaves: the load DONE, the slot with the image's length, and its bytes. -/
structure State.Installs (s t : State) : Prop where
  ended : s.installed.Ended 0 t
  slot_eq : (t.slot (s.rd LD_STAT.SLOT)).len = s.loader.staged.length
  bytes_eq : memBytes t.mem.scratch (slotBase (s.rd LD_STAT.SLOT)) s.loader.staged.length = s.loader.staged

theorem State.tryInstall_spec (hregs : tabWf regReset s.regs = true) (hports : tabWf Port.reset s.ports = true)
    (hslots : tabWf Slot.reset s.mem.slots = true) (hfree : (s.boundTo (s.rd LD_STAT.SLOT)).isEmpty = true)
    (hon : ∀ o, s.needBanks o (slotBase (s.rd LD_STAT.SLOT)) (slotBase (s.rd LD_STAT.SLOT) + s.loader.staged.length) = (true, s)) :
    s.Installs s.tryInstall := by
  have hkeeps := State.installed_keeps hregs hports
  have hended : s.installed.Ended 0 (s.installed.endLoad 0) := State.endLoad_spec hkeeps.regs_wf hkeeps.ports_wf (by decide)
  have hstill : ((s.installed.endLoad 0).boundTo (s.rd LD_STAT.SLOT)).isEmpty = true := by
    rw [hended.boundTo_eq, hkeeps.sameBindings.boundTo_eq, hfree]
  rw [State.tryInstall_of_unbound hfree hon, State.startAgain_of_unbound hstill]
  refine ⟨hended, ?slot, ?bytes⟩
  case slot => rw [State.slot, hended.mem_eq, State.installed_slots, tabGet_tabPut _ _ _ hslots, if_pos rfl]
  case bytes => rw [hended.mem_eq, State.installed_scratch, memBytes_memWriteRange]

end

end Sys2Proof.Machine
end

section
/-!
SUPPORT. The statement of 10_engines.md on the image loader (R363 to R367, R399).
-/
namespace Sys2Proof.Machine

section
variable {s : State}

/-! ## BEGIN and the bytes of a load (R363 to R365) -/

/-- A load of origin o is announced for slot k. -/
def State.announced (s : State) (o : Origin) (v : Word) : State :=
  { ((s.wr LD_STAT.SLOT (fldOf LD_CTRL.SLOT v)).wr LD_STAT.OWNER (ownerCode o)).setReg LD_PROGRESS 0 with
    loader := {
      owner := o, org := o, len := s.rd LD_LEN.LEN, dma := fldOf LD_CTRL.DMA v != 0 && o == Origin.host
      replace := fldOf LD_CTRL.REPLACE v != 0, staged := [], installing := false } }

theorem execLdBegin_idle {o : Origin} {v : Word} (hidle : s.loading = false) : execLdBegin o v s =
    if s.rd LD_LEN.LEN < 232 ∨ 131296 < s.rd LD_LEN.LEN ∨ s.rd LD_LEN.LEN % 8 ≠ 0 then .next ((s.announced o v).endLoad 3)
    else if ((s.announced o v).boundTo (fldOf LD_CTRL.SLOT v)).isEmpty = false ∧ (fldOf LD_CTRL.REPLACE v != 0) = false then
      .next ((s.announced o v).endLoad 10)
    else .next (((s.announced o v).wr LD_STAT.STATE ldReceiving).wr LD_STAT.RESULT 0) :=
  if_neg (by simp [hidle])

theorem fldOf_lt (f : Fld) (v : Word) : fldOf f v < 2 ^ f.w := Nat.mod_lt _ (Nat.two_pow_pos _)

theorem ldBegin_completes (hcanon : s.canon = true) (o : Origin) (v : Word) (hidle : s.loading = false)
    (hlen : 232 ≤ s.rd LD_LEN.LEN ∧ s.rd LD_LEN.LEN ≤ 131296 ∧ s.rd LD_LEN.LEN % 8 = 0)
    (hfree : (s.boundTo (fldOf LD_CTRL.SLOT v)).isEmpty = true) : Completes (.ldBegin o v) s fun t =>
      t.rd LD_STAT.STATE = ldReceiving ∧ t.rd LD_STAT.SLOT = fldOf LD_CTRL.SLOT v ∧ t.reg LD_PROGRESS = 0 ∧
      (t.loader.owner, t.loader.staged, t.loader.len) = (o, [], s.rd LD_LEN.LEN) := by
  have hkeeps : s.Keeps loadFields 0 Port.unseen (s.announced o v) :=
    .same (.setReg (.wr (.wr (.of_canon hcanon) (by simp [LD_STAT.SLOT, loadFields])) (by simp [LD_STAT.OWNER, loadFields]))
      (by simp [loadFields])) rfl rfl
  have hwritten : (s.wr LD_STAT.SLOT (fldOf LD_CTRL.SLOT v)).Reads LD_STAT.SLOT (fldOf LD_CTRL.SLOT v) :=
    .takenAs (State.Reads.of_canon hcanon) (fldOf_lt LD_CTRL.SLOT v)
  have hslot : (s.announced o v).Reads LD_STAT.SLOT (fldOf LD_CTRL.SLOT v) := .same (hwritten.wr.setReg (by decide)) rfl rfl
  have hprogress : (s.announced o v).Reads (wholeReg LD_PROGRESS) (0 : Word).toNat :=
    have howner : ((s.wr LD_STAT.SLOT (fldOf LD_CTRL.SLOT v)).wr LD_STAT.OWNER (ownerCode o)).Reads (wholeReg LD_PROGRESS) _ :=
      ((State.Reads.of_canon hcanon).wr).wr
    .same howner.stored rfl rfl
  have hstate : ((s.announced o v).wr LD_STAT.STATE ldReceiving).Reads LD_STAT.STATE ldReceiving :=
    .takenAs (State.Reads.start hkeeps.regs_wf hkeeps.ports_wf) (by decide)
  refine completes_of_next (t := ((s.announced o v).wr LD_STAT.STATE ldReceiving).wr LD_STAT.RESULT 0) ?next
    ⟨hstate.wr.rd_eq, hslot.wr.wr.rd_eq, hprogress.wr.wr.reg_eq, rfl⟩
  change execLdBegin o v s = _
  rw [execLdBegin_idle hidle, if_neg (by omega), if_neg (by rw [hkeeps.sameBindings.boundTo_eq, hfree]; simp)]

/-- Staged bytes join those that have arrived (R365). -/
theorem State.stageBytes_spec (hcanon : s.canon = true) {bs : List Byte} (hfit : s.loader.staged.length + bs.length ≤ s.loader.len) :
    (s.stageBytes bs).loader.staged = s.loader.staged ++ bs ∧
    (s.stageBytes bs).reg LD_PROGRESS = BitVec.ofNat 32 (s.loader.staged.length + bs.length) ∧
    (s.stageBytes bs).rd LD_STAT.STATE = if s.loader.len = s.loader.staged.length + bs.length then ldVerifying else s.rd LD_STAT.STATE := by
  have hstaged : ∀ (l : Loader) (v : Word), (({ s with loader := l } : State).setReg LD_PROGRESS v).Reads (wholeReg LD_PROGRESS) v.toNat :=
    fun l _ => .stored (.same (t := { s with loader := l }) (State.Reads.of_canon (g := wholeReg LD_PROGRESS) hcanon) rfl rfl)
  have hstate : ∀ (l : Loader) (v : Word), (({ s with loader := l } : State).setReg LD_PROGRESS v).Reads LD_STAT.STATE (s.rd LD_STAT.STATE) :=
    fun l _ => .setReg (.same (t := { s with loader := l }) (State.Reads.of_canon hcanon) rfl rfl) (by decide)
  rw [← List.length_append] at hfit ⊢
  have hlast : s.loader.len ≤ (s.loader.staged ++ bs).length ↔ s.loader.len = (s.loader.staged ++ bs).length := ⟨fun h => h.antisymm hfit, Eq.le⟩
  unfold State.stageBytes
  dsimp only
  simp only [hlast]
  split_ifs with hend
  · exact ⟨rfl, ((hstaged _ _).wr).reg_eq, (State.Reads.takenAs (hstate _ _) (by decide)).rd_eq⟩
  · exact ⟨rfl, (hstaged _ _).reg_eq, (hstate _ _).rd_eq⟩

theorem State.loading_of_receiving (h : s.rd LD_STAT.STATE = ldReceiving) : s.loading = true := by
  simp [State.loading, h]

theorem ldData_completes (hcanon : s.canon = true) {o : Origin} (v : Word) (hstate : s.rd LD_STAT.STATE = ldReceiving)
    (howner : s.loader.owner = o) (hdma : s.loader.dma = false) (hfit : s.loader.staged.length + 4 ≤ s.loader.len) :
    Completes (.ldData o v) s fun t => t.loader.staged = s.loader.staged ++ bytesOf [v] ∧
      t.reg LD_PROGRESS = BitVec.ofNat 32 (s.loader.staged.length + 4) ∧
      t.rd LD_STAT.STATE = if s.loader.len = s.loader.staged.length + 4 then ldVerifying else ldReceiving := by
  refine completes_of_next (t := s.stageBytes (bytesOf [v])) ?next (hstate ▸ State.stageBytes_spec hcanon hfit)
  change execLdData o v s = _
  rw [execLdData, if_neg (by simp [State.loading_of_receiving hstate, howner, hdma]), if_pos ⟨hstate, hfit⟩]

theorem ldData_foreign (hcanon : s.canon = true) {o : Origin} (v : Word) (hother : s.loader.owner ≠ o) :
    Completes (.ldData o v) s fun t => t.reg LD_CNT_FOREIGN = countUp (s.reg LD_CNT_FOREIGN) ∧ t.loader = s.loader := by
  refine completes_of_next (t := s.inc LD_CNT_FOREIGN) ?next ⟨reg_inc (State.regs_wf_of_canon hcanon) _, rfl⟩
  exact if_pos (.inr (.inl hother))

theorem ldDmaDone_completes (hcanon : s.canon = true) {bytes : List Byte} (hstate : s.rd LD_STAT.STATE = ldReceiving)
    (hdma : s.loader.dma = true) (hempty : s.loader.staged = []) (hall : bytes.length = s.loader.len) :
    Completes (.ldDmaDone bytes) s fun t => t.loader.staged = bytes ∧ t.rd LD_STAT.STATE = ldVerifying := by
  obtain ⟨hstaged, -, hverify⟩ := State.stageBytes_spec (bs := bytes) hcanon (by rw [hempty, hall]; exact (Nat.zero_add _).le)
  refine completes_of_next (t := s.stageBytes bytes) (if_pos ⟨hstate, hdma, hall⟩) ⟨?staged, ?verify⟩
  case staged => rw [hstaged, hempty, List.nil_append]
  case verify => rw [hverify, if_pos (by rw [hempty, hall]; exact (Nat.zero_add _).symm)]

/-! ## The verified image (R366, R367) -/

/-- The verified image waits for its slot. -/
def State.installing (s : State) : State := { s with loader := { s.loader with installing := true } }

theorem State.imageResult_lt (s : State) (bs : List Byte) (len : Nat) : s.imageResult bs len < 16 := by
  unfold State.imageResult
  dsimp only
  split_ifs <;> decide

theorem execImageLoad_passed (hstate : s.rd LD_STAT.STATE = ldVerifying) (hfirst : s.loader.installing = false) (hrun : s.runs .core = true)
    (hfree : (s.boundTo (s.rd LD_STAT.SLOT)).isEmpty = true) (hpass : s.imageResult s.loader.staged s.loader.len = 0) :
    execImageLoad s = .next s.installing.tryInstall := by
  have hnone : s.installing.boundTo (s.rd LD_STAT.SLOT) = [] := List.isEmpty_iff.1 hfree
  simp only [execImageLoad, hstate, hfirst, hrun, hpass, hfree, ne_eq, not_true_eq_false, Bool.false_eq_true, Bool.true_eq_false,
    or_self, false_and, if_false]
  change Host.Outcome.next ((s.installing.boundTo (s.rd LD_STAT.SLOT)).foldl _ s.installing).tryInstall = _
  rw [hnone, List.foldl_nil]

theorem execImageLoad_failed (hstate : s.rd LD_STAT.STATE = ldVerifying) (hfirst : s.loader.installing = false) (hrun : s.runs .core = true)
    (hfail : s.imageResult s.loader.staged s.loader.len ≠ 0) :
    execImageLoad s = .next (s.endLoad (s.imageResult s.loader.staged s.loader.len)) := by
  simp only [execImageLoad, hstate, hfirst, hrun, hfail, ne_eq, not_true_eq_false, not_false_eq_true, Bool.false_eq_true,
    Bool.true_eq_false, or_self, if_false, if_true]

/-- An image of a slot with no engine is installed, where the slot's banks are ON. -/
theorem State.tryInstall_told {u : State} (hcanon : s.canon = true) (hregs : u.regs = s.regs) (hports : u.ports = s.ports)
    (hmem : u.mem = s.mem) (hstaged : u.loader.staged = s.loader.staged) (hfree : (s.boundTo (s.rd LD_STAT.SLOT)).isEmpty = true) {o : Origin}
    (hon : (s.needBanks o (slotBase (s.rd LD_STAT.SLOT)) (slotBase (s.rd LD_STAT.SLOT) + s.loader.staged.length)).1 = true) :
    u.tryInstall.rd LD_STAT.STATE = ldDone ∧ u.tryInstall.rd LD_STAT.RESULT = 0 ∧
    (u.tryInstall.slot (s.rd LD_STAT.SLOT)).len = s.loader.staged.length ∧
    memBytes u.tryInstall.mem.scratch (slotBase (s.rd LD_STAT.SLOT)) s.loader.staged.length = s.loader.staged ∧
    u.tryInstall.loader.installing = false := by
  have hsame : s.SameBindings u := fun e _ => by rw [State.reg, hregs, State.reg]
  have hslot : u.rd LD_STAT.SLOT = s.rd LD_STAT.SLOT := by rw [State.rd, State.reg, hregs, State.rd, State.reg]
  have hdone : u.Installs u.tryInstall := by
    refine State.tryInstall_spec (hregs ▸ State.regs_wf_of_canon hcanon) (hports ▸ State.ports_wf_of_canon hcanon)
      (hmem ▸ State.slots_wf_of_canon hcanon) ?free fun o' => ?banks
    case free => rw [hsame.boundTo_eq, hslot, hfree]
    case banks =>
      rw [hslot, hstaged]
      exact State.needBanks_of_on hon hregs o'
  have hlen := hdone.slot_eq
  have hbytes := hdone.bytes_eq
  rw [hslot, hstaged] at hlen hbytes
  exact ⟨hdone.ended.state_eq, hdone.ended.result_eq, hlen, hbytes, by rw [hdone.ended.loader_eq]⟩

theorem imageLoad_completes (hcanon : s.canon = true) (hstate : s.rd LD_STAT.STATE = ldVerifying) (hfirst : s.loader.installing = false)
    (hrun : s.runs .core = true) (hfree : (s.boundTo (s.rd LD_STAT.SLOT)).isEmpty = true) {o : Origin}
    (hon : (s.needBanks o (slotBase (s.rd LD_STAT.SLOT)) (slotBase (s.rd LD_STAT.SLOT) + s.loader.staged.length)).1 = true) :
    Completes .imageLoad s fun t => t.rd LD_STAT.RESULT = s.imageResult s.loader.staged s.loader.len ∧
      (s.imageResult s.loader.staged s.loader.len = 0 → (t.slot (s.rd LD_STAT.SLOT)).len = s.loader.staged.length) ∧
      (s.imageResult s.loader.staged s.loader.len = 0 →
        memBytes t.mem.scratch (slotBase (s.rd LD_STAT.SLOT)) s.loader.staged.length = s.loader.staged) ∧
      t.rd LD_STAT.STATE = if s.imageResult s.loader.staged s.loader.len = 0 then ldDone else ldFailed := by
  by_cases hpass : s.imageResult s.loader.staged s.loader.len = 0
  · obtain ⟨hdone, hresult, hslot, hbytes, -⟩ := State.tryInstall_told (u := s.installing) hcanon rfl rfl rfl rfl hfree hon
    exact completes_of_next (execImageLoad_passed hstate hfirst hrun hfree hpass)
      ⟨hresult.trans hpass.symm, fun _ => hslot, fun _ => hbytes, by rw [if_pos hpass, hdone]⟩
  · have hended : s.Ended _ (s.endLoad (s.imageResult s.loader.staged s.loader.len)) :=
      State.endLoad_spec (State.regs_wf_of_canon hcanon) (State.ports_wf_of_canon hcanon) (s.imageResult_lt _ _)
    exact completes_of_next (execImageLoad_failed hstate hfirst hrun hpass)
      ⟨hended.result_eq, fun h => absurd h hpass, fun h => absurd h hpass, hended.state_eq⟩

theorem imageInstall_completes (hcanon : s.canon = true) (hstate : s.rd LD_STAT.STATE = ldVerifying) (hwaits : s.loader.installing = true)
    (hrun : s.runs .core = true) (hfree : (s.boundTo (s.rd LD_STAT.SLOT)).isEmpty = true) {o : Origin}
    (hon : (s.needBanks o (slotBase (s.rd LD_STAT.SLOT)) (slotBase (s.rd LD_STAT.SLOT) + s.loader.staged.length)).1 = true) :
    Completes .imageInstall s fun t => t.rd LD_STAT.STATE = ldDone ∧ (t.slot (s.rd LD_STAT.SLOT)).len = s.loader.staged.length ∧
      memBytes t.mem.scratch (slotBase (s.rd LD_STAT.SLOT)) s.loader.staged.length = s.loader.staged ∧ t.loader.installing = false := by
  obtain ⟨hdone, -, hslot, hbytes, hover⟩ := State.tryInstall_told (u := s) hcanon rfl rfl rfl rfl hfree hon
  exact completes_of_next (if_pos ⟨hstate, hwaits, hrun⟩) ⟨hdone, hslot, hbytes, hover⟩

/-! ## CANCEL, CLEAR_SLOT and LD_SLOTSEL (R364, R367, R399) -/

theorem cancel_completes (hcanon : s.canon = true) (o : Origin) (hload : s.loading = true)
    (hfree : (s.boundTo (s.rd LD_STAT.SLOT)).isEmpty = true) :
    Completes (.cancel o) s fun t => t.rd LD_STAT.STATE = ldFailed ∧ t.rd LD_STAT.RESULT = 11 ∧ t.loader.staged = [] := by
  have hended : s.Ended 11 (s.endLoad 11) :=
    State.endLoad_spec (State.regs_wf_of_canon hcanon) (State.ports_wf_of_canon hcanon) (by decide)
  have hstill : (s.endLoad 11).startAgain (s.rd LD_STAT.SLOT) = s.endLoad 11 :=
    State.startAgain_of_unbound (by rw [hended.boundTo_eq, hfree])
  refine completes_of_next (t := s.endLoad 11) ?next ⟨hended.state_eq, hended.result_eq, by rw [hended.loader_eq]⟩
  exact (if_pos hload).trans (congrArg Host.Outcome.next hstill)

theorem clearSlot_completes (hcanon : s.canon = true) (o : Origin) (slot : Fin 16) (hfree : (s.boundTo slot).isEmpty = true) :
    Completes (.clearSlot o slot) s fun t => t.slot slot = {} ∧ t.reg LD_STAT = s.reg LD_STAT := by
  have htold : (s.setSlot slot {}).Signals ((s.setSlot slot {}).event Ev.IMAGE_CLEAR [slot.val] o) := .event .start
  have hkeeps : s.Keeps logFields 0 Port.unseen ((s.setSlot slot {}).event Ev.IMAGE_CLEAR [slot.val] o) :=
    .event (fun _ hf => hf) (.same (.of_canon hcanon) rfl rfl)
  refine completes_of_next (if_pos hfree) ⟨?slot, hkeeps.reg_eq (logFields_apart_load _ (by simp))⟩
  rw [State.slot, htold.mem_eq]
  exact (tabGet_tabPut _ _ _ (State.slots_wf_of_canon hcanon)).trans (if_pos rfl)

/-- Bits above the low half of LD_SI_INFO count the engines bound to the slot (R399). -/
theorem ofNat_shift_half {low n : Nat} (hlow : low < 0x10000) (hn : n < 0x10000) :
    BitVec.ofNat 32 (low + 0x10000 * n) >>> 16 = BitVec.ofNat 32 n := by
  refine BitVec.eq_of_toNat_eq ?_
  rw [BitVec.toNat_ushiftRight, BitVec.toNat_ofNat, BitVec.toNat_ofNat, Nat.shiftRight_eq_div_pow]
  omega

theorem State.length_boundTo_le (s : State) (k : Nat) : (s.boundTo k).length ≤ 48 :=
  (List.length_filter_le _ _).trans_eq List.length_range

theorem ldSlotsel_completes (hcanon : s.canon = true) (slot : Fin 16) : Completes (.ldSlotsel slot) s fun t =>
    t.reg LD_SLOTSEL = BitVec.ofNat 32 slot.val ∧
    t.reg LD_SI_PROTO = (if (s.slot slot).len = 0 then 0 else BitVec.ofNat 32 (s.hdr slot 0xC 4)) ∧
    t.reg LD_SI_INFO >>> 16 = BitVec.ofNat 32 (s.boundTo slot).length := by
  have hregs := State.regs_wf_of_canon hcanon
  have hcount := s.length_boundTo_le slot
  refine completes_of_next rfl ⟨?sel, ?proto, ?info⟩
  case sel =>
    rw [reg_setReg_ne (by decide), reg_setReg_ne (by decide), reg_setReg_ne (by decide), reg_setReg_ne (by decide)]
    exact reg_setReg_same hregs _ _
  case proto =>
    rw [reg_setReg_ne (by decide), reg_setReg_ne (by decide), reg_setReg_ne (by decide), reg_setReg_same (setReg_wf _ _ hregs)]
    split_ifs <;> rfl
  case info =>
    rw [reg_setReg_same (setReg_wf _ _ (setReg_wf _ _ (setReg_wf _ _ (setReg_wf _ _ hregs))))]
    refine ofNat_shift_half ?_ (by omega)
    have hocc := Bool.toNat_lt (decide ((s.slot slot).len ≠ 0))
    have hlost := Bool.toNat_lt (s.slot slot).lost
    omega

end

/-- Settles O33: what the loader writes leaves the bindings alone, so a slot without engines stays so; a range written in one pass reads
back; and the event of a load's end leaves the loader, the memory and the load's status as they are. BEGIN during a load is refused whoever
asks (log entry 39). -/
theorem imageLoadsComplete : Obligations.ImageLoadsComplete := by
  unfold Obligations.ImageLoadsComplete
  refine ⟨?begin, ?busy, ?data, ?foreign, ?dma, ?load, ?install, ?cancel, ?clear, ?select⟩
  case begin => exact fun s o v hcanon ⟨hidle, hlen⟩ hfree => ldBegin_completes hcanon o v hidle hlen hfree
  case busy => exact fun s o v _ hload => completes_of_next (if_pos hload) rfl
  case data => exact fun s o v hcanon ⟨hstate, howner, hdma⟩ hfit => ldData_completes hcanon v hstate howner hdma hfit
  case foreign => exact fun s o v hcanon ⟨_, hother⟩ => ldData_foreign hcanon v hother
  case dma => exact fun s bytes hcanon ⟨hstate, hdma, hempty, hall⟩ => ldDmaDone_completes hcanon hstate hdma hempty hall
  case load => exact fun s hcanon ⟨hstate, hfirst, hrun⟩ hfree hon => imageLoad_completes hcanon hstate hfirst hrun hfree hon
  case install => exact fun s hcanon ⟨hstate, hwaits, hrun⟩ hfree hon => imageInstall_completes hcanon hstate hwaits hrun hfree hon
  case cancel => exact fun s o hcanon ⟨hload, hfree⟩ => cancel_completes hcanon o hload hfree
  case clear => exact fun s o slot hcanon hfree => clearSlot_completes hcanon o slot hfree
  case select => exact fun s slot hcanon => ldSlotsel_completes hcanon slot

end Sys2Proof.Machine
end

section
/-!
SUPPORT. What stops an engine's work leaves the engines, the network ports and the tick as they are, and outputs are only added (R254, R378,
R385, R387, R449).
-/
namespace Sys2Proof.Machine

/-! ## The engines' and network ports' own state -/

/-- The state of the engines and of the network ports, and the tick. -/
def State.served (s : State) : Tab Engine × Tab NetPort × Nat := (s.engines, s.nets, s.time.tick)

/-- From s to t the engines, the network ports and the tick stay as they are, and outputs are only added. As a relation to a fixed s, so that
a proof follows the updates one by one. -/
structure State.Onward (s t : State) : Prop where
  served_eq : t.served = s.served
  out_prefix : s.out <+: t.out

namespace State.Onward
section
variable {s t u : State}

theorem start : s.Onward s := ⟨rfl, List.prefix_rfl⟩

theorem engines_eq (h : s.Onward t) : t.engines = s.engines := (congrArg Prod.fst h.served_eq :)
theorem nets_eq (h : s.Onward t) : t.nets = s.nets := (congrArg (fun x => x.2.1) h.served_eq :)
theorem tick_eq (h : s.Onward t) : t.time.tick = s.time.tick := (congrArg (fun x => x.2.2) h.served_eq :)

theorem eng_eq (h : s.Onward t) (e : Nat) : t.eng e = s.eng e := by rw [State.eng, h.engines_eq, State.eng]
theorem net_eq (h : s.Onward t) (p : Nat) : t.net p = s.net p := by rw [State.net, h.nets_eq, State.net]

/-- An update of other parts of the state. -/
theorem same (h : s.Onward t) (hserved : u.served = t.served) (hout : u.out = t.out) : s.Onward u :=
  ⟨hserved.trans h.served_eq, hout ▸ h.out_prefix⟩

theorem ite {c : Prop} [Decidable c] (ht : s.Onward t) (hu : s.Onward u) : s.Onward (if c then t else u) := by
  split_ifs
  · exact ht
  · exact hu

theorem foldl {α : Type} {f : State → α → State} (l : List α) (hf : ∀ t a, s.Onward t → s.Onward (f t a)) (h : s.Onward t) :
    s.Onward (l.foldl f t) := List.foldlRecOn l f h fun t ht a _ => hf t a ht

end

/-! ## Registers and records -/

section
variable {s t : State} {r : List Word} {rs : List (List Word)} {a c code k x : Nat} {late : Bool} {o : Origin} {pay : List Word}
  {nums : List Nat} {v : Word} {fld : Fld}

theorem setReg (h : s.Onward t) : s.Onward (t.setReg a v) := h.same rfl rfl
theorem on (h : s.Onward t) : s.Onward (t.on fld) := h.same rfl rfl
theorem off (h : s.Onward t) : s.Onward (t.off fld) := h.same rfl rfl
theorem inc (h : s.Onward t) : s.Onward (t.inc a) := h.same rfl rfl

theorem logRecord (h : s.Onward t) : s.Onward (t.logRecord r) := by
  have hroom : s.Onward (if t.logCap * 8 ≤ t.log.q.held then t.logDiscard else t) := .ite (h.same rfl rfl) h
  unfold State.logRecord
  generalize (if t.logCap * 8 ≤ t.log.q.held then t.logDiscard else t) = u at hroom ⊢
  exact .inc (.ite (.on (hroom.same rfl rfl)) (hroom.same rfl rfl))

theorem forwardCopy (h : s.Onward t) : s.Onward (t.forwardCopy c r) := .ite (.ite (h.same rfl rfl) (h.same rfl rfl)) h

theorem logSet (h : s.Onward t) : s.Onward (t.logSet c rs) := .foldl rs (fun _ _ ht => ht.logRecord.forwardCopy) h

theorem suppress (h : s.Onward t) : s.Onward (t.suppress c code k) := h.same rfl rfl

theorem pushSet (h : s.Onward t) : s.Onward (t.pushSet c code rs) := .ite h.logSet (.ite (.logSet (h.same rfl rfl)) h.suppress)

theorem eventAt (h : s.Onward t) : s.Onward (t.eventAt k late code o pay) := .ite h.pushSet (.ite h.suppress (h.same rfl rfl))

theorem event (h : s.Onward t) : s.Onward (t.event code nums o) := h.eventAt

end

/-! ## Words that enter a queue (R203, R217) -/

section
variable {s t : State} {k m p f : Nat} {q was now : Queue} {x : State × Queue} {bs : List Block} {ws : List QWord} {o : Origin}

theorem giveBlocks (h : s.Onward t) : s.Onward (t.giveBlocks q bs).1 := by
  unfold State.giveBlocks
  exact List.foldlRecOn (motive := fun x : State × Queue => s.Onward x.1) bs _ h fun _ hx _ _ => hx.same rfl rfl

theorem updateFlows (h : s.Onward t) : s.Onward (t.updateFlows k) := .foldl _ (fun _ _ ht => .ite (ht.same rfl rfl) ht) h

theorem takeBlock (hx : t.takeBlock k q = some x) (h : s.Onward t) : s.Onward x.1 := by
  unfold State.takeBlock at hx
  dsimp only at hx
  split at hx
  · contradiction
  · cases hx
    exact .ite (.on (h.same rfl rfl)) (h.same rfl rfl)

theorem inject (h : s.Onward t) : s.Onward (t.inject q m p).1 := by
  unfold State.inject
  split
  · exact h.same rfl rfl
  · exact h

theorem moveBurst (hx : t.moveBurst k q = some x) (h : s.Onward t) : s.Onward x.1 := by
  unfold State.moveBurst at hx
  dsimp only at hx
  split_ifs at hx
  · split at hx
    · split_ifs at hx
      cases hx
      exact h.inject
    · contradiction
  · split at hx
    case h_1 htaken =>
      split at hx
      · split_ifs at hx
        cases hx
        exact .inject (h.takeBlock htaken)
      · contradiction
    case h_2 => contradiction

theorem roomFor (hx : t.roomFor k q = some x) (h : s.Onward t) : s.Onward x.1 := by
  unfold State.roomFor at hx
  dsimp only at hx
  generalize (if t.runs .ddr = true then 0 else q.settle.landing) = away at hx
  split_ifs at hx
  · cases hx
    exact h
  · exact h.moveBurst hx

theorem refreshFull (h : s.Onward t) : s.Onward t.refreshFull := .foldl _ (fun _ _ ht => .ite ht (.updateFlows (ht.same rfl rfl))) h

theorem queueFault (h : s.Onward t) : s.Onward (t.queueFault k) := by
  unfold State.queueFault
  exact .event (.on (.updateFlows (h.same rfl rfl)))

theorem used (h : s.Onward t) : s.Onward (t.used k) := .ite h.queueFault h

theorem putQueue (h : s.Onward t) : s.Onward (t.putQueue k q bs) := by
  have hgiven : s.Onward (t.giveBlocks q bs).1 := h.giveBlocks
  unfold State.putQueue
  exact .refreshFull (.used (.updateFlows (hgiven.same rfl rfl)))

theorem storeAll (hx : t.storeAll k q ws = some x) (h : s.Onward t) : s.Onward x.1 := by
  induction ws generalizing t q with
  | nil =>
    cases hx
    exact h
  | cons w ws ih =>
    unfold State.storeAll at hx
    split_ifs at hx
    split at hx
    case h_1 => contradiction
    case h_2 hroom => exact ih hx (.inject (h.roomFor hroom))

theorem refuse (h : s.Onward t) : s.Onward (t.refuse k q m) := .ite h.putQueue (.event (.on h.putQueue))

theorem reportLoss (h : s.Onward t) : s.Onward (t.reportLoss k was now) := .ite h.on.event h

theorem overwrite (hx : t.overwrite k q ws f = some x) (h : s.Onward t) : s.Onward x.1 := by
  induction f generalizing t q with
  | zero => exact h.storeAll hx
  | succ f ih =>
    unfold State.overwrite at hx
    split at hx
    case h_1 hstored =>
      cases hx
      exact h.storeAll hstored
    case h_2 =>
      split_ifs at hx
      exact ih hx h.giveBlocks

theorem overwritePacket (hx : t.overwritePacket k q ws f = some x) (h : s.Onward t) : s.Onward x.1 := by
  induction f generalizing t q ws with
  | zero => exact h.storeAll hx
  | succ f ih =>
    unfold State.overwritePacket at hx
    split_ifs at hx
    · cases hx
      exact h
    · exact ih hx h
    · split at hx
      case h_1 hstored =>
        cases hx
        exact h.storeAll hstored
      case h_2 => split at hx <;> exact ih hx h.giveBlocks

theorem pushWhole (h : s.Onward t) : s.Onward (t.pushWhole k ws).2 := by
  unfold State.pushWhole
  dsimp only
  split
  · split
    case h_1 s' q' hstored =>
      have hstate : s.Onward s' := h.storeAll hstored
      dsimp only
      exact hstate.putQueue
    case h_2 => exact h.refuse
  · split
    case h_1 s' q' hstored =>
      have hstate : s.Onward s' := h.overwrite hstored
      dsimp only
      exact hstate.putQueue.reportLoss
    case h_2 => exact h.refuse
  · split
    case h_1 s' q' hstored =>
      have hstate : s.Onward s' := h.overwritePacket hstored
      dsimp only
      exact hstate.putQueue.reportLoss
    case h_2 => exact h.refuse

theorem push (h : s.Onward t) : s.Onward (t.push k ws o).2 := by
  unfold State.push
  dsimp only
  split_ifs
  · exact h
  · exact .event (.on h.inc)
  · exact h
  · exact List.foldlRecOn (motive := fun x : PushRes × State => s.Onward x.2) ws _ h.used fun _ hx _ _ => hx.pushWhole
  · exact h.used.pushWhole

end

/-! ## The time base's selection (R275, R276) -/

section
variable {s t : State} {old c : Nat} {a : Int}

theorem sourceTold (h : s.Onward t) : s.Onward (t.sourceTold old c) := .event (h.same rfl rfl)

theorem holdoverTold (h : s.Onward t) : s.Onward (t.holdoverTold a) := .event (h.same rfl rfl)

theorem enterHoldover (h : s.Onward t) : s.Onward t.enterHoldover := by
  rw [State.enterHoldover_eq]
  exact .ite (.event (h.holdoverTold.same rfl rfl)) h.holdoverTold

theorem selectSource (h : s.Onward t) : s.Onward (t.selectSource c) := by
  by_cases hc : c = 0
  · rw [hc, State.selectSource_zero]
    exact .ite h.sourceTold h.sourceTold.enterHoldover
  · rw [State.selectSource_of_ne _ hc]
    exact .off (.sourceTold (h.same rfl rfl))

theorem reselect (h : s.Onward t) : s.Onward t.reselect := by
  obtain ⟨u, hu, hend⟩ := t.reselect_cases
  have hselected : s.Onward u := by
    obtain rfl | ⟨c, rfl⟩ := hu
    · exact h
    · exact h.selectSource
  obtain hoff | henter | hsame := hend
  · exact hoff ▸ hselected.off
  · exact henter ▸ hselected.enterHoldover
  · exact hsame ▸ hselected

end

/-! ## Commands and aborts that end (R254, R451, R459) -/

section
variable {s t : State} {l fuel k src st count detail stamp seq : Nat} {c : Cell} {x : Completion} {a : AbortSlot} {d : Cmd} {bytes : List Byte}

theorem pump (h : s.Onward t) : s.Onward (t.pump l fuel) := by
  induction fuel generalizing t with
  | zero => exact h
  | succ fuel ih =>
    unfold State.pump
    split
    · exact h
    · dsimp only
      split
      · exact h
      · exact ih ⟨h.served_eq, h.out_prefix.trans (List.prefix_append _ _)⟩

theorem trySend (h : s.Onward t) : s.Onward (t.trySend c) := by
  unfold State.trySend State.sendCell
  cases t.routeTo c.dst.val with
  | none => exact h
  | some l => exact .pump (h.same rfl rfl)

theorem hold (h : s.Onward t) : s.Onward (t.hold x) := .ite (h.same rfl rfl) (.ite (.event (h.same rfl rfl)) (h.same rfl rfl))

theorem endAbort (h : s.Onward t) : s.Onward (t.endAbort a st) := by
  have htold : ∀ y : HostIf, s.Onward (if a.away then ({ t with host := y } : State) else
      ({ t with host := y } : State).event Ev.ABORT [a.kind, a.object, a.stopped, a.extra] a.org) :=
    fun _ => .ite (h.same rfl rfl) (.event (h.same rfl rfl))
  unfold State.endAbort
  dsimp only
  split
  · exact .trySend (htold _)
  · exact .same (.hold (htold _)) rfl rfl

theorem settleAborts (h : s.Onward t) : s.Onward t.settleAborts := .foldl _ (fun _ _ ht => ht.endAbort) h

theorem tagEnded (h : s.Onward t) : s.Onward (t.tagEnded k) := .foldl _ (fun _ _ ht => ht.endAbort) (h.same rfl rfl)

theorem finishAt (h : s.Onward t) : s.Onward (t.finishAt d src st count detail stamp seq bytes) := by
  unfold State.finishAt
  dsimp only
  split
  · exact .trySend (h.same rfl rfl)
  · exact .tagEnded (.hold (h.same rfl rfl))

theorem endCalls {e : Nat} (h : s.Onward t) : s.Onward (t.endCalls e st) := .foldl _ (fun _ _ ht => ht.finishAt) h

/-- The time-base declaration of an engine lapses (R385). -/
theorem lapse {e : Nat} (h : s.Onward t) : s.Onward (t.lapse e) := .ite (.ite (.reselect (h.same rfl rfl)) h.off) h

end
end State.Onward

end Sys2Proof.Machine
end

section
/-!
SUPPORT. The 23 µs row of R387: what is left when an engine's work has stopped (R378, R385, R387).
-/
namespace Sys2Proof.Machine

/-! ## Engines and network ports in their tables -/

theorem State.engines_wf_of_canon {s : State} (h : s.canon = true) : tabWf Engine.reset s.engines = true := by
  simp only [State.canon, Bool.and_eq_true] at h
  tauto

theorem State.nets_wf_of_canon {s : State} (h : s.canon = true) : tabWf NetPort.reset s.nets = true := by
  simp only [State.canon, Bool.and_eq_true] at h
  tauto

theorem setEng_wf {s : State} (h : tabWf Engine.reset s.engines = true) (e : Nat) (x : Engine) :
    tabWf Engine.reset (s.setEng e x).engines = true := tabPut_wf _ _ h

theorem eng_setEng_same {s : State} (h : tabWf Engine.reset s.engines = true) (e : Nat) (x : Engine) : (s.setEng e x).eng e = x :=
  (tabGet_tabPut _ _ _ h).trans (if_pos rfl)

theorem net_setNet_same {s : State} (h : tabWf NetPort.reset s.nets = true) (p : Nat) (x : NetPort) : (s.setNet p x).net p = x :=
  (tabGet_tabPut _ _ _ h).trans (if_pos rfl)

/-! ## Registers of the engines through the end of commands -/

namespace State.Elsewhere
section
variable {s t : State} {e k src st count detail stamp seq : Nat} {c : Cmd} {bytes : List Byte}

theorem tagEnded (h : s.Elsewhere t) : s.Elsewhere (t.tagEnded k) := .foldl _ (fun _ _ ht => ht.endAbort) (h.same rfl rfl rfl)

theorem finishAt (h : s.Elsewhere t) : s.Elsewhere (t.finishAt c src st count detail stamp seq bytes) := by
  unfold State.finishAt
  dsimp only
  split
  · exact .trySend (h.same rfl rfl rfl)
  · exact .tagEnded (.hold (h.same rfl rfl rfl))

theorem endCalls (h : s.Elsewhere t) : s.Elsewhere (t.endCalls e st) := .foldl _ (fun _ _ ht => ht.finishAt) h

end
end State.Elsewhere

/-! ## The row of R387 -/

section
variable {s t : State} {e st : Nat}

/-- The state in which engine e has no open packet. -/
def State.packetsClosed (s : State) (e : Nat) : State := s.setEng e { s.eng e with packets := [] }

theorem State.stopWords_onward : (s.packetsClosed e).Onward (s.stopWords e) := by
  refine .foldl _ (fun t p ht => ?_) .start
  have hpush := ht.push (k := p.2) (ws := [{ data := 0, fin := true, err := true }]) (o := .engine (Fin.ofNat 48 e))
  split
  · rename_i heq
    rw [heq] at hpush
    exact hpush.inc
  · rename_i heq
    rw [heq] at hpush
    exact hpush

/-- What the engine's stop words and its time-base declaration write. -/
def stopFields (e : Nat) : List Fld := queueFields ++ submitFields ++ [wholeReg (CE_CNT_STOPREF e), wholeReg (CE_STAT e)]

theorem stopFields_scope (e : Nat) : QueueScope (stopFields e) Port.unseen where
  fields _ hf := by simp [stopFields, hf]
  view _ _ _ := rfl

theorem stopFields_apart : ∀ e : Fin 48, ∀ a ∈ [CE_CTRL e, CE_CNT_FAULT e], (stopFields e).all (fun f => f.apart (wholeReg a)) = true := by
  decide +kernel

theorem State.stopWords_keeps (h : s.Keeps (stopFields e) 0 Port.unseen s) : s.Keeps (stopFields e) 0 Port.unseen (s.stopWords e) := by
  refine .foldl _ (fun t p _ ht => ?_) (h.same rfl rfl)
  have hpush := ht.push (stopFields_scope e) (k := p.2) (ws := [{ data := 0, fin := true, err := true }]) (o := .engine (Fin.ofNat 48 e))
  split
  · rename_i heq
    rw [heq] at hpush
    exact hpush.inc (by simp [stopFields])
  · rename_i heq
    rw [heq] at hpush
    exact hpush

theorem State.lapse_keeps (h : s.Keeps (stopFields e) 0 Port.unseen t) : s.Keeps (stopFields e) 0 Port.unseen (t.lapse e) := by
  have hoff : s.Keeps (stopFields e) 0 Port.unseen (t.off (CE_STAT.TB_VALID e)) := h.off (by simp [stopFields, CE_STAT.TB_VALID])
  have hlapsed : (t.off (CE_STAT.TB_VALID e)).Keeps submitFields 0 Port.unseen ((t.off (CE_STAT.TB_VALID e)).setValid 2 false).reselect :=
    .revalued (.start hoff.regs_wf hoff.ports_wf)
  exact .ite (.ite (hoff.andThen (fun _ hf => by simp [stopFields, hf]) hlapsed rfl) hoff) h

/-- The granules of engine e are free after its stop words. -/
def State.granulesFreed (s : State) (e : Nat) : State := ((s.stopWords e).freeGranules e).2

/-- The end of an engine's work: its packets are closed, its granules are free, the other engines and the tick stay, outputs are only added,
and its control register and its count of faults keep their values. -/
structure State.StopsWork (s : State) (e : Nat) (t : State) : Prop where
  regs_wf : tabWf regReset t.regs = true
  ports_wf : tabWf Port.reset t.ports = true
  reg_eq : ∀ a ∈ [CE_CTRL e, CE_CNT_FAULT e], t.reg a = s.reg a
  engines_eq : t.engines = (s.packetsClosed e).engines
  rx_eq : tabWf NetPort.reset s.nets = true → (t.net (e / 4)).rx = (s.net (e / 4)).rx.filter (fun f => f.engine != e)
  tick_eq : t.time.tick = s.time.tick
  out_prefix : s.out <+: t.out

theorem State.stopWork_onward : (s.granulesFreed e).Onward (s.stopWork e st) :=
  .same (.endCalls (.lapse .start)) rfl rfl

theorem State.stopWork_spec {e : Fin 48} (hregs : tabWf regReset s.regs = true) (hports : tabWf Port.reset s.ports = true) :
    s.StopsWork e (s.stopWork e st) := by
  have hwords : (s.packetsClosed e).Onward (s.stopWords e) := State.stopWords_onward
  have hrest : (s.granulesFreed e).Onward (s.stopWork e st) := State.stopWork_onward
  have hfreed : s.Keeps (stopFields e) 0 Port.unseen (s.granulesFreed e) := .same (State.stopWords_keeps (.start hregs hports)) rfl rfl
  have hlapsed : s.Keeps (stopFields e) 0 Port.unseen ((s.granulesFreed e).lapse e) := State.lapse_keeps hfreed
  have hended : ((s.granulesFreed e).lapse e).Elsewhere (s.stopWork e st) :=
    .same (.endCalls (.start hlapsed.regs_wf hlapsed.ports_wf)) rfl rfl rfl
  refine ⟨hended.regs_wf, hended.ports_wf, fun a ha => ?reg, hrest.engines_eq.trans hwords.engines_eq, fun hnets => ?rx,
    hrest.tick_eq.trans hwords.tick_eq, hwords.out_prefix.trans hrest.out_prefix⟩
  case reg =>
    have hkept : ((s.granulesFreed e).lapse e).reg a = s.reg a := hlapsed.reg_eq (stopFields_apart e a ha)
    refine (hended.reg_eq a ?_ ?_).trans hkept
    all_goals
      simp only [List.mem_cons, List.not_mem_nil, or_false, CE_CTRL, CE_CNT_FAULT] at ha
      omega
  case rx =>
    have hwf : tabWf NetPort.reset (s.stopWords e).nets = true := hwords.nets_eq ▸ hnets
    have hnet : (s.stopWords e).net (e / 4) = s.net (e / 4) := hwords.net_eq _
    rw [hrest.net_eq, ← hnet]
    exact congrArg NetPort.rx (net_setNet_same hwf _ _)

theorem State.StopsWork.engines_wf (h : s.StopsWork e t) (hengines : tabWf Engine.reset s.engines = true) : tabWf Engine.reset t.engines = true :=
  h.engines_eq ▸ setEng_wf hengines _ _

theorem State.StopsWork.eng_eq (h : s.StopsWork e t) (hengines : tabWf Engine.reset s.engines = true) :
    t.eng e = { s.eng e with packets := [] } := by
  rw [State.eng, h.engines_eq]
  exact eng_setEng_same hengines _ _

end

end Sys2Proof.Machine
end

section
/-!
SUPPORT. The statement of 10_engines.md on the service contract (R373 to R377, R379, R380, R386, R387).
-/
namespace Sys2Proof.Machine

section
variable {s : State} {e : Fin 48}

/-! ## The engine acts (R371, R378) -/

theorem State.runs_of_canAct (h : s.canAct e = true) : s.runs .core = true := by
  simp only [State.canAct, State.partRuns, Bool.and_eq_true] at h
  exact h.1.1

/-! ## KICK and ABORT_DONE (R375, R387) -/

theorem kick_completes (hcanon : s.canon = true) (hact : s.canAct e = true) (hrun : s.ceState e = ceRunning) :
    Completes (.kick e) s fun t => (t.eng e).wdog = some s.time.tick ∧ t.out = s.out ++ [.op e .ok []] := by
  refine completes_of_next (t := (s.setEng e { s.eng e with wdog := some s.time.tick }).opDone e .ok) ?_ ⟨?_, rfl⟩
  · exact (if_neg (ne_false_of_eq_true hact)).trans (if_pos hrun)
  · exact congrArg Engine.wdog (eng_setEng_same (State.engines_wf_of_canon hcanon) _ _)

theorem abortDone_completes (hcanon : s.canon = true) (hact : s.canAct e = true) (habort : s.ceState e = ceAborting) :
    Completes (.abortDone e) s fun t => (t.eng e).phase = .stopped ∧ t.out.take (s.out.length + 1) = s.out ++ [.op e .ok []] := by
  have hstop : (s.opDone e .ok).StopsWork e ((s.opDone e .ok).stopWork e stAborted) :=
    State.stopWork_spec (State.regs_wf_of_canon hcanon) (State.ports_wf_of_canon hcanon)
  refine completes_of_next ((if_neg (ne_false_of_eq_true hact)).trans (if_pos habort)) ⟨?phase, ?out⟩
  case phase => exact congrArg Engine.phase (eng_setEng_same (hstop.engines_wf (State.engines_wf_of_canon hcanon)) _ _)
  case out =>
    have hlen : (s.opDone e .ok).out.length = s.out.length + 1 := List.length_append
    exact hlen ▸ (List.prefix_iff_eq_take.1 hstop.out_prefix).symm

/-! ## The mailboxes (R376) -/

/-- The words ws stand in the outbound mailbox. -/
def State.wordsPosted (s : State) (e : Nat) (ws : List Word) (n : Nat) : State :=
  (List.range n).foldl (fun s i => s.setReg (CE_MBO e i) (ws.getD i 0)) s

theorem State.wordsPosted_succ (s : State) (e : Nat) (ws : List Word) (n : Nat) :
    s.wordsPosted e ws (n + 1) = (s.wordsPosted e ws n).setReg (CE_MBO e n) (ws.getD n 0) := by
  simp only [State.wordsPosted, List.range_succ, List.foldl_append, List.foldl_cons, List.foldl_nil]

theorem State.wordsPosted_wf (hregs : tabWf regReset s.regs = true) (e : Nat) (ws : List Word) (n : Nat) :
    tabWf regReset (s.wordsPosted e ws n).regs = true := by
  induction n with
  | zero => exact hregs
  | succ n ih => exact s.wordsPosted_succ e ws n ▸ setReg_wf _ _ ih

theorem State.reg_wordsPosted (hregs : tabWf regReset s.regs = true) (e : Nat) (ws : List Word) {n i : Nat} (hi : i < n) :
    (s.wordsPosted e ws n).reg (CE_MBO e i) = ws.getD i 0 := by
  induction n with
  | zero => exact absurd hi (Nat.not_lt_zero i)
  | succ n ih =>
    rw [State.wordsPosted_succ]
    rcases Nat.lt_succ_iff_lt_or_eq.1 hi with hlt | rfl
    · exact (reg_setReg_ne (by simp only [CE_MBO]; omega) _ _).trans (ih hlt)
    · exact reg_setReg_same (State.wordsPosted_wf hregs e ws i) _ _

/-- The outbound mailbox is full with n words of ws. -/
def State.mailFull (s : State) (e : Nat) (ws : List Word) : State :=
  ((s.wordsPosted e ws ws.length).setReg (CE_MBO_STAT e) (BitVec.ofNat 32 ws.length)).on (CE_STAT.OUT_FULL e)

theorem execMbxPost_posts {ws : List Word} (hact : s.canAct e = true) (hlow : 1 ≤ ws.length) (hhigh : ws.length ≤ 16)
    (hcall : (ws.headD 0).getLsbD 31 = false) (hempty : s.bit (CE_STAT.OUT_FULL e) = false) :
    execMbxPost e ws s = .next (((s.mailFull e ws).on (CE_EVT.MBX_OUT e)).opDone e .ok) := by
  have hwords : ¬ (ws.isEmpty = true ∨ 16 < ws.length) := by
    rw [List.isEmpty_iff_length_eq_zero]
    omega
  rw [execMbxPost, if_neg (ne_false_of_eq_true hact), if_neg hwords, if_neg (ne_true_of_eq_false hcall), if_neg (ne_true_of_eq_false hempty)]
  rfl

theorem mbxPost_completes (hcanon : s.canon = true) {ws : List Word} (hact : s.canAct e = true) (hlow : 1 ≤ ws.length)
    (hhigh : ws.length ≤ 16) (hcall : (ws.headD 0).getLsbD 31 = false) (hempty : s.bit (CE_STAT.OUT_FULL e) = false) :
    Completes (.mbxPost e ws) s fun t => t.bit (CE_STAT.OUT_FULL e) = true ∧
      (List.range ws.length).all (fun i => t.reg (CE_MBO e i) == ws.getD i 0) = true ∧
      t.bit (CE_EVT.MBX_OUT e) = true ∧ t.out = s.out ++ [.op e .ok []] := by
  have hregs := State.regs_wf_of_canon hcanon
  have hposted : tabWf regReset ((s.wordsPosted e ws ws.length).setReg (CE_MBO_STAT e) (BitVec.ofNat 32 ws.length)).regs = true :=
    setReg_wf _ _ (State.wordsPosted_wf hregs e ws _)
  have hout : (s.wordsPosted e ws ws.length).out = s.out :=
    List.foldlRecOn (motive := fun t : State => t.out = s.out) _ _ rfl fun _ ht _ _ => ht
  have hapart : CE_STAT e ≠ CE_EVT e := by simp only [CE_STAT, CE_EVT]; omega
  refine completes_of_next (execMbxPost_posts hact hlow hhigh hcall hempty) ⟨?full, ?words, ?event, ?out⟩
  case full =>
    have hfull : (s.mailFull e ws).bit (CE_STAT.OUT_FULL e) = true := bit_on hposted (Nat.le_of_ble_eq_true rfl) rfl
    exact (congrArg (fun v => fldOf (CE_STAT.OUT_FULL e) v != 0) (reg_wr_ne (f := CE_EVT.MBX_OUT e) hapart 1)).trans hfull
  case words =>
    refine List.all_eq_true.2 fun i hi => beq_iff_eq.2 ?_
    have hlt : i < ws.length := List.mem_range.1 hi
    have hevt : CE_MBO e i ≠ CE_EVT e := by simp only [CE_MBO, CE_EVT]; omega
    have hstat : CE_MBO e i ≠ CE_STAT e := by simp only [CE_MBO, CE_STAT]; omega
    have hcount : CE_MBO e i ≠ CE_MBO_STAT e := by simp only [CE_MBO, CE_MBO_STAT]; omega
    calc ((s.mailFull e ws).on (CE_EVT.MBX_OUT e)).reg (CE_MBO e i)
        = (s.mailFull e ws).reg (CE_MBO e i) := reg_wr_ne hevt 1
      _ = ((s.wordsPosted e ws ws.length).setReg (CE_MBO_STAT e) _).reg (CE_MBO e i) := reg_wr_ne hstat 1
      _ = (s.wordsPosted e ws ws.length).reg (CE_MBO e i) := reg_setReg_ne hcount _ _
      _ = ws.getD i 0 := State.reg_wordsPosted hregs e ws hlt
  case event => exact bit_on (setReg_wf _ _ hposted) (Nat.le_of_ble_eq_true rfl) rfl
  case out => exact congrArg (· ++ [Out.op e .ok []]) hout

theorem mbxTake_completes (hcanon : s.canon = true) (hact : s.canAct e = true) (hfull : s.bit (CE_STAT.IN_FULL e) = true) :
    Completes (.mbxTake e) s fun t => t.bit (CE_STAT.IN_FULL e) = false ∧
      t.out = s.out ++ [.op e .ok ((List.range (s.eng e).inCount).map (fun i => s.reg (CE_MBI e i)))] :=
  completes_of_next ((if_neg (ne_false_of_eq_true hact)).trans (if_pos hfull)) ⟨bit_off (State.regs_wf_of_canon hcanon) (Nat.le_of_ble_eq_true rfl) rfl, rfl⟩

theorem State.regExists_of_committed (h : s.committed = true) (a : Nat) : s.regExists a = true := by
  rw [State.regExists, h, Bool.true_or]

theorem mbiDb_completes (hcanon : s.canon = true) (count : BitVec 4) (hcommitted : s.committed = true)
    (hempty : s.bit (CE_STAT.IN_FULL e) = false) : Completes (.mbiDb e count) s fun t =>
      t.bit (CE_STAT.IN_FULL e) = true ∧ (t.eng e).inCount = if count = 0 then 16 else count.toNat := by
  refine completes_of_next (t := (s.on (CE_STAT.IN_FULL e)).setEng e { s.eng e with inCount := if count = 0 then 16 else count.toNat })
    ?_ ⟨bit_on (State.regs_wf_of_canon hcanon) (Nat.le_of_ble_eq_true rfl) rfl, ?_⟩
  · exact (if_neg (ne_false_of_eq_true (State.regExists_of_committed hcommitted _))).trans (if_neg (ne_true_of_eq_false hempty))
  · exact congrArg Engine.inCount (eng_setEng_same (State.engines_wf_of_canon hcanon) _ _)

/-! ## Queue ports (R377) -/

theorem State.qpQueue_toNat (s : State) (e p : Nat) : (BitVec.ofNat 16 (s.qpQueue e p)).toNat = s.qpQueue e p :=
  Nat.mod_eq_of_lt (fldOf_lt (CE_QPORT.QID e p) _)

/-- A group that fits in a queue of mode 0 is accepted. -/
theorem State.push_accepted {k : Nat} {ws : List QWord} {x : State × Queue} {o : Origin} (hrun : s.runs .core = true)
    (hex : (s.queue k).ex = true) (hsound : (s.queue k).anyTorn = false) (hmode : (s.queue k).cfg.mode = 0) (hne : ws ≠ [])
    (hcap : ws.length ≤ (s.queue k).cfg.cap) (hx : s.storeAll k (s.queue k) ws = some x) :
    s.push k ws o = (.accepted, x.1.putQueue k x.2) := by
  have hnot : ¬ ws.isEmpty = true := by simpa using hne
  rw [State.push, State.used_of_not_torn (Queue.torn_of_not_anyTorn hsound), if_neg (ne_false_of_eq_true hrun),
    if_neg (ne_false_of_eq_true hex), if_neg hnot, if_neg (Nat.not_lt.2 hcap)]
  simp only [State.pushWhole, hmode, hx]

variable {p : Fin 16}

/-- The queue port with its open packet noted, and the operation answered OK. -/
theorem execQpPush_accepted {ws : List QWord} {t : State} (hact : s.canAct e = true) (hlow : 1 ≤ ws.length) (hhigh : ws.length ≤ 16)
    (hport : s.qpStop e p = none) (hpush : s.push (s.qpQueue e p) ws (.engine e) = (.accepted, t)) :
    ∃ x, execQpPush e p ws s = .next ((t.setEng e x).opDone e .ok) := by
  have hwords : ¬ (ws.isEmpty = true ∨ 16 < ws.length) := by
    rw [List.isEmpty_iff_length_eq_zero]
    omega
  simp only [execQpPush, if_neg (ne_false_of_eq_true hact), if_neg hwords, hport, hpush]
  exact ⟨_, rfl⟩

theorem qpPush_completes (hcanon : s.canon = true) {ws : List QWord} (hact : s.canAct e = true) (hport : s.qpStop e p = none)
    (hlow : 1 ≤ ws.length) (hhigh : ws.length ≤ 16) (hex : (s.queue (s.qpQueue e p)).ex = true)
    (hsound : (s.queue (s.qpQueue e p)).anyTorn = false) (hmode : (s.queue (s.qpQueue e p)).cfg.mode = 0)
    (hcap : ws.length ≤ (s.queue (s.qpQueue e p)).cfg.cap)
    (hstored : (s.storeAll (s.qpQueue e p) (s.queue (s.qpQueue e p)) ws).isSome = true) : Completes (.qpPush e p ws) s fun t =>
      (t.queue (s.qpQueue e p)).words = (s.queue (s.qpQueue e p)).words ++ ws ∧ t.out.getLast? = some (.op e .ok []) := by
  obtain ⟨x, hx⟩ := Option.isSome_iff_exists.1 hstored
  have hne : ws ≠ [] := List.ne_nil_of_length_pos hlow
  have hrun := State.runs_of_canAct hact
  have hpush := State.push_accepted (o := .engine e) hrun hex hsound hmode hne hcap hx
  obtain ⟨y, hnext⟩ := execQpPush_accepted hact hlow hhigh hport hpush
  refine completes_of_next hnext ⟨?words, List.getLast?_concat⟩
  generalize hk : BitVec.ofNat 16 (s.qpQueue e p) = k
  have hq : k.toNat = s.qpQueue e p := hk ▸ s.qpQueue_toNat e p
  rw [← hq] at hex hsound hmode hx hpush ⊢
  exact (congrArg (fun r => (r.2.queue k.toNat).words) hpush).symm.trans (push_words hcanon hrun hsound _ hne hex (.inl hmode) hx).1

section
variable {w : QWord} (hact : s.canAct e = true) (hport : s.qpStop e p = none) (hex : (s.queue (s.qpQueue e p)).ex = true)
  (hsound : (s.queue (s.qpQueue e p)).anyTorn = false) (hhurt : (s.queue (s.qpQueue e p)).hurt = [])
  (hword : s.wordAt (s.qpQueue e p) = some w)
include hact hport hex hsound hhurt hword

theorem execQpPop_one (untilEnd : Bool) : execQpPop e p 1 untilEnd s =
    .next ((s.pop (s.qpQueue e p)).2.emit (.popped e .ok [(w, (s.queue (s.qpQueue e p)).cut)])) := by
  have hpop : s.pop (s.qpQueue e p) = (.word w (s.queue (s.qpQueue e p)).cut, (s.pop (s.qpQueue e p)).2) :=
    Prod.ext (State.pop_word hword (Queue.torn_of_not_anyTorn hsound) hhurt) rfl
  have hpops : s.qpPops (s.qpQueue e p) untilEnd 1 = ([(w, (s.queue (s.qpQueue e p)).cut)], .ok, (s.pop (s.qpQueue e p)).2) := by
    rw [State.qpPops, hpop]
    dsimp only
    split_ifs <;> rfl
  have hone : ¬ ((1 : BitVec 5) = 0 ∨ 16 < (1 : BitVec 5).toNat) := by decide
  simp only [execQpPop, if_neg (ne_false_of_eq_true hact), if_neg hone, hport, if_neg (ne_false_of_eq_true hex)]
  rw [show (1 : BitVec 5).toNat = 1 from rfl, hpops]

theorem qpPop_completes (hcanon : s.canon = true) (untilEnd : Bool) : Completes (.qpPop e p 1 untilEnd) s fun t =>
    (t.queue (s.qpQueue e p)).rd = (s.queue (s.qpQueue e p)).rd + 1 ∧
    t.out.getLast? = some (.popped e .ok [(w, (s.queue (s.qpQueue e p)).cut)]) :=
  completes_of_next (execQpPop_one hact hport hex hsound hhurt hword untilEnd)
    ⟨(State.pop_pointers hword (State.queues_wf_of_canon hcanon) hsound).1, List.getLast?_concat⟩

omit hsound in
theorem qpPeek_completes : Completes (.qpPeek e p) s fun t =>
    t.queues = s.queues ∧ t.out = s.out ++ [.popped e .ok [(w, (s.queue (s.qpQueue e p)).cut)]] := by
  have hlook : s.look (s.qpQueue e p) = .word w (s.queue (s.qpQueue e p)).cut := (State.look_of_wordAt hword).1
  refine completes_of_next (t := s.emit (.popped e .ok [(w, (s.queue (s.qpQueue e p)).cut)])) ?_ ⟨rfl, rfl⟩
  change execQpPeek e p s = _
  simp only [execQpPeek, if_neg (ne_false_of_eq_true hact), hport, if_neg (ne_false_of_eq_true hex), hlook, State.readHurt_of_sound hhurt]

end

theorem qpCmdMark_completes (hcanon : s.canon = true) (count : Word) (hact : s.canAct e = true) (hport : s.qpStop e p = none)
    (hex : (s.queue (s.qpQueue e p)).ex = true) (hsound : (s.queue (s.qpQueue e p)).anyTorn = false) :
    Completes (.qpCmd e p 1 count) s fun t =>
      (t.queue (s.qpQueue e p)).mark = some (s.queue (s.qpQueue e p)).rd ∧ t.out.getLast? = some (.op e .ok []) := by
  refine completes_of_next (t := (s.queueCmd (.engine e) (.num (BitVec.ofNat 16 (s.qpQueue e p))) 1 count.toNat).opDone e .ok) ?next
    ⟨?mark, List.getLast?_concat⟩
  case next =>
    change execQpCmd e p 1 count s = _
    simp only [execQpCmd, if_neg (ne_false_of_eq_true hact), hport, if_neg (ne_false_of_eq_true hex)]
    rfl
  case mark =>
    have hq := s.qpQueue_toNat e p
    generalize BitVec.ofNat 16 (s.qpQueue e p) = k at hq ⊢
    rw [← hq] at hex hsound ⊢
    exact State.queueCmd_mark (m := .engine e) (r := .num k) (n := count.toNat) (State.queues_wf_of_canon hcanon) hex hsound

theorem qpStat_completes (hact : s.canAct e = true) (hport : s.qpStop e p = none) : Completes (.qpStat e p) s fun t =>
    t.out = s.out ++ [.op e .ok [((s.queue (s.qpQueue e p)).stat).extractLsb' 0 32, ((s.queue (s.qpQueue e p)).stat).extractLsb' 32 32]] := by
  refine completes_of_next (t := s.opDone e .ok [((s.queue (s.qpQueue e p)).stat).extractLsb' 0 32,
    ((s.queue (s.qpQueue e p)).stat).extractLsb' 32 32]) ?_ rfl
  change execQpStat e p s = _
  simp only [execQpStat, if_neg (ne_false_of_eq_true hact), hport]

/-! ## The receive window (R379, R380) -/

/-- The state with the frames rx in the window of port p. -/
def State.withWindow (s : State) (p : Nat) (rx : List RxFrame) : State := s.setNet p { s.net p with rx := rx }

theorem rx_withWindow (hcanon : s.canon = true) (p : Nat) (rx : List RxFrame) : ((s.withWindow p rx).net p).rx = rx :=
  congrArg NetPort.rx (net_setNet_same (State.nets_wf_of_canon hcanon) p _)

theorem descTake_completes (hcanon : s.canon = true) {f : RxFrame}
    (hfound : (s.net (e / 4)).rx.find? (fun f => f.engine == e.val && !f.taken) = some f) (hact : s.canAct e = true)
    (hport : s.attached e = true) (hrun : s.ceState e = ceRunning) : Completes (.descTake e) s fun t =>
      t.out = s.out ++ [.op e .ok f.words] ∧ (t.net (e / 4)).rx.contains { f with taken := true } = true := by
  have hstate : ¬ s.ceState e = ceAborting := by rw [hrun]; decide
  refine completes_of_next (t := (s.withWindow (e / 4)
    ((s.net (e / 4)).rx.map (fun g => if g = f then { g with taken := true } else g))).opDone e .ok f.words) ?next ⟨rfl, ?taken⟩
  case next =>
    change execDescTake e s = _
    simp only [execDescTake, if_neg (ne_false_of_eq_true hact), if_neg (ne_false_of_eq_true hport), hfound, if_neg hstate]
    rfl
  case taken =>
    refine List.contains_iff_mem.2 ?_
    change _ ∈ ((s.withWindow (e / 4) _).net (e / 4)).rx
    rw [rx_withWindow hcanon]
    exact List.mem_map.2 ⟨f, List.mem_of_find?_eq_some hfound, if_pos rfl⟩

/-- The frames of a window once engine e has released the granules ns. -/
def releasedFrames (e : Nat) (ns : List Nat) (rx : List RxFrame) : List RxFrame :=
  (rx.map (fun f => if f.engine = e ∧ (f.taken ∨ f.early) then { f with grans := f.grans.filter (fun g => !ns.contains g) } else f)).filter
    (fun f => !f.grans.isEmpty)

/-- An engine holds none of the granules it has released. -/
theorem not_mem_released {e g : Nat} {ns : List Nat} (hg : g ∈ ns) (rx : List RxFrame) :
    g ∉ ((releasedFrames e ns rx).filter (fun f => f.engine == e && (f.taken || f.early))).flatMap (·.grans) := by
  simp only [releasedFrames, List.mem_flatMap, List.mem_filter, List.mem_map, Bool.and_eq_true, beq_iff_eq, Bool.or_eq_true]
  rintro ⟨f, ⟨⟨⟨h, -, rfl⟩, -⟩, howner, hheld⟩, hmem⟩
  split_ifs at howner hheld hmem with hown
  · simp [hg] at hmem
  · exact hown ⟨howner, hheld⟩

theorem granuleRelease_completes (hcanon : s.canon = true) {gs : List (BitVec 11)} (hact : s.canAct e = true) (hport : s.attached e = true)
    (hheld : gs.all (fun g => (s.heldGranules e).contains g.toNat) = true) (hdistinct : (gs.map (·.toNat)).eraseDups.length = gs.length) :
    Completes (.granuleRelease e gs) s fun t => gs.all (fun g => !(t.heldGranules e).contains g.toNat) = true ∧
      t.out = s.out ++ [.op e .ok []] := by
  refine completes_of_next (t := (s.withWindow (e / 4)
    (releasedFrames e (gs.map (·.toNat)) (s.net (e / 4)).rx)).opDone e .ok) ?next ⟨?freed, rfl⟩
  case next =>
    have hall : ((gs.map (·.toNat)).all (fun g => (s.heldGranules e).contains g) &&
        decide ((gs.map (·.toNat)).eraseDups.length = (gs.map (·.toNat)).length)) = true := by
      rw [List.all_map, List.length_map, Bool.and_eq_true]
      exact ⟨hheld, decide_eq_true hdistinct⟩
    change execGranuleRelease e gs s = _
    simp only [execGranuleRelease, if_neg (ne_false_of_eq_true hact), if_neg (ne_false_of_eq_true hport), if_pos hall]
    rfl
  case freed =>
    refine List.all_eq_true.2 fun g hg => ?_
    rw [Bool.not_eq_true', ← Bool.not_eq_true, List.contains_iff_mem]
    change _ ∉ (((s.withWindow (e / 4) _).net (e / 4)).rx.filter _).flatMap _
    rw [rx_withWindow hcanon]
    exact not_mem_released (List.mem_map_of_mem (f := BitVec.toNat) hg) _

/-! ## Events of the engine (R386) -/

theorem engineEvent_completes (payload : BitVec 128) (hact : s.canAct e = true) : Completes (.engineEvent e payload) s fun t =>
    (t.out.getLast? = some (.op e .ok []) ∨ t.out.getLast? = some (.op e .suppressed [])) ∧ t.engines = s.engines ∧ t.queues = s.queues := by
  have htold : s.Signals (s.eventAt s.now false Ev.ENGINE_EVENT (.engine e) ((List.range 4).map (fun i => payload.extractLsb' (32 * i) 32))) :=
    .eventAt .start
  refine completes_of_next (if_neg (ne_false_of_eq_true hact)) ?_
  split_ifs
  · exact ⟨.inr List.getLast?_concat, htold.engines_eq, htold.queues_eq⟩
  · exact ⟨.inl List.getLast?_concat, htold.engines_eq, htold.queues_eq⟩

end

/-- Settles O35: each operation follows its own branch; what ABORT_DONE's row does only adds outputs, a group that fits is accepted, and a
record of an engine's event leaves engines and queues as they are. -/
theorem engineServicesComplete : Obligations.EngineServicesComplete := by
  unfold Obligations.EngineServicesComplete
  refine ⟨?kick, ?abortDone, ?post, ?take, ?doorbell, ?ack, ?push, ?pop, ?peek, ?mark, ?stat, ?desc, ?release, ?event⟩
  case kick => exact fun s e hcanon ⟨hact, hrun⟩ => kick_completes hcanon hact hrun
  case abortDone => exact fun s e hcanon ⟨hact, habort⟩ => abortDone_completes hcanon hact habort
  case post =>
    exact fun s e ws hcanon ⟨hact, hlow, hhigh, hcall, hempty⟩ => mbxPost_completes hcanon hact hlow hhigh hcall hempty
  case take => exact fun s e hcanon ⟨hact, hfull⟩ => mbxTake_completes hcanon hact hfull
  case doorbell => exact fun s e count hcanon ⟨hcommitted, hempty⟩ => mbiDb_completes hcanon count hcommitted hempty
  case ack => exact fun s e hcanon => completes_of_next rfl ⟨bit_off (State.regs_wf_of_canon hcanon) (Nat.le_of_ble_eq_true rfl) rfl, rfl⟩
  case push =>
    exact fun s e p ws hcanon ⟨hact, hport, hlow, hhigh⟩ ⟨hex, hsound, hmode, hcap⟩ hstored =>
      qpPush_completes hcanon hact hport hlow hhigh hex hsound hmode hcap hstored
  case pop =>
    rintro s e p n untilEnd hcanon w hword ⟨hact, hport, hex, hsound, rfl, hhurt⟩
    exact qpPop_completes hact hport hex hsound hhurt hword hcanon untilEnd
  case peek => exact fun s e p _ w hword ⟨hact, hport, hex, hsound, hhurt⟩ => qpPeek_completes hact hport hex hhurt hword
  case mark =>
    rintro s e p op count hcanon ⟨hact, hport, hex, hsound, -⟩ rfl
    exact qpCmdMark_completes hcanon count hact hport hex hsound
  case stat => exact fun s e p _ ⟨hact, hport⟩ => qpStat_completes hact hport
  case desc => exact fun s e hcanon f hfound ⟨hact, hport, hrun⟩ => descTake_completes hcanon hfound hact hport hrun
  case release =>
    exact fun s e gs hcanon ⟨hact, hport⟩ ⟨hheld, hdistinct⟩ => granuleRelease_completes hcanon hact hport hheld hdistinct
  case event => exact fun s e payload _ ⟨hact, _⟩ => engineEvent_completes payload hact

end Sys2Proof.Machine
end

section
/-!
SUPPORT. What the start, the stop and the state of an engine change (R371, R372, R387 to R393, R414).
-/
namespace Sys2Proof.Machine

section
variable {s t : State} {e p : Nat}

/-! ## The state of an engine (R371) -/

theorem State.ctRefresh_untold (s : State) (p : Nat) : (s.ctRefresh p).untold = { s.untold with nets := (s.ctRefresh p).nets } := by
  unfold State.ctRefresh
  dsimp only
  split_ifs <;> rfl

theorem State.setCe_untold (s : State) (e st : Nat) : (s.setCe e st).untold = { s.untold with nets := (s.setCe e st).nets } :=
  State.ctRefresh_untold _ _

theorem State.setCe_engines (s : State) (e st : Nat) : (s.setCe e st).engines = s.engines := (congrArg State.engines (s.setCe_untold e st) :)
theorem State.setCe_loader (s : State) (e st : Nat) : (s.setCe e st).loader = s.loader := (congrArg State.loader (s.setCe_untold e st) :)
theorem State.setCe_time (s : State) (e st : Nat) : (s.setCe e st).time = s.time := (congrArg State.time (s.setCe_untold e st) :)

theorem State.Keeps.ctRefresh {fs : List Fld} {n : Nat} {v : Port → Port} (hevt : wholeReg (NP_EVT p) ∈ fs) (h : s.Keeps fs n v t) :
    s.Keeps fs n v (t.ctRefresh p) := by
  unfold State.ctRefresh
  exact .same (.ite (.on h hevt) h) rfl rfl

theorem State.Keeps.setCe {fs : List Fld} {n st : Nat} {v : Port → Port} (hstat : wholeReg (CE_STAT e) ∈ fs)
    (hevt : wholeReg (NP_EVT (e / 4)) ∈ fs) (h : s.Keeps fs n v t) : s.Keeps fs n v (t.setCe e st) := .ctRefresh hevt (.wr h hstat)

/-- A change of the path in force changes the port's events at most (R414). -/
theorem State.Reads.ctRefresh {g : Fld} {x : Nat} (hg : g.reg ≠ NP_EVT p) (h : s.Reads g x) : (s.ctRefresh p).Reads g x :=
  h.kept (fs := [wholeReg (NP_EVT p)]) (n := 0) (v := id) (.ctRefresh List.mem_cons_self (.start h.regs_wf h.ports_wf))
    (by simp [Fld.apart, wholeReg, hg.symm])

theorem State.Reads.setCe {g : Fld} {x st : Nat} (hstat : (CE_STAT.STATE e).apart g = true) (hevt : g.reg ≠ NP_EVT (e / 4)) (h : s.Reads g x) :
    (s.setCe e st).Reads g x := .ctRefresh hevt (.wr h hstat)

theorem CE_STAT_ne_NP_EVT (e p : Nat) : CE_STAT e ≠ NP_EVT p := by
  simp only [CE_STAT, NP_EVT]
  omega

theorem State.Reads.ceStateSet (e : Fin 48) {st : Nat} (hst : st < 8) (hregs : tabWf regReset s.regs = true)
    (hports : tabWf Port.reset s.ports = true) : (s.setCe e st).Reads (CE_STAT.STATE e) st :=
  .ctRefresh (CE_STAT_ne_NP_EVT e _)
    (.takenAs (State.Reads.start hregs hports) (hst : st < 2 ^ (CE_STAT.STATE e).w) (Nat.le_of_ble_eq_true rfl))

/-! ## The conditions of a start (R370) -/

theorem State.SameBindings.members_eq (h : s.SameBindings t) {c : Nat} (hc : c < 12) (k : Nat) : t.members c k = s.members c k :=
  List.filter_congr fun i hi => by
    obtain ⟨j, hj, rfl⟩ := List.mem_map.1 hi
    have hlt : 4 * c + j < 48 := by have := List.mem_range.1 hj; omega
    rw [h.bound_eq hlt, h.slotOf_eq hlt]

theorem State.SameBindings.groupOf_eq (h : s.SameBindings t) (he : e < 48) : t.groupOf e = s.groupOf e := by
  rw [State.groupOf, h.bound_eq he, h.slotOf_eq he, h.members_eq (by omega), State.groupOf]

/-- Bindings and memory decide whether an engine may start. -/
theorem State.SameBindings.why_eq (h : s.SameBindings t) (hmem : t.mem = s.mem) (he : e < 48) : t.why e = s.why e := by
  have hslot : t.slot = s.slot := funext fun _ => by rw [State.slot, hmem, State.slot]
  have hhdr : t.hdr = s.hdr := funext₃ fun _ _ _ => by rw [State.hdr, hmem, State.hdr]
  have hshare : t.share? = s.share? := funext₂ fun _ _ => by rw [State.share?, hmem, State.share?]
  have hfit : t.fitShare = s.fitShare := funext fun _ => by rw [State.fitShare, State.region, hmem]; rfl
  unfold State.why State.groupIdx State.hdrEngMin State.hdrEngMax State.hdrShared
  rw [h.bound_eq he, h.slotOf_eq he, h.groupOf_eq he, hslot, hhdr, hshare, hfit]

theorem State.startEngine_of_ready (hbound : s.bound e = true) (hwhy : s.why e = 0) (hon : s.clustersOff.contains (e / 4) = false) :
    s.startEngine e = (s.setCe e ceStarting).setEng e { s.eng e with slot := s.slotOf e, limit := false, phase := .none, again := false } := by
  rw [State.startEngine, if_neg (ne_false_of_eq_true hbound), if_pos ⟨hwhy, hon⟩]

/-! ## The abort sequence and the cluster (R387, R393) -/

theorem State.beginAbort_of_running (a : After) (h : s.ceState e = ceRunning) : s.beginAbort e a =
    (s.setCe e ceAborting).setEng e { s.eng e with phase := .doorbell, after := a, timers := [], wdog := none } := by
  rw [State.beginAbort, if_pos h]

theorem State.beginAbort_of_idle (a : After) (h : s.ceState e = ceUnbound ∨ s.ceState e = ceHalted) : s.beginAbort e a = s := by
  rcases h with h | h <;> simp [State.beginAbort, h, ceUnbound, ceHalted, ceRunning, ceGated, ceAborting]

theorem State.clusterDrained_cases (s : State) (c : Nat) : ∃ off, s.clusterDrained c = { s with clustersOff := off } := by
  unfold State.clusterDrained
  dsimp only
  split_ifs
  · exact ⟨_, rfl⟩
  · exact ⟨s.clustersOff, rfl⟩

theorem State.clusterDrained_regs (s : State) (c : Nat) : (s.clusterDrained c).regs = s.regs := by
  obtain ⟨off, heq⟩ := s.clusterDrained_cases c
  rw [heq]

theorem State.bit_of_reg_eq {f : Fld} (h : t.reg f.reg = s.reg f.reg) : t.bit f = s.bit f := by
  rw [State.bit, State.rd, h, State.bit, State.rd]

theorem State.bit_clusterDrained (s : State) (c : Nat) (f : Fld) : (s.clusterDrained c).bit f = s.bit f :=
  State.bit_of_reg_eq (by rw [State.reg, State.clusterDrained_regs, State.reg])

/-- A cluster to be powered down none of whose engines runs or aborts is off. -/
theorem State.clusterDrained_off {c : Nat} (hoff : s.bit (CL_CTRL.PWR_OFF c) = true)
    (hidle : ∀ i < 4, s.ceState (4 * c + i) = ceUnbound ∨ s.ceState (4 * c + i) = ceHalted) :
    (s.clusterDrained c).clustersOff.contains c = true := by
  have hquiet : ((List.range 4).any fun i => s.ceState (4 * c + i) == ceRunning || s.ceState (4 * c + i) == ceStarting ||
      s.ceState (4 * c + i) == ceAborting) = false := by
    refine List.any_eq_false.2 fun i hi => ?_
    rcases hidle i (List.mem_range.1 hi) with h | h <;> rw [h] <;> decide
  simp only [State.clusterDrained, hoff, hquiet, Bool.not_false, Bool.and_true, Bool.true_and, Bool.not_eq_true']
  split_ifs with hnew
  · simp
  · exact Bool.eq_true_of_not_eq_false hnew

/-! ## Mailboxes and granules at a start (R372) -/

/-- The words of both mailboxes of engine e are zero. -/
def State.mailZeroed (s : State) (e : Nat) : State := (List.range 16).foldl (fun s i => (s.setReg (CE_MBI e i) 0).setReg (CE_MBO e i) 0) s

/-- Both mailboxes of engine e are empty. -/
def State.mailEmptied (s : State) (e : Nat) : State :=
  (((s.mailZeroed e).off (CE_STAT.IN_FULL e)).off (CE_STAT.OUT_FULL e)).setReg (CE_MBO_STAT e) 0

theorem State.clearMail_eq (s : State) (e : Nat) :
    s.clearMail e = (s.mailEmptied e).setEng e { (s.mailEmptied e).eng e with inCount := 0 } := rfl

theorem State.mailEmptied_signals (s : State) (e : Nat) : s.Signals (s.mailEmptied e) :=
  .setReg (.setReg (.setReg (.foldl _ (fun _ _ ht => ht.setReg.setReg) .start)))

/-- The state in which engine e starts: its mailboxes are clear and its granules are free. -/
def State.cleared (s : State) (e : Nat) : State := ((s.clearMail e).freeGranules e).2

/-- Clear mailboxes and free granules change one engine and one port beside the mailboxes' registers. -/
theorem State.cleared_eq (s : State) (e : Nat) : ∃ u x y, u = s.mailEmptied e ∧ s.cleared e = (u.setEng e x).setNet (e / 4) y :=
  ⟨_, _, _, rfl, congrArg (fun u : State => (u.freeGranules e).2) (s.clearMail_eq e)⟩

theorem State.cleared_time (s : State) (e : Nat) : (s.cleared e).time = s.time := by
  obtain ⟨u, x, y, hu, heq⟩ := s.cleared_eq e
  have hmail : s.Signals u := hu ▸ s.mailEmptied_signals e
  rw [heq]
  exact hmail.time_eq

theorem State.cleared_loader (s : State) (e : Nat) : (s.cleared e).loader = s.loader := by
  obtain ⟨u, x, y, hu, heq⟩ := s.cleared_eq e
  have hmail : s.Signals u := hu ▸ s.mailEmptied_signals e
  rw [heq]
  exact hmail.loader_eq

theorem State.cleared_engines_wf (h : tabWf Engine.reset s.engines = true) : tabWf Engine.reset (s.cleared e).engines = true := by
  obtain ⟨u, x, y, hu, heq⟩ := s.cleared_eq e
  have hmail : s.Signals u := hu ▸ s.mailEmptied_signals e
  rw [heq]
  exact setEng_wf (hmail.engines_eq ▸ h) e x

/-- The registers that a start changes. -/
def startedFields (e : Nat) : List Fld :=
  [CE_STAT e, CE_MBO_STAT e, NP_EVT (e / 4)].map wholeReg ++ (List.range 16).flatMap fun i => [wholeReg (CE_MBI e i), wholeReg (CE_MBO e i)]

theorem startedFields_apart : ∀ e : Fin 48, ∀ a ∈ [CE_BIND e, CL_CTRL (e / 4), LD_STAT, PW_STAT],
    (startedFields e).all (fun f => f.apart (wholeReg a)) = true := by decide +kernel

theorem State.mailZeroed_keeps (h : s.Keeps (startedFields e) 0 Port.unseen s) : s.Keeps (startedFields e) 0 Port.unseen (s.mailZeroed e) := by
  refine .foldl _ (fun t i hi ht => ?_) h
  have hmail : ∀ a ∈ [CE_MBI e i, CE_MBO e i], wholeReg a ∈ startedFields e := fun a ha =>
    List.mem_append_right _ (List.mem_flatMap.2 ⟨i, hi, List.mem_map_of_mem ha⟩)
  exact .setReg (.setReg ht (hmail _ (by simp))) (hmail _ (by simp))

theorem State.cleared_keeps (h : s.Keeps (startedFields e) 0 Port.unseen s) : s.Keeps (startedFields e) 0 Port.unseen (s.cleared e) := by
  have hemptied : s.Keeps (startedFields e) 0 Port.unseen (s.mailEmptied e) :=
    .setReg (.off (.off (State.mailZeroed_keeps h) (by simp [startedFields, CE_STAT.IN_FULL])) (by simp [startedFields, CE_STAT.OUT_FULL]))
      (by simp [startedFields])
  obtain ⟨u, x, y, hu, heq⟩ := s.cleared_eq e
  rw [← hu] at hemptied
  rw [heq]
  exact hemptied.same rfl rfl

theorem mailFlags_apart (e : Nat) : (CE_STAT.OUT_FULL e).apart (CE_STAT.IN_FULL e) = true ∧ (CE_STAT.STATE e).apart (CE_STAT.IN_FULL e) = true ∧
    (CE_STAT.STATE e).apart (CE_STAT.OUT_FULL e) = true := by
  simp [Fld.apart, CE_STAT.OUT_FULL, CE_STAT.IN_FULL, CE_STAT.STATE]

theorem CE_MBO_STAT_ne_CE_STAT (e : Nat) : CE_MBO_STAT e ≠ CE_STAT e := by
  simp only [CE_MBO_STAT, CE_STAT]
  omega

/-- Neither mailbox is full once both flags are off. -/
theorem State.mailFlags_off (hregs : tabWf regReset s.regs = true) (hports : tabWf Port.reset s.ports = true) (v : Word) :
    (((s.off (CE_STAT.IN_FULL e)).off (CE_STAT.OUT_FULL e)).setReg (CE_MBO_STAT e) v).Reads (CE_STAT.IN_FULL e) 0 ∧
    (((s.off (CE_STAT.IN_FULL e)).off (CE_STAT.OUT_FULL e)).setReg (CE_MBO_STAT e) v).Reads (CE_STAT.OUT_FULL e) 0 := by
  have hin : (s.off (CE_STAT.IN_FULL e)).Reads (CE_STAT.IN_FULL e) 0 :=
    .takenAs (State.Reads.start hregs hports) (Nat.two_pow_pos _) (Nat.le_of_ble_eq_true rfl)
  have hout : ((s.off (CE_STAT.IN_FULL e)).off (CE_STAT.OUT_FULL e)).Reads (CE_STAT.OUT_FULL e) 0 :=
    .takenAs (State.Reads.start hin.regs_wf hports) (Nat.two_pow_pos _) (Nat.le_of_ble_eq_true rfl)
  exact ⟨.setReg (.wr hin (mailFlags_apart e).1) (CE_MBO_STAT_ne_CE_STAT e), .setReg hout (CE_MBO_STAT_ne_CE_STAT e)⟩

theorem State.cleared_mail (h : s.Keeps (startedFields e) 0 Port.unseen s) :
    (s.cleared e).Reads (CE_STAT.IN_FULL e) 0 ∧ (s.cleared e).Reads (CE_STAT.OUT_FULL e) 0 := by
  have hzeroed := State.mailZeroed_keeps h
  obtain ⟨hin, hout⟩ : (s.mailEmptied e).Reads (CE_STAT.IN_FULL e) 0 ∧ (s.mailEmptied e).Reads (CE_STAT.OUT_FULL e) 0 :=
    State.mailFlags_off hzeroed.regs_wf hzeroed.ports_wf 0
  obtain ⟨u, x, y, hu, heq⟩ := s.cleared_eq e
  rw [← hu] at hin hout
  rw [heq]
  exact ⟨hin.same rfl rfl, hout.same rfl rfl⟩

/-! ## Faults (R389) -/

/-- The state of a faulted engine, its cause and its offset. -/
def State.faulted (s : State) (e cause addr : Nat) : State :=
  (((s.setCe e ceFaulted).setEng e { s.eng e with phase := .none, timers := [], wdog := none }).wr (CE_FAULT.CAUSE e) cause).wr
    (CE_FAULT_ADDR.ADDR e) addr

/-- The fault is counted and told. -/
def State.faultTold (s : State) (e cause addr : Nat) : State :=
  (((s.faulted e cause addr).inc (CE_CNT_FAULT e)).on (CE_EVT.FAULT e)).event Ev.ENGINE_FAULT [e, cause, addr]

/-- What a fault shows of engine e, with its count of faults from n. -/
structure State.ShowsFault (s : State) (e cause addr : Nat) (n : Word) : Prop where
  state_eq : s.ceState e = ceFaulted
  cause_eq : s.rd (CE_FAULT.CAUSE e) = cause
  addr_eq : s.rd (CE_FAULT_ADDR.ADDR e) = addr
  count_eq : s.reg (CE_CNT_FAULT e) = countUp n

theorem State.ShowsFault.same {cause addr : Nat} {n : Word} (h : s.ShowsFault e cause addr n) (hregs : t.regs = s.regs) :
    t.ShowsFault e cause addr n := by
  obtain ⟨hstate, hcause, haddr, hcount⟩ := h
  simp only [State.ceState, State.rd, State.reg] at hstate hcause haddr hcount
  refine ⟨?_, ?_, ?_, ?_⟩
  all_goals simpa only [State.ceState, State.rd, State.reg, hregs]

/-- What a fault writes first, and what its report writes. -/
def faultedFields (e : Nat) : List Fld := [CE_STAT e, NP_EVT (e / 4), CE_FAULT e, CE_FAULT_ADDR e].map wholeReg
def toldFields (e : Nat) : List Fld := [CE_CNT_FAULT e, CE_EVT e].map wholeReg ++ logFields

theorem faultedFields_apart : ∀ e : Fin 48, ∀ a ∈ [CE_CTRL e, CE_CNT_FAULT e], (faultedFields e).all (fun f => f.apart (wholeReg a)) = true := by
  decide +kernel

theorem toldFields_apart : ∀ e : Fin 48, ∀ a ∈ [CE_CTRL e, CE_STAT e, CE_FAULT e, CE_FAULT_ADDR e],
    (toldFields e).all (fun f => f.apart (wholeReg a)) = true := by decide +kernel

theorem logFields_apart_faultCount : ∀ e : Fin 48, logFields.all (fun f => f.apart (wholeReg (CE_CNT_FAULT e))) = true := by decide +kernel

theorem faultRegs_apart (e : Nat) : (CE_FAULT.CAUSE e).apart (CE_STAT.STATE e) = true ∧ (CE_FAULT_ADDR.ADDR e).apart (CE_STAT.STATE e) = true ∧
    (CE_FAULT_ADDR.ADDR e).apart (CE_FAULT.CAUSE e) = true ∧ (CE_EVT.FAULT e).apart (wholeReg (CE_CNT_FAULT e)) = true := by
  simp [Fld.apart, CE_FAULT.CAUSE, CE_FAULT_ADDR.ADDR, CE_STAT.STATE, CE_EVT.FAULT, wholeReg, CE_FAULT, CE_FAULT_ADDR, CE_STAT, CE_EVT, CE_CNT_FAULT]

end

section
variable {s t : State} {e : Fin 48} {cause addr : Nat} (hregs : tabWf regReset s.regs = true) (hports : tabWf Port.reset s.ports = true)
include hregs hports

theorem State.faulted_keeps : s.Keeps (faultedFields e) 0 Port.unseen (s.faulted e cause addr) := by
  have hstate : s.Keeps (faultedFields e) 0 Port.unseen (s.setCe e ceFaulted) :=
    .setCe (by simp [faultedFields]) (by simp [faultedFields]) (.start hregs hports)
  exact .wr (.wr (hstate.same rfl rfl) (by simp [CE_FAULT.CAUSE, faultedFields])) (by simp [CE_FAULT_ADDR.ADDR, faultedFields])

theorem State.faulted_shown (hcause : cause < 8) (haddr : addr < 0x10000) : (s.faulted e cause addr).ceState e = ceFaulted ∧
    (s.faulted e cause addr).rd (CE_FAULT.CAUSE e) = cause ∧ (s.faulted e cause addr).rd (CE_FAULT_ADDR.ADDR e) = addr := by
  obtain ⟨hcauseState, haddrState, haddrCause, -⟩ := faultRegs_apart e
  have hset : (s.setCe e ceFaulted).Reads (CE_STAT.STATE e) ceFaulted := .ceStateSet e (by decide) hregs hports
  have hstate : ((s.setCe e ceFaulted).setEng e { s.eng e with phase := .none, timers := [], wdog := none }).Reads (CE_STAT.STATE e) ceFaulted :=
    hset.same rfl rfl
  have hwritten := State.Reads.takenAs (g := CE_FAULT.CAUSE e) (State.Reads.start hstate.regs_wf hstate.ports_wf) hcause
    (Nat.le_of_ble_eq_true rfl)
  have hoffset := State.Reads.takenAs (g := CE_FAULT_ADDR.ADDR e) (State.Reads.start hwritten.regs_wf hwritten.ports_wf) haddr
    (Nat.le_of_ble_eq_true rfl)
  exact ⟨((hstate.wr hcauseState).wr haddrState).rd_eq, (hwritten.wr haddrCause).rd_eq, hoffset.rd_eq⟩

theorem State.faultTold_keeps : (s.faulted e cause addr).Keeps (toldFields e) 0 Port.unseen (s.faultTold e cause addr) := by
  have hfaulted : s.Keeps (faultedFields e) 0 Port.unseen (s.faulted e cause addr) := State.faulted_keeps hregs hports
  exact .event (fun _ hf => by simp [toldFields, hf]) (.on (.inc (.start hfaulted.regs_wf hfaulted.ports_wf) (by simp [toldFields]))
    (by simp [CE_EVT.FAULT, toldFields]))

theorem State.faultTold_shown (hcause : cause < 8) (haddr : addr < 0x10000) :
    (s.faultTold e cause addr).ShowsFault e cause addr (s.reg (CE_CNT_FAULT e)) := by
  have hfaulted : s.Keeps (faultedFields e) 0 Port.unseen (s.faulted e cause addr) := State.faulted_keeps hregs hports
  have htold : (s.faulted e cause addr).Keeps (toldFields e) 0 Port.unseen (s.faultTold e cause addr) := State.faultTold_keeps hregs hports
  obtain ⟨hstate, hcauseRead, haddrRead⟩ := State.faulted_shown (e := e) hregs hports hcause haddr
  refine ⟨(htold.rd_at (toldFields_apart e _ (by simp [CE_STAT.STATE]))).trans hstate,
    (htold.rd_at (toldFields_apart e _ (by simp [CE_FAULT.CAUSE]))).trans hcauseRead,
    (htold.rd_at (toldFields_apart e _ (by simp [CE_FAULT_ADDR.ADDR]))).trans haddrRead, ?count⟩
  have hbefore : (s.faulted e cause addr).Reads (wholeReg (CE_CNT_FAULT e)) (s.reg (CE_CNT_FAULT e)).toNat :=
    ⟨hfaulted.regs_wf, hfaulted.ports_wf, by rw [rd_wholeReg, hfaulted.reg_eq (faultedFields_apart e _ (by simp))]⟩
  have hcounted : ((s.faulted e cause addr).inc (CE_CNT_FAULT e)).Reads (wholeReg (CE_CNT_FAULT e)) (countUp (s.reg (CE_CNT_FAULT e))).toNat :=
    hbefore.counted
  exact ((hcounted.wr (f := CE_EVT.FAULT e) (faultRegs_apart e).2.2.2).event (logFields_apart_faultCount e)).reg_eq

/-- A running engine whose faults do not restart it stops its work and stays FAULTED. -/
theorem State.faultEngine_of_running (hrun : s.ceState e = ceRunning) (hoff : s.bit (CE_CTRL.ON_FAULT e) = false) :
    s.faultEngine e cause addr = ((s.stopWork e stEngineFault).faultTold e cause addr).clusterDrained (e / 4) := by
  have hstop : s.StopsWork e (s.stopWork e stEngineFault) := State.stopWork_spec hregs hports
  have hfaulted : (s.stopWork e stEngineFault).Keeps (faultedFields e) 0 Port.unseen ((s.stopWork e stEngineFault).faulted e cause addr) :=
    State.faulted_keeps hstop.regs_wf hstop.ports_wf
  have htold : ((s.stopWork e stEngineFault).faulted e cause addr).Keeps (toldFields e) 0 Port.unseen
      ((s.stopWork e stEngineFault).faultTold e cause addr) := State.faultTold_keeps hstop.regs_wf hstop.ports_wf
  have hctrl : ((s.stopWork e stEngineFault).faultTold e cause addr).reg (CE_CTRL e) = s.reg (CE_CTRL e) :=
    (htold.reg_eq (toldFields_apart e _ (by simp))).trans
      ((hfaulted.reg_eq (faultedFields_apart e _ (by simp))).trans (hstop.reg_eq _ (by simp)))
  have hstays : (((s.stopWork e stEngineFault).faultTold e cause addr).clusterDrained (e / 4)).bit (CE_CTRL.ON_FAULT e) = false :=
    (State.bit_clusterDrained _ _ _).trans ((State.bit_of_reg_eq hctrl).trans hoff)
  have hsingle : ¬ ceRunning = ceAborting := by decide
  simp only [State.faultEngine, hrun, hsingle, ne_eq, not_true_eq_false, false_and, if_false, decide_false, Bool.false_and,
    Bool.false_eq_true, false_or]
  exact if_pos hstays

end

end Sys2Proof.Machine
end

section
/-!
SUPPORT. The statement of 10_engines.md on the control of engines (R368 to R372, R387 to R393).
-/
namespace Sys2Proof.Machine

section
variable {s : State} {e : Fin 48}

/-! ## START, HALT and the binding (R368, R370, R371) -/

theorem controlFields_apart : ∀ e : Fin 48, (logFields ++ [wholeReg (CE_CTRL e)]).all (fun f => f.apart (wholeReg (CE_STAT e))) = true ∧
    (logFields ++ [wholeReg (CE_CTRL e)]).all (fun f => f.apart CF_STAT.COMMITTED) = true ∧
    ∀ i : Fin 48, (logFields ++ [wholeReg (CE_CTRL e)]).all (fun f => f.apart (wholeReg (CE_BIND i))) = true := by decide +kernel

theorem CE_CTRL_base (e : Nat) : 0x80000 ≤ CE_CTRL e := by
  simp only [CE_CTRL]
  omega

/-- A write of CE_CTRL leaves engines, memory, clusters, bindings and states as they are. -/
structure State.Written (s t : State) (e : Fin 48) : Prop where
  regs_wf : tabWf regReset t.regs = true
  ports_wf : tabWf Port.reset t.ports = true
  signals : s.Signals t
  bindings : s.SameBindings t
  state_eq : t.ceState e = s.ceState e
  committed_eq : t.committed = s.committed

theorem State.ctrlWrite_written (hcanon : s.canon = true) (o : Origin) (v : Word) : s.Written (s.ctrlWrite o e v) e := by
  have hkeeps : s.Keeps (logFields ++ [wholeReg (CE_CTRL e)]) 0 id (s.ctrlWrite o e v) :=
    .regStore (List.subset_append_left _ _) (by simp) (CE_CTRL_base e) (.of_canon hcanon)
  obtain ⟨hstat, hcommitted, hbind⟩ := controlFields_apart e
  exact ⟨hkeeps.regs_wf, hkeeps.ports_wf, .regStore .start, fun i hi => hkeeps.reg_eq (hbind ⟨i, hi⟩), hkeeps.rd_at hstat, hkeeps.bit_eq hcommitted⟩

theorem State.Written.engines_wf {t : State} (h : s.Written t e) (hcanon : s.canon = true) : tabWf Engine.reset t.engines = true :=
  h.signals.engines_eq ▸ State.engines_wf_of_canon hcanon

/-- The state in which START of engine e is noted. -/
def State.startNoted (s : State) (o : Origin) (e : Nat) (v : Word) : State :=
  (s.ctrlWrite o e v).setEng e { (s.ctrlWrite o e v).eng e with started := true }

theorem start_completes (hcanon : s.canon = true) (o : Origin) (v : Word) (hbound : s.bound e = true) (hcommitted : s.committed = true)
    (hstate : s.ceState e = ceHalted) (hwhy : s.why e = 0) (hon : s.clustersOff.contains (e / 4) = false) : Completes (.start o e v) s fun t =>
      t.ceState e = ceStarting ∧ ((t.eng e).started, (t.eng e).slot) = (true, s.slotOf e) := by
  have hwritten : s.Written (s.ctrlWrite o e v) e := State.ctrlWrite_written hcanon o v
  have hnoted : tabWf Engine.reset (s.startNoted o e v).engines = true := setEng_wf (hwritten.engines_wf hcanon) _ _
  have hready : (s.startNoted o e v).startEngine e = _ := State.startEngine_of_ready
    ((hwritten.bindings.bound_eq e.isLt).trans hbound) ((hwritten.bindings.why_eq hwritten.signals.mem_eq e.isLt).trans hwhy)
    (by rw [← hon, ← hwritten.signals.clustersOff_eq]; rfl)
  have hset : ((s.startNoted o e v).setCe e ceStarting).Reads (CE_STAT.STATE e) ceStarting :=
    .ceStateSet e (by decide) hwritten.regs_wf hwritten.ports_wf
  have hexists : ((s.ctrlWrite o e v).regExists (CE_CTRL e)) = true :=
    State.regExists_of_committed (hwritten.committed_eq.trans hcommitted) _
  refine completes_of_next (t := (s.startNoted o e v).startEngine e) ?next ?after
  case next =>
    have hbound' : ¬ ((s.ctrlWrite o e v).bound e = false ∨ (s.ctrlWrite o e v).regExists (CE_CTRL e) = false) := by
      rw [hwritten.bindings.bound_eq e.isLt, hbound, hexists]
      simp
    exact (if_neg hbound').trans (if_pos (.inl (hwritten.state_eq.trans hstate)))
  case after =>
    rw [hready]
    have heng := eng_setEng_same (((s.startNoted o e v).setCe_engines e ceStarting).symm ▸ hnoted) e
      { (s.startNoted o e v).eng e with slot := (s.startNoted o e v).slotOf e, limit := false, phase := .none, again := false }
    have hstarted : ((s.startNoted o e v).eng e).started = true := congrArg Engine.started (eng_setEng_same (hwritten.engines_wf hcanon) _ _)
    have hslot : (s.startNoted o e v).slotOf e = s.slotOf e := hwritten.bindings.slotOf_eq e.isLt
    exact ⟨hset.rd_eq, by rw [heng, hslot, hstarted]⟩

theorem halt_completes (hcanon : s.canon = true) (o : Origin) (v : Word) (hrun : s.ceState e = ceRunning) : Completes (.halt o e v) s fun t =>
    t.ceState e = ceAborting ∧ ((t.eng e).phase, (t.eng e).started, (t.eng e).timers) = (.doorbell, false, []) := by
  have hwritten : s.Written (s.ctrlWrite o e v) e := State.ctrlWrite_written hcanon o v
  generalize hu : (s.ctrlWrite o e v).setEng e { (s.ctrlWrite o e v).eng e with started := false } = u
  have hwf : tabWf Engine.reset u.engines = true := hu ▸ setEng_wf (hwritten.engines_wf hcanon) _ _
  have hstarted : (u.eng e).started = false := hu ▸ congrArg Engine.started (eng_setEng_same (hwritten.engines_wf hcanon) _ _)
  have habort : u.beginAbort e .halt = _ := State.beginAbort_of_running .halt (hu ▸ hwritten.state_eq.trans hrun)
  have hset : (u.setCe e ceAborting).Reads (CE_STAT.STATE e) ceAborting :=
    .ceStateSet e (by decide) (hu ▸ hwritten.regs_wf) (hu ▸ hwritten.ports_wf)
  refine completes_of_next (t := u.beginAbort e .halt) ?next ?after
  case next => exact congrArg (fun x : State => Host.Outcome.next (x.beginAbort e .halt)) hu
  case after =>
    rw [habort]
    have heng := eng_setEng_same ((u.setCe_engines e ceAborting).symm ▸ hwf) e
      { u.eng e with phase := .doorbell, after := .halt, timers := [], wdog := none }
    exact ⟨hset.rd_eq, by rw [heng, hstarted]⟩


/-! ## The binding (R368, R371) -/

theorem bindRow_plain : ∀ e : Fin 48, (regRow? (CE_BIND e)).any (fun r => r.plain 0x18F) = true := by decide +kernel

/-- What a binding of an engine writes. -/
def bindFields (e : Nat) : List Fld := [CE_STAT e, NP_EVT (e / 4)].map wholeReg

theorem bindFields_apart : ∀ e : Fin 48, (bindFields e).all (fun f => f.apart (wholeReg (CE_BIND e))) = true ∧
    logFields.all (fun f => f.apart (CE_BIND.BIND_EN e)) = true ∧
    (logFields ++ [wholeReg (CE_BIND e)]).all (fun f => f.apart (wholeReg (CE_STAT e))) = true := by decide +kernel

/-- The state in which a new binding of engine e stands, its cluster's ranges and path brought up to date. -/
def State.rebound (s : State) (o : Origin) (e : Nat) (v : Word) : State := (s.regStore o (CE_BIND e) v).dropShares.ctRefresh (e / 4)

theorem bit_of_rd_one {f : Fld} (h : s.rd f = 1) : s.bit f = true := by rw [State.bit, h]; rfl

/-- A binding that an engine had not is stored, and the engine's state is as it was. -/
theorem State.regStore_binds (hcanon : s.canon = true) (o : Origin) {v : Word} (hcommitted : s.committed = true)
    (hen : v.getLsbD (CE_BIND.BIND_EN e).lo = true) : (s.regStore o (CE_BIND e) v).bound e = true ∧
      s.Keeps (logFields ++ [wholeReg (CE_BIND e)]) 0 id (s.regStore o (CE_BIND e) v) := by
  obtain ⟨-, hlog, -⟩ := bindFields_apart e
  have hbase : 0x80000 ≤ CE_BIND e := by simp only [CE_BIND]; omega
  have hkeeps : s.Keeps (logFields ++ [wholeReg (CE_BIND e)]) 0 id (s.regStore o (CE_BIND e) v) :=
    .regStore (List.subset_append_left _ _) (by simp) hbase (.of_canon hcanon)
  obtain ⟨new, hbits, hstored⟩ := regStore_told (o := o) (v := v) (State.regs_wf_of_canon hcanon) (State.ports_wf_of_canon hcanon) 0 hbase
    (bindRow_plain e) (State.regExists_of_committed hcommitted _)
  refine ⟨?_, hkeeps⟩
  rw [State.bound, hstored.bit_eq hlog, bit_eq_getLsbD rfl]
  exact (congrArg (·.getLsbD 7) (reg_setReg_same (State.regs_wf_of_canon hcanon) _ _)).trans ((hbits 7 (by decide) (by decide)).trans hen)

theorem ceBindWrite_completes (hcanon : s.canon = true) (o : Origin) (v : Word) (hcommitted : s.committed = true)
    (hstate : s.ceState e = ceUnbound) (hunbound : s.bound e = false) (hen : v.getLsbD (CE_BIND.BIND_EN e).lo = true) :
    Completes (.ceBindWrite o e v) s fun t => t.bound e = true ∧ t.ceState e = ceHalted := by
  obtain ⟨hapart, -, hstat⟩ := bindFields_apart e
  obtain ⟨hbound, hstored⟩ := State.regStore_binds (e := e) hcanon o hcommitted hen
  have hnew : ¬ (s.regStore o (CE_BIND e) v).reg (CE_BIND e) = s.reg (CE_BIND e) := fun h =>
    absurd ((State.bit_of_reg_eq (f := CE_BIND.BIND_EN e) h).symm.trans hbound) (ne_true_of_eq_false hunbound)
  have hkeeps : (s.regStore o (CE_BIND e) v).Keeps (bindFields e) 0 id (s.rebound o e v) :=
    .ctRefresh (by simp [bindFields]) (.same (.start hstored.regs_wf hstored.ports_wf) rfl rfl)
  have hstill : ((s.regStore o (CE_BIND e) v)).ceState e = ceUnbound := (hstored.rd_at hstat).trans hstate
  have hended : (s.regStore o (CE_BIND e) v).Keeps (bindFields e) 0 id ((s.rebound o e v).setCe e ceHalted) :=
    .setCe (by simp [bindFields]) (by simp [bindFields]) hkeeps
  have hset : ((s.rebound o e v).setCe e ceHalted).Reads (CE_STAT.STATE e) ceHalted := .ceStateSet e (by decide) hkeeps.regs_wf hkeeps.ports_wf
  have hboundNow : (s.rebound o e v).bound e = true := (State.bit_of_reg_eq (hkeeps.reg_eq hapart)).trans hbound
  refine completes_of_next (t := (s.rebound o e v).setCe e ceHalted) ?next
    ⟨(State.bit_of_reg_eq (hended.reg_eq hapart)).trans hbound, hset.rd_eq⟩
  exact (if_neg hnew).trans ((if_neg (ne_false_of_eq_true hboundNow)).trans (if_pos hstill))

/-! ## STARTING to RUNNING (R372) -/

/-- The engine as it starts. -/
def Engine.launched (x : Engine) (text data : Mem) (tick : Nat) : Engine :=
  { x with iram := text, dram := data, timers := [], packets := [], phase := .none, wdog := some tick }

/-- The state in which engine e runs, or in LULL is GATED, once it is cleared (R372, R605). -/
def State.launched (s : State) (e : Nat) (text data : Mem) : State :=
  (s.setCe e (if s.rd PW_STAT.STATE = 1 then ceGated else ceRunning)).setEng e ((s.eng e).launched text data s.time.tick)

/-- The abort sequence of engine e begins where something stops it as soon as it runs. -/
def State.stoppedIfDue (s : State) (e : Nat) : State :=
  match s.stopDue e with
  | some a => s.beginAbort e a
  | none => s

theorem State.stoppedIfDue_of_none {e : Nat} (h : s.stopDue e = none) : s.stoppedIfDue e = s := by rw [State.stoppedIfDue, h]

theorem execEngineStarted_starts (hstate : s.ceState e = ceStarting) (hrun : s.partRuns .engines = true) (hwhy : s.why e = 0)
    (hsound : (s.slotDamage (s.eng e).slot).any (·.2) = false) (hshared : s.hdrShared (s.eng e).slot = 0)
    (hon : (s.needBanks .device (slotBase (s.eng e).slot) (slotBase (s.eng e).slot + (s.slot (s.eng e).slot).len)).1 = true) :
    ∃ text data, execEngineStarted e s = .next (((s.cleared e).launched e text data).stoppedIfDue e) := by
  have hbanks := State.needBanks_of_on hon rfl .device
  have hshare : s.takeShare e = (true, s) := if_pos (.inl hshared)
  have hready : ¬ (s.ceState e ≠ ceStarting ∨ s.partRuns .engines = false) := by simp [hstate, hrun]
  have hgranted : ¬ (s.hdrShared (s.eng e).slot ≠ 0 ∧ (s.share? (e / 4) (s.eng e).slot).isNone = true) := fun h => h.1 hshared
  simp only [execEngineStarted, if_neg hready, hwhy, ne_eq, not_true_eq_false, if_false, hsound, Bool.false_eq_true, hbanks, hshare,
    if_neg hgranted, State.cleared]
  generalize ((s.clearMail e).freeGranules e).2 = u
  exact ⟨_, _, rfl⟩

section
variable {u : State} {text data : Mem}

theorem State.launched_eng (hwf : tabWf Engine.reset u.engines = true) :
    (u.launched e text data).eng e = (u.eng e).launched text data u.time.tick :=
  eng_setEng_same ((u.setCe_engines e _).symm ▸ hwf) _ _

theorem State.Reads.launched {g : Fld} {x : Nat} (hstat : (CE_STAT.STATE e).apart g = true) (hevt : g.reg ≠ NP_EVT (e / 4)) (h : u.Reads g x) :
    (u.launched e text data).Reads g x := .same (.setCe hstat hevt h) rfl rfl

theorem State.launched_state (hregs : tabWf regReset u.regs = true) (hports : tabWf Port.reset u.ports = true) :
    (u.launched e text data).ceState e = if u.rd PW_STAT.STATE = 1 then ceGated else ceRunning := by
  unfold State.launched
  generalize hst : (if u.rd PW_STAT.STATE = 1 then ceGated else ceRunning) = st
  have hset : (u.setCe e st).Reads (CE_STAT.STATE e) st := .ceStateSet e (by rw [← hst]; split_ifs <;> decide) hregs hports
  exact hset.rd_eq

/-- What stops an engine as soon as it runs is as it was before the start. -/
theorem State.launched_stopDue (hkeeps : s.Keeps (startedFields e) 0 Port.unseen u) (hloader : u.loader = s.loader) :
    (u.launched e text data).stopDue e = s.stopDue e := by
  have hset : s.Keeps (startedFields e) 0 Port.unseen (u.launched e text data) :=
    .same (.setCe (by simp [startedFields]) (by simp [startedFields]) hkeeps) rfl rfl
  have hpower : (u.launched e text data).bit (CL_CTRL.PWR_OFF (e / 4)) = s.bit (CL_CTRL.PWR_OFF (e / 4)) :=
    State.bit_of_reg_eq (hset.reg_eq (startedFields_apart e _ (by simp [CL_CTRL.PWR_OFF])))
  have hslot : (u.launched e text data).slotOf e = s.slotOf e := hset.rd_at (startedFields_apart e _ (by simp [CE_BIND.SLOT]))
  have hload : (u.launched e text data).rd LD_STAT.SLOT = s.rd LD_STAT.SLOT := hset.rd_at (startedFields_apart e _ (by simp [LD_STAT.SLOT]))
  have hsame : (u.launched e text data).loader = s.loader := (u.setCe_loader e _).trans hloader
  rw [State.stopDue, hpower, hslot, hload, hsame, State.stopDue]

end

theorem engineStarted_completes (hcanon : s.canon = true) (hstate : s.ceState e = ceStarting) (hrun : s.partRuns .engines = true)
    (hwhy : s.why e = 0) (hdue : s.stopDue e = none) (hsound : (s.slotDamage (s.eng e).slot).any (·.2) = false)
    (hshared : s.hdrShared (s.eng e).slot = 0)
    (hon : (s.needBanks .device (slotBase (s.eng e).slot) (slotBase (s.eng e).slot + (s.slot (s.eng e).slot).len)).1 = true) :
    Completes (.engineStarted e) s fun t => (t.ceState e = if s.rd PW_STAT.STATE = 1 then ceGated else ceRunning) ∧
      (t.bit (CE_STAT.IN_FULL e) = false ∧ t.bit (CE_STAT.OUT_FULL e) = false) ∧
      (t.eng e).wdog = some s.time.tick ∧ (t.eng e).timers = [] ∧ (t.eng e).phase = .none := by
  have hcleared : s.Keeps (startedFields e) 0 Port.unseen (s.cleared e) := State.cleared_keeps (.of_canon hcanon)
  have hwf : tabWf Engine.reset (s.cleared e).engines = true := State.cleared_engines_wf (State.engines_wf_of_canon hcanon)
  have htime := s.cleared_time e
  have hloader := s.cleared_loader e
  obtain ⟨hin, hout⟩ := State.cleared_mail (e := e.val) (State.Keeps.of_canon hcanon)
  obtain ⟨text, data, hnext⟩ := execEngineStarted_starts hstate hrun hwhy hsound hshared hon
  generalize s.cleared e = u at *
  obtain ⟨-, hinState, houtState⟩ := mailFlags_apart e
  have hpower : u.rd PW_STAT.STATE = s.rd PW_STAT.STATE := hcleared.rd_at (startedFields_apart e _ (by simp [PW_STAT.STATE]))
  have heng : (u.launched e text data).eng e = (u.eng e).launched text data u.time.tick := State.launched_eng hwf
  have hgo : (u.launched e text data).stopDue e = none := (State.launched_stopDue hcleared hloader).trans hdue
  rw [State.stoppedIfDue_of_none hgo] at hnext
  refine completes_of_next hnext ⟨?state, ⟨?inbound, ?outbound⟩, ?wdog, congrArg Engine.timers heng, congrArg Engine.phase heng⟩
  case state => rw [State.launched_state hcleared.regs_wf hcleared.ports_wf, hpower]
  case inbound => exact (hin.launched hinState (CE_STAT_ne_NP_EVT e _)).bit_eq
  case outbound => exact (hout.launched houtState (CE_STAT_ne_NP_EVT e _)).bit_eq
  case wdog => exact (congrArg Engine.wdog heng).trans (congrArg (fun x : TimeBase => some x.tick) htime)

/-! ## The abort sequence (R387) -/

theorem abortEntry_completes (hcanon : s.canon = true) (hstate : s.ceState e = ceAborting) (hphase : (s.eng e).phase = .doorbell) :
    Completes (.abortEntry e) s fun t => (t.eng e).phase = .handler ∧ t.regs = s.regs :=
  completes_of_next (if_pos ⟨hstate, hphase⟩) ⟨congrArg Engine.phase (eng_setEng_same (State.engines_wf_of_canon hcanon) _ _), rfl⟩

theorem engineGraceEnd_completes (hcanon : s.canon = true) (hstate : s.ceState e = ceAborting) (hphase : (s.eng e).phase = .handler) :
    Completes (.engineGraceEnd e) s fun t => (t.eng e).phase = .graceOver ∧
      t.reg (CE_CNT_FORCED e) = countUp (s.reg (CE_CNT_FORCED e)) ∧ t.bit (CE_EVT.FORCED e) = true := by
  have hregs := State.regs_wf_of_canon hcanon
  have hapart : CE_CNT_FORCED e ≠ CE_EVT e := by simp only [CE_CNT_FORCED, CE_EVT]; omega
  refine completes_of_next (if_pos ⟨hstate, .inr hphase⟩) ⟨?phase, ?count, ?event⟩
  case phase => exact congrArg Engine.phase (eng_setEng_same (State.engines_wf_of_canon hcanon) _ _)
  case count => exact (reg_wr_ne (f := CE_EVT.FORCED e) hapart 1).trans (reg_inc hregs _)
  case event => exact bit_on (setReg_wf _ _ hregs) (Nat.le_of_ble_eq_true rfl) rfl

theorem engineStop_completes (hcanon : s.canon = true) (hstate : s.ceState e = ceAborting) (hphase : (s.eng e).phase = .graceOver) :
    Completes (.engineStop e) s fun t => (t.eng e).phase = .stopped ∧ (t.eng e).packets = [] ∧
      (t.net (e / 4)).rx.any (fun f => f.engine == e.val) = false := by
  have hstop : s.StopsWork e (s.stopWork e stAborted) := State.stopWork_spec (State.regs_wf_of_canon hcanon) (State.ports_wf_of_canon hcanon)
  have hengines := State.engines_wf_of_canon hcanon
  have heng := eng_setEng_same (hstop.engines_wf hengines) e { (s.stopWork e stAborted).eng e with phase := .stopped }
  refine completes_of_next (if_pos ⟨hstate, hphase⟩) ⟨congrArg Engine.phase heng, ?packets, ?granules⟩
  case packets => exact (congrArg Engine.packets heng).trans (congrArg Engine.packets (hstop.eng_eq hengines))
  case granules =>
    change ((s.stopWork e stAborted).net (e / 4)).rx.any _ = false
    rw [hstop.rx_eq (State.nets_wf_of_canon hcanon)]
    exact List.any_eq_false.2 fun f hf => by simpa using (List.mem_filter.1 hf).2

/-- The state at the end of an abort sequence for HALT, before the aborts that waited for the engine end. -/
def State.haltEnded (s : State) (e : Nat) : State :=
  ((((s.setEng e { s.eng e with phase := .none, after := .halt, again := false }).setCe e ceHalted).on (CE_EVT.HALTED e)).clusterDrained (e / 4))

theorem State.endAbortSequence_halt (h : (s.eng e).after = .halt) : s.endAbortSequence e = (s.haltEnded e).engineEnded e := by
  simp only [State.endAbortSequence, h, reduceCtorEq, decide_false, Bool.false_and]
  rfl

theorem CE_EVT_ne_CE_STAT (e : Nat) : CE_EVT e ≠ CE_STAT e := by
  simp only [CE_EVT, CE_STAT]
  omega

theorem engineHalted_completes (hcanon : s.canon = true) (hstate : s.ceState e = ceAborting) (hphase : (s.eng e).phase = .stopped)
    (hafter : (s.eng e).after = .halt) : Completes (.engineHalted e) s fun t =>
      t.ceState e = ceHalted ∧ t.bit (CE_EVT.HALTED e) = true ∧ (t.eng e).phase = .none := by
  have hengines := State.engines_wf_of_canon hcanon
  have hregs : tabWf regReset s.regs = true := State.regs_wf_of_canon hcanon
  have hports : tabWf Port.reset s.ports = true := State.ports_wf_of_canon hcanon
  generalize hu : (s.setEng e { s.eng e with phase := .none, after := .halt, again := false }).setCe e ceHalted = u
  have hset : u.Reads (CE_STAT.STATE e) ceHalted := hu ▸ .ceStateSet e (by decide) hregs hports
  have hphased : (u.eng e).phase = .none := by
    rw [← hu, State.eng, State.setCe_engines]
    exact congrArg Engine.phase (eng_setEng_same hengines _ _)
  obtain ⟨off, hdrained⟩ := (u.on (CE_EVT.HALTED e)).clusterDrained_cases (e / 4)
  have hended : s.haltEnded e = { u.on (CE_EVT.HALTED e) with clustersOff := off } := by rw [State.haltEnded, hu, hdrained]
  have htold : u.eng e = (s.haltEnded e).eng e := by rw [hended]; rfl
  have helse : (s.haltEnded e).Elsewhere ((s.haltEnded e).engineEnded e) :=
    .settleAborts (.same (.start (hended ▸ setReg_wf _ _ hset.regs_wf) (hended ▸ hset.ports_wf)) rfl rfl rfl)
  have honward : (s.haltEnded e).Onward ((s.haltEnded e).engineEnded e) := .settleAborts (.same .start rfl rfl)
  have hkept : ∀ a ∈ [CE_STAT e, CE_EVT e], ((s.haltEnded e).engineEnded e).reg a = (u.on (CE_EVT.HALTED e)).reg a := fun a ha => by
    have hplace : 0x80000 ≤ a ∧ a < 0x400000 := by
      simp only [List.mem_cons, List.not_mem_nil, or_false, CE_STAT, CE_EVT] at ha
      omega
    rw [helse.reg_eq a hplace.1 hplace.2, hended]
    rfl
  refine completes_of_next (t := (s.haltEnded e).engineEnded e) ?next ⟨?state, ?event, ?phase⟩
  case next => exact (if_pos ⟨hstate, hphase⟩).trans (congrArg Host.Outcome.next (State.endAbortSequence_halt hafter))
  case state =>
    have hsame : (u.on (CE_EVT.HALTED e)).reg (CE_STAT e) = u.reg (CE_STAT e) := reg_wr_ne (f := CE_EVT.HALTED e) (CE_EVT_ne_CE_STAT e).symm 1
    exact (congrArg (fldOf (CE_STAT.STATE e)) ((hkept _ (by simp)).trans hsame)).trans hset.rd_eq
  case event =>
    exact (State.bit_of_reg_eq (f := CE_EVT.HALTED e) (hkept _ (by simp [CE_EVT.HALTED]))).trans
      (bit_on hset.regs_wf (Nat.le_of_ble_eq_true rfl) rfl)
  case phase => rw [honward.eng_eq, ← htold, hphased]

/-! ## The watchdog and faults (R375, R389) -/

/-- Time that passes only adds to the tick. -/
theorem State.tick_le_elapse (s : State) (n : Nat) : s.time.tick ≤ (s.elapse n).time.tick := by
  have hadd : s.time.tick ≤ s.time.tick + n := Nat.le_add_right _ _
  unfold State.elapse
  dsimp only
  split_ifs <;> exact hadd

theorem State.tick_le_runTo (s : State) (k : Nat) : s.time.tick ≤ (s.runTo k).time.tick := by
  unfold State.runTo
  split_ifs
  · exact s.tick_le_elapse _
  · exact Nat.le_refl _

theorem State.clusterDrained_time (s : State) (c : Nat) : (s.clusterDrained c).time = s.time := by
  obtain ⟨off, heq⟩ := s.clusterDrained_cases c
  rw [heq]

theorem State.faultTold_time (s : State) (e cause addr : Nat) : (s.faultTold e cause addr).time = s.time := by
  have htold : (s.faulted e cause addr).Signals (s.faultTold e cause addr) := .event (.on (.setReg .start))
  exact htold.time_eq.trans (s.setCe_time e ceFaulted)

theorem State.faultEngine_shown {cause addr : Nat} (hregs : tabWf regReset s.regs = true) (hports : tabWf Port.reset s.ports = true)
    (hrun : s.ceState e = ceRunning) (hoff : s.bit (CE_CTRL.ON_FAULT e) = false) (hcause : cause < 8) (haddr : addr < 0x10000) :
    (s.faultEngine e cause addr).ShowsFault e cause addr (s.reg (CE_CNT_FAULT e)) ∧
      (s.faultEngine e cause addr).time.tick = s.time.tick := by
  have hstop : s.StopsWork e (s.stopWork e stEngineFault) := State.stopWork_spec hregs hports
  have hcount : (s.stopWork e stEngineFault).reg (CE_CNT_FAULT e) = s.reg (CE_CNT_FAULT e) := hstop.reg_eq _ (by simp)
  have hshown := State.faultTold_shown (e := e) hstop.regs_wf hstop.ports_wf hcause haddr
  rw [hcount] at hshown
  rw [State.faultEngine_of_running hregs hports hrun hoff]
  refine ⟨hshown.same (State.clusterDrained_regs _ _), ?_⟩
  rw [State.clusterDrained_time, State.faultTold_time, hstop.tick_eq]

theorem watchdog_completes (hcanon : s.canon = true) (addr : BitVec 16) {b : Nat} (hcount : (s.eng e).wdog = some b)
    (hrun : s.ceState e = ceRunning) (hwdog : s.hdrWdog (s.eng e).slot ≠ 0) (hparts : s.partRuns .engines = true)
    (hoff : s.bit (CE_CTRL.ON_FAULT e) = false) : Completes (.watchdog e addr) s fun t =>
      t.ceState e = ceFaulted ∧ t.rd (CE_FAULT.CAUSE e) = 1 ∧ s.time.tick ≤ t.time.tick := by
  obtain ⟨y, hy⟩ := s.runTo_time (b + s.hdrWdog (s.eng e).slot * 1000)
  have hlater := s.tick_le_runTo (b + s.hdrWdog (s.eng e).slot * 1000)
  have hnext : exec (.watchdog e addr) s = .next ((s.runTo (b + s.hdrWdog (s.eng e).slot * 1000)).faultEngine e 1 addr.toNat) := by
    change execWatchdog e addr s = _
    simp only [execWatchdog, hcount, hrun, hwdog, hparts, ne_eq, not_false_eq_true, and_self, if_true]
  have hregs : tabWf regReset s.regs = true := State.regs_wf_of_canon hcanon
  have hports : tabWf Port.reset s.ports = true := State.ports_wf_of_canon hcanon
  rw [hy] at hnext hlater
  obtain ⟨hshown, htick⟩ := State.faultEngine_shown (s := { s with time := y }) (e := e) (cause := 1) (addr := addr.toNat)
    hregs hports hrun hoff (by decide) addr.isLt
  exact completes_of_next hnext ⟨hshown.state_eq, hshown.cause_eq, hlater.trans_eq htick.symm⟩

theorem engineFault_completes (hcanon : s.canon = true) (cause : BitVec 3) (addr : BitVec 16) (hrun : s.ceState e = ceRunning)
    (hcause : cause ≠ 0) (hparts : s.partRuns .engines = true) (hoff : s.bit (CE_CTRL.ON_FAULT e) = false) :
    Completes (.engineFault e cause addr) s fun t => t.ceState e = ceFaulted ∧ t.rd (CE_FAULT.CAUSE e) = cause.toNat ∧
      t.rd (CE_FAULT_ADDR.ADDR e) = addr.toNat ∧ t.reg (CE_CNT_FAULT e) = countUp (s.reg (CE_CNT_FAULT e)) := by
  obtain ⟨hshown, -⟩ := State.faultEngine_shown (e := e) (State.regs_wf_of_canon hcanon) (State.ports_wf_of_canon hcanon) hrun hoff
    cause.isLt addr.isLt
  exact completes_of_next (if_neg (not_or.2 ⟨hcause, ne_false_of_eq_true hparts⟩)) ⟨hshown.state_eq, hshown.cause_eq, hshown.addr_eq, hshown.count_eq⟩

end

/-! ## Clusters powered down (R393) -/

section
variable {s : State} {k : Fin 12}

theorem clusterRow_plain : ∀ k : Fin 12, (regRow? (CL_CTRL k)).any (fun r => r.plain 0x1) = true ∧
    logFields.all (fun f => f.apart (CL_CTRL.PWR_OFF k)) = true := by decide +kernel

theorem clusterFields_apart : ∀ (k : Fin 12) (i : Fin 4),
    (logFields ++ [wholeReg (CL_CTRL k)]).all (fun f => f.apart (wholeReg (CE_STAT (4 * k + i)))) = true := by decide +kernel

/-- The abort sequence begins in none of a cluster's engines that are UNBOUND or HALTED. -/
theorem State.foldl_beginAbort_idle {a : After} {l : List Nat} (h : ∀ e ∈ l, s.ceState e = ceUnbound ∨ s.ceState e = ceHalted) :
    l.foldl (fun s e => s.beginAbort e a) s = s :=
  List.foldlRecOn (motive := fun t => t = s) l _ rfl fun _ ht e he => ht ▸ State.beginAbort_of_idle a (ht ▸ h e he)

theorem clusterPwrOff_completes (hcanon : s.canon = true) (o : Origin) (v : Word) (hcommitted : s.committed = true)
    (hidle : (List.range 4).all (fun i => s.ceState (4 * k + i) == ceUnbound || s.ceState (4 * k + i) == ceHalted) = true)
    (hv : fldOf (CL_CTRL.PWR_OFF k) v = 1) : Completes (.clusterPwrOff o k v) s fun t =>
      t.clustersOff.contains k.val = true ∧ t.bit (CL_CTRL.PWR_OFF k) = true := by
  obtain ⟨hrow, hlog⟩ := clusterRow_plain k
  have hbase : 0x80000 ≤ CL_CTRL k := by simp only [CL_CTRL]; omega
  have hkeeps : s.Keeps (logFields ++ [wholeReg (CL_CTRL k)]) 0 id (s.regStore o (CL_CTRL k) v) :=
    .regStore (List.subset_append_left _ _) (by simp) hbase (.of_canon hcanon)
  have hoff : (s.regStore o (CL_CTRL k) v).bit (CL_CTRL.PWR_OFF k) = true := by
    refine bit_of_rd_one ((rd_regStore (f := CL_CTRL.PWR_OFF k) hcanon hbase (Nat.le_of_ble_eq_true rfl) (fun i hi => ?_) hrow
      (State.regExists_of_committed hcommitted _) hlog v).trans hv)
    obtain rfl : i = 0 := Nat.lt_one_iff.1 hi
    exact (by decide : Nat.testBit 1 0 = true)
  generalize hu : s.regStore o (CL_CTRL k) v = u at hkeeps hoff
  have hquiet : ∀ i < 4, u.ceState (4 * k + i) = ceUnbound ∨ u.ceState (4 * k + i) = ceHalted := fun i hi => by
    have hstate : u.ceState (4 * k + i) = s.ceState (4 * k + i) := hkeeps.rd_at (clusterFields_apart k ⟨i, hi⟩)
    rw [hstate]
    simpa using List.all_eq_true.1 hidle i (List.mem_range.2 hi)
  have hnone : ((List.range 4).map (fun i => 4 * k.val + i)).foldl (fun s e => s.beginAbort e .power) u = u :=
    State.foldl_beginAbort_idle fun e he => by
      obtain ⟨i, hi, rfl⟩ := List.mem_map.1 he
      exact hquiet i (List.mem_range.1 hi)
  refine completes_of_next (t := u.clusterDrained k) ?next ⟨State.clusterDrained_off hoff hquiet, (State.bit_clusterDrained _ _ _).trans hoff⟩
  change execClusterPwrOff o k v s = _
  rw [execClusterPwrOff]
  simp only [hu, hoff, if_true, hnone]

end

/-- Settles O34: what stops an engine's work leaves the registers of its control and of its faults as they are, an idle cluster has nothing to
stop, and the aborts that end with an engine leave its own registers alone. -/
theorem engineControlCompletes : Obligations.EngineControlCompletes := by
  unfold Obligations.EngineControlCompletes
  refine ⟨?start, ?halt, ?bind, ?started, ?entry, ?grace, ?stop, ?halted, ?watchdog, ?fault, ?power⟩
  case start =>
    exact fun s o e v hcanon ⟨hbound, hcommitted, hstate, hwhy, hon⟩ => start_completes hcanon o v hbound hcommitted hstate hwhy hon
  case halt => exact fun s o e v hcanon hrun => halt_completes hcanon o v hrun
  case bind =>
    exact fun s o e v hcanon ⟨hcommitted, hstate, hunbound, hen⟩ => ceBindWrite_completes hcanon o v hcommitted hstate hunbound hen
  case started =>
    exact fun s e hcanon ⟨hstate, hrun, hwhy, _, hdue⟩ ⟨hsound, hshared⟩ hon =>
      engineStarted_completes hcanon hstate hrun hwhy hdue hsound hshared hon
  case entry => exact fun s e hcanon ⟨hstate, hphase⟩ => abortEntry_completes hcanon hstate hphase
  case grace => exact fun s e hcanon ⟨hstate, hphase⟩ => engineGraceEnd_completes hcanon hstate hphase
  case stop => exact fun s e hcanon ⟨hstate, hphase⟩ => engineStop_completes hcanon hstate hphase
  case halted => exact fun s e hcanon ⟨hstate, hphase, hafter⟩ => engineHalted_completes hcanon hstate hphase hafter
  case watchdog =>
    exact fun s e addr hcanon b hcount ⟨hrun, hwdog, hparts, hoff⟩ => watchdog_completes hcanon addr hcount hrun hwdog hparts hoff
  case fault =>
    exact fun s e cause addr hcanon ⟨hrun, hcause, hparts, hoff⟩ => engineFault_completes hcanon cause addr hrun hcause hparts hoff
  case power => exact fun s o k v hcanon ⟨hcommitted, hidle⟩ hv => clusterPwrOff_completes hcanon o v hcommitted hidle hv

end Sys2Proof.Machine
end

section
/-!
SUPPORT. A statement of 10_engines.md that fails in some canonical state, with that state: a queue port that pops a word with an error of a
memory that does not exist.
-/
namespace Sys2Proof.Machine

/-! ## A word with an error of a memory that the device does not have, at a queue port -/

/-- A device whose clocks run, with engine 0 RUNNING an image of one queue port (R360), which is bound to queue 0. The queue holds one word, with a
correctable error of memory 4: the memories that an injection names are 0 to 3 (R652), and the canonical form of a state says nothing of the
number. -/
def hurtQueuePort : State :=
  { (State.reset.wr (CE_STAT.STATE 0) ceRunning).on (CE_QPORT.BIND_EN 0 0) with
    stopped := {}
    mem := { scratch := [(slotBase 0 + 0x38, 1)] }
    queues := [(0, { ex := true, words := [{ data := 0x41 }], head := 1, hurt := [(0, 4, false)] })] }

/-- The engine pops the word (R377), and counts the error in the copy of DDR_CNT_CE that channel 2 would have. -/
theorem qpPop_hurtQueuePort : ∃ t, exec (.qpPop 0 0 1 false) hurtQueuePort = .next t ∧ t.reg (DDR_CNT_CE 2) = 1 :=
  ⟨_, rfl, by decide +kernel⟩

/-- Refutes O58: the frame of QP_POP lists the counters of two DRAM channels, and a canonical state can name a third. -/
theorem not_engineAndNetworkFrames : ¬ Obligations.EngineAndNetworkFrames := by
  unfold Obligations.EngineAndNetworkFrames
  rintro ⟨-, -, -, -, -, -, -, -, -, -, -, -, -, -, -, -, -, -, -, -, -, -, -, hpop, -⟩
  obtain ⟨t, hexec, hcount⟩ := qpPop_hurtQueuePort
  obtain ⟨-, hregs, -⟩ := hpop 0 0 1 false hurtQueuePort t (by decide +kernel) hexec
  have hkept := hregs (DDR_CNT_CE 2) (by decide +kernel)
  rw [hcount] at hkept
  exact absurd hkept (by decide +kernel)

end Sys2Proof.Machine
end
